-- ==== Sys2Proof/Word.lean ====
section
/-! DEFINITION. The word types of the block and the plainest field arithmetic (R7, R8). -/
namespace Sys2Proof

/-- A register, a Quill word, a table word: 32 bits (00_scope, Registers and access codes). -/
abbrev Word := BitVec 32
/-- One byte of a slab, of a host beat or of a die. -/
abbrev Byte := BitVec 8
/-- A frame as it stands on the media: 4,672 bytes, bit n of the frame being bit n % 8 of byte n / 8 (R234). -/
abbrev Frame := BitVec 37376
/-- One beat of a host port: byte k on bits [8k+7:8k] (R29). -/
abbrev Beat := BitVec 1024

end Sys2Proof
end

