-- ==== Sys2Proof/Syntax.lean ====
section
/-! DEFINITION. The commands of the block: one constructor for each row of spec/opcode_table.json, with the operands
that the row's rules name. An operand is what comes from outside the block (a register-port access, a beat, a status
byte of a die, a fuse word), or the unit concerned (a lane, a cluster, a channel), or an event of the hardware that no
rule lets the block decide (an upset that a code finds, a coincidence in one cycle). -/
namespace Sys2Proof

/-- What the requester drives on the register port beside the address (R43): RP_ID, RP_WDATA and RP_WPAR. -/
structure RpAcc where
  id   : BitVec 8
  data : Word
  par  : BitVec 4
  deriving DecidableEq, Repr

/-- The cause codes of an OPENING failure (R95). -/
inductive OpenCause where
  | fuseLoad | charRow | imageTimeout | imageFormat | digestMismatch | scribeStart | quillStart | trainSealLane
  | noLanes | defectStore | sealRecord | kekMissing | resetInOpening | sramInit | phaseTimeout
  deriving DecidableEq, Repr

/-- What a check of the Ledger finds (R353, R395, R408): nothing, a residue mismatch of CREDIT or RESERVE, of an
instance's USE or of a region's USED, or a parity error in a word of the cost table in use. -/
inductive Upset where
  | none | credit | use (inst : Fin 512) | used (region : Fin 2) | cost (word : Fin 5)
  deriving DecidableEq, Repr

/-- What a code finds in the word or row that is read (R348): nothing, a correctable or an uncorrectable error. -/
inductive Ecc where
  | clean | corrected | uncorrectable
  deriving DecidableEq, Repr

/-- What a core meets at an instruction (R161, R348, R429): an illegal instruction, a data address out of range, an uncorrectable IRAM word,
a register parity error, a residue mismatch of the program counter or a data address (the Scribe only), at all of which it halts, or a
corrected IRAM word, of its fetch or of its data access, after which it goes on. -/
inductive CoreFault where
  | illegal | dataAddress | iram | regParity | residue | corrected (data : Bool)
  deriving DecidableEq, Repr

/-- What the cache finds on a lookup (R327 to R330, R348): nothing, a corrected or an uncorrectable data word, or a parity error in the
tag or state of the way that the lookup reads. -/
inductive CcFault where
  | clean | corrected | dataWord | tagParity
  deriving DecidableEq, Repr

/-- One lookup of the Context Cache (R314): its class, its streaming hint, the requesting unit, and a store's bytes
(an empty list is a load of len bytes). -/
structure CcLookup where
  manager   : Bool
  streaming : Bool
  unit      : Fin 24
  len       : Nat
  bytes     : List Byte
  deriving DecidableEq, Repr

/-- The parameter-page fields that R118 takes from one LUN. -/
structure LunParam where
  dataBytes     : Nat
  spareBytes    : Nat
  pagesPerBlock : Nat
  blocksPerLun  : Nat
  luns          : Nat
  addrCycles    : Byte
  bitsPerCell   : Nat
  badMax        : Nat
  planeBits     : Nat
  freeBlock     : Bool
  deriving DecidableEq, Repr

/-- One copy of a parameter page as the lane reads it (R118): the bytes of an ONFI page, with the flag of its multi-plane
addressing attributes that R120 turns into MP_FREE_BLOCK, or the fields of the same meaning of a JESD230 page. -/
inductive ParamBody where
  | onfi (bytes : List Byte) (freeBlock : Bool)
  | jesd230 (fields : LunParam)
  deriving DecidableEq, Repr

/-- A copy of a parameter page, and whether its integrity CRC passes (R118). -/
structure ParamCopy where
  crcOk : Bool
  body  : ParamBody
  deriving DecidableEq, Repr

/-- What one target answers in training steps 3 and 4 (R140): the copies of the parameter page of each of its LUNs, the
signalling modes and timing modes it supports, and the first parameter byte that it returns to the Copperplate query, the GET
FEATURES at CAL_CP_FEAT.ADDR (R137; none: it returns FAIL status). -/
structure TargetFound where
  target : Fin 16
  luns   : List (List ParamCopy)
  modes  : List (Fin 4 × Fin 16)
  cpByte : Option Byte
  deriving DecidableEq, Repr

/-- One candidate's trial (R141): whether duty-cycle correction succeeds, the eye (left, right) that step 8 measures
for each of the four samplers of each of the eight DQ bits (32 eyes, bit-major; none: no tap passes), the eye of each of
the eight transmit delays, the
verification of step 11, and the DQS values that step 7 and the gate training give. -/
structure Trial where
  dccOk  : Bool
  rx     : List (Option (Fin 64 × Fin 64))
  tx     : List (Option (Fin 64 × Fin 64))
  crcOk  : Bool
  dqs    : Word
  deriving DecidableEq, Repr

/-- What discovery finds on one lane in phase TRAIN (R140): the targets that answer READ ID, the trials in candidate
order, and what the lane shows at the candidate that a restored record requests (R142; none: nothing passes there). -/
structure LaneFound where
  lane     : Fin 128
  targets  : List TargetFound
  trials   : List Trial
  restored : Option Trial
  deriving DecidableEq, Repr

/-- What phase SEAL reads of one region's copy (R92, R342): the raw frames of page 0. -/
structure SealCopy where
  region : Fin 2
  frames : List Frame
  deriving DecidableEq, Repr

/-- What a die answers to one read of the factory-bad scan (R131): a global die, an entry index, a page of its block, and byte 0 of that
page's spare area. -/
structure FactoryMark where
  die   : Fin 8192
  entry : Fin 8192
  page  : Fin 4096
  byte  : Byte
  deriving DecidableEq, Repr

/-- The commands of the block, one constructor for each row of the table. An operand with a default says what the hardware finds in an
array, and by default it finds nothing. -/
inductive Instr where
  /-- COLD_RESET_ASSERT (R69): RST_PWR_N falls and every flop except the dividers is reset. -/
  | coldResetAssert
  /-- COLD_RESET_RELEASE (R69): The synchronised RST_PWR_N is seen high: always-on, retention, fuse and host-port side are released, CLK_RESET_CAUSE is set and key sampling is enabled. -/
  | coldResetRelease
  /-- FUSE_ACK (R58): The fuse logic answers a word request with FUSE_ACK, and the word is stored or retried on a parity error. -/
  | fuseAck (data : Word) (par : BitVec 4)
  /-- FUSE_ACK_TIMEOUT (R58): No FUSE_ACK arrives within 1,024 CLK_AON cycles, so the word is read again or the fuse load fails. -/
  | fuseAckTimeout
  /-- CENTRAL_RELEASE (R69): Eight CLK_AON cycles after the fuse load, the central core and Context Cache are released and the mode moves from RESET to OPENING. -/
  | centralRelease
  /-- WARM_RESET_ASSERT (R71): RST_WARM_N falls: the lanes and host ports are held, and a reset during OPENING counts as a failure under R87. -/
  | warmResetAssert (withWarning : Bool)
  /-- WARM_RESET_RELEASE (R71): The synchronised RST_WARM_N is seen high, and the warm-reset steps 3 and 4 follow without a fuse reload. -/
  | warmResetRelease (found : List LaneFound) (copies : List SealCopy)
  /-- KEK_SAMPLE (R59): KEK_DATA is latched at the first edge with KEK_VALID and correct parity, and KEK_TAKEN is raised. -/
  | kekSample (data : BitVec 256) (par : BitVec 32)
  /-- PF_WARN_REGISTERED (R53): PF_WARN is sampled high on three consecutive CLK_AON edges and a power-fail warning is registered. -/
  | pfWarnRegistered (failure : Option OpenCause)
  /-- HOLDUP_OK_CHANGE (R417): The synchronised HOLDUP_OK changes, which holds or releases program and erase admission. -/
  | holdupOkChange (level : Bool)
  /-- MILLISECOND_EDGE (R55): The always-on timer's millisecond edge samples PWR_MEAS and PWR_CAP_REQ and drives the per-millisecond evaluations. -/
  | millisecondEdge (meas cap : BitVec 16)
  /-- THERM_CODE_UPDATE (R404): A new THERM_CODE value is evaluated each CLK_AON cycle against CRIT, stopping or resuming admission. -/
  | thermCodeUpdate (code0 code1 : BitVec 10)
  /-- SCAN_MODE_RISE (R62): SCAN_MODE rises: the key store, KEK and Inkwell are zeroised and the block enters RESET. -/
  | scanModeRise
  /-- SCAN_MODE_FALL (R62): SCAN_MODE falls and the block stays in RESET with undefined outputs until a cold reset. -/
  | scanModeFall
  /-- EXTEST (R61): The TAP instruction EXTEST drives the pad-slice boundary register onto the lane pins. -/
  | extest (pins shifted : List Bool)
  /-- IDCODE (R61): The TAP instruction IDCODE selects the TAP_IDCODE register. -/
  | idcode
  /-- SAMPLE_PRELOAD (R61): The TAP instruction SAMPLE/PRELOAD samples or preloads the boundary register. -/
  | samplePreload (pins shifted : List Bool)
  /-- CLAMP (R61): The TAP instruction CLAMP holds the pins from the boundary register with BYPASS selected. -/
  | clamp
  /-- HIGHZ (R61): The TAP instruction HIGHZ places the lane pins in high impedance. -/
  | highz
  /-- BYPASS (R61): The TAP instruction BYPASS, or any unlisted code, selects the bypass register. -/
  | bypass (code : BitVec 4 := 0b1111#4)
  /-- HP_REQUEST_ACCEPT (R30): The host accepts a request on a host port, and the transaction becomes outstanding on its tag. -/
  | hpRequestAccept (port : Fin 4)
  /-- HP_WRITE_BEAT (R32): The host accepts a write data beat, in request order. -/
  | hpWriteBeat (port : Fin 4)
  /-- HP_READ_BEAT (R34): The block accepts a read beat, checks its parity and response, and routes it to its issuer. -/
  | hpReadBeat (port : Fin 4) (tag : Fin 512) (data : Beat) (par : BitVec 128) (resp : BitVec 2)
  /-- HP_WRITE_STATUS (R36): The block accepts a write status, which frees the write tag and reports the write's response. -/
  | hpWriteStatus (port : Fin 4) (tag : Fin 512) (resp : BitVec 2)
  /-- HP_TIMEOUT (R39): A transaction passes GLB_HP_TIMEOUT and is retired as ERR_TARGET, with its tag quarantined. -/
  | hpTimeout (port : Fin 4) (wr : Bool) (tag : Fin 512)
  /-- REGISTER_WRITE (R102): A register-port write to a register without a row of its own is decided by the ordered checks and applied field by field. -/
  | registerWrite (addr : BitVec 23) (a : RpAcc)
  /-- RC_READ (R11): A read of a read-clear field returns its value and clears it. -/
  | rcRead (addr : BitVec 23) (id : BitVec 8)
  /-- MGR_OWNER_CLAIM (R83): A write of GLB_MGR_OWNER.CLAIM records the requester as owner, or hands over to the successor. -/
  | mgrOwnerClaim (a : RpAcc)
  /-- MGR_OWNER_RELEASE (R83): A write of GLB_MGR_OWNER.RELEASE from the owner clears the ownership. -/
  | mgrOwnerRelease (a : RpAcc)
  /-- MGR_SUCCESSOR_SET (R83): An owner write with CLAIM and RELEASE at 0 replaces SUCCESSOR and SUCC_EN. -/
  | mgrSuccessorSet (a : RpAcc)
  /-- EXPERT_ARM (R106): A write of KEY 0x4E58 arms the expert unlock, or is refused at seal level 2. -/
  | expertArm (a : RpAcc)
  /-- EXPERT_OPEN (R106): The next owner write of KEY 0xB1A7 opens the expert level. -/
  | expertOpen (a : RpAcc)
  /-- EXPERT_CLOSE (R106): A write of KEY 0x0000 closes the expert level and clears PAGE_CTL.EXPERT on every page. -/
  | expertClose (a : RpAcc)
  /-- PAGE_LOCK (R108): A 1 written to PAGE_LOCK.LOCK locks the page's RW settings until reset. -/
  | pageLock (page : Fin 2048) (a : RpAcc)
  /-- ERR_CAPT_CLEAR (R109): A 1 written to ERR_CAPT0.VALID clears the captured error record. -/
  | errCaptClear (page : Fin 2048) (a : RpAcc)
  /-- GO (R89): A write of GLB_OPEN_CTL.GO ends AWAIT_IMAGES and starts MEASURE. -/
  | go (a : RpAcc) (withTimeout : Bool)
  /-- CLEAR (R94): A write of GLB_BOOT_ATTEMPT.CLEAR in FALLBACK returns COUNT to 0. -/
  | clear (a : RpAcc)
  /-- LOAD_WINDOW_WRITE (R88): A write to the load window stores bytes in the image store when the phase or an armed reload allows it. -/
  | loadWindowWrite (addr : BitVec 23) (a : RpAcc)
  /-- RESUME (R142): A write of CAL_CTL.RESUME ends the training hold, and the lanes continue with restored or full training. -/
  | resume (a : RpAcc)
  /-- RECAL (R146): A write of LN_CAL_CTL.RECAL starts a calibration run on the lane. -/
  | recal (lane : Fin 128) (a : RpAcc)
  /-- RETRAIN (R148): A write of LN_CAL_CTL.RETRAIN requests a retrain of the lane from its first candidate. -/
  | retrain (lane : Fin 128) (a : RpAcc)
  /-- LANE_SHADOW_WRITE (R149): A write of a lane timing RWS register lands in the shadow and sets PENDING. -/
  | laneShadowWrite (lane : Fin 128) (which : Fin 6) (a : RpAcc) (handOver : Bool)
  /-- MARK_QUERY (R127): DF_MARK_CMD query reads a defect-bitmap entry. -/
  | markQuery (a : RpAcc) (cc : CcFault)
  /-- MARK_GROWN_HOST (R127): DF_MARK_CMD marks a GOOD entry GROWN_HOST. -/
  | markGrownHost (a : RpAcc) (cc : CcFault)
  /-- MARK_CLEAR (R127): DF_MARK_CMD clears a GROWN_BLOCK or GROWN_HOST entry to GOOD. -/
  | markClear (a : RpAcc) (cc : CcFault)
  /-- RING_CMD_READ (R186): TN_RING_CMD READ copies a ring context into the window registers. -/
  | ringCmdRead (a : RpAcc) (cc : CcFault)
  /-- RING_CMD_WRITE (R186): TN_RING_CMD WRITE installs the window as the context of an OFF ring. -/
  | ringCmdWrite (a : RpAcc) (cc : CcFault)
  /-- DISABLE (R186): TN_RING_CMD DISABLE turns a ring with no outstanding commands OFF. -/
  | disable (a : RpAcc) (cc : CcFault)
  /-- RESET_RING (R186): TN_RING_CMD RESET_RING zeroes the indices of a FENCED or ERROR ring and makes it ACTIVE. -/
  | resetRing (a : RpAcc) (cc : CcFault)
  /-- DOORBELL_SUB_PROD (R187): A DB_RING write with KIND 0 sets a SUB ring's PROD and offers slots to the fetcher. -/
  | doorbellSubProd (page : Fin 512) (a : RpAcc) (cc : CcFault) (residue : Bool)
  /-- DOORBELL_CPL_CONS (R187): A DB_RING write with KIND 1 sets a CPL ring's CONS and frees slots. -/
  | doorbellCplCons (page : Fin 512) (a : RpAcc) (cc : CcFault) (residue : Bool := false)
  /-- INTAKE_FLUSH_BULK (R201): CL_INTAKE_FLUSH.BULK discards the Bulk Intake's packets, which complete ABORTED FLUSHED. -/
  | intakeFlushBulk (cl : Fin 16) (a : RpAcc)
  /-- INTAKE_FLUSH_URGENT (R201): CL_INTAKE_FLUSH.URGENT discards the Urgent Intake's packets, which complete ABORTED FLUSHED. -/
  | intakeFlushUrgent (cl : Fin 16) (a : RpAcc)
  /-- LAT_HIST_CLEAR (R227): LN_LAT_SEL.CLEAR zeroes every latency histogram bucket. -/
  | latHistClear (lane : Fin 128) (a : RpAcc)
  /-- GB_HIST_CLEAR (R262): LN_GB_SEL.CLEAR zeroes every Gambit histogram bucket. -/
  | gbHistClear (lane : Fin 128) (a : RpAcc)
  /-- PT_HIST_CLEAR (R364): PT_HIST_SEL.CLEAR zeroes every Patrol histogram bucket. -/
  | ptHistClear (a : RpAcc)
  /-- REWALK (R263): CAL_GB_SCMD REWALK returns a Scribe-held frame to its lane's Gambit queue for one more walk. -/
  | rewalk (a : RpAcc)
  /-- GB_FAIL (R263): CAL_GB_SCMD FAIL fails a Scribe-held frame. -/
  | gbFail (a : RpAcc) (cc : CcFault := .clean)
  /-- FR_QUERY (R281): DF_FR_CMD QUERY shows a plane-block's frontier record. -/
  | frQuery (a : RpAcc) (cc : CcFault)
  /-- FR_CLOSE (R281): DF_FR_CMD CLOSE frees a frontier record that no command holds. -/
  | frClose (a : RpAcc) (cc : CcFault)
  /-- FR_OPEN (R281): DF_FR_CMD OPEN creates an OPEN frontier record at a given page. -/
  | frOpen (a : RpAcc) (cc : CcFault)
  /-- CC_CLEAN (R320): CC_MAINT CLEAN writes back the dirty lines of the range. -/
  | ccClean (a : RpAcc)
  /-- CC_INVALIDATE (R320): CC_MAINT INVALIDATE drops the lines of the range, discarding dirty data. -/
  | ccInvalidate (a : RpAcc)
  /-- CC_CLEAN_INVALIDATE (R320): CC_MAINT CLEAN_INVALIDATE writes back and then drops the lines of the range. -/
  | ccCleanInvalidate (a : RpAcc)
  /-- PRELOAD_LOCK (R320): CC_MAINT PRELOAD_LOCK fills and locks the lines of the range. -/
  | preloadLock (a : RpAcc) (bad : Option (Fin 32768))
  /-- UNLOCK (R320): CC_MAINT UNLOCK clears LOCK on the lines of the range. -/
  | unlock (a : RpAcc)
  /-- INVAL_ALL (R320): CC_MAINT INVAL_ALL drops every line, including the victim cache. -/
  | invalAll (a : RpAcc)
  /-- CC_ENABLE (R324): A write of CC_CTL.EN = 1 enables the cache if an invalidate-all has completed, or withdraws a pending drain. -/
  | ccEnable (a : RpAcc)
  /-- CC_DISABLE (R325): A write of CC_CTL.EN = 0 starts or schedules a drain of the cache. -/
  | ccDisable (a : RpAcc)
  /-- LOAD (R333): KY_CMD LOAD starts unwrapping a key into a slot. -/
  | load (a : RpAcc)
  /-- ZEROISE (R334): KY_CMD ZEROISE empties one key slot. -/
  | zeroise (a : RpAcc)
  /-- ZEROISE_INST (R334): KY_CMD ZEROISE_INST empties the four key slots of an instance. -/
  | zeroiseInst (a : RpAcc)
  /-- SEAL_RAISE (R343): A KY_SEAL_CMD request for a higher level writes the seal copies and latches the level. -/
  | sealRaise (a : RpAcc)
  /-- SEAL_LOWER (R344): A KY_SEAL_CMD request for a lower level zeroises the keys and starts the sanitize sequence. -/
  | sealLower (a : RpAcc) (cc : CcFault) (upset : Upset)
  /-- START (R307): MV_CH_CMD.START runs a Manager channel's descriptor chain. -/
  | start (ch : Fin 64) (a : RpAcc)
  /-- STOP (R308): MV_CH_CMD.STOP moves a Manager channel into STOPPING. -/
  | stop (ch : Fin 64) (a : RpAcc)
  /-- MV_CLEAR (R308): MV_CH_CMD.CLEAR returns a HALTED or IDLE channel to IDLE and clears CAUSE and TRIG_PEND. -/
  | mvClear (ch : Fin 64) (a : RpAcc)
  /-- MV_TIMER_WRITE (R309): A write of MV_TMRn restarts the trigger timer. -/
  | mvTimerWrite (n : Fin 8) (a : RpAcc)
  /-- MV_CFG_SHADOW_WRITE (R310): A write of MV_CH_CFG lands in the shadow and sets PENDING. -/
  | mvCfgShadowWrite (ch : Fin 64) (a : RpAcc) (handOver : Bool)
  /-- CREATE (R384): TN_CMD CREATE moves a FREE instance to FENCED. -/
  | create (a : RpAcc)
  /-- TN_RESET (R390): TN_CMD RESET fences an instance and removes its work from the shared engines. -/
  | tnReset (a : RpAcc) (cc : CcFault)
  /-- UNFENCE (R384): TN_CMD UNFENCE makes a FENCED instance ACTIVE. -/
  | unfence (a : RpAcc) (cc : CcFault)
  /-- DESTROY (R384): TN_CMD DESTROY returns a fenced instance with no resources to FREE. -/
  | destroy (a : RpAcc)
  /-- REPAIR_ADD (R358): A write of SW_REP_ADD.GO at the expert level remaps a row of a macro group. -/
  | repairAdd (a : RpAcc)
  /-- VECTOR_CTL_WRITE (R441): A write of SG_VT_CTL updates a vector's controls, and clearing MASK with PEND set issues one message write. -/
  | vectorCtlWrite (vec : Fin 4096) (a : RpAcc)
  /-- DB_VEC_MASK_WRITE (R378): A doorbell write of DB_VEC_MASK masks or unmasks the instance's vectors, withdrawing unpresented messages. -/
  | dbVecMaskWrite (page : Fin 512) (a : RpAcc)
  /-- SENSE_MODE_WRITE (R371): A write of SG_SENSE changes a Manager source's sensing mode. -/
  | senseModeWrite (n : Fin 8) (a : RpAcc)
  /-- RET_CLEAR (R425): BL_CFG.RET_CLEAR empties the retained log. -/
  | retClear (a : RpAcc)
  /-- ARM (R431): GLB_SCR_CTL.ARM arms a Scribe reload while the Scribe is LOST. -/
  | arm (a : RpAcc)
  /-- SCRIBE_RELOAD_GO (R431): GLB_SCR_CTL.GO starts a Scribe reload with re-measurement. -/
  | scribeReloadGo (a : RpAcc)
  /-- PB_OPEN (R433): A write of PB_CTL KEY 0x7E57 at the expert level opens the perturbation area. -/
  | pbOpen (a : RpAcc)
  /-- PB_CLOSE (R433): A write of PB_CTL KEY 0x0000 closes perturbation and resets every slot. -/
  | pbClose (a : RpAcc)
  /-- PB_SEED_WRITE (R435): A write of PB_SEED reseeds every slot's generator. -/
  | pbSeedWrite (a : RpAcc)
  /-- PX_CTL_WRITE (R434): A write of PX_CTLk arms a perturbation slot or is refused. -/
  | pxCtlWrite (page : Fin 2048) (slot : Fin 4) (a : RpAcc)
  /-- EG_SUMMARY_CLEAR (R419): A 1 written to GLB_EG_SUM.VALID clears the retained Endgame summary. -/
  | egSummaryClear (a : RpAcc)
  /-- QUOTA_WRITE (R287): A write of IW_TN_QUOTA sets an instance's slab limits or is refused. -/
  | quotaWrite (a : RpAcc)
  /-- SHARE_WRITE (R397): A write of LG_TN_SHARE recomputes the instance's Ledger limit at once. -/
  | shareWrite (a : RpAcc)
  /-- AWAIT_IMAGES_TIMEOUT (R85): GLB_OPEN_TIMEOUT expires in AWAIT_IMAGES and OPENING fails with IMAGE_TIMEOUT. -/
  | awaitImagesTimeout
  /-- PHASE_TIMEOUT (R85): An OPENING phase passes its limit and OPENING fails. -/
  | phaseTimeout
  /-- MEASURE_DONE (R89): The Measurement Engine finishes the SHA-384 digest, which becomes visible with the new load count. -/
  | measureDone (uncorr : Bool) (corrected : List (Fin 2560) := [])
  /-- START_PHASE (R162): Phase START initialises the SRAMs, copies the images, checks headers and the stroke table, and starts the cores. -/
  | startPhase (sramErr : Bool)
  /-- TRAIN_PHASE (R140): Phase TRAIN resets every die, reads IDs and parameter pages, and trains each lane. -/
  | trainPhase (found : List LaneFound)
  /-- SEAL_PHASE (R92): Phase SEAL classifies both seal copies, latches a level and rewrites copies as required. -/
  | sealPhase (copies : List SealCopy)
  /-- DEFECT_PHASE (R130): Phase DEFECT runs the factory-bad scan and reads every defect bitmap. -/
  | defectPhase (markers : List FactoryMark) (cc : CcFault)
  /-- SERVICE_ENTRY (R79): OPENING completes and the block enters SERVICE, clearing the boot-attempt count and restarting the Ledger. -/
  | serviceEntry (upset : Upset)
  /-- OPENING_RESTART (R87): One millisecond after an OPENING failure the block re-enters OPENING, or enters FALLBACK at COUNT 3. -/
  | openingRestart (found : List LaneFound) (copies : List SealCopy)
  /-- CAL_RUN_STEP (R144): A calibration tap step fills with STEP_KIB of read data, and its mismatches are recorded. -/
  | calRunStep (lane : Fin 128) (mism : List Nat) (withWrite : Bool)
  /-- CAL_STEP_WAIT_EXPIRY (R146): A calibration step has not filled within MAX_WAIT_US, so training strokes are inserted at idle points. -/
  | calStepWaitExpiry (lane : Fin 128)
  /-- CASTLING (R149): At an idle point with PENDING set, the lane timing shadows are copied to the active set. -/
  | castling (lane : Fin 128)
  /-- FORCED_IDLE (R151): PENDING has held for CAL_CASTLE.MAX_US, so the lane stops committing strokes until an idle point. -/
  | forcedIdle (lane : Fin 128)
  /-- RETRAIN_RUN (R148): The Scribe retrains a lane at its current candidate or from the first one. -/
  | retrainRun (lane : Fin 128) (trials : List Trial)
  /-- RETRAIN_READY_TIMEOUT (R148): The targets are not all ready within 50 ms, so the retrain is abandoned. -/
  | retrainReadyTimeout (lane : Fin 128)
  /-- RETRAIN_REREQUEST (R148): 10 ms after an abandoned retrain, the retrain is requested again. -/
  | retrainRerequest (lane : Fin 128)
  /-- RB_READY (R155): Lg_RB_N shows a target ready, and the lane reads its status once. -/
  | rbReady (lane : Fin 128) (die : Fin 64) (status : Byte) (cc : CcFault)
  /-- ADD (R158): Quill instruction ADD. -/
  | qAdd (core : Fin 17)
  /-- ADDI (R158): Quill instruction ADDI. -/
  | qAddi (core : Fin 17)
  /-- SUB (R158): Quill instruction SUB. -/
  | qSub (core : Fin 17)
  /-- AND (R158): Quill instruction AND. -/
  | qAnd (core : Fin 17)
  /-- OR (R158): Quill instruction OR. -/
  | qOr (core : Fin 17)
  /-- XOR (R158): Quill instruction XOR. -/
  | qXor (core : Fin 17)
  /-- SHLI (R158): Quill instruction SHLI. -/
  | qShli (core : Fin 17)
  /-- SHRI (R158): Quill instruction SHRI. -/
  | qShri (core : Fin 17)
  /-- LUI (R158): Quill instruction LUI. -/
  | qLui (core : Fin 17)
  /-- LD (R158): Quill instruction LD loads a data word. -/
  | qLd (core : Fin 17)
  /-- ST (R158): Quill instruction ST stores a data word. -/
  | qSt (core : Fin 17)
  /-- BEQ (R158): Quill instruction BEQ. -/
  | qBeq (core : Fin 17)
  /-- BNE (R158): Quill instruction BNE. -/
  | qBne (core : Fin 17)
  /-- BLTU (R158): Quill instruction BLTU. -/
  | qBltu (core : Fin 17)
  /-- JAL (R158): Quill instruction JAL. -/
  | qJal (core : Fin 17)
  /-- JR (R158): Quill instruction JR. -/
  | qJr (core : Fin 17)
  /-- WAITEV (R160): Quill instruction WAITEV removes the oldest event, blocking while the queue is empty. -/
  | qWaitev (core : Fin 17)
  /-- CMDRD (R159): Quill instruction CMDRD reads a field of a command handle. -/
  | qCmdrd (core : Fin 17)
  /-- MAWROW (R158): Quill instruction MAWROW returns the row or column of a command's MAW. -/
  | qMawrow (core : Fin 17)
  /-- PSET (R168): Quill instruction PSET sets a parameter word of a lane's open parameter block. -/
  | qPset (core : Fin 17)
  /-- STRK (R168): Quill instruction STRK commits a stroke on a lane and returns its result. -/
  | qStrk (core : Fin 17)
  /-- DONE (R160): Quill instruction DONE ends the Quill's part of a command with a status. -/
  | qDone (core : Fin 17)
  /-- DEFER (R160): Quill instruction DEFER passes a command to the Scribe. -/
  | qDefer (core : Fin 17)
  /-- CSRR (R160): Quill instruction CSRR reads a Quill control register. -/
  | qCsrr (core : Fin 17)
  /-- CSRW (R160): Quill instruction CSRW writes a Quill control register, setting timers, the mailbox or the Scribe KICK. -/
  | qCsrw (core : Fin 17)
  /-- READY (R162): Quill instruction READY reports the core's start complete to OPENING. -/
  | qReady (core : Fin 17)
  /-- QUILL_TIMER (R160): A Quill timer expires and raises a TIMER event. -/
  | quillTimer (core : Fin 17) (n : Fin 4)
  /-- STROKE_START (R168): A committed stroke reaches the head of the lane queue, is checked again, and runs or is dropped. -/
  | strokeStart (lane : Fin 128) (ecc : Ecc)
  /-- END (R166): Stroke element END de-asserts CE_N and may put the LUN busy. -/
  | elEnd (lane : Fin 128)
  /-- CMD (R166): Stroke element CMD sends one command cycle. -/
  | elCmd (lane : Fin 128)
  /-- CMDP (R166): Stroke element CMDP sends a command cycle from a parameter byte. -/
  | elCmdp (lane : Fin 128)
  /-- ADDR (R166): Stroke element ADDR sends address cycles. -/
  | elAddr (lane : Fin 128)
  /-- DOUT (R166): Stroke element DOUT reads a data-out burst into the read FIFO or the raw buffer. -/
  | elDout (lane : Fin 128) (frames : List Frame) (raw : List Byte) (ecc : List Ecc := []) (byte : Fin 4672 := 0)
  /-- DIN (R166): Stroke element DIN sends encoded frames as a data-in burst. -/
  | elDin (lane : Fin 128) (ecc : List Ecc := [])
  /-- FEAT (R166): Stroke element FEAT sends four feature bytes as data-in. -/
  | elFeat (lane : Fin 128)
  /-- WAIT (R166): Stroke element WAIT holds the bus idle for a time, releasing it to other targets with REL. -/
  | elWait (lane : Fin 128)
  /-- STAT (R166): Stroke element STAT reads one status byte as the stroke's result. -/
  | elStat (lane : Fin 128) (status : Byte)
  /-- CE (R166): Stroke element CE asserts or de-asserts the target's chip enable. -/
  | elCe (lane : Fin 128)
  /-- BUSY_POLL (R176): A status poll of a busy LUN is made when its poll time arrives. -/
  | busyPoll (lane : Fin 128) (die : Fin 64) (status : Byte) (cc : CcFault)
  /-- SUSP_OVERRUN (R181): A LUN stays in SUSPENDING past TMO_10US and is passed to the Scribe. -/
  | suspOverrun (lane : Fin 128) (die : Fin 64)
  /-- RING_FETCH (R195): The Ring Fetcher fetches a packet from an active SUB ring and reserves a completion slot. -/
  | ringFetch (ring : Fin 32768) (cc : CcFault) (residue : Bool) (mawResidue : Option (Fin 5))
  /-- INTAKE_PUSH (R198): The Fetcher pushes a packet word into an intake, or is refused for back-pressure. -/
  | intakePush (cl : Fin 16) (urgent : Bool) (ecc : Ecc)
  /-- INTAKE_POP (R212): The dispatcher pops a visible packet and gives it a handle and a pending set. -/
  | intakePop (cl : Fin 16) (ecc : Ecc)
  /-- READ (R192): Command READ reads frames of a page to host buffers or a lease. -/
  | opRead (cl : Fin 16) (h : Fin 2048)
  /-- PROGRAM (R192): Command PROGRAM writes a plane page at the frontier. -/
  | opProgram (cl : Fin 16) (h : Fin 2048) (cc : CcFault := .clean)
  /-- ERASE (R192): Command ERASE erases a block. -/
  | opErase (cl : Fin 16) (h : Fin 2048)
  /-- COPY (R192): Command COPY moves a page between dies through Inkwell. -/
  | opCopy (cl : Fin 16) (h : Fin 2048)
  /-- BLANK_CHECK (R279): Command BLANK_CHECK classifies a page as ERASED, PARTIAL or PROGRAMMED. -/
  | opBlankCheck (cl : Fin 16) (h : Fin 2048)
  /-- FETCH (R290): Command FETCH writes a lease's slabs to the host. -/
  | opFetch (cl : Fin 16) (h : Fin 2048)
  /-- RELEASE (R290): Command RELEASE frees a lease. -/
  | opRelease (cl : Fin 16) (h : Fin 2048)
  /-- GET_FEATURE (R192): Command GET_FEATURE returns four feature parameter bytes of a die. -/
  | opGetFeature (cl : Fin 16) (h : Fin 2048)
  /-- SET_FEATURE (R192): Command SET_FEATURE writes four feature parameter bytes to a die. -/
  | opSetFeature (cl : Fin 16) (h : Fin 2048)
  /-- IDENTIFY (R192): Command IDENTIFY returns READ ID bytes and the parameter page. -/
  | opIdentify (cl : Fin 16) (h : Fin 2048)
  /-- RESET_DIE (R192): Command RESET_DIE resets a die. -/
  | opResetDie (cl : Fin 16) (h : Fin 2048)
  /-- RAW_READ (R249): Command RAW_READ delivers undecoded frame bytes at seal level 0. -/
  | opRawRead (cl : Fin 16) (h : Fin 2048)
  /-- PATROL_SAMPLE (R249): Command PATROL_SAMPLE decodes a page and reports MAX_CORR without transfer. -/
  | opPatrolSample (cl : Fin 16) (h : Fin 2048)
  /-- FENCE (R195): Command FENCE completes once every earlier command of its ring has completed. -/
  | opFence (ring : Fin 32768) (cc : CcFault)
  /-- SELECTION (R215): A lane scheduler picks the next candidate, checks it and asks the Ledger. -/
  | selection (lane : Fin 128) (cc : CcFault) (upset : Upset)
  /-- LEDGER_REFILL (R397): At each refill period the Ledger banks credit into the reserve and resets tenant limits. -/
  | ledgerRefill (upset : Upset)
  /-- HDE_PASS (R240): A free HDE takes the oldest waiting frame and starts decoding. -/
  | hdePass (cl : Fin 16) (k : Fin 2) (ecc : Ecc) (cc : CcFault := .clean) (byte : Fin 4672 := 0)
  /-- HDE_DONE (R240): An HDE pass ends with success or failure and the frame continues its flow. -/
  | hdeDone (cl : Fin 16) (k : Fin 2) (h : Fin 2048) (frame : Fin 32) (cc : CcFault) (ecc : Ecc := .clean)
  /-- SDE_CONTEXT_GRANT (R241): A frame is granted an SDE context and its hard data is copied in. -/
  | sdeContextGrant (reg : Fin 2) (ecc : Ecc) (cc : CcFault := .clean) (byte : Fin 4672 := 0)
  /-- SOFT_SENSING_ARRIVAL (R244): A soft sensing arrives in slot 15 and is forwarded to its SDE context. -/
  | softSensingArrival (lane : Fin 128) (ecc : Ecc := .clean) (cc : CcFault := .clean) (byte : Fin 4672 := 0)
  /-- SDE_DONE (R241): An SDE decode ends with success or failure. -/
  | sdeDone (reg : Fin 2) (ctx : Fin 32) (cc : CcFault)
  /-- GAMBIT_STEP (R262): The lane runs one Gambit step for the frame at the head of its queue. -/
  | gambitStep (lane : Fin 128) (parity : Bool) (cc : CcFault)
  /-- CIPHER_UNIT (R338): A free cipher engine takes the oldest waiting data unit. -/
  | cipherUnit (cl : Fin 16) (k : Fin 2) (ecc : Ecc := .clean) (cc : CcFault := .clean)
  /-- CIPHER_UNIT_DONE (R338): A cipher engine finishes a data unit. -/
  | cipherUnitDone (cl : Fin 16) (k : Fin 2) (ecc : Ecc := .clean) (cc : CcFault := .clean)
  /-- ZERO_FILL_DONE (R288): A released slab finishes its zero-fill and becomes FREE. -/
  | zeroFillDone (slab : Fin 8192) (tag : Bool := false)
  /-- CHANNEL_TAKE (R294): A free pool channel takes the oldest command ready to move. -/
  | channelTake
  /-- MOVER_REQUEST (R298): A channel is granted its port and issues one funnel request. -/
  | moverRequest (ch : Fin 64) (ecc : Ecc) (residue tag : Bool)
  /-- DESCRIPTOR_FETCH (R307): A Manager channel's descriptor arrives and is checked. -/
  | descriptorFetch (ch : Fin 64)
  /-- TRIGGER_TICK (R309): A Mover timer ticks and counts a trigger on its channels. -/
  | triggerTick (n : Fin 8)
  /-- MV_CASTLING (R310): At a descriptor boundary with PENDING set, MV_CH_CFG is copied to the active set. -/
  | mvCastling (ch : Fin 64)
  /-- COMPLETION_WRITE (R204): A ready completion is written into its CPL ring slot on the notify path. -/
  | completionWrite (port : Fin 4) (cc : CcFault) (bad : Option (Fin 5)) (pair : Option (Fin 4096)) (residue : Bool := false)
  /-- LATE_ERR (R208): A LATE_ERR completion is written, or queued while the ring has no free slot. -/
  | lateErr (cc : CcFault) (residue : Bool := false)
  /-- WINDOW_EXPIRY (R376): A vector's coalescing window expires and delivers. -/
  | windowExpiry (vec : Fin 4096) (bad : Option (Fin 5))
  /-- VECTOR_MESSAGE_WRITE (R377): A vector's message write is issued once the statuses it waits for have returned. -/
  | vectorMessageWrite (vec : Fin 4096)
  /-- EDGE_CATCH (R381): An always-on edge catcher holds an edge during block doze and wakes the block. -/
  | edgeCatch (src : Fin 128) (rising : Bool := true)
  /-- CC_LOOKUP (R314): A unit's lookup of a Context Cache line is granted, hits, merges or takes a miss register. -/
  | ccLookup (off : BitVec 30) (l : CcLookup) (err : CcFault)
  /-- CC_FILL (R316): A fill beat arrives, the line is installed and the merged lookups are applied. -/
  | ccFill (reg : Fin 17)
  /-- CC_WRITEBACK_STATUS (R318): A write-back status returns and frees or holds the victim entry. -/
  | ccWritebackStatus (slot : Fin 32)
  /-- CC_RETRY (R328): RETRY_US expires, and a failed write-back or held lookup is issued again. -/
  | ccRetry (cc : CcFault)
  /-- CLUSTER_DOZE (R74): A cluster idle for IDLE_US dozes after saving state to retention. -/
  | clusterDoze (cl : Fin 16)
  /-- CLUSTER_WAKE (R75): A wake demand restarts a dozed cluster, zero-fills its bank and restores its state. -/
  | clusterWake (cl : Fin 16)
  /-- SDE_REGION_DOZE (R76): An SDE region idle for IDLE_US dozes. -/
  | sdeRegionDoze (reg : Fin 2)
  /-- SDE_REGION_WAKE (R76): A soft-decode request wakes a dozed SDE region. -/
  | sdeRegionWake (reg : Fin 2)
  /-- BLOCK_DOZE (R76): The block dozes once all clusters and regions are dozed and central units are idle. -/
  | blockDoze
  /-- BLOCK_WAKE (R76): An access, doorbell, warning, edge catch, window expiry or hot reading wakes the block. -/
  | blockWake
  /-- LEAK (R354): LEAK_MS expires and a bucket group's level falls by one. -/
  | leak (g : Fin 8) (adds : List (Fin 512 × Fin 4096) := [])
  /-- SWEEP_ROW (R359): Sweep reads one row of an enabled array and corrects or reports its errors. -/
  | sweepRow (found : Ecc) (half : Bool) (shared : Bool := false) (victim : Option (Fin 32) := none)
  /-- PATROL_ISSUE (R363): Patrol issues the next sample at its spaced rate. -/
  | patrolIssue (cc : CcFault)
  /-- RESET_DONE (R390): When every command of a resetting instance has ended, its keys are zeroised and the final summary is written. -/
  | resetDone (cc : CcFault)
  /-- SANITIZE_ERASE (R345): The opening sequencer issues the next sanitize erase when the region has room. -/
  | sanitizeErase (lane : Fin 128) (die : Fin 64) (cc : CcFault)
  /-- SANITIZE_DONE (R344): The sanitize ends, the copies are rewritten and the lower level is latched. -/
  | sanitizeDone (upset : Upset)
  /-- KEY_LOAD_DONE (R333): A key unwrap ends, loading the slot or refusing it. -/
  | keyLoadDone
  /-- ENDGAME_END (R413): Every LUN reaches ready with its action done, so the block moves to RESET. -/
  | endgameEnd
  /-- ENDGAME_BUDGET_EXPIRY (R413): The ENDGAME budget expires and busy LUNs are abandoned as cut. -/
  | endgameBudgetExpiry
  /-- EG_HEADER_WRITE (R416): The Endgame summary header is written to host memory once every entry's status has returned. -/
  | egHeaderWrite
  /-- WATCHDOG_EXPIRY (R428): The Scribe watchdog reaches its limit without a KICK. -/
  | watchdogExpiry
  /-- SCRIBE_RELOAD (R432): A Scribe reload ends with its result. -/
  | scribeReload (sramErr noReady : Bool)
  /-- ILLEGAL_INSTRUCTION (R161): A Quill or the Scribe executes a word whose opcode is not in the instruction table and faults. -/
  | illegalInstruction (core : Fin 17) (why : CoreFault)
  /-- RB_BUSY_TIMEOUT (R177): With RB_N in use, a LUN still shows busy on RB_N when its LN_BUSY_TMO limit passes, and a busy time-out is declared. -/
  | rbBusyTimeout (lane : Fin 128) (die : Fin 64) (cc : CcFault)
  /-- MAINT_DONE (R320): A Context Cache maintenance operation finishes visiting its lines, BUSY falls, INVAL_DONE is set after INVAL_ALL and a pending drain begins. -/
  | maintDone
  /-- DRAIN_DONE (R325): The drain has visited every line with every status returned, and the cache becomes DISABLED with DRAIN_DONE set. -/
  | drainDone
  deriving DecidableEq, Repr

end Sys2Proof
end

