-- ==== Sys2Proof/WellFormed.lean ====
section
/-! DEFINITION. Which commands are well formed: the operands that the environment or the hardware supplies have the
sizes that the spec gives them. Lane, cluster and channel numbers are bounded by their types; a unit that the build
does not have makes a command without effect, not an ill-formed one. -/
namespace Sys2Proof

/-- A trial measures 32 receive eyes (8 DQ bits by four samplers) and 8 transmit eyes, with left at most right (R141). -/
def Trial.wellFormed (t : Trial) : Bool :=
  t.rx.length == 32 && t.tx.length == 8
    && (t.rx ++ t.tx).all (fun e => match e with | some (l, r) => decide (l ≤ r) | none => true)

/-- A target holds one to four LUNs (R113). -/
def TargetFound.wellFormed (t : TargetFound) : Bool := decide (1 ≤ t.luns.length ∧ t.luns.length ≤ 4)

/-- What TRAIN finds on a lane: each target once, well formed (R140). -/
def LaneFound.wellFormed (f : LaneFound) : Bool :=
  f.targets.all TargetFound.wellFormed && decide ((f.targets.map TargetFound.target).Nodup)
    && f.trials.all Trial.wellFormed && f.restored.all Trial.wellFormed

/-- What SEAL reads of a copy is at most the page's frames: 32 (R114). -/
def SealCopy.wellFormed (c : SealCopy) : Bool := decide (c.frames.length ≤ 32)

/-- A lookup of the Context Cache lies within one line: 1 to 128 bytes, not across the line's end (R314). -/
def CcLookup.wellFormed (off : BitVec 30) (l : CcLookup) : Bool :=
  decide (1 ≤ l.len ∧ off.toNat % 128 + l.len ≤ 128) && (l.bytes.isEmpty || l.bytes.length == l.len)

/-- The well-formed commands. -/
def Instr.wellFormed : Instr → Bool
  | .trainPhase found => found.all LaneFound.wellFormed && decide ((found.map LaneFound.lane).Nodup)
  | .sealPhase copies => copies.all SealCopy.wellFormed && decide ((copies.map SealCopy.region).Nodup)
  | .openingRestart found copies | .warmResetRelease found copies =>
    found.all LaneFound.wellFormed && decide ((found.map LaneFound.lane).Nodup)
      && copies.all SealCopy.wellFormed && decide ((copies.map SealCopy.region).Nodup)
  | .defectPhase markers _ => decide ((markers.map (fun m => (m.die, m.entry, m.page))).Nodup)
  | .calRunStep _ mism _ => mism.length == 8
  | .retrainRun _ trials => trials.all Trial.wellFormed
  | .elDout _ frames raw ecc _ => decide (frames.length ≤ 32) && decide (raw.length ≤ 65535) && decide (ecc.length ≤ 32)
  | .elDin _ ecc => decide (ecc.length ≤ 32)
  | .ccLookup off l _ => CcLookup.wellFormed off l
  | _ => true

end Sys2Proof
end

