-- ==== Sys2Proof/Config.lean ====
section
/-! DEFINITION. What an implementation fixes and the spec's words leave open: constants without a body. No proof can
see their values, so a claim holds whatever they are (log entries 3, 4, 5, 26 and 37). -/
namespace Sys2Proof

/-- Word k of the 16 KiB ROM program that the cluster 0 Quill runs in FALLBACK (R163): the spec gives its size and
what it does, not its words. Free value, log entry 4. -/
opaque Config.quillRom : Nat → Word
/-- What an output of the block carries in and after scan, for the n-th such output (R62 calls it undefined). Free
value, log entry 3. -/
opaque Config.scanOut : Nat → Word
/-- The command, address and data-in cycles of the standard's training sequence for a DQ training stroke (R169 refers to the standards),
by signalling mode and stroke: element words. Free value, log entry 5. -/
opaque Config.trainElems : Nat → Nat → List Word
/-- The bytes, less one, of the read-training pattern that the standard of a signalling mode sends out (R169). Free value, log
entry 5. -/
opaque Config.trainBytes : Nat → Nat
/-- Nanoseconds of the named waits tWHR, tADL, tCCS, tRHW (1 to 4) of a standard timing mode (R166, R170: the
standard's published parameters), by signalling mode, timing mode and parameter. Free value, log entry 5. -/
opaque Config.stdTiming : Nat → Nat → Nat → Nat
/-- Highest timing mode and its published rate in MT/s of a standard signalling mode (R134, R135: what ONFI 5.1 and
JESD230 publish), by mode and timing mode; 0 where there is none. Free value, log entry 5. -/
opaque Config.stdRate : Nat → Nat → Nat
/-- The bytes that a program sends for a frame whose slab is poisoned, for the n-th such frame (R291 keeps the slab's bytes
from the media and gives no others). Free value, log entry 26. -/
opaque Config.poisonFrame : Nat → Frame
/-- PATCH of GLB_RELEASE (R2 gives the field, not the part's number). Implementation-defined, log entry 37. -/
opaque Config.patch : BitVec 8
/-- Bits 31 to 1 of the build parameter TAP_IDCODE (R61 fixes only bit 0). Implementation-defined, log entry 37. -/
opaque Config.idcode : BitVec 31
end Sys2Proof
end

