-- ==== Sys2Proof/Machine/RegMap.lean ====
section
/-! DEFINITION. The register map (R96 to R100): the address of every register, and for each the bits that its fields
make RW, RWS or RWE, W1C, W1S and RC (R9), and its reset value, as the register descriptions of the spec's files state
them. Bits in none of these masks are RO, WO or RSV. -/
namespace Sys2Proof.Machine

/-- A register, or count registers four bytes apart: its offset, the masks of its fields by access code, its reset. -/
structure RegRow where
  off   : Nat
  count : Nat
  rw    : Word
  w1c   : Word
  w1s   : Word
  rc    : Word
  reset : Word
  deriving DecidableEq, Repr

namespace Reg
/-! Addresses: of a single page the byte address in the aperture; of a replicated page the offset in the page. -/

/-- CL_QUILL_STAT. -/
abbrev CL_QUILL_STAT : Nat := 0x40
/-- CL_QUILL_PC. -/
abbrev CL_QUILL_PC : Nat := 0x44
/-- CL_STK_INFO. -/
abbrev CL_STK_INFO : Nat := 0x48
/-- CL_BULK_LEVEL. -/
abbrev CL_BULK_LEVEL : Nat := 0x80
/-- CL_URG_LEVEL. -/
abbrev CL_URG_LEVEL : Nat := 0x84
/-- CL_INTAKE_FLUSH. -/
abbrev CL_INTAKE_FLUSH : Nat := 0x88
/-- CL_INTAKE_STAT. -/
abbrev CL_INTAKE_STAT : Nat := 0x8C
/-- CL_FLUSH_SKIP_CNT. -/
abbrev CL_FLUSH_SKIP_CNT : Nat := 0x90
/-- CL_INTAKE_CORR. -/
abbrev CL_INTAKE_CORR : Nat := 0x94
/-- CL_INTAKE_REWIND. -/
abbrev CL_INTAKE_REWIND : Nat := 0x98
/-- CL_SCHED_DEF. -/
abbrev CL_SCHED_DEF : Nat := 0xC0
/-- CL_HANDLES. -/
abbrev CL_HANDLES : Nat := 0xC4
/-- DB_RING. -/
abbrev DB_RING : Nat := 0x40
/-- DB_STAT. -/
abbrev DB_STAT : Nat := 0x44
/-- DB_RING_ERR. -/
abbrev DB_RING_ERR : Nat := 0x48
/-- DB_ERR_COUNT. -/
abbrev DB_ERR_COUNT : Nat := 0x4C
/-- DB_VEC_PEND. -/
abbrev DB_VEC_PEND : Nat := 0x50
/-- DB_VEC_MASK. -/
abbrev DB_VEC_MASK : Nat := 0x54
/-- DE_FRAMES. -/
abbrev DE_FRAMES : Nat := 0x40
/-- DE_FAILS. -/
abbrev DE_FAILS : Nat := 0x44
/-- DE_ITER_SUM. -/
abbrev DE_ITER_SUM : Nat := 0x48
/-- DE_CORR_MAX. -/
abbrev DE_CORR_MAX : Nat := 0x4C
/-- DE_CTX_STAT. -/
abbrev DE_CTX_STAT : Nat := 0x50
/-- GLB_RELEASE. -/
abbrev GLB_RELEASE : Nat := 0x40
/-- GLB_BUILD. -/
abbrev GLB_BUILD : Nat := 0x44
/-- GLB_TIME_LO. -/
abbrev GLB_TIME_LO : Nat := 0x50
/-- GLB_TIME_HI. -/
abbrev GLB_TIME_HI : Nat := 0x54
/-- GLB_EXPERT_UNLOCK. -/
abbrev GLB_EXPERT_UNLOCK : Nat := 0x60
/-- GLB_WRITE_DROP. -/
abbrev GLB_WRITE_DROP : Nat := 0x64
/-- GLB_WRITE_DROP_ADDR. -/
abbrev GLB_WRITE_DROP_ADDR : Nat := 0x68
/-- GLB_MODE. -/
abbrev GLB_MODE : Nat := 0x80
/-- GLB_MGR_OWNER. -/
abbrev GLB_MGR_OWNER : Nat := 0x88
/-- GLB_OPEN_CTL. -/
abbrev GLB_OPEN_CTL : Nat := 0x8C
/-- GLB_OPEN_STAT. -/
abbrev GLB_OPEN_STAT : Nat := 0x90
/-- GLB_OPEN_TIMEOUT. -/
abbrev GLB_OPEN_TIMEOUT : Nat := 0x94
/-- GLB_BOOT_ATTEMPT. -/
abbrev GLB_BOOT_ATTEMPT : Nat := 0x98
/-- GLB_FALLBACK_CAUSE. -/
abbrev GLB_FALLBACK_CAUSE : Nat := 0x9C
/-- GLB_HP_TIMEOUT. -/
abbrev GLB_HP_TIMEOUT : Nat := 0xA0
/-- GLB_LANE_FAIL0. -/
abbrev GLB_LANE_FAIL : Nat := 0xB0
/-- GLB_EG_CTL. -/
abbrev GLB_EG_CTL : Nat := 0xC0
/-- GLB_EG_HOST_LO. -/
abbrev GLB_EG_HOST_LO : Nat := 0xC4
/-- GLB_EG_HOST_HI. -/
abbrev GLB_EG_HOST_HI : Nat := 0xC8
/-- GLB_EG_SUM. -/
abbrev GLB_EG_SUM : Nat := 0xCC
/-- GLB_EG_DUR. -/
abbrev GLB_EG_DUR : Nat := 0xD0
/-- GLB_EG_AT_LO. -/
abbrev GLB_EG_AT_LO : Nat := 0xD4
/-- GLB_EG_SEL. -/
abbrev GLB_EG_SEL : Nat := 0xD8
/-- GLB_EG_DROP. -/
abbrev GLB_EG_DROP : Nat := 0xDC
/-- GLB_EG_DATA0. -/
abbrev GLB_EG_DATA : Nat := 0xE0
/-- GLB_SCR_CTL. -/
abbrev GLB_SCR_CTL : Nat := 0x100
/-- GLB_SCR_STAT. -/
abbrev GLB_SCR_STAT : Nat := 0x104
/-- GLB_SCR_STATE. -/
abbrev GLB_SCR_STATE : Nat := 0x108
/-- GLB_SCR_WDOG. -/
abbrev GLB_SCR_WDOG : Nat := 0x10C
/-- CHAR_ROW0. -/
abbrev CHAR_ROW : Nat := 0x300
/-- CLK_DOZE_CTL. -/
abbrev CLK_DOZE_CTL : Nat := 0x1040
/-- CLK_DOZE_IDLE. -/
abbrev CLK_DOZE_IDLE : Nat := 0x1044
/-- CLK_DOMAIN_STAT. -/
abbrev CLK_DOMAIN_STAT : Nat := 0x1048
/-- CLK_RESET_CAUSE. -/
abbrev CLK_RESET_CAUSE : Nat := 0x104C
/-- CLK_DOZED_ACCESS. -/
abbrev CLK_DOZED_ACCESS : Nat := 0x1050
/-- MS_CTL. -/
abbrev MS_CTL : Nat := 0x2040
/-- MS_STAT. -/
abbrev MS_STAT : Nat := 0x2044
/-- MS_LOAD_COUNT. -/
abbrev MS_LOAD_COUNT : Nat := 0x2048
/-- MS_IMG_LEN. -/
abbrev MS_IMG_LEN : Nat := 0x204C
/-- MS_DIGEST0. -/
abbrev MS_DIGEST : Nat := 0x2050
/-- MS_EXPECT0. -/
abbrev MS_EXPECT : Nat := 0x2080
/-- LG_CTL. -/
abbrev LG_CTL : Nat := 0x3040
/-- LG_ALLOW. -/
abbrev LG_ALLOW : Nat := 0x3044
/-- LG_PERIOD. -/
abbrev LG_PERIOD : Nat := 0x3048
/-- LG_RES_MAX. -/
abbrev LG_RES_MAX : Nat := 0x304C
/-- LG_RECON. -/
abbrev LG_RECON : Nat := 0x3050
/-- LG_THRIFT_PWR. -/
abbrev LG_THRIFT_PWR : Nat := 0x3054
/-- LG_THRIFT_TIME. -/
abbrev LG_THRIFT_TIME : Nat := 0x3058
/-- LG_STAT. -/
abbrev LG_STAT : Nat := 0x3060
/-- LG_CREDIT. -/
abbrev LG_CREDIT : Nat := 0x3064
/-- LG_RESERVE. -/
abbrev LG_RESERVE : Nat := 0x3068
/-- LG_RECON_LAST. -/
abbrev LG_RECON_LAST : Nat := 0x306C
/-- LG_ENERGY_LO. -/
abbrev LG_ENERGY_LO : Nat := 0x3070
/-- LG_ENERGY_HI. -/
abbrev LG_ENERGY_HI : Nat := 0x3074
/-- LG_WAIT_BLOCK. -/
abbrev LG_WAIT_BLOCK : Nat := 0x3078
/-- LG_THRIFT_COUNT. -/
abbrev LG_THRIFT_COUNT : Nat := 0x307C
/-- LG_COST_SEL. -/
abbrev LG_COST_SEL : Nat := 0x30C0
/-- LG_COST_SENSE. -/
abbrev LG_COST_SENSE : Nat := 0x30C4
/-- LG_COST_PROG. -/
abbrev LG_COST_PROG : Nat := 0x30C8
/-- LG_COST_ERASE. -/
abbrev LG_COST_ERASE : Nat := 0x30CC
/-- LG_COST_XF. -/
abbrev LG_COST_XF : Nat := 0x30D0
/-- LG_COST_MEDIA. -/
abbrev LG_COST_MEDIA : Nat := 0x30D4
/-- LG_TSEL0. -/
abbrev LG_TSEL : Nat := 0x30E0
/-- LG_TN_SEL. -/
abbrev LG_TN_SEL : Nat := 0x3100
/-- LG_TN_SHARE. -/
abbrev LG_TN_SHARE : Nat := 0x3104
/-- LG_TN_USE. -/
abbrev LG_TN_USE : Nat := 0x3108
/-- LG_TN_WAITS. -/
abbrev LG_TN_WAITS : Nat := 0x310C
/-- CAL_CTL. -/
abbrev CAL_CTL : Nat := 0x4040
/-- CAL_STAT. -/
abbrev CAL_STAT : Nat := 0x4044
/-- CAL_TEMP_DELTA. -/
abbrev CAL_TEMP_DELTA : Nat := 0x4048
/-- CAL_CP_FEAT. -/
abbrev CAL_CP_FEAT : Nat := 0x404C
/-- CAL_RATE. -/
abbrev CAL_RATE : Nat := 0x4050
/-- CAL_RUN. -/
abbrev CAL_RUN : Nat := 0x4054
/-- CAL_EYE_TH. -/
abbrev CAL_EYE_TH : Nat := 0x4058
/-- CAL_CASTLE. -/
abbrev CAL_CASTLE : Nat := 0x405C
/-- CAL_RL_CTL. -/
abbrev CAL_RL_CTL : Nat := 0x4080
/-- CAL_RL_BASE. -/
abbrev CAL_RL_BASE : Nat := 0x4084
/-- CAL_RL_GAIN. -/
abbrev CAL_RL_GAIN : Nat := 0x4088
/-- CAL_RL_PT0. -/
abbrev CAL_RL_PT : Nat := 0x4090
/-- CAL_GB_ADDR. -/
abbrev CAL_GB_ADDR : Nat := 0x40A0
/-- CAL_GB_DATA0. -/
abbrev CAL_GB_DATA0 : Nat := 0x40A4
/-- CAL_GB_DATA1. -/
abbrev CAL_GB_DATA1 : Nat := 0x40A8
/-- CAL_GB_SCMD. -/
abbrev CAL_GB_SCMD : Nat := 0x40AC
/-- THM_LEVELS. -/
abbrev THM_LEVELS : Nat := 0x4100
/-- THM_WARN. -/
abbrev THM_WARN : Nat := 0x4104
/-- THM_MAX. -/
abbrev THM_MAX : Nat := 0x4108
/-- THM_HOT0. -/
abbrev THM_HOT0 : Nat := 0x410C
/-- THM_HOT1. -/
abbrev THM_HOT1 : Nat := 0x4110
/-- SG_PEND0. -/
abbrev SG_PEND : Nat := 0x5040
/-- SG_EN0. -/
abbrev SG_EN : Nat := 0x5050
/-- SG_FPEND0. -/
abbrev SG_FPEND : Nat := 0x5060
/-- SG_FEN0. -/
abbrev SG_FEN : Nat := 0x5070
/-- SG_CLASS0. -/
abbrev SG_CLASS : Nat := 0x5080
/-- SG_SENSE0. -/
abbrev SG_SENSE : Nat := 0x5090
/-- SG_LANE_PEND0. -/
abbrev SG_LANE_PEND : Nat := 0x50B0
/-- SG_DE_PEND0. -/
abbrev SG_DE_PEND : Nat := 0x50C0
/-- SG_CH_PEND0. -/
abbrev SG_CH_PEND : Nat := 0x50C8
/-- SG_STAT. -/
abbrev SG_STAT : Nat := 0x50D0
/-- SG_VEC_SENT. -/
abbrev SG_VEC_SENT : Nat := 0x50D4
/-- SG_VEC_WERR. -/
abbrev SG_VEC_WERR : Nat := 0x50D8
/-- BL_SEQ. -/
abbrev BL_SEQ : Nat := 0x6040
/-- BL_ACK. -/
abbrev BL_ACK : Nat := 0x6044
/-- BL_STAT. -/
abbrev BL_STAT : Nat := 0x6048
/-- BL_SEL. -/
abbrev BL_SEL : Nat := 0x604C
/-- BL_CLS_CFG. -/
abbrev BL_CLS_CFG : Nat := 0x6050
/-- BL_CFG. -/
abbrev BL_CFG : Nat := 0x6054
/-- BL_REC0. -/
abbrev BL_REC : Nat := 0x6080
/-- SW_CTL. -/
abbrev SW_CTL : Nat := 0x7040
/-- SW_RATE. -/
abbrev SW_RATE : Nat := 0x7044
/-- SW_STAT. -/
abbrev SW_STAT : Nat := 0x7048
/-- SW_BKT_SEL. -/
abbrev SW_BKT_SEL : Nat := 0x704C
/-- SW_BKT_CFG. -/
abbrev SW_BKT_CFG : Nat := 0x7050
/-- SW_BKT_STAT. -/
abbrev SW_BKT_STAT : Nat := 0x7054
/-- SW_BKT_CORR. -/
abbrev SW_BKT_CORR : Nat := 0x7058
/-- SW_UNCORR. -/
abbrev SW_UNCORR : Nat := 0x705C
/-- SW_REP_SEL. -/
abbrev SW_REP_SEL : Nat := 0x7060
/-- SW_REP_ENTRY. -/
abbrev SW_REP_ENTRY : Nat := 0x7064
/-- SW_REP_STAT. -/
abbrev SW_REP_STAT : Nat := 0x7068
/-- SW_REP_ADD. -/
abbrev SW_REP_ADD : Nat := 0x7400
/-- PT_CTL. -/
abbrev PT_CTL : Nat := 0x8040
/-- PT_CFG. -/
abbrev PT_CFG : Nat := 0x8044
/-- PT_RATE. -/
abbrev PT_RATE : Nat := 0x8048
/-- PT_SCHED. -/
abbrev PT_SCHED : Nat := 0x804C
/-- PT_CURSOR. -/
abbrev PT_CURSOR : Nat := 0x8050
/-- PT_PASS. -/
abbrev PT_PASS : Nat := 0x8054
/-- PT_SAMPLES. -/
abbrev PT_SAMPLES : Nat := 0x8058
/-- PT_WARN. -/
abbrev PT_WARN : Nat := 0x805C
/-- PT_UNCORR. -/
abbrev PT_UNCORR : Nat := 0x8060
/-- PT_ERASED. -/
abbrev PT_ERASED : Nat := 0x8064
/-- PT_SKIPPED. -/
abbrev PT_SKIPPED : Nat := 0x8068
/-- PT_EVT_DROP. -/
abbrev PT_EVT_DROP : Nat := 0x806C
/-- PT_HIST_SEL. -/
abbrev PT_HIST_SEL : Nat := 0x8070
/-- PT_HIST. -/
abbrev PT_HIST : Nat := 0x8074
/-- PT_LAST_MAW_LO. -/
abbrev PT_LAST_MAW_LO : Nat := 0x8078
/-- PT_LAST_MAW_HI. -/
abbrev PT_LAST_MAW_HI : Nat := 0x807C
/-- CC_CTL. -/
abbrev CC_CTL : Nat := 0x9040
/-- CC_STAT. -/
abbrev CC_STAT : Nat := 0x9044
/-- CC_BASE_LO. -/
abbrev CC_BASE_LO : Nat := 0x9048
/-- CC_BASE_HI. -/
abbrev CC_BASE_HI : Nat := 0x904C
/-- CC_SIZE. -/
abbrev CC_SIZE : Nat := 0x9050
/-- CC_CFG. -/
abbrev CC_CFG : Nat := 0x9054
/-- CC_MAINT. -/
abbrev CC_MAINT : Nat := 0x9058
/-- CC_MAINT_STAT. -/
abbrev CC_MAINT_STAT : Nat := 0x905C
/-- CC_RANGE_LO. -/
abbrev CC_RANGE_LO : Nat := 0x9060
/-- CC_RANGE_LEN. -/
abbrev CC_RANGE_LEN : Nat := 0x9064
/-- CC_HITS. -/
abbrev CC_HITS : Nat := 0x9080
/-- CC_MISSES. -/
abbrev CC_MISSES : Nat := 0x9084
/-- CC_MERGED. -/
abbrev CC_MERGED : Nat := 0x9088
/-- CC_VICTIM_HITS. -/
abbrev CC_VICTIM_HITS : Nat := 0x908C
/-- CC_WRITEBACKS. -/
abbrev CC_WRITEBACKS : Nat := 0x9090
/-- CC_WRITE_AROUND. -/
abbrev CC_WRITE_AROUND : Nat := 0x9094
/-- CC_DISCARDED. -/
abbrev CC_DISCARDED : Nat := 0x9098
/-- CC_MISS_STAT. -/
abbrev CC_MISS_STAT : Nat := 0x909C
/-- CC_POISON_ADDR. -/
abbrev CC_POISON_ADDR : Nat := 0x90A0
/-- CC_TAG_ERR. -/
abbrev CC_TAG_ERR : Nat := 0x90A4
/-- IW_STAT. -/
abbrev IW_STAT : Nat := 0xA040
/-- IW_RETIRED. -/
abbrev IW_RETIRED : Nat := 0xA044
/-- IW_TN_SEL. -/
abbrev IW_TN_SEL : Nat := 0xA048
/-- IW_TN_QUOTA. -/
abbrev IW_TN_QUOTA : Nat := 0xA04C
/-- IW_TN_HELD. -/
abbrev IW_TN_HELD : Nat := 0xA050
/-- IW_TN_ERR. -/
abbrev IW_TN_ERR : Nat := 0xA054
/-- IW_SLAB_SEL. -/
abbrev IW_SLAB_SEL : Nat := 0xA058
/-- IW_SLAB_STATE. -/
abbrev IW_SLAB_STATE : Nat := 0xA05C
/-- MV_CFG. -/
abbrev MV_CFG : Nat := 0xB040
/-- MV_LATE_COUNT. -/
abbrev MV_LATE_COUNT : Nat := 0xB044
/-- MV_QUEUED. -/
abbrev MV_QUEUED : Nat := 0xB048
/-- MV_TMR0. -/
abbrev MV_TMR : Nat := 0xB060
/-- TN_SEL. -/
abbrev TN_SEL : Nat := 0xC040
/-- TN_CMD. -/
abbrev TN_CMD : Nat := 0xC044
/-- TN_STAT. -/
abbrev TN_STAT : Nat := 0xC048
/-- TN_SCHED. -/
abbrev TN_SCHED : Nat := 0xC04C
/-- TN_CPL_CFG. -/
abbrev TN_CPL_CFG : Nat := 0xC050
/-- TN_RES. -/
abbrev TN_RES : Nat := 0xC054
/-- TN_RST_SEQ. -/
abbrev TN_RST_SEQ : Nat := 0xC058
/-- TN_RST_STAT. -/
abbrev TN_RST_STAT : Nat := 0xC05C
/-- TN_EXT0_DIE. -/
abbrev TN_EXT0_DIE : Nat := 0xC060
/-- TN_EXT0_BLK. -/
abbrev TN_EXT0_BLK : Nat := 0xC064
/-- TN_EXT1_DIE. -/
abbrev TN_EXT1_DIE : Nat := 0xC068
/-- TN_EXT1_BLK. -/
abbrev TN_EXT1_BLK : Nat := 0xC06C
/-- TN_EXT2_DIE. -/
abbrev TN_EXT2_DIE : Nat := 0xC070
/-- TN_EXT2_BLK. -/
abbrev TN_EXT2_BLK : Nat := 0xC074
/-- TN_EXT3_DIE. -/
abbrev TN_EXT3_DIE : Nat := 0xC078
/-- TN_EXT3_BLK. -/
abbrev TN_EXT3_BLK : Nat := 0xC07C
/-- TN_RING_BASE. -/
abbrev TN_RING_BASE : Nat := 0xC200
/-- TN_RING_CMD. -/
abbrev TN_RING_CMD : Nat := 0xC204
/-- TN_RING_STAT. -/
abbrev TN_RING_STAT : Nat := 0xC208
/-- TN_RING_WIN0. -/
abbrev TN_RING_WIN : Nat := 0xC240
/-- KY_STAT. -/
abbrev KY_STAT : Nat := 0xD040
/-- KY_SLOT_SEL. -/
abbrev KY_SLOT_SEL : Nat := 0xD044
/-- KY_SLOT_STATE. -/
abbrev KY_SLOT_STATE : Nat := 0xD048
/-- KY_WRAP0. -/
abbrev KY_WRAP : Nat := 0xD080
/-- KY_CMD. -/
abbrev KY_CMD : Nat := 0xD0D0
/-- KY_RESULT. -/
abbrev KY_RESULT : Nat := 0xD0D4
/-- KY_SEAL_CMD. -/
abbrev KY_SEAL_CMD : Nat := 0xD0E0
/-- KY_SEAL_STAT. -/
abbrev KY_SEAL_STAT : Nat := 0xD0E4
/-- KY_SAN_PROG. -/
abbrev KY_SAN_PROG : Nat := 0xD0E8
/-- KY_SAN_ERASES. -/
abbrev KY_SAN_ERASES : Nat := 0xD0EC
/-- KY_SAN_FAIL. -/
abbrev KY_SAN_FAIL : Nat := 0xD0F0
/-- KY_SAN_SKIP. -/
abbrev KY_SAN_SKIP : Nat := 0xD0F4
/-- DF_CTL. -/
abbrev DF_CTL : Nat := 0xE040
/-- DF_BASE. -/
abbrev DF_BASE : Nat := 0xE044
/-- DF_SCAN_STAT. -/
abbrev DF_SCAN_STAT : Nat := 0xE048
/-- DF_MARK_ADDR. -/
abbrev DF_MARK_ADDR : Nat := 0xE04C
/-- DF_MARK_CMD. -/
abbrev DF_MARK_CMD : Nat := 0xE050
/-- DF_MARK_STAT. -/
abbrev DF_MARK_STAT : Nat := 0xE054
/-- DF_GROWN_COUNT. -/
abbrev DF_GROWN_COUNT : Nat := 0xE058
/-- DF_REJECT_COUNT. -/
abbrev DF_REJECT_COUNT : Nat := 0xE05C
/-- DF_OVER_LIMIT. -/
abbrev DF_OVER_LIMIT : Nat := 0xE060
/-- DF_MAW_REJECT_LO. -/
abbrev DF_MAW_REJECT_LO : Nat := 0xE064
/-- DF_MAW_REJECT_HI. -/
abbrev DF_MAW_REJECT_HI : Nat := 0xE068
/-- DF_MAW_REJECT_INFO. -/
abbrev DF_MAW_REJECT_INFO : Nat := 0xE06C
/-- DF_FR_BASE. -/
abbrev DF_FR_BASE : Nat := 0xE080
/-- DF_PAIR_CTL. -/
abbrev DF_PAIR_CTL : Nat := 0xE084
/-- DF_PAIR_ADDR. -/
abbrev DF_PAIR_ADDR : Nat := 0xE088
/-- DF_PAIR_DATA. -/
abbrev DF_PAIR_DATA : Nat := 0xE08C
/-- DF_BLANK_TH. -/
abbrev DF_BLANK_TH : Nat := 0xE090
/-- DF_BLANK_ERR. -/
abbrev DF_BLANK_ERR : Nat := 0xE094
/-- DF_GROW_POL. -/
abbrev DF_GROW_POL : Nat := 0xE098
/-- DF_FR_ADDR. -/
abbrev DF_FR_ADDR : Nat := 0xE09C
/-- DF_FR_CMD. -/
abbrev DF_FR_CMD : Nat := 0xE0A0
/-- DF_FR_STAT. -/
abbrev DF_FR_STAT : Nat := 0xE0A4
/-- DF_FR_INFO. -/
abbrev DF_FR_INFO : Nat := 0xE0A8
/-- PB_CTL. -/
abbrev PB_CTL : Nat := 0xF040
/-- PB_SEED. -/
abbrev PB_SEED : Nat := 0xF044
/-- LN_GEOM0. -/
abbrev LN_GEOM0 : Nat := 0xC0
/-- LN_GEOM1. -/
abbrev LN_GEOM1 : Nat := 0xC4
/-- LN_TGT_PRESENT. -/
abbrev LN_TGT_PRESENT : Nat := 0xC8
/-- LN_TGT_EXCLUDED. -/
abbrev LN_TGT_EXCLUDED : Nat := 0xCC
/-- LN_GEOM_STAT. -/
abbrev LN_GEOM_STAT : Nat := 0xD0
/-- LN_SIG_STAT. -/
abbrev LN_SIG_STAT : Nat := 0x100
/-- LN_SIG_CTL. -/
abbrev LN_SIG_CTL : Nat := 0x104
/-- LN_CAL_CTL. -/
abbrev LN_CAL_CTL : Nat := 0x108
/-- LN_CAL_STAT. -/
abbrev LN_CAL_STAT : Nat := 0x10C
/-- LN_CAL_TEMP. -/
abbrev LN_CAL_TEMP : Nat := 0x110
/-- LN_CAL_RUNS. -/
abbrev LN_CAL_RUNS : Nat := 0x114
/-- LN_RX_SEL. -/
abbrev LN_RX_SEL : Nat := 0x120
/-- LN_RX_DLY0. -/
abbrev LN_RX_DLY0 : Nat := 0x124
/-- LN_RX_DLY1. -/
abbrev LN_RX_DLY1 : Nat := 0x128
/-- LN_TX_DLY0. -/
abbrev LN_TX_DLY0 : Nat := 0x12C
/-- LN_TX_DLY1. -/
abbrev LN_TX_DLY1 : Nat := 0x130
/-- LN_TX_DQS. -/
abbrev LN_TX_DQS : Nat := 0x134
/-- LN_EYE_SEL. -/
abbrev LN_EYE_SEL : Nat := 0x140
/-- LN_EYE_DATA. -/
abbrev LN_EYE_DATA : Nat := 0x144
/-- LN_POLL_READ. -/
abbrev LN_POLL_READ : Nat := 0x180
/-- LN_POLL_PROG. -/
abbrev LN_POLL_PROG : Nat := 0x184
/-- LN_POLL_ERASE. -/
abbrev LN_POLL_ERASE : Nat := 0x188
/-- LN_BUSY_TMO. -/
abbrev LN_BUSY_TMO : Nat := 0x18C
/-- LN_SUSP_OPC. -/
abbrev LN_SUSP_OPC : Nat := 0x190
/-- LN_SUSP_CTL. -/
abbrev LN_SUSP_CTL : Nat := 0x194
/-- LN_RL_FEAT. -/
abbrev LN_RL_FEAT : Nat := 0x198
/-- LN_LUN_SEL. -/
abbrev LN_LUN_SEL : Nat := 0x1A0
/-- LN_LUN_STATE. -/
abbrev LN_LUN_STATE : Nat := 0x1A4
/-- LN_PROG_STALL_CNT. -/
abbrev LN_PROG_STALL_CNT : Nat := 0x1B0
/-- LN_PROG_STALL_US. -/
abbrev LN_PROG_STALL_US : Nat := 0x1B4
/-- LN_PROG_STALL_MAX. -/
abbrev LN_PROG_STALL_MAX : Nat := 0x1B8
/-- LN_SCHED_CTL. -/
abbrev LN_SCHED_CTL : Nat := 0x200
/-- LN_SCHED_COST. -/
abbrev LN_SCHED_COST : Nat := 0x204
/-- LN_SCHED_AGE. -/
abbrev LN_SCHED_AGE : Nat := 0x208
/-- LN_SUSP_POL. -/
abbrev LN_SUSP_POL : Nat := 0x20C
/-- LN_EST. -/
abbrev LN_EST : Nat := 0x210
/-- LN_SCHED_STAT. -/
abbrev LN_SCHED_STAT : Nat := 0x214
/-- LN_SUSP_ISSUED. -/
abbrev LN_SUSP_ISSUED : Nat := 0x220
/-- LN_SUSP_DENIED. -/
abbrev LN_SUSP_DENIED : Nat := 0x224
/-- LN_DL_MISS. -/
abbrev LN_DL_MISS : Nat := 0x228
/-- LN_OVERDUE. -/
abbrev LN_OVERDUE : Nat := 0x22C
/-- LN_BOUND_MISS. -/
abbrev LN_BOUND_MISS : Nat := 0x230
/-- LN_BOUND_LAST. -/
abbrev LN_BOUND_LAST : Nat := 0x234
/-- LN_LAT_SEL. -/
abbrev LN_LAT_SEL : Nat := 0x240
/-- LN_LAT_HIST. -/
abbrev LN_LAT_HIST : Nat := 0x244
/-- LN_FRAME_CFG. -/
abbrev LN_FRAME_CFG : Nat := 0x280
/-- LN_FRAME_STAT. -/
abbrev LN_FRAME_STAT : Nat := 0x284
/-- LN_FIFO_STAT. -/
abbrev LN_FIFO_STAT : Nat := 0x288
/-- LN_DEC_ERASED. -/
abbrev LN_DEC_ERASED : Nat := 0x290
/-- LN_DEC_FAIL. -/
abbrev LN_DEC_FAIL : Nat := 0x294
/-- LN_OUTLET_FAIL. -/
abbrev LN_OUTLET_FAIL : Nat := 0x298
/-- LN_RESENSE. -/
abbrev LN_RESENSE : Nat := 0x29C
/-- LN_RL_GEOM. -/
abbrev LN_RL_GEOM : Nat := 0x2C0
/-- LN_RL_SAMPLES. -/
abbrev LN_RL_SAMPLES : Nat := 0x2C4
/-- LN_RL_STEPS. -/
abbrev LN_RL_STEPS : Nat := 0x2C8
/-- LN_RL_STALE. -/
abbrev LN_RL_STALE : Nat := 0x2CC
/-- LN_RL_CLAMP. -/
abbrev LN_RL_CLAMP : Nat := 0x2D0
/-- LN_RL_REBASE. -/
abbrev LN_RL_REBASE : Nat := 0x2D4
/-- LN_GB_WALKS. -/
abbrev LN_GB_WALKS : Nat := 0x2D8
/-- LN_GB_OK. -/
abbrev LN_GB_OK : Nat := 0x2DC
/-- LN_GB_EXHAUST. -/
abbrev LN_GB_EXHAUST : Nat := 0x2E0
/-- LN_GB_SEL. -/
abbrev LN_GB_SEL : Nat := 0x2E4
/-- LN_GB_HIST. -/
abbrev LN_GB_HIST : Nat := 0x2E8
/-- LN_RL_LAST. -/
abbrev LN_RL_LAST : Nat := 0x2EC
/-- LN_PROG_FAIL. -/
abbrev LN_PROG_FAIL : Nat := 0x300
/-- LN_ERASE_FAIL. -/
abbrev LN_ERASE_FAIL : Nat := 0x304
/-- LN_FR_REFUSE. -/
abbrev LN_FR_REFUSE : Nat := 0x308
/-- LN_BLANK_PARTIAL. -/
abbrev LN_BLANK_PARTIAL : Nat := 0x30C
/-- MV_CH_CFG. -/
abbrev MV_CH_CFG : Nat := 0x40
/-- MV_CH_CMD. -/
abbrev MV_CH_CMD : Nat := 0x44
/-- MV_CH_DESC_LO. -/
abbrev MV_CH_DESC_LO : Nat := 0x48
/-- MV_CH_DESC_HI. -/
abbrev MV_CH_DESC_HI : Nat := 0x4C
/-- MV_CH_STAT. -/
abbrev MV_CH_STAT : Nat := 0x50
/-- MV_CH_CNT. -/
abbrev MV_CH_CNT : Nat := 0x54
/-- MV_CH_CUR_LO. -/
abbrev MV_CH_CUR_LO : Nat := 0x58
/-- MV_CH_CUR_HI. -/
abbrev MV_CH_CUR_HI : Nat := 0x5C
/-- PX_CTL. -/
abbrev PX_CTL : Nat := 0xF00
/-- PX_ARG. -/
abbrev PX_ARG : Nat := 0xF04
/-- RG_DEC_CTL. -/
abbrev RG_DEC_CTL : Nat := 0x40
/-- RG_DEC_ERASED. -/
abbrev RG_DEC_ERASED : Nat := 0x44
/-- RG_WR_SEQ. -/
abbrev RG_WR_SEQ : Nat := 0x48
/-- RG_SDE_STAT. -/
abbrev RG_SDE_STAT : Nat := 0x4C
/-- RG_MEDIA_LIMIT. -/
abbrev RG_MEDIA_LIMIT : Nat := 0x80
/-- RG_MEDIA_STAT. -/
abbrev RG_MEDIA_STAT : Nat := 0x84
/-- RG_MEDIA_WAITS. -/
abbrev RG_MEDIA_WAITS : Nat := 0x88
/-- RG_PROGS. -/
abbrev RG_PROGS : Nat := 0x8C
/-- RG_ERASES. -/
abbrev RG_ERASES : Nat := 0x90
/-- SG_VT_CTL. -/
abbrev SG_VT_CTL : Nat := 0x0
/-- SG_VT_ADDR_LO. -/
abbrev SG_VT_ADDR_LO : Nat := 0x4
/-- SG_VT_ADDR_HI. -/
abbrev SG_VT_ADDR_HI : Nat := 0x8
/-- SG_VT_DATA_LO. -/
abbrev SG_VT_DATA_LO : Nat := 0xC
/-- SG_VT_DATA_HI. -/
abbrev SG_VT_DATA_HI : Nat := 0x10
/-- SG_VT_STATE. -/
abbrev SG_VT_STATE : Nat := 0x14
/-- SG_VT_SENT. -/
abbrev SG_VT_SENT : Nat := 0x18
/-- SG_VT_ERR. -/
abbrev SG_VT_ERR : Nat := 0x1C
end Reg

/-- Registers of the global pages, part 1. -/
def RegMap.global1 : List RegRow := [
  ⟨0x40, 1, 0x0, 0x0, 0x0, 0x0, 0x301⟩,
  ⟨0x44, 1, 0x0, 0x0, 0x0, 0x0, 0x21080⟩,
  ⟨0x50, 1, 0x0, 0x0, 0x0, 0x0, 0x0⟩,
  ⟨0x54, 1, 0x0, 0x0, 0x0, 0x0, 0x0⟩,
  ⟨0x60, 1, 0x0, 0x0, 0x0, 0x0, 0x0⟩,
  ⟨0x64, 1, 0x0, 0x0, 0x0, 0xFFFF, 0x0⟩,
  ⟨0x68, 1, 0x0, 0x0, 0x0, 0x0, 0x0⟩,
  ⟨0x80, 1, 0x0, 0x0, 0x0, 0x0, 0x0⟩,
  ⟨0x88, 1, 0x1FF00, 0x0, 0x0, 0x0, 0x0⟩,
  ⟨0x8C, 1, 0x2, 0x0, 0x0, 0x0, 0x0⟩,
  ⟨0x90, 1, 0x0, 0x0, 0x0, 0x0, 0x0⟩,
  ⟨0x94, 1, 0xFFFF, 0x0, 0x0, 0x0, 0x2710⟩,
  ⟨0x98, 1, 0x0, 0x0, 0x0, 0x0, 0x0⟩,
  ⟨0x9C, 1, 0x0, 0x0, 0x0, 0x0, 0x0⟩,
  ⟨0xA0, 1, 0xFFFF, 0x0, 0x0, 0x0, 0x3E8⟩,
  ⟨0xB0, 4, 0x0, 0x0, 0x0, 0x0, 0x0⟩,
  ⟨0xC0, 1, 0xFFFFFF01, 0x0, 0x0, 0x0, 0x7D06400⟩,
  ⟨0xC4, 1, 0xFFFFFFFF, 0x0, 0x0, 0x0, 0x0⟩,
  ⟨0xC8, 1, 0xFFFFFFFF, 0x0, 0x0, 0x0, 0x0⟩,
  ⟨0xCC, 1, 0x0, 0x80000000, 0x0, 0x0, 0x0⟩,
  ⟨0xD0, 1, 0x0, 0x0, 0x0, 0x0, 0x0⟩,
  ⟨0xD4, 1, 0x0, 0x0, 0x0, 0x0, 0x0⟩,
  ⟨0xD8, 1, 0xFFF, 0x0, 0x0, 0x0, 0x0⟩,
  ⟨0xDC, 1, 0x0, 0x0, 0x0, 0x0, 0x0⟩,
  ⟨0xE0, 4, 0x0, 0x0, 0x0, 0x0, 0x0⟩,
  ⟨0x100, 1, 0x0, 0x0, 0x0, 0x0, 0x0⟩,
  ⟨0x104, 1, 0x0, 0x0, 0x0, 0x0, 0x0⟩,
  ⟨0x108, 1, 0x0, 0x0, 0x0, 0x0, 0x0⟩,
  ⟨0x10C, 1, 0xFFFF, 0x0, 0x0, 0x0, 0x3E8⟩,
  ⟨0x300, 64, 0x0, 0x0, 0x0, 0x0, 0x0⟩,
  ⟨0x1040, 1, 0x7FFFF, 0x0, 0x0, 0x0, 0x0⟩,
  ⟨0x1044, 1, 0xFFFF, 0x0, 0x0, 0x0, 0x64⟩,
  ⟨0x1048, 1, 0x0, 0x0, 0x0, 0x0, 0x0⟩,
  ⟨0x104C, 1, 0x0, 0xF, 0x0, 0x0, 0x1⟩,
  ⟨0x1050, 1, 0x0, 0x0, 0x0, 0xFFFF, 0x0⟩,
  ⟨0x2040, 1, 0x1, 0x0, 0x0, 0x0, 0x0⟩,
  ⟨0x2044, 1, 0x0, 0x0, 0x0, 0x0, 0x0⟩,
  ⟨0x2048, 1, 0x0, 0x0, 0x0, 0x0, 0x0⟩,
  ⟨0x204C, 1, 0xFFFFFFFF, 0x0, 0x0, 0x0, 0x0⟩,
  ⟨0x2050, 12, 0x0, 0x0, 0x0, 0x0, 0x0⟩]

/-- Registers of the global pages, part 2. -/
def RegMap.global2 : List RegRow := [
  ⟨0x2080, 12, 0xFFFFFFFF, 0x0, 0x0, 0x0, 0x0⟩,
  ⟨0x3040, 1, 0xF, 0x0, 0x0, 0x0, 0xF⟩,
  ⟨0x3044, 1, 0xFFFFFFFF, 0x0, 0x0, 0x0, 0x17707530⟩,
  ⟨0x3048, 1, 0xFFFFFFF, 0x0, 0x0, 0x0, 0x20A0753⟩,
  ⟨0x304C, 1, 0xFFFFFFFF, 0x0, 0x0, 0x0, 0x5B8D800⟩,
  ⟨0x3050, 1, 0xFFFF, 0x0, 0x0, 0x0, 0x3E8⟩,
  ⟨0x3054, 1, 0xFFFFFFFF, 0x0, 0x0, 0x0, 0x46503A98⟩,
  ⟨0x3058, 1, 0xFFFFFF3F, 0x0, 0x0, 0x0, 0x640A18⟩,
  ⟨0x3060, 1, 0x0, 0x0, 0x0, 0x0, 0x0⟩,
  ⟨0x3064, 1, 0x0, 0x0, 0x0, 0x0, 0x0⟩,
  ⟨0x3068, 1, 0x0, 0x0, 0x0, 0x0, 0x0⟩,
  ⟨0x306C, 1, 0x0, 0x0, 0x0, 0x0, 0x0⟩,
  ⟨0x3070, 1, 0x0, 0x0, 0x0, 0x0, 0x0⟩,
  ⟨0x3074, 1, 0x0, 0x0, 0x0, 0x0, 0x0⟩,
  ⟨0x3078, 1, 0x0, 0x0, 0x0, 0x0, 0x0⟩,
  ⟨0x307C, 1, 0x0, 0x0, 0x0, 0x0, 0x0⟩,
  ⟨0x30C0, 1, 0x3, 0x0, 0x0, 0x0, 0x0⟩,
  ⟨0x30C4, 1, 0xFFFFFF, 0x0, 0x0, 0x0, 0x1F4⟩,
  ⟨0x30C8, 1, 0xFFFFFF, 0x0, 0x0, 0x0, 0x7D0⟩,
  ⟨0x30CC, 1, 0xFFFFFF, 0x0, 0x0, 0x0, 0x5DC⟩,
  ⟨0x30D0, 1, 0xFFFFFFFF, 0x0, 0x0, 0x0, 0x5A0010⟩,
  ⟨0x30D4, 1, 0xFFFF, 0x0, 0x0, 0x0, 0x201⟩,
  ⟨0x30E0, 8, 0xFFFFFFFF, 0x0, 0x0, 0x0, 0x0⟩,
  ⟨0x3100, 1, 0x1FF, 0x0, 0x0, 0x0, 0x0⟩,
  ⟨0x3104, 1, 0x7FF, 0x0, 0x0, 0x0, 0x400⟩,
  ⟨0x3108, 1, 0x0, 0x0, 0x0, 0x0, 0x0⟩,
  ⟨0x310C, 1, 0x0, 0x0, 0x0, 0x0, 0x0⟩,
  ⟨0x4040, 1, 0x1, 0x0, 0x0, 0x0, 0x0⟩,
  ⟨0x4044, 1, 0x0, 0x0, 0x0, 0x0, 0x0⟩,
  ⟨0x4048, 1, 0xFF, 0x0, 0x0, 0x0, 0x18⟩,
  ⟨0x404C, 1, 0x1FF, 0x0, 0x0, 0x0, 0x0⟩,
  ⟨0x4050, 1, 0x3F3F, 0x0, 0x0, 0x0, 0x3004⟩,
  ⟨0x4054, 1, 0xFFFF00FF, 0x0, 0x0, 0x0, 0x7D00004⟩,
  ⟨0x4058, 1, 0xF3FFF, 0x0, 0x0, 0x0, 0x20C02⟩,
  ⟨0x405C, 1, 0xFFFF, 0x0, 0x0, 0x0, 0x32⟩,
  ⟨0x4080, 1, 0x7, 0x0, 0x0, 0x0, 0x0⟩,
  ⟨0x4084, 1, 0x3FFFF800, 0x0, 0x0, 0x0, 0x0⟩,
  ⟨0x4088, 1, 0xFF1FFF, 0x0, 0x0, 0x0, 0x301014⟩,
  ⟨0x4090, 4, 0xFFFFFFFF, 0x0, 0x0, 0x0, 0x0⟩,
  ⟨0x40A0, 1, 0x7F, 0x0, 0x0, 0x0, 0x0⟩]

/-- Registers of the global pages, part 3. -/
def RegMap.global3 : List RegRow := [
  ⟨0x40A4, 1, 0xFFFFFFFF, 0x0, 0x0, 0x0, 0x0⟩,
  ⟨0x40A8, 1, 0x8000000F, 0x0, 0x0, 0x0, 0x0⟩,
  ⟨0x40AC, 1, 0x0, 0x0, 0x0, 0x0, 0x0⟩,
  ⟨0x4100, 1, 0x3FF03FF, 0x0, 0x0, 0x0, 0x26C0244⟩,
  ⟨0x4104, 1, 0x3FF00FF, 0x0, 0x0, 0x0, 0x21C0014⟩,
  ⟨0x4108, 1, 0x0, 0x0, 0x0, 0x3FF03FF, 0x0⟩,
  ⟨0x410C, 1, 0x0, 0x0, 0x0, 0x0, 0x0⟩,
  ⟨0x4110, 1, 0x0, 0x0, 0x0, 0x0, 0x0⟩,
  ⟨0x5040, 4, 0x0, 0xFFFFFFFF, 0x0, 0x0, 0x0⟩,
  ⟨0x5050, 4, 0xFFFFFFFF, 0x0, 0x0, 0x0, 0x0⟩,
  ⟨0x5060, 4, 0x0, 0xFFFFFFFF, 0x0, 0x0, 0x0⟩,
  ⟨0x5070, 4, 0xFFFFFFFF, 0x0, 0x0, 0x0, 0x0⟩,
  ⟨0x5080, 1, 0xFFFFFFFF, 0x0, 0x0, 0x0, 0x0⟩,
  ⟨0x5084, 1, 0xFFFFFFFF, 0x0, 0x0, 0x0, 0x240000⟩,
  ⟨0x5088, 2, 0xFFFFFFFF, 0x0, 0x0, 0x0, 0x0⟩,
  ⟨0x5090, 3, 0xFFFFFFFF, 0x0, 0x0, 0x0, 0x0⟩,
  ⟨0x509C, 1, 0xFFFFFFFF, 0x0, 0x0, 0x0, 0x555⟩,
  ⟨0x50A0, 4, 0xFFFFFFFF, 0x0, 0x0, 0x0, 0x0⟩,
  ⟨0x50B0, 4, 0x0, 0x0, 0x0, 0x0, 0x0⟩,
  ⟨0x50C0, 2, 0x0, 0x0, 0x0, 0x0, 0x0⟩,
  ⟨0x50C8, 2, 0x0, 0x0, 0x0, 0x0, 0x0⟩,
  ⟨0x50D0, 1, 0x0, 0x0, 0x0, 0x0, 0x0⟩,
  ⟨0x50D4, 1, 0x0, 0x0, 0x0, 0x0, 0x0⟩,
  ⟨0x50D8, 1, 0x0, 0x0, 0x0, 0x0, 0x0⟩,
  ⟨0x6040, 1, 0x0, 0x0, 0x0, 0x0, 0x0⟩,
  ⟨0x6044, 1, 0xFFFFFFFF, 0x0, 0x0, 0x0, 0xFFFFFFFF⟩,
  ⟨0x6048, 1, 0x0, 0x0, 0x0, 0x0, 0x0⟩,
  ⟨0x604C, 1, 0x83FF00FF, 0x0, 0x0, 0x0, 0x0⟩,
  ⟨0x6050, 1, 0xFF1B, 0x0, 0x0, 0x0, 0x0⟩,
  ⟨0x6054, 1, 0xFFFF, 0x0, 0x0, 0x0, 0x3E8⟩,
  ⟨0x6080, 12, 0x0, 0x0, 0x0, 0x0, 0x0⟩,
  ⟨0x7040, 1, 0x3F1, 0x0, 0x0, 0x0, 0x3F1⟩,
  ⟨0x7044, 1, 0xFFFFFF, 0x0, 0x0, 0x0, 0x400⟩,
  ⟨0x7048, 1, 0x0, 0x0, 0x0, 0x0, 0x0⟩,
  ⟨0x704C, 1, 0x7, 0x0, 0x0, 0x0, 0x0⟩,
  ⟨0x7050, 1, 0xFFFFFFFF, 0x0, 0x0, 0x0, 0xA0040⟩,
  ⟨0x7054, 1, 0x0, 0x0, 0x0, 0x0, 0x0⟩,
  ⟨0x7058, 1, 0x0, 0x0, 0x0, 0x0, 0x0⟩,
  ⟨0x705C, 1, 0x0, 0x0, 0x0, 0x0, 0x0⟩,
  ⟨0x7060, 1, 0x7FF0007, 0x0, 0x0, 0x0, 0x0⟩]

/-- Registers of the global pages, part 4. -/
def RegMap.global4 : List RegRow := [
  ⟨0x7064, 1, 0x0, 0x0, 0x0, 0x0, 0x0⟩,
  ⟨0x7068, 1, 0x0, 0x0, 0x0, 0x0, 0x0⟩,
  ⟨0x7400, 1, 0xFFFFFFFF, 0x0, 0x0, 0x0, 0x0⟩,
  ⟨0x8040, 1, 0x3, 0x0, 0x0, 0x0, 0x0⟩,
  ⟨0x8044, 1, 0xFFFF1FFF, 0x0, 0x0, 0x0, 0x780100⟩,
  ⟨0x8048, 1, 0xFFFFFF, 0x0, 0x0, 0x0, 0x4E20⟩,
  ⟨0x804C, 1, 0xFFFF, 0x0, 0x0, 0x0, 0x3E8⟩,
  ⟨0x8050, 1, 0x0, 0x0, 0x0, 0x0, 0x0⟩,
  ⟨0x8054, 1, 0x0, 0x0, 0x0, 0x0, 0x0⟩,
  ⟨0x8058, 1, 0x0, 0x0, 0x0, 0x0, 0x0⟩,
  ⟨0x805C, 1, 0x0, 0x0, 0x0, 0x0, 0x0⟩,
  ⟨0x8060, 1, 0x0, 0x0, 0x0, 0x0, 0x0⟩,
  ⟨0x8064, 1, 0x0, 0x0, 0x0, 0x0, 0x0⟩,
  ⟨0x8068, 1, 0x0, 0x0, 0x0, 0x0, 0x0⟩,
  ⟨0x806C, 1, 0x0, 0x0, 0x0, 0x0, 0x0⟩,
  ⟨0x8070, 1, 0xFF0F, 0x0, 0x0, 0x0, 0x1000⟩,
  ⟨0x8074, 1, 0x0, 0x0, 0x0, 0x0, 0x0⟩,
  ⟨0x8078, 1, 0x0, 0x0, 0x0, 0x0, 0x0⟩,
  ⟨0x807C, 1, 0x0, 0x0, 0x0, 0x0, 0x0⟩,
  ⟨0x9040, 1, 0x1, 0x0, 0x0, 0x0, 0x0⟩,
  ⟨0x9044, 1, 0x0, 0x10, 0x0, 0x0, 0x0⟩,
  ⟨0x9048, 1, 0xFFFFFFFF, 0x0, 0x0, 0x0, 0x0⟩,
  ⟨0x904C, 1, 0xFFFFFFFF, 0x0, 0x0, 0x0, 0x0⟩,
  ⟨0x9050, 1, 0x7FF, 0x0, 0x0, 0x0, 0x0⟩,
  ⟨0x9054, 1, 0xFFFF00FF, 0x0, 0x0, 0x0, 0xA0040⟩,
  ⟨0x9058, 1, 0x0, 0x0, 0x0, 0x0, 0x0⟩,
  ⟨0x905C, 1, 0x0, 0x0, 0x0, 0x0, 0x0⟩,
  ⟨0x9060, 1, 0x3FFFFF80, 0x0, 0x0, 0x0, 0x0⟩,
  ⟨0x9064, 1, 0xFFFFFF, 0x0, 0x0, 0x0, 0x0⟩,
  ⟨0x9080, 1, 0x0, 0x0, 0x0, 0x0, 0x0⟩,
  ⟨0x9084, 1, 0x0, 0x0, 0x0, 0x0, 0x0⟩,
  ⟨0x9088, 1, 0x0, 0x0, 0x0, 0x0, 0x0⟩,
  ⟨0x908C, 1, 0x0, 0x0, 0x0, 0x0, 0x0⟩,
  ⟨0x9090, 1, 0x0, 0x0, 0x0, 0x0, 0x0⟩,
  ⟨0x9094, 1, 0x0, 0x0, 0x0, 0x0, 0x0⟩,
  ⟨0x9098, 1, 0x0, 0x0, 0x0, 0x0, 0x0⟩,
  ⟨0x909C, 1, 0x0, 0x0, 0x0, 0x0, 0x0⟩,
  ⟨0x90A0, 1, 0x0, 0x0, 0x0, 0x0, 0x0⟩,
  ⟨0x90A4, 1, 0x0, 0x0, 0x0, 0x0, 0x0⟩,
  ⟨0xA040, 1, 0x0, 0x0, 0x0, 0x0, 0x2000⟩]

/-- Registers of the global pages, part 5. -/
def RegMap.global5 : List RegRow := [
  ⟨0xA044, 1, 0x0, 0x0, 0x0, 0x0, 0x0⟩,
  ⟨0xA048, 1, 0x1FF, 0x0, 0x0, 0x0, 0x0⟩,
  ⟨0xA04C, 1, 0x3FFF3FFF, 0x0, 0x0, 0x0, 0x0⟩,
  ⟨0xA050, 1, 0x0, 0x0, 0x0, 0x0, 0x0⟩,
  ⟨0xA054, 1, 0x0, 0x0, 0x0, 0xFFFFFFFF, 0x0⟩,
  ⟨0xA058, 1, 0x1FFF, 0x0, 0x0, 0x0, 0x0⟩,
  ⟨0xA05C, 1, 0x0, 0x0, 0x0, 0x0, 0x0⟩,
  ⟨0xB040, 1, 0x3F3F, 0x0, 0x0, 0x0, 0x1008⟩,
  ⟨0xB044, 1, 0x0, 0x0, 0x0, 0xFFFF, 0x0⟩,
  ⟨0xB048, 1, 0x0, 0x0, 0x0, 0x0, 0x0⟩,
  ⟨0xB060, 8, 0x800FFFFF, 0x0, 0x0, 0x0, 0x0⟩,
  ⟨0xC040, 1, 0x1FF, 0x0, 0x0, 0x0, 0x0⟩,
  ⟨0xC044, 1, 0x0, 0x0, 0x0, 0x0, 0x0⟩,
  ⟨0xC048, 1, 0x0, 0x0, 0x0, 0x0, 0x0⟩,
  ⟨0xC04C, 1, 0xFFFF00FF, 0x0, 0x0, 0x0, 0x1⟩,
  ⟨0xC050, 1, 0xFFFFFFFF, 0x0, 0x0, 0x0, 0xFFFF⟩,
  ⟨0xC054, 1, 0xFFFF, 0x0, 0x0, 0x0, 0x40⟩,
  ⟨0xC058, 1, 0x0, 0x0, 0x0, 0x0, 0x0⟩,
  ⟨0xC05C, 1, 0x0, 0x0, 0x0, 0x0, 0x0⟩,
  ⟨0xC060, 1, 0x9FFF1FFF, 0x0, 0x0, 0x0, 0x0⟩,
  ⟨0xC064, 1, 0xFFFFFFFF, 0x0, 0x0, 0x0, 0x0⟩,
  ⟨0xC068, 1, 0x9FFF1FFF, 0x0, 0x0, 0x0, 0x0⟩,
  ⟨0xC06C, 1, 0xFFFFFFFF, 0x0, 0x0, 0x0, 0x0⟩,
  ⟨0xC070, 1, 0x9FFF1FFF, 0x0, 0x0, 0x0, 0x0⟩,
  ⟨0xC074, 1, 0xFFFFFFFF, 0x0, 0x0, 0x0, 0x0⟩,
  ⟨0xC078, 1, 0x9FFF1FFF, 0x0, 0x0, 0x0, 0x0⟩,
  ⟨0xC07C, 1, 0xFFFFFFFF, 0x0, 0x0, 0x0, 0x0⟩,
  ⟨0xC200, 1, 0x3FFFF800, 0x0, 0x0, 0x0, 0x0⟩,
  ⟨0xC204, 1, 0x0, 0x0, 0x0, 0x0, 0x0⟩,
  ⟨0xC208, 1, 0x0, 0x0, 0x0, 0x0, 0x0⟩,
  ⟨0xC240, 16, 0xFFFFFFFF, 0x0, 0x0, 0x0, 0x0⟩,
  ⟨0xD040, 1, 0x0, 0x0, 0x0, 0x0, 0x0⟩,
  ⟨0xD044, 1, 0x7FF, 0x0, 0x0, 0x0, 0x0⟩,
  ⟨0xD048, 1, 0x0, 0x0, 0x0, 0x0, 0x0⟩,
  ⟨0xD080, 18, 0x0, 0x0, 0x0, 0x0, 0x0⟩,
  ⟨0xD0D0, 1, 0x0, 0x0, 0x0, 0x0, 0x0⟩,
  ⟨0xD0D4, 1, 0x0, 0x0, 0x0, 0x0, 0x0⟩,
  ⟨0xD0E0, 1, 0x0, 0x0, 0x0, 0x0, 0x0⟩,
  ⟨0xD0E4, 1, 0x0, 0x0, 0x0, 0x0, 0x0⟩,
  ⟨0xD0E8, 1, 0x0, 0x0, 0x0, 0x0, 0x0⟩]

/-- Registers of the global pages, part 6. -/
def RegMap.global6 : List RegRow := [
  ⟨0xD0EC, 1, 0x0, 0x0, 0x0, 0x0, 0x0⟩,
  ⟨0xD0F0, 1, 0x0, 0x0, 0x0, 0x0, 0x0⟩,
  ⟨0xD0F4, 1, 0x0, 0x0, 0x0, 0x0, 0x0⟩,
  ⟨0xE040, 1, 0x7, 0x0, 0x0, 0x0, 0x0⟩,
  ⟨0xE044, 1, 0x3FFFF800, 0x0, 0x0, 0x0, 0x0⟩,
  ⟨0xE048, 1, 0x0, 0x0, 0x0, 0x0, 0x0⟩,
  ⟨0xE04C, 1, 0xFFFF7FFF, 0x0, 0x0, 0x0, 0x0⟩,
  ⟨0xE050, 1, 0x0, 0x0, 0x0, 0x0, 0x0⟩,
  ⟨0xE054, 1, 0x0, 0x0, 0x0, 0x0, 0x0⟩,
  ⟨0xE058, 1, 0x0, 0x0, 0x0, 0x0, 0x0⟩,
  ⟨0xE05C, 1, 0x0, 0x0, 0x0, 0x0, 0x0⟩,
  ⟨0xE060, 1, 0x0, 0x0, 0x0, 0x0, 0x0⟩,
  ⟨0xE064, 1, 0x0, 0x0, 0x0, 0x0, 0x0⟩,
  ⟨0xE068, 1, 0x0, 0x0, 0x0, 0x0, 0x0⟩,
  ⟨0xE06C, 1, 0x0, 0x0, 0x0, 0x0, 0x0⟩,
  ⟨0xE080, 1, 0x3FFFF800, 0x0, 0x0, 0x0, 0x0⟩,
  ⟨0xE084, 1, 0x1, 0x0, 0x0, 0x0, 0x0⟩,
  ⟨0xE088, 1, 0x80000FFF, 0x0, 0x0, 0x0, 0x0⟩,
  ⟨0xE08C, 1, 0x3FFF, 0x0, 0x0, 0x0, 0x0⟩,
  ⟨0xE090, 1, 0xFFFFFFFF, 0x0, 0x0, 0x0, 0xFF7D999A⟩,
  ⟨0xE094, 1, 0xFFFF, 0x0, 0x0, 0x0, 0x4A⟩,
  ⟨0xE098, 1, 0x7, 0x0, 0x0, 0x0, 0x7⟩,
  ⟨0xE09C, 1, 0xFFFF7FFF, 0x0, 0x0, 0x0, 0x0⟩,
  ⟨0xE0A0, 1, 0x0, 0x0, 0x0, 0x0, 0x0⟩,
  ⟨0xE0A4, 1, 0x0, 0x0, 0x0, 0x0, 0x0⟩,
  ⟨0xE0A8, 1, 0x0, 0x0, 0x0, 0x0, 0x0⟩,
  ⟨0xF040, 1, 0x0, 0x0, 0x0, 0x0, 0x0⟩,
  ⟨0xF044, 1, 0xFFFFFFFF, 0x0, 0x0, 0x0, 0x0⟩]

/-- Registers of the global pages. -/
def RegMap.global : List RegRow := RegMap.global1 ++ RegMap.global2 ++ RegMap.global3 ++ RegMap.global4 ++ RegMap.global5 ++ RegMap.global6

/-- Registers of the lane pages, part 1. -/
def RegMap.lane1 : List RegRow := [
  ⟨0xC0, 1, 0x0, 0x0, 0x0, 0x0, 0x0⟩,
  ⟨0xC4, 1, 0x0, 0x0, 0x0, 0x0, 0x0⟩,
  ⟨0xC8, 1, 0x0, 0x0, 0x0, 0x0, 0x0⟩,
  ⟨0xCC, 1, 0x0, 0x0, 0x0, 0x0, 0x0⟩,
  ⟨0xD0, 1, 0x0, 0x0, 0x0, 0x0, 0x0⟩,
  ⟨0x100, 1, 0x0, 0x0, 0x0, 0x0, 0x0⟩,
  ⟨0x104, 1, 0x3F033FFF, 0x0, 0x0, 0x0, 0x0⟩,
  ⟨0x108, 1, 0x1, 0x0, 0x0, 0x0, 0x0⟩,
  ⟨0x10C, 1, 0x0, 0x700, 0x0, 0x0, 0x0⟩,
  ⟨0x110, 1, 0x0, 0x0, 0x0, 0x0, 0x0⟩,
  ⟨0x114, 1, 0x0, 0x0, 0x0, 0x0, 0x0⟩,
  ⟨0x120, 1, 0xFFFF, 0x0, 0x0, 0x0, 0x0⟩,
  ⟨0x124, 1, 0x3F3F3F3F, 0x0, 0x0, 0x0, 0x0⟩,
  ⟨0x128, 1, 0x3F3F3F3F, 0x0, 0x0, 0x0, 0x0⟩,
  ⟨0x12C, 1, 0x3F3F3F3F, 0x0, 0x0, 0x0, 0x0⟩,
  ⟨0x130, 1, 0x3F3F3F3F, 0x0, 0x0, 0x0, 0x0⟩,
  ⟨0x134, 1, 0x3F3F3F, 0x0, 0x0, 0x0, 0x0⟩,
  ⟨0x140, 1, 0x137, 0x0, 0x0, 0x0, 0x0⟩,
  ⟨0x144, 1, 0x0, 0x0, 0x0, 0x0, 0x0⟩,
  ⟨0x180, 1, 0xFFFFFFFF, 0x0, 0x0, 0x0, 0x1E0064⟩,
  ⟨0x184, 1, 0xFFFFFFFF, 0x0, 0x0, 0x0, 0x12C01F4⟩,
  ⟨0x188, 1, 0xFFFFFFFF, 0x0, 0x0, 0x0, 0x7D01388⟩,
  ⟨0x18C, 1, 0xFFFFFFFF, 0x0, 0x0, 0x0, 0x320A020A⟩,
  ⟨0x190, 1, 0xFFFFFFFF, 0x0, 0x0, 0x0, 0x0⟩,
  ⟨0x194, 1, 0xFFFFFF03, 0x0, 0x0, 0x0, 0xC83200⟩,
  ⟨0x198, 1, 0x1FF, 0x0, 0x0, 0x0, 0x0⟩,
  ⟨0x1A0, 1, 0x3F, 0x0, 0x0, 0x0, 0x0⟩,
  ⟨0x1A4, 1, 0x0, 0x0, 0x0, 0x0, 0x0⟩,
  ⟨0x1B0, 1, 0x0, 0x0, 0x0, 0x0, 0x0⟩,
  ⟨0x1B4, 1, 0x0, 0x0, 0x0, 0x0, 0x0⟩,
  ⟨0x1B8, 1, 0x0, 0x0, 0x0, 0xFFFFFF, 0x0⟩,
  ⟨0x200, 1, 0xFFFF0006, 0x0, 0x0, 0x0, 0x1000004⟩,
  ⟨0x204, 1, 0xFFFFFFFF, 0x0, 0x0, 0x0, 0x14646414⟩,
  ⟨0x208, 1, 0xFFFFFFFF, 0x0, 0x0, 0x0, 0x186A0⟩,
  ⟨0x20C, 1, 0xFFFFFFFF, 0x0, 0x0, 0x0, 0xA1407D0⟩,
  ⟨0x210, 1, 0xFFFFFFFF, 0x0, 0x0, 0x0, 0x138805DC⟩,
  ⟨0x214, 1, 0x0, 0x0, 0x0, 0x0, 0x0⟩,
  ⟨0x220, 1, 0x0, 0x0, 0x0, 0x0, 0x0⟩,
  ⟨0x224, 1, 0x0, 0x0, 0x0, 0x0, 0x0⟩,
  ⟨0x228, 1, 0x0, 0x0, 0x0, 0x0, 0x0⟩]

/-- Registers of the lane pages, part 2. -/
def RegMap.lane2 : List RegRow := [
  ⟨0x22C, 1, 0x0, 0x0, 0x0, 0x0, 0x0⟩,
  ⟨0x230, 1, 0x0, 0x0, 0x0, 0x0, 0x0⟩,
  ⟨0x234, 1, 0x0, 0x0, 0x0, 0x0, 0x0⟩,
  ⟨0x240, 1, 0x3FF000F, 0x0, 0x0, 0x0, 0x0⟩,
  ⟨0x244, 1, 0x0, 0x0, 0x0, 0x0, 0x0⟩,
  ⟨0x280, 1, 0x1FF, 0x0, 0x0, 0x0, 0xFF⟩,
  ⟨0x284, 1, 0x0, 0x0, 0x0, 0x0, 0x0⟩,
  ⟨0x288, 1, 0x0, 0x0, 0x0, 0x0, 0xE0000⟩,
  ⟨0x290, 1, 0x0, 0x0, 0x0, 0x0, 0x0⟩,
  ⟨0x294, 1, 0x0, 0x0, 0x0, 0x0, 0x0⟩,
  ⟨0x298, 1, 0x0, 0x0, 0x0, 0x0, 0x0⟩,
  ⟨0x29C, 1, 0x0, 0x0, 0x0, 0x0, 0x0⟩,
  ⟨0x2C0, 1, 0x0, 0x0, 0x0, 0x0, 0x0⟩,
  ⟨0x2C4, 1, 0x0, 0x0, 0x0, 0x0, 0x0⟩,
  ⟨0x2C8, 1, 0x0, 0x0, 0x0, 0x0, 0x0⟩,
  ⟨0x2CC, 1, 0x0, 0x0, 0x0, 0x0, 0x0⟩,
  ⟨0x2D0, 1, 0x0, 0x0, 0x0, 0x0, 0x0⟩,
  ⟨0x2D4, 1, 0x0, 0x0, 0x0, 0x0, 0x0⟩,
  ⟨0x2D8, 1, 0x0, 0x0, 0x0, 0x0, 0x0⟩,
  ⟨0x2DC, 1, 0x0, 0x0, 0x0, 0x0, 0x0⟩,
  ⟨0x2E0, 1, 0x0, 0x0, 0x0, 0x0, 0x0⟩,
  ⟨0x2E4, 1, 0x1F, 0x0, 0x0, 0x0, 0x0⟩,
  ⟨0x2E8, 1, 0x0, 0x0, 0x0, 0x0, 0x0⟩,
  ⟨0x2EC, 1, 0x0, 0x0, 0x0, 0x0, 0x0⟩,
  ⟨0x300, 1, 0x0, 0x0, 0x0, 0x0, 0x0⟩,
  ⟨0x304, 1, 0x0, 0x0, 0x0, 0x0, 0x0⟩,
  ⟨0x308, 1, 0x0, 0x0, 0x0, 0x0, 0x0⟩,
  ⟨0x30C, 1, 0x0, 0x0, 0x0, 0x0, 0x0⟩]

/-- Registers of the lane pages. -/
def RegMap.lane : List RegRow := RegMap.lane1 ++ RegMap.lane2

/-- Registers of the cluster pages, part 1. -/
def RegMap.cluster1 : List RegRow := [
  ⟨0x40, 1, 0x0, 0x0, 0x0, 0x0, 0x0⟩,
  ⟨0x44, 1, 0x0, 0x0, 0x0, 0x0, 0x0⟩,
  ⟨0x48, 1, 0x0, 0x0, 0x0, 0x0, 0x80000000⟩,
  ⟨0x80, 1, 0x0, 0x0, 0x0, 0x0, 0x0⟩,
  ⟨0x84, 1, 0x0, 0x0, 0x0, 0x0, 0x0⟩,
  ⟨0x88, 1, 0x0, 0x0, 0x0, 0x0, 0x0⟩,
  ⟨0x8C, 1, 0x0, 0x0, 0x0, 0x0, 0x0⟩,
  ⟨0x90, 1, 0x0, 0x0, 0x0, 0xFFFFFFFF, 0x0⟩,
  ⟨0x94, 1, 0x0, 0x0, 0x0, 0xFFFFFFFF, 0x0⟩,
  ⟨0x98, 1, 0x0, 0x0, 0x0, 0xFFFFFFFF, 0x0⟩,
  ⟨0xC0, 1, 0xFFFFFFFF, 0x0, 0x0, 0x0, 0x1F40014⟩,
  ⟨0xC4, 1, 0x0, 0x0, 0x0, 0x0, 0x800⟩]

/-- Registers of the cluster pages. -/
def RegMap.cluster : List RegRow := RegMap.cluster1

/-- Registers of the channel pages, part 1. -/
def RegMap.channel1 : List RegRow := [
  ⟨0x40, 1, 0x3F0F037F, 0x0, 0x0, 0x0, 0x40⟩,
  ⟨0x44, 1, 0x0, 0x0, 0x0, 0x0, 0x0⟩,
  ⟨0x48, 1, 0xFFFFFFFF, 0x0, 0x0, 0x0, 0x0⟩,
  ⟨0x4C, 1, 0xFFFFFFFF, 0x0, 0x0, 0x0, 0x0⟩,
  ⟨0x50, 1, 0x0, 0x600, 0x0, 0x0, 0x0⟩,
  ⟨0x54, 1, 0x0, 0x0, 0x0, 0x0, 0x0⟩,
  ⟨0x58, 1, 0x0, 0x0, 0x0, 0x0, 0x0⟩,
  ⟨0x5C, 1, 0x0, 0x0, 0x0, 0x0, 0x0⟩]

/-- Registers of the channel pages. -/
def RegMap.channel : List RegRow := RegMap.channel1

/-- Registers of the decoder pages, part 1. -/
def RegMap.decoder1 : List RegRow := [
  ⟨0x40, 1, 0x0, 0x0, 0x0, 0x0, 0x0⟩,
  ⟨0x44, 1, 0x0, 0x0, 0x0, 0x0, 0x0⟩,
  ⟨0x48, 1, 0x0, 0x0, 0x0, 0x0, 0x0⟩,
  ⟨0x4C, 1, 0x0, 0x0, 0x0, 0xFFFF, 0x0⟩,
  ⟨0x50, 1, 0x0, 0x0, 0x0, 0x0, 0x0⟩]

/-- Registers of the decoder pages. -/
def RegMap.decoder : List RegRow := RegMap.decoder1

/-- Registers of the region pages, part 1. -/
def RegMap.region1 : List RegRow := [
  ⟨0x40, 1, 0x333F0F1F, 0x0, 0x0, 0x0, 0x31190B0A⟩,
  ⟨0x44, 1, 0xFFFF, 0x0, 0x0, 0x0, 0x91B6⟩,
  ⟨0x48, 1, 0xFFFFFFFF, 0x0, 0x0, 0x0, 0x0⟩,
  ⟨0x4C, 1, 0x0, 0x0, 0x0, 0x0, 0x20⟩,
  ⟨0x80, 1, 0xFFFF, 0x0, 0x0, 0x0, 0x400⟩,
  ⟨0x84, 1, 0x0, 0x0, 0x0, 0x0, 0x0⟩,
  ⟨0x88, 1, 0x0, 0x0, 0x0, 0x0, 0x0⟩,
  ⟨0x8C, 1, 0x0, 0x0, 0x0, 0x0, 0x0⟩,
  ⟨0x90, 1, 0x0, 0x0, 0x0, 0x0, 0x0⟩]

/-- Registers of the region pages. -/
def RegMap.region : List RegRow := RegMap.region1

/-- Registers of the doorbell pages, part 1. -/
def RegMap.doorbell1 : List RegRow := [
  ⟨0x40, 1, 0x0, 0x0, 0x0, 0x0, 0x0⟩,
  ⟨0x44, 1, 0x0, 0x0, 0x0, 0x0, 0x0⟩,
  ⟨0x48, 1, 0x0, 0x0, 0x0, 0x0, 0x0⟩,
  ⟨0x4C, 1, 0x0, 0x0, 0x0, 0xFFFF, 0x0⟩,
  ⟨0x50, 1, 0x0, 0xFF, 0x0, 0x0, 0x0⟩,
  ⟨0x54, 1, 0xFF, 0x0, 0x0, 0x0, 0x0⟩]

/-- Registers of the doorbell pages. -/
def RegMap.doorbell : List RegRow := RegMap.doorbell1

/-- Registers of the vector pages, part 1. -/
def RegMap.vector1 : List RegRow := [
  ⟨0x0, 1, 0xFFFFFF07, 0x8, 0x0, 0x0, 0x0⟩,
  ⟨0x4, 1, 0xFFFFFFFF, 0x0, 0x0, 0x0, 0x0⟩,
  ⟨0x8, 1, 0xFFFFFFFF, 0x0, 0x0, 0x0, 0x0⟩,
  ⟨0xC, 1, 0xFFFFFFFF, 0x0, 0x0, 0x0, 0x0⟩,
  ⟨0x10, 1, 0xFFFFFFFF, 0x0, 0x0, 0x0, 0x0⟩,
  ⟨0x14, 1, 0x0, 0x0, 0x0, 0x0, 0x0⟩,
  ⟨0x18, 1, 0x0, 0x0, 0x0, 0x0, 0x0⟩,
  ⟨0x1C, 1, 0x0, 0x80000000, 0x0, 0x0, 0x0⟩]

/-- Registers of the vector pages. -/
def RegMap.vector : List RegRow := RegMap.vector1

/-- The kinds of page (R97): the single pages, the replicated kinds with the instance, the vector table with the entry,
the load window, and a reserved range. -/
inductive PageKind where
  | single (n : Nat) | cluster (c : Nat) | lane (g : Nat) | channel (ch : Nat) | decoder (e : Nat) | region (r : Nat)
  | vector (v : Nat) | doorbell (t : Nat) | window | reserved
  deriving DecidableEq, Repr

/-- The page that a byte address of the aperture lies in (R97). -/
def pageKind (a : Nat) : PageKind :=
  if a < 0x10000 then .single (a / 0x1000)
  else if a < 0x20000 then .cluster (a / 0x1000 - 0x10)
  else if a < 0xA0000 then .lane (a / 0x1000 - 0x20)
  else if a < 0xE0000 then .channel (a / 0x1000 - 0xA0)
  else if a < 0x120000 then .decoder (a / 0x1000 - 0xE0)
  else if a < 0x122000 then .region (a / 0x1000 - 0x120)
  else if a < 0x140000 then .reserved
  else if a < 0x180000 then .vector ((a / 0x1000 - 0x140) * 64 + a % 0x1000 / 64)
  else if a < 0x400000 then .reserved
  else if a < 0x600000 then .doorbell (a / 0x1000 - 0x400)
  else .window

/-- The row of a table that holds offset o. -/
def findRow (t : List RegRow) (o : Nat) : Option RegRow :=
  t.find? (fun r => decide (r.off ≤ o) && decide (o < r.off + 4 * r.count))

/-- A row without any field. -/
def RegRow.none : RegRow := ⟨0, 1, 0, 0, 0, 0, 0⟩

/-- The common registers of a page (R96, R105, R108 to R110): PAGE_CTL and IRQ_EN are RW; ERR_CAPT0.VALID is W1C and
PAGE_LOCK.LOCK is W1S, both with effects of their own; IRQ_RAW is W1C on its latched bits. -/
def commonRow (o : Nat) : Option RegRow :=
  if o = 0x008 then some ⟨0x008, 1, 1, 0, 0, 0, 0⟩
  else if o = 0x010 then some ⟨0x010, 1, 0, 0xFFFFFFFE, 0, 0, 0⟩
  else if o = 0x014 then some ⟨0x014, 1, 0xFFFFFFFF, 0, 0, 0, 0⟩
  else if o = 0x020 then some ⟨0x020, 1, 0, 0x80000000, 0, 0, 0⟩
  else if o = 0xFF0 then some ⟨0xFF0, 1, 0, 0, 1, 0, 0⟩
  else Option.none

/-- The perturbation registers of a page (R433 to R435): four slots of PX_CTL and PX_ARG. -/
def perturbRow (o : Nat) : Option RegRow :=
  if 0xF00 ≤ o ∧ o < 0xF20 then
    if o % 8 = 0 then some ⟨o, 1, 0xFFFF1FF3, 0, 0, 0, 0⟩ else some ⟨o, 1, 0xFFFFFFFF, 0, 0, 0, 0⟩
  else Option.none

/-- Whether R435 names the page as one that supports perturbation. -/
def hasPerturb : PageKind → Bool
  | .single n => n = 3 ∨ n = 5 ∨ n = 9 ∨ n = 10 ∨ n = 15
  | .cluster _ | .lane _ | .channel _ | .decoder _ => true
  | _ => false

/-- The register row at a byte address, if the address is one of a register that holds fields (R98). -/
def regRow (a : Nat) : Option RegRow :=
  let o := a % 0x1000
  let k := pageKind a
  match k with
  | .vector _ => findRow RegMap.vector (a % 64)
  | .window | .reserved => none
  | _ =>
    if o < 0x40 ∨ 0xFF0 ≤ o then
      match k with
      | .doorbell _ => if o = 0xFF0 then none else commonRow o
      | _ => commonRow o
    else if 0xF00 ≤ o then if hasPerturb k then perturbRow o else none
    else match k with
      | .single _ => findRow RegMap.global a
      | .cluster _ => findRow RegMap.cluster o
      | .lane _ => findRow RegMap.lane o
      | .channel _ => findRow RegMap.channel o
      | .decoder _ => findRow RegMap.decoder o
      | .region _ => findRow RegMap.region o
      | .doorbell _ => findRow RegMap.doorbell o
      | _ => none

/-- The classes of R426 with their default severities: 3 FATAL, 2 ERROR, 1 WARN, 0 INFO. -/
def classSev (c : Nat) : Nat :=
  if c = 0 ∨ 0x2E ≤ c then 0
  else if c ≤ 2 then 3
  else if c ≤ 0x18 ∨ c = 0x2D then 2
  else if c ≤ 0x27 then 1
  else 0

/-- The key under which a register is held: its address, and for a register reached through a select register the
selected index above the aperture's 2²³ bytes. -/
def winKey (a i : Nat) : Nat := a + 0x800000 * (1 + i)

/-- The reset value of the register held at a key (the register descriptions; R426 for the class configuration; R375
clears the vector table; IW_TN_QUOTA of instance 511 has MAX at the slab count of the 128-lane build and TN_SCHED of instance 511 WEIGHT 255). -/
def regReset (k : Nat) : Word :=
  let a := k % 0x800000
  if a % 0x1000 < 0x40 ∧ ¬ (0x140000 ≤ a ∧ a < 0x180000) then 0
  else if a = Reg.BL_CLS_CFG then BitVec.ofNat 32 (classSev (k / 0x800000 - 1))
  else if k = winKey Reg.IW_TN_QUOTA 511 then 0x20000000#32
  else if k = winKey Reg.TN_SCHED 511 then 0xFF#32
  else if a = Reg.BL_ACK then 0xFFFFFFFF#32
  else match regRow a with
    | some r => r.reset
    | none => 0

end Sys2Proof.Machine
end

