-- ==== Sys2Proof/Machine/Tab.lean ====
section
/-! DEFINITION. Sparse tables: a list of (key, value) pairs in one canonical form, keys strictly rising and no entry
equal to what an unlisted key reads as, so that equal tables are equal data. Registers, the backing store, slabs, lanes
and every other indexed unit are held in one. -/
namespace Sys2Proof.Machine

/-- A sparse table over natural-number keys. -/
abbrev Tab (α : Type) := List (Nat × α)

namespace Tab
variable {α : Type}

/-- The entry listed at key k, if any. -/
def find? : Tab α → Nat → Option α
  | [], _ => none
  | (j, v) :: t, k => if k = j then some v else find? t k

/-- What key k reads as, where an unlisted key reads as d k. -/
def getD (d : Nat → α) (t : Tab α) (k : Nat) : α := (find? t k).getD (d k)

/-- The table without an entry at k. -/
def erase : Tab α → Nat → Tab α
  | [], _ => []
  | (j, w) :: t, k => if k = j then t else (j, w) :: erase t k

/-- The table with v listed at k, keys kept rising. -/
def put : Tab α → Nat → α → Tab α
  | [], k, v => [(k, v)]
  | (j, w) :: t, k, v => if k < j then (k, v) :: (j, w) :: t else if k = j then (k, v) :: t else (j, w) :: put t k v

/-- A write of v at k: writing what an unlisted key reads as removes the entry. -/
def setD [DecidableEq α] (d : Nat → α) (t : Tab α) (k : Nat) (v : α) : Tab α :=
  if v = d k then erase t k else put t k v

/-- Every key of the table is above b and the keys rise strictly. -/
def above : Nat → Tab α → Bool
  | _, [] => true
  | b, (j, _) :: t => decide (b < j) && above j t

/-- The keys rise strictly. -/
def rising : Tab α → Bool
  | [] => true
  | (j, _) :: t => above j t

/-- The canonical form: strictly rising keys and no entry equal to what an unlisted key reads as. -/
def wf [DecidableEq α] (d : Nat → α) (t : Tab α) : Bool := rising t && t.all (fun e => decide (e.2 ≠ d e.1))

end Tab
end Sys2Proof.Machine
end

