-- ==== Sys2Proof/Machine/State.lean ====
section
/-! DEFINITION. The state of the block as plain data: every register, queue, table, engine and pin that the spec names,
and the queue of commands that wait (first in, first out). Registers whose value no other state gives live in `regs`,
keyed by aperture address; an unlisted one reads as its reset value (Machine/RegMap.lean). -/
namespace Sys2Proof.Machine

/-- The operating modes (R78). -/
inductive Mode where
  | reset | opening | service | thrift | endgame | fallback
  deriving DecidableEq, Repr

/-- The phases of OPENING (R85). -/
inductive Phase where
  | none | charCheck | awaitImages | measure | start | train | seal | defect
  deriving DecidableEq, Repr

/-- Why a step can stop. No rule of the spec stops this block on a command, so no meaning answers a fault (log entry 1). -/
inductive Fault where
  /-- Raised by nothing in this model; kept so that the type of a step is the host's. Safe. -/
  | none
  deriving DecidableEq, Repr

/-- Why a command has no meaning in the model. -/
inductive Refusal where
  /-- Raised by the arm of a command that has no meaning yet, under the mnemonic of its row. Safe. -/
  | notModelled (mnemonic : String)
  deriving DecidableEq, Repr

/-- The build (R3): its lanes, the patch number of R2 and the TAP_IDCODE parameter of R61. -/
structure Build where
  lanes  : Nat
  patch  : BitVec 8
  idcode : Word
  deriving DecidableEq, Repr

/-- Scan (R62): mission operation, SCAN_MODE high, or SCAN_MODE low again with every other content undefined. -/
inductive Scan where
  | mission | shifting | spoiled
  deriving DecidableEq, Repr

/-- Input pins as the block last sampled them (R53 to R57), the reset inputs, and the state of scan. -/
structure Pins where
  pwrLow   : Bool
  warmLow  : Bool
  holdup   : Bool
  therm0   : BitVec 10
  therm1   : BitVec 10
  edge0    : BitVec 10
  edge1    : BitVec 10
  capReq   : BitVec 16
  scan     : Scan
  deriving DecidableEq, Repr

/-- The fuse power domain (R58, R59, R68): the Characterization Row, the load in progress, and the latched KEK. -/
structure Fuse where
  row     : Tab Word
  addr    : Nat
  tries   : Nat
  request : Bool
  failed  : Bool
  done    : Bool
  kek     : Option (BitVec 256)
  deriving DecidableEq, Repr

/-- The instructions of the test access port (R61). -/
inductive TapIr where
  | extest | idcode | sample | clamp | highz | bypass
  deriving DecidableEq, Repr

/-- The test access port (R61): its 4-bit instruction register, the boundary register's update stage, what it last captured,
and whether the pad slices drive the pins from it (none: the block does; some false: high impedance). -/
structure Tap where
  ir       : BitVec 4
  update   : List Bool
  captured : List Bool
  drive    : Option Bool
  dr       : Word
  deriving DecidableEq, Repr

/-- The expert unlock (R106). -/
inductive Unlock where
  | closed | armed | open
  deriving DecidableEq, Repr

/-- The outputs of the register port (R43 to R45): RP_ACK, RP_ERR and RP_RDATA, which are 0 between accesses and in reset; none
where a write is acknowledged, for which the spec gives RP_RDATA no value. RP_RPAR is RpOut.par. -/
structure RpOut where
  ack  : Bool
  err  : Bool
  data : Option Word
  deriving DecidableEq, Repr

/-- A change that the block makes to a ring's context (R195, R204, R211): a reservation returned; n slots taken by a packet that leaves the
Fetcher, which may be counted as a packet, as a drop, or as both; a drop alone, which may return a reservation of a CPL ring; ERROR
with a cause; the errors of a failed completion write; FENCED for an instance reset. -/
inductive RingUpd where
  | lower
  | gone (slot : Nat) (pkt drop : Bool)
  | drop (lower : Bool)
  | error (cause : Nat)
  | cplFailed
  | fence
  deriving DecidableEq, Repr

/-- Central state of the GLB page that no plain register holds (R78 to R94, R106, R428 to R432): among it the cycle in which the
phase of OPENING began, and whether TRAIN has discovered the lanes (R85, R142). -/
structure Glb where
  mode        : Mode
  prevMode    : Mode
  phase       : Phase
  phaseAt     : Nat
  walked      : Bool
  doneShown   : Bool
  owner       : Option (BitVec 8)
  successor   : BitVec 8
  succEn      : Bool
  unlock      : Unlock
  sealRefused : Bool
  bootCount   : Nat
  causeA      : BitVec 5
  causeB      : BitVec 5
  causeC      : BitVec 5
  fallCause   : BitVec 5
  openFailed  : Bool
  restartWait : Bool
  resetCounted : Bool
  level       : Option (Fin 3)
  sealDegraded : Bool
  trained     : Nat
  warmDeferred : Bool
  warmWait    : Bool
  scrArmed    : Bool
  measureBusy : Bool
  pbOpen      : Bool
  fetchedInFallback : Bool
  dfBaseSet   : Bool
  frBaseSet   : Bool
  mvCfg    : Word
  doorbells   : List (Nat × Word)
  owed        : List (Nat × RingUpd)
  deriving DecidableEq, Repr

/-- The state of a Quill or of the Scribe (CL_QUILL_STAT.STATE; GLB_SCR_STATE.STATE). -/
inductive CoreState where
  | held | starting | running | rom | fault | lost | reloading
  deriving DecidableEq, Repr

/-- A Quill or the Scribe (R157 to R162): sixteen registers, the program counter in words, IRAM by word index, the event
queue oldest first, the four timers' expiry in µs, and the frozen fault and start reasons. -/
structure Core where
  state    : CoreState
  regs     : Tab Word
  pc       : Nat
  iram     : Tab Word
  events   : List Word
  timers   : Tab Nat
  kick     : Nat
  faultCode : Nat
  startErr : Nat
  ready    : Bool
  goAt     : Nat := 0
  deriving DecidableEq, Repr

/-- One Command Word in an intake: its 64 bytes, word 0 on the low bits, and its packet's bookkeeping. -/
structure IntakeWord where
  bits   : BitVec 512
  ring   : Nat
  owner  : Nat
  prio   : Nat
  sqHead : Nat
  first  : Bool
  last   : Bool
  packet : Nat
  seen   : Nat
  deriving DecidableEq, Repr

/-- An intake (R198 to R202): the words held in order, whether the last packet is partial, and FLUSH_SKIP. -/
structure Intake where
  words : List IntakeWord
  skip  : Bool
  deriving DecidableEq, Repr

/-- A packet that the Ring Fetcher is fetching or pushing (R195, R196): its ring, its first slot and the ring's slots, the
words read so far, whether the check of its MAWs' residues fails, whether every word is read and judged, the cluster to
whose intake it goes (none: a FENCE), and how many words are pushed. -/
structure Fetching where
  ring   : Nat
  owner  : Nat
  slot   : Nat
  size   : Nat
  base   : Nat
  home   : Nat
  prio   : Nat
  urgent : Bool
  words  : List (BitVec 512)
  mawBad : Option Nat
  done   : Bool
  route  : Option Nat
  pushed : Nat
  packet : Nat
  deriving DecidableEq, Repr

/-- Where a frame of a command stands in the flow of R244, R262 and R263. -/
inductive Flow where
  | waiting | inSlot | inHde | waitSde | inSde | waitCipher | inCipher | gambitQueue | gambitSense | scribe
  | done | failed | erased
  deriving DecidableEq, Repr

/-- One frame of a command: its flow, the first load's ones count (R251), the ones of its decoded codeword (R252), the figures of
R203, R206 and R246, its derandomised bits, and whether its array read was sensed at its command's offsets (R256). -/
structure FrameSt where
  flow     : Flow
  ones     : Option Nat
  pass     : Nat
  soft     : Bool
  redecoded : Bool
  steps    : Nat
  rewalked : Bool
  resensed : Bool
  corr     : Nat
  decoded  : Option Nat
  out      : Frame
  sensed   : Bool := false
  deriving DecidableEq, Repr

/-- Where a command stands between its intake and its completion. -/
inductive Stage where
  | pending | service | staged | moving | done | ready
  deriving DecidableEq, Repr

/-- The fields of a packet's header that its command keeps (R190, R191), with the plane MAWs and inline metadata. -/
structure Packet where
  opcode   : Nat
  tag      : BitVec 16
  flags    : Word
  maw0     : BitVec 64
  maw1     : BitVec 64
  deadline : Nat
  mask     : BitVec 4
  keySlot  : Nat
  fcount   : Nat
  buf      : BitVec 64
  metaAddr : BitVec 64
  arg      : BitVec 64
  maws     : List (BitVec 64)
  metaBytes : List Byte
  deriving DecidableEq, Repr

/-- A command whose completion has been presented while writes of its data await their statuses (R303): what a LATE_ERR
carries, how many statuses are out, and whether its one LATE_ERR has been made. -/
structure Posted where
  serial   : Nat
  tag      : BitVec 16
  opcode   : Nat
  ring     : Nat
  cplRing  : Nat
  owner    : Nat
  port     : Nat
  out      : Nat
  lateSent : Bool
  deriving DecidableEq, Repr

/-- A command that holds a handle (R212); sentAt is the cycle of its dispatch (R221), and dead lists the plane-blocks (die × 8,192 +
DIE_BLK) whose record has been freed under its claim (R272). -/
structure Cmd where
  serial   : Nat
  pkt      : Packet
  ring     : Nat
  cplRing  : Nat
  owner    : Nat
  sqHead   : Nat
  patrol   : Bool
  lane     : Nat
  destPart : Bool
  stage    : Stage
  slabWait : Bool
  v        : Word
  seenAt   : Nat
  d        : Word
  field9   : Word
  rlOk     : Bool
  seq      : Word
  slabs    : List Nat
  frames   : List FrameSt
  counts   : List Nat
  claimed  : Bool
  dead     : List Nat
  begun    : Bool
  sent     : List Nat
  verifying : Bool
  blankOrigin : Bool
  result   : Option Nat
  units    : Nat
  firstSince : Option Nat
  stall    : Nat
  denied   : Bool
  deferred : Bool
  quill    : Option Nat
  sentAt   : Nat
  moved    : Bool
  dataErr  : Option (Nat × Nat)
  writesOut : Nat
  exp      : BitVec 16
  status   : Nat
  detail   : Byte
  data     : Word
  discard  : Bool
  resultNo : Nat := 0
  refused  : Bool := false
  summed   : Bool := false
  deriving DecidableEq, Repr

/-- A completion or event record that waits for its slot (R204, R208, R365, R391): its 32 bytes without PHASE (those of a
command with a handle are assembled when it is written), whether a slot is reserved for it, and the time from which its
LAT_US counts where it has no handle. -/
structure Ready where
  cplRing  : Nat
  subRing  : Option Nat
  handle   : Option Nat
  port     : Nat
  words    : BitVec 256
  reserved : Bool
  seen     : Option Nat
  deriving DecidableEq, Repr

/-- The states of a LUN (R179). -/
inductive LunState where
  | idle | readBusy | cacheRead | progBusy | eraseBusy | suspending | suspended | readInSusp | progInSusp | resetting
  | generalBusy
  deriving DecidableEq, Repr

/-- One LUN of a lane (R179 to R182, R221, R223): its state and flags, the stroke that made it busy, the commands whose sensed data
has not all been read out (R437), the command of its last array operation (R173, R437), LN_SUSP_OPC as its SUSPEND took it (R180), field
10 as it stood at the commit of the array read of what the cache register and the page register hold (R256), and
the times of its erase and its suspensions, in CLK_AON cycles. -/
structure Lun where
  state     : LunState
  from_     : LunState
  pendData  : Bool
  busy      : Bool
  cacheEnd  : Bool
  busyClass : Nat
  busyAt    : Nat
  suspCount : Nat
  handle    : Option Nat
  erase     : Option Nat
  progs     : List Nat
  cachedRow : Nat
  eraseRun  : Nat
  suspAt    : Nat
  suspTotal : Nat
  suspWaived : Nat
  suspReqs  : Nat
  suspAsked : Bool
  suspFree  : Bool
  sensed    : List Nat
  overrun   : Bool
  awaitReset : Bool
  feat      : Word
  featNew   : Option Word
  arrayBy   : Option Nat := none
  ofsCur    : Word := 0xFFFFFFFF#32
  ofsNext   : Word := 0xFFFFFFFF#32
  suspOpc   : Word := 0
  deriving DecidableEq, Repr

/-- A committed stroke (R168): its ID and parameter block, whether the block committed it itself, whether it is resolved among
the ROM strokes alone (R164), the tail fill that holds for it (LN_FRAME_CFG at its commit, R231), whether it is a SUSPEND that the
Scribe makes for a retrain (R182), field 10 at its commit (R256), and whether it belongs to a seal copy or to the sanitize (R341, R345). -/
structure Stroke where
  id      : Nat
  params  : List Word
  byBlock : Bool
  rom     : Bool
  fill    : Word
  waived  : Bool := false
  ofs     : Word := 0xFFFFFFFF#32
  seq     : Bool := false
  deriving DecidableEq, Repr

/-- One cycle on a lane's bus (R48): a command cycle (CLE high), an address cycle (ALE high), or a data byte in or out. -/
inductive BusCycle where
  | cmd (b : Byte) | addr (b : Byte) | dataIn (b : Byte) | dataOut (b : Byte)
  deriving DecidableEq, Repr

/-- The levels of a lane's output pins (R48): one CE_N bit per target, the latch enables, the write and read enables and WP_N, and what
the block drives on DQ and on DQS_T and DQS_C; none leaves them in high impedance. -/
structure LanePins where
  ceN : BitVec 16
  weN : Bool
  reT : Bool
  reC : Bool
  ale : Bool
  cle : Bool
  wpN : Bool
  dq  : Option Byte
  dqsT : Option Bool
  dqsC : Option Bool
  deriving DecidableEq, Repr

/-- The stroke that runs on a lane: its class and flags, its remaining element words, how many frames its bursts have moved, and
its status byte. -/
structure Running where
  stroke   : Stroke
  cls      : Nat
  cont     : Bool
  slab     : Bool
  cache    : Bool
  elems    : List Word
  moved    : Nat
  status   : Byte
  deriving DecidableEq, Repr

/-- One slot of the lane read FIFO (R236): the frame with its mark, handle and frame index, its place in the order of arrival, the
cycle in which it arrived (R240), and whether its command has no such frame to read (R179; the index is then that in the page). -/
structure Slot where
  frame   : Frame
  handle  : Nat
  index   : Nat
  seqNo   : Nat
  arrived : Nat
  loaded  : Bool
  foreign : Bool := false
  deriving DecidableEq, Repr

/-- The Gambit step under way on a lane (R261, R262): its frame, the offsets and flags that it took when it started, and whether its
command has been cancelled since (R264). -/
structure GambitRun where
  handle : Nat
  frame  : Nat
  ofs    : Word
  flags  : Word
  gone   : Bool
  deriving DecidableEq, Repr

/-- A calibration run (R144): the step reached (64 × pass + tap), whether its pass has begun, the bytes of read data that have
passed in the step, the alternates (sampler and centre, by bit), and the mismatch counts by bit, sampler and tap. -/
structure CalRun where
  step  : Nat
  began : Bool
  bytes : Nat
  alt   : List (Nat × Nat)
  mism  : Tab Nat
  insert : Bool
  deriving DecidableEq, Repr

/-- An entry of the active table (R216). -/
structure Active where
  tenant : Nat
  v      : BitVec 48
  deriving DecidableEq, Repr

/-- The trims that a lane's Nib takes from the Characterization Row (R156). -/
structure Trims where
  drvP    : BitVec 6
  drvN    : BitVec 6
  odt     : BitVec 6
  tapTrim : BitVec 6
  vref    : BitVec 8
  deriving DecidableEq, Repr

/-- Lane signalling, calibration and scheduling state (R134 to R155, R168 to R227) beyond the lane's plain registers: among it the
Nib's trims, the data sources that a calibration run has changed (sampler and tap by bit; empty: the selected ones, R144), the
cycles of the last stroke or poll on the bus, a stroke that waits with its CE_N released (R175), and what is set aside: tenants until the
next refill, and the commands that write until MEDIA has room (R217). -/
structure Lane where
  enabled   : Bool
  wpHigh    : Bool
  trims     : Trims
  source    : List (Nat × Nat)
  held      : Option (List Trial × Option Trial)
  candidates : List Nat
  active    : List Word
  cal       : Option CalRun
  retrainReq : Option Bool
  retrainLater : Option Bool
  retrainWait : Bool
  forced    : Bool
  widths    : Tab Word
  trainEyes : Tab Word
  strokes   : List Stroke
  run       : Option Running
  waiting   : Option Running
  bus       : List BusCycle
  params    : Tab Word
  mpOpen    : Option (Nat × Nat)
  ceLow     : Option Nat
  luns      : Tab Lun
  slots     : Tab Slot
  gambit    : List (Nat × Nat)
  gambitRun : Option GambitRun
  table     : List Active
  vclock    : BitVec 48
  tenantWait : List Nat
  mediaWait : Bool
  blockWait : Bool
  saved     : Option (List Word)
  deriving DecidableEq, Repr

/-- A frame inside an HDE, or a unit inside a cipher engine: lane, handle, frame, and the words the engine took. -/
structure Engine where
  lane   : Nat
  handle : Nat
  frame  : Nat
  bits   : Frame
  limit  : Nat
  refeed : Bool
  gambit : Bool
  key    : Option (BitVec 512)
  deriving DecidableEq, Repr

/-- A cluster (R157, R198, R240, R338): its Quill, intakes, engines, the lane that each HDE served last, and its doze. -/
structure Cluster where
  quill   : Core
  bulk    : Intake
  urgent  : Intake
  hde0    : List Engine
  hde1    : List Engine
  cipher0 : Option Engine
  cipher1 : Option Engine
  decipher : List (Nat × Nat)
  encipher : List (Nat × Nat)
  served0 : Nat
  served1 : Nat
  dozed   : Bool
  quillDead : Bool
  deriving DecidableEq, Repr

/-- An SDE context (R241): the frame, its hard bits and its soft sensings so far, and RG_DEC_CTL as the pass took it (R250). -/
structure SdeCtx where
  cluster : Nat
  lane    : Nat
  handle  : Nat
  frame   : Nat
  hard    : Frame
  soft    : List Frame
  want    : Nat
  gambit  : Bool
  ctl     : Word
  deriving DecidableEq, Repr

/-- A region (R241, R396): its contexts in use, the frames that wait for one, and whether it is dozed. -/
structure Region where
  ctx     : Tab (Option SdeCtx)
  waiting : List (Nat × Nat × Nat)
  dozed   : Bool
  used    : Nat
  blocked : Bool
  deriving DecidableEq, Repr

/-- The state of a slab (R288). -/
inductive SlabSt where
  | free | zeroing | held
  deriving DecidableEq, Repr

/-- One slab of Inkwell (R282, R288 to R291): its state word, payload and side area. -/
structure Slab where
  st       : SlabSt
  poison   : Bool
  lease    : Bool
  head     : Bool
  fetching : Bool
  last     : Bool
  retired  : Bool
  owner    : Nat
  next     : Nat
  payload  : BitVec 32768
  side     : BitVec 512
  deriving DecidableEq, Repr

/-- Who issued a host-port transaction (R38). -/
inductive Issuer where
  | mover (ch : Nat) (handle : Nat) (cluster : Nat) (serial : Nat)
  | manager (ch : Nat)
  | descriptor (ch : Nat)
  | completion (subRing : Option Nat) (cplRing : Nat) (slot : Nat)
  | vector (v : Nat)
  | fetch (ring : Nat)
  | ccFill (reg : Nat)
  | ccAround (reg : Nat)
  | ccWriteback (slot : Nat)
  | egEntry
  | egHeader
  deriving DecidableEq, Repr

/-- A write data beat (R29, R31, R300): its data, the byte parity generated from them, and its strobes. -/
structure WBeat where
  data : Beat
  par  : BitVec 128
  strb : BitVec 128
  deriving DecidableEq, Repr

/-- A host-port request (R29) with its write beats, and, for a read, where its bytes go: the first byte's offset in the
descriptor and the count. -/
structure HpReq where
  wr     : Bool
  addr   : BitVec 52
  len    : Nat
  cls    : Nat
  issuer : Issuer
  beats  : List WBeat
  dest   : Nat
  off    : Nat
  count  : Nat
  deriving DecidableEq, Repr

/-- An outstanding transaction (R33): its request, the beats returned so far, and the cycle of its acceptance. -/
structure HpOut where
  req   : HpReq
  got   : Nat
  at_   : Nat
  err   : Bool
  deriving DecidableEq, Repr

/-- A host port (R29 to R39): requests that wait, the first of them presented while rqTag names its tag (R30, R33), write beats in
request order, outstanding and quarantined tags, the issuer of the last grant (R295), and whether the notify path waits for the request
channel with a completion whose content it fixes when it presents it (R302). -/
structure Port where
  queue  : List HpReq
  rqTag  : Option Nat
  turn   : Nat
  wdata  : List (Nat × List WBeat)
  reads  : Tab (Option HpOut)
  writes : Tab (Option HpOut)
  qReads : Tab Nat
  qWrites : Tab Bool
  moverQ : List (Nat × Nat × Nat)
  ask    : Bool := false
  rdHeld : Option (List (Nat × Word)) := none
  deriving DecidableEq, Repr

/-- One descriptor of a chain (R296, R307): slab or host source, lengths and flags. -/
structure Desc where
  slab    : Nat
  sideOff : Nat
  host    : BitVec 64
  src     : BitVec 64
  fill    : Option (BitVec 64)
  len     : Nat
  swap    : Nat
  barrier : Bool
  end_    : Bool
  irq     : Bool
  trig    : Bool
  next    : BitVec 64
  deriving DecidableEq, Repr

/-- The states of a Manager channel (R308). -/
inductive ChState where
  | idle | fetch | trigWait | active | drain | halted | stopping
  deriving DecidableEq, Repr

/-- A Mover channel (R293 to R310). -/
structure Channel where
  st      : ChState
  cause   : Nat
  active  : Word
  cur     : BitVec 64
  cmd     : Option (Nat × Nat × Nat)
  port    : Nat
  chain   : List Desc
  issued  : Nat
  buffer  : Tab Byte
  got     : Nat
  out     : Nat
  stop    : Bool
  trigPend : Nat
  handAt  : Option Nat
  deriving DecidableEq, Repr

/-- A line of the Context Cache (R311): its tag (offset / 128), flags and data. -/
structure Line where
  tag    : Nat
  dirty  : Bool
  age    : Nat
  lock   : Bool
  poison : Bool
  stream : Bool
  data   : BitVec 1024
  deriving DecidableEq, Repr

/-- An entry of the victim cache (R318, R320, R328): its line, whether a write-back is outstanding, whether the last one
failed, whether the line stays after its write-back, the status that has returned, and whether a CLEAN_INVALIDATE drops the line
then. -/
structure Victim where
  line    : Line
  writing : Bool
  failed  : Bool
  keep    : Bool
  back    : Bool
  reply   : Option Nat
  drop    : Bool := false
  deriving DecidableEq, Repr

/-- A lookup that a miss register holds, with its offset in the line; inner says that a unit makes it within an operation, which waits for
its answer. -/
structure MissOp where
  q     : CcLookup
  off   : Nat
  inner : Bool
  deriving DecidableEq, Repr

/-- A miss register (R316, R317, R319): the line, its lookups in order, whether its fill is out, whether it waits for the status
of the write-around that the first of them makes, whether its fill may be installed (R326), and how many lookups have merged into it. -/
structure Miss where
  tag     : Nat
  around  : Bool
  filling : Bool
  install : Bool
  stream  : Bool
  merged  : List MissOp
  reply   : Option (Nat × Beat)
  merges  : Nat := 0
  deriving DecidableEq, Repr

/-- The states of the Context Cache (R323). -/
inductive CcState where
  | disabled | enabled | draining
  deriving DecidableEq, Repr

/-- A maintenance operation (its OP) or the drain (7) under way, with the lines that it still waits for, those that it has asked for, and
those whose write-back it has issued and whose status it awaits (R320, R321, R325). -/
structure CcJob where
  op     : Nat
  waits  : List Nat
  asked  : List Nat
  writes : List Nat := []
  deriving DecidableEq, Repr

/-- A lookup within an operation, answered after its miss: its line as it then was, or STORE_ERR. The operation takes the answer when it is
tried again (R316, R317). -/
structure LookAnswer where
  q    : CcLookup
  off  : Nat
  data : Option Beat
  deriving DecidableEq, Repr

/-- An operation that the register port or another event has begun and whose unit waits for a line of the Context Cache (R317, R327). -/
inductive Held where
  | ringCmd (op n : Nat)
  | mark (op : Nat)
  | frontier (op : Nat) (data : Word)
  | doorbell (page : Nat) (data : Word) (residue : Bool)
  | ring (n : Nat) (u : RingUpd)
  | sample (c : Nat) (m : BitVec 64) (d : Word) (sensed ok : Bool) (x : Int)
  | grow (die block plane cause : Nat)
  | sealLower (level : Fin 3)
  | unfence (t : Nat)
  | tnReset (t : Nat) (keep : Bool)
  deriving DecidableEq, Repr

/-- The Context Cache (R311 to R331). Ways are keyed by set × 16 + way. wanted is the first lookup that the operation of the present step
makes and cannot be answered; served and held belong to the operations that wait for lines; stuck are the rings whose context the Ring
Fetcher (false) or the notify path (true) has met with STORE_ERR. -/
structure Cache where
  st        : CcState
  invalDone : Bool
  drainPend : Bool
  ways      : Tab (Option Line)
  victims   : List Victim
  miss      : Tab (Option Miss)
  seqLine   : Tab (Nat × Nat)
  job       : Option CcJob
  retryAt   : Nat
  wanted    : Option (Nat × CcLookup × CcFault) := none
  served    : List LookAnswer := []
  held      : List Held := []
  stuck     : List (Bool × Nat) := []
  deriving DecidableEq, Repr

/-- The load of a key in progress (R333): the slot, the wrapped words, and the RESULT of orders 1 to 4, 0 where none
refused it. -/
structure KeyLoad where
  slot   : Nat
  wrap   : List Word
  refuse : Nat
  deriving DecidableEq, Repr

/-- Why the block writes copies of the seal record: a rewrite under R92, a raise (R343), and steps 2 and 4 of a lowering (R344). -/
inductive SealWhy where
  | rewrite | raise | before | after
  deriving DecidableEq, Repr
/-- Where the writing of a copy stands (R341): its erase waits to begin or runs, its program waits to begin or runs. -/
inductive SealStep where
  | waitErase | erasing | waitProgram | programming
  deriving DecidableEq, Repr
/-- The writing of seal copies under way (R92, R343, R344): why, the LEVEL and the TARGET of the record, the region whose copy is being
written, those that follow, where its writing stands, and the copies written and failed so far. -/
structure SealJob where
  why    : SealWhy
  level  : Fin 3
  target : Fin 3
  region : Nat
  todo   : List Nat
  step   : SealStep
  wrote  : List Nat
  failed : List Nat
  deriving DecidableEq, Repr

/-- An erase of the sanitize under way (R345): its MEDIA units, its plane-blocks, and those whose stroke is still to be committed. -/
structure SanErase where
  units  : Nat
  blocks : List Nat
  left   : List Nat
  deriving DecidableEq, Repr
/-- The sanitize under way (R345): the level it leads to, per global die the next plane-block, and for each die its erase under way. -/
structure Sanitize where
  target  : Fin 3
  cursor  : Tab Nat
  running : Tab SanErase
  deriving DecidableEq, Repr

/-- The key store and the seal (R332 to R347). Slots hold Key1 in the low half and Key2 in the high half; again is the level
to which a sanitize that a seal copy reports is to be repeated at the entry to SERVICE (R346). -/
structure Keys where
  slots  : Tab (Option (BitVec 512))
  refs   : Tab Nat
  load   : Option KeyLoad
  job    : Option SealJob
  sanit  : Option Sanitize
  again  : Option (Fin 3)
  gen    : Word
  deriving DecidableEq, Repr

/-- The states of an instance (R383). -/
inductive TnState where
  | free | active | resetting | fenced
  deriving DecidableEq, Repr

/-- The Tenant Manager (R383 to R392). -/
structure Tenants where
  st       : Tab TnState
  resetOf  : Option Nat
  keepKeys : Bool
  closing  : Bool := false
  written  : Nat
  dropped  : Nat
  deriving DecidableEq, Repr

/-- The Ledger's accounts (R396): CREDIT and RESERVE in nJ, the standing and charged energy of the millisecond under
way, USE and the limit of each instance, the counters of R405, and the lane cap of THRIFT in force (R406, R407). -/
structure Ledger where
  credit   : Int
  reserve  : Int
  use      : Tab Nat
  lim      : Tab Nat
  lastRate : Nat
  energy   : Nat
  msCharge : Nat
  debtMs   : Nat
  clearMs  : Nat
  critStop : Bool
  tripStop : Bool
  causes   : Nat
  rateM    : Nat
  effAllow : Nat
  costBad  : List Nat
  deriving DecidableEq, Repr

/-- One vector's delivery state (R376 to R380, R441) beside its table entry: the open window with its opening cycle, its expiry cycle,
count, last raise's port and the record writes (port, key) not yet answered; the message port and the awaited writes of
the last delivery; the message writes not yet presented; the words found in parity error; the cycle of the last raise; and the cycle of the last
delivery with the record writes that its raises report, which a raise of the same cycle still joins. -/
structure Vec where
  opened   : Option Nat
  expiry   : Nat
  count    : Nat
  port     : Nat
  waits    : List (Nat × Nat)
  msgPort  : Nat
  msgWaits : List (Nat × Nat)
  msgs     : List (Nat × List (Nat × Nat))
  bad      : List Nat
  raisedAt : Nat := 0
  closing  : Option (Nat × List (Nat × Nat)) := none
  deriving DecidableEq, Repr

/-- The Signal Unit (R368 to R382): latched pending bits, vectors, edges caught in doze, the restore under way, and the levels
that both IRQ outputs hold through block doze (R52). -/
structure Signal where
  latched : BitVec 128
  caught  : BitVec 128
  vecs    : Tab Vec
  blockDozed : Bool
  restored : Nat
  restoring : Bool
  heldN    : Bool
  heldF    : Bool
  deriving DecidableEq, Repr

/-- The Blotter (R421 to R427): the number, the entry queue, the main and the retained log, class windows, and of the cycle under way
the pages that have captured an error (R109) and how many records it has queued (R421). -/
structure Blotter where
  seq      : Word
  queue    : List (List Word)
  main     : Tab (List Word)
  retained : Tab (List Word)
  retNext  : Nat
  windows  : Tab (Nat × Nat)
  fresh    : List Nat
  cycle    : Nat
  deriving DecidableEq, Repr

/-- The Endgame summary and the sequence under way (R410 to R416): the cycle of registration, whether the sequence has ended,
the entries in order, the entry writes whose status is awaited, and whether the header's is. -/
structure Endgame where
  start    : Nat
  ended    : Bool
  entries  : List (BitVec 128)
  hostOut  : Nat
  headerOut : Bool
  deriving DecidableEq, Repr

/-- Sweep, Patrol and repair (R352 to R365): the row that Sweep reads next with the arrays of its pass, the remap tables and
trackers by macro group, the page that Patrol samples next, and the entries of the Gambit ladder and of the pairing table
found in parity error. -/
structure Scrub where
  row      : Nat
  arrays   : Nat
  remaps   : Tab (List (Nat × Bool))
  tracker  : Tab (List (Nat × Nat))
  patPages : Option (List Nat)
  gbBad    : List Nat
  pairBad  : List Nat
  deriving DecidableEq, Repr

/-- A perturbation slot's generator (R435) by register address: its LFSR state. -/
abbrev Draws := Tab Word

/-- The state of the block. -/
structure State where
  build    : Build
  pins     : Pins
  fuse     : Fuse
  tap      : Tap
  time     : BitVec 64
  glb      : Glb
  rp       : RpOut
  regs     : Tab Word
  images   : Tab Byte
  scribe   : Core
  clusters : Tab Cluster
  lanes    : Tab Lane
  regions  : Tab Region
  fetching : List Fetching
  cmds     : Tab (Option Cmd)
  ready    : List Ready
  lateQ    : List Ready
  posted   : List Posted
  serial   : Nat
  slabs    : Tab Slab
  ports    : Tab Port
  channels : Tab Channel
  ticks    : Tab Nat
  cache    : Cache
  store    : Tab Byte
  keys     : Keys
  tenants  : Tenants
  ledger   : Ledger
  signal   : Signal
  blotter  : Blotter
  endgame  : Endgame
  scrub    : Scrub
  draws    : Draws
  rings    : Tab Word
  pairing  : Tab Word
  freeCtr  : Nat
  pending  : List Instr
  deriving DecidableEq, Repr

/-- A Quill or the Scribe as a reset leaves it: held, every register zero, IRAM zero (log entry 6). -/
def Core.init : Core :=
  { state := .held, regs := [], pc := 0, iram := [], events := [], timers := [], kick := 0, faultCode := 0,
    startErr := 0, ready := false }

/-- A cluster as a reset leaves it; each HDE begins with lane 0 (R240; log entry 111). -/
def Cluster.init : Cluster :=
  { quill := Core.init, bulk := { words := [], skip := false }, urgent := { words := [], skip := false }, hde0 := [],
    hde1 := [], cipher0 := none, cipher1 := none, decipher := [], encipher := [], served0 := 7, served1 := 7, dozed := false,
    quillDead := false }

/-- A LUN as a reset leaves it (R179); the feature bytes last set are unknown (R159, field 10). -/
def Lun.init : Lun :=
  { state := .idle, from_ := .idle, pendData := false, busy := false, cacheEnd := false, busyClass := 3, busyAt := 0,
    suspCount := 0, handle := none, erase := none, progs := [], cachedRow := 0, eraseRun := 0, suspAt := 0,
    suspTotal := 0, suspWaived := 0, suspReqs := 0, suspAsked := false, suspFree := false, sensed := [], overrun := false, awaitReset := false, feat := 0xFFFFFFFF#32,
    featNew := none }

/-- A lane as a reset leaves it: disabled, in the R50 state. -/
def Lane.init : Lane :=
  { enabled := false, wpHigh := false, trims := { drvP := 0, drvN := 0, odt := 0, tapTrim := 0, vref := 0 }, source := [], held := none, candidates := [], active := [0, 0, 0, 0, 0, 0],
    cal := none, retrainReq := none, retrainLater := none, retrainWait := false, forced := false, widths := [], trainEyes := [],
    strokes := [], run := none, waiting := none, bus := [], params := [], mpOpen := none, ceLow := none, luns := [], slots := [],
    gambit := [], gambitRun := none, table := [], vclock := 0, tenantWait := [], mediaWait := false, blockWait := false,
    saved := none }

/-- A region as a reset leaves it. -/
def Region.init : Region := { ctx := [], waiting := [], dozed := false, used := 0, blocked := false }

/-- A slab as a reset leaves it: FREE and zero-filled (R71, R288). -/
def Slab.init : Slab :=
  { st := .free, poison := false, lease := false, head := false, fetching := false, last := false, retired := false,
    owner := 0, next := 0, payload := 0, side := 0 }

/-- A host port as a reset leaves it (R72). -/
def Port.init : Port :=
  { queue := [], rqTag := none, turn := 66, wdata := [], reads := [], writes := [], qReads := [], qWrites := [], moverQ := [] }

/-- A Mover channel as a reset leaves it; the active configuration is the shadow's reset value (R310). -/
def Channel.init : Channel :=
  { st := .idle, cause := 0, active := 0x00000040#32, cur := 0, cmd := none, port := 0, chain := [], issued := 0,
    buffer := [], got := 0, out := 0, stop := false, trigPend := 0, handAt := none }

/-- A vector as a reset leaves it (R375, R376). -/
def Vec.init : Vec :=
  { opened := none, expiry := 0, count := 0, port := 0, waits := [], msgPort := 0, msgWaits := [], msgs := [], bad := [] }

/-- The Context Cache as a reset leaves it (R323): DISABLED, with nothing cached. -/
def Cache.init : Cache :=
  { st := .disabled, invalDone := false, drainPend := false, ways := [], victims := [], miss := [], seqLine := [],
    job := none, retryAt := 0 }

/-- The Ledger as a reset leaves it (R396). -/
def Ledger.init : Ledger :=
  { credit := 0, reserve := 0, use := [], lim := [], lastRate := 0, energy := 0, msCharge := 0, debtMs := 0, clearMs := 0,
    critStop := false, tripStop := false, causes := 0, rateM := 0, effAllow := 0, costBad := [] }

/-- The GLB page's state as cold reset leaves it (R78 to R106). -/
def Glb.init : Glb :=
  { mode := .reset, prevMode := .reset, phase := .none, phaseAt := 0, walked := false, doneShown := false,
    owner := none, successor := 0, succEn := false, unlock := .closed, sealRefused := false, bootCount := 0, causeA := 0,
    causeB := 0, causeC := 0, fallCause := 0, openFailed := false, restartWait := false, resetCounted := false, level := none,
    sealDegraded := false, trained := 0, warmDeferred := false, warmWait := false,
    scrArmed := false, measureBusy := false, pbOpen := false, fetchedInFallback := false, dfBaseSet := false,
    frBaseSet := false, mvCfg := 0x00001008#32, doorbells := [], owed := [] }

/-- The block right after a cold reset has been released: step 1 of R69, with CLK_RESET_CAUSE.COLD at its reset value,
MODE RESET, the fuse load not begun, no KEK taken, and nothing listed in any table. -/
def State.reset : State :=
  { build := { lanes := 128, patch := Config.patch, idcode := Config.idcode ++ 1#1 }
    pins := { pwrLow := false, warmLow := false, holdup := false, therm0 := 0, therm1 := 0, edge0 := 0, edge1 := 0,
              capReq := 0, scan := .mission }
    fuse := { row := [], addr := 0, tries := 0, request := true, failed := false, done := false, kek := none }
    tap := { ir := 0b0001#4, update := [], captured := [], drive := none, dr := 0 }
    time := 0, glb := Glb.init, rp := { ack := false, err := false, data := some 0 }, regs := [], images := []
    scribe := Core.init, clusters := [], lanes := [], regions := [], fetching := [], cmds := [], ready := [], lateQ := [], posted := [], serial := 0
    slabs := [], ports := [], channels := [], ticks := [], cache := Cache.init, store := []
    keys := { slots := [], refs := [], load := none, job := none, sanit := none, again := none, gen := 0 }
    tenants := { st := [], resetOf := none, keepKeys := false, written := 0, dropped := 0 }
    ledger := Ledger.init
    signal := { latched := 0, caught := 0, vecs := [], blockDozed := false, restored := 0, restoring := false, heldN := false, heldF := false }
    blotter := { seq := 0, queue := [], main := [], retained := [], retNext := 0, windows := [], fresh := [], cycle := 0 }
    endgame := { start := 0, ended := false, entries := [], hostOut := 0, headerOut := false }
    scrub := { row := 0, arrays := 0, remaps := [], tracker := [], patPages := none, gbBad := [], pairBad := [] }
    draws := [], rings := [], pairing := [], freeCtr := 0, pending := [] }

end Sys2Proof.Machine
end

