-- ==== Sys2Proof/Machine/Ops.lean ====
section
/-! DEFINITION. The named operations over the state that every command's meaning uses: fields of a word, the registers,
the replicated units of the build, time, and how a command ends. -/
namespace Sys2Proof.Machine

/-! ### Fields (R7) -/

/-- Bits [hi:lo] of a word as a number. -/
def fld (w : BitVec n) (hi lo : Nat) : Nat := (w.toNat >>> lo) % 2 ^ (hi - lo + 1)

/-- Bit i of a word. -/
def bit (w : BitVec n) (i : Nat) : Bool := w.getLsbD i

/-- The word with v at bits [hi:lo]. -/
def putFld (w : Word) (hi lo v : Nat) : Word :=
  let m : Word := BitVec.ofNat 32 ((2 ^ (hi - lo + 1) - 1) <<< lo)
  (w &&& ~~~ m) ||| (BitVec.ofNat 32 (v <<< lo) &&& m)

/-- A Boolean as bit i of a word. -/
def flag (b : Bool) (i : Nat) : Word := if b then BitVec.ofNat 32 (2 ^ i) else 0

/-- A number as a word, saturating at the field's largest value. -/
def satField (w v : Nat) : Nat := if v < 2 ^ w then v else 2 ^ w - 1

/-- A number as a 32-bit word, saturating. -/
def satWord (v : Nat) : Word := BitVec.ofNat 32 (satField 32 v)

/-- A field value with "0 acts as 1" (many register descriptions). -/
def atLeast1 (v : Nat) : Nat := if v = 0 then 1 else v

/-- Two's complement reading of the low w bits of a number. -/
def signed (w v : Nat) : Int := if v % 2 ^ w < 2 ^ (w - 1) then ((v % 2 ^ w : Nat) : Int) else ((v % 2 ^ w : Nat) : Int) - (2 ^ w : Nat)

/-- The low w bits of an integer. -/
def unsigned (w : Nat) (v : Int) : Nat := (v % (2 ^ w : Nat)).toNat

/-- Clamp an integer to a range. -/
def clampInt (v lo hi : Int) : Int := max lo (min hi v)

/-- Byte k of a bit vector (byte 0 on the low bits, R8). -/
def byteAt (b : BitVec n) (k : Nat) : Byte := BitVec.ofNat 8 (b.toNat >>> (8 * k))

/-- Word k (32 bits) of a bit vector, little-endian. -/
def wordAt (b : BitVec n) (k : Nat) : Word := BitVec.ofNat 32 (b.toNat >>> (32 * k))

/-- Bytes laid out little-endian as a number. -/
def leNat : List Byte → Nat
  | [] => 0
  | b :: t => b.toNat + 256 * leNat t

/-- The n low bytes of a number, little-endian. -/
def leBytes : Nat → Nat → List Byte
  | 0, _ => []
  | n + 1, v => BitVec.ofNat 8 v :: leBytes n (v / 256)

/-- Words laid out little-endian as a number. -/
def leWords : List Word → Nat
  | [] => 0
  | w :: t => w.toNat + 2 ^ 32 * leWords t

/-- Even parity of a byte: the bit that makes the nine bits hold an even number of ones (R29, R36). -/
def evenPar (b : Byte) : Bool := (List.range 8).foldl (fun p i => xor p (b.getLsbD i)) false

/-- Whether each byte of a value agrees with its parity bit. -/
def parOk (bytes : Nat) (v : BitVec n) (p : BitVec m) : Bool :=
  (List.range bytes).all (fun k => evenPar (byteAt v k) == p.getLsbD k)

/-- The even byte parity of a word (R43). -/
def wordPar (w : Word) : BitVec 4 :=
  BitVec.ofNat 4 ((List.range 4).foldl (fun a k => if evenPar (byteAt w k) then a + 2 ^ k else a) 0)

/-- RP_RPAR: the even parity of each byte of RP_RDATA (R43), so 0 where RP_RDATA is 0 (R44, R45). -/
def RpOut.par (o : RpOut) : Option (BitVec 4) := o.data.map wordPar

/-- The number of ones of a bit vector. -/
def onesIn : Nat → Nat → Nat
  | 0, _ => 0
  | n + 1, v => v % 2 + onesIn n (v / 2)

/-- The number of ones of a bit vector. -/
def ones (b : BitVec n) : Nat := onesIn n b.toNat

/-- ⌈log₂ n⌉ (0 for n at most 1). -/
def clog2 (n : Nat) : Nat := if n ≤ 1 then 0 else Nat.log2 (n - 1) + 1

/-- The positions of the set bits of a mask, ascending. -/
def setBits (w : BitVec n) : List Nat := (List.range n).filter (fun i => w.getLsbD i)

/-! ### Time (R111) -/

/-- Whole µs of GLB_TIME, as the 32-bit value that visibility times and deadlines use (R213). -/
def State.us (s : State) : Word := BitVec.ofNat 32 (s.time.toNat / 100)

/-- The signed 32-bit difference of two times (R213). -/
def usDiff (a b : Word) : Int := (a - b).toInt

/-- CLK_AON cycles since a cycle. -/
def State.since (s : State) (t : Nat) : Nat := s.time.toNat - t

/-! ### The build (R3, R16) -/

/-- Clusters of the build. -/
def State.nClusters (s : State) : Nat := s.build.lanes / 8
/-- Regions of the build. -/
def State.nRegions (s : State) : Nat := if s.build.lanes = 128 then 2 else 1
/-- Slabs of the build. -/
def State.nSlabs (s : State) : Nat := 512 * s.nClusters
/-- The lanes of the build, ascending. -/
def State.laneList (s : State) : List Nat := List.range s.build.lanes
/-- The clusters of the build, ascending. -/
def State.clusterList (s : State) : List Nat := List.range s.nClusters
/-- The regions of the build, ascending. -/
def State.regionList (s : State) : List Nat := List.range s.nRegions
/-- Host port that serves cluster c (R19). -/
def State.portOf (s : State) (c : Nat) : Nat := c * 4 / s.nClusters
/-- The seal lanes: global lane 64r of each present region (R85). -/
def State.sealLanes (s : State) : List Nat := s.regionList.map (· * 64)

/-! ### Groups of the state changed -/

/-- The state with its glb group changed. -/
def State.modGlb (s : State) (f : Glb → Glb) : State := { s with glb := f s.glb }
/-- The state with its pins group changed. -/
def State.modPins (s : State) (f : Pins → Pins) : State := { s with pins := f s.pins }
/-- The state with its fuse group changed. -/
def State.modFuse (s : State) (f : Fuse → Fuse) : State := { s with fuse := f s.fuse }
/-- The state with its blotter group changed. -/
def State.modBlotter (s : State) (f : Blotter → Blotter) : State := { s with blotter := f s.blotter }
/-- The state with its signal group changed. -/
def State.modSignal (s : State) (f : Signal → Signal) : State := { s with signal := f s.signal }
/-- The state with its keys group changed. -/
def State.modKeys (s : State) (f : Keys → Keys) : State := { s with keys := f s.keys }
/-- The state with its tenants group changed. -/
def State.modTenants (s : State) (f : Tenants → Tenants) : State := { s with tenants := f s.tenants }
/-- The state with its ledger group changed. -/
def State.modLedger (s : State) (f : Ledger → Ledger) : State := { s with ledger := f s.ledger }
/-- The state with its endgame group changed. -/
def State.modEndgame (s : State) (f : Endgame → Endgame) : State := { s with endgame := f s.endgame }
/-- The state with its scrub group changed. -/
def State.modScrub (s : State) (f : Scrub → Scrub) : State := { s with scrub := f s.scrub }
/-- The state with its cache group changed. -/
def State.modCache (s : State) (f : Cache → Cache) : State := { s with cache := f s.cache }

/-! ### Registers -/

/-- The value held at a register key. -/
def State.regAt (s : State) (k : Nat) : Word := Tab.getD regReset s.regs k
/-- The state with a register key holding v. -/
def State.setReg (s : State) (k : Nat) (v : Word) : State := { s with regs := Tab.setD regReset s.regs k v }
/-- A register key changed by a function. -/
def State.modReg (s : State) (k : Nat) (f : Word → Word) : State := s.setReg k (f (s.regAt k))
/-- Address of a register of a lane page. -/
def lnA (g o : Nat) : Nat := o + (0x20000 + 0x1000 * g)
/-- Address of a register of a cluster page. -/
def clA (c o : Nat) : Nat := o + (0x10000 + 0x1000 * c)
/-- Address of a register of a Mover channel page. -/
def mvA (ch o : Nat) : Nat := o + (0xA0000 + 0x1000 * ch)
/-- Address of a register of a decoder page. -/
def deA (e o : Nat) : Nat := o + (0xE0000 + 0x1000 * e)
/-- Address of a register of a region page. -/
def rgA (r o : Nat) : Nat := o + (0x120000 + 0x1000 * r)
/-- Address of a register of a doorbell page. -/
def dbA (t o : Nat) : Nat := o + (0x400000 + 0x1000 * t)
/-- Address of a word of a vector table entry. -/
def vtA (v o : Nat) : Nat := o + (0x140000 + v * 64)
/-- A register that counts events up to its field's end: one more at bits [hi:lo], saturating. -/
def State.countField (s : State) (k hi lo n : Nat) : State :=
  s.modReg k (fun w => putFld w hi lo (satField (hi - lo + 1) (fld w hi lo + n)))
/-- A whole-register counter, saturating at 0xFFFF_FFFF. -/
def State.count (s : State) (k : Nat) : State := s.modReg k (fun w => satWord (w.toNat + 1))
/-- A register with the bits of a mask set. -/
def State.orReg (s : State) (k : Nat) (m : Word) : State := s.modReg k (· ||| m)

/-! ### Replicated units -/

/-- Lane g. -/
def State.lane (s : State) (g : Nat) : Lane := Tab.getD (fun _ => Lane.init) s.lanes g
/-- Lane g changed. -/
def State.modLane (s : State) (g : Nat) (f : Lane → Lane) : State :=
  { s with lanes := Tab.setD (fun _ => Lane.init) s.lanes g (f (s.lane g)) }
/-- The LUN d (target × 4 + LUN) of a lane. -/
def Lane.lun (l : Lane) (d : Nat) : Lun := Tab.getD (fun _ => Lun.init) l.luns d
/-- A LUN of a lane changed. -/
def Lane.modLun (l : Lane) (d : Nat) (f : Lun → Lun) : Lane :=
  { l with luns := Tab.setD (fun _ => Lun.init) l.luns d (f (l.lun d)) }
/-- A LUN changed. -/
def State.modLun (s : State) (g d : Nat) (f : Lun → Lun) : State := s.modLane g (fun l => l.modLun d f)
/-- Cluster c. -/
def State.cluster (s : State) (c : Nat) : Cluster := Tab.getD (fun _ => Cluster.init) s.clusters c
/-- Cluster c changed. -/
def State.modCluster (s : State) (c : Nat) (f : Cluster → Cluster) : State :=
  { s with clusters := Tab.setD (fun _ => Cluster.init) s.clusters c (f (s.cluster c)) }
/-- Region r. -/
def State.region (s : State) (r : Nat) : Region := Tab.getD (fun _ => Region.init) s.regions r
/-- Region r changed. -/
def State.modRegion (s : State) (r : Nat) (f : Region → Region) : State :=
  { s with regions := Tab.setD (fun _ => Region.init) s.regions r (f (s.region r)) }
/-- Slab n. -/
def State.slab (s : State) (n : Nat) : Slab := Tab.getD (fun _ => Slab.init) s.slabs n
/-- Slab n changed. -/
def State.modSlab (s : State) (n : Nat) (f : Slab → Slab) : State :=
  { s with slabs := Tab.setD (fun _ => Slab.init) s.slabs n (f (s.slab n)) }
/-- Host port p. -/
def State.port (s : State) (p : Nat) : Port := Tab.getD (fun _ => Port.init) s.ports p
/-- Host port p changed. -/
def State.modPort (s : State) (p : Nat) (f : Port → Port) : State :=
  { s with ports := Tab.setD (fun _ => Port.init) s.ports p (f (s.port p)) }
/-- Mover channel ch. -/
def State.channel (s : State) (ch : Nat) : Channel := Tab.getD (fun _ => Channel.init) s.channels ch
/-- Mover channel ch changed. -/
def State.modChannel (s : State) (ch : Nat) (f : Channel → Channel) : State :=
  { s with channels := Tab.setD (fun _ => Channel.init) s.channels ch (f (s.channel ch)) }
/-- Vector v. -/
def State.vec (s : State) (v : Nat) : Vec := Tab.getD (fun _ => Vec.init) s.signal.vecs v
/-- Vector v changed. -/
def State.modVec (s : State) (v : Nat) (f : Vec → Vec) : State :=
  s.modSignal (fun g => { g with vecs := Tab.setD (fun _ => Vec.init) g.vecs v (f (s.vec v)) })
/-- A core: Quill c, or the Scribe for 16. -/
def State.core (s : State) (c : Nat) : Core := if c = 16 then s.scribe else (s.cluster c).quill
/-- A core changed. -/
def State.modCore (s : State) (c : Nat) (f : Core → Core) : State :=
  if c = 16 then { s with scribe := f s.scribe } else s.modCluster c (fun k => { k with quill := f k.quill })
/-- The key of command handle h of cluster c. -/
def hKey (c h : Nat) : Nat := 2048 * c + h
/-- The command that holds handle h of cluster c. -/
def State.cmd? (s : State) (c h : Nat) : Option Cmd := Tab.getD (fun _ => none) s.cmds (hKey c h)
/-- The state with handle h of cluster c holding a command, or free. -/
def State.setCmd (s : State) (c h : Nat) (x : Option Cmd) : State :=
  { s with cmds := Tab.setD (fun _ => none) s.cmds (hKey c h) x }
/-- A command changed, if the handle holds one. -/
def State.modCmd (s : State) (c h : Nat) (f : Cmd → Cmd) : State :=
  match s.cmd? c h with
  | some x => s.setCmd c h (some (f x))
  | none => s
/-- The commands of the block with their clusters and handles, ascending. -/
def State.cmdList (s : State) : List (Nat × Nat × Cmd) :=
  s.cmds.filterMap (fun e => e.2.map (fun x => (e.1 / 2048, e.1 % 2048, x)))
/-- The commands of cluster c. -/
def State.cmdsOf (s : State) (c : Nat) : List (Nat × Cmd) :=
  s.cmdList.filterMap (fun e => if e.1 = c then some e.2 else none)
/-- Free command handles of cluster c (R212). -/
def State.freeHandles (s : State) (c : Nat) : Nat := 2048 - (s.cmdsOf c).length
/-- A Gambit step of a command that is gone is still being sensed under handle h of cluster c: its data is to be released on arrival, so the
handle is not given out yet (R264). -/
def State.stepGone (s : State) (c h : Nat) : Bool :=
  (List.range 8).any (fun l => (s.lane (8 * c + l)).gambitRun.any (fun r => r.gone && decide (r.handle = h)))
/-- The lowest free handle of cluster c. -/
def State.lowHandle (s : State) (c : Nat) : Option Nat :=
  (List.range 2048).find? (fun h => (s.cmd? c h).isNone && !s.stepGone c h)

/-! ### Modes and pages -/

/-- The code of a mode (R78). -/
def Mode.code : Mode → Nat
  | .reset => 0 | .opening => 1 | .service => 2 | .thrift => 3 | .endgame => 4 | .fallback => 5
/-- The code of a phase (R85). -/
def Phase.code : Phase → Nat
  | .none => 0 | .charCheck => 1 | .awaitImages => 2 | .measure => 3 | .start => 4 | .train => 5 | .seal => 6 | .defect => 7
/-- SERVICE or THRIFT. -/
def State.serving (s : State) : Bool := s.glb.mode = .service ∨ s.glb.mode = .thrift
/-- SERVICE, THRIFT or FALLBACK: commands run. -/
def State.running (s : State) : Bool := s.serving ∨ s.glb.mode = .fallback
/-- The block answers as the spec says: mission operation, not in scan (R62), and out of both resets' low state. -/
def State.alive (s : State) : Bool := s.pins.scan = .mission ∧ ¬ s.pins.pwrLow
/-- The central domain is out of reset and awake: a command of an engine can act. A warm reset that waits for the end of
ENDGAME does not act yet (R73). -/
def State.awake (s : State) : Bool :=
  s.alive ∧ (s.pins.warmLow → s.glb.warmWait) ∧ s.glb.mode ≠ .reset ∧ ¬ s.signal.blockDozed
/-- A command of an engine can act on commands in flight: SERVICE, THRIFT or FALLBACK, and awake. -/
def State.working (s : State) : Bool := s.awake ∧ s.running
/-- Strokes can run and LUNs be polled: also in OPENING, where a Quill may commit ROM strokes (R163, R164), and in ENDGAME (R410,
R412). -/
def State.laneWork (s : State) : Bool := s.awake ∧ (s.running ∨ s.glb.mode = .endgame ∨ s.glb.mode = .opening)
/-- A cluster that the build has and that is powered: released by START, or cluster 0 in FALLBACK (R85, R93), not dozed. -/
def State.clusterUp (s : State) (c : Nat) : Bool :=
  c < s.nClusters ∧ ¬ (s.cluster c).dozed ∧ s.glb.mode ≠ .reset ∧ (s.glb.mode = .fallback → c = 0)
/-- The page of a byte address is absent from the build (R5, R97). -/
def State.absent (s : State) (a : Nat) : Bool :=
  match pageKind a with
  | .cluster c => decide (s.nClusters ≤ c)
  | .lane g => decide (s.build.lanes ≤ g)
  | .decoder e => decide (if e < 32 then s.build.lanes / 4 ≤ e else 32 + 8 * s.nRegions ≤ e)
  | .region r => decide (s.nRegions ≤ r)
  | .reserved => true
  | _ => false
/-- The page of a byte address belongs to a dozed cluster or SDE region (R77). Of an SDE region these are the pages of its
SDEs; its page RG, which the spec does not place in the region's domain, answers normally (log entry 100). -/
def State.dozedPage (s : State) (a : Nat) : Bool :=
  match pageKind a with
  | .cluster c => (s.cluster c).dozed
  | .lane g => (s.cluster (g / 8)).dozed
  | .decoder e => if e < 32 then (s.cluster (e / 2)).dozed else (s.region ((e - 32) / 8)).dozed
  | _ => false
/-- Global lane g is trained and in service: present, enabled by OPENING and absent from GLB_LANE_FAIL (R86, R121). -/
def State.laneFailed (s : State) (g : Nat) : Bool := bit (s.regAt (Reg.GLB_LANE_FAIL + 4 * (g / 32))) (g % 32)
/-- Global lane g is present, trained and not failed. -/
def State.laneUp (s : State) (g : Nat) : Bool :=
  g < s.build.lanes ∧ (s.lane g).enabled ∧ ¬ s.laneFailed g ∧ s.clusterUp (g / 8)

/-! ### How a command ends -/

/-- The outcome of a command whose effect is the given state. -/
abbrev Out := Host.Outcome State Fault Refusal

/-- A command that changes nothing because the condition that the spec gives it does not hold (log entry 1). -/
def idle (s : State) : Out := .next s

end Sys2Proof.Machine
end

