-- ==== Sys2Proof/Machine/Access.lean ====
section
/-! DEFINITION. The test access port (R61): the six instructions over the boundary register of the pad slices. It
reaches nothing inside the block; its pins are not sampled in scan (R62). -/
namespace Sys2Proof.Machine
open Sys2Proof

/-- The instruction that a code of the instruction register selects: BYPASS for every code that R61 does not list. -/
def tapInstr (code : BitVec 4) : TapIr :=
  match code.toNat with
  | 0 => .extest | 1 => .idcode | 2 => .sample | 4 => .clamp | 5 => .highz | _ => .bypass
/-- The access port loads an instruction: what it captures, holds in the update stage, and drives the pins from. -/
def State.tapLoad (s : State) (ir : BitVec 4) (captured update : List Bool) (drive : Option Bool) (dr : Word) : State :=
  { s with tap := { ir := ir, update := update, captured := captured, drive := drive, dr := dr } }

/-- EXTEST: the boundary register samples the pins and drives them from its update stage. -/
def execExtest (pins shifted : List Bool) (s : State) : Out :=
  if s.pins.scan = .mission then .next (s.tapLoad 0b0000#4 pins shifted (some true) s.tap.dr) else idle s
/-- IDCODE: the register TAP_IDCODE is selected; the pins are the block's. -/
def execIdcode (s : State) : Out :=
  if s.pins.scan = .mission then .next (s.tapLoad 0b0001#4 s.tap.captured s.tap.update none s.build.idcode) else idle s
/-- SAMPLE/PRELOAD: the pins are sampled and the update stage is loaded; the pins stay the block's. -/
def execSamplePreload (pins shifted : List Bool) (s : State) : Out :=
  if s.pins.scan = .mission then .next (s.tapLoad 0b0010#4 pins shifted none s.tap.dr) else idle s
/-- CLAMP: the pins are held from the update stage with the bypass register selected. -/
def execClamp (s : State) : Out :=
  if s.pins.scan = .mission then .next (s.tapLoad 0b0100#4 s.tap.captured s.tap.update (some true) 0) else idle s
/-- HIGHZ: the pins are in high impedance with the bypass register selected. -/
def execHighz (s : State) : Out :=
  if s.pins.scan = .mission then .next (s.tapLoad 0b0101#4 s.tap.captured s.tap.update (some false) 0) else idle s
/-- BYPASS, or any code that R61 does not list: the bypass register is selected; the pins are the block's. -/
def execBypass (s : State) (code : BitVec 4 := 0b1111#4) : Out :=
  if s.pins.scan = .mission ∧ tapInstr code = .bypass then .next (s.tapLoad code s.tap.captured s.tap.update none 0) else idle s

end Sys2Proof.Machine
end

