-- ==== Sys2Proof/Machine/Flags.lean ====
section
/-! DEFINITION. Page interrupts and the Manager side of the Signal Unit (R109, R110, R368 to R373), and the Blotter
(R421 to R427). The tenant side of the Signal Unit is in Machine/Vectors.lean. -/
namespace Sys2Proof.Machine

/-! ### Page interrupts (R110) -/

/-- IRQ_RAW of the page at a base address: the latched bits, CAPT live from ERR_CAPT0.VALID, and on the GLB page
HOLDUP_LOW live from HOLDUP_OK (R110, R417). -/
def State.irqRaw (s : State) (page : Nat) : Word :=
  let w := (s.regAt (page + 0x10) &&& 0xFFFFFFFE#32) ||| flag (bit (s.regAt (page + 0x20)) 31) 0
  if page = 0 then (w &&& 0xFFFFFFFD#32) ||| flag (!s.pins.holdup) 1 else w
/-- IRQ_PEND of a page: IRQ_RAW AND IRQ_EN (R110). -/
def State.irqPend (s : State) (page : Nat) : Word := s.irqRaw page &&& s.regAt (page + 0x14)
/-- The level that a page presents to the Signal Unit (R110). -/
def State.pageLevel (s : State) (page : Nat) : Bool := s.irqPend page ≠ 0
/-- Set a latched event bit of a page's IRQ_RAW. -/
def State.raise (s : State) (page b : Nat) : State := s.orReg (page + 0x10) (flag true b)

/-! ### Manager sources (R368, R370, R371) -/

/-- Whether a Manager source is high: the level of its page or pages; 0 for pulse, reserved and absent sources (R368). -/
def State.source (s : State) (n : Nat) : Bool :=
  if n < 16 then s.pageLevel (0x1000 * n)
  else if n < 32 then
    let c := n - 16
    decide (c < s.nClusters) && (s.pageLevel (clA c 0) || (List.range 8).any (fun l => s.pageLevel (lnA (8 * c + l) 0))
      || s.pageLevel (deA (2 * c) 0) || s.pageLevel (deA (2 * c + 1) 0))
  else if n < 34 then
    let r := n - 32
    decide (r < s.nRegions) && (s.pageLevel (rgA r 0) || (List.range 8).any (fun k => s.pageLevel (deA (32 + 8 * r + k) 0)))
  else if n < 42 then (List.range 8).any (fun k => s.pageLevel (mvA (8 * (n - 34) + k) 0))
  else false
/-- The sensing mode of a source: 0 LEVEL, 1 RISE, 2 FALL, 3 BOTH (R371). -/
def State.sense (s : State) (n : Nat) : Nat := fld (s.regAt (Reg.SG_SENSE + 4 * (n / 16))) (2 * (n % 16) + 1) (2 * (n % 16))
/-- Whether a source belongs to the fast class; sources 50 and 53 always do (R370). -/
def State.fast (s : State) (n : Nat) : Bool := n = 50 ∨ n = 53 ∨ bit (s.regAt (Reg.SG_CLASS + 4 * (n / 32))) (n % 32)
/-- The pending bit of a source: live in LEVEL mode, latched otherwise (R371). -/
def State.pendBit (s : State) (n : Nat) : Bool := if s.sense n = 0 then s.source n else bit s.signal.latched n
/-- An IRQ output: undefined in and after scan (R62), the level held at the entry while the block dozes (R52), else live. -/
def State.irqPin (s : State) (n : Nat) (held live : Bool) : Bool :=
  if s.pins.scan ≠ .mission then bit (Config.scanOut s.freeCtr) n else if s.signal.blockDozed then held else live
/-- IRQ_MGR_N is active: an enabled normal-class source is pending (R52, R370). -/
def State.irqN (s : State) : Bool :=
  s.irqPin 0 s.signal.heldN ((List.range 54).any (fun n => !s.fast n && s.pendBit n && bit (s.regAt (Reg.SG_EN + 4 * (n / 32))) (n % 32)))
/-- IRQ_MGR_F is active: an enabled fast-class source is pending (R52, R370). -/
def State.irqF (s : State) : Bool :=
  s.irqPin 1 s.signal.heldF ((List.range 54).any (fun n => s.fast n && s.pendBit n && bit (s.regAt (Reg.SG_FEN + 4 * (n / 32))) (n % 32)))
/-- Set latched bits of sources; while the central domain is gated the edge catchers hold them (R371, R381). -/
def State.latch (s : State) (m : BitVec 128) : State :=
  s.modSignal (fun g => if g.blockDozed then { g with caught := g.caught ||| m } else { g with latched := g.latched ||| m })
/-- A pulse of a source: both its edges fall, so every edge mode latches it; LEVEL keeps nothing; a pulse while the
Signal Unit is held in reset is not kept (R79, R368, R371). -/
def State.pulse (s : State) (n : Nat) : State :=
  if s.glb.mode = .reset ∨ s.sense n = 0 then s else s.latch (BitVec.ofNat 128 (2 ^ n))
/-- Whether a level source shows an edge in its sensed direction between two states (R371). -/
def edgeOf (old new : State) (n : Nat) : Bool :=
  let a := old.source n
  let b := new.source n
  match new.sense n with
  | 1 => !a && b
  | 2 => a && !b
  | 3 => a != b
  | _ => false
/-- The level sources that show an edge between two states, as a mask. -/
def edges (old new : State) : BitVec 128 :=
  (List.range 42).foldl (fun m n => if edgeOf old new n then m ||| BitVec.ofNat 128 (2 ^ n) else m) 0
/-- The cycle of a command's effect ends: no page captures in it and no record joins it any more (R109, R421), and nothing of it is still to
be looked up. -/
def State.rest (s : State) : State :=
  (s.modBlotter (fun b => { b with fresh := [], cycle := 0 })).modCache (fun c => { c with wanted := none })
/-- The state after a command's effect, with the edges that the effect makes on the level sources latched (R371). -/
def settle (old new : State) : State :=
  if new.glb.mode = .reset ∨ (old.regs = new.regs ∧ old.pins.holdup = new.pins.holdup) then new.rest
  else new.rest.latch (edges old new)
/-- End a command: its effect, settled. -/
def done (old new : State) : Out := .next (settle old new)

/-! ### The Blotter (R421 to R427) -/

/-- The classes that cannot be suppressed (R426). -/
def classFixed (c : Nat) : Bool := c = 1 ∨ c = 2 ∨ c = 3
/-- The configuration of a class (BL_CLS_CFG, R427). -/
def State.classCfg (s : State) (c : Nat) : Word := s.regAt (winKey Reg.BL_CLS_CFG c)
/-- An event of a class within its escalation window: whether it is escalated, and the window kept (R427). -/
def State.escalate (s : State) (c : Nat) : Bool × Tab (Nat × Nat) :=
  let need := fld (s.classCfg c) 15 8
  if need = 0 then (false, s.blotter.windows)
  else
    let len := 100000 * (atLeast1 (fld (s.regAt Reg.BL_CFG) 15 0))
    let w := Tab.getD (fun _ => (0, 0)) s.blotter.windows c
    let w' := if w.2 ≠ 0 ∧ s.time.toNat < w.1 + len then (w.1, w.2 + 1) else (s.time.toNat, 1)
    (decide (need ≤ w'.2), Tab.setD (fun _ => (0, 0)) s.blotter.windows c w')
/-- A record's words 0 to 9 (R422). -/
def record (seq : Word) (cls sev : Nat) (esc ret : Bool) (inst : Option Nat) (src : Word) (time : BitVec 64)
    (d : List Word) : List Word :=
  let w1 := BitVec.ofNat 32 (cls + 256 * sev) ||| flag esc 10 ||| flag ret 11
    ||| (match inst with | some i => BitVec.ofNat 32 ((i % 512) <<< 16) ||| flag true 25 | none => 0)
  [seq, w1, src, time.setWidth 32, (time >>> 32).setWidth 32] ++ (d ++ [0, 0, 0, 0, 0]).take 5
/-- PAGE_ID of the page at a base address (R97, R99); 0 on an absent page. -/
def State.pageId (s : State) (a : Nat) : Word :=
  let id (t i : Nat) : Word := BitVec.ofNat 32 (0xA7000000 + 0x10000 * t + i)
  if s.absent a then 0
  else match pageKind a with
    | .single n => id (n + 1) 0
    | .cluster c => id 0x11 c
    | .lane g => id 0x12 g
    | .channel ch => id 0x13 ch
    | .decoder e => id (if e < 32 then 0x14 else 0x15) e
    | .region r => id 0x16 r
    | .doorbell t => id 0x17 t
    | _ => 0
/-- The first error of a page is captured; a later one sets OVF. Of two errors of one cycle, which is one command's effect
(log entry 48), the one with the lower CLASS is captured (R109). -/
def State.capture (s : State) (page cls : Nat) (seq : Word) (d : List Word) : State :=
  let c0 := s.regAt (page + 0x20)
  if bit c0 31 ∧ ¬ (s.blotter.fresh.contains page ∧ cls < fld c0 23 16) then s.setReg (page + 0x20) (c0 ||| flag true 30)
  else
    let s0 := s.modBlotter (fun b => { b with fresh := page :: b.fresh })
    let s1 := s0.setReg (page + 0x20) (flag true 31 ||| flag (bit c0 31) 30 ||| BitVec.ofNat 32 (cls <<< 16) ||| (seq &&& 0xFFFF#32))
    let ws := [s.time.setWidth 32, (s.time >>> 32).setWidth 32] ++ (d ++ [0, 0, 0, 0, 0]).take 5
    (List.range 7).foldl (fun t i => t.setReg (page + 0x24 + 4 * i) (ws.getD i 0)) s1
/-- A record entered into the retained log (R425): slots in turn; an overwritten one counts in RET_LOST. -/
def State.retain (s : State) (r : List Word) : State :=
  let b := s.blotter
  let lost := (Tab.find? b.retained b.retNext).isSome
  let s1 := s.modBlotter (fun b => { b with retained := Tab.put b.retained b.retNext r, retNext := (b.retNext + 1) % 64 })
  if lost then s1.countField Reg.BL_STAT 15 8 1 else s1.countField Reg.BL_STAT 6 0 1
/-- One record comes after another of the same cycle: by CLASS, then by the address of its source page (R421). -/
def recordAfter (a b : List Word) : Bool :=
  decide (fld (b.getD 1 0) 7 0 < fld (a.getD 1 0) 7 0 ∨ (fld (b.getD 1 0) 7 0 = fld (a.getD 1 0) 7 0 ∧ (b.getD 2 0).toNat < (a.getD 2 0).toNat))
/-- How many of the records that the cycle has queued come after a record; they stand in order at the queue's end. -/
def Blotter.later (b : Blotter) (r : List Word) : Nat :=
  ((b.queue.drop (b.queue.length - b.cycle)).filter (fun x => recordAfter x r)).length
/-- A record with the next number. -/
def nextNumber (r : List Word) : List Word := r.set 0 (r.getD 0 0 + 1)
/-- The captures of the cycle whose numbers lie among the last n before seq take the next number, because a record of the same cycle
comes before them (R109, R421). -/
def State.shiftCaptures (s : State) (seq : Word) (n : Nat) : State :=
  if n = 0 then s
  else s.blotter.fresh.foldl (fun t p =>
    t.modReg (p + 0x20) (fun w =>
      if fld (seq - 1#32 - w) 15 0 < n then putFld w 15 0 (fld (w + 1#32) 15 0) else w)) s
/-- A record enters the Blotter's queue of 64, or is dropped when it is full; either way its severity bit is set
(R423, R427). -/
def State.enqueue (s : State) (sev : Nat) (r : List Word) : State :=
  let s1 := if sev = 0 then s else s.raise 0x6000 sev
  if 64 ≤ s1.blotter.queue.length then (s1.countField Reg.BL_STAT 31 16 1).raise 0x6000 4
  else s1.modBlotter (fun b =>
    let n := b.queue.length - b.later r
    { b with queue := b.queue.take n ++ [r] ++ (b.queue.drop n).map nextNumber, cycle := b.cycle + 1 })
/-- One error event of a class, raised by the unit whose page is given, with the instance concerned and its details:
number, record, capture, severity bit and logs (R421 to R427, R109). What one command does is one cycle, whose events are
numbered in ascending CLASS order, then by source page (log entry 48). -/
def State.blot (s : State) (page cls : Nat) (inst : Option Nat) (d : List Word) : State :=
  let k := winKey Reg.BL_CLS_CFG cls
  let s0 := s.countField k 31 16 1
  let cfg := s.classCfg cls
  if bit cfg 4 ∧ ¬ classFixed cls then s0
  else
    let esc := s0.escalate cls
    let sev0 := if classFixed cls then classSev cls else fld cfg 1 0
    let sev := if esc.1 then min 3 (sev0 + 1) else sev0
    let ret := decide (2 ≤ sev) || bit cfg 3
    let r0 := record 0 cls sev esc.1 ret inst (s0.pageId page) s0.time d
    let n := s0.blotter.later r0
    let seq := s0.blotter.seq - BitVec.ofNat 32 n
    let s1 := (s0.shiftCaptures s0.blotter.seq n).modBlotter (fun b => { b with seq := b.seq + 1, windows := esc.2 })
    (s1.capture page cls seq d).enqueue sev (r0.set 0 seq)
/-- One queued record enters the logs (R423 to R425): the main log's slot n % 1,024, and the retained log when RET. -/
def State.blotterTake (s : State) : State :=
  match s.blotter.queue with
  | [] => s
  | r :: q =>
    let s1 := s.modBlotter (fun b => { b with queue := q, main := Tab.put b.main ((r.getD 0 0).toNat % 1024) r })
    if bit (r.getD 1 0) 11 then s1.retain r else s1
/-- n queued records enter the logs. -/
def State.blotterDrain : Nat → State → State
  | 0, s => s
  | n + 1, s => State.blotterDrain n s.blotterTake

end Sys2Proof.Machine
end

