-- ==== Sys2Proof/Machine/Draw.lean ====
section
/-! DEFINITION. The generator of R232 and the perturbation slots that draw on it (R433 to R435): what an opportunity at a
point fires. -/
namespace Sys2Proof.Machine

/-- One step of the generator of R232: its output bit and the next state. -/
def lfsrStep (w : Word) : Bool × Word :=
  let n := w >>> 1
  if w.getLsbD 0 then (true, n ^^^ 0x80200003#32) else (false, n)
/-- n steps of the generator, outputs discarded. -/
def lfsrSkip : Nat → Word → Word
  | 0, w => w
  | n + 1, w => lfsrSkip n (lfsrStep w).2
/-- A generator seeded with w: 64 steps of warm-up (R232). -/
def lfsrSeed (w : Word) : Word := lfsrSkip 64 w
/-- n outputs of the generator as a number, first output on bit 0, and the state after them. -/
def lfsrBits : Nat → Word → Nat × Word
  | 0, w => (0, w)
  | n + 1, w =>
    let r := lfsrStep w
    let t := lfsrBits n r.2
    (2 * t.1 + (if r.1 then 1 else 0), t.2)

/-- The generator of a slot when EN rises or PB_SEED is written: seeded with PB_SEED XOR the register address of the
slot's PX_CTL, a seed of 0 acting as 0xFFFF_FFFF (R435). -/
def State.pxSeed (s : State) (addr : Nat) : Word :=
  let w := s.regAt Reg.PB_SEED ^^^ BitVec.ofNat 32 addr
  lfsrSeed (if w = 0 then 0xFFFFFFFF#32 else w)

/-- Rows of the table of R435: a page kind's points and the kinds that each accepts. -/
def pxRow (k : PageKind) (point kind : Nat) : Bool :=
  match k with
  | .single 15 =>
    if point < 4 then kind = 3 ∨ kind = 8 ∨ kind = 10
    else if point < 8 then kind = 1 ∨ kind = 2 ∨ kind = 10
    else if point = 8 then kind = 1 ∨ kind = 2
    else point = 9 ∧ (kind = 9 ∨ kind = 11 ∨ kind = 13)
  | .lane _ =>
    if point = 0 then kind = 1 ∨ kind = 2
    else if point = 1 then kind = 1 ∨ kind = 2 ∨ kind = 12
    else point = 2 ∧ (kind = 8 ∨ kind = 9)
  | .cluster _ => point = 0 ∧ (kind = 3 ∨ kind = 8 ∨ kind = 9)
  | .channel _ => point = 0 ∧ (kind = 1 ∨ kind = 2 ∨ kind = 11)
  | .decoder _ => point = 0 ∧ kind = 8
  | .single 9 => point = 0 ∧ (kind = 1 ∨ kind = 2 ∨ kind = 9)
  | .single 10 => point = 0 ∧ (kind = 8 ∨ kind = 9)
  | .single 5 => point = 0 ∧ (kind = 1 ∨ kind = 2)
  | .single 3 => point = 0 ∧ kind = 11
  | _ => false

/-- The opportunity of one slot of a page at a point: whether it fires, with its kind and argument (R435). -/
def State.pxSlot (s : State) (page point k : Nat) : State × Option (Nat × Word) :=
  let a := page + 0xF00 + 8 * k
  let c := s.regAt a
  if bit c 0 ∧ fld c 12 8 = point then
    let g := Tab.getD (fun _ => 0) s.draws a
    let r := lfsrBits 16 g
    let s1 := { s with draws := Tab.setD (fun _ => 0) s.draws a r.2 }
    if r.1 ≤ fld c 31 16 then
      let s2 := if bit c 1 then s1.setReg a (c &&& 0xFFFFFFFE#32) else s1
      let kind := fld c 7 4
      let s3 := if 8 ≤ kind then
          s2.blot page 0x2C none [BitVec.ofNat 32 page, BitVec.ofNat 32 k, BitVec.ofNat 32 kind]
        else s2
      (s3, some (kind, s.regAt (a + 4)))
    else (s1, none)
  else (s, none)
/-- An opportunity at a point of a page: the slots in ascending order, each drawing on its own (R435). -/
def State.opportunity (s : State) (page point : Nat) : State × List (Nat × Word) :=
  (List.range 4).foldl (fun acc k =>
    let r := acc.1.pxSlot page point k
    (r.1, match r.2 with | some f => acc.2 ++ [f] | none => acc.2)) (s, [])
/-- A slot of a page is armed at a point. -/
def State.pxArmed (s : State) (page point : Nat) : Bool :=
  (List.range 4).any (fun k => let c := s.regAt (page + 0xF00 + 8 * k); bit c 0 && decide (fld c 12 8 = point))
/-- The opportunities of n words at a point, in order: their firings, each with its word's number (R435). -/
def State.opportunities (s : State) (page point n : Nat) : State × List (Nat × Nat × Word) :=
  if s.pxArmed page point then
    (List.range n).foldl (fun a i =>
      let r := a.1.opportunity page point
      (r.1, a.2 ++ r.2.map (fun f => (i, f)))) (s, [])
  else (s, [])
/-- The words of some opportunities at which a kind has fired. -/
def firedAt (l : List (Nat × Nat × Word)) (kind : Nat) : List Nat := (l.filter (fun f => f.2.1 == kind)).map Prod.fst
/-- Every argument with which a kind has fired in an opportunity. -/
def firedAll (l : List (Nat × Word)) (kind : Nat) : List Word := (l.filter (fun f => f.1 == kind)).map Prod.snd
/-- Whether a firing of a kind is among those of an opportunity. -/
def fired (l : List (Nat × Word)) (kind : Nat) : Option Word := (l.find? (fun f => f.1 == kind)).map Prod.snd

/-- Every slot of every page returns to its reset value (R433, R434). -/
def State.pxResetAll (s : State) : State :=
  { s with regs := s.regs.filter (fun e => ¬ (hasPerturb (pageKind e.1) ∧ 0xF00 ≤ e.1 % 0x1000 ∧ e.1 % 0x1000 < 0xF20)),
           draws := [] }
/-- The slots of one page return to their reset value. -/
def State.pxResetPage (s : State) (page : Nat) : State :=
  { s with regs := s.regs.filter (fun e => ¬ (page + 0xF00 ≤ e.1 ∧ e.1 < page + 0xF20)),
           draws := s.draws.filter (fun e => ¬ (page + 0xF00 ≤ e.1 ∧ e.1 < page + 0xF20)) }
/-- Every slot that holds a fault kind, 8 or above, returns to its reset value (R434). -/
def State.pxDropFaults (s : State) : State :=
  let isCtl (a : Nat) : Bool := hasPerturb (pageKind a) && decide (0xF00 ≤ a % 0x1000 ∧ a % 0x1000 < 0xF20 ∧ a % 8 = 0)
  let bad := (s.regs.filter (fun e => isCtl e.1 && decide (8 ≤ fld e.2 7 4))).map Prod.fst
  { s with regs := s.regs.filter (fun e => !(bad.contains e.1 || (decide (4 ≤ e.1) && bad.contains (e.1 - 4)))),
           draws := s.draws.filter (fun e => !bad.contains e.1) }
/-- The area closes: STATE CLOSED and every slot reset, in the same cycle (R433). -/
def State.pbClose (s : State) : State := (s.modGlb (fun g => { g with pbOpen := false })).pxResetAll

/-! ### The expert unlock (R106, R107) -/

/-- The unlock becomes CLOSED: PAGE_CTL.EXPERT clears on every page, and the perturbation area closes (R107, R433). -/
def State.expertShut (s : State) : State :=
  let s1 := s.modGlb (fun g => { g with unlock := .closed })
  { s1 with regs := s1.regs.filter (fun e => ¬ (e.1 % 0x1000 = 0x008 ∧ ¬ (0x140000 ≤ e.1 ∧ e.1 < 0x180000))) }.pbClose
/-- The events of R106 that close an armed or open unlock: a change of owner, ENDGAME or RESET, and level 2. -/
def State.expertDrop (s : State) : State := if s.glb.unlock = .closed then s else s.expertShut
/-- The expert level is active on the page at a base address (R105). -/
def State.expertActive (s : State) (page : Nat) : Bool := bit (s.regAt (page + 8)) 0 && s.glb.unlock = .open

/-! ### Modes (R79) -/

/-- The block moves to a mode: MODE and PREV_MODE, the source MODE_CHANGE, and the unlock closed by ENDGAME or RESET
(R79, R106). The pulse comes after the mode is set, so a move into RESET loses it. -/
def State.toMode (s : State) (m : Mode) : State :=
  let s1 := s.modGlb (fun g => { g with mode := m, prevMode := g.mode })
  let s2 := if m = .endgame ∨ m = .reset then s1.expertDrop else s1
  s2.pulse 48

end Sys2Proof.Machine
end

