-- ==== Sys2Proof/Machine/Vectors.lean ====
section
/-! DEFINITION. Requests on the host ports (R29 to R35), the tenant vectors (R374 to R380, R441), and the wake of the
block (R76, R381). -/
namespace Sys2Proof.Machine

/-! ### Requests on a host port -/

/-- The lowest free tag of a space: neither outstanding nor in quarantine (R33, R39). -/
def Port.freeTag (q : Port) (wr : Bool) : Option Nat :=
  (List.range 512).find? (fun t =>
    if wr then (Tab.getD (fun _ => none) q.writes t).isNone && !Tab.getD (fun _ => false) q.qWrites t
    else (Tab.getD (fun _ => none) q.reads t).isNone && decide (Tab.getD (fun _ => 0) q.qReads t = 0))
/-- The place of an issuer in the rotation of a port's request channel: the Mover's channels, the notify path, the Ring Fetcher and
the Context Cache (R295). -/
def Issuer.turn : Issuer → Nat
  | .mover ch _ _ _ | .manager ch | .descriptor ch => ch
  | .completion _ _ _ | .vector _ | .egEntry | .egHeader => 64
  | .fetch _ => 65
  | .ccFill _ | .ccAround _ | .ccWriteback _ => 66
/-- How far an issuer's turn is after the last grant. -/
def Port.ahead (q : Port) (r : HpReq) : Nat := (r.issuer.turn + 66 - q.turn) % 67
/-- The request that the channel is granted to next, with its tag: each issuer's oldest, in rotation, where its tag space has a free
tag (R33, R295). -/
def Port.grant (q : Port) : Option (HpReq × Nat) :=
  q.queue.foldl (fun a r =>
    match q.freeTag r.wr with
    | none => a
    | some t =>
      match a with
      | some b => if q.ahead r < q.ahead b.1 then some (r, t) else a
      | none => some (r, t)) none
/-- It is the turn of the notify path, which waits with a completion: no request that could be presented comes before it (R295, R302). -/
def Port.notifyTurn (q : Port) : Bool :=
  (q.freeTag true).isSome && (match q.grant with
    | some (r, _) => decide ((64 + 66 - q.turn) % 67 < q.ahead r)
    | none => true)
/-- The channel presents a request, unless it presents one already: that one is held, with its tag, until its transfer (R30). It stays
free for a completion whose turn it is. -/
def Port.present (q : Port) : Port :=
  if q.rqTag.isSome ∨ q.ask ∧ q.notifyTurn then q
  else match q.grant with
  | some (r, t) => { q with queue := r :: q.queue.erase r, rqTag := some t, turn := r.issuer.turn }
  | none => q
/-- A completion can be presented now. -/
def Port.notifyFree (q : Port) : Bool := q.rqTag.isNone && q.notifyTurn
/-- The notify path presents a completion on a free channel (R302). -/
def Port.notify (q : Port) (r : HpReq) : Port :=
  match q.freeTag true with
  | some t => { q with queue := r :: q.queue, rqTag := some t, turn := 64, ask := false }
  | none => q
/-- How many requests at the head of a port's queue are presented: one or none. -/
def Port.shown (q : Port) : Nat := if q.rqTag.isSome then 1 else 0
/-- The requests of a port that answer a predicate and are not presented leave it. -/
def Port.withdraw (q : Port) (f : HpReq → Bool) : Port :=
  { q with queue := q.queue.take q.shown ++ (q.queue.drop q.shown).filter (fun r => !f r) }
/-- A request enters a port's queue, and is presented where the request channel is free. -/
def State.hpPush (s : State) (p : Nat) (r : HpReq) : State :=
  if s.glb.mode = .endgame ∧ r.issuer ≠ .egEntry ∧ r.issuer ≠ .egHeader then s
  else s.modPort p (fun q => { q with queue := q.queue ++ [r] }.present)
/-- A write beat of some data under its strobes, with the parity of its bytes (R31, R35, R300). -/
def wbeat (data : Beat) (strb : BitVec 128) : WBeat :=
  { data := data, strb := strb,
    par := BitVec.ofNat 128 ((List.range 128).foldl (fun a k => if evenPar (byteAt data k) then a + 2 ^ k else a) 0) }
/-- One beat with some bytes at an offset: zero on every byte whose strobe is 0 (R31, R35). -/
def beatOf (off : Nat) (bytes : List Byte) : WBeat :=
  wbeat (BitVec.ofNat 1024 (leNat bytes <<< (8 * off))) (BitVec.ofNat 128 ((2 ^ bytes.length - 1) <<< off))
/-- The 128-byte-aligned address of a byte address. -/
def beatAddr (a : Nat) : BitVec 52 := BitVec.ofNat 52 (a - a % 128)
/-- A one-beat write of some bytes at a byte address that does not cross the beat's end. -/
def oneBeat (a : Nat) (bytes : List Byte) (cls : Nat) (i : Issuer) : HpReq :=
  { wr := true, addr := beatAddr a, len := 1, cls := cls, issuer := i, beats := [beatOf (a % 128) bytes], dest := 0,
    off := 0, count := bytes.length }
/-- The number that stands for the write of a CPL ring slot, by which vectors await its status. -/
def slotKey (cpl slot : Nat) : Nat := 65536 * cpl + slot

/-! ### Tenant vectors -/

/-- SG_VT_CTL of vector v. -/
def State.vecCtl (s : State) (v : Nat) : Word := s.regAt (vtA v 0)
/-- The vector counts raises: EN is 1 and no word is in parity error (R376, R380). -/
def State.vecOn (s : State) (v : Nat) : Bool := bit (s.vecCtl v) 0 && (s.vec v).bad.isEmpty
/-- The host address of the vector's message. -/
def State.vecAddr (s : State) (v : Nat) : Nat := (s.regAt (vtA v 4)).toNat + 2 ^ 32 * (s.regAt (vtA v 8)).toNat
/-- ADDR keeps the alignment rule of R375. -/
def State.vecAligned (s : State) (v : Nat) : Bool :=
  let a := s.vecAddr v
  decide (a % (if bit (s.vecCtl v) 2 then 8 else 4) = 0 ∧ a < 2 ^ 52)
/-- The message of a vector (R377). -/
def State.vecBytes (s : State) (v : Nat) : List Byte :=
  let lo := leBytes 4 (s.regAt (vtA v 12)).toNat
  if bit (s.vecCtl v) 2 then lo ++ leBytes 4 (s.regAt (vtA v 16)).toNat else lo
/-- The open window closes without delivery. -/
def State.vecShut (s : State) (v : Nat) : State := s.modVec v (fun x => { x with opened := none, count := 0, waits := [], closing := none })
/-- Every message write of the vector that is not yet presented is withdrawn, one that has joined a port's queue too (R441). -/
def State.vecWithdraw (s : State) (v : Nat) : State :=
  (List.range 4).foldl (fun t p => t.modPort p (fun q => q.withdraw (fun r => decide (r.issuer = .vector v))))
    (s.modVec v (fun x => { x with msgs := [] }))
/-- One message write is arranged on the message port of the last delivery, behind the statuses it awaits, or, where
ADDR breaks the alignment rule, counted in WERR (R375, R377, R441). -/
def State.vecArrange (s : State) (v : Nat) : State :=
  if s.vecAligned v then s.modVec v (fun x => { x with msgs := x.msgs ++ [(x.msgPort, x.msgWaits)] })
  else s
/-- A delivery in cycle t: PEND, the window closed, the message port and the awaited statuses kept, and one message write while
MASK is 0 and EN is 1; a misaligned ADDR counts in WERR (R375 to R377). -/
def State.vecDeliver (s : State) (v t : Nat) : State :=
  let s0 := (s.opportunity 0x5000 0).1
  let s1 := s0.modVec v (fun x =>
    { x with opened := none, count := 0, waits := [], msgPort := x.port,
             msgWaits := x.waits.filter (fun w => decide (w.1 ≠ x.port)), closing := some (t, x.waits) })
  let s2 := s1.orReg (vtA v 0) 8#32
  if s2.vecAligned v then
    if bit (s2.vecCtl v) 0 ∧ ¬ bit (s2.vecCtl v) 1 then s2.vecArrange v else s2
  else s2.countField (vtA v 0x1C) 15 0 1
/-- The count threshold of a vector: 0 acts as 1. -/
def State.vecThreshold (s : State) (v : Nat) : Nat := atLeast1 (fld (s.vecCtl v) 15 8)
/-- An open window whose COUNT meets the threshold delivers (R376). -/
def State.vecCheck (s : State) (v : Nat) : State :=
  let x := s.vec v
  if x.opened.isSome ∧ s.vecThreshold v ≤ x.count then s.vecDeliver v s.time.toNat else s
/-- The port of a window's last raise: of several in its cycle, the lowest-numbered (R377). -/
def Vec.portAt (x : Vec) (port t : Nat) : Nat := if x.raisedAt = t then min x.port port else port
/-- A raise from a port counts into the window. -/
def Vec.raised (x : Vec) (port t : Nat) (w : Option (Nat × Nat)) : Vec :=
  { x with count := min 255 (x.count + 1), port := x.portAt port t, raisedAt := t, waits := x.waits ++ w.toList }
/-- A raise in the cycle of a delivery counts into the window that is closing, and is delivered with it: the delivery's message, while it
is not presented, goes by the lowest-numbered port of the cycle's raises, and awaits this raise's record too (R376, R377, R382). -/
def Vec.joined (x : Vec) (port t : Nat) (all : List (Nat × Nat)) : Vec :=
  let p := x.portAt port t
  let ws := all.filter (fun w => decide (w.1 ≠ p))
  { x with port := p, raisedAt := t, closing := some (t, all), msgPort := p, msgWaits := ws, msgs := x.msgs.dropLast ++ (x.msgs.getLast?.map (fun _ => (p, ws))).toList }
/-- A window opens: it expires WINDOW_US after the cycle (R376). -/
def State.vecOpen (s : State) (v : Nat) : State :=
  let t := s.time.toNat
  s.modVec v (fun x => { x with opened := some t, count := 0, port := 3, raisedAt := t, waits := [], closing := none,
                                expiry := t + atLeast1 (fld (s.vecCtl v) 31 16) * 100 })
/-- A raise counts into the open window, which may deliver with it. -/
def State.vecCount (s : State) (v port : Nat) (w : Option (Nat × Nat)) : State :=
  (s.modVec v (fun x => x.raised port s.time.toNat w)).vecCheck v
/-- One raise of a vector from a port (HP0 where there is no cluster), with the record write it reports (R374 to R377): it joins the window
that closes in its cycle, counts into the open one, or opens one; a window whose expiry cycle has passed has delivered before it. -/
def State.vecRaise (s : State) (v port : Nat) (w : Option (Nat × Nat)) : State :=
  if s.vecOn v then
    let t := s.time.toNat
    let s1 := if (s.vec v).opened.isSome ∧ (s.vec v).expiry < t then s.vecDeliver v (s.vec v).expiry else s
    match (s1.vec v).opened, (s1.vec v).closing with
    | none, some (at_, all) =>
      if at_ = t then s1.modVec v (fun x => x.joined port t (all ++ w.toList))
      else (s1.vecOpen v).vecCount v port w
    | none, none => (s1.vecOpen v).vecCount v port w
    | some _, _ => s1.vecCount v port w
  else s
/-- A record write on a port has been answered: no vector awaits it any longer. -/
def State.vecAnswered (s : State) (w : Nat × Nat) : State :=
  s.modSignal (fun g => { g with vecs := g.vecs.map (fun e =>
    (e.1, { e.2 with waits := e.2.waits.erase w, msgWaits := e.2.msgWaits.erase w,
                     msgs := e.2.msgs.map (fun m => (m.1, m.2.erase w)) })) })
/-- A parity error found in a word of an entry: PARITY, the page's bit and record, the window closed, unpresented
messages withdrawn, and the entry off until that word is written (R380, R441). -/
def State.vecParity (s : State) (v word : Nat) : State :=
  let s1 := (s.orReg (vtA v 0x1C) 0x80000000#32).raise 0x5000 1
  let s2 := s1.blot 0x5000 0x16 (some (v / 8)) [BitVec.ofNat 32 v, BitVec.ofNat 32 word]
  ((s2.vecShut v).vecWithdraw v).modVec v (fun x => { x with bad := if x.bad.contains word then x.bad else x.bad ++ [word] })
/-- What a read of an entry's words finds: a parity error in one of them, or nothing. -/
def State.vecFind (s : State) (v : Nat) (bad : Option (Fin 5)) : State :=
  match bad with
  | some w => s.vecParity v w.val
  | none => s
/-- A vector's window expires: it delivers in cycle t (R376). -/
def State.vecExpire (s : State) (v t : Nat) : State := if (s.vec v).opened.isSome then s.vecDeliver v t else s
/-- The expiry cycle of a vector's open window has passed. -/
def State.vecPassed (s : State) (v : Nat) : Bool :=
  (s.vec v).opened.isSome && decide ((s.vec v).expiry ≤ s.time.toNat)

/-! ### The wake of the block -/

/-- The block wakes: the central domain runs again, the edges caught become pending bits, the vector entries are restored
one per cycle, BL_ACK reads BL_SEQ − 1, and windows that expired during the doze deliver at once (R76, R381, R424). -/
def State.wakeBlock (s : State) : State :=
  if s.signal.blockDozed then
    let s1 := s.modSignal (fun g =>
      { g with blockDozed := false, latched := g.latched ||| g.caught, caught := 0, restored := 0, restoring := true })
    let s2 := s1.setReg Reg.BL_ACK (s1.blotter.seq - 1)
    ((s2.signal.vecs.map Prod.fst).filter s2.vecPassed).foldl (fun u v => u.vecExpire v u.time.toNat) s2
  else s

end Sys2Proof.Machine
end

