-- ==== Sys2Proof/Machine/Operands.lean ====
section
/-! DEFINITION. The operand forms of the register port: which register an access reaches, how it is decided (R44 to R47,
R70, R77, R82, R98, R101 to R108), and how each field of a written word acts (R9). -/
namespace Sys2Proof.Machine
open Sys2Proof

/-! ### Which register -/

/-- The selected index of a register that is reached through a select register, if it is one. -/
def State.selected (s : State) (a : Nat) : Option Nat :=
  let o := a % 0x1000
  if a = Reg.CAL_GB_DATA0 ∨ a = Reg.CAL_GB_DATA1 then some (fld (s.regAt Reg.CAL_GB_ADDR) 9 0)
  else if a = Reg.IW_TN_QUOTA ∨ a = Reg.IW_TN_HELD ∨ a = Reg.IW_TN_ERR then some (fld (s.regAt Reg.IW_TN_SEL) 8 0)
  else if Reg.LG_COST_SENSE ≤ a ∧ a ≤ Reg.LG_COST_MEDIA then some (fld (s.regAt Reg.LG_COST_SEL) 1 0)
  else if a = Reg.LG_TN_SHARE ∨ a = Reg.LG_TN_USE ∨ a = Reg.LG_TN_WAITS then some (fld (s.regAt Reg.LG_TN_SEL) 8 0)
  else if a = Reg.SW_BKT_CFG ∨ a = Reg.SW_BKT_STAT ∨ a = Reg.SW_BKT_CORR then some (fld (s.regAt Reg.SW_BKT_SEL) 2 0)
  else if a = Reg.BL_CLS_CFG then some (fld (s.regAt Reg.BL_SEL) 7 0)
  else if a = Reg.TN_SCHED ∨ a = Reg.TN_CPL_CFG ∨ a = Reg.TN_RES ∨ (Reg.TN_EXT0_DIE ≤ a ∧ a ≤ Reg.TN_EXT3_BLK) then
    some (fld (s.regAt Reg.TN_SEL) 8 0)
  else if a = Reg.PT_HIST then some (fld (s.regAt Reg.PT_HIST_SEL) 3 0)
  else match pageKind a with
    | .lane g =>
      if o = Reg.LN_LAT_HIST then some (fld (s.regAt (lnA g Reg.LN_LAT_SEL)) 3 0)
      else if o = Reg.LN_GB_HIST then some (fld (s.regAt (lnA g Reg.LN_GB_SEL)) 4 0)
      else none
    | _ => none
/-- The key of the register that an access at a byte address reaches. -/
def State.keyOf (s : State) (a : Nat) : Nat :=
  match s.selected a with
  | some i => winKey a i
  | none => a

/-! ### How a field acts (R9) -/

/-- The written word acts on each field by its access code: RW, RWS and RWE bits are replaced unless the page's lock
makes them ineffective; a 1 clears a W1C bit and sets a W1S bit (R9, R101, R108). -/
def applyRow (r : RegRow) (locked : Bool) (old data : Word) : Word :=
  let rw := if locked then 0 else r.rw
  (((old &&& ~~~ rw) ||| (data &&& rw)) &&& ~~~ (data &&& r.w1c)) ||| (data &&& r.w1s)

/-! ### How an access is decided -/

/-- The recorded owner is the requester (R82). -/
def State.isOwner (s : State) (id : BitVec 8) : Bool := s.glb.owner == some id
/-- R82: who may write an address. -/
def State.mayWrite (s : State) (a : Nat) (id : BitVec 8) : Bool :=
  s.isOwner id || decide (a = Reg.GLB_MGR_OWNER) || decide (0x400000 ≤ a ∧ a < 0x600000)
/-- R82: who may read an address. -/
def State.mayRead (s : State) (a : Nat) (id : BitVec 8) : Bool :=
  s.isOwner id || decide (a < 0x2000) || decide (0x400000 ≤ a ∧ a < 0x600000)
/-- The base address of an address's page. -/
def pageBase (a : Nat) : Nat := a - a % 0x1000
/-- The address lies in a page with the layout of R96. -/
def inPage (a : Nat) : Bool :=
  match pageKind a with
  | .vector _ | .window | .reserved => false
  | _ => true
/-- The page is locked (R108); doorbell pages have no lock (R96). -/
def State.pageLocked (s : State) (a : Nat) : Bool :=
  match pageKind a with
  | .doorbell _ => false
  | _ => inPage a && bit (s.regAt (pageBase a + 0xFF0)) 0
/-- Order 3 of R102 applies: the page is locked and the register holds a field that the lock makes ineffective. -/
def State.lockApplies (s : State) (a : Nat) : Bool :=
  let o := a % 0x1000
  s.pageLocked a && decide (a ≠ Reg.GLB_MGR_OWNER) && decide (o = 8 ∨ (0x40 ≤ o ∧ o < 0xF00)) &&
    (match regRow a with | some r => decide (r.rw ≠ 0) | none => false)
/-- Order 4 of R102 applies: an offset of the expert area while the expert level is not active on the page. -/
def State.expertApplies (s : State) (a : Nat) : Bool :=
  let o := a % 0x1000
  inPage a && decide (0x400 ≤ o ∧ o < 0xF00) && !s.expertActive (pageBase a)
/-- A write dropped at order 3 (reason 1) or 4 (reason 2) is counted with its address (R102). -/
def State.countDrop (s : State) (reason a : Nat) : State :=
  (s.countField Reg.GLB_WRITE_DROP 15 0 1).setReg Reg.GLB_WRITE_DROP_ADDR (BitVec.ofNat 32 (2 ^ 30 * reason + a % 2 ^ 23))
/-- The access ends with RP_ACK (R44). -/
def State.answer (s : State) (err : Bool) (d : Option Word) : State := { s with rp := { ack := true, err := err, data := d } }
/-- What the port's outputs carry in and after scan is undefined (R62). -/
def State.scanAnswer (s : State) : State :=
  let w := Config.scanOut s.freeCtr
  { s with rp := { ack := bit w 0, err := bit w 1, data := some (Config.scanOut (s.freeCtr + 1)) }, freeCtr := s.freeCtr + 2 }
/-- A faulted access: RP_ERR, RP_RDATA zero, no effect, and a record of class RP_FAULT (R46). -/
def State.rpFault (s : State) (a : Nat) (id : BitVec 8) (code : Nat) : State :=
  (s.blot 0 0x26 none [BitVec.ofNat 32 a, id.setWidth 32, BitVec.ofNat 32 code]).answer true (some 0)
/-- An access outside the CLK page wakes a dozed block before it is decided (R76, R77), and is an opportunity of point 8
of the PB page (R435). -/
def State.portBegin (s : State) (a : Nat) : State :=
  let s1 := if a / 0x1000 = 1 then s else s.wakeBlock
  (s1.opportunity 0xF000 8).1
/-- R70 decides every access: RESET, or RST_WARM_N low (R45). -/
def State.portReset (s : State) : Bool := s.glb.mode = .reset ∨ s.pins.warmLow
/-- The fault of R46 that an access meets, if any: alignment, write parity, ownership. -/
def State.portFault (s : State) (a : Nat) (wr : Bool) (acc : RpAcc) : Option Nat :=
  if a % 4 ≠ 0 then some 1
  else if wr ∧ wordPar acc.data ≠ acc.par then some 2
  else if !(if wr then s.mayWrite a acc.id else s.mayRead a acc.id) then some 3
  else none
/-- An armed unlock closes at the owner's next write unless it is KEY 0xB1A7 to GLB_EXPERT_UNLOCK (R106). -/
def State.disarm (s : State) (a : Nat) (acc : RpAcc) : State :=
  if s.glb.unlock = .armed ∧ s.isOwner acc.id ∧ ¬ (a = Reg.GLB_EXPERT_UNLOCK ∧ fld acc.data 31 16 = 0xB1A7) then s.expertShut
  else s
/-- Orders 2 to 5 of R102: what an accepted write does, given what the register's fields do (told whether the page's
lock makes its RW fields ineffective). -/
def State.decideWrite (s : State) (a : Nat) (eff : Bool → State → State) : State :=
  if s.absent a ∧ pageKind a ≠ .reserved then s
  else if s.dozedPage a then s.countField Reg.CLK_DOZED_ACCESS 15 0 1
  else if s.lockApplies a then eff true (s.countDrop 1 a)
  else if s.expertApplies a then s.countDrop 2 a
  else eff false s
/-- A register-port write (R44 to R46, R62, R70, R102): the state after it. A write that closes an ARMED unlock clears EXPERT on every page
first, and has its own effect after that: a write of PAGE_CTL with EXPERT at 1 leaves it 1, which is the model's choice (R107; log entry 130). -/
def State.portWrite (s : State) (a : Nat) (acc : RpAcc) (eff : Bool → State → State) : State :=
  if s.pins.scan ≠ .mission then s.scanAnswer
  else if s.pins.pwrLow then s
  else if s.portReset then s.answer false none
  else
    let s1 := s.portBegin a
    match s1.portFault a true acc with
    | some c => s1.rpFault a acc.id c
    | none => ((s1.disarm a acc).decideWrite a eff).answer false none
/-- A register-port read: the value is what the page gives, zero where the page is absent or dozed; a refused read and
such a zero clear nothing (R46, R62, R70, R77, R82, R104). -/
def State.portRead (s : State) (a : Nat) (id : BitVec 8) (value : State → Word) (clear : State → State) : State :=
  if s.pins.scan ≠ .mission then s.scanAnswer
  else if s.pins.pwrLow then s
  else if s.portReset then
    if a = Reg.GLB_RELEASE ∨ a = Reg.GLB_BUILD ∨ a = Reg.GLB_MODE then s.answer false (some (value s))
    else if a / 0x1000 = 1 ∧ a % 4 = 0 then (clear s).answer false (some (value s))
    else s.answer false (some 0)
  else
    let s1 := s.portBegin a
    match s1.portFault a false { id := id, data := 0, par := 0 } with
    | some c => s1.rpFault a id c
    | none =>
      if s1.absent a then s1.answer false (some 0)
      else if s1.dozedPage a then
        s1.answer false (some (if a % 0x1000 = 0 then s1.pageId a else if a % 0x1000 = 4 then 0x00030100#32 else 0))
      else (clear s1).answer false (some (value s1))
/-- RW bits of a register that are RO in one instance of it: bits 18 and 21 of SG_CLASS1 (sources 50 and 53, R370), SEV and SUPPRESS of
the classes that R426 marks, and WEIGHT of instance 511 (R385). -/
def roBits (k : Nat) : Word :=
  if k = Reg.SG_CLASS + 4 then 0x240000#32
  else if k % 0x800000 = Reg.BL_CLS_CFG ∧ classFixed (k / 0x800000 - 1) then 0x13#32
  else if k = winKey Reg.TN_SCHED 511 then 0xFF#32
  else 0
/-- A write of a register that has no more effect than its fields (R9). -/
def State.writeRow (s : State) (a : Nat) (locked : Bool) (data : Word) : State :=
  match regRow a with
  | some r => s.modReg (s.keyOf a) (fun w => applyRow { r with rw := r.rw &&& ~~~ roBits (s.keyOf a) } locked w data)
  | none => s

end Sys2Proof.Machine
end

