-- ==== Sys2Proof/Machine/Codes.lean ====
section
/-! DEFINITION. The codes and ciphers that the spec names: CRC-32C (R112, R231), SHA-384 as FIPS 180-4 defines it (R89),
and AES-256 in key wrap (NIST SP 800-38F, R333) and in XTS (IEEE 1619, R337). Bytes are natural numbers below 256. -/
namespace Sys2Proof.Machine

/-! ### CRC-32C -/

/-- One bit of the reflected Castagnoli division. -/
def crcBit (c : Nat) : Nat := if c % 2 = 1 then (c / 2) ^^^ 0x82F63B78 else c / 2
/-- n bits of the division. -/
def crcBits : Nat → Nat → Nat
  | 0, c => c
  | n + 1, c => crcBits n (crcBit c)
/-- CRC-32C of a byte string: reflected, initial value and final inversion all ones. -/
def crc32c (bytes : List Nat) : Nat :=
  (bytes.foldl (fun c b => crcBits 8 (c ^^^ b)) 0xFFFFFFFF) ^^^ 0xFFFFFFFF
/-- The n low bytes of a number, lowest first. -/
def natBytes : Nat → Nat → List Nat
  | 0, _ => []
  | n + 1, v => v % 256 :: natBytes n (v / 256)
/-- The number that bytes spell, lowest first. -/
def bytesNat : List Nat → Nat
  | [] => 0
  | b :: t => b + 256 * bytesNat t
/-- The number that bytes spell, highest first. -/
def beNat (l : List Nat) : Nat := l.foldl (fun a b => a * 256 + b) 0
/-- The n low bytes of a number, highest first. -/
def beBytes (n v : Nat) : List Nat := (natBytes n v).reverse

/-! ### SHA-384 -/

/-- The 80 constants of SHA-384, constant t on bits [64t+63:64t] (FIPS 180-4). -/
def shaK : Nat :=
  0x59F111F1B605D0193956C25BF348B538E9B5DBA58189DBBCB5C0FBCFEC4D3B2F7137449123EF65CD428A2F98D728AE22 +
  (0x550C7DC3D5FFB4E2243185BE4EE4B28C12835B0145706FBED807AA98A3030242AB1C5ED5DA6D8118923F82A4AF194F9B <<< 384) +
  (0xEFBE4786384F25E3E49B69C19EF14AD2C19BF174CF6926949BDC06A725C7123580DEB1FE3B1696B172BE5D74F27B896F <<< 768) +
  (0x76F988DA831153B55CB0A9DCBD41FBD44A7484AA6EA6E4832DE92C6F592B0275240CA1CC77AC9C650FC19DC68B8CD5B5 <<< 1152) +
  (0xD5A79147930AA725C6E00BF33DA88FC2BF597FC7BEEF0EE4B00327C898FB213FA831C66D2DB43210983E5152EE66DFAB <<< 1536) +
  (0x53380D139D95B3DF4D2C6DFC5AC42AED2E1B21385C26C92627B70A8546D22FFC142929670A0E6E7006CA6351E003826F <<< 1920) +
  (0xA81A664BBC423001A2BFE8A14CF1036492722C851482353B81C2C92E47EDAEE6766A0ABB3C77B2A8650A73548BAF63DE <<< 2304) +
  (0x106AA07032BBD1B8F40E35855771202AD69906245565A910D192E819D6EF5218C76C51A30654BE30C24B8B70D0F89791 <<< 2688) +
  (0x4ED8AA4AE3418ACB391C0CB3C5C95A6334B0BCB5E19B48A82748774CDF8EEB991E376C085141AB5319A4C116B8D2D0C8 <<< 3072) +
  (0x8CC702081A6439EC84C87814A1F0AB7278A5636F43172F60748F82EE5DEFB2FC682E6FF3D6B2B8A35B9CCA4F7763E373 <<< 3456) +
  (0xD186B8C721C0C207CA273ECEEA26619CC67178F2E372532BBEF9A3F7B2C67915A4506CEBDE82BDE990BEFFFA23631E28 <<< 3840) +
  (0x1B710B35131C471B113F9804BEF90DAE0A637DC5A2C898A606F067AA72176FBAF57D4F7FEE6ED178EADA7DD6CDE0EB1E <<< 4224) +
  (0x597F299CFC657E2A4CC5D4BECB3E42B6431D67C49C100D4C3C9EBE0A15C9BEBC32CAAB7B40C7249328DB77F523047D84 <<< 4608) +
  (0x6C44198C4A4758175FCB6FAB3AD6FAEC <<< 4992)

/-- Rotation of a 64-bit word to the right. -/
def rotr64 (x n : Nat) : Nat := ((x >>> n) ||| (x <<< (64 - n))) % 2 ^ 64
/-- The message schedule of one block: the 16 words and then 64 more, newest first in the accumulator. -/
def shaExpand : Nat → List Nat → List Nat
  | 0, w => w
  | n + 1, w =>
    let x15 := w.getD 14 0
    let x2 := w.getD 1 0
    let s0 := rotr64 x15 1 ^^^ rotr64 x15 8 ^^^ (x15 >>> 7)
    let s1 := rotr64 x2 19 ^^^ rotr64 x2 61 ^^^ (x2 >>> 6)
    shaExpand n (((w.getD 15 0 + s0 + w.getD 6 0 + s1) % 2 ^ 64) :: w)
/-- One round on the eight working words. -/
def shaRound (v : List Nat) (k w : Nat) : List Nat :=
  let a := v.getD 0 0
  let b := v.getD 1 0
  let c := v.getD 2 0
  let e := v.getD 4 0
  let f := v.getD 5 0
  let g := v.getD 6 0
  let s1 := rotr64 e 14 ^^^ rotr64 e 18 ^^^ rotr64 e 41
  let ch := (e &&& f) ^^^ ((2 ^ 64 - 1 - e) &&& g)
  let t1 := v.getD 7 0 + s1 + ch + k + w
  let s0 := rotr64 a 28 ^^^ rotr64 a 34 ^^^ rotr64 a 39
  let mj := (a &&& b) ^^^ (a &&& c) ^^^ (b &&& c)
  [(t1 + s0 + mj) % 2 ^ 64, a, b, c, (v.getD 3 0 + t1) % 2 ^ 64, e, f, g]
/-- One block of 128 bytes. -/
def shaBlock (h : List Nat) (block : List Nat) : List Nat :=
  let w0 := (List.range 16).map (fun i => beNat ((block.drop (8 * i)).take 8))
  let ws := (shaExpand 64 w0.reverse).reverse
  let v := (List.range 80).foldl (fun v t => shaRound v ((shaK >>> (64 * t)) % 2 ^ 64) (ws.getD t 0)) h
  (List.range 8).map (fun i => (h.getD i 0 + v.getD i 0) % 2 ^ 64)
/-- n blocks of a padded message. -/
def shaBlocks : Nat → List Nat → List Nat → List Nat
  | 0, h, _ => h
  | n + 1, h, m => shaBlocks n (shaBlock h (m.take 128)) (m.drop 128)
/-- The message padded to blocks of 128 bytes: 0x80, zeros, and the length in bits as 16 bytes. -/
def shaPad (m : List Nat) : List Nat :=
  m ++ [0x80] ++ List.replicate ((239 - m.length % 128) % 128) 0 ++ beBytes 16 (8 * m.length)
/-- The twelve 32-bit words of the SHA-384 digest of a byte string, word 0 the upper half of H0 (R89). -/
def sha384 (m : List Nat) : List Nat :=
  let h0 : List Nat := [0xCBBB9D5DC1059ED8, 0x629A292A367CD507, 0x9159015A3070DD17, 0x152FECD8F70E5939, 0x67332667FFC00B31, 0x8EB44A8768581511, 0xDB0C2E0D64F98FA7, 0x47B5481DBEFA4FA4]
  let p := shaPad m
  ((shaBlocks (p.length / 128) h0 p).take 6).flatMap (fun x => [x / 2 ^ 32, x % 2 ^ 32])

/-! ### AES-256 -/

/-- The S-box of AES, entry b on bits [8b+7:8b] (FIPS 197). -/
def aesSbox : Nat :=
  0x1531D871F1E5A534CCF73F362693FDB7C072A49CAFA2D4ADF04759FA7DC982CA76ABD7FE2B670130C56F6BF27B777C63 +
  (0xCF584C4A39BECB6A5BB1FC20ED00D153842FE329B3D63B52A05A6E1B1A2C830975B227EBE28012079A059618C323C704 <<< 384) +
  (0x73195D643D7EA7C41744975FEC130CCDD2F3FF1021DAB6BCF5389D928F40A351A89F3C507F02F94585334D43FBAAEFD0 <<< 768) +
  (0x08AE7A65EAF4566CA94ED58D6D37C8E779E4959162ACD3C25C2406490A3A32E0DB0B5EDE14B8EE4688902A22DC4F8160 <<< 1152) +
  (0xDF2855CEE9871E9B948ED9691198F8E19E1DC186B95735610EF6034866B53E708A8BBD4B1F74DDE8C6B4A61C2E2578BA <<< 1536) +
  (0x16BB54B00F2D99416842E6BF0D89A18C <<< 1920)

/-- The inverse S-box of AES, entry b on bits [8b+7:8b] (FIPS 197). -/
def aesInvSbox : Nat :=
  0x4EC3FA420B954CEE3D23C2A632947B54CBE9DEC444438E3487FF2F9B8239E37CFBD7F3819EA340BF38A53630D56A0952 +
  (0x849D8DA75746155EDAB9EDFD5048706C92B6655DCC5CA4D41698688664F6F87225D18B6D49A25B76B224D92866A12E08 <<< 384) +
  (0x73E6B4F0CECFF297EADC674F4111913A6B8A130103BDAFC1020F3FCA8F1E2CD00645B3B80558E4F70AD3BC8C00ABD890 <<< 768) +
  (0xF45ACD78FEC0DB9A2079D2C64B3E56FC1BBE18AA0E62B76F89C5291D711AF1476EDF751CE837F9E28535ADE72274AC96 <<< 1152) +
  (0x619953833CBBEBC8B0F52AAE4D3BE0A0EF9CC9939F7AE52D0D4AB519A97F51605FEC8027591012B131C7078833A8DD1F <<< 1536) +
  (0x7D0C2155631469E126D677BA7E042B17 <<< 1920)

/-- The S-box. -/
def sbox (b : Nat) : Nat := (aesSbox >>> (8 * b)) % 256
/-- The inverse S-box. -/
def invSbox (b : Nat) : Nat := (aesInvSbox >>> (8 * b)) % 256
/-- Multiplication by x in the field of AES. -/
def xtime (b : Nat) : Nat := if b < 128 then 2 * b else (2 * b) % 256 ^^^ 0x1B
/-- Multiplication in the field of AES by a small constant. -/
def gmul (c b : Nat) : Nat :=
  (if c % 2 = 1 then b else 0) ^^^ (if c / 2 % 2 = 1 then xtime b else 0) ^^^
    (if c / 4 % 2 = 1 then xtime (xtime b) else 0) ^^^ (if c / 8 % 2 = 1 then xtime (xtime (xtime b)) else 0)
/-- Exclusive or of byte strings. -/
def xorBytes (a b : List Nat) : List Nat := List.zipWith (fun x y => x ^^^ y) a b
/-- n more words of the key schedule, newest first, at word index i with the round constant rc. -/
def aesExpand : Nat → Nat → Nat → List (List Nat) → List (List Nat)
  | 0, _, _, w => w
  | n + 1, i, rc, w =>
    let t := w.getD 0 []
    let t' :=
      if i % 8 = 0 then
        let r := (t.drop 1 ++ t.take 1).map sbox
        (r.getD 0 0 ^^^ rc) :: r.drop 1
      else if i % 8 = 4 then t.map sbox else t
    aesExpand n (i + 1) (if i % 8 = 0 then xtime rc else rc) (xorBytes (w.getD 7 []) t' :: w)
/-- The fifteen round keys of a 32-byte key. -/
def aesKeys (key : List Nat) : List (List Nat) :=
  let w0 := (List.range 8).map (fun i => (key.drop (4 * i)).take 4)
  let ws := (aesExpand 52 8 1 w0.reverse).reverse
  (List.range 15).map (fun r => ((ws.drop (4 * r)).take 4).flatten)
/-- Row r of the state (bytes r, r+4, r+8, r+12) moved r places to the left. -/
def shiftRows (s : List Nat) : List Nat := (List.range 16).map (fun i => s.getD ((i + 4 * (i % 4)) % 16) 0)
/-- The inverse of shiftRows. -/
def invShiftRows (s : List Nat) : List Nat := (List.range 16).map (fun i => s.getD ((i + 12 * (i % 4)) % 16) 0)
/-- Each column multiplied by a circulant of four constants. -/
def mixWith (c0 c1 c2 c3 : Nat) (s : List Nat) : List Nat :=
  (List.range 16).map (fun i =>
    let col := 4 * (i / 4)
    let at_ (k : Nat) := s.getD (col + (i + k) % 4) 0
    gmul c0 (at_ 0) ^^^ gmul c1 (at_ 1) ^^^ gmul c2 (at_ 2) ^^^ gmul c3 (at_ 3))
/-- AES-256 encryption of a 16-byte block under expanded keys. -/
def aesEnc (ks : List (List Nat)) (b : List Nat) : List Nat :=
  let s := (List.range 13).foldl (fun s r => xorBytes (mixWith 2 3 1 1 (shiftRows (s.map sbox))) (ks.getD (r + 1) []))
    (xorBytes b (ks.getD 0 []))
  xorBytes (shiftRows (s.map sbox)) (ks.getD 14 [])
/-- AES-256 decryption of a 16-byte block under expanded keys. -/
def aesDec (ks : List (List Nat)) (b : List Nat) : List Nat :=
  let s := (List.range 13).foldl
    (fun s r => mixWith 14 11 13 9 (xorBytes ((invShiftRows s).map invSbox) (ks.getD (13 - r) [])))
    (xorBytes b (ks.getD 14 []))
  xorBytes ((invShiftRows s).map invSbox) (ks.getD 0 [])

/-! ### Key wrap (NIST SP 800-38F, KW) -/

/-- One step of the unwrapping: step t of 6n, on the integrity register and the n semiblocks. -/
def kwStep (ks : List (List Nat)) (n : Nat) (st : List Nat × List (List Nat)) (t : Nat) : List Nat × List (List Nat) :=
  let i := (t - 1) % n
  let a := xorBytes st.1 (beBytes 8 t)
  let d := aesDec ks (a ++ st.2.getD i [])
  (d.take 8, st.2.set i (d.drop 8))
/-- The 64 unwrapped bytes of 72 wrapped ones under a 32-byte key, or none where the integrity check fails (R333). -/
def kwUnwrap (kek wrapped : List Nat) : Option (List Nat) :=
  let ks := aesKeys kek
  let n := 8
  let rs := (List.range n).map (fun i => (wrapped.drop (8 * (i + 1))).take 8)
  let r := ((List.range (6 * n)).map (fun k => 6 * n - k)).foldl (kwStep ks n) (wrapped.take 8, rs)
  if r.1 = List.replicate 8 0xA6 then some r.2.flatten else none

/-! ### XTS (IEEE 1619) -/

/-- Multiplication of a tweak by the primitive element. -/
def xtsDouble (t : Nat) : Nat := if t < 2 ^ 127 then 2 * t else ((2 * t) % 2 ^ 128) ^^^ 0x87
/-- The blocks of a data unit under a tweak, by the block cipher f. -/
def xtsBlocks (f : List Nat → List Nat) : Nat → Nat → List Nat → List Nat
  | 0, _, _ => []
  | n + 1, t, m =>
    let tb := natBytes 16 t
    xorBytes (f (xorBytes (m.take 16) tb)) tb ++ xtsBlocks f n (xtsDouble t) (m.drop 16)
/-- A data unit of 4,096 bytes enciphered (true) or deciphered under a 512-bit key, Key1 on the low half, with a 64-bit
tweak value (R332, R337). -/
def xts (enc : Bool) (key : BitVec 512) (tweak : Nat) (m : List Nat) : List Nat :=
  let k1 := aesKeys (natBytes 32 (key.toNat % 2 ^ 256))
  let k2 := aesKeys (natBytes 32 (key.toNat / 2 ^ 256))
  let t := bytesNat (aesEnc k2 (natBytes 16 tweak))
  xtsBlocks (if enc then aesEnc k1 else aesDec k1) 256 t m

end Sys2Proof.Machine
end

