-- ==== Sys2Proof/Machine/Repair.lean ====
section
/-! DEFINITION. Leaky buckets, macro groups and the repair of rows (R348, R354 to R358). -/
namespace Sys2Proof.Machine
open Sys2Proof

/-! ### Macro groups (R355) -/

/-- Rows of a macro group of the build; 0 where no such group exists. -/
def State.groupRows (s : State) (g : Nat) : Nat :=
  let nc := s.nClusters
  if g < 0x80 then (if g / 8 < nc then 2080 else 0)
  else if g < 0xA0 then 1024
  else if g < 0xC0 then (if (g - 0xA0) / 2 < nc then (if g % 2 = 0 then 128 else 64) else 0)
  else if g < 0x100 then 0
  else if g < 0x180 then (if g - 0x100 < s.build.lanes then 584 else 0)
  else if g < 0x1A0 then (if (g - 0x180) / 2 < nc then (if g % 2 = 0 then 1536 else 2048) else 0)
  else if g = 0x1A0 then 2560
  else if g = 0x1A1 then 1024
  else 0
/-- Group and row of payload byte j of slab n; side bytes count from 4,096. -/
def slabRow (n j : Nat) : Nat × Nat :=
  let b := n / 512
  let i := n % 512
  let row := if j < 4096 then (i % 64) * 32 + j / 128 else 2048 + ((i % 64) * 64 + (j - 4096)) / 128
  (8 * b + i / 64, row)
/-- Group and row of a way of a Context Cache set. -/
def ccRow (set way : Nat) : Nat × Nat := (0x80 + 8 * (set % 4) + set / 256, (set / 4 % 64) * 16 + way)
/-- Bucket group of a macro group (R354). -/
def bucketOf (g : Nat) : Nat :=
  if g < 0x80 then 0 else if g < 0xA0 then 1 else if g < 0x100 then 2 else if g < 0x180 then 3
  else if g < 0x1A0 then (if g % 2 = 0 then 4 else 5) else if g = 0x1A0 then 6 else 7

/-! ### Leaky buckets (R354) -/

/-- The level of a bucket after a cycle's net change: at THRESH it overflows, naming the macro group of the last correction. -/
def State.bucketSet (s1 : State) (b g level : Nat) : State :=
  let k := winKey Reg.SW_BKT_STAT b
  if atLeast1 (fld (s1.regAt (winKey Reg.SW_BKT_CFG b)) 15 0) ≤ level then
    (((s1.modReg k (fun w => putFld w 15 0 0)).countField k 31 16 1).raise 0x7000 1).blot 0x7000 0x23 none
      [BitVec.ofNat 32 b, BitVec.ofNat 32 g]
  else s1.modReg k (fun w => putFld w 15 0 level)
/-- LEVEL of a bucket. -/
def State.bucketLevel (s : State) (b : Nat) : Nat := fld (s.regAt (winKey Reg.SW_BKT_STAT b)) 15 0
/-- One correction counts in a bucket: the level rises by one. -/
def State.bucketAdd (s : State) (b g : Nat) : State := (s.count (winKey Reg.SW_BKT_CORR b)).bucketSet b g (s.bucketLevel b + 1)

/-! ### Repair (R356 to R358) -/

/-- The remap entries of a group, oldest first: row and whether from a preset. -/
def State.remapsOf (s : State) (g : Nat) : List (Nat × Bool) := Tab.getD (fun _ => []) s.scrub.remaps g
/-- The correction tracker of a group, oldest first: row and count. -/
def State.trackerOf (s : State) (g : Nat) : List (Nat × Nat) := Tab.getD (fun _ => []) s.scrub.tracker g
/-- A tracker replaced. -/
def State.setTracker (s : State) (g : Nat) (t : List (Nat × Nat)) : State :=
  s.modScrub (fun x => { x with tracker := Tab.setD (fun _ => []) x.tracker g t })
/-- An entry added to a group's remap table; the row's tracker entry is free again. -/
def State.addRemap (s : State) (g row : Nat) (preset : Bool) : State :=
  ((s.modScrub (fun x => { x with remaps := Tab.setD (fun _ => []) x.remaps g (s.remapsOf g ++ [(row, preset)]) })).setTracker g
    ((s.trackerOf g).filter (fun e => e.1 != row))).countField
    Reg.SW_REP_STAT 31 16 1
/-- A row is remapped to the next free spare, or, with the table at 8 entries, refused (R356, R357). -/
def State.remapRow (s : State) (g row : Nat) : State :=
  let d := [BitVec.ofNat 32 g, BitVec.ofNat 32 row]
  if 8 ≤ (s.remapsOf g).length then
    ((s.countField Reg.SW_REP_STAT 7 0 1).raise 0x7000 3).blot 0x7000 0x15 none d
  else (s.addRemap g row false).blot 0x7000 0x28 none d
/-- The tracker after a correction at a row: the count of a held row rises; another takes a free entry, or replaces the
lowest count, the oldest first among equals (R356). -/
def trackRow (t : List (Nat × Nat)) (row : Nat) : List (Nat × Nat) :=
  if t.any (fun e => e.1 == row) then t.map (fun e => if e.1 = row then (e.1, e.2 + 1) else e)
  else if t.length < 4 then t ++ [(row, 1)]
  else
    let low := (t.map Prod.snd).foldl min ((t.headD (0, 0)).2)
    (t.eraseP (fun e => e.2 == low)) ++ [(row, 1)]
/-- A row already redirected to a spare by its group's table. -/
def State.remapped (s : State) (g row : Nat) : Bool := (s.remapsOf g).any (fun e => e.1 == row)
/-- The tracker counts a correction at a row, and at a count of 3 or more the row is remapped, or refused again where the table is full
(R356, R357). -/
def State.trackAt (s1 : State) (g row : Nat) : State :=
  let t := trackRow (s1.trackerOf g) row
  let s2 := s1.setTracker g t
  let n := ((t.find? (fun e => e.1 == row)).map Prod.snd).getD 0
  if 3 ≤ n ∧ ¬ s2.remapped g row then s2.remapRow g row else s2
/-- A correction at a row of a macro group: its bucket counts it, and the tracker counts the row (R348, R354, R356). -/
def State.corrected (s : State) (g row : Nat) : State := (s.bucketAdd (bucketOf g) g).trackAt g row
/-- An uncorrectable word qualifies its row at once (R356). -/
def State.uncorrRow (s : State) (g row : Nat) : State := if s.remapped g row then s else s.remapRow g row
/-- One preset of the Characterization Row: one entry with PRESET, or ignored and counted (R358). -/
def State.preset (s : State) (w : Word) : State :=
  if bit w 31 then
    let g := fld w 30 20
    let row := fld w 19 0
    if row < s.groupRows g ∧ (s.remapsOf g).length < 8 then s.addRemap g row true
    else s.countField Reg.SW_REP_STAT 15 8 1
  else s
/-- The presets of CHAR_ROW36 to CHAR_ROW59, in word order, into empty tables (R69 step 3, R358): where a warm reset is
released after a fuse load that ended during it, its step 3 takes the place of the fuse load's. -/
def State.presets (s : State) : State :=
  let s1 := (s.modScrub (fun x => { x with remaps := [] })).setReg Reg.SW_REP_STAT 0
  (List.range 24).foldl (fun t i => t.preset (t.regAt (Reg.CHAR_ROW + 4 * (36 + i)))) s1

end Sys2Proof.Machine
end

