-- ==== Sys2Proof/Machine/Resets.lean ====
section
/-! DEFINITION. The scopes of the two resets and of an OPENING failure (R69, R71, R87), and the entry to OPENING with its
row check (R79, R85, R113). -/
namespace Sys2Proof.Machine
open Sys2Proof

/-! ### What a reset leaves -/

/-- A register kept through a warm reset: the always-on CLK page, the Characterization Row, the Endgame summary
registers, and THM_HOT0 and THM_HOT1 (R68, R71, R422; log entry 8). Locks are not kept (R108). -/
def keptReg (k : Nat) : Bool :=
  (0x1000 ≤ k ∧ k < 0x1FF0) ∨ (0x300 ≤ k ∧ k < 0x400) ∨ (Reg.GLB_EG_CTL ≤ k ∧ k < 0xF0) ∨ k = Reg.THM_HOT0 ∨ k = Reg.THM_HOT1
/-- The slab limit of the Manager's instance after a reset: the build's slab count (IW_TN_QUOTA). -/
def State.initQuota (s : State) : State := s.setReg (winKey Reg.IW_TN_QUOTA 511) (BitVec.ofNat 32 (s.nSlabs <<< 16))
/-- The GLB state after a warm reset: the boot-attempt counter and the latches of R73 and R87 are kept (R71). -/
def Glb.warm (g : Glb) : Glb :=
  { Glb.init with
    mode := g.mode, prevMode := g.prevMode, bootCount := g.bootCount, causeA := g.causeA, causeB := g.causeB,
    causeC := g.causeC, fallCause := g.fallCause, openFailed := g.openFailed, restartWait := g.restartWait,
    resetCounted := g.resetCounted, warmDeferred := g.warmDeferred, warmWait := g.warmWait }
/-- The scope of a warm reset (R71): what it keeps, and everything else as after a reset. -/
def State.warmScope (s : State) : State :=
  let t : State :=
    { State.reset with
      build := s.build, pins := s.pins, fuse := s.fuse, tap := s.tap, time := s.time,
      glb := s.glb.warm, rp := s.rp, regs := s.regs.filter (fun e => keptReg e.1), store := s.store,
      blotter := { seq := s.blotter.seq, queue := [], main := [], retained := s.blotter.retained,
                   retNext := s.blotter.retNext, windows := [], fresh := [], cycle := 0 },
      endgame := { start := 0, ended := false, entries := s.endgame.entries, hostOut := 0, headerOut := false },
      freeCtr := s.freeCtr, pending := s.pending }
  ((t.initQuota.setReg Reg.BL_STAT (s.regAt Reg.BL_STAT &&& 0x0000FFFF#32)).setReg Reg.BL_ACK (s.blotter.seq - 1))
/-- The scope of a cold reset (R69): every flop. Host memory and the sampled level of the reset pins stay. -/
def State.coldScope (s : State) : State :=
  let t : State :=
    { State.reset with
      build := s.build, store := s.store, freeCtr := s.freeCtr, pending := s.pending,
      pins := { State.reset.pins with
        pwrLow := true, warmLow := s.pins.warmLow, scan := if s.pins.scan = .shifting then .shifting else .mission },
      fuse := { State.reset.fuse with request := false } }
  t.initQuota
/-- A lane has a stroke running or a die operation outstanding (R73). -/
def State.laneBusy (s : State) (g : Nat) : Bool :=
  (s.lane g).run.isSome || (s.lane g).waiting.isSome || (s.lane g).luns.any (fun e => e.2.state ≠ .idle)
/-- The warm reset is applied: WARM_BUSY for busy lanes, WARM, RESET, and the scope (R71, R73). -/
def State.applyWarm (s : State) : State :=
  let busy := s.laneList.any s.laneBusy
  let s0 := State.blotterDrain 64 s
  let s1 := if s0.glb.mode = .reset then s0 else s0.toMode .reset
  s1.warmScope.orReg Reg.CLK_RESET_CAUSE (flag true 1 ||| flag busy 3)

/-! ### An OPENING failure (R87, R95) -/

/-- The code of a cause (R95). -/
def causeCode : OpenCause → Nat
  | .fuseLoad => 1 | .charRow => 2 | .imageTimeout => 3 | .imageFormat => 4 | .digestMismatch => 5 | .scribeStart => 6
  | .quillStart => 7 | .trainSealLane => 8 | .noLanes => 9 | .defectStore => 10 | .sealRecord => 11 | .kekMissing => 12
  | .resetInOpening => 13 | .sramInit => 14 | .phaseTimeout => 15
/-- Step 1 of R87: COUNT, the causes, and the retained record of class OPEN_FAIL. GLB_FALLBACK_CAUSE is the cause that brought COUNT
to 3; a failure that finds COUNT at 3 already takes its place (R94 does not say: log entry 101). -/
def State.countFailure (s : State) (c : OpenCause) : State :=
  let n := causeCode c
  (s.modGlb (fun g =>
    { g with bootCount := min 3 (g.bootCount + 1), causeC := g.causeB, causeB := g.causeA, causeA := BitVec.ofNat 5 n,
             fallCause := BitVec.ofNat 5 n })).blot 0 0x03 none [BitVec.ofNat 32 n, BitVec.ofNat 32 s.glb.phase.code]
/-- Step 2 of R87: RESET with the scope of a warm reset, CLK_RESET_CAUSE unchanged, and OPEN_FAIL latched. The
records queued so far have entered the retained log by then (R425). -/
def State.failReset (s : State) : State :=
  ((State.blotterDrain 64 s).toMode .reset).warmScope.modGlb (fun g => { g with openFailed := true, phase := .none })
/-- An OPENING failure: steps 1 and 2, and the wait of one millisecond begins (R87). -/
def State.openFail (s : State) (c : OpenCause) : State :=
  (s.countFailure c).failReset.modGlb (fun g => { g with restartWait := true })

/-! ### The entry to OPENING -/

/-- The row check of CHAR_CHECK (R113) over CHAR_ROW0 to CHAR_ROW63. -/
def State.charRowOk (s : State) : Bool :=
  let w (k : Nat) : Word := s.regAt (Reg.CHAR_ROW + 4 * k)
  let bytes := (List.range 63).flatMap (fun k => natBytes 4 (w k).toNat)
  decide (crc32c bytes = (w 63).toNat ∧ w 0 = 0x00010000#32 ∧ fld (w 3) 2 0 ≤ 4 ∧ 1 ≤ fld (w 3) 15 8 ∧ fld (w 3) 15 8 ≤ 48 ∧
    fld (w 3) 7 3 = 0 ∧ fld (w 3) 31 16 = 0 ∧ w 60 = 0 ∧ w 61 = 0 ∧ w 62 = 0)
/-- A phase of OPENING begins: its time counts from now (R85). -/
def State.toPhase (s : State) (p : Phase) : State := s.modGlb (fun g => { g with phase := p, phaseAt := s.time.toNat })
/-- The pulse of OPEN_FAIL that the always-on latch kept is presented (R87). -/
def State.presentFail (s : State) : State :=
  if s.glb.openFailed then (s.modGlb (fun g => { g with openFailed := false })).pulse 49 else s
/-- OPENING is entered: the mode, the latched OPEN_FAIL, and phase CHAR_CHECK, which passes to AWAIT_IMAGES or fails
with FUSE_LOAD or CHAR_ROW (R79, R85, R87). -/
def State.enterOpening (s : State) : State :=
  let s1 := ((s.modGlb (fun g => { g with restartWait := false, resetCounted := false })).toMode .opening).presentFail.toPhase
    .charCheck
  if s1.fuse.failed then s1.openFail .fuseLoad
  else if !s1.charRowOk then s1.openFail .charRow
  else s1.toPhase .awaitImages

end Sys2Proof.Machine
end

