-- ==== Sys2Proof/Machine/Lanes.lean ====
section
/-! DEFINITION. Lanes: geometry (R116 to R120), candidates (R136, R137), training (R140 to R142, R156), eyes and their
selection (R143 to R145), shadows and hand-over (R149 to R153). -/
namespace Sys2Proof.Machine
open Sys2Proof

/-! ### Pins (R48, R50) -/

/-- CE_N of a lane: low on the target whose chip enable is driven. -/
def Lane.ceN (l : Lane) : BitVec 16 :=
  match l.ceLow with
  | some t => ~~~ BitVec.ofNat 16 (2 ^ t)
  | none => BitVec.allOnes 16
/-- A lane's output pins between two cycles of its bus: WE_N high, RE_T high, RE_C low, ALE and CLE low, DQ and DQS in high
impedance. On a lane that OPENING has not enabled, and on one whose cluster is gated, CE_N is high and WP_N low too (R50). -/
def Lane.pins (l : Lane) : LanePins :=
  { ceN := l.ceN, weN := true, reT := true, reC := false, ale := false, cle := false, wpN := l.wpHigh, dq := none,
    dqsT := none, dqsC := none }
/-- The pins in the active half of a cycle (R48): a command cycle has CLE high and an address cycle ALE high, with WE_N low and the
byte on DQ. In SDR a data byte in has WE_N low, and a data byte out RE low. In a DDR mode each data byte has an edge of its
strobe, rising for the first of a pair: of DQS, which the block drives, for a byte in, and of RE for a byte out, when DQ and
DQS are left to the die. -/
def Lane.pinsIn (l : Lane) (ddr rises : Bool) (c : BusCycle) : LanePins :=
  match c with
  | .cmd b => { l.pins with cle := true, weN := false, dq := some b }
  | .addr b => { l.pins with ale := true, weN := false, dq := some b }
  | .dataIn b =>
    if ddr then { l.pins with dq := some b, dqsT := some rises, dqsC := some (!rises) }
    else { l.pins with weN := false, dq := some b }
  | .dataOut _ =>
    if ddr then { l.pins with reT := rises, reC := !rises } else { l.pins with reT := false, reC := true }
/-- The pins of lane g in a cycle, in the signalling mode that LN_SIG_STAT.MODE names: SDR has no strobes (R134). -/
def State.lanePins (s : State) (g : Nat) (rises : Bool) (c : BusCycle) : LanePins :=
  (s.lane g).pinsIn (decide (fld (s.regAt (lnA g Reg.LN_SIG_STAT)) 2 0 ≠ 0)) rises c

/-! ### Geometry -/

/-- A lane's geometry (R118). -/
structure Geo where
  frames : Nat
  types  : Nat
  planes : Nat
  luns   : Nat
  pages  : Nat
  free   : Bool
  rowC   : Nat
  colC   : Nat
  pb     : Nat
  bb     : Nat
  blocks : Nat
  deriving DecidableEq, Repr

/-- The geometry that LN_GEOM0 and LN_GEOM1 of a lane hold; FRAMES is three bits wide and 8 stands as 0 (log entry 9). -/
def State.geo (s : State) (g : Nat) : Geo :=
  let a := s.regAt (lnA g Reg.LN_GEOM0)
  let b := s.regAt (lnA g Reg.LN_GEOM1)
  { frames := if fld a 28 26 = 0 then 8 else fld a 28 26, types := fld a 25 24 + 1, planes := fld a 23 21,
    luns := fld a 20 18, pages := fld a 12 0 + 1, free := bit b 31, rowC := fld b 30 28, colC := fld b 27 26,
    pb := fld b 25 22, bb := fld b 21 17, blocks := fld b 16 0 }
/-- What R118 derives from one LUN's parameter page. -/
def lunGeo (p : LunParam) : Geo :=
  let planes := 2 ^ p.planeBits
  { frames := (p.dataBytes + p.spareBytes) / 4672, types := p.bitsPerCell, planes := planes, luns := p.luns,
    pages := p.pagesPerBlock, free := p.freeBlock, rowC := p.addrCycles.toNat % 16, colC := p.addrCycles.toNat / 16,
    pb := clog2 p.pagesPerBlock, bb := clog2 p.blocksPerLun, blocks := p.blocksPerLun / planes }
/-- The values lie within the limits of R118. -/
def lunInLimits (p : LunParam) : Bool :=
  let f := (p.dataBytes + p.spareBytes) / 4672
  decide (1 ≤ f ∧ f ≤ 8 ∧ 2 ≤ p.pagesPerBlock ∧ p.pagesPerBlock ≤ 4096 ∧ 1 ≤ p.luns ∧ p.luns ≤ 4 ∧ 1 ≤ p.bitsPerCell ∧
    p.bitsPerCell ≤ 4 ∧ p.planeBits ≤ 2)
/-- The fields of R118 in one copy: those of an ONFI page at the byte offsets of its table. -/
def pageFields : ParamBody → LunParam
  | .onfi b free =>
    let at_ (o n : Nat) : Nat := leNat ((b.drop o).take n)
    { dataBytes := at_ 80 4, spareBytes := at_ 84 2, pagesPerBlock := at_ 92 4, blocksPerLun := at_ 96 4, luns := at_ 100 1,
      addrCycles := b.getD 101 0, bitsPerCell := at_ 102 1, badMax := at_ 103 2, planeBits := at_ 110 1, freeBlock := free }
  | .jesd230 p => p
/-- The parameters of a LUN: of the first copy whose integrity CRC passes (R118). -/
def lunParam (copies : List ParamCopy) : Option LunParam := (copies.find? (·.crcOk)).map (fun c => pageFields c.body)
/-- A target that the first pass of R119 keeps: every LUN's page reads within the limits. -/
def tgtSound (t : TargetFound) : Bool :=
  t.luns.all (fun l => match lunParam l with | some p => lunInLimits p | none => false)
/-- The parameters that stand for a target. R119 does not say which of its LUNs gives the geometry where their sound pages differ:
the first one does (log entry 103). -/
def tgtParam (t : TargetFound) : Option LunParam := lunParam (t.luns.headD [])
/-- The parameters that give the lane its geometry: of the lowest-numbered sound target (R119). -/
def lanePages (ts : List TargetFound) : Option LunParam :=
  ((List.range 16).findSome? (fun n => ts.find? (fun t => decide (t.target.val = n) && tgtSound t))).bind tgtParam
/-- A target stays in use: sound, and every LUN gives the lane's geometry and number of LUNs (R119). -/
def tgtKept (t : TargetFound) (p : LunParam) : Bool :=
  tgtSound t && decide (t.luns.length = p.luns) &&
    t.luns.all (fun l => match lunParam l with | some q => decide (lunGeo q = lunGeo p ∧ q.badMax = p.badMax) | none => false)
/-- A mask of targets. -/
def targetMask (ts : List TargetFound) (f : TargetFound → Bool) : Word :=
  ts.foldl (fun w t => if f t then w ||| flag true t.target.val else w) 0
/-- LN_GEOM0 of a geometry. -/
def Geo.word0 (q : Geo) : Word :=
  BitVec.ofNat 32 ((q.frames % 8) <<< 26 ||| (q.types - 1) <<< 24 ||| q.planes <<< 21 ||| q.luns <<< 18 ||| (q.pages - 1))
/-- LN_GEOM1 of a geometry. -/
def Geo.word1 (q : Geo) : Word :=
  flag q.free 31 ||| BitVec.ofNat 32 ((q.rowC % 8) <<< 28 ||| (q.colC % 4) <<< 26 ||| q.pb <<< 22 ||| q.bb <<< 17 ||| q.blocks)
/-- The clamp of R120: at most 8,192 bitmap entries per die. -/
def Geo.clamp (q : Geo) : Geo × Bool :=
  if 8192 < q.planes * q.blocks then ({ q with blocks := 8192 / q.planes }, true) else (q, false)
/-- The targets of a lane that take part: present and not excluded. -/
def State.targetUp (s : State) (g t : Nat) : Bool :=
  bit (s.regAt (lnA g Reg.LN_TGT_PRESENT)) t && !bit (s.regAt (lnA g Reg.LN_TGT_EXCLUDED)) t
/-- The die numbers (target × 4 + LUN) of a lane's dies that take part, ascending. -/
def State.laneDies (s : State) (g : Nat) : List Nat :=
  (List.range 64).filter (fun d => s.targetUp g (d / 4) && decide (d % 4 < (s.geo g).luns))

/-! ### Candidates -/

/-- A candidate as LN_SIG_STAT[13:0] shows it: MODE, TMODE and RATE_M. -/
def candWord (mode tmode rateM : Nat) : Nat := mode + 16 * tmode + 256 * rateM
/-- The rate of a candidate in 100 MT/s units. -/
def candRate (c : Nat) : Nat := c / 256
/-- The strokes of R137 at CAL_CP_FEAT.ADDR on one target: the query of step 4, entering set k, and leaving Copperplate. -/
def cpQuery (addr : Byte) (b : Option Byte) : List BusCycle := [.cmd 0xEE#8, .addr addr] ++ (b.map BusCycle.dataOut).toList
def cpSet (addr b : Byte) : List BusCycle := [.cmd 0xEF#8, .addr addr, .dataIn b, .dataIn 0, .dataIn 0, .dataIn 0]
/-- Cycles of a lane's bus in training: those of each candidate that is tried enter its Copperplate set, if it is one, on each of n
targets, after leaving the set in use (R137). -/
def cpWalk (addr : Byte) (n cur : Nat) (tried : List Nat) : List BusCycle :=
  let leave := if cur % 8 = 4 ∧ tried.head? ≠ some cur then cpSet addr 0 else []
  let enter (c : Nat) : List BusCycle := if c % 8 = 4 ∧ c ≠ cur then cpSet addr (BitVec.ofNat 8 (0x80 + c / 16 % 16)) else []
  (List.replicate n leave).flatten ++ tried.flatMap (fun c => (List.replicate n (enter c)).flatten)
/-- CAL_CP_FEAT.ADDR. -/
def State.cpAddr (s : State) : Byte := BitVec.ofNat 8 (fld (s.regAt Reg.CAL_CP_FEAT) 7 0)
/-- The targets of a lane that answered, less those that are excluded. -/
def State.targetCount (s : State) (g : Nat) : Nat := (setBits (s.regAt (lnA g Reg.LN_TGT_PRESENT) &&& ~~~ s.regAt (lnA g Reg.LN_TGT_EXCLUDED))).length
/-- Cycles on a lane's bus. -/
def State.drive (s : State) (g : Nat) (cycles : List BusCycle) : State := s.modLane g (fun l => { l with bus := l.bus ++ cycles })
/-- The combinations of mode and timing mode, or Copperplate set, that every kept target supports (R136, R137); SDR runs
below every rate of R136. -/
def commonModes (ts : List TargetFound) (cp : Bool) : List Nat :=
  let std := (List.range 4).flatMap (fun m => (List.range 16).filterMap (fun k =>
    if ts.all (fun t => t.modes.any (fun x => decide (x.1.val = m ∧ x.2.val = k))) then
      let r := Config.stdRate m k / 100
      if m = 0 ∨ r = 0 ∨ 48 < r then none else some (candWord m k r)
    else none))
  let sets := (List.range 5).filterMap (fun k =>
    if cp ∧ ts.all (fun t => (match t.cpByte with | some b => bit b k | none => false) && t.modes.any (fun x => decide (x.1.val = 2))) then some (candWord 4 k (40 + 2 * k))
    else none)
  if ts.isEmpty then [] else std ++ sets
/-- The cap of a lane in 100 MT/s units (R136, R406). -/
def State.capM (s : State) (g : Nat) : Nat :=
  let c0 := min (fld (s.regAt (Reg.CHAR_ROW + 12)) 15 8) (fld (s.regAt Reg.CAL_RATE) 13 8)
  let lc := fld (s.regAt (lnA g Reg.LN_SIG_CTL)) 29 24
  let c1 := if lc = 0 then c0 else min c0 lc
  let c2 := if s.glb.mode = .fallback then min c1 8 else c1
  if s.glb.mode = .thrift then min c2 s.ledger.rateM else c2
/-- Insert a candidate into a list by descending rate, then descending MODE. R136 orders two candidates of equal rate and MODE in
no way; the higher timing mode is tried first (log entry 21). -/
def insertCand (c : Nat) : List Nat → List Nat
  | [] => [c]
  | d :: t =>
    if candRate d < candRate c ∨ (candRate d = candRate c ∧ (d % 8 < c % 8 ∨ (d % 8 = c % 8 ∧ d / 16 % 16 < c / 16 % 16))) then
      c :: d :: t
    else d :: insertCand c t
/-- The lane's candidate list under the current caps (R136); Copperplate counts only while CAL_CP_FEAT.EN is 1 (R137). -/
def State.candList (s : State) (g : Nat) : List Nat :=
  let lo := atLeast1 (fld (s.regAt Reg.CAL_RATE) 5 0)
  let cap := s.capM g
  let cp := bit (s.regAt Reg.CAL_CP_FEAT) 8
  (((s.lane g).candidates.filter (fun c => decide (lo ≤ candRate c ∧ candRate c ≤ cap) && (cp || decide (c % 8 ≠ 4))))).foldl
    (fun l c => insertCand c l) []
/-- The candidate c comes after cur in the order of R136. -/
def candAfter (cur c : Nat) : Bool :=
  c ≠ cur ∧ (candRate c < candRate cur ∨ (candRate c = candRate cur ∧ (c % 8 < cur % 8 ∨ (c % 8 = cur % 8 ∧ c / 16 % 16 < cur / 16 % 16))))

/-! ### Eyes -/

/-- The width of an eye; 0 where no tap passes. -/
def eyeWidth : Option (Fin 64 × Fin 64) → Nat
  | some (l, r) => r.val - l.val + 1
  | none => 0
/-- The centre of an eye. -/
def eyeCentre : Option (Fin 64 × Fin 64) → Nat
  | some (l, r) => (l.val + r.val) / 2
  | none => 0
/-- LN_EYE_DATA of an eye with its mismatches at the centre. -/
def eyeWord (e : Option (Fin 64 × Fin 64)) (mism : Nat) : Word :=
  match e with
  | some (l, r) => BitVec.ofNat 32 (min 255 mism <<< 24 ||| eyeWidth e <<< 16 ||| r.val <<< 8 ||| l.val)
  | none => BitVec.ofNat 32 (min 255 mism <<< 24)
/-- The sampler chosen for a bit: the greatest width, the current one first on ties, else the lowest index, and only
with a lead of HYST over the current one (R145). -/
def chooseSampler (w : Nat → Nat) (cur hyst : Nat) : Nat :=
  let best := (List.range 4).foldl (fun m k => max m (w k)) 0
  let k := if w cur = best then cur else ((List.range 4).find? (fun k => w k == best)).getD cur
  if w cur + hyst ≤ w k then k else cur
/-- Eight six-bit fields as two registers of four. -/
def dlyWord (f : Nat → Nat) (half : Nat) : Word :=
  BitVec.ofNat 32 ((List.range 4).foldl (fun a k => a ||| (f (4 * half + k) % 64) <<< (8 * k)) 0)
/-- Eight two-bit fields. -/
def selWord (f : Nat → Nat) : Word := BitVec.ofNat 32 ((List.range 8).foldl (fun a k => a ||| (f k % 4) <<< (2 * k)) 0)
/-- The selected sampler of bit b in LN_RX_SEL. -/
def selOf (w : Word) (b : Nat) : Nat := fld w (2 * b + 1) (2 * b)
/-- The offset of the n-th of the six RWS registers that castle together (R149). -/
def shadowOff (n : Nat) : Nat := Reg.LN_RX_SEL + 4 * n
/-- The six shadow registers of a lane. -/
def State.shadows (s : State) (g : Nat) : List Word := (List.range 6).map (fun n => s.regAt (lnA g (shadowOff n)))
/-- The six shadow registers written. -/
def State.setShadows (s : State) (g : Nat) (ws : List Word) : State :=
  (List.range 6).foldl (fun t n => t.setReg (lnA g (shadowOff n)) (ws.getD n 0)) s
/-- The thermal code of a lane's region at the last millisecond edge (R147). -/
def State.edgeCode (s : State) (g : Nat) : BitVec 10 := if g / 64 = 1 ∧ s.nRegions = 2 then s.pins.edge1 else s.pins.edge0
/-- LN_CAL_TEMP takes the code of the last millisecond edge; 0x3FF leaves it (R147). -/
def State.takeTemp (s : State) (g : Nat) : State :=
  if s.edgeCode g = 0x3FF#10 then s else s.setReg (lnA g Reg.LN_CAL_TEMP) ((s.edgeCode g).setWidth 32)

/-! ### Training -/

/-- Step 7 of a candidate: the duty cycle is corrected, in modes 2 to 4 (R141). -/
def trialDuty (t : Trial) (c : Nat) : Bool := t.dccOk || decide (c % 8 < 2)
/-- A candidate passes steps 7 to 11 with a trial (R141). -/
def State.trialOk (s : State) (c : Nat) (t : Trial) : Bool :=
  let minW := fld (s.regAt Reg.CAL_EYE_TH) 13 8
  trialDuty t c && t.crcOk &&
    (List.range 8).all (fun b =>
      (List.range 4).any (fun k => decide (minW ≤ eyeWidth (t.rx.getD (4 * b + k) none))) &&
      decide (minW ≤ eyeWidth (t.tx.getD b none)))
/-- The first of the candidates, tried in order with their trials, that passes. -/
def State.walkTrials (s : State) : List (Nat × Trial) → Option (Nat × Trial)
  | [] => none
  | e :: l => if s.trialOk e.1 e.2 then some e else State.walkTrials s l
/-- The candidates of a list that a walk tries: up to the first that passes. -/
def State.tried (s : State) : List (Nat × Trial) → List Nat
  | [] => []
  | e :: l => if s.trialOk e.1 e.2 then [e.1] else e.1 :: State.tried s l
/-- An eye holds a tap and the taps h on either side; a tap outside 0 to 63 does not pass (log entry 110). -/
def eyeHolds (e : Option (Fin 64 × Fin 64)) (tap h : Nat) : Bool :=
  match e with
  | some (l, r) => decide (l.val + h ≤ tap ∧ tap + h ≤ r.val)
  | none => false
/-- The six values of a trial: samplers chosen with HYST 0, the eyes' centres, and the DQS values (R140 steps 7 to 10). -/
def trialValues (sel : Word) (t : Trial) : List Word :=
  let w (b k : Nat) := eyeWidth (t.rx.getD (4 * b + k) none)
  let pick (b : Nat) := chooseSampler (w b) (selOf sel b) 0
  let rx (b : Nat) := eyeCentre (t.rx.getD (4 * b + pick b) none)
  let tx (b : Nat) := eyeCentre (t.tx.getD b none)
  [selWord pick, dlyWord rx 0, dlyWord rx 1, dlyWord tx 0, dlyWord tx 1, t.dqs &&& 0x003F3F3F#32]
/-- The active set takes the shadows, and PENDING clears (R149). -/
def State.handOver (s : State) (g : Nat) : State :=
  (s.modLane g (fun l => { l with active := s.shadows g })).modReg (lnA g Reg.LN_CAL_STAT) (fun w => w &&& 0xFFFFFFFE#32)
/-- Step 12: the values become active, the signalling state and temperature are recorded, WP_N goes high (R140). -/
def State.laneTrained (s : State) (g c : Nat) (values : List Word) : State :=
  let s1 := ((s.setShadows g values).handOver g).modLane g (fun l => { l with enabled := true, wpHigh := true })
  (s1.modReg (lnA g Reg.LN_SIG_STAT) (fun w => (w &&& 0xFFFFC000#32) ||| BitVec.ofNat 32 c)).takeTemp g
/-- The eyes of a trial recorded as the training eyes. -/
def State.keepEyes (s : State) (g : Nat) (t : Trial) : State :=
  let eyes : Tab Word := (List.range 32).foldl (fun m i => Tab.setD (fun _ => 0) m i (eyeWord (t.rx.getD i none) 0)) []
  s.modLane g (fun l => { l with trainEyes := eyes })
/-- A lane fails: its bit in GLB_LANE_FAIL, the R50 state, and its targets back in SDR timing mode 0 (R86, R141, R148). -/
def State.failLane (s : State) (g : Nat) : State :=
  ((s.orReg (Reg.GLB_LANE_FAIL + 4 * (g / 32)) (flag true (g % 32))).modReg (lnA g Reg.LN_SIG_STAT) (fun w => w &&& 0xFFFFC000#32)).modLane
    g (fun l => { l with enabled := false, wpHigh := false, held := none })
/-- LAST_TRAIN of LN_CAL_STAT. -/
def State.lastTrain (s : State) (g v : Nat) : State := s.modReg (lnA g Reg.LN_CAL_STAT) (fun w => putFld w 17 16 v)
/-- One more trained lane in GLB_OPEN_STAT. -/
def State.moreTrained (s : State) : State := s.modGlb (fun x => { x with trained := x.trained + 1 })
/-- The check of R142 over the restored values: each bit's selected sampler and each transmit delay pass at the restored tap and
at the taps MIN_W / 2 on either side. -/
def State.restoredOk (s : State) (g : Nat) (t : Trial) : Bool :=
  let h := fld (s.regAt Reg.CAL_EYE_TH) 13 8 / 2
  let sh := s.shadows g
  let tap (i b : Nat) : Nat := fld (sh.getD (i + b / 4) 0) (8 * (b % 4) + 5) (8 * (b % 4))
  (List.range 8).all (fun b => eyeHolds (t.rx.getD (4 * b + selOf (sh.getD 0 0) b) none) (tap 1 b) h && eyeHolds (t.tx.getD b none) (tap 3 b) h)
/-- Full training over the candidates of a list, tried in order; where none passes the lane has failed (R140, R141). -/
def State.fullTraining (s0 : State) (g : Nat) (l : List (Nat × Trial)) (last : Nat) : State :=
  let s := s0.drive g (cpWalk s0.cpAddr (s0.targetCount g) 0 (s0.tried l))
  match s.walkTrials l with
  | some (c, t) =>
    let v := trialValues (s.regAt (lnA g Reg.LN_RX_SEL)) t
    (((s.laneTrained g c v).keepEyes g t).lastTrain g last).moreTrained
  | none => s.failLane g
/-- The words of a restored lane: the restored values, with the duty correction that step 7 has found at the candidate (R141, R142). -/
def restoredWords (ws : List Word) (t : Trial) (c : Nat) : List Word :=
  if c % 8 < 2 then ws else ws.set 5 (putFld (ws.getD 5 0) 13 8 (fld t.dqs 13 8))
/-- Steps 6 to 12 of a lane (R140 to R142): a restored record whose request is a candidate runs steps 6 and 7 and its check there; a
check that fails, or a request that is no candidate, leads to full training from the first candidate, and a step 7 or 11 that fails
at the request to the candidates after it. -/
def State.finishTraining (s : State) (g : Nat) (trials : List Trial) (restored : Option Trial) : State :=
  let ctl := s.regAt (lnA g Reg.LN_SIG_CTL)
  let cands := s.candList g
  let asked := bit ctl 16
  let req := fld ctl 13 0
  let s0 := s.modLane g (fun l => { l with held := none })
  let tries := cands.zip trials
  let full (s : State) (l : List (Nat × Trial)) : State := s.fullTraining g l (if asked then 3 else 1)
  match restored with
  | some t =>
    if asked ∧ cands.contains req then
      if ¬ trialDuty t req then full s0 (tries.filter (fun e => candAfter req e.1))
      else if ¬ s0.restoredOk g t then full s0 tries
      else if ¬ t.crcOk then full s0 (tries.filter (fun e => candAfter req e.1))
      else ((((s0.drive g (cpWalk s.cpAddr (s.targetCount g) 0 [req])).laneTrained g req (restoredWords (s0.shadows g) t req)).lastTrain
        g 2).moreTrained)
    else full s0 tries
  | none => full s0 tries
/-- Step 1 on a lane (R140, R156): the trims and initial values of its cluster's words of the Characterization Row. -/
def State.laneTrims (s : State) (g : Nat) : State :=
  let w0 := s.regAt (Reg.CHAR_ROW + 4 * (4 + 2 * (g / 8)))
  let w1 := s.regAt (Reg.CHAR_ROW + 4 * (5 + 2 * (g / 8)))
  let dly := dlyWord (fun _ => fld w1 21 16) 0
  let t : Trims := { drvP := w0.extractLsb' 0 6, drvN := w0.extractLsb' 8 6, odt := w0.extractLsb' 16 6, tapTrim := w0.extractLsb' 24 6,
                     vref := w1.extractLsb' 0 8 }
  ((s.setShadows g [0, dly, dly, 0, 0, BitVec.ofNat 32 (fld w1 13 8 <<< 8)]).handOver g).modLane g (fun l => { l with trims := t })
/-- Steps 2 to 5 of a lane: discovery, geometry and candidates; what is left waits in the lane until the hold of R142 ends. A lane
on which no target answers stays as it was; one whose targets are all excluded fails (R119, R140). -/
def State.discover (s : State) (f : LaneFound) : State :=
  let g := f.lane.val
  if f.targets.isEmpty then s
  else
    let query := if bit (s.regAt Reg.CAL_CP_FEAT) 8 then f.targets.flatMap (fun t => cpQuery s.cpAddr t.cpByte) else []
    let s2 := (s.setReg (lnA g Reg.LN_TGT_PRESENT) (targetMask f.targets (fun _ => true))).drive g query
    match lanePages f.targets with
    | none => (s2.setReg (lnA g Reg.LN_TGT_EXCLUDED) (targetMask f.targets (fun _ => true))).failLane g
    | some p =>
      let q := (lunGeo p).clamp
      let kept := f.targets.filter (fun t => tgtKept t p)
      let s3 := s2.setReg (lnA g Reg.LN_TGT_EXCLUDED) (targetMask f.targets (fun t => !tgtKept t p))
      let s4 := ((((s3.setReg (lnA g Reg.LN_GEOM0) q.1.word0).setReg (lnA g Reg.LN_GEOM1) q.1.word1).setReg
        (lnA g Reg.LN_GEOM_STAT) (flag q.2 16 ||| BitVec.ofNat 32 (p.badMax % 65536))).setReg
          (lnA g Reg.LN_RL_GEOM) (BitVec.ofNat 32 ((clog2 q.1.blocks - 6) % 16))).setReg
            (lnA g Reg.LN_FRAME_STAT) (BitVec.ofNat 32 (p.dataBytes + p.spareBytes - 4672 * q.1.frames))
      if kept.isEmpty then s4.failLane g
      else s4.modLane g (fun l =>
        { l with candidates := commonModes kept (bit (s.regAt Reg.CAL_CP_FEAT) 8), held := some (f.trials, f.restored),
                 saved := none })
/-- Every lane that waits after step 5 goes on with steps 6 to 12. -/
def State.trainHeld (s : State) : State :=
  s.laneList.foldl (fun t g => match (t.lane g).held with
    | some (trials, ok) => t.finishTraining g trials ok
    | none => t) s
/-- RESTORED clears on every lane when TRAIN ends (R142). -/
def State.clearRestored (s : State) : State :=
  s.laneList.foldl (fun t g => t.modReg (lnA g Reg.LN_SIG_CTL) (fun w => w &&& 0xFFFEFFFF#32)) s

/-! ### The parameters of a stroke (R168), shadows and the idle point -/

/-- Parameter word k. -/
def pw (p : List Word) (k : Nat) : Word := p.getD k 0
/-- The die of a parameter block: target × 4 + LUN. -/
def pDie (p : List Word) : Nat := fld (pw p 0) 3 0 * 4 + fld (pw p 0) 5 4
/-- The command handle of P3. -/
def pHandle (p : List Word) : Nat := fld (pw p 3) 10 0
/-- A stroke of a command's handle. -/
def Stroke.of (k : Stroke) (h : Nat) : Bool := !k.byBlock && decide (pHandle k.params = h)

/-- No stroke runs on the lane, and none waits with its CE_N released. -/
def Lane.noRun (l : Lane) : Bool := l.run.isNone && l.waiting.isNone
/-- The committed strokes of a lane: queued, running, or waiting with CE_N released. -/
def Lane.committed (l : Lane) : List Stroke := l.strokes ++ (l.run.toList ++ l.waiting.toList).map (·.stroke)
/-- The lane is at an idle point: no stroke running and none committed. -/
def State.idlePoint (s : State) (g : Nat) : Bool := (s.lane g).noRun && (s.lane g).strokes.isEmpty
/-- A change of RB_EN takes effect at an idle point: bit 16 of LN_SIG_STAT holds the value in effect (R155). -/
def State.rbSync (s : State) (g : Nat) : State :=
  if s.idlePoint g then s.modReg (lnA g Reg.LN_SIG_STAT) (fun w => putFld w 16 16 (fld (s.regAt (lnA g Reg.LN_SIG_CTL)) 17 17)) else s
/-- The best sampler of a bit among those other than sel, by widths, the lowest index on ties (R144). -/
def altOf (w : Nat → Nat) (sel : Nat) : Nat :=
  let others := (List.range 4).filter (fun k => k ≠ sel)
  let best := others.foldl (fun m k => max m (w k)) 0
  (others.find? (fun k => w k == best)).getD 0
/-- The eye of a sampler from the last completed run, or from training, as LN_EYE_DATA shows it. -/
def Lane.eye (l : Lane) (b k : Nat) : Word := Tab.getD (fun _ => 0) (if l.widths.isEmpty then l.trainEyes else l.widths) (4 * b + k)
/-- The width of a sampler's last eye. -/
def Lane.eyeW (l : Lane) (b k : Nat) : Nat := fld (l.eye b k) 22 16
/-- The centre of a sampler's last eye. -/
def Lane.eyeC (l : Lane) (b k : Nat) : Nat := (fld (l.eye b k) 5 0 + fld (l.eye b k) 13 8) / 2
/-- The alternate of each bit with its last centre: the widest of the samplers other than the one in use (R144). -/
def Lane.alts (l : Lane) : List (Nat × Nat) :=
  (List.range 8).map (fun b => let k := altOf (l.eyeW b) (selOf (l.active.getD 0 0) b); (k, l.eyeC b k))
/-- The data sources of a pass: each bit's selected sampler and its delay, but the alternate at its last centre for a bit whose
selected sampler the pass measures (R144). -/
def State.passSource (s : State) (g : Nat) (r : CalRun) : List (Nat × Nat) :=
  let a := (s.lane g).active
  (List.range 8).map (fun b =>
    let sel := selOf (a.getD 0 0) b
    if sel = r.step / 64 then r.alt.getD b (0, 0) else (sel, fld (a.getD (1 + b / 4) 0) (8 * (b % 4) + 5) (8 * (b % 4))))
/-- An idle point in the course of a calibration run (R144, R146): a pass that waits for it begins with its data sources, the alternates
chosen against the samplers in use, and the
change of a run that has ended or been abandoned is undone. -/
def State.calPoint (s : State) (g : Nat) : State :=
  if s.idlePoint g then
    match (s.lane g).cal with
    | none => s.modLane g (fun l => { l with source := [] })
    | some r =>
      if r.began then s
      else
        let r1 := { r with began := true, bytes := 0, alt := (s.lane g).alts }
        s.modLane g (fun l => { l with cal := some r1, source := s.passSource g r1 })
  else s
/-- What the lane does on reaching an idle point (R144, R155). -/
def State.idleSync (s : State) (g : Nat) : State := (s.rbSync g).calPoint g
/-- PENDING of LN_CAL_STAT. -/
def State.castPending (s : State) (g : Nat) : Bool := bit (s.regAt (lnA g Reg.LN_CAL_STAT)) 0
/-- PENDING set (R149). -/
def State.setPending (s : State) (g : Nat) : State :=
  s.orReg (lnA g Reg.LN_CAL_STAT) 1#32
/-- A retrain is requested, from the first candidate or at the current one (R145, R148, R154). -/
def State.askRetrain (s : State) (g : Nat) (first : Bool) : State :=
  s.modLane g (fun l => { l with retrainReq := some (first || l.retrainReq.getD false), retrainLater := none,
                                 retrainWait := false })
/-- A calibration run under way is abandoned: nothing is loaded, and its change of the data sources is undone at the next idle point
(R146). -/
def State.dropRun (s : State) (g : Nat) : State := (s.modLane g (fun l => { l with cal := none })).calPoint g
/-- A lane whose cap has fallen below its running rate retrains from the highest candidate (R154); the request of a lane that trained in
OPENING waits for the Scribe's work in SERVICE. -/
def State.capCheck (s : State) (g : Nat) : State :=
  let rate := fld (s.regAt (lnA g Reg.LN_SIG_STAT)) 13 8
  if (s.lane g).enabled ∧ s.capM g < rate then s.askRetrain g true else s

/-! ### Calibration runs (R144 to R146) -/

/-- A run starts, unless one is active (R146); its first pass begins at the next idle point. -/
def State.startRun (s : State) (g : Nat) : State :=
  let l := s.lane g
  if l.cal.isSome ∨ ¬ l.enabled then s
  else
    let r : CalRun := { step := 0, began := false, bytes := 0, alt := l.alts, mism := [], insert := false }
    (s.modLane g (fun l => { l with cal := some r })).calPoint g
/-- The longest run of ok taps, the lower one on ties: its left and right taps (R144). -/
def longestRun (ok : Nat → Bool) : Option (Fin 64 × Fin 64) :=
  let r := (List.range 65).foldl (fun (st : Option Nat × Option (Nat × Nat)) t =>
    match st.1 with
    | some l =>
      if t < 64 ∧ ok t then st
      else
        let better := match st.2 with | some (a, b) => decide (b - a < t - 1 - l) | none => true
        (none, if better then some (l, t - 1) else st.2)
    | none => if t < 64 ∧ ok t then (some t, st.2) else st) (none, none)
  r.2.map (fun e => (Fin.ofNat 64 e.1, Fin.ofNat 64 e.2))
/-- The eye of a sampler of a bit that a finished run measured. -/
def CalRun.eye (r : CalRun) (mismMax b k : Nat) : Option (Fin 64 × Fin 64) :=
  longestRun (fun t => decide (Tab.getD (fun _ => 0) r.mism (b * 256 + k * 64 + t) ≤ mismMax))
/-- The end of a run: the statistics, then the choice of samplers and delays loaded into the shadows, nothing where HOLD
is 1 or a firmware write falls in the load's cycle, or a retrain where a bit has no eye wide enough (R145, R146, R152). MISM of a sampler without a passing tap, which has no centre, is
the count at tap 0 (log entry 105). -/
def State.endRun (s : State) (g : Nat) (r : CalRun) (withWrite : Bool) : State :=
  let th := s.regAt Reg.CAL_EYE_TH
  let eye (b k : Nat) := r.eye (fld th 7 0) b k
  let w (b k : Nat) := eyeWidth (eye b k)
  let data := (List.range 32).foldl (fun m i =>
    let e := eye (i / 4) (i % 4)
    let mm := Tab.getD (fun _ => 0) r.mism ((i / 4) * 256 + (i % 4) * 64 + eyeCentre e)
    Tab.setD (fun _ => 0) m i (eyeWord e mm)) []
  let s1 := (s.modLane g (fun l => { l with cal := none, widths := data })).calPoint g
  let narrow := (List.range 8).any (fun b => (List.range 4).all (fun k => decide (w b k < fld th 13 8)))
  let s2 :=
    if narrow then s1.askRetrain g false
    else if bit (s.regAt (lnA g Reg.LN_CAL_CTL)) 0 then s1
    else if withWrite then s1.orReg (lnA g Reg.LN_CAL_STAT) 0x200#32
    else
      let sel := s.regAt (lnA g Reg.LN_RX_SEL)
      let pick (b : Nat) := chooseSampler (w b) (selOf sel b) (fld th 19 16)
      let dly (b : Nat) := eyeCentre (eye b (pick b))
      (((((s1.setReg (lnA g Reg.LN_RX_SEL) (selWord pick)).setReg (lnA g Reg.LN_RX_DLY0) (dlyWord dly 0)).setReg
        (lnA g Reg.LN_RX_DLY1) (dlyWord dly 1)).setPending g).takeTemp g)
  (s2.count (lnA g Reg.LN_CAL_RUNS)).raise (lnA g 0) 1

end Sys2Proof.Machine
end

