-- ==== Sys2Proof/Machine/Power.lean ====
section
/-! DEFINITION. The commands of the power, reset, fuse, key and scan pins (R53 to R59, R62, R69 to R73). -/
namespace Sys2Proof.Machine
open Sys2Proof

/-- COLD_RESET_ASSERT (R69): RST_PWR_N falls and every flop is reset. -/
def execColdResetAssert (s : State) : Out := .next s.coldScope

/-- COLD_RESET_RELEASE (R69 steps 1 and 2): the synchronised RST_PWR_N is seen high; the always-on side is released,
CLK_RESET_CAUSE reads 0x0000_0001, key sampling is enabled and the fuse load begins. -/
def execColdResetRelease (s : State) : Out :=
  if s.pins.pwrLow ∧ s.pins.scan = .mission then
    .next (((s.modPins (fun p => { p with pwrLow := false })).modFuse (fun f => { f with request := true, addr := 0, tries := 0 })).setReg
      Reg.CLK_RESET_CAUSE 1)
  else idle s

/-- The fuse load ends: well, or with a word that failed three attempts; the repair presets follow (R58, R69 step 3). -/
def State.fuseEnd (s : State) (failed : Bool) : State :=
  (s.modFuse (fun f => { f with request := false, done := true, failed := failed })).presets
/-- An attempt at the fuse word under way fails: it is read again, up to three attempts in all (R58). -/
def State.fuseRetry (s : State) : State :=
  if 2 ≤ s.fuse.tries then s.fuseEnd true else s.modFuse (fun f => { f with tries := f.tries + 1 })

/-- FUSE_ACK (R58): the word of the address held is stored in CHAR_ROW, or read again after a parity error. -/
def execFuseAck (data : Word) (par : BitVec 4) (s : State) : Out :=
  if s.alive ∧ s.fuse.request then
    if wordPar data = par then
      let k := s.fuse.addr
      let s1 := (s.setReg (Reg.CHAR_ROW + 4 * k) data).modFuse (fun f =>
        { f with row := Tab.setD (fun _ => 0) f.row k data, addr := k + 1, tries := 0 })
      .next (if k = 63 then s1.fuseEnd false else s1)
    else .next s.fuseRetry
  else idle s

/-- FUSE_ACK_TIMEOUT (R58): no FUSE_ACK within 1,024 cycles. -/
def execFuseAckTimeout (s : State) : Out := if s.alive ∧ s.fuse.request then .next s.fuseRetry else idle s

/-- CENTRAL_RELEASE (R69 step 4): the central core is released and OPENING is entered. -/
def execCentralRelease (s : State) : Out :=
  if s.alive ∧ ¬ s.pins.warmLow ∧ s.fuse.done ∧ s.glb.mode = .reset ∧ s.glb.prevMode = .reset then done s s.enterOpening
  else idle s

/-- WARM_RESET_ASSERT (R71, R73, R87): the warm reset applies, counts as a failure in OPENING, or waits for ENDGAME. WARM_BUSY
shows in either case that a lane had a stroke running or a die operation outstanding. -/
def execWarmResetAssert (withWarning : Bool) (s : State) : Out :=
  let s1 := s.modPins (fun p => { p with warmLow := true })
  if ¬ s.alive then .next s1
  else if s.glb.mode = .endgame ∨ (withWarning ∧ s.glb.mode ≠ .reset) then
    .next (s1.modGlb (fun g => { g with warmWait := true }))
  else if s.glb.mode = .opening then
    .next (((s1.countFailure .resetInOpening).failReset.modGlb (fun g => { g with resetCounted := true, restartWait := false })).orReg
      Reg.CLK_RESET_CAUSE (flag true 1 ||| flag (s.laneList.any s.laneBusy) 3))
  else if s.glb.mode = .reset then
    let waited := s.glb.restartWait
    .next (s1.applyWarm.modGlb (fun g => { g with restartWait := false, resetCounted := g.resetCounted || waited }))
  else .next s1.applyWarm

/-- KEK_SAMPLE (R59): the key is latched at the first edge with KEK_VALID and correct parity, once per cold reset. -/
def execKekSample (data : BitVec 256) (par : BitVec 32) (s : State) : Out :=
  if s.alive ∧ s.fuse.kek = none ∧ parOk 32 data par then .next (s.modFuse (fun f => { f with kek := some data })) else idle s

/-- The lanes that have set commands aside until MEDIA has room, among those named, have them as candidates again (R217, R400). -/
def State.mediaRoom (s : State) (f : Nat → Bool) : State :=
  (s.lanes.filter (fun e => e.2.mediaWait && f e.1)).foldl (fun t e => t.modLane e.1 (fun l => { l with mediaWait := false })) s
/-- SCAN_MODE_RISE (R62): the key store, the KEK and every slab are zeroised, and the block enters RESET. -/
def execScanModeRise (s : State) : Out :=
  if s.pins.scan = .mission then
    let s1 := (if s.glb.mode = .reset then s else s.toMode .reset)
    .next ({ s1 with slabs := [] }.modFuse (fun f => { f with kek := none })
      |>.modKeys (fun k => { k with slots := [], load := none })
      |>.modPins (fun p => { p with scan := .shifting }))
  else .next (s.modPins (fun p => { p with scan := .shifting }))

/-- SCAN_MODE_FALL (R62): the block stays in RESET with undefined outputs until a cold reset. -/
def execScanModeFall (s : State) : Out :=
  if s.pins.scan = .shifting then .next (s.modPins (fun p => { p with scan := .spoiled })) else idle s

end Sys2Proof.Machine
end

