-- ==== Sys2Proof/Machine/Ledger.lean ====
section
/-! DEFINITION. The Energy Ledger and the thermal limits (R393 to R408, R417, R442). -/
namespace Sys2Proof.Machine
open Sys2Proof

/-! ### Cost tables (R393, R395) -/

/-- The cost table of a lane. -/
def State.costTable (s : State) (g : Nat) : Nat := fld (s.regAt (Reg.LG_TSEL + 4 * (g / 16))) (2 * (g % 16) + 1) (2 * (g % 16))
/-- The key of cost word n (0 SENSE, 1 PROG, 2 ERASE, 3 XF, 4 MEDIA) of a table. -/
def costKey (table n : Nat) : Nat := winKey (Reg.LG_COST_SENSE + 4 * n) table
/-- A cost word: its reset value while it is in parity error (R395). -/
def State.costWord (s : State) (table n : Nat) : Word :=
  if s.ledger.costBad.contains (costKey table n) then regReset (costKey table n) else s.regAt (costKey table n)
/-- ⌈bytes × XFER / 1,024⌉ of a table. -/
def State.xferCost (s : State) (table bytes : Nat) : Nat := (bytes * fld (s.costWord table 3) 15 0 + 1023) / 1024
/-- Kinds of charge (R393). -/
inductive Charge where
  | read | raw | program | erase | identify | free
  deriving DecidableEq, Repr
/-- The BLOCK charge of a kind on a lane's table, for P planes and F frames over all planes. -/
def State.chargeOf (s : State) (table : Nat) (k : Charge) (p f : Nat) : Nat :=
  let sense := fld (s.costWord table 0) 23 0
  let x := s.xferCost table (4672 * f)
  let frame := fld (s.costWord table 3) 31 16
  match k with
  | .read => p * sense + x + f * frame
  | .raw => p * sense + x
  | .program => p * fld (s.costWord table 1) 23 0 + x + f * frame
  | .erase => p * fld (s.costWord table 2) 23 0
  | .identify => sense + s.xferCost table 776
  | .free => 0
/-- The MEDIA units of a kind. -/
def State.unitsOf (s : State) (table : Nat) (k : Charge) : Nat :=
  match k with
  | .program => fld (s.costWord table 4) 7 0
  | .erase => fld (s.costWord table 4) 15 8
  | _ => 0

/-! ### Accounts (R396 to R400, R408) -/

/-- LG_RES_MAX in nJ. -/
def State.resMax (s : State) : Int := 1000 * (min 2000000000 (s.regAt Reg.LG_RES_MAX).toNat)
/-- PREMIUM in sixteenths. -/
def State.premium (s : State) : Int := fld (s.regAt Reg.LG_PERIOD) 27 24
/-- Pay e nJ from the BLOCK account (R398 pay), counted as charged energy. -/
def State.pay (s : State) (e : Nat) : State :=
  s.modLedger (fun l =>
    let a : Int := min (e : Int) l.credit
    { l with credit := l.credit - a,
             reserve := max (-s.resMax) (l.reserve - (((e : Int) - a) * (16 + s.premium)).tdiv 16),
             energy := l.energy + e, msCharge := l.msCharge + e })
/-- USE_t raised. -/
def State.addUse (s : State) (t e : Nat) : State :=
  s.modLedger (fun l => { l with use := Tab.setD (fun _ => 0) l.use t (Tab.getD (fun _ => 0) l.use t + e) })
/-- USE_t and lim[t]. -/
def State.useOf (s : State) (t : Nat) : Nat := Tab.getD (fun _ => 0) s.ledger.use t
/-- lim[t]. -/
def State.limOf (s : State) (t : Nat) : Nat := Tab.getD (fun _ => 0) s.ledger.lim t
/-- A late charge, added to the owning instance's USE, if any (R394). Outside SERVICE, THRIFT and FALLBACK none is made
(R396). -/
def State.lateCharge (s : State) (inst : Option Nat) (e : Nat) : State :=
  if s.running then
    match inst with
    | some t => (s.pay e).addUse t e
    | none => s.pay e
  else s
/-- SENSE + ⌈4,672 × XFER / 1,024⌉ of a lane's table (R394). -/
def State.senseCost (s : State) (g : Nat) : Nat := fld (s.costWord (s.costTable g) 0) 23 0 + s.xferCost (s.costTable g) 4672
/-- FRAME of a lane's table (R394). -/
def State.frameCost (s : State) (g : Nat) : Nat := fld (s.costWord (s.costTable g) 3) 31 16
/-- The late charge of a soft, Gambit-step or repeated sensing of a command on a lane, made as its frame arrives (R394; log entry 129). -/
def State.chargeSense (s : State) (g h : Nat) : State := s.lateCharge ((s.cmd? (g / 8) h).map (·.owner)) (s.senseCost g)
/-- The late charge of an HDE re-feed, an SDE decode or a Gambit-step decode of a command on a lane (R394; log entry 129). -/
def State.chargeFrame (s : State) (g h : Nat) : State := s.lateCharge ((s.cmd? (g / 8) h).map (·.owner)) (s.frameCost g)

/-- The answers of an ask (R217). -/
inductive Answer where
  | admitted | waitTenant | waitMedia | waitBlock
  deriving DecidableEq, Repr
/-- The thermal stop of R404: CRIT anywhere, or TRIP in FALLBACK. -/
def State.thermalStop (s : State) : Bool := s.ledger.critStop || (decide (s.glb.mode = .fallback) && s.ledger.tripStop)
/-- A count of one of the three WAIT answers. -/
def State.countWait (s : State) (a : Answer) (t r : Nat) : State :=
  match a with
  | .waitTenant => s.count (winKey Reg.LG_TN_WAITS t)
  | .waitMedia => s.count (rgA r Reg.RG_MEDIA_WAITS)
  | .waitBlock => s.count Reg.LG_WAIT_BLOCK
  | .admitted => s
/-- The answer to an ask: charge e, units u, instance t, region r, and whether HOLDUP_OK holds the command back (R398,
R442). -/
def State.answerAsk (s : State) (e u t r : Nat) (held : Bool) : Answer :=
  let avail := s.ledger.credit + (max 0 s.ledger.reserve * 16).tdiv (16 + s.premium)
  if s.thermalStop then .waitBlock
  else if t ≠ 511 ∧ s.limOf t ≤ s.useOf t then .waitTenant
  else if held ∧ ¬ s.pins.holdup then .waitMedia
  else if (s.region r).blocked ∧ (0 < u ∨ held) then .waitMedia
  else if 0 < u ∧ fld (s.regAt (rgA r Reg.RG_MEDIA_LIMIT)) 15 0 < (s.region r).used + u then .waitMedia
  else if bit (s.regAt Reg.LG_CTL) 0 ∧ avail < (e : Int) then .waitBlock
  else .admitted
/-- A residue mismatch of CREDIT or RESERVE: both zero, a record and the page's bit (R408). -/
def State.creditResidue (s : State) : State :=
  ((s.modLedger (fun l => { l with credit := 0, reserve := 0 })).raise 0x3000 3).blot 0x3000 0x0D none [1#32]
/-- A program or an erase is in flight in a region: one of a command, of a seal copy, or an erase of the sanitize (R400, R408). -/
def State.mediaBusy (s : State) (r : Nat) : Bool :=
  s.cmds.any (fun e => match e.2 with
    | some c => decide (c.lane / 64 = r ∧ (0 < c.units ∨ (c.claimed ∧ c.result.isNone ∧ c.stage ≠ .ready)))
    | none => false) ||
  (match s.keys.sanit with
    | some z => z.running.any (fun e => decide (e.1 / 4096 = r))
    | none => false) ||
  (match s.keys.job with
    | some j => decide (j.region = r ∧ (j.step = .erasing ∨ j.step = .programming))
    | none => false)
/-- What a check of the Ledger's values finds, with its effect (R353, R395, R408); table names the cost table in use. -/
def State.upset (s : State) (u : Upset) (table : Nat) : State :=
  match u with
  | .none => s
  | .credit => s.creditResidue
  | .use t =>
    ((s.modLedger (fun l => { l with use := Tab.setD (fun _ => 0) l.use t.val (Tab.getD (fun _ => 0) l.lim t.val) })).raise
      0x3000 3).blot 0x3000 0x0D none [2#32, BitVec.ofNat 32 t.val]
  | .used r =>
    ((s.modRegion r.val (fun x => if s.mediaBusy r.val then { x with blocked := true } else { x with used := 0 })).raise 0x3000 3).blot 0x3000 0x0D none [3#32, BitVec.ofNat 32 r.val]
  | .cost n =>
    let k := costKey table n.val
    ((s.modLedger (fun l => { l with costBad := if l.costBad.contains k then l.costBad else l.costBad ++ [k] })).raise 0x3000 4).blot
      0x3000 0x17 none [3#32, BitVec.ofNat 32 (5 * table + n.val)]
/-- An ask: an opportunity of the LG page's point, the answer, and on ADMIT the charge, the use and the units (R398). -/
def State.ask (s : State) (e u t r : Nat) (held : Bool) : State × Answer :=
  let o := s.opportunity 0x3000 0
  let s1 := if (fired o.2 11).isSome then o.1.creditResidue else o.1
  let a := s1.answerAsk e u t r held
  match a with
  | .admitted => (((s1.pay e).addUse t e).modRegion r (fun x => { x with used := x.used + u }), .admitted)
  | _ => (s1.countWait a t r, a)
/-- MEDIA units released in a region (R400); a region held under R408 restarts at zero once nothing is in flight. -/
def State.releaseUnits (s : State) (r u : Nat) : State :=
  if u = 0 ∧ ¬ (s.region r).blocked then s
  else
    let s1 := s.modRegion r (fun x =>
      if x.blocked ∧ ¬ s.mediaBusy r then { x with used := 0, blocked := false } else { x with used := x.used - u })
    s1.mediaRoom (fun g => decide (g / 64 = r))

/-- The effective allowance of R403 from the latest sample and LG_ALLOW. -/
def State.effAllowance (s : State) : Nat :=
  let w := s.regAt Reg.LG_ALLOW
  let req := if s.pins.capReq = 0 then fld w 15 0 else s.pins.capReq.toNat
  max (fld w 31 16) (min (fld w 15 0) req)
/-- SHARE of an instance: 1,024 for the Manager, and at most 1,024. -/
def State.share (s : State) (t : Nat) : Nat :=
  if t = 511 then 1024 else min 1024 (fld (s.regAt (winKey Reg.LG_TN_SHARE t)) 10 0)
/-- The accounts at a refill (R397). -/
def State.refill (s : State) : State :=
  let w := s.regAt Reg.LG_PERIOD
  let t : Int := (atLeast1 (fld w 23 16) : Nat)
  let st : Int := (fld w 15 0 : Nat)
  let a := s.effAllowance
  let standing := fld w 15 0 * atLeast1 (fld w 23 16)
  let oper := (max 0 ((a : Int) - st) * t).toNat
  let r0 := min s.resMax (s.ledger.reserve + max 0 s.ledger.credit)
  let c0 := ((a : Int) - st) * t
  let r1 := if c0 < 0 then r0 + c0 else r0
  let lims : Tab Nat := (List.range 511).filterMap (fun i =>
    let v := s.share i * oper / 1024
    if v = 0 then none else some (i, v))
  s.modLedger (fun l =>
    { l with reserve := max r1 (-s.resMax), credit := max 0 c0, lim := lims, lastRate := oper, effAllow := a,
             use := l.use.filterMap (fun e =>
               if e.1 = 511 then some e
               else
                 let v := e.2 - Tab.getD (fun _ => 0) lims e.1
                 if v = 0 then none else some (e.1, v)),
             energy := l.energy + standing, msCharge := l.msCharge + standing })
/-- Commands set aside until a refill are candidates again, and lanes whose selection had stopped go on (R217). -/
def State.refillRoom (s : State) : State :=
  (s.lanes.filter (fun e => e.2.blockWait || !e.2.tenantWait.isEmpty)).foldl (fun t e =>
    t.modLane e.1 (fun l => { l with blockWait := false, tenantWait := [] })) s

/-- LEDGER_REFILL (R397): unspent credit is banked, the period's credit and the limits are set, and the commands that
wait for a refill are candidates again. -/
def execLedgerRefill (upset : Upset) (s : State) : Out :=
  if s.working then done s ((s.upset upset 0).refill.refillRoom) else idle s

/-- SHARE_WRITE (R397): a write of LG_TN_SHARE recomputes the limit of that instance at once; the Manager's ignores it. -/
def execShareWrite (a : RpAcc) (s : State) : Out :=
  done s (s.portWrite Reg.LG_TN_SHARE a (fun locked s =>
    let t := fld (s.regAt Reg.LG_TN_SEL) 8 0
    if t = 511 then s
    else
      let s1 := s.writeRow Reg.LG_TN_SHARE locked a.data
      s1.modLedger (fun l => { l with lim := Tab.setD (fun _ => 0) l.lim t (s1.share t * l.lastRate / 1024) })))

/-! ### Thermal levels, reconciliation and THRIFT (R402 to R407) -/

/-- The TRIP code: values above 580 act as 580. -/
def State.tripCode (s : State) : Nat := min 580 (fld (s.regAt Reg.THM_LEVELS) 9 0)
/-- The CRIT code: values below TRIP act as TRIP. -/
def State.critCode (s : State) : Nat := max s.tripCode (fld (s.regAt Reg.THM_LEVELS) 25 16)
/-- HYST. -/
def State.thmHyst (s : State) : Nat := fld (s.regAt Reg.THM_WARN) 7 0
/-- The codes of the present regions; 0x3FF counts as at TRIP and below CRIT (R404). -/
def State.codes (s : State) : List Nat :=
  let c (x : BitVec 10) := if x = 0x3FF#10 then s.tripCode else x.toNat
  if s.nRegions = 2 then [c s.pins.therm0, c s.pins.therm1] else [c s.pins.therm0]
/-- Whether a code, as read, is at CRIT: 0x3FF is below it. -/
def State.atCrit (s : State) : Bool :=
  let hot (x : BitVec 10) := decide (x ≠ 0x3FF#10 ∧ s.critCode ≤ x.toNat)
  hot s.pins.therm0 || (decide (s.nRegions = 2) && hot s.pins.therm1)
/-- The CRIT stop, evaluated each CLK_AON cycle (R404). -/
def State.evalCrit (s : State) : State :=
  if s.atCrit then (s.modLedger (fun l => { l with critStop := true })).raise 0x4000 3
  else if s.codes.all (fun c => decide (c < s.critCode - s.thmHyst)) then s.modLedger (fun l => { l with critStop := false })
  else s
/-- THM_MAX keeps the highest codes since it was last read, 0x3FF excluded. -/
def State.keepMax (s : State) : State :=
  let up (w : Word) (hi lo : Nat) (c : BitVec 10) : Word := if c = 0x3FF#10 then w else putFld w hi lo (max (fld w hi lo) c.toNat)
  s.modReg Reg.THM_MAX (fun w =>
    let w1 := up w 9 0 s.pins.therm0
    if s.nRegions = 2 then up w1 25 16 s.pins.therm1 else w1)

/-- THERM_CODE_UPDATE (R57, R404): the codes are taken, CRIT is evaluated, and a reading of 105 °C or more wakes a dozed
block (R76). -/
def execThermCodeUpdate (code0 code1 : BitVec 10) (s : State) : Out :=
  if s.alive then
    let s1 := s.modPins (fun p => { p with therm0 := code0, therm1 := code1 })
    if s.pins.warmLow ∨ s.glb.mode = .reset then .next s1
    else
      let hot := 580 ≤ code0.toNat ∨ (s.nRegions = 2 ∧ 580 ≤ code1.toNat)
      let s2 := if hot then s1.wakeBlock else s1
      done s (if s2.signal.blockDozed then s2 else s2.keepMax.evalCrit)
  else idle s

/-- Reconciliation at a millisecond edge (R402); the estimate restarts at every edge. -/
def State.reconcile (s : State) (meas : BitVec 16) : State :=
  let s1 := s.modLedger (fun l => { l with msCharge := 0 })
  if bit (s.regAt Reg.LG_CTL) 1 ∧ meas ≠ 0xFFFF#16 then
    let d : Int := 1000 * (meas.toNat : Int) - s.ledger.msCharge
    let tol : Int := (1000 * (fld (s.regAt Reg.LG_RECON) 15 0) : Nat)
    let s2 := s1.modLedger (fun l =>
      if tol < d then { l with reserve := max (-s.resMax) (l.reserve - (d - tol)) }
      else if d < -tol then { l with reserve := min s.resMax (l.reserve + (-d - tol)) }
      else l)
    s2.setReg Reg.LG_RECON_LAST (BitVec.ofInt 32 (d.tdiv 1000))
  else s1
/-- THM_HOT0 and THM_HOT1 count the milliseconds at or above WARN, in the always-on domain (R404). -/
def State.countHot (s : State) : State :=
  let warn := fld (s.regAt Reg.THM_WARN) 25 16
  let s1 := if warn ≤ s.codes.getD 0 0 then s.count Reg.THM_HOT0 else s
  if s.nRegions = 2 ∧ warn ≤ s.codes.getD 1 0 then s1.count Reg.THM_HOT1 else s1
/-- WARN and TRIP at a millisecond edge (R404): the hot counters, the page's bits, and the trip of FALLBACK. -/
def State.evalWarn (s : State) : State :=
  let warn := fld (s.regAt Reg.THM_WARN) 25 16
  let s2 := s.countHot
  let s3 := if s.codes.any (fun c => decide (warn ≤ c)) then s2.raise 0x4000 1 else s2
  if s.codes.any (fun c => decide (s.tripCode ≤ c)) then
    (s3.raise 0x4000 2).modLedger (fun l => { l with tripStop := true })
  else if s.codes.all (fun c => decide (c < s.tripCode - s.thmHyst)) then s3.modLedger (fun l => { l with tripStop := false })
  else s3
/-- The entry causes that hold: bit 0 THERM, bit 1 ALLOW, bit 2 DEBT (R405). -/
def State.thriftCauses (s : State) : Nat :=
  let pw := s.regAt Reg.LG_THRIFT_PWR
  (if s.codes.any (fun c => decide (s.tripCode ≤ c)) then 1 else 0) + (if s.ledger.effAllow < fld pw 15 0 then 2 else 0) +
    (if atLeast1 (fld (s.regAt Reg.LG_THRIFT_TIME) 15 8) ≤ s.ledger.debtMs then 4 else 0)
/-- The exit conditions of R405 hold at this edge. -/
def State.thriftClear (s : State) : Bool :=
  s.codes.all (fun c => decide (c < s.tripCode - s.thmHyst)) &&
    decide (fld (s.regAt Reg.LG_THRIFT_PWR) 31 16 ≤ s.ledger.effAllow ∧ 0 ≤ s.ledger.reserve)
/-- A lane on exit from THRIFT: trained and below its first candidate, it retrains (R406). -/
def State.exitRetrain (s : State) (g : Nat) : State :=
  let rate := fld (s.regAt (lnA g Reg.LN_SIG_STAT)) 13 8
  if (s.lane g).enabled ∧ rate < candRate ((s.candList g).headD 0) then s.askRetrain g true else s
/-- The lane cap of THRIFT is taken from RATE_M at an evaluation; lanes above it retrain (R406, R407). -/
def State.takeRate (s : State) : State :=
  let m := atLeast1 (fld (s.regAt Reg.LG_THRIFT_TIME) 5 0)
  if m = s.ledger.rateM then s
  else
    let s1 := s.modLedger (fun l => { l with rateM := m })
    s1.laneList.foldl State.capCheck s1
/-- THRIFT entry and exit at a millisecond edge (R405 to R407). -/
def State.thriftEdge (s : State) : State :=
  let s0 := s.modLedger (fun l => { l with debtMs := if l.reserve < 0 then l.debtMs + 1 else 0 })
  let causes := s0.thriftCauses
  if s0.glb.mode = .service ∧ causes ≠ 0 then
    let s1 := s0.modLedger (fun l => { l with causes := causes, clearMs := 0, rateM := 0 })
    (((s1.toMode .thrift).count Reg.LG_THRIFT_COUNT).raise 0x3000 1).takeRate
  else if s0.glb.mode = .thrift then
    let n := if causes ≠ 0 ∨ ¬ s0.thriftClear then 0 else s0.ledger.clearMs + 1
    let s1 := s0.modLedger (fun l => { l with clearMs := n })
    if 0 < n ∧ atLeast1 (fld (s1.regAt Reg.LG_THRIFT_TIME) 31 16) ≤ n then
      let s2 := (((s1.modLedger (fun l => { l with clearMs := 0 })).toMode .service).raise 0x3000 2)
      if bit (s2.regAt Reg.LG_CTL) 2 then s2.laneList.foldl State.exitRetrain s2 else s2
    else s1.takeRate
  else s0
/-- The temperature trigger of a lane at a millisecond edge (R147). -/
def State.tempTrigger (s : State) (g : Nat) : State :=
  let d := fld (s.regAt Reg.CAL_TEMP_DELTA) 7 0
  let code := (s.edgeCode g)
  let old := fld (s.regAt (lnA g Reg.LN_CAL_TEMP)) 9 0
  let diff := max code.toNat old - min code.toNat old
  if d ≠ 0 ∧ code ≠ 0x3FF#10 ∧ d < diff ∧ ¬ (s.cluster (g / 8)).dozed then s.startRun g else s

/-- MILLISECOND_EDGE (R55, R56): the power samples, then reconciliation, the thermal levels, THRIFT, and the lanes'
temperature triggers (R402, R404, R405, R147, R154). -/
def execMillisecondEdge (meas cap : BitVec 16) (s : State) : Out :=
  if s.alive then
    let s1 := s.modPins (fun p => { p with capReq := cap, edge0 := p.therm0, edge1 := p.therm1 })
    if s.awake then
      let s2 := (s1.reconcile meas).evalWarn
      let s3 := if s.serving then s2.thriftEdge else s2
      done s (if s.running ∨ s.glb.mode = .opening then s3.laneList.foldl State.tempTrigger s3 else s3)
    else .next s1.countHot
  else idle s

end Sys2Proof.Machine
end

