-- ==== Sys2Proof/Machine/Cache.lean ====
section
/-! DEFINITION. The Context Cache (R311 to R331). A lookup that an operation makes is answered within its step where the cache holds the
line. Where it does not, the step makes that lookup alone: it takes a miss register and issues its fill or its write-around, and the
operation is made again once it has been answered (R316, R317; log entry 10). -/
namespace Sys2Proof.Machine
open Sys2Proof

/-! ### Host memory behind the cache (R312) -/

/-- Size of the store in bytes; above 1,024 MiB acts as 1,024. -/
def State.ccSize (s : State) : Nat := 2 ^ 20 * (min 1024 (fld (s.regAt Reg.CC_SIZE) 10 0))
/-- CC_BASE. -/
def State.ccBase (s : State) : Nat :=
  2 ^ 32 * (fld (s.regAt Reg.CC_BASE_HI) 19 0) + 2 ^ 20 * (fld (s.regAt Reg.CC_BASE_LO) 31 20)
/-- The beat of host memory at a 128-byte-aligned address. -/
def State.hostBeat (s : State) (a : Nat) : Beat :=
  BitVec.ofNat 1024 (leNat ((List.range 128).map (fun k => Tab.getD (fun _ => 0) s.store (a + k))))
/-- Bytes written to host memory from an address on. -/
def State.hostBytes (s : State) (a : Nat) (bytes : List Byte) : State :=
  { s with store := (bytes.foldl (fun (t : Tab Byte × Nat) b => (Tab.setD (fun _ => 0) t.1 t.2 b, t.2 + 1)) (s.store, a)).1 }
/-- A beat written to host memory under strobes. -/
def State.hostPut (s : State) (a : Nat) (b : Beat) (strb : BitVec 128) : State :=
  { s with store := (List.range 128).foldl (fun t k =>
      if strb.getLsbD k then Tab.setD (fun _ => 0) t (a + k) (byteAt b k) else t) s.store }
/-- The host address of a line. -/
def State.lineAddr (s : State) (tag : Nat) : Nat := s.ccBase + tag * 128
/-- The host port of a line: bits [8:7] of its address (R19, R312). -/
def State.linePort (_ : State) (tag : Nat) : Nat := tag % 4
/-- A line with some of its bytes replaced from an offset on. -/
def putBytes (d : BitVec 1024) (off : Nat) (bytes : List Byte) : BitVec 1024 :=
  let m : BitVec 1024 := BitVec.ofNat 1024 ((2 ^ (8 * bytes.length) - 1) <<< (8 * off))
  (d &&& ~~~ m) ||| BitVec.ofNat 1024 (leNat bytes <<< (8 * off))

/-! ### Ways (R311, R315) -/

/-- The line in a way. -/
def Cache.way (c : Cache) (k : Nat) : Option Line := Tab.getD (fun _ => none) c.ways k
/-- The cache with a way changed. -/
def Cache.setWay (c : Cache) (k : Nat) (l : Option Line) : Cache := { c with ways := Tab.setD (fun _ => none) c.ways k l }
/-- The way that holds a line, if any. -/
def Cache.wayOf (c : Cache) (tag : Nat) : Option Nat :=
  ((List.range 16).map (fun w => (tag % 2048) * 16 + w)).find? (fun k =>
    match c.way k with | some l => l.tag == tag | none => false)
/-- The victim entry that holds a line, if any: its index. -/
def Cache.victimOf (c : Cache) (tag : Nat) : Option Nat := c.victims.findIdx? (fun v => v.line.tag == tag)
/-- Locked ways of a set. -/
def Cache.lockedIn (c : Cache) (set : Nat) : Nat :=
  ((List.range 16).filter (fun w => match c.way (set * 16 + w) with | some l => l.lock | none => false)).length
/-- The way of a set that a fill replaces, with the ages that the choice leaves (R315). -/
def Cache.choose (c : Cache) (set : Nat) : Nat × Cache :=
  let cand := ((List.range 16).map (fun w => set * 16 + w)).filter (fun k =>
    match c.way k with | some l => !l.lock | none => true)
  match cand.find? (fun k => (c.way k).isNone) with
  | some k => (k, c)
  | none =>
    let age (k : Nat) : Nat := match c.way k with | some l => l.age | none => 0
    let up := 3 - cand.foldl (fun m k => max m (age k)) 0
    let c1 := cand.foldl (fun t k => t.setWay k ((t.way k).map (fun l => { l with age := l.age + up }))) c
    ((cand.find? (fun k => decide (age k + up = 3))).getD (set * 16), c1)

/-! ### Victims and write-backs (R318) -/

/-- The write-back of a line is issued on its port. -/
def State.issueWb (s : State) (tag : Nat) (d : BitVec 1024) : State :=
  (s.hpPush (s.linePort tag) { (oneBeat (s.lineAddr tag) [] 2 (.ccWriteback tag)) with
    beats := [wbeat d (BitVec.allOnes 128)], count := 128 }).count Reg.CC_WRITEBACKS
/-- A victim entry changed. -/
def State.modVictim (s : State) (i : Nat) (f : Victim → Victim) : State :=
  s.modCache (fun c => { c with victims := c.victims.modify i f })
/-- The write-back of a victim entry is issued: the entry waits for its status, clean. -/
def State.startWb (s : State) (i : Nat) (keep : Bool) : State :=
  match s.cache.victims[i]? with
  | some v =>
    (s.modVictim i (fun v => { v with line := { v.line with dirty := false }, writing := true, keep := keep, reply := none })).issueWb
      v.line.tag v.line.data
  | none => s
/-- The head of a full victim cache leaves: clean entries are dropped and dirty ones are written back, in order of entry,
until an entry is free. Held, poisoned and waiting entries stay. -/
def State.victimRoom (s : State) : State :=
  (List.range s.cache.victims.length).foldl (fun t i =>
    if t.cache.victims.length < 32 then t
    else match t.cache.victims[i]? with
      | some v =>
        if v.writing ∨ v.failed ∨ v.line.poison then t
        else if v.line.dirty then t.startWb i false
        else t.modCache (fun c => { c with victims := c.victims.eraseIdx i })
      | none => t) s
/-- An entry of the victim cache with a line, whose write-back is not issued. -/
def Victim.of (l : Line) : Victim := { line := l, writing := false, failed := false, keep := false, back := false, reply := none }
/-- A replaced line enters the victim cache: at the tail, or with STREAM set dropped when clean and at the head when dirty (R318). Where
a copy of it is being written back, that entry becomes the line's. -/
def State.toVictim (s : State) (l : Line) : State :=
  if l.stream ∧ ¬ l.dirty then s
  else match s.cache.victimOf l.tag with
  | some i => s.modVictim i (fun v => { v with line := l, keep := true })
  | none => s.modCache (fun c => { c with victims := if l.stream then Victim.of l :: c.victims else c.victims ++ [Victim.of l] })
/-- A line can enter the victim cache: it needs no entry of its own, or one is free. -/
def State.victimFits (s : State) (l : Line) : Bool :=
  (l.stream && !l.dirty) || (s.cache.victimOf l.tag).isSome || decide (s.cache.victims.length < 32)
/-- A line is installed, where the way it replaces can be given up; else it waits for a free entry of the victim cache (R318). -/
def State.install (s : State) (l : Line) : State × Bool :=
  let r := s.cache.choose (l.tag % 2048)
  match s.cache.way r.1 with
  | none => (s.modCache (fun _ => r.2.setWay r.1 (some l)), true)
  | some old =>
    let s1 := if s.victimFits old then s else s.victimRoom
    if s1.victimFits old then
      let c1 := (s1.cache.choose (l.tag % 2048)).2
      (((s1.modCache (fun _ => c1.setWay r.1 none)).toVictim (((c1.way r.1).getD old))).modCache (fun c => c.setWay r.1 (some l)), true)
    else (s1, false)
/-- An operation waits for a line: a fill, a write status, or a free victim entry (R318, R321). -/
def State.jobWait (s : State) (tag : Nat) : State :=
  s.modCache (fun c => { c with job := c.job.map (fun j => { j with waits := if j.waits.contains tag then j.waits else j.waits ++ [tag] }) })
/-- A dirty line of a way is written back through a victim entry and left clean, or, with stay false, dropped from its way. With its
earlier write-back outstanding the next one follows that; with no entry free the line waits, dirty (R318, R320, R325). -/
def State.copyBack (s : State) (k : Nat) (l : Line) (stay : Bool) : State :=
  let after (t : State) : State := t.modCache (fun c => c.setWay k (if stay then some { l with dirty := false } else none))
  match s.cache.victimOf l.tag with
  | some i => (after s).modVictim i (fun v => { v with line := { l with dirty := true, lock := l.lock && stay }, drop := !stay })
  | none =>
    let s1 := if s.cache.victims.length < 32 then s else s.victimRoom
    if s1.cache.victims.length < 32 then
      let s2 := (after s1).modCache (fun c =>
        { c with victims := c.victims ++ [{ Victim.of { l with dirty := true, lock := l.lock && stay } with drop := !stay }] })
      s2.startWb (s2.cache.victims.length - 1) false
    else (s1.modCache (fun c => c.setWay k (some { l with dirty := true }))).jobWait l.tag

/-! ### Lookups (R314, R315, R327 to R330) -/

/-- What a lookup of a cached line answers. -/
inductive Served where
  | miss | storeErr | data (b : Beat)
  deriving DecidableEq, Repr
/-- An uncorrectable word in a dirty line: POISON, its offset recorded, a record, and its row (R329, R356). -/
def State.poisonMark (s : State) (tag : Nat) : State :=
  ((s.setReg Reg.CC_POISON_ADDR (BitVec.ofNat 32 (tag * 128))).raise 0x9000 3).blot 0x9000 0x06 none [BitVec.ofNat 32 (tag * 128)]
/-- An uncorrectable data word in a way: a clean line is dropped, a dirty one poisoned, and the row qualifies for a remap (R329, R356). -/
def State.wayUncorr (s : State) (k : Nat) : State :=
  match s.cache.way k with
  | some l =>
    (if l.dirty then (s.modCache (fun c => c.setWay k (some { l with poison := true }))).poisonMark l.tag
      else s.modCache (fun c => c.setWay k none)).uncorrRow (ccRow (k / 16) (k % 16)).1 (ccRow (k / 16) (k % 16)).2
  | none => s
/-- An uncorrectable data word in a victim entry: a clean one is dropped, one that is dirty, or whose bytes are not known to have
reached the host, poisoned (R329); while DISABLED only an entry held under R328 is looked up. -/
def State.victimUncorr (s : State) (i tag : Nat) : State :=
  match s.cache.victims[i]? with
  | some v =>
    if s.cache.st = .disabled ∧ ¬ v.failed then s
    else if v.line.dirty ∨ v.writing ∨ v.failed then
      (s.modVictim i (fun v => { v with line := { v.line with poison := true } })).poisonMark tag
    else s.modCache (fun c => { c with victims := c.victims.eraseIdx i })
  | none => s
/-- A parity error in a way's tag or state drops the way (R330). -/
def State.tagParity (s : State) (k : Nat) : State :=
  (((s.modCache (fun c => c.setWay k none)).setReg Reg.CC_TAG_ERR
    (BitVec.ofNat 32 (0x80000000 + 65536 * (k % 16) + k / 16))).raise 0x9000 4).blot 0x9000 0x07 none
      [BitVec.ofNat 32 (k / 16), BitVec.ofNat 32 (k % 16)]
/-- A store's bytes applied to a line; a load leaves it. -/
def Line.apply (l : Line) (q : CcLookup) (o : Nat) : Line :=
  if q.bytes.isEmpty then l else { l with data := putBytes l.data o q.bytes, dirty := true }
/-- A hit's effect on the replacement state: AGE 0 and STREAM cleared, unless the lookup streams (R315). -/
def Line.hit (l : Line) (q : CcLookup) : Line := if q.streaming then l else { l with age := 0, stream := false }
/-- A lookup that hits a way. While DRAINING a store is written back at once and the line stays clean (R325). -/
def State.hitWay (s : State) (k o : Nat) (l : Line) (q : CcLookup) : State × Served :=
  let l1 := (l.apply q o).hit q
  let s1 := s.count Reg.CC_HITS
  (if s.cache.st = .draining ∧ ¬ q.bytes.isEmpty then s1.copyBack k l1 true else s1.modCache (fun c => c.setWay k (some l1)), .data l1.data)
/-- A victim entry moves back into its set with a line, and the way that R315 chooses takes its place (R318). -/
def State.moveBack (s : State) (i : Nat) (l : Line) : State :=
  let r := s.cache.choose (l.tag % 2048)
  let s1 := s.modCache (fun _ => r.2.setWay r.1 (some l))
  let drop (t : State) : State := t.modCache (fun c => { c with victims := c.victims.eraseIdx i })
  match s.cache.way r.1 with
  | none => drop s1
  | some _ =>
    let old := (r.2.way r.1).getD l
    match s.cache.victimOf old.tag with
    | some j => drop (s1.modVictim j (fun v => { v with line := old, keep := true }))
    | none => s1.modVictim i (fun _ => Victim.of old)
/-- A lookup that hits a victim entry: served from it, and moved back into its set, at once or, where its write-back is outstanding, when
the status has returned; a failed one stays (R318, R328). -/
def State.hitVictim (s : State) (i o : Nat) (v : Victim) (q : CcLookup) : State × Served :=
  let l1 := (v.line.apply q o).hit q
  let s1 := s.count Reg.CC_VICTIM_HITS
  if v.writing ∨ v.failed ∨ s.cache.st ≠ .enabled then
    let s2 := s1.modVictim i (fun v => { v with line := l1, back := v.writing && !v.drop && decide (s.cache.st = .enabled) })
    (if s.cache.st = .draining ∧ ¬ v.writing ∧ ¬ v.failed ∧ l1.dirty then s2.startWb i false else s2, .data l1.data)
  else (s1.moveBack i l1, .data l1.data)
/-- A lookup of the ways and the victim cache. While DISABLED only poisoned lines and held entries answer (R326, R328,
R329). -/
def State.touch (s : State) (tag o : Nat) (q : CcLookup) : State × Served :=
  match s.cache.wayOf tag with
  | some k =>
    match s.cache.way k with
    | some l => if l.poison then (s, .storeErr) else if s.cache.st = .disabled then (s, .miss) else s.hitWay k o l q
    | none => (s, .miss)
  | none =>
    match s.cache.victimOf tag with
    | some i =>
      match s.cache.victims[i]? with
      | some v =>
        if v.line.poison then (s, .storeErr)
        else if s.cache.st = .disabled ∧ ¬ v.failed then (s, .miss)
        else s.hitVictim i o v q
      | none => (s, .miss)
    | none => (s, .miss)
/-- A corrected word of the line that a lookup reads counts in the bucket of the cache, and in its row; a victim entry belongs to no
macro group, and the record of a bucket that it fills names the group of the line's set (R348, R354, R355; log entry 118). -/
def State.ccCorrected (s : State) (tag : Nat) : State :=
  match s.cache.wayOf tag, s.cache.victimOf tag with
  | some k, _ => if s.cache.st ≠ .disabled then s.corrected (ccRow (k / 16) (k % 16)).1 (ccRow (k / 16) (k % 16)).2 else s
  | none, some _ => s.bucketAdd 1 (ccRow (tag % 2048) 0).1
  | none, none => s
/-- The data words that a lookup of len bytes at an offset of a line reads: none where the cache does not hold it. -/
def State.ccWords (s : State) (tag off len : Nat) : Nat :=
  if s.cache.st ≠ .disabled ∧ ((s.cache.wayOf tag).isSome ∨ (s.cache.victimOf tag).isSome) then (off + len + 7) / 8 - off / 8 else 0
/-- What the cache finds wrong before the lookup: the perturbation point of the CC page at each data word that it reads, and the operand's
finding (R329, R330, R435). -/
def State.ccFind (s : State) (tag off len : Nat) (err : CcFault) : State :=
  let o := s.opportunities 0x9000 0 (s.ccWords tag off len)
  let s1 := o.1
  let word := firedAt o.2 9 ≠ [] ∨ err = .dataWord
  if err = .tagParity then
    match (s1.cache.wayOf tag).orElse (fun _ =>
      ((List.range 16).map (fun w => (tag % 2048) * 16 + w)).find? (fun k => (s1.cache.way k).isSome)) with
    | some k => s1.tagParity k
    | none => s1
  else if word then
    match s1.cache.wayOf tag, s1.cache.victimOf tag with
    | some k, _ => if s1.cache.st ≠ .disabled then s1.wayUncorr k else s1
    | none, some i => s1.victimUncorr i tag
    | none, none => s1
  else if err = .corrected then s1.ccCorrected tag
  else s1
/-- The sequential-store detector of a unit after a store to a line (R319). -/
def State.seqStore (s : State) (u tag : Nat) : State :=
  let e := Tab.getD (fun _ => (0, 0)) s.cache.seqLine u
  let c := if tag = e.1 + 1 then e.2 + 1 else if tag = e.1 then e.2 else 1
  s.modCache (fun k => { k with seqLine := Tab.setD (fun _ => (0, 0)) k.seqLine u (tag, c) })
/-- A store that misses is written around: past SEQ_LIMIT, or while the cache does not allocate (R319, R325, R326). -/
def State.around (s : State) (u : Nat) : Bool :=
  let lim := fld (s.regAt Reg.CC_CFG) 7 0
  s.cache.st ≠ .enabled || (decide (lim ≠ 0) && decide (lim < (Tab.getD (fun _ => (0, 0)) s.cache.seqLine u).2))
/-- A fill fails: FILL_ERR and a record with the response code (R327). -/
def State.fillFail (s : State) (tag resp : Nat) : State :=
  (s.raise 0x9000 1).blot 0x9000 0x12 none [BitVec.ofNat 32 (tag * 128), BitVec.ofNat 32 resp]
/-- A line that a fill installs. -/
def freshLine (tag : Nat) (d : BitVec 1024) (stream : Bool) : Line :=
  { tag := tag, dirty := false, age := if stream then 3 else 0, lock := false, poison := false, stream := stream, data := d }

/-! ### Maintenance operations on one line (R320, R322) -/

/-- A cached line's data is discarded, counted when dirty. -/
def State.discard (s : State) (dirty : Bool) : State := if dirty then s.count Reg.CC_DISCARDED else s
/-- The operation (R320) on a line in a way. -/
def State.opWay (s : State) (op k : Nat) (l : Line) : State :=
  let drop := s.modCache (fun c => c.setWay k none)
  match op with
  | 1 =>
    if l.dirty ∧ l.poison then s.countField Reg.CC_MAINT_STAT 15 8 1
    else if l.dirty then s.copyBack k l true
    else s
  | 3 => if l.dirty ∧ ¬ l.poison then s.copyBack k l false else drop.discard l.dirty
  | 4 =>
    if l.lock then s
    else if s.cache.lockedIn (k / 16) < 12 then s.modCache (fun c => c.setWay k (some { l with lock := true }))
    else s.countField Reg.CC_MAINT_STAT 23 16 1
  | 5 => s.modCache (fun c => c.setWay k (some { l with lock := false }))
  | 7 => if l.dirty ∧ ¬ l.poison then s.copyBack k l true else s
  | _ => drop.discard l.dirty
/-- The operation on a line in the victim cache. -/
def State.opVictim (s : State) (op : Nat) (v : Victim) (i : Nat) : State :=
  let drop := s.modCache (fun c => { c with victims := c.victims.eraseIdx i })
  match op with
  | 1 =>
    if v.line.dirty ∧ v.line.poison then s.countField Reg.CC_MAINT_STAT 15 8 1
    else if v.line.dirty ∧ ¬ v.failed then s.startWb i true
    else s
  | 3 =>
    if v.line.dirty ∧ ¬ v.line.poison ∧ ¬ v.failed then
      (s.startWb i false).modVictim i (fun v => { v with line := { v.line with lock := false }, drop := true })
    else drop.discard v.line.dirty
  | 4 =>
    if v.failed then
      if v.line.lock then s
      else if s.cache.lockedIn (v.line.tag % 2048) < 12 then s.modVictim i (fun v => { v with line := { v.line with lock := true } })
      else s.countField Reg.CC_MAINT_STAT 23 16 1
    else
      let s1 := s.moveBack i v.line
      match (s1.cache.wayOf v.line.tag).bind (fun k => (s1.cache.way k).map (fun l => (k, l))) with
      | some (k, l) => s1.opWay 4 k l
      | none => s1
  | 5 => s.modVictim i (fun v => { v with line := { v.line with lock := false } })
  | 7 => if v.line.dirty ∧ ¬ v.line.poison ∧ ¬ v.failed then s.startWb i false else s
  | _ => drop.discard v.line.dirty
/-- The operation under way awaits the status of a line's write-back, where one is outstanding (R320). -/
def State.jobWrite (s : State) (tag : Nat) : State :=
  if s.cache.victims.any (fun v => v.line.tag = tag && v.writing) then
    s.modCache (fun c => { c with job := c.job.map (fun j => { j with writes := if j.writes.contains tag then j.writes else j.writes ++ [tag] }) })
  else s
/-- The status of a line's write-back has returned. -/
def State.jobWritten (s : State) (tag : Nat) : State :=
  s.modCache (fun c => { c with job := c.job.map (fun j => { j with writes := j.writes.filter (· ≠ tag) }) })
/-- The operation visits a line: both the ways and the victim cache. A line whose write-back is outstanding is waited for (R321). -/
def State.visit (s : State) (op tag : Nat) : State :=
  match s.cache.wayOf tag, (s.cache.victimOf tag).bind (fun i => (s.cache.victims[i]?).map (fun v => (i, v))) with
  | w, some (i, v) =>
    if v.writing then s.jobWait tag
    else (match w.bind (fun k => (s.cache.way k).map (fun l => (k, l))) with
      | some (k, l) => s.opWay op k l
      | none => s.opVictim op v i).jobWrite tag
  | some k, none => match s.cache.way k with | some l => (s.opWay op k l).jobWrite tag | none => s
  | none, none => s
/-- A number inserted into an ascending list without repeats. -/
def insertNat (n : Nat) : List Nat → List Nat
  | [] => [n]
  | m :: t => if n < m then n :: m :: t else if n = m then m :: t else m :: insertNat n t
/-- The cached lines, ascending. -/
def Cache.tags (c : Cache) : List Nat :=
  ((c.ways.filterMap (fun e => e.2.map (·.tag))) ++ c.victims.map (·.line.tag)).foldl (fun l t => insertNat t l) []
/-! ### Misses (R316, R317, R327) -/

/-- The miss register that holds a line, if any. -/
def Cache.missOf (c : Cache) (tag : Nat) : Option Nat :=
  (List.range 17).find? (fun r => match Tab.getD (fun _ => none) c.miss r with | some m => m.tag == tag | none => false)
/-- A miss register written. -/
def State.setMiss (s : State) (r : Nat) (m : Option Miss) : State :=
  s.modCache (fun c => { c with miss := Tab.setD (fun _ => none) c.miss r m })
/-- The merged stores of a register applied to a line. -/
def Miss.stores (m : Miss) (l : Line) : Line := m.merged.foldl (fun t e => t.apply e.q e.off) l
/-- An answer to a lookup within an operation. -/
def State.serve (s : State) (tag : Nat) (e : MissOp) (d : Option Beat) : State :=
  if e.inner then
    s.modCache (fun c => { c with served := c.served ++ [{ q := e.q, off := tag * 128 + e.off, data := d }] })
  else s
/-- A register's lookups are answered, each with the line as those before it have left it. -/
def State.serveAll (s : State) (tag : Nat) (l : List MissOp) (b : Beat) : State :=
  (l.foldl (fun a e =>
    let d := if e.q.bytes.isEmpty then a.2 else putBytes a.2 e.off e.q.bytes
    (a.1.serve tag e (some d), d)) (s, b)).1
/-- A store that reaches host memory changes the answers that operations of other units still hold of the line. -/
def State.patchServed (s : State) (tag : Nat) (e : MissOp) : State :=
  s.modCache (fun c => { c with served := c.served.map (fun v =>
    if v.off / 128 = tag ∧ v.q.unit ≠ e.q.unit then { v with data := v.data.map (fun b => putBytes b e.off e.q.bytes) } else v) })
/-- The first free register of a class (R316, R317). -/
def Cache.freeMiss (c : Cache) (manager : Bool) : Option Nat :=
  (if manager then [16] else List.range 16).find? (fun r => (Tab.getD (fun _ => (none : Option Miss)) c.miss r).isNone)
/-- A register's fill is issued on its port (R312, R316). It is installed only where it is issued and answered while ENABLED (R326), with
STREAM where every lookup of it streams (R315). -/
def State.startFill (s : State) (r tag : Nat) (l : List MissOp) (merges : Nat) : State :=
  (s.setMiss r (some { tag := tag, around := false, filling := true, install := decide (s.cache.st = .enabled),
                       stream := !l.isEmpty && l.all (fun e => e.q.streaming), merged := l, reply := none, merges := merges })).hpPush
    (s.linePort tag)
    { wr := false, addr := BitVec.ofNat 52 (s.lineAddr tag), len := 1, cls := 2, issuer := .ccFill r, beats := [], dest := 0, off := 0,
      count := 128 }
/-- A register's first lookup, a store, is written around on its port; the others wait for its status (R319). -/
def State.startAround (s : State) (r tag : Nat) (e : MissOp) (rest : List MissOp) (merges : Nat) : State :=
  ((s.setMiss r (some { tag := tag, around := true, filling := false, install := false, stream := false, merged := e :: rest,
                        reply := none, merges := merges })).hpPush (s.linePort tag)
    (oneBeat (s.lineAddr tag + e.off) e.q.bytes 2 (.ccAround r))).count Reg.CC_WRITE_AROUND
/-- The lines that a PRELOAD_LOCK still has to fill take free registers, one each, in ascending order (R320). -/
def State.preload (s : State) (tag : Nat) : State :=
  match s.cache.job, s.cache.freeMiss false with
  | some j, some r =>
    ((s.modCache (fun c => { c with job := some { j with asked := j.asked ++ [tag] } })).count Reg.CC_MISSES).startFill r tag [] 0
  | _, _ => s
/-- An operation looks at a line that it waits for: once no register holds it, it is visited; a line that PRELOAD_LOCK has not filled
yet is filled first, and one whose fill has brought nothing is left (R320, R321). -/
def State.jobLine (s : State) (tag : Nat) : State :=
  match s.cache.job with
  | some j =>
    if (s.cache.missOf tag).isSome then s
    else if j.op = 4 ∧ (s.cache.wayOf tag).isNone ∧ (s.cache.victimOf tag).isNone ∧ ¬ j.asked.contains tag then s.preload tag
    else (s.modCache (fun c => { c with job := some { j with waits := j.waits.filter (· ≠ tag) } })).visit j.op tag
  | none => s
/-- The operation under way looks at every line that it waits for. -/
def State.jobWaits (s : State) : State :=
  ((s.cache.job.map (·.waits)).getD []).foldl State.jobLine s
/-- A register goes on with the lookups that it still holds, in order: a store is written around, a load makes the line's fill; with none
it is free (R316, R319). -/
def State.missNext (s : State) (r tag : Nat) (l : List MissOp) (merges : Nat) : State :=
  match l with
  | [] => (s.setMiss r none).jobWaits
  | e :: rest => if e.q.bytes.isEmpty then s.startFill r tag l merges else s.startAround r tag e rest merges
/-- A register's fill has been answered: on an error its lookups complete with STORE_ERR; else the line is installed and the merged
lookups are applied in order, or, where nothing is installed, the loads before the first store are served, and the register goes on with
that store (R316, R319, R325 to R327).
A fill whose line finds no place waits. -/
def State.fillDone (s : State) (r : Nat) (m : Miss) (resp : Nat) (b : Beat) : State :=
  if resp ≠ 0 then
    (m.merged.foldl (fun t e => t.serve m.tag e none) ((s.setMiss r none).fillFail m.tag resp)).jobWaits
  else
    let s1 := s.hostPut (s.lineAddr m.tag) b (BitVec.allOnes 128)
    if m.install ∧ s.cache.st = .enabled then
      let r1 := s1.install (m.stores (freshLine m.tag b m.stream))
      if r1.2 then ((r1.1.serveAll m.tag m.merged b).setMiss r none).jobWaits else r1.1
    else
      (s1.serveAll m.tag (m.merged.takeWhile (fun e => e.q.bytes.isEmpty)) b).missNext r m.tag
        (m.merged.dropWhile (fun e => e.q.bytes.isEmpty)) m.merges
/-- A write-around's status has returned: an error is reported, and its register goes on (R319, R328). -/
def State.aroundStatus (s : State) (reg resp : Nat) : State :=
  match Tab.getD (fun _ => none) s.cache.miss reg with
  | none => s
  | some m =>
    let s1 := if resp = 0 then s
      else (s.raise 0x9000 2).blot 0x9000 0x13 none [BitVec.ofNat 32 (m.tag * 128), BitVec.ofNat 32 resp]
    let s2 := match m.merged.head? with
      | some e => (s1.patchServed m.tag e).serve m.tag e (some (s1.hostBeat (s1.lineAddr m.tag)))
      | none => s1
    s2.missNext reg m.tag (m.merged.drop 1) m.merges

/-! ### A unit's lookup within a command -/

/-- The offset lies in the store. -/
def State.inStore (s : State) (off len : Nat) : Bool := decide (0 < s.ccSize ∧ off + len ≤ s.ccSize)
/-- A lookup outside the store: STORE_ERR and a record (R312). -/
def State.rangeErr (s : State) (off : Nat) : State := s.blot 0x9000 0x22 none [BitVec.ofNat 32 off]
/-- A line as the block would now read it: the cached one, or what host memory holds with the stores of its miss register. -/
def State.lineNow (s : State) (tag : Nat) : Beat :=
  let cached := match s.cache.wayOf tag with
    | some k => (s.cache.way k).map (·.data)
    | none => (s.cache.victims.find? (fun v => v.line.tag == tag)).map (·.line.data)
  match cached with
  | some d => d
  | none =>
    let l := freshLine tag (s.hostBeat (s.lineAddr tag)) false
    match (s.cache.missOf tag).bind (fun r => Tab.getD (fun _ => none) s.cache.miss r) with
    | some m => (m.stores l).data
    | none => l.data
/-- The first lookup of an operation that cannot be answered in its step is the one that the step makes. -/
def State.want (s : State) (off : Nat) (q : CcLookup) (cc : CcFault) : State :=
  s.modCache (fun c => { c with wanted := some (c.wanted.getD (off, q, cc)) })
/-- The answer that an operation takes to a lookup of its own: the line as the cache holds it now, where it does and the operation has
not stored to it since; else the line as the answer has it. -/
def State.takeServed (s : State) (v : LookAnswer) : State × Option Beat :=
  let own := s.cache.served.any (fun w => decide (w.off / 128 = v.off / 128 ∧ w.q.unit = v.q.unit) && !w.q.bytes.isEmpty)
  let there := (s.cache.wayOf (v.off / 128)).isSome || (s.cache.victimOf (v.off / 128)).isSome
  (s.modCache (fun c => { c with served := c.served.erase v }),
    v.data.map (fun d => if there ∧ ¬ own then s.lineNow (v.off / 128) else d))
/-- A lookup within an operation at an offset: the line after it, or STORE_ERR; cc is what the cache finds on the first lookup that has
not been answered before. One that misses, or on which the cache finds something, is wanted: the step makes it alone, and nothing of what
the operation would go on with. In ENDGAME no request is issued any
longer, and a lookup that misses has no answer (R410). -/
def State.lookup (s : State) (off : Nat) (q : CcLookup) (cc : CcFault) : State × Option Beat :=
  if s.inStore off q.len then
    match s.cache.served.find? (fun v => v.q = q && v.off = off) with
    | some v => s.takeServed v
    | none =>
      let tag := off / 128
      let s0 := (if q.bytes.isEmpty then s else s.seqStore q.unit.val tag).ccFind tag (off % 128) q.len cc
      let r := if (s.cache.missOf tag).isSome then (s0, .miss) else s0.touch tag (off % 128) q
      let s1 := if cc = .clean then r.1 else r.1.want off q cc
      match r.2 with
      | .data b => (s1, some b)
      | .storeErr => (s1, none)
      | .miss => if s.glb.mode = .endgame then (s1, none) else (s1.want off q cc, none)
  else (s.rangeErr off, none)

/-- Who makes a lookup: a requesting unit of R314, clusters 0 to 15 and then those below, and from 24 on the same units in the MANAGER
class. -/
abbrev Asker := Fin 48
/-- A cluster. -/
def unitCluster (c : Nat) : Asker := Fin.ofNat 48 (c % 16)
/-- The Ring Fetcher. -/
def unitFetcher : Asker := 16
/-- The doorbell path. -/
def unitDoorbell : Asker := 17
/-- The notify path of the Mover. -/
def unitNotify : Asker := 18
/-- The Tenant Manager. -/
def unitTenants : Asker := 19
/-- The Tenant Manager in TN_RING_CMD. -/
def unitRingCmd : Asker := 43
/-- The defect-map unit. -/
def unitDefects : Asker := 20
/-- The defect-map unit in DF_MARK_CMD and DF_FR_CMD. -/
def unitDfCmd : Asker := 44
/-- Patrol. -/
def unitPatrol : Asker := 21
/-- The opening sequencer, whose lookups are of the MANAGER class. -/
def unitOpening : Asker := 46
/-- A load that a unit makes: MANAGER class for TN_RING_CMD, DF_MARK_CMD, DF_FR_CMD and the opening sequencer, DATA for every other;
Patrol's carries the streaming hint (R314). -/
def loadQ (u : Asker) (len : Nat) : CcLookup :=
  { manager := 24 ≤ u.val, streaming := u = unitPatrol, unit := Fin.ofNat 24 (u.val % 24), len := len, bytes := [] }
/-- A load of len bytes within one line, as a number; none is STORE_ERR. -/
def State.ccLoad (s : State) (u : Asker) (off len : Nat) (cc : CcFault) : State × Option Nat :=
  let r := s.lookup off (loadQ u len) cc
  (r.1, r.2.map (fun b => (b.toNat >>> (8 * (off % 128))) % 2 ^ (8 * len)))
/-- A store of bytes within one line; false is STORE_ERR. -/
def State.ccStore (s : State) (u : Asker) (off : Nat) (bytes : List Byte) (cc : CcFault) : State × Bool :=
  let r := s.lookup off { loadQ u bytes.length with bytes := bytes } cc
  (r.1, r.2.isSome)

/-! ### The commands of the lookups' own steps -/

/-- A unit's lookup is made: it hits, merges into the register of its line while that has taken fewer than 8, or takes a free register
and issues its fill or its write-around; none where it has to wait. inner says that it belongs to an operation, which takes the answer
later (R314 to R319, R329, R330). -/
def State.ccLook (s : State) (a : Nat) (q : CcLookup) (cc : CcFault) (inner : Bool) : Option State :=
  let tag := a / 128
  let e : MissOp := { q := q, off := a % 128, inner := inner }
  match (s.cache.missOf tag).bind (fun r => (Tab.getD (fun _ => none) s.cache.miss r).map (fun m => (r, m))) with
  | some (r, m) =>
    if m.merges < 8 then
      let s1 := if q.bytes.isEmpty then s else s.seqStore q.unit.val tag
      some ((s1.setMiss r (some { m with merged := m.merged ++ [e], stream := m.stream && q.streaming, merges := m.merges + 1 })).count
        Reg.CC_MERGED)
    else none
  | none =>
    let s1 := (if q.bytes.isEmpty then s else s.seqStore q.unit.val tag).ccFind tag (a % 128) q.len cc
    let t := s1.touch tag (a % 128) q
    match t.2 with
    | .data b => some (t.1.serve tag e (some b))
    | .storeErr => some (t.1.serve tag e none)
    | .miss =>
      match s.cache.freeMiss q.manager with
      | some r =>
        let s2 := t.1.count Reg.CC_MISSES
        some (if ¬ q.bytes.isEmpty ∧ s2.around q.unit.val then s2.startAround r tag e [] 0 else s2.startFill r tag [e] 0)
      | none => if cc = .clean then none else some (s.ccFind tag (a % 128) q.len cc)
/-- CC_LOOKUP (R314 to R319, R329, R330): a unit's lookup is granted, or its unit waits. -/
def execCcLookup (off : BitVec 30) (q : CcLookup) (err : CcFault) (s : State) : Out :=
  if ¬ s.awake ∨ s.glb.mode = .endgame ∨ s.glb.mode = .opening ∧ s.glb.phase.code < 4 then idle s
  else if ¬ s.inStore off.toNat 1 then done s (s.rangeErr off.toNat)
  else match s.ccLook off.toNat q err false with
    | some t => done s t
    | none => idle s

/-! ### Operations that wait for lines (R316, R317) -/

/-- Where an operation goes back to when a lookup of it has failed: to the state s before it, but for a lookup that the step makes first. -/
def State.backTo (s t : State) : State := if t.cache.wanted.isSome then t else s
/-- The state of a step whose operation f has been made from s: its effect, or, where it wants a line, that lookup alone. -/
def State.waited (s t : State) : State :=
  match t.cache.wanted with
  | none => t
  | some w => (s.ccLook w.1 w.2.1 w.2.2 true).getD s
/-- A command ends whose operation may have to wait for a line of the Context Cache. -/
def looked (s t : State) : Out := done s (s.waited t)
/-- The register whose BUSY an operation of the register port keeps at 1 while it waits (R317). -/
def Held.busy : Held → Option Nat
  | .ringCmd _ _ => some Reg.TN_RING_STAT
  | .mark _ => some Reg.DF_MARK_STAT
  | .frontier _ _ => some Reg.DF_FR_STAT
  | .unfence _ => some Reg.TN_STAT
  | .tnReset _ _ => some Reg.TN_STAT
  | .sealLower _ => some Reg.KY_SEAL_STAT
  | _ => none
/-- An operation begins to wait for a line, with its BUSY at 1. -/
def State.hold (s : State) (h : Held) : State :=
  let s1 := s.modCache (fun c => { c with held := c.held ++ [h] })
  match h.busy with
  | some k => s1.orReg k (flag true 31)
  | none => s1
/-- An operation is made, and, where it wants a line, waits for that; one whose lookup has been answered at once goes on. n bounds how
often it does. -/
def State.attempt : Nat → State → Held → CcFault → (CcFault → State → State) → State
  | 0, s, h, _, _ => s.hold h
  | n + 1, s, h, cc, f =>
    let t := f cc s
    match t.cache.wanted with
    | none => t
    | some w =>
      match s.ccLook w.1 w.2.1 w.2.2 true with
      | none => s.hold h
      | some s1 => if s.cache.served.length < s1.cache.served.length then State.attempt n s1 h .clean f else s1.hold h
/-- An operation that goes after another of the same unit, where that waits: changes of one ring's context, doorbell writes, samples of
one cluster, and GROWN marks. -/
def Held.after : Held → Held → Bool
  | .ring n _, .ring m _ => n == m
  | .doorbell _ _ _, .doorbell _ _ _ => true
  | .sample c _ _ _ _ _, .sample d _ _ _ _ _ => c == d
  | .grow _ _ _ _, .grow _ _ _ _ => true
  | _, _ => false
/-- An operation begins within a step, beside whatever else the step wants. -/
def State.begins (s : State) (h : Held) (cc : CcFault) (f : CcFault → State → State) : State :=
  if s.cache.held.any h.after then s.hold h
  else (State.attempt 8 (s.modCache (fun c => { c with wanted := none })) h cc f).modCache (fun c => { c with wanted := s.cache.wanted })

/-- Something begins to wait for a retry: the interval runs from now, unless it runs already (R327, R328). -/
def State.armRetry (s : State) : State :=
  if s.cache.victims.any (fun v => v.failed) ∨ ¬ s.glb.doorbells.isEmpty ∨ ¬ s.glb.owed.isEmpty ∨ ¬ s.cache.stuck.isEmpty then s
  else s.modCache (fun c => { c with retryAt := s.time.toNat })
/-- A write-back's status takes effect on its entry: it moves back into its set where a lookup has hit it, is written again while
DRAINING, stays where it holds its line, is freed, or is held (R318, R320, R325, R328, R331). -/
def State.wbStatus (s0 : State) (i : Nat) (v : Victim) (resp : Nat) : State :=
  let tag := v.line.tag
  let s := s0.jobWritten tag
  let rest (f : Victim → Victim) : State := s.modVictim i (fun v => f { v with failed := false, writing := false, back := false, reply := none })
  (if resp = 0 then
    if v.line.poison then rest id
    else if v.line.dirty ∧ (v.drop ∨ s.cache.st ≠ .enabled) then ((rest id).startWb i v.keep).jobWrite tag
    else if v.drop then s.modCache (fun c => { c with victims := c.victims.eraseIdx i })
    else if v.back ∧ s.cache.st = .enabled then s.moveBack i v.line
    else if v.line.dirty ∧ (s.cache.wayOf tag).isSome then (rest id).startWb i false
    else if v.line.dirty ∨ v.keep then rest (fun v => { v with keep := false })
    else s.modCache (fun c => { c with victims := c.victims.eraseIdx i })
  else
    let l := match s.cache.wayOf tag with
      | some k => (s.cache.way k).getD v.line
      | none => v.line
    let s2 := match s.cache.wayOf tag with
      | some k => s.modCache (fun c => c.setWay k none)
      | none => s
    ((s2.armRetry.modVictim i (fun v =>
      { v with line := { l with dirty := true }, writing := false, failed := true, keep := false, back := false, drop := false, reply := none })).raise
        0x9000 2).blot 0x9000 0x13 none [BitVec.ofNat 32 (tag * 128), BitVec.ofNat 32 resp]).jobWaits

/-- CC_WRITEBACK_STATUS (R318, R328): the status of a victim entry's write-back has returned. -/
def execCcWritebackStatus (slot : Fin 32) (s : State) : Out :=
  if ¬ s.awake then idle s
  else match s.cache.victims[slot.val]? with
    | some v =>
      match v.writing, v.reply with
      | true, some resp => done s (s.wbStatus slot.val v resp)
      | _, _ => idle s
    | none => idle s

/-- The Ring Fetcher or the notify path has met STORE_ERR on a ring's context: it looks it up again at the next retry (R327). -/
def State.stick (s : State) (notify : Bool) (n : Nat) : State :=
  if s.cache.stuck.contains (notify, n) then s
  else s.armRetry.modCache (fun c => { c with stuck := c.stuck ++ [(notify, n)] })
/-- RETRY_US has passed since the last retry, or since the first failure: 0 acts as 1 (R327, R328). -/
def State.retryDue (s : State) : Bool := decide (atLeast1 (fld (s.regAt Reg.CC_CFG) 31 16) * 100 ≤ s.since s.cache.retryAt)
/-- Every failed write-back is issued again, but a poisoned line's (R328, R329). -/
def State.retryWb (s : State) : State :=
  (List.range s.cache.victims.length).foldl (fun t i =>
    match t.cache.victims[i]? with
    | some v => if v.failed ∧ ¬ v.writing ∧ ¬ v.line.poison then t.startWb i false else t
    | none => t) s

/-! ### Maintenance, enable, disable and drain (R320 to R325) -/

/-- RESULT of CC_MAINT_STAT. -/
def State.maintResult (s : State) (r : Nat) : State := s.modReg Reg.CC_MAINT_STAT (fun w => putFld w 1 0 r)
/-- The lines of the range. -/
def State.ccRange (s : State) : Nat × Nat := (fld (s.regAt Reg.CC_RANGE_LO) 29 7, fld (s.regAt Reg.CC_RANGE_LEN) 23 0)
/-- The lines that a new operation waits for: those in a miss register (R321). -/
def Cache.filling (c : Cache) : List Nat := c.miss.filterMap (fun e => e.2.map (·.tag))
/-- Why a maintenance operation does not begin: 1 REFUSED, 2 RANGE; 0 where it does (R320). -/
def State.maintWhy (s : State) (op : Nat) : Nat :=
  if s.cache.job.isSome ∨ s.cache.st = .draining ∨ (op = 6 ∧ s.cache.st = .enabled) then 1
  else if op ≠ 6 ∧ s.ccSize < (s.ccRange.1 + s.ccRange.2) * 128 then 2 else 0
/-- A PRELOAD_LOCK that begins looks the lines of its range up, and may find a way of their sets whose tag or state is in parity error: the
way is dropped (R320, R330; log entry 124). -/
def State.preloadFind (s : State) (bad : Option (Fin 32768)) : State :=
  match bad with
  | some k =>
    if s.maintWhy 4 = 0 ∧ (k.val / 16 + 2048 - s.ccRange.1 % 2048) % 2048 < s.ccRange.2 ∧ (s.cache.way k.val).isSome then s.tagParity k.val else s
  | none => s
/-- A maintenance operation begins: refused or out of range without effect, else it visits its lines, and BUSY stays 1
until MAINT_DONE (R320). It waits for the lines of a miss register, and PRELOAD_LOCK for those that it fills (R321). -/
def State.maint (s : State) (op : Nat) : State :=
  let r := s.ccRange
  if s.maintWhy op ≠ 0 then s.maintResult (s.maintWhy op)
  else
    let inR (t : Nat) : Bool := decide (op = 6 ∨ (r.1 ≤ t ∧ t < r.1 + r.2))
    let job : CcJob := { op := op, asked := [], waits := if op = 4 then (List.range r.2).map (· + r.1) else s.cache.filling.filter inR }
    let s1 := (s.setReg Reg.CC_MAINT_STAT 0).modCache (fun c => { c with job := some job })
    if op = 4 then s1.jobWaits else ((s1.cache.tags.filter inR).filter (fun t => !job.waits.contains t)).foldl (fun t tag => t.visit op tag) s1
/-- A write of CC_MAINT whose OP is the command's. -/
def State.maintWrite (s : State) (op : Nat) (a : RpAcc) : State :=
  s.portWrite Reg.CC_MAINT a (fun _ s => if fld a.data 2 0 = op then s.maint op else s)

/-- CC_CLEAN (R320). -/
def execCcClean (a : RpAcc) (s : State) : Out := done s (s.maintWrite 1 a)
/-- CC_INVALIDATE (R320). -/
def execCcInvalidate (a : RpAcc) (s : State) : Out := done s (s.maintWrite 2 a)
/-- CC_CLEAN_INVALIDATE (R320). -/
def execCcCleanInvalidate (a : RpAcc) (s : State) : Out := done s (s.maintWrite 3 a)
/-- PRELOAD_LOCK (R320, R322, R330). -/
def execPreloadLock (a : RpAcc) (bad : Option (Fin 32768)) (s : State) : Out :=
  done s (s.portWrite Reg.CC_MAINT a (fun _ s => if fld a.data 2 0 = 4 then (s.preloadFind bad).maint 4 else s))
/-- UNLOCK (R320). -/
def execUnlock (a : RpAcc) (s : State) : Out := done s (s.maintWrite 5 a)
/-- INVAL_ALL (R320). -/
def execInvalAll (a : RpAcc) (s : State) : Out := done s (s.maintWrite 6 a)

/-- The drain begins: every dirty line without POISON is written back (R325). -/
def State.drain (s : State) : State :=
  let s1 := s.modCache (fun c => { c with st := .draining, drainPend := false, job := some { op := 7, waits := c.filling, asked := [] } })
  (s1.cache.tags.filter (fun t => !s.cache.filling.contains t)).foldl (fun t tag => t.visit 7 tag) s1
/-- NEED_INVAL. -/
def State.needInval (s : State) : State := s.orReg Reg.CC_STAT 0x10#32

/-- CC_ENABLE (R324, R325): EN = 1 enables the cache after an invalidate-all, or withdraws a pending drain. -/
def execCcEnable (a : RpAcc) (s : State) : Out :=
  done s (s.portWrite Reg.CC_CTL a (fun locked s =>
    if locked ∨ ¬ bit a.data 0 then s
    else match s.cache.st with
      | .disabled => if s.cache.invalDone then s.modCache (fun c => { c with st := .enabled }) else s.needInval
      | .draining => s.needInval
      | .enabled => s.modCache (fun c => { c with drainPend := false })))

/-- CC_DISABLE (R325): EN = 0 begins the drain, or leaves it pending while an operation runs. -/
def execCcDisable (a : RpAcc) (s : State) : Out :=
  done s (s.portWrite Reg.CC_CTL a (fun locked s =>
    if locked ∨ bit a.data 0 ∨ s.cache.st ≠ .enabled then s
    else if s.cache.job.isSome then s.modCache (fun c => { c with drainPend := true })
    else s.drain))

/-- No write of the cache waits for its status: no write-back, and no write-around. -/
def Cache.quiet (c : Cache) : Bool :=
  c.victims.all (fun v => !v.writing) && c.miss.all (fun e => match e.2 with | some m => !m.around | none => true)

/-- MAINT_DONE (R320, R323 to R325): every line has been visited and every write status of the operation has returned: BUSY falls, an INVAL_ALL
sets INVAL_DONE, and a pending drain begins. -/
def execMaintDone (s : State) : Out :=
  match s.cache.job with
  | some j =>
    if s.awake ∧ j.op ≠ 7 ∧ j.waits.isEmpty ∧ j.writes.isEmpty then
      let s1 := (s.modCache (fun c => { c with job := none, invalDone := c.invalDone || decide (j.op = 6) })).raise 0x9000 5
      done s (if s1.cache.drainPend then s1.drain else s1)
    else idle s
  | none => idle s

/-- DRAIN_DONE (R325): the drain is over: DISABLED, and INVAL_DONE is cleared (R324). -/
def execDrainDone (s : State) : Out :=
  match s.cache.job with
  | some j =>
    if s.awake ∧ j.op = 7 ∧ j.waits.isEmpty ∧ s.cache.quiet then
      done s ((s.modCache (fun c => { c with job := none, st := .disabled, invalDone := false })).raise 0x9000 6)
    else idle s
  | none => idle s

end Sys2Proof.Machine
end

