-- ==== Sys2Proof/Machine/Media.lean ====
section
/-! DEFINITION. Media Address Words (R114 to R117), the defect bitmap (R125 to R133, R439), the frontier records (R266 to
R281) and the pairing table (R276, R277). -/
namespace Sys2Proof.Machine
open Sys2Proof

/-! ### Media Address Words (R114, R115) -/

/-- FRAME. -/
def mawFrame (m : BitVec 64) : Nat := fld m 1 0
/-- PLANE. -/
def mawPlane (m : BitVec 64) : Nat := fld m 3 2
/-- PAGE. -/
def mawPage (m : BitVec 64) : Nat := fld m 15 4
/-- BLOCK. -/
def mawBlock (m : BitVec 64) : Nat := fld m 31 16
/-- LUN. -/
def mawLun (m : BitVec 64) : Nat := fld m 33 32
/-- TARGET. -/
def mawTarget (m : BitVec 64) : Nat := fld m 37 34
/-- The cluster number c: REGION and CLUSTER. -/
def mawCluster (m : BitVec 64) : Nat := fld m 44 41
/-- The global lane. -/
def mawLane (m : BitVec 64) : Nat := fld m 44 38
/-- The global die. -/
def mawDie (m : BitVec 64) : Nat := fld m 44 32
/-- The die within its lane: target × 4 + LUN. -/
def mawLd (m : BitVec 64) : Nat := fld m 37 32
/-- A MAW of its parts. -/
def mkMaw (die block page plane frame : Nat) : BitVec 64 :=
  BitVec.ofNat 64 (2 ^ 32 * die + 2 ^ 16 * block + page * 16 + plane * 4 + frame)
/-- The first frame that a FRAME field selects (R116). -/
def firstFrame (frames f : Nat) : Nat := if frames ≤ 4 then f else 2 * f
/-- DIE_BLK and the die block of R117: BLOCK × PLANES + PLANE. -/
def Geo.dieBlock (q : Geo) (m : BitVec 64) : Nat := mawBlock m * q.planes + mawPlane m
/-- The row address (R117). -/
def Geo.row (q : Geo) (m : BitVec 64) : Nat :=
  mawPage m ||| (q.dieBlock m <<< q.pb) ||| (mawLun m <<< (q.pb + q.bb))
/-- The column of a MAW's first frame (R117). -/
def Geo.column (q : Geo) (m : BitVec 64) : Nat := 4672 * (firstFrame q.frames (mawFrame m))

/-- A global die that the build has, trained and not excluded (R120, R121). -/
def State.diePresent (s : State) (die : Nat) : Bool :=
  let g := die / 64
  decide (g < s.build.lanes) && (s.lane g).enabled && s.targetUp g (die % 64 / 4) && decide (die % 4 < (s.geo g).luns)
/-- A die, block and plane within R120. -/
def State.blockPresent (s : State) (die block plane : Nat) : Bool :=
  let q := s.geo (die / 64)
  s.diePresent die && decide (plane < q.planes ∧ block < q.blocks)

/-! ### The defect bitmap (R125 to R128, R439) -/

/-- The bitmap area lies in the store, and in FALLBACK DF_BASE has been written since it was entered (R125, R439). -/
def State.dfAssigned (s : State) : Bool :=
  let base := 2048 * (fld (s.regAt Reg.DF_BASE) 29 11)
  decide (0 < s.ccSize ∧ base + 131072 * s.build.lanes ≤ s.ccSize) && (decide (s.glb.mode ≠ .fallback) || s.glb.dfBaseSet)
/-- The offset of the byte of an entry of a die's bitmap. -/
def State.dfOff (s : State) (die entry : Nat) : Nat := 2048 * (fld (s.regAt Reg.DF_BASE) 29 11) + 2048 * die + entry / 4
/-- The code of an entry in its byte. -/
def entryCode (byte entry : Nat) : Nat := byte / 4 ^ (entry % 4) % 4
/-- A byte with the code of an entry replaced. -/
def withCode (byte entry code : Nat) : Nat := byte - entryCode byte entry * 4 ^ (entry % 4) + code * 4 ^ (entry % 4)
/-- The entry of a die's block and plane; GOOD while FALLBACK has no bitmap area (R439). None is STORE_ERR. -/
def State.dfCode (s : State) (u : Asker) (die entry : Nat) (cc : CcFault) : State × Option Nat :=
  if s.glb.mode = .fallback ∧ ¬ s.dfAssigned then (s, some 0)
  else
    let r := s.ccLoad u (s.dfOff die entry) 1 cc
    (r.1, r.2.map (fun b => entryCode b entry))
/-- An entry takes a code; false is STORE_ERR. -/
def State.dfSet (s : State) (u : Asker) (die entry code : Nat) (cc : CcFault) : State × Bool :=
  if s.glb.mode = .fallback ∧ ¬ s.dfAssigned then (s, false)
  else
    let r := s.ccLoad u (s.dfOff die entry) 1 cc
    match r.2 with
    | some b => r.1.ccStore u (s.dfOff die entry) [BitVec.ofNat 8 (withCode b entry code)] cc
    | none => (r.1, false)

/-- The result of a DF_MARK_CMD operation: MARK_DONE, RESULT and CODE. -/
def State.markEnd (s : State) (result code : Nat) : State :=
  (s.setReg Reg.DF_MARK_STAT (BitVec.ofNat 32 (code * 16 + result))).raise 0xE000 4
/-- A DF_MARK_CMD operation on the entry that DF_MARK_ADDR names: 1 query, 2 mark GROWN_HOST, 3 clear (R127). A clear of an entry that
is GOOD already answers DONE (log entry 104), and CODE reads 0 after RANGE and STORE_ERR, where there is no entry to show (log entry 132):
both are the model's choice. -/
def State.markOp (s : State) (op : Nat) (cc : CcFault) : State :=
  let w := s.regAt Reg.DF_MARK_ADDR
  let die := fld w 12 0
  let plane := fld w 14 13
  let block := fld w 31 16
  if ¬ s.blockPresent die block plane then s.markEnd 3 0
  else
    let e := block * (s.geo (die / 64)).planes + plane
    let r := s.dfCode unitDfCmd die e cc
    match r.2 with
    | none => r.1.markEnd 4 0
    | some c =>
      let put (code : Nat) : State :=
        let t := r.1.dfSet unitDfCmd die e code cc
        if t.2 then t.1.markEnd 0 code else t.1.markEnd 4 c
      if op = 2 then (if c = 0 then put 2 else r.1.markEnd 1 c)
      else if op = 3 then (if c = 3 then r.1.markEnd 2 3 else if c = 0 then r.1.markEnd 0 0 else put 0)
      else r.1.markEnd 0 c
/-- A write of DF_MARK_CMD whose OP is the command's; one while BUSY is 1 has no effect. -/
def State.markWrite (s : State) (op : Nat) (a : RpAcc) (cc : CcFault) : State :=
  s.portWrite Reg.DF_MARK_CMD a (fun _ s =>
    if fld a.data 1 0 = op ∧ ¬ bit (s.regAt Reg.DF_MARK_STAT) 31 then s.begins (.mark op) cc (fun cc t => t.markOp op cc) else s)

/-- MARK_QUERY (R127). -/
def execMarkQuery (a : RpAcc) (cc : CcFault) (s : State) : Out := done s (s.markWrite 1 a cc)
/-- MARK_GROWN_HOST (R127). -/
def execMarkGrownHost (a : RpAcc) (cc : CcFault) (s : State) : Out := done s (s.markWrite 2 a cc)
/-- MARK_CLEAR (R127). -/
def execMarkClear (a : RpAcc) (cc : CcFault) (s : State) : Out := done s (s.markWrite 3 a cc)

/-- A GROWN_BLOCK mark that the block attempts, with its record (R127, R128, R280). -/
def State.growMark (s : State) (die block plane cause : Nat) (cc : CcFault) : State :=
  let e := block * (s.geo (die / 64)).planes + plane
  let r := s.dfCode unitDefects die e cc
  let rec_ (t : State) (result : Nat) : State :=
    t.blot 0xE000 0x1B none [BitVec.ofNat 32 die, BitVec.ofNat 32 (65536 * plane + block), BitVec.ofNat 32 cause,
      BitVec.ofNat 32 result]
  match r.2 with
  | none => rec_ r.1 2
  | some 0 =>
    let t := r.1.dfSet unitDefects die e 1 cc
    if t.2 then rec_ ((t.1.count Reg.DF_GROWN_COUNT).raise 0xE000 1) 0 else rec_ t.1 2
  | some _ => rec_ r.1 1

/-- A GROWN_BLOCK mark is made once its line is there. -/
def State.growLater (s : State) (die block plane cause : Nat) (cc : CcFault) : State :=
  s.begins (.grow die block plane cause) cc (fun cc t => t.growMark die block plane cause cc)

/-! ### Frontier records (R266, R267) -/

/-- A frontier record (R267): STATE 0 FREE, 1 OPEN, 2 VERIFYING, 3 ERASE_PENDING. -/
structure FrRec where
  blk   : Nat
  st    : Nat
  blank : Bool
  owner : Nat
  next  : Nat
  done  : Nat
  base  : Nat
  time  : Nat
  seq   : Nat
  deriving DecidableEq, Repr

/-- The record in the 32 bytes of a slot. -/
def frDecode (n : Nat) : FrRec :=
  let f (byte width : Nat) : Nat := n / 2 ^ (8 * byte) % 2 ^ width
  { blk := f 0 13, st := f 2 2, blank := decide (n / 2 ^ 18 % 2 = 1), owner := f 4 9, next := f 6 13, done := f 8 13,
    base := f 10 12, time := f 12 32, seq := f 16 32 }
/-- The 32 bytes of a record. -/
def frEncode (r : FrRec) : List Byte :=
  leBytes 32 (r.blk % 2 ^ 13 + 2 ^ 16 * ((r.st % 4 + (if r.blank then 4 else 0))) + 2 ^ 32 * (r.owner % 512) +
    2 ^ 48 * (r.next % 2 ^ 13) + 2 ^ 64 * (r.done % 2 ^ 13) + 2 ^ 80 * (r.base % 2 ^ 12) + 2 ^ 96 * (r.time % 2 ^ 32) +
    2 ^ 128 * (r.seq % 2 ^ 32))
/-- A FREE slot: every byte zero. -/
def frFree : FrRec := { blk := 0, st := 0, blank := false, owner := 0, next := 0, done := 0, base := 0, time := 0, seq := 0 }
/-- The record of a plane-block that an instance's ERASE has claimed (R270). -/
def eraseRec (b owner : Nat) : FrRec := { frFree with blk := b, st := 3, owner := owner }
/-- The frontier area lies in the store, and in FALLBACK DF_FR_BASE has been written since it was entered (R268). -/
def State.frAssigned (s : State) : Bool :=
  let base := 2048 * (fld (s.regAt Reg.DF_FR_BASE) 29 11)
  decide (0 < s.ccSize ∧ base + 32768 * s.build.lanes ≤ s.ccSize) && (decide (s.glb.mode ≠ .fallback) || s.glb.frBaseSet)
/-- The offset of a slot of a die. -/
def State.frOff (s : State) (die i : Nat) : Nat := 2048 * (fld (s.regAt Reg.DF_FR_BASE) 29 11) + 512 * die + i * 32
/-- The four slots of line k of a die; none is STORE_ERR. -/
def State.frLine (s : State) (u : Asker) (die k : Nat) (cc : CcFault) : State × Option (List FrRec) :=
  let r := s.ccLoad u (s.frOff die (4 * k)) 128 cc
  (r.1, r.2.map (fun n => (List.range 4).map (fun j => frDecode (n / 2 ^ (256 * j)))))
/-- The sixteen slots of a die, read line by line; none is STORE_ERR. -/
def State.frSlots (s : State) (u : Asker) (die : Nat) (cc : CcFault) : State × Option (List FrRec) :=
  (List.range 4).foldl (fun acc k =>
    match acc.2 with
    | none => acc
    | some l =>
      let r := acc.1.frLine u die k cc
      (r.1, r.2.map (fun x => l ++ x))) (s, some [])
/-- The sixteen slots of a die as the block would now read them, without a lookup; none outside the store. -/
def State.frPeek (s : State) (die : Nat) : Option (List FrRec) :=
  if s.inStore (s.frOff die 0) 512 then
    some ((List.range 16).map (fun i => frDecode ((s.lineNow (s.frOff die i / 128)).toNat / 2 ^ (8 * (s.frOff die i % 128)))))
  else none
/-- The slot that holds the record of a plane-block. -/
def frFind (l : List FrRec) (blk : Nat) : Option Nat := l.findIdx? (fun r => r.st != 0 && r.blk == blk)
/-- The lowest free slot. -/
def frFreeSlot (l : List FrRec) : Option Nat := l.findIdx? (fun r => r.st == 0)
/-- A slot written; false is STORE_ERR. -/
def State.frPut (s : State) (u : Asker) (die i : Nat) (r : FrRec) (cc : CcFault) : State × Bool :=
  s.ccStore u (s.frOff die i) (frEncode r) cc
/-- The record of a plane-block changed by a function, if there is one; a store error leaves it. -/
def State.frModify (s : State) (u : Asker) (die blk : Nat) (cc : CcFault) (f : FrRec → FrRec) : State :=
  let r := s.frSlots u die cc
  match r.2 with
  | some l =>
    match frFind l blk with
    | some i => (r.1.frPut u die i (f (l.getD i frFree)) cc).1
    | none => r.1
  | none => r.1

/-- The plane MAWs on whose frontier records a command acts: a COPY's destination, else its planes. -/
def Cmd.frMaws (c : Cmd) : List (BitVec 64) := if c.pkt.opcode = 4 then [c.pkt.maw1] else c.pkt.maws
/-- A command in flight holds the record of a plane-block: it has claimed it or verifies it (R281). -/
def State.frHeld (s : State) (die blk : Nat) : Bool :=
  s.cmds.any (fun e => match e.2 with
    | some c => (c.claimed || c.verifying) && c.frMaws.any (fun m =>
        decide (mawDie m = die ∧ (s.geo (die / 64)).dieBlock m = blk))
    | none => false)

/-- The result of a DF_FR_CMD operation, with the record after it: FR_DONE, DF_FR_STAT and DF_FR_INFO. -/
def State.frEnd (s : State) (result : Nat) (r : FrRec) : State :=
  ((s.setReg Reg.DF_FR_STAT (BitVec.ofNat 32 (65536 * r.next + r.st * 16 + result))).setReg Reg.DF_FR_INFO
    (BitVec.ofNat 32 (65536 * r.done + r.owner))).raise 0xE000 5
/-- A DF_FR_CMD operation on the plane-block that DF_FR_ADDR names: 1 QUERY, 2 CLOSE, 3 OPEN (R281). -/
def State.frOp (s : State) (op : Nat) (data : Word) (cc : CcFault) : State :=
  let w := s.regAt Reg.DF_FR_ADDR
  let die := fld w 12 0
  let plane := fld w 14 13
  let block := fld w 31 16
  if ¬ s.blockPresent die block plane then s.frEnd 5 frFree
  else
    let blk := block * (s.geo (die / 64)).planes + plane
    let q := s.frSlots unitDfCmd die cc
    match q.2 with
    | none => q.1.frEnd 6 frFree
    | some l =>
      let put (i : Nat) (r : FrRec) : State :=
        let t := q.1.frPut unitDfCmd die i r cc
        if t.2 then t.1.frEnd 0 r else t.1.frEnd 6 frFree
      match frFind l blk with
      | some i =>
        let r := l.getD i frFree
        if op = 1 then q.1.frEnd 0 r
        else if op = 2 then
          if (r.st = 1 ∧ r.next ≠ r.done) ∨ (r.st ≠ 1 ∧ s.frHeld die blk) then q.1.frEnd 4 r else put i frFree
        else q.1.frEnd 2 r
      | none =>
        if op = 3 then
          match frFreeSlot l with
          | some i =>
            let page := fld data 31 20
            put i { blk := blk, st := 1, blank := true, owner := fld data 18 10, next := page, done := page, base := page,
                    time := s.us.toNat, seq := 0 }
          | none => q.1.frEnd 3 frFree
        else q.1.frEnd 1 frFree
/-- A write of DF_FR_CMD whose OP is the command's; one while BUSY is 1 has no effect. -/
def State.frWrite (s : State) (op : Nat) (a : RpAcc) (cc : CcFault) : State :=
  s.portWrite Reg.DF_FR_CMD a (fun _ s =>
    if fld a.data 1 0 = op ∧ ¬ bit (s.regAt Reg.DF_FR_STAT) 31 then s.begins (.frontier op a.data) cc (fun cc t => t.frOp op a.data cc)
    else s)

/-- FR_QUERY (R281). -/
def execFrQuery (a : RpAcc) (cc : CcFault) (s : State) : Out := done s (s.frWrite 1 a cc)
/-- FR_CLOSE (R281). -/
def execFrClose (a : RpAcc) (cc : CcFault) (s : State) : Out := done s (s.frWrite 2 a cc)
/-- FR_OPEN (R281). -/
def execFrOpen (a : RpAcc) (cc : CcFault) (s : State) : Out := done s (s.frWrite 3 a cc)

/-! ### The pairing table and exposure (R276, R277) -/

/-- The pairing table is in use. -/
def State.pairOn (s : State) : Bool := bit (s.regAt Reg.DF_PAIR_CTL) 0
/-- The entry of a page index is used: EN is 1 and the entry is not in parity error (R276, R352). -/
def State.pairUse (s : State) (p : Nat) : Bool := s.pairOn && !s.scrub.pairBad.contains p
/-- A parity error of the pairing table (1) or of the Gambit ladder (2): its record and the SW page's bit (R352). -/
def State.cfgParity (s : State) (which entry : Nat) : State :=
  (s.raise 0x7000 5).blot 0x7000 0x17 none [BitVec.ofNat 32 which, BitVec.ofNat 32 entry]
/-- A parity error is found in the pairing entry of a page. -/
def State.pairParity (s : State) (p : Nat) : State :=
  if s.pairUse p then (s.modScrub (fun x => { x with pairBad := x.pairBad ++ [p] })).cfgParity 1 p else s
/-- The pairing entry of a page index. -/
def State.pairOf (s : State) (p : Nat) : Word := Tab.getD (fun _ => 0) s.pairing p
/-- The page type of a page on a lane. -/
def State.pageType (s : State) (g p : Nat) : Nat := if s.pairUse p then fld (s.pairOf p) 13 12 else p % (s.geo g).types
/-- The effective closing page of a page on a lane. -/
def State.closing (s : State) (g p : Nat) : Nat :=
  min ((s.geo g).pages - 1) (max p (if s.pairUse p then fld (s.pairOf p) 11 0 else p))
/-- The exposure of a record: the lowest page written whose closing page has not completed. -/
def State.exposure (s : State) (g : Nat) (r : FrRec) : Option Nat :=
  ((List.range (r.done - r.base)).map (· + r.base)).find? (fun q => decide (r.done ≤ s.closing g q))

end Sys2Proof.Machine
end

