-- ==== Sys2Proof/Machine/Levels.lean ====
section
/-! DEFINITION. Read-level tracking (R251 to R259) and the Gambit ladder's steps (R261). -/
namespace Sys2Proof.Machine
open Sys2Proof

/-! ### Entries of the read-level table (R253) -/

/-- An entry of the read-level table. -/
structure RlEntry where
  ofs     : List Int
  acc     : Int
  temp    : Nat
  fast    : Nat
  clamped : Bool
  valid   : Bool
  deriving DecidableEq, Repr

/-- The entry in its eight bytes. -/
def rlDecode (n : Nat) : RlEntry :=
  { ofs := (List.range 4).map (fun i => signed 8 (n / 2 ^ (8 * i))), acc := signed 16 (n / 2 ^ 32), temp := n / 2 ^ 48 % 256,
    fast := n / 2 ^ 56 % 32, clamped := decide (n / 2 ^ 61 % 2 = 1), valid := decide (n / 2 ^ 63 % 2 = 1) }
/-- The eight bytes of an entry. -/
def rlEncode (e : RlEntry) : List Byte :=
  leBytes 8 ((List.range 4).foldl (fun a i => a + unsigned 8 (e.ofs.getD i 0) * 2 ^ (8 * i)) 0 + 2 ^ 32 * (unsigned 16 e.acc) +
    2 ^ 48 * (e.temp % 256) + 2 ^ 56 * (((e.fast % 32) + (if e.clamped then 32 else 0) + (if e.valid then 128 else 0))))
/-- Four signed offsets as the word of CMDRD field 9. -/
def ofsWord (l : List Int) : Word :=
  BitVec.ofNat 32 ((List.range 4).foldl (fun a i => a + unsigned 8 (l.getD i 0) * 2 ^ (8 * i)) 0)
/-- The signed bytes of a word. -/
def wordOfs (w : Word) : List Int := (List.range 4).map (fun i => signed 8 (fld w (8 * i + 7) (8 * i)))
/-- The offset of entry i of a die's table. -/
def State.rlOff (s : State) (die i : Nat) : Nat := 2048 * (fld (s.regAt Reg.CAL_RL_BASE) 29 11) + 2048 * die + i * 8
/-- The entry index of a MAW (R254). -/
def State.rlIndex (s : State) (m : BitVec 64) : Nat :=
  let g := mawLane m
  (mawBlock m >>> fld (s.regAt (lnA g Reg.LN_RL_GEOM)) 3 0) * 4 + s.pageType g (mawPage m) % 4
/-- CAL_RL_CTL.EN. -/
def State.rlOn (s : State) : Bool := bit (s.regAt Reg.CAL_RL_CTL) 0
/-- CAL_RL_CTL.HOLD. -/
def State.rlHold (s : State) : Bool := bit (s.regAt Reg.CAL_RL_CTL) 2
/-- LIM of CAL_RL_GAIN; above 127 acts as 127. -/
def State.rlLim (s : State) : Int := (min 127 (fld (s.regAt Reg.CAL_RL_GAIN) 23 16) : Nat)
/-- FAST_N. -/
def State.rlFastN (s : State) : Nat := fld (s.regAt Reg.CAL_RL_GAIN) 12 8
/-- The current temperature of a lane's region in °C + 40, from the 1 ms sample; none while the code is 0x3FF (R259). -/
def State.tempNow (s : State) (g : Nat) : Option Nat :=
  if s.edgeCode g = 0x3FF#10 then none else some (min 254 ((s.edgeCode g).toNat / 4))
/-- The settings of a page type. -/
def State.rlSet (s : State) (k : Nat) : Word := s.regAt (Reg.CAL_RL_PT + 4 * k)
/-- A signed weight of a page type's settings. -/
def rlWeight (w : Word) (i : Nat) : Int := signed 4 (fld w (4 * i + 3) (4 * i))
/-- n / 16 rounded to nearest, halves away from zero. -/
def div16 (n : Int) : Int := if 0 ≤ n then (n + 8) / 16 else -((-n + 8) / 16)

/-- A re-baseline of an entry of lane g and page type k when one is due (R259): the entry, and whether it counts. -/
def State.rebase (s : State) (g k : Nat) (e : RlEntry) : RlEntry × Bool :=
  let delta := fld (s.regAt Reg.CAL_TEMP_DELTA) 7 0
  match s.tempNow g with
  | none => (e, false)
  | some t =>
    if delta = 0 ∨ s.rlHold then (e, false)
    else if e.temp = 255 then ({ e with temp := t }, false)
    else if (max t e.temp - min t e.temp) * 4 ≤ delta then (e, false)
    else
      let w := s.rlSet k
      let adj := div16 (signed 8 (fld w 31 24) * ((t : Int) - e.temp))
      ({ e with
        ofs := (List.range 4).map (fun i => clampInt (e.ofs.getD i 0 + adj * rlWeight w i) (-s.rlLim) s.rlLim),
        acc := 0, fast := s.rlFastN, temp := t }, true)
/-- A record of class RL_STORE. -/
def State.rlStore (s : State) (die i : Nat) : State := s.blot 0x4000 0x20 none [BitVec.ofNat 32 die, BitVec.ofNat 32 i]
/-- A re-baseline counted. -/
def State.countRebase (s : State) (g : Nat) (b : Bool) : State := if b then s.count (lnA g Reg.LN_RL_REBASE) else s
/-- The read-level lookup at dispatch (R255): CMDRD field 9, and whether samples of the command may be applied. -/
def State.rlLookup (s : State) (u : Asker) (m : BitVec 64) (cc : CcFault) : State × Word × Bool :=
  if ¬ s.rlOn then (s, 0, true)
  else
    let g := mawLane m
    let die := mawDie m
    let i := s.rlIndex m
    let r := s.ccLoad u (s.rlOff die i) 8 cc
    match r.2 with
    | none => (r.1.rlStore die i, 0, false)
    | some n =>
      let e := rlDecode n
      if ¬ e.valid ∧ s.rlHold then (r.1, 0, true)
      else
        let e1 : RlEntry := if e.valid then e
          else { ofs := [0, 0, 0, 0], acc := 0, temp := (s.tempNow g).getD 255, fast := s.rlFastN, clamped := false, valid := true }
        let b := if e.valid then r.1.rebase g (i % 4) e1 else (e1, false)
        if b.1 = e then (r.1, ofsWord e.ofs, true)
        else
          let t := r.1.ccStore u (s.rlOff die i) (rlEncode b.1) cc
          if t.2 then (t.1.countRebase g b.2, ofsWord b.1.ofs, true) else (t.1.rlStore die i, 0, false)
/-- LN_RL_LAST of a sample. -/
def rlLast (applied : Bool) (i : Nat) (x : Int) : Word :=
  flag applied 24 ||| BitVec.ofNat 32 (65536 * (i % 256) + unsigned 14 x)
/-- The step of R256 on an entry: the entry after a sample x, whether a step was made and whether it was clamped. -/
def State.rlStep (s : State) (k : Nat) (e : RlEntry) (x : Int) : RlEntry × Bool × Bool :=
  let w := s.rlSet k
  let slope := signed 8 (fld w 23 16)
  let gain := s.regAt Reg.CAL_RL_GAIN
  let acc := clampInt (e.acc + x) (-32767) 32767
  let sh := if 0 < e.fast then fld gain 7 4 else fld gain 3 0
  let h : Int := min 32767 (slope.natAbs * 2 ^ sh)
  let sg : Int := if 0 ≤ slope then 1 else -1
  let sigma : Int := if h ≤ acc then -sg else if acc ≤ -h then sg else 0
  let acc1 := if h ≤ acc then acc - h else if acc ≤ -h then acc + h else acc
  let e1 := { e with acc := acc1, fast := e.fast - 1 }
  if sigma = 0 then (e1, false, false)
  else
    let v (i : Nat) : Int := e.ofs.getD i 0 + sigma * rlWeight w i
    let past := (List.range 4).any (fun i => decide (s.rlLim < v i ∨ v i < -s.rlLim))
    ({ e1 with ofs := (List.range 4).map (fun i => clampInt (v i) (-s.rlLim) s.rlLim), clamped := e1.clamped || past }, true, past)
/-- A sample x of a frame of a command with MAW m, whose dispatch took offsets d (R256, R258). -/
def State.sample (s : State) (u : Asker) (m : BitVec 64) (d : Word) (sensed ok : Bool) (x : Int) (cc : CcFault) : State :=
  let g := mawLane m
  let die := mawDie m
  let i := s.rlIndex m
  let x := clampInt x (-4096) 4096
  let k := i % 4
  let last (t : State) (b : Bool) : State := t.setReg (lnA g Reg.LN_RL_LAST) (rlLast b i x)
  let s1 := s.count (lnA g Reg.LN_RL_SAMPLES)
  if ¬ s.rlOn ∨ s.rlHold ∨ ¬ bit (s.regAt (lnA g Reg.LN_RL_FEAT)) 8 ∨ ¬ ok then last s1 false
  else
    let r := s1.ccLoad u (s.rlOff die i) 8 cc
    match r.2 with
    | none => last (r.1.rlStore die i) false
    | some n =>
      let e := rlDecode n
      let b := r.1.rebase g k e
      let put (t : State) (e2 : RlEntry) : State × Bool :=
        if e2 = e then (t, true) else t.ccStore u (s.rlOff die i) (rlEncode e2) cc
      if signed 8 (fld (s.rlSet k) 23 16) = 0 then
        let t := put r.1 b.1
        last (if t.2 then t.1.countRebase g b.2 else t.1.rlStore die i) false
      else if ofsWord b.1.ofs ≠ d ∨ ¬ sensed then
        let t := put r.1 b.1
        last ((if t.2 then t.1.countRebase g b.2 else t.1.rlStore die i).count (lnA g Reg.LN_RL_STALE)) false
      else
        let f := r.1.rlStep k b.1 x
        let t := put r.1 f.1
        if ¬ t.2 then last (t.1.rlStore die i) false
        else
          let t1 := t.1.countRebase g b.2
          let t2 := if f.2.1 then t1.count (lnA g Reg.LN_RL_STEPS) else t1
          let t3 := if f.2.2 then (t2.count (lnA g Reg.LN_RL_CLAMP)).raise (lnA g 0) 9 else t2
          last t3 true

/-- A sample reaches its entry once the entry's line is there (R258). -/
def State.sampleLater (s : State) (c : Nat) (m : BitVec 64) (d : Word) (sensed ok : Bool) (x : Int) (cc : CcFault) : State :=
  s.begins (.sample c m d sensed ok x) cc (fun cc t => t.sample (unitCluster c) m d sensed ok x cc)

/-! ### The Gambit ladder (R261, R262, R265) -/

/-- DATA0 of step st of page type k. -/
def State.gbData0 (s : State) (k st : Nat) : Word := s.regAt (winKey Reg.CAL_GB_DATA0 (k * 32 + st))
/-- DATA1 of step st of page type k. -/
def State.gbData1 (s : State) (k st : Nat) : Word := s.regAt (winKey Reg.CAL_GB_DATA1 (k * 32 + st))
/-- VALID of a step; one in parity error acts as though it were 0 (R352). -/
def State.stepValid (s : State) (k st : Nat) : Bool := bit (s.gbData1 k st) 31 && !s.scrub.gbBad.contains (k * 32 + st)
/-- A parity error is found in a step. -/
def State.stepParity (s : State) (k st : Nat) : State :=
  (s.modScrub (fun x => { x with gbBad := if x.gbBad.contains (k * 32 + st) then x.gbBad else x.gbBad ++ [k * 32 + st] })).cfgParity 2
    (k * 32 + st)
/-- The ladder is empty: step 0 has VALID = 0, or FALLBACK (R261, R265). -/
def State.ladderEmpty (s : State) (k : Nat) : Bool := !s.stepValid k 0 || decide (s.glb.mode = .fallback)
/-- The offsets of a step against d (R262). -/
def State.gbOffsets (s : State) (k st : Nat) (d : Word) : Word :=
  let w := wordOfs (s.gbData0 k st)
  if bit (s.gbData1 k st) 1 then s.gbData0 k st
  else ofsWord ((List.range 4).map (fun i => clampInt ((wordOfs d).getD i 0 + w.getD i 0) (-128) 127))
/-- ADOPT: the entry takes a successful step's offsets, where it still holds d (R262, R265). -/
def State.adopt (s : State) (u : Asker) (m : BitVec 64) (d o : Word) (cc : CcFault) : State :=
  if s.rlOn ∧ ¬ s.rlHold then
    let die := mawDie m
    let i := s.rlIndex m
    let r := s.ccLoad u (s.rlOff die i) 8 cc
    match r.2 with
    | none => r.1.rlStore die i
    | some n =>
      let e := rlDecode n
      if ofsWord e.ofs = d then
        let t := r.1.ccStore u (s.rlOff die i) (rlEncode { e with ofs := wordOfs o, acc := 0, fast := s.rlFastN }) cc
        if t.2 then t.1 else t.1.rlStore die i
      else r.1
  else s

end Sys2Proof.Machine
end

