-- ==== Sys2Proof/Machine/Ldpc.lean ====
section
/-! DEFINITION. Frames (R228 to R231), the randomiser (R232, R233), the LDPC code and its encoder (R234, R235), and the two
decoders (R240, R241). -/
namespace Sys2Proof.Machine
open Sys2Proof

/-! ### The randomiser (R232, R233) -/

/-- n bytes of the generator's output from a state, first byte first. -/
def lfsrBytes : Nat → Word → List Nat
  | 0, _ => []
  | n + 1, w => let r := lfsrBits 8 w; r.1 :: lfsrBytes n r.2
/-- The seed of frame f of a plane page (R233). -/
def frameSeed (die f page dieBlk : Nat) : Word :=
  let w := BitVec.ofNat 32 (crc32c (natBytes 4 die)) ^^^ BitVec.ofNat 32 (f * 2 ^ 25 ||| 2 ^ 13 * page ||| dieBlk)
  if w = 0 then 0xFFFFFFFF#32 else w
/-- n bytes of the sequence of a seed, as a number. -/
def randNat (seed : Word) (n : Nat) : Nat := bytesNat (lfsrBytes n (lfsrSeed seed))
/-- A frame with its 4,160 payload bytes XORed with the sequence of a seed. -/
def randomise (seed : Word) (f : Frame) : Frame := f ^^^ BitVec.ofNat 37376 (randNat seed 4160)

/-! ### The code (R234) -/

/-- The non-zero circulants of H: row block, column block, shift. -/
def ldpcBlocks : List (Nat × Nat × Nat) :=
  (List.range 130).flatMap (fun j => (List.range 4).map (fun m =>
    ((j + 4 * m) % 16, j, (37 * (m + 1) * (j + 1) + 11 * m) % 256))) ++
  [(0, 130, 1), (8, 130, 0), (15, 130, 1)] ++
  (List.range 15).flatMap (fun q => [(q, 131 + q, 0), (q + 1, 131 + q, 0)])
/-- Column weight of a column block. -/
def colWeight (j : Nat) : Nat := if j < 130 then 4 else if j = 130 then 3 else 2
/-- 256 bits rotated right by s: bit t is bit (t + s) % 256. -/
def rotr256 (x s : Nat) : Nat := ((x >>> s) ||| (x <<< (256 - s))) % 2 ^ 256
/-- Column block j of a frame. -/
def colBlock (x j : Nat) : Nat := (x >>> (256 * j)) % 2 ^ 256
/-- The contribution of the column blocks that satisfy a test to row block i. -/
def rowSum (x i : Nat) (p : Nat → Bool) : Nat :=
  ldpcBlocks.foldl (fun a b => if b.1 = i ∧ p b.2.1 then a ^^^ rotr256 (colBlock x b.2.1) b.2.2 else a) 0
/-- The syndrome: its sixteen row blocks. -/
def syndrome (x : Nat) : List Nat := (List.range 16).map (fun i => rowSum x i (fun _ => true))
/-- The parity blocks 1 to 15 that the dual diagonal yields (R235). -/
def parityChain (s : Nat → Nat) (p0 : Nat) : Nat → Nat → List Nat
  | 0, _ => []
  | n + 1, prev =>
    let q := 15 - n
    let p := if q = 1 then s 0 ^^^ rotr256 p0 1 else s (q - 1) ^^^ prev ^^^ (if q = 9 then p0 else 0)
    p :: parityChain s p0 n p
/-- The parity of a payload of 33,280 bits (R235). -/
def ldpcParity (payload : Nat) : Nat :=
  let rows := (List.range 16).map (fun i => rowSum payload i (fun j => decide (j < 130)))
  let p0 := rows.foldl (fun a b => a ^^^ b) 0
  let ps := p0 :: parityChain (fun i => rows.getD i 0) p0 15 0
  ps.foldr (fun b a => b + 2 ^ 256 * a) 0
/-- The codeword of a payload. -/
def ldpcEncode (payload : BitVec 33280) : Frame :=
  BitVec.ofNat 37376 (payload.toNat + 2 ^ 33280 * (ldpcParity payload.toNat))

/-! ### The hard decoder (R240) -/

/-- The result of a decode: success, the bits, the iterations. -/
structure Decoded where
  ok    : Bool
  bits  : Nat
  iters : Nat
  deriving DecidableEq, Repr
/-- The unsatisfied checks of the bits of a column block, as three bit planes of the counts 0 to 4. -/
def unsat (syn : List Nat) (j : Nat) : Nat × Nat × Nat :=
  ldpcBlocks.foldl (fun (a : Nat × Nat × Nat) b =>
    if b.2.1 = j then
      let v := rotr256 (syn.getD b.1 0) ((256 - b.2.2) % 256)
      let c0 := a.1 &&& v
      let c1 := a.2.1 &&& c0
      (a.1 ^^^ v, a.2.1 ^^^ c0, a.2.2 ^^^ c1)
    else a) (0, 0, 0)
/-- The bits of a column block that flip: 2·u > w. -/
def flipMask (u : Nat × Nat × Nat) (w : Nat) : Nat := if w = 4 then (u.1 &&& u.2.1) ||| u.2.2 else u.2.1 ||| u.2.2
/-- The bits whose count is 2. -/
def twoMask (u : Nat × Nat × Nat) : Nat := u.2.1 &&& (u.1 ^^^ (2 ^ 256 - 1))
/-- The set of bits that an iteration flips: none is the empty set (R240). -/
def flips (syn : List Nat) (refeed : Bool) : Nat :=
  let us := (List.range 146).map (fun j => unsat syn j)
  let f := ((List.range 146).map (fun j => flipMask (us.getD j (0, 0, 0)) (colWeight j))).foldr (fun b a => b + 2 ^ 256 * a) 0
  if f = 0 ∧ refeed then ((List.range 130).map (fun j => twoMask (us.getD j (0, 0, 0)))).foldr (fun b a => b + 2 ^ 256 * a) 0 else f
/-- HDE decoding with some iterations left. -/
def hdeLoop (refeed : Bool) : Nat → Nat → Nat → Decoded
  | left, it, x =>
    let syn := syndrome x
    if syn.all (· == 0) then { ok := true, bits := x, iters := it }
    else match left with
      | 0 => { ok := false, bits := x, iters := it }
      | n + 1 =>
        let f := flips syn refeed
        if f = 0 then { ok := false, bits := x, iters := it } else hdeLoop refeed n (it + 1) (x ^^^ f)
/-- HDE decoding of a frame (R240). -/
def hdeDecode (refeed : Bool) (limit : Nat) (x : Frame) : Decoded := hdeLoop refeed limit 0 x.toNat

/-! ### The soft decoder (R241) -/

/-- The LLR of each bit from its hard value and its soft sensings. -/
def llrs (hard : Frame) (soft : List Frame) (strong weak : Nat) : Array Int :=
  ((List.range 37376).map (fun n =>
    let h := hard.getLsbD n
    let m : Int := if soft.all (fun f => f.getLsbD n == h) then strong else weak
    if h then -m else m)).toArray
/-- The circulants of a row block with their places in the list. -/
def rowBlocks (i : Nat) : List (Nat × Nat × Nat) :=
  (ldpcBlocks.zipIdx.filter (fun b => b.1.1 == i)).map (fun b => (b.2, b.1.2.1, b.1.2.2))
/-- A value clamped to −31 to 31. -/
def clamp31 (v : Int) : Int := clampInt v (-31) 31
/-- One check: row t of a row block, on the bits' values p and the check's messages r. -/
def sdeCheck (bs : List (Nat × Nat × Nat)) (st : Array Int × Array Int) (t : Nat) : Array Int × Array Int :=
  let es := bs.map (fun b => (b.2.1 * 256 + (t + b.2.2) % 256, b.1 * 256 + t))
  let q := es.map (fun e => clamp31 (st.1.getD e.1 0 - st.2.getD e.2 0))
  (es.zip q).zipIdx.foldl (fun (a : Array Int × Array Int) e =>
    let others := q.eraseIdx e.2
    let sg : Int := others.foldl (fun p v => p * v.sign) 1
    let mn : Nat := others.foldl (fun p v => min p v.natAbs) 31
    let r := clamp31 (sg * max 0 ((mn : Int) - 1))
    (a.1.setIfInBounds e.1.1.1 (clamp31 (e.1.2 + r)), a.2.setIfInBounds e.1.1.2 r)) st
/-- One iteration over the sixteen row blocks. -/
def sdeIter (st : Array Int × Array Int) : Array Int × Array Int :=
  (List.range 16).foldl (fun a i => let bs := rowBlocks i; (List.range 256).foldl (sdeCheck bs) a) st
/-- The hard decisions of the bits' values. -/
def sdeBits (p : Array Int) : Nat := (List.range 37376).foldr (fun n a => 2 * a + (if p.getD n 0 < 0 then 1 else 0)) 0
/-- SDE decoding with some iterations left. -/
def sdeLoop : Nat → Nat → Array Int × Array Int → Decoded
  | 0, it, st => { ok := false, bits := sdeBits st.1, iters := it }
  | n + 1, it, st =>
    let st1 := sdeIter st
    let x := sdeBits st1.1
    if (syndrome x).all (· == 0) then { ok := true, bits := x, iters := it + 1 } else sdeLoop n (it + 1) st1
/-- SDE decoding of a frame (R241). -/
def sdeDecode (hard : Frame) (soft : List Frame) (strong weak limit : Nat) : Decoded :=
  sdeLoop limit 0 ((llrs hard soft strong weak).map (4 * ·), Array.replicate (553 * 256) 0)

/-! ### Frame fields (R228, R229) -/

/-- TAG of an owner and a key slot. -/
def tagOf (owner key : Nat) : Nat := owner % 512 + 2 ^ 16 * (key % 4) + 2 ^ 24
/-- ECHO of a plane's MAW for frame f of the plane page. -/
def echoOf (m : BitVec 64) (f : Nat) : Nat := fld m 44 2 * 4 + 2 ^ 48 * (f % 8)
/-- The side data of a frame. -/
def sideOf (tag echo crc seq metaN : Nat) : BitVec 512 :=
  BitVec.ofNat 512 (tag + 2 ^ 64 * echo + 2 ^ 128 * crc + 2 ^ 160 * seq + 2 ^ 192 * metaN)
/-- TAG of side data. -/
def sideTag (d : BitVec 512) : Nat := fld d 63 0
/-- ECHO of side data. -/
def sideEcho (d : BitVec 512) : Nat := fld d 127 64
/-- CRC of side data. -/
def sideCrc (d : BitVec 512) : Nat := fld d 159 128
/-- The 4,096 user bytes of a frame. -/
def frameUser (f : Frame) : BitVec 32768 := f.setWidth 32768
/-- The side data of a frame. -/
def frameSide (f : Frame) : BitVec 512 := BitVec.ofNat 512 (f.toNat >>> 32768)
/-- The frame that is written for user bytes and side data at frame f of a plane page: randomised and encoded (R228,
R233, R235). -/
def writeFrame (user : BitVec 32768) (side : BitVec 512) (die f page dieBlk : Nat) : Frame :=
  let raw := user.toNat + 2 ^ 32768 * side.toNat
  ldpcEncode (BitVec.ofNat 33280 (raw ^^^ randNat (frameSeed die f page dieBlk) 4160))
/-- The bytes of a value's low part as numbers. -/
def bitsBytes (n v : Nat) : List Nat := natBytes n v

end Sys2Proof.Machine
end

