-- ==== Sys2Proof/Machine/Slabs.lean ====
section
/-! DEFINITION. Inkwell (R282 to R292): slabs, their allocation and release, quotas, leases and poison. -/
namespace Sys2Proof.Machine
open Sys2Proof

/-- A slab can be allocated: FREE, not retired (R283, R288). -/
def Slab.open_ (x : Slab) : Bool := x.st = .free && !x.retired
/-- Slabs of the block that are HELD by an instance, its HELD_t (R285). -/
def State.held (s : State) (t : Nat) : Nat := (s.slabs.filter (fun e => decide (e.2.st = .held ∧ e.2.owner = t))).length
/-- LEASED of an instance. -/
def State.leased (s : State) (t : Nat) : Nat :=
  (s.slabs.filter (fun e => decide (e.2.st = .held ∧ e.2.owner = t) && e.2.lease)).length
/-- FREE: the allocatable slabs of the block. -/
def State.freeSlabs (s : State) : Nat := s.nSlabs - (s.slabs.filter (fun e => !e.2.open_)).length
/-- The allocatable slabs of a bank, ascending. -/
def State.bankFree (s : State) (b : Nat) : List Nat :=
  ((List.range 512).map (fun i => 512 * b + i)).filter (fun n => (s.slab n).open_)
/-- MAX of an instance. -/
def State.quotaMax (s : State) (t : Nat) : Nat := fld (s.regAt (winKey Reg.IW_TN_QUOTA t)) 29 16
/-- MIN of an instance. -/
def State.quotaMin (s : State) (t : Nat) : Nat := fld (s.regAt (winKey Reg.IW_TN_QUOTA t)) 13 0
/-- RES_t. -/
def State.resOf (s : State) (t : Nat) : Nat := s.quotaMin t - s.held t
/-- RESERVE: the sum of RES_t over every instance. -/
def State.reserve (s : State) : Nat := (List.range 512).foldl (fun a t => a + s.resOf t) 0
/-- Instance t may take n slabs from bank b (R285). The bank of a dozed cluster gives none before its wake has zero-filled it (R75;
log entry 116). -/
def State.mayTake (s : State) (t n b : Nat) : Bool :=
  decide ((s.cluster b).dozed = false ∧ s.held t + n ≤ s.quotaMax t ∧ n ≤ (s.bankFree b).length ∧ s.reserve - s.resOf t + n ≤ s.freeSlabs)
/-- Instance t takes the n lowest allocatable slabs of bank b: HELD, with its number (R283, R288). -/
def State.takeSlabs (s : State) (t n b : Nat) : State × List Nat :=
  let l := (s.bankFree b).take n
  (l.foldl (fun st k => st.modSlab k (fun x => { x with st := .held, owner := t, poison := false })) s, l)
/-- Slabs are released: they lose their owner and are being zero-filled (R288). -/
def State.dropSlabs (s : State) (l : List Nat) : State :=
  l.foldl (fun st k => st.modSlab k (fun x =>
    if x.st = .held then
      { x with st := .zeroing, poison := false, lease := false, head := false, fetching := false, last := false,
               owner := 0, next := 0 }
    else x)) s

/-- Frames of a command over every plane. -/
def Cmd.frameCount (c : Cmd) : Nat := c.frames.length
/-- The command waits for its slabs: a pending PROGRAM without any (R284). -/
def Cmd.wantsSlabs (c : Cmd) : Bool := c.pkt.opcode = 2 && c.stage = .pending && c.slabs.isEmpty
/-- A command joins the queue of the port that serves a bank (R294). -/
def State.toMover (s : State) (c h b : Nat) : State :=
  s.modPort (s.portOf b) (fun p => { p with moverQ := p.moverQ ++ [(c, h, s.time.toNat)] })
/-- One pending PROGRAM takes its slabs where R285 allows, and its data is then ready to be pulled (R284, R294). -/
def State.allocOne (s : State) (c h : Nat) : State :=
  match s.cmd? c h with
  | some x =>
    if x.wantsSlabs ∧ s.mayTake x.owner x.frameCount c then
      let r := s.takeSlabs x.owner x.frameCount c
      (r.1.modCmd c h (fun y => { y with slabs := r.2 })).toMover c h c
    else s
  | none => s
/-- Every pending PROGRAM without slabs is tried, in order of its cluster and handle (R284, R286). -/
def State.allocPrograms (s : State) : State := s.cmdList.foldl (fun t e => t.allocOne e.1 e.2.1) s
/-- The commands set aside for a slab are candidates again (R285). -/
def State.slabRoom (s : State) : State :=
  { s with cmds := s.cmds.map (fun e => (e.1, e.2.map (fun c => if c.slabWait then { c with slabWait := false } else c))) }
/-- Slabs are released, and pending programs that can now take theirs do so. -/
def State.releaseSlabs (s : State) (l : List Nat) : State := if l.isEmpty then s else (s.dropSlabs l).allocPrograms
/-- The slabs of a lease from its head, through NEXT up to LAST. -/
def State.leaseChain (s : State) (head : Nat) : List Nat :=
  ((List.range 512).foldl (fun (a : List Nat × Option Nat) _ =>
    match a.2 with
    | some n => let x := s.slab n; (a.1 ++ [n], if x.last then none else some (512 * (n / 512) + x.next))
    | none => a) ([], some head)).1
/-- Slabs become a lease, chained in order with HEAD and LAST (R289). -/
def State.makeLease (s : State) (l : List Nat) : State :=
  l.zipIdx.foldl (fun t e => t.modSlab e.1 (fun x =>
    { x with lease := true, head := decide (e.2 = 0), last := decide (e.2 + 1 = l.length),
             next := if e.2 + 1 = l.length then 0 else l.getD (e.2 + 1) 0 % 512 })) s
/-- A beat with zero data under its planned strobes. -/
def WBeat.zero (b : WBeat) : WBeat := wbeat 0 b.strb
/-- Zero data in every beat but one that is presented: that one is held until its transfer (R30, R306). -/
def zeroFrom (held : Bool) (l : List WBeat) : List WBeat := if held then l.take 1 ++ (l.drop 1).map WBeat.zero else l.map WBeat.zero
/-- The beats still to come of the writes that are accepted, or presented, and answer a predicate carry zero data (R306). -/
def Port.blank (q : Port) (f : HpReq → Bool) : Port :=
  { q with queue := q.queue.map (fun r => if r.wr && f r then { r with beats := zeroFrom q.wdata.isEmpty r.beats } else r),
           wdata := q.wdata.zipIdx.map (fun e =>
             match Tab.getD (fun _ => none) q.writes e.1.1 with
             | some o => if f o.req then (e.1.1, zeroFrom (decide (e.2 = 0)) e.1.2) else e.1
             | none => e.1) }
/-- A channel has one request fewer outstanding. -/
def State.lessOut (s : State) (i : Issuer) : State :=
  match i with
  | .mover ch _ _ _ | .manager ch | .descriptor ch => s.modChannel ch (fun x => { x with out := x.out - 1 })
  | _ => s
/-- A request is never made: its channel and its command count it no longer. -/
def State.unissue (s : State) (r : HpReq) : State :=
  match r.issuer, r.wr with
  | .mover _ h c ser, true =>
    (s.lessOut r.issuer).modCmd c h (fun y => if y.serial = ser then { y with writesOut := y.writesOut - 1 } else y)
  | i, _ => s.lessOut i
/-- The requests that answer a predicate and that no port presents yet are withdrawn: none is issued after the next beat boundary
(R303 to R306, R308). -/
def State.withdraw (s : State) (f : HpReq → Bool) : State :=
  (List.range 4).foldl (fun t p =>
    let q := t.port p
    ((q.queue.drop q.shown).filter f).foldl State.unissue (t.modPort p (fun q => q.withdraw f))) s
/-- The transfers of some requests stop: no further request, and zero data in the beats of writes still to come (R306). -/
def State.blankBeats (s : State) (f : HpReq → Bool) : State :=
  (List.range 4).foldl (fun t p => t.modPort p (fun q => q.blank f)) (s.withdraw f)
/-- An uncorrectable byte is found in a slab: no byte of it reaches the host from then on (R291). -/
def State.slabPoison (s1 : State) (n : Nat) : State :=
  let x := s1.slab n
  if x.st = .held then
    (((s1.modSlab n (fun x => { x with poison := true })).blankBeats (fun r => r.wr && decide (r.dest = n + 1))).raise 0xA000 3).blot 0xA000 0x08
      (some x.owner) [BitVec.ofNat 32 n]
  else s1.modSlab n (fun x => { x with st := .zeroing })
/-- An uncorrectable byte is found in a slab, and qualifies its row once it has been dealt with (R291, R356). -/
def State.slabUncorr (s : State) (n j : Nat) : State := (s.slabPoison n).uncorrRow (slabRow n j).1 (slabRow n j).2
/-- A parity error on a slab's state word: the slab is retired until a reset, and one that was HELD counts as poisoned
for its command (R288). -/
def State.slabRetire (s : State) (n : Nat) : State :=
  if (s.slab n).retired then s
  else (((s.modSlab n (fun x => { x with retired := true, poison := decide (x.st = .held) })).blankBeats (fun r => r.wr && decide (r.dest = n + 1))).modReg Reg.IW_RETIRED (fun w =>
    putFld w 13 0 (satField 14 (fld w 13 0 + 1)))).blot 0xA000 0x09 none [BitVec.ofNat 32 n]
/-- A read of len bytes of a slab from an offset with what the reader finds at the first, at the IW page's point: an opportunity at each
byte, whose kinds flip one bit, corrected in place, or two (R435, R282, R291). -/
def State.slabRead (s : State) (n j len : Nat) (ecc : Ecc) : State :=
  let o := s.opportunities 0xA000 0 len
  let s1 := ((firedAt o.2 8).map (· + j) ++ (if ecc = Ecc.corrected then [j] else [])).foldl (fun t k => t.corrected (slabRow n k).1 (slabRow n k).2) o.1
  ((firedAt o.2 9).map (· + j) ++ (if ecc = Ecc.uncorrectable then [j] else [])).foldl (fun t k => t.slabUncorr n k) s1

/-- ZERO_FILL_DONE (R288): a zero-filled slab becomes FREE and allocatable. tag says that the slab's state word, of whichever state,
fails its parity: the slab is retired. -/
def execZeroFillDone (slab : Fin 8192) (s : State) (tag : Bool := false) : Out :=
  if s.awake ∧ slab.val < s.nSlabs ∧ tag ∧ ¬ (s.cluster (slab.val / 512)).dozed then done s (s.slabRetire slab.val)
  else if s.awake ∧ slab.val < s.nSlabs ∧ (s.slab slab.val).st = .zeroing then
    let s1 := s.modSlab slab.val (fun x => { Slab.init with retired := x.retired })
    done s (s1.allocPrograms.slabRoom)
  else idle s

/-- The sum of MIN over every instance, with a new MIN for instance t. -/
def State.minSum (s : State) (t m : Nat) : Nat := (List.range 512).foldl (fun a i => a + if i = t then m else s.quotaMin i) 0
/-- QUOTA_WRITE (R287): new limits for the selected instance, or a refusal. -/
def execQuotaWrite (a : RpAcc) (s : State) : Out :=
  done s (s.portWrite Reg.IW_TN_QUOTA a (fun locked s =>
    if locked then s
    else
      let t := fld (s.regAt Reg.IW_TN_SEL) 8 0
      let mn := fld a.data 13 0
      let mx := fld a.data 29 16
      if mx < mn ∨ s.nSlabs < mx ∨ s.nSlabs < s.minSum t mn then s.raise 0xA000 4
      else ((s.writeRow Reg.IW_TN_QUOTA false a.data).allocPrograms).slabRoom))

end Sys2Proof.Machine
end

