-- ==== Sys2Proof/Machine/Rings.lean ====
section
/-! DEFINITION. Ring contexts and their commands (R183 to R186), doorbells (R187 to R189), ring errors (R211), and the retry
of held lookups (R327, R328). -/
namespace Sys2Proof.Machine
open Sys2Proof

/-! ### Ring contexts (R185) -/

/-- The sixteen words of a ring context. -/
abbrev Ctx := List Word
/-- Word k of a context. -/
def cw (x : Ctx) (k : Nat) : Word := x.getD k 0
/-- A context with a word replaced. -/
def Ctx.setW (x : Ctx) (k : Nat) (w : Word) : Ctx := x.set k w
/-- KIND: 0 OFF, 1 SUB, 2 CPL. -/
def Ctx.kind (x : Ctx) : Nat := fld (cw x 0) 1 0
/-- STATE: 0 ACTIVE, 1 FENCED, 2 ERROR. -/
def Ctx.state (x : Ctx) : Nat := fld (cw x 0) 3 2
/-- URGENT. -/
def Ctx.urgent (x : Ctx) : Bool := bit (cw x 0) 4
/-- PRIO. -/
def Ctx.prio (x : Ctx) : Nat := fld (cw x 0) 7 5
/-- The number of slots. -/
def Ctx.size (x : Ctx) : Nat := 2 ^ fld (cw x 0) 11 8
/-- HOME_CLUSTER. -/
def Ctx.home (x : Ctx) : Nat := fld (cw x 0) 15 12
/-- OWNER. -/
def Ctx.owner (x : Ctx) : Nat := fld (cw x 0) 24 16
/-- BASE. -/
def Ctx.base (x : Ctx) : Nat := (cw x 1).toNat + 2 ^ 32 * (cw x 2).toNat
/-- CPL_RING. -/
def Ctx.cplRing (x : Ctx) : Nat := fld (cw x 3) 14 0
/-- VEC. -/
def Ctx.vecNo (x : Ctx) : Nat := fld (cw x 3) 18 16
/-- VEC_EN. -/
def Ctx.vecEn (x : Ctx) : Bool := bit (cw x 3) 19
/-- PROD. -/
def Ctx.prod (x : Ctx) : Nat := fld (cw x 4) 15 0
/-- CONS. -/
def Ctx.cons (x : Ctx) : Nat := fld (cw x 5) 15 0
/-- OUTSTANDING. -/
def Ctx.out (x : Ctx) : Nat := fld (cw x 6) 15 0
/-- PASS. -/
def Ctx.pass (x : Ctx) : Bool := bit (cw x 6) 16
/-- The context with its residues recomputed. -/
def Ctx.residues (x : Ctx) : Ctx :=
  x.setW 6 (putFld (putFld (putFld (cw x 6) 21 20 (x.prod % 3)) 23 22 (x.cons % 3)) 25 24 (x.out % 3))
/-- The residues that a context holds are those of its PROD, CONS and OUTSTANDING (R185, R353). -/
def Ctx.sound (x : Ctx) : Bool :=
  fld (cw x 6) 21 20 = x.prod % 3 ∧ fld (cw x 6) 23 22 = x.cons % 3 ∧ fld (cw x 6) 25 24 = x.out % 3
/-- PROD set. -/
def Ctx.setProd (x : Ctx) (v : Nat) : Ctx := (x.setW 4 (putFld (cw x 4) 15 0 v)).residues
/-- CONS set. -/
def Ctx.setCons (x : Ctx) (v : Nat) : Ctx := (x.setW 5 (putFld (cw x 5) 15 0 v)).residues
/-- OUTSTANDING set. -/
def Ctx.setOut (x : Ctx) (v : Nat) : Ctx := (x.setW 6 (putFld (cw x 6) 15 0 v)).residues
/-- STATE set. -/
def Ctx.setState (x : Ctx) (v : Nat) : Ctx := x.setW 0 (putFld (cw x 0) 3 2 v)
/-- PKT_COUNT: one more. -/
def Ctx.countPkt (x : Ctx) : Ctx := x.setW 8 (cw x 8 + 1)
/-- DROP_COUNT: n more; it saturates on a CPL ring. That a SUB ring's wraps is the model's choice (R185; log entry 136). -/
def Ctx.countDrop (x : Ctx) (n : Nat) : Ctx :=
  x.setW 9 (if x.kind = 2 then satWord ((cw x 9).toNat + n) else cw x 9 + BitVec.ofNat 32 n)
/-- Slots of a ring that hold nothing and may be filled. -/
def Ctx.freeSlots (x : Ctx) : Nat := x.size - 1 - (x.prod + x.size - x.cons % x.size) % x.size

/-- The backing-store offset of a ring's context (R183). -/
def State.ringOff (s : State) (n : Nat) : Nat := 2048 * (fld (s.regAt Reg.TN_RING_BASE) 29 11) + n * 64
/-- A context through the Context Cache; none is STORE_ERR. -/
def State.ringLoad (s : State) (u : Asker) (n : Nat) (cc : CcFault) : State × Option Ctx :=
  let r := s.ccLoad u (s.ringOff n) 64 cc
  (r.1, r.2.map (fun v => (List.range 16).map (fun k => BitVec.ofNat 32 (v >>> (32 * k)))))
/-- A context stored; false is STORE_ERR. -/
def State.ringStore (s : State) (u : Asker) (n : Nat) (x : Ctx) (cc : CcFault) : State × Bool :=
  s.ccStore u (s.ringOff n) (leBytes 64 (leWords x)) cc
/-- A context as the block would now read it, without a lookup; none outside the store. -/
def State.ringPeek (s : State) (n : Nat) : Option Ctx :=
  if s.inStore (s.ringOff n) 64 then
    some ((List.range 16).map (fun k => ((s.lineNow (s.ringOff n / 128)) >>> (8 * (s.ringOff n % 128) + 32 * k)).setWidth 32))
  else none
/-- A context changed by a function, where it can be reached; whether it was. -/
def State.ringModify (s : State) (u : Asker) (n : Nat) (cc : CcFault) (f : Ctx → Ctx) : State × Bool :=
  let r := s.ringLoad u n cc
  match r.2 with
  | some x => r.1.ringStore u n (f x) cc
  | none => (r.1, false)

/-- What the block keeps of an installed ring beside its context: KIND in [31:30], OWNER in [24:16], CPL_RING in [14:0]. -/
def ringNote (x : Ctx) : Word := BitVec.ofNat 32 (2 ^ 30 * x.kind + 2 ^ 16 * x.owner + (if x.kind = 1 then x.cplRing else 0))
/-- The note of a ring; 0 while OFF. -/
def State.note (s : State) (n : Nat) : Word := Tab.getD (fun _ => 0) s.rings n
/-- A note written. -/
def State.setNote (s : State) (n : Nat) (w : Word) : State := { s with rings := Tab.setD (fun _ => 0) s.rings n w }
/-- RINGS of an instance (TN_RES). -/
def State.ringsOf (s : State) (t : Nat) : List Nat := (s.rings.filter (fun e => decide (fld e.2 24 16 = t))).map Prod.fst
/-- The SUB rings that name a CPL ring. -/
def State.naming (s : State) (n : Nat) : List Nat :=
  (s.rings.filter (fun e => decide (fld e.2 31 30 = 1 ∧ fld e.2 14 0 = n))).map Prod.fst

/-! ### Instances (R383) -/

/-- The state of an instance; 511 is always ACTIVE. -/
def State.tnState (s : State) (t : Nat) : TnState := if t = 511 then .active else Tab.getD (fun _ => .free) s.tenants.st t
/-- TN_SCHED of an instance. -/
def State.tnSched (s : State) (t : Nat) : Word := s.regAt (winKey Reg.TN_SCHED t)
/-- The scheduler weight of an instance: 255 for the Manager, 0 acts as 1 (R215, TN_SCHED). -/
def State.weight (s : State) (t : Nat) : Nat := if t = 511 then 255 else atLeast1 (fld (s.tnSched t) 7 0)
/-- TN_CPL_CFG of an instance. -/
def State.tnCpl (s : State) (t : Nat) : Word := s.regAt (winKey Reg.TN_CPL_CFG t)
/-- MAX_RINGS of an instance. -/
def State.maxRings (s : State) (t : Nat) : Nat := fld (s.regAt (winKey Reg.TN_RES t)) 15 0

/-! ### Ring commands (R186, R385) -/

/-- The window registers. -/
def State.window (s : State) : Ctx := (List.range 16).map (fun k => s.regAt (Reg.TN_RING_WIN + 4 * k))
/-- RESULT of TN_RING_STAT. -/
def State.ringResult (s : State) (r : Nat) : State := s.setReg Reg.TN_RING_STAT (BitVec.ofNat 32 r)
/-- Every field of a window's context is in range, and the rings of its OWNER stay within MAX_RINGS; the SUB ring's
CPL_RING is checked apart. -/
def State.ctxInRange (s : State) (x : Ctx) : Bool :=
  let sz := fld (cw x 0) 11 8
  decide ((x.kind = 1 ∨ x.kind = 2) ∧ x.state = 0 ∧ 6 ≤ sz ∧ fld (cw x 0) 31 25 = 0 ∧ fld (cw x 1) 11 0 = 0 ∧
    fld (cw x 2) 31 20 = 0 ∧ (x.kind = 1 → x.home < s.nClusters)) &&
    (List.range 6).all (fun k => decide (cw x (10 + k) = 0)) &&
    decide ((s.ringsOf x.owner).length + 1 ≤ s.maxRings x.owner)
/-- The window's context as it is installed: indices, PASS, residues and words 7 to 9 zero. -/
def Ctx.fresh (x : Ctx) : Ctx :=
  ((((((x.setW 4 0).setW 5 0).setW 6 0).setW 7 0).setW 8 0).setW 9 0)
/-- TN_RING_CMD WRITE on ring n. -/
def State.ringWrite (s : State) (n : Nat) (cc : CcFault) : State :=
  let w := s.window
  let r := s.ringLoad unitRingCmd n cc
  match r.2 with
  | none => r.1.ringResult 5
  | some x =>
    if x.kind ≠ 0 then r.1.ringResult 1
    else if ¬ r.1.ctxInRange w then r.1.ringResult 2
    else
      let c := if w.kind = 1 then r.1.ringLoad unitRingCmd w.cplRing cc else (r.1, some w)
      match c.2 with
      | none => c.1.ringResult 5
      | some y =>
        if w.kind = 1 ∧ (y.kind ≠ 2 ∨ y.owner ≠ w.owner) then c.1.ringResult 2
        else
          let t := c.1.ringStore unitRingCmd n w.fresh cc
          if t.2 then (t.1.setNote n (ringNote w)).ringResult 0 else t.1.ringResult 5
/-- TN_RING_CMD DISABLE on ring n. -/
def State.ringDisable (s : State) (n : Nat) (cc : CcFault) : State :=
  let r := s.ringLoad unitRingCmd n cc
  match r.2 with
  | none => r.1.ringResult 5
  | some x =>
    if x.out ≠ 0 then r.1.ringResult 3
    else if x.kind = 2 ∧ ¬ (s.naming n).isEmpty then r.1.ringResult 6
    else
      let t := r.1.ringStore unitRingCmd n (x.setW 0 (putFld (cw x 0) 1 0 0)) cc
      if t.2 then (t.1.setNote n 0).ringResult 0 else t.1.ringResult 5
/-- TN_RING_CMD RESET_RING on ring n. -/
def State.ringReset (s : State) (n : Nat) (cc : CcFault) : State :=
  let r := s.ringLoad unitRingCmd n cc
  match r.2 with
  | none => r.1.ringResult 5
  | some x =>
    if x.kind = 0 ∨ x.state = 0 then r.1.ringResult 4
    else if x.out ≠ 0 then r.1.ringResult 3
    else
      let y := (((x.setW 6 (putFld (cw x 6) 16 16 0)).setProd 0).setCons 0).setState 0
      let t := r.1.ringStore unitRingCmd n (y.setW 7 (putFld (cw y 7) 7 0 0)) cc
      t.1.ringResult (if t.2 then 0 else 5)
/-- TN_RING_CMD READ on ring n. -/
def State.ringRead (s : State) (n : Nat) (cc : CcFault) : State :=
  let r := s.ringLoad unitRingCmd n cc
  match r.2 with
  | none => r.1.ringResult 5
  | some x => ((List.range 16).foldl (fun t k => t.setReg (Reg.TN_RING_WIN + 4 * k) (cw x k)) r.1).ringResult 0
/-- A TN_RING_CMD operation on ring n: 1 READ, 2 WRITE, 3 DISABLE, 4 RESET_RING (R186). -/
def State.ringOp (s : State) (op n : Nat) (cc : CcFault) : State :=
  match op with
  | 1 => s.ringRead n cc
  | 2 => s.ringWrite n cc
  | 3 => s.ringDisable n cc
  | _ => s.ringReset n cc
/-- A write of TN_RING_CMD whose OP is the command's; one while BUSY is 1 has no effect. -/
def State.ringCmd (s : State) (op : Nat) (a : RpAcc) (cc : CcFault) : State :=
  s.portWrite Reg.TN_RING_CMD a (fun _ s =>
    if fld a.data 18 16 = op ∧ ¬ bit (s.regAt Reg.TN_RING_STAT) 31 then
      s.begins (.ringCmd op (fld a.data 14 0)) cc (fun cc t => t.ringOp op (fld a.data 14 0) cc)
    else s)

/-- RING_CMD_READ (R186). -/
def execRingCmdRead (a : RpAcc) (cc : CcFault) (s : State) : Out := done s (s.ringCmd 1 a cc)
/-- RING_CMD_WRITE (R186). -/
def execRingCmdWrite (a : RpAcc) (cc : CcFault) (s : State) : Out := done s (s.ringCmd 2 a cc)
/-- DISABLE (R186). -/
def execDisable (a : RpAcc) (cc : CcFault) (s : State) : Out := done s (s.ringCmd 3 a cc)
/-- RESET_RING (R186). -/
def execResetRing (a : RpAcc) (cc : CcFault) (s : State) : Out := done s (s.ringCmd 4 a cc)

/-! ### Ring errors (R211) -/

/-- The report of a ring error or a NO_HEADER event: the record, the source RING_ERROR, the owner's doorbell page, and
the vector of the CPL ring concerned, which has no cluster and so goes by HP0 (R374). -/
def State.ringReport (s : State) (n cause owner : Nat) (cpl : Option Ctx) : State :=
  let s1 := ((s.blot 0xC000 0x14 (some owner) [BitVec.ofNat 32 n, BitVec.ofNat 32 cause]).pulse 52).setReg
    (dbA owner Reg.DB_RING_ERR) (BitVec.ofNat 32 (2 ^ 24 * cause + n))
  match cpl with
  | some y => if y.vecEn then s1.vecRaise (y.owner * 8 + y.vecNo) 0 none else s1
  | none => s1
/-- A change to a ring's context that has met STORE_ERR is kept for the next retry (R327). -/
def State.owe (s : State) (n : Nat) (u : RingUpd) : State :=
  if s.note n = 0 then s else s.armRetry.modGlb (fun g => { g with owed := g.owed ++ [(n, u)] })
/-- A context with a change of the block made to it. -/
def RingUpd.apply (u : RingUpd) (x : Ctx) : Ctx :=
  match u with
  | .lower => x.setOut (x.out - 1)
  | .gone slot pkt lost =>
    let y := x.setCons slot
    let y := if pkt then y.countPkt else y
    if lost then y.countDrop 1 else y
  | .drop back => if back then (x.countDrop 1).setOut (x.out - 1) else x.countDrop 1
  | .error cause => (x.setState 2).setW 7 (putFld (cw x 7) 7 0 cause)
  | .cplFailed => x
  | .fence => if x.state = 0 then x.setState 1 else x
/-- A ring enters ERROR with a cause, unless it is there or OFF (R211). -/
def State.ringErr (s : State) (n cause : Nat) (cc : CcFault) : State :=
  let r := s.ringLoad unitFetcher n cc
  match r.2 with
  | some x =>
    if x.kind = 0 ∨ x.state = 2 then r.1
    else
      let t := r.1.ringStore unitFetcher n ((RingUpd.error cause).apply x) cc
      if t.2 then
        let c := if x.kind = 2 then (t.1, some x) else t.1.ringLoad unitFetcher x.cplRing cc
        c.1.ringReport n cause x.owner c.2
      else (s.backTo t.1).owe n (.error cause)
  | none => r.1.owe n (.error cause)
/-- A change of the block is made to a ring's context. A residue mismatch that it finds puts the ring into ERROR (R185, R353); a failed
completion write of a ring that is in ERROR already is recorded alone (R38, R211). -/
def State.ringApply (s : State) (n : Nat) (u : RingUpd) (cc : CcFault) : State :=
  match u with
  | .error cause => s.ringErr n cause cc
  | .cplFailed =>
    let r := s.ringLoad unitFetcher n cc
    match r.2 with
    | none => r.1.owe n u
    | some x =>
      if x.kind ≠ 0 ∧ x.state = 2 then
        r.1.blot 0xC000 0x14 (some (fld (s.note n) 24 16)) [BitVec.ofNat 32 n, 1]
      else r.1.ringErr n 1 cc
  | _ =>
    let r := s.ringLoad unitNotify n cc
    match r.2 with
    | none => r.1.owe n u
    | some x =>
      let t := r.1.ringStore unitNotify n (u.apply x) cc
      if ¬ t.2 then (s.backTo t.1).owe n u
      else if x.sound ∨ x.kind = 0 ∨ x.state = 2 then t.1 else t.1.ringErr n 3 .clean
/-- A change to a ring's context waits for its line or for a retry. -/
def State.ringWaits (s : State) (n : Nat) : Bool :=
  s.cache.held.any (fun h => match h with | .ring m _ => m == n | _ => false) || s.glb.owed.any (fun e => e.1 == n)
/-- The block changes a ring's context, after the changes that wait already; cc is what the cache finds on its lookup. -/
def State.ringPutCc (s : State) (n : Nat) (u : RingUpd) (cc : CcFault) : State :=
  if s.glb.owed.any (fun e => e.1 == n) then s.owe n u
  else s.begins (.ring n u) cc (fun cc t => t.ringApply n u cc)
/-- The block changes a ring's context, on which the cache finds nothing. -/
def State.ringPut (s : State) (n : Nat) (u : RingUpd) : State := s.ringPutCc n u .clean
/-- A ring enters ERROR with a cause, unless it is there or OFF. -/
def State.ringError (s : State) (n cause : Nat) : State := s.ringPut n (.error cause)
/-- A failed completion write: CPL_WRITE_FAIL, and the CPL ring and every SUB ring that names it enter ERROR, whose own record that of the
CPL ring is; a ring already there gets a record for the write alone (R38, R211). -/
def State.cplError (s : State) (n : Nat) : State :=
  (s.naming n).foldl (fun t k => t.ringError k 1) ((s.pulse 51).ringPut n .cplFailed)

/-! ### Doorbells (R187 to R189, R383) -/

/-- The result of a doorbell write; a refusal counts. -/
def State.dbResult (s : State) (page r : Nat) : State :=
  let s1 := s.modReg (dbA page Reg.DB_STAT) (fun w => putFld w 2 0 r)
  if r = 0 then s1 else s1.countField (dbA page Reg.DB_ERR_COUNT) 15 0 1
/-- A doorbell write is held until a retry (R327). -/
def State.holdDoorbell (s : State) (page : Nat) (data : Word) : State :=
  s.armRetry.modGlb (fun g => { g with doorbells := g.doorbells ++ [(page, data)] })
/-- The notify path takes one reservation off a ring; a lookup that meets STORE_ERR holds this until a retry (R195, R327). -/
def State.lowerOut (s : State) (n : Nat) : State := s.ringPut n .lower
/-- A doorbell write on a page (R187): its effect, or its refusal. A lookup that meets STORE_ERR holds the write until a
retry (R327). A residue mismatch is judged before the index, and the write that finds it answers ERROR_STATE, which is the model's choice
(log entry 135). -/
def State.doorbell (s : State) (page : Nat) (data : Word) (cc : CcFault) (residue : Bool) : State :=
  let n := fld data 30 16
  let idx := fld data 15 0
  let cpl := bit data 31
  let r := s.ringLoad unitDoorbell n cc
  match r.2 with
  | none => r.1.holdDoorbell page data
  | some x =>
    let refuse (c : Nat) : State := r.1.dbResult page c
    if x.owner ≠ page then
      (refuse 1).blot 0xC000 0x25 (some page) [BitVec.ofNat 32 n]
    else if x.kind ≠ (if cpl then 2 else 1) then refuse 2
    else if x.state = 1 then refuse 3
    else if x.state = 2 then refuse 4
    else if residue ∨ ¬ x.sound then ((r.1.ringError n 3).dbResult page 4)
    else
      let sz := x.size
      let ok := idx < sz ∧ (cpl → idx = x.cons ∨
        (idx + sz - x.cons % sz) % sz ≤ (x.prod + sz - x.cons % sz) % sz)
      if ¬ ok then refuse 5
      else if s.tnState page ≠ .active then refuse 3
      else
        let t := r.1.ringStore unitDoorbell n (if cpl then x.setCons idx else x.setProd idx) cc
        if t.2 then t.1.dbResult page 0 else t.1.holdDoorbell page data
/-- The doorbell path takes a write: after those that wait already. -/
def State.doorbellTake (s : State) (page : Nat) (data : Word) (cc : CcFault) (residue : Bool) : State :=
  s.begins (.doorbell page data residue) cc (fun cc t => t.doorbell page data cc residue)
/-- A write of DB_RING of the command's KIND; in FALLBACK only page 511 acts (R93, R189). -/
def State.doorbellWrite (s : State) (page : Nat) (kind : Bool) (a : RpAcc) (cc : CcFault) (residue : Bool) : State :=
  s.portWrite (dbA page Reg.DB_RING) a (fun _ s =>
    if bit a.data 31 ≠ kind ∨ (s.glb.mode = .fallback ∧ page ≠ 511) then s else s.doorbellTake page a.data cc residue)

/-- DOORBELL_SUB_PROD (R187). residue says that the ring's context fails its residue check (R185, R353). -/
def execDoorbellSubProd (page : Fin 512) (a : RpAcc) (cc : CcFault) (residue : Bool) (s : State) : Out :=
  done s (s.doorbellWrite page.val false a cc residue)
/-- DOORBELL_CPL_CONS (R187). residue says that the ring's context fails its residue check (R185, R353). -/
def execDoorbellCplCons (page : Fin 512) (a : RpAcc) (cc : CcFault) (s : State) (residue : Bool := false) : Out :=
  done s (s.doorbellWrite page.val true a cc residue)

/-- CC_RETRY (R327, R328): RETRY_US has passed: failed write-backs are issued again, and held doorbell writes and the block's held changes
of ring contexts repeat their lookups; those of the Ring Fetcher and of the notify path may be made again. -/
def execCcRetry (cc : CcFault) (s : State) : Out :=
  if s.awake ∧ s.glb.mode ≠ .endgame ∧ s.retryDue then
    let held := s.glb.doorbells
    let owed := s.glb.owed
    let s1 := (s.retryWb.modGlb (fun g => { g with doorbells := [], owed := [] })).modCache (fun c =>
      { c with retryAt := s.time.toNat, stuck := [] })
    let s2 := held.zipIdx.foldl (fun t e => t.doorbellTake e.1.1 e.1.2 (if e.2 = 0 then cc else .clean) false) s1
    done s (owed.foldl (fun t e => t.ringPut e.1 e.2) s2)
  else idle s

end Sys2Proof.Machine
end

