-- ==== Sys2Proof/Machine/Complete.lean ====
section
/-! DEFINITION. How a command ends (R203 to R212, R302, R303, R364, R365, R390, R391): its status, its completion record
and the slot that takes it, late errors, Patrol's results and the summary records of an instance reset. -/
namespace Sys2Proof.Machine
open Sys2Proof

/-! ### Status codes (R205) -/

/-- OK. -/
abbrev stOk : Nat := 0x00
/-- OK_WARN. -/
abbrev stWarn : Nat := 0x01
/-- ECC_FAIL. -/
abbrev stEcc : Nat := 0x10
/-- NOT_ERASED. -/
abbrev stNotErased : Nat := 0x11
/-- OFF_FRONTIER. -/
abbrev stOffFrontier : Nat := 0x12
/-- BAD_BLOCK. -/
abbrev stBadBlock : Nat := 0x13
/-- PROG_FAIL. -/
abbrev stProgFail : Nat := 0x14
/-- ERASE_FAIL. -/
abbrev stEraseFail : Nat := 0x15
/-- SEALED. -/
abbrev stSealed : Nat := 0x20
/-- QUOTA. -/
abbrev stQuota : Nat := 0x21
/-- POISON. -/
abbrev stPoison : Nat := 0x30
/-- DEFERRED. -/
abbrev stDeferred : Nat := 0x31
/-- ABORTED. -/
abbrev stAborted : Nat := 0x40
/-- TIMEOUT. -/
abbrev stTimeout : Nat := 0x41
/-- HOST_ERR. -/
abbrev stHostErr : Nat := 0x42
/-- WRITE_ERROR. -/
abbrev stWriteErr : Nat := 0x43
/-- LATE_ERR. -/
abbrev stLate : Nat := 0x44

/-! ### What a command holds on its lane -/

/-- The command has been dispatched and its Quill part has not ended (R214). -/
def Cmd.inService (c : Cmd) : Bool := (c.stage = .service ∨ c.stage = .staged ∨ c.stage = .moving) ∧ c.quill.isNone
/-- The command is pending or in service on lane g. -/
def Cmd.on (c : Cmd) (g : Nat) : Bool := c.lane = g ∧ (c.stage = .pending ∨ c.inService)
/-- An erase, or a program whose data-in has begun, runs to its result under an instance reset (R390). -/
def Cmd.runsOn (x : Cmd) : Bool := x.result.isSome || (x.claimed && !x.verifying && (x.begun || decide (x.pkt.opcode = 3)))
/-- The commands pending or in service on a lane. -/
def State.cmdsOn (s : State) (g : Nat) : List (Nat × Nat × Cmd) := s.cmdList.filter (fun e => e.2.2.on g)
/-- The smallest virtual time of a table, by signed difference (R216). -/
def minV : List Active → Option (BitVec 48)
  | [] => none
  | a :: t => match minV t with
    | none => some a.v
    | some b => some (if (b - a.v).toInt < 0 then b else a.v)
/-- A tenant takes a free entry of a full or partly filled table, if there is one. -/
def Lane.takeEntry (l : Lane) (t : Nat) : Lane :=
  if l.table.any (fun a => a.tenant = t) ∨ 64 ≤ l.table.length then l
  else { l with table := l.table ++ [{ tenant := t, v := (minV l.table).getD l.vclock }] }
/-- The active table of a lane as its commands leave it (R216): an entry without commands is freed, and tenants with a
pending command take free entries, those with the lower handle first. -/
def State.tableSync (s : State) (g : Nat) : State :=
  let on := s.cmdsOn g
  s.modLane g (fun l =>
    let l1 := { l with table := l.table.filter (fun a => on.any (fun e => e.2.2.owner = a.tenant)) }
    (on.filter (fun e => e.2.2.stage = .pending)).foldl (fun t e => t.takeEntry e.2.2.owner) l1)

/-- A SENSE_REQ event of a handle. -/
def isSense (h : Nat) (w : Word) : Bool := fld w 31 28 = 4 ∧ fld w 10 0 = h
/-- A list without the entries of a handle. -/
def dropH (h : Nat) (l : List (Nat × Nat)) : List (Nat × Nat) := l.filter (fun e => e.1 ≠ h)
/-- A Gambit step of a handle is being sensed (R264): a LUN runs the handle's array read or holds its data, or a stroke of the handle
is committed. -/
def Lane.sensing (l : Lane) (h : Nat) : Bool :=
  l.luns.any (fun e => decide (e.2.arrayBy = some h) && (e.2.busy || e.2.pendData)) ||
    l.committed.any (fun k => k.of h)
/-- A command's frames leave the lane's FIFO and its Gambit queue; a step that is being sensed completes its array read first (R237,
R250, R264). -/
def Lane.forget (h : Nat) (l : Lane) : Lane :=
  { l with slots := l.slots.filter (fun e => e.2.handle ≠ h), gambit := dropH h l.gambit,
           gambitRun := match l.gambitRun with
             | some r => if r.handle ≠ h then some r
               else if l.sensing h ∧ (Tab.find? l.slots 14).isNone then some { r with gone := true } else none
             | none => none }
/-- A command's frames leave the engines of its cluster, and its events that still wait for room are withdrawn. -/
def Cluster.forget (h : Nat) (k : Cluster) : Cluster :=
  { k with hde0 := k.hde0.filter (fun e => e.handle ≠ h), hde1 := k.hde1.filter (fun e => e.handle ≠ h),
           cipher0 := k.cipher0.filter (fun e => e.handle ≠ h), cipher1 := k.cipher1.filter (fun e => e.handle ≠ h),
           decipher := dropH h k.decipher, encipher := dropH h k.encipher,
           quill := { k.quill with events := k.quill.events.take 64 ++ (k.quill.events.drop 64).filter (fun w => !isSense h w) } }
/-- A command's frames leave the contexts of its region and the queue before them. -/
def Region.forget (c h : Nat) (r : Region) : Region :=
  { r with ctx := r.ctx.filter (fun e => match e.2 with | some x => decide (¬ (x.cluster = c ∧ x.handle = h)) | none => true),
           waiting := r.waiting.filter (fun e => decide (¬ (e.1 / 8 = c ∧ e.2.1 = h))) }
/-- A command leaves the Mover's queues. -/
def State.unqueue (s : State) (c h : Nat) : State :=
  (List.range 4).foldl (fun t p => t.modPort p (fun q => { q with moverQ := q.moverQ.filter (fun e => decide (¬ (e.1 = c ∧ e.2.1 = h))) })) s
/-- Every frame of a command is released without further decoding (R250). -/
def State.cleanFrames (s : State) (c h : Nat) : State :=
  let s := s.unqueue c h
  let s1 := (List.range 8).foldl (fun t l => t.modLane (8 * c + l) (Lane.forget h)) s
  (s1.modCluster c (Cluster.forget h)).modRegion (c / 8) (Region.forget c h)

/-! ### Figures of a command (R203, R206) -/

/-- The flag bits of R193. -/
def Cmd.stageFlag (c : Cmd) : Bool := bit c.pkt.flags 1
/-- VERIFY_BLANK. -/
def Cmd.verifyBlank (c : Cmd) : Bool := bit c.pkt.flags 2
/-- A frame that decoded and passed the outlet. -/
def FrameSt.ok (f : FrameSt) : Bool := f.flow = .done
/-- A frame that failed, an erased one included (R245, R248). -/
def FrameSt.bad (f : FrameSt) : Bool := f.flow = .failed ∨ f.flow = .erased
/-- MAX_CORR: the largest corrected-bit count among the frames that decoded and ended their flow with success, which those of a COPY have
done once its destination part begins (R206, R246). -/
def Cmd.maxCorr (c : Cmd) : Nat := c.frames.foldl (fun a f => if f.decoded.isSome ∧ (f.ok ∨ c.destPart) then max a f.corr else a) 0
/-- The RETRY word. -/
def Cmd.retry (c : Cmd) : Nat :=
  min 255 (c.frames.filter (·.soft)).length + 256 * min 255 (c.frames.foldl (fun a f => max a f.steps) 0) +
    65536 * min 255 (c.frames.filter (·.redecoded)).length
/-- Any frame needed the SDE. -/
def Cmd.anySoft (c : Cmd) : Bool := c.frames.any (·.soft)
/-- Any frame needed a Gambit step. -/
def Cmd.anyStep (c : Cmd) : Bool := c.frames.any (fun f => decide (0 < f.steps))
/-- DETAIL of ECC_FAIL: bit k for failed frame k, bit 7 for any from 7 upwards (R207). -/
def Cmd.eccDetail (c : Cmd) : Nat :=
  c.frames.zipIdx.foldl (fun a e => if e.1.bad then a ||| 2 ^ min 7 e.2 else a) 0

/-! ### Records -/

/-- Eight words as the 32 bytes of a record. -/
def recWords (l : List Nat) : BitVec 256 := BitVec.ofNat 256 (leWords (l.map (BitVec.ofNat 32)))
/-- A record that carries only a tag, a status with its detail, an opcode and its ring (R194, R197, R201). -/
def plainWords (tag st det opcode ring sqHead : Nat) : BitVec 256 :=
  recWords [tag + 2 ^ 16 * st, 2 ^ 16 * det + 2 ^ 24 * opcode, ring + 2 ^ 16 * sqHead, 0, 0, 0, 0, 0]
/-- A LATE_ERR record (R208). -/
def lateWords (tag opcode ring : Nat) : BitVec 256 := plainWords tag stLate 0 opcode ring 0
/-- A summary record of a program or an erase (R391). -/
def summaryWords (x : Cmd) (result seq : Nat) : BitVec 256 :=
  let m := if x.pkt.opcode = 4 then x.pkt.maw1 else x.pkt.maw0
  recWords [x.pkt.tag.toNat + 2 ^ 16 * result, x.owner + 2 ^ 24 * x.pkt.opcode, 0xFFFE + 2 ^ 16 * x.ring, x.exp.toNat,
    fld m 31 0, fld m 63 32, seq, 0]
/-- The final record of a reset (R391). -/
def finalWords (inst written dropped seq : Nat) : BitVec 256 := recWords [0xFFFF, inst, 0xFFFD, 0, written, dropped, seq, 0]
/-- A record becomes ready to be written. -/
def State.pushReady (s : State) (r : Ready) : State := { s with ready := s.ready ++ [r] }
/-- The reservations of a packet are released in its two rings (R195). -/
def State.releaseOut (s : State) (ring cpl : Nat) : State := (s.lowerOut ring).lowerOut cpl
/-- A record written or dropped for the reset under way (R391). -/
def State.dropRecord (s : State) (tag : Nat) : State :=
  let s1 := (s.modTenants (fun t => { t with dropped := t.dropped + 1 })).modReg Reg.TN_RST_STAT (fun w =>
    putFld w 15 8 (satField 8 (fld w 15 8 + 1)))
  s1.blot 0xC000 0x27 s.tenants.resetOf [BitVec.ofNat 32 tag]

/-! ### The end of a handle (R212, R288, R303, R334) -/

/-- The opcodes that name a key slot: READ, PROGRAM, COPY (R334, R335); a command that the dispatcher has refused references none. -/
def Cmd.usesKey (c : Cmd) : Bool := !c.patrol && !c.refused && (c.pkt.opcode = 1 || c.pkt.opcode = 2 || c.pkt.opcode = 4)
/-- The key slot of a command. -/
def Cmd.keyNo (c : Cmd) : Nat := c.owner * 4 + c.pkt.keySlot
/-- A slot's reference count changed. -/
def State.modRefs (s : State) (k : Nat) (f : Nat → Nat) : State :=
  s.modKeys (fun x => { x with refs := Tab.setD (fun _ => 0) x.refs k (f (Tab.getD (fun _ => 0) x.refs k)) })
/-- A FETCH ends: its lease is released when it completed OK or POISON, and stays otherwise (R290, R291). -/
def State.fetchEnd (s : State) (x : Cmd) : State :=
  if x.status = stOk ∨ x.status = stPoison then s.releaseSlabs x.slabs
  else match x.slabs with
    | n :: _ => s.modSlab n (fun y => { y with fetching := false })
    | [] => s
/-- A handle is freed, with its slabs and its key reference; writes still out are kept for their late errors. -/
def State.retire (s : State) (c h : Nat) : State :=
  match s.cmd? c h with
  | none => s
  | some x =>
    let s1 := if x.usesKey then s.modRefs x.keyNo (· - 1) else s
    let s2 := s1.setCmd c h none
    let s3 := if x.writesOut = 0 then s2 else
      { s2 with posted := s2.posted ++ [{ serial := x.serial, tag := x.pkt.tag, opcode := x.pkt.opcode, ring := x.ring,
                                          cplRing := x.cplRing, owner := x.owner, port := s.portOf c, out := x.writesOut,
                                          lateSent := false }] }
    if x.pkt.opcode = 6 then s3.fetchEnd x else s3.releaseSlabs x.slabs

/-! ### Patrol's results (R364, R365, R367) -/

/-- One frame of a sample is counted (R364). -/
def State.patrolFrame (s : State) (f : FrameSt) : State :=
  if f.flow = .erased then s.count Reg.PT_ERASED
  else if f.ok then
    s.count (winKey Reg.PT_HIST (min 15 (f.corr / atLeast1 (fld (s.regAt Reg.PT_HIST_SEL) 15 8))))
  else s
/-- The event record of a sample (R365); st is its status. -/
def patrolWords (x : Cmd) (st warnBits : Nat) : BitVec 256 :=
  let ew := if warnBits ≤ x.maxCorr then 1 else 0
  let det := if st = stEcc then x.frames.zipIdx.foldl (fun a e => if e.1.flow = .failed then a ||| 2 ^ min 7 e.2 else a) 0
    else ew + (if x.anySoft then 2 else 0) + (if x.anyStep then 4 else 0)
  recWords [0xFFFF + 2 ^ 16 * st + 2 ^ 25 * ew, x.maxCorr + 2 ^ 16 * det + 0x0D * 2 ^ 24, 0xFFFF, 0, fld x.pkt.maw0 31 0,
    fld x.pkt.maw0 63 32, x.retry, fld x.pkt.arg 31 0]
/-- A record for the event ring of an instance, which is dropped where the instance uses none. -/
def State.eventRecord (s : State) (t port : Nat) (w : BitVec 256) : State :=
  let e := s.tnCpl t
  if bit e 31 then
    s.pushReady { cplRing := fld e 30 16, subRing := some 0xFFFF, handle := none, port := port, words := w, reserved := false,
                  seen := none }
  else s.count Reg.PT_EVT_DROP
/-- The OWNER of the plane-block's OPEN record. -/
def State.recordOwner (s : State) (x : Cmd) : State × Option Nat :=
  let die := mawDie x.pkt.maw0
  let q := s.frSlots unitPatrol die .clean
  (q.1, q.2.bind (fun l => (l.find? (fun r => r.st = 1 ∧ r.blk = (s.geo (die / 64)).dieBlock x.pkt.maw0)).map (·.owner)))
/-- The instance that owns a sampled plane page (R365). -/
def State.patrolOwner (s : State) (x : Cmd) : State × Option Nat :=
  match (x.frames.find? (·.ok)).map (fun f => sideTag (frameSide f.out)) with
  | some t => if t / 2 ^ 24 % 256 = 1 then (s, some (t % 512)) else s.recordOwner x
  | none => s.recordOwner x
/-- A sample ends with a status: its frames, its class and its records; one that was aborted counts nothing. -/
def State.patrolEnd (s : State) (c h st : Nat) : State :=
  match s.cmd? c h with
  | none => s
  | some x =>
    if st ≠ stOk ∧ st ≠ stEcc then s.retire c h
    else
      let warn := fld x.pkt.arg 47 32
      let s1 := x.frames.foldl State.patrolFrame s
      let bad := x.frames.any (fun f => f.flow = .failed)
      if ¬ bad ∧ ¬ (warn ≤ x.maxCorr ∨ x.anySoft) then s1.retire c h
      else
        let s2 := if bad then (s1.count Reg.PT_UNCORR).raise 0x8000 1 else (s1.count Reg.PT_WARN).raise 0x8000 2
        let o := s2.patrolOwner x
        let lo := (x.pkt.maw0).setWidth 32
        let hi := (x.pkt.maw0 >>> 32).setWidth 32
        let s3 := if bad then o.1.blot 0x8000 0x1C o.2 [lo, hi] else o.1
        let s4 := (s3.setReg Reg.PT_LAST_MAW_LO lo).setReg Reg.PT_LAST_MAW_HI hi
        let w := patrolWords x (if bad then stEcc else stWarn) warn
        let s5 := s4.eventRecord 511 (s.portOf c) w
        let s6 := match o.2 with
          | some t => if t = 511 then s5 else s5.eventRecord t (s.portOf c) w
          | none => s5
        s6.retire c h

/-! ### A command ends -/

/-- A slab of a command is poisoned. -/
def State.anyPoison (s : State) (x : Cmd) : Bool := x.slabs.any (fun n => (s.slab n).poison)
/-- What a command's completion carries, fixed as it is presented (R302): POISON where a slab has been found bad since the command ended
well or with ECC_FAIL (R291); else a STAGE READ whose frames all decoded keeps its slabs as a lease, whose number is its DATA (R289). -/
def State.present (s : State) (c h : Nat) : State :=
  match s.cmd? c h with
  | none => s
  | some x =>
    if x.pkt.opcode ≠ 7 ∧ (x.status = stOk ∨ x.status = stEcc) ∧ s.anyPoison x then
      s.modCmd c h (fun y => { y with status := stPoison, detail := 0 })
    else if x.pkt.opcode = 1 ∧ x.stageFlag ∧ x.status = stOk then
      (s.makeLease x.slabs).modCmd c h (fun y => { y with slabs := [], data := BitVec.ofNat 32 (x.slabs.headD 0) })
    else s
/-- A result of a command of an instance under reset has been applied: its summary record takes its place in the order of results, or is
dropped where no event ring stands (R391). -/
def State.summary (s : State) (c h : Nat) (x : Cmd) (result : Nat) : State :=
  let e := s.tnCpl 511
  if bit e 31 then
    s.pushReady { cplRing := fld e 30 16, subRing := some 0xFFFE, handle := some (hKey c h), port := s.portOf c,
                  words := summaryWords x result (s.regAt Reg.TN_RST_SEQ).toNat, reserved := false, seen := none }
  else s.dropRecord x.pkt.tag.toNat
/-- The exposure of a command's records as they stand, the lowest over its planes: those of the programs' opcodes that hold an OPEN record
(R277). One that ends without a media result carries it too (log entry 140). -/
def State.exposureNow (s : State) (x : Cmd) : Option Nat :=
  if ¬ (x.pkt.opcode = 2 ∨ (x.pkt.opcode = 4 ∧ x.destPart)) then none
  else x.frMaws.foldl (fun a m =>
    match s.frPeek (mawDie m) with
    | none => a
    | some l => match frFind l ((s.geo (mawLane m)).dieBlock m) with
      | none => a
      | some i =>
        let r := l.getD i frFree
        match a, (if r.st = 1 then s.exposure (mawLane m) r else none) with
        | some p, some q => some (min p q)
        | none, b => b
        | b, none => b) none
/-- The EXP field of an exposure. -/
def expWord : Option Nat → BitVec 16
  | some q => BitVec.ofNat 16 (0x8000 + q)
  | none => 0
/-- A command completes with a status and a detail: its frames are released, it leaves its lane, and its completion
becomes ready; MEDIA units it still holds are released (R400); a program's without a media result carries the exposure of its records as
they stand (R277); a sample's result is classified, and a command of an instance under reset is discarded, its handle kept while its
summary record waits (R203 to R205, R250, R364, R390, R391). -/
def State.finish (s : State) (c h st det : Nat) : State :=
  match s.cmd? c h with
  | none => s
  | some x =>
    if x.stage = .ready ∨ s.glb.mode = .endgame then s
    else
      let e := if x.result.isSome then x.exp else expWord (s.exposureNow x)
      let s1 := s.modCmd c h (fun y => { y with stage := .ready, status := st, detail := BitVec.ofNat 8 det, units := 0, exp := e })
      let s2 := ((s1.cleanFrames c h).tableSync x.lane).releaseUnits (x.lane / 64) x.units
      if x.patrol then s2.patrolEnd c h st
      else if x.discard then
        let s3 := s2.releaseOut x.ring x.cplRing
        if s3.ready.any (fun r => decide (r.handle = some (hKey c h))) then s3 else s3.retire c h
      else
        s2.pushReady { cplRing := x.cplRing, subRing := some x.ring, handle := some (hKey c h), port := s.portOf c, words := 0,
                       reserved := true, seen := none }

/-! ### COMPLETION_WRITE (R204 to R211) -/

/-- LAT_US from a visibility time in µs; it saturates (R203). -/
def State.latency (s : State) (seen : Nat) : Nat := min 0xFFFFFFFF (s.time.toNat / 100 - seen)
/-- The bucket of a latency (R227). -/
def latBucket (l : Nat) : Nat := if l < 16 then 0 else min 15 (Nat.log2 l - 3)
/-- The lane's counters take a completion (R227); a command that the dispatcher has refused was in no pending set of a lane. -/
def State.countLatency (s : State) (x : Cmd) (lat : Nat) : State :=
  let a (o : Nat) : Nat := lnA x.lane o
  if x.pkt.opcode = 6 ∨ x.pkt.opcode = 7 ∨ x.refused then s
  else
    let s1 := if 0 < usDiff s.us x.d then s.count (a Reg.LN_DL_MISS) else s
    if x.pkt.opcode ≠ 1 then s1
    else
      let sel := s.regAt (a Reg.LN_LAT_SEL)
      let s2 := if bit sel 25 ∧ fld sel 24 16 ≠ x.owner then s1 else s1.count (winKey (a Reg.LN_LAT_HIST) (latBucket lat))
      let bound := fld (s.tnSched x.owner) 31 16
      if bound = 0 ∨ lat ≤ bound then s2
      else ((s2.count (a Reg.LN_BOUND_MISS)).setReg (a Reg.LN_BOUND_LAST)
        (BitVec.ofNat 32 (2 ^ 23 * x.owner + min lat 0x7FFFFF))).raise (lnA x.lane 0) 6
/-- The 32 bytes of a command's completion without PHASE, as it is assembled (R203, R206, R207, R389). -/
def State.cplWords (s : State) (x : Cmd) (lat : Nat) : BitVec 256 :=
  let ew := decide (fld (s.tnCpl x.owner) 15 0 < x.maxCorr)
  let warn := x.status = stOk ∧ (ew ∨ x.anySoft ∨ x.anyStep ∨ x.blankOrigin)
  let st := if warn then stWarn else x.status
  let det := if warn then (if ew then 1 else 0) + (if x.anySoft then 2 else 0) + (if x.anyStep then 4 else 0) +
    (if x.blankOrigin then 8 else 0) else x.detail.toNat
  let lease := x.pkt.opcode = 1 ∧ x.stageFlag ∧ x.status = stOk
  recWords [x.pkt.tag.toNat + 2 ^ 16 * st + (if ew then 2 ^ 25 else 0) + (if lease then 2 ^ 26 else 0),
    min 65535 x.maxCorr + 2 ^ 16 * det + 2 ^ 24 * x.pkt.opcode, x.ring + 2 ^ 16 * x.sqHead,
    x.exp.toNat + 2 ^ 16 * (min 65535 x.stall), x.data.toNat, lat, x.retry, 0]
/-- The command behind a ready record. -/
def State.readyCmd (s : State) (r : Ready) : Option Cmd := r.handle.bind (fun k => s.cmd? (k / 2048) (k % 2048))
/-- A record's words as it is written. -/
def State.readyWords (s : State) (r : Ready) : BitVec 256 :=
  match s.readyCmd r with
  | some x => if r.reserved then s.cplWords x (s.latency x.seenAt) else r.words
  | none => match r.seen with
    | some v => r.words ||| BitVec.ofNat 256 (s.latency v <<< 160)
    | none => r.words
/-- A record is a summary record of R391. -/
def Ready.isSummary (r : Ready) : Bool := r.subRing = some 0xFFFE ∨ r.subRing = some 0xFFFD
/-- A completion write of a ring to the granule of 128 bytes that holds a byte address waits on a port or is outstanding (R41). -/
def State.granuleOut (s : State) (cpl a : Nat) : Bool :=
  let mine (r : HpReq) : Bool :=
    (match r.issuer with | .completion _ c _ => decide (c = cpl) | _ => false) && decide (r.addr = beatAddr a)
  (List.range 4).any (fun p =>
    (s.port p).queue.any mine || (s.port p).writes.any (fun e => match e.2 with | some o => mine o.req | none => false))
/-- A record waits: a completion whose data has met an error, until every write status has returned (R303), a record whose ring's next
slot lies in a granule that a write of the ring is outstanding to (R41), or a summary
record whose command has not ended yet, or whose ring is ACTIVE and has no free slot beyond its reservations (R391). -/
def State.readyWaits (s : State) (r : Ready) : Bool :=
  (match s.readyCmd r with
    | some x => (x.dataErr.isSome && decide (0 < x.writesOut)) || decide (x.stage ≠ .ready)
    | none => false) ||
  (match s.ringPeek r.cplRing with
    | some x => decide (x.kind = 2) && (s.granuleOut r.cplRing (x.base + 32 * x.prod) ||
        (r.isSummary && decide (x.state = 0 ∧ x.freeSlots ≤ x.out)))
    | none => false)
/-- The notify path waits with a completion for a port's request channel, or no longer does. -/
def State.setAsk (s : State) (p : Nat) (b : Bool) : State := s.modPort p (fun q => { q with ask := b }.present)
/-- The record that a port's notify path takes next: the oldest of the port that no older record of its ring precedes, those that wait
apart, which hold back summary records only where they are summary records too (R204, R391); rings whose context has met STORE_ERR are left
out (R327). -/
def State.nextReady (s : State) (p : Nat) : Option Ready :=
  let l := s.ready.filter (fun r => !s.cache.stuck.contains (true, r.cplRing))
  (l.zipIdx.find? (fun e => decide (e.1.port = p) && !s.readyWaits e.1 &&
    (l.take e.2).all (fun q => decide (q.cplRing ≠ e.1.cplRing) || (s.readyWaits q && !(q.isSummary && e.1.isSummary))))).map Prod.fst
/-- An instance enters a state. -/
def State.setTn (s : State) (t : Nat) (x : TnState) : State :=
  s.modTenants (fun q => { q with st := Tab.setD (fun _ => .free) q.st t x })
/-- The reset under way ends: its instance becomes FENCED, and RESET_DONE is set (R390). -/
def State.resetEnd (s : State) : State :=
  match s.tenants.resetOf with
  | some t =>
    ((s.modReg Reg.TN_RST_STAT (fun w => putFld w 31 31 0)).modTenants (fun q => { q with resetOf := none, closing := false })).setTn t .fenced
      |>.raise 0xC000 1
  | none => s
/-- What follows a record's write or drop: its reservation in the SUB ring and its handle; with its final record a reset ends. -/
def State.afterRecord (s0 : State) (r : Ready) : State :=
  let s := if r.subRing = some 0xFFFD then s0.resetEnd else s0
  let s1 := { s with ready := s.ready.erase r }
  let s2 := match r.subRing with
    | some n => if r.reserved then s1.lowerOut n else s1
    | none => s1
  match r.handle with
  | some k => s2.retire (k / 2048) (k % 2048)
  | none => s2
/-- A slot's write, presented on its port, with the ring's new PROD and PASS and the vector's raise (R204, R302). -/
def State.writeSlot (s : State) (r : Ready) (x : Ctx) (w : BitVec 256) (cc : CcFault) (bad : Option (Fin 5)) :
    State × Bool :=
  let slot := x.prod
  let last := slot + 1 = x.size
  let y0 := if last then x.setW 6 (putFld (cw x 6) 16 16 (if x.pass then 0 else 1)) else x
  let y1 := (y0.setProd (if last then 0 else slot + 1)).countPkt
  let y := if r.reserved then y1.setOut (y1.out - 1) else y1
  let t := s.ringStore unitNotify r.cplRing y cc
  if t.2 then
    let bytes := leBytes 32 (w.toNat + (if x.pass then 0 else 2 ^ 24))
    let s1 := t.1.modPort r.port (fun q => q.notify (oneBeat (x.base + 32 * slot) bytes 1 (.completion r.subRing r.cplRing slot)))
    let v := x.owner * 8 + x.vecNo
    (if x.vecEn then (s1.vecFind v bad).vecRaise v r.port (some (r.port, slotKey r.cplRing slot)) else s1, true)
  else (t.1, false)
/-- A record that cannot be written is dropped: DROP_COUNT, and the counts of Patrol and of a reset (R204, R365, R391). -/
def State.dropReady (s : State) (r : Ready) (x : Ctx) : State :=
  let s1 := if x.kind = 2 then s.ringPut r.cplRing (.drop r.reserved) else s
  let s2 := if r.subRing = some 0xFFFF then s1.count Reg.PT_EVT_DROP
    else if r.isSummary then s1.dropRecord (fld r.words 15 0) else s1
  s2.afterRecord r
/-- One record of a port is written, dropped, or held by a store error until a retry. -/
def State.writeReady (s : State) (r : Ready) (cc : CcFault) (residue : Bool) (bad : Option (Fin 5)) : State :=
  let q := s.ringLoad unitNotify r.cplRing cc
  match q.2 with
  | none => q.1.stick true r.cplRing
  | some x =>
    let room := x.out < x.freeSlots
    let dead := x.kind ≠ 2 ∨ (if r.reserved then x.state = 2 else x.state ≠ 0) ∨ (r.subRing = some 0xFFFF ∧ ¬ room)
    if dead then q.1.dropReady r x
    else if (residue ∨ ¬ x.sound) ∧ x.state ≠ 2 then q.1.ringError r.cplRing 3
    else
      let s0 := match r.reserved, r.handle with
        | true, some k => q.1.present (k / 2048) (k % 2048)
        | _, _ => q.1
      let t := s0.writeSlot r x (s0.readyWords r) cc bad
      if t.2 then
        let s1 := match r.reserved, s0.readyCmd r with
          | true, some c => t.1.countLatency c (s0.latency c.seenAt)
          | _, _ => t.1
        let s2 := if r.isSummary then s1.modTenants (fun y => { y with written := y.written + 1 }) else s1
        s2.afterRecord r
      else (s.backTo t.1).stick true r.cplRing

/-- COMPLETION_WRITE (R204, R302): the notify path of a port writes the next ready record, whose content it fixes as it presents it; while
the channel is not free for it, it waits for its turn. residue says that the ring's context fails its residue check: the ring enters
ERROR (R185, R211), and a later command deals with the record. -/
def execCompletionWrite (port : Fin 4) (cc : CcFault) (bad : Option (Fin 5)) (pair : Option (Fin 4096)) (s : State) (residue : Bool := false) : Out :=
  if s.working then
    match s.nextReady port.val with
    | some r =>
      if (s.port port.val).notifyFree then
        let s0 := match pair with | some p => s.pairParity p.val | none => s
        done s ((s.waited (s0.writeReady r cc residue bad)).setAsk port.val false)
      else done s (s.setAsk port.val true)
    | none => done s (s.setAsk port.val false)
  else idle s

/-! ### Late errors (R208, R303) -/

/-- A late record can be dealt with: its ring has a free slot, or takes none any longer. -/
def State.lateMay (s : State) (cpl : Nat) : Bool :=
  match s.ringPeek cpl with
  | some x => decide (x.kind ≠ 2 ∨ x.state = 2 ∨ x.out < x.freeSlots)
  | none => true
/-- A late error of a posted command: a record of class LATE_ERR, and its place in the late-error queue, or DROP_COUNT
when its ring has no free slot and 64 late errors wait for one. -/
def State.lateError (s : State) (p : Posted) : State :=
  let s1 := s.blot 0xB000 0x1E (some p.owner) [BitVec.ofNat 32 p.ring, p.tag.setWidth 32]
  if ¬ s1.lateMay p.cplRing ∧ 64 ≤ (s1.lateQ.filter (fun r => !s1.lateMay r.cplRing)).length then
    s1.ringPut p.cplRing (.drop false)
  else { s1 with lateQ := s1.lateQ ++ [{ cplRing := p.cplRing, subRing := some p.ring, handle := none, port := p.port,
                                         words := lateWords p.tag.toNat p.opcode p.ring, reserved := false, seen := none }] }
/-- A late record leaves the queue. -/
def State.lateGone (s : State) (r : Ready) : State := { s with lateQ := s.lateQ.erase r }
/-- A late record is written, dropped, or held by a store error until a retry; a residue mismatch of its ring's context puts that into
ERROR (R185, R208, R327). -/
def State.lateWritten (s : State) (r : Ready) (cc : CcFault) (residue : Bool) : State :=
  let q := s.ringLoad unitNotify r.cplRing cc
  match q.2 with
  | none => q.1.stick true r.cplRing
  | some x =>
    if x.kind ≠ 2 then q.1.lateGone r
    else if x.state = 2 then (q.1.ringPut r.cplRing (.drop false)).lateGone r
    else if residue ∨ ¬ x.sound then q.1.ringError r.cplRing 3
    else
      let t := q.1.writeSlot r x r.words cc none
      if t.2 then t.1.lateGone r else (s.backTo t.1).stick true r.cplRing
/-- LATE_ERR (R208): the oldest late error whose ring has a free slot is written; a ring in ERROR drops it. -/
def execLateErr (cc : CcFault) (s : State) (residue : Bool := false) : Out :=
  if s.working then
    match s.lateQ.find? (fun r => s.lateMay r.cplRing && !s.readyWaits r && !s.cache.stuck.contains (true, r.cplRing)) with
    | none => idle s
    | some r =>
      if (s.port r.port).notifyFree then done s ((s.waited (s.lateWritten r cc residue)).setAsk r.port false)
      else done s (s.setAsk r.port true)
  else idle s

end Sys2Proof.Machine
end

