-- ==== Sys2Proof/Machine/Results.lean ====
section
/-! DEFINITION. Events of the cores (R160), and the media results of programs and erases on the frontier records, the
defect bitmap and the MEDIA accounts (R272 to R274, R277, R280, R400, R437, R440). -/
namespace Sys2Proof.Machine
open Sys2Proof

/-! ### Events (R160) -/

/-- An event word of a lane. -/
def eventWord (kind g det : Nat) : Word := BitVec.ofNat 32 (2 ^ 28 * kind + 2 ^ 25 * (g % 8) + det)
/-- An event enters a core's queue; entries beyond the 64th are sources that wait for room (R160). -/
def State.postTo (s : State) (core : Nat) (w : Word) : State := s.modCore core (fun q => { q with events := q.events ++ [w] })
/-- The cluster's Quill takes events: it runs its image or the ROM program. -/
def State.quillUp (s : State) (c : Nat) : Bool :=
  (s.cluster c).quill.state = .running ∨ (s.cluster c).quill.state = .rom
/-- An event for the Quill of a lane's cluster. -/
def State.event (s : State) (g kind det : Nat) : State :=
  if s.quillUp (g / 8) then s.postTo (g / 8) (eventWord kind g det) else s
/-- The Scribe takes work (R430). -/
def State.scribeUp (s : State) : Bool := s.scribe.state = .running
/-- Work for the Scribe: the kind of the event that would carry it on a Quill, the cluster in [24:21] and a detail
(log entry 24). -/
def State.toScribe (s : State) (g kind det : Nat) : State :=
  s.postTo 16 (eventWord kind g (det + 2 ^ 21 * (g / 8)))
/-- STROKE_END: 0 ENDED, 1 DROPPED, 2 BUSY_TIMEOUT. It is posted to the lane's Quill, also for a stroke that the Scribe has committed,
which is the model's choice (log entry 109). -/
def State.strokeEnd (s : State) (g h status res : Nat) : State := s.event g 2 (status + res * 2 ^ 8 + 2 ^ 10 * h)
/-- The code of a LUN's state (R179). -/
def LunState.code : LunState → Nat
  | .idle => 0 | .readBusy => 1 | .cacheRead => 2 | .progBusy => 3 | .eraseBusy => 4 | .suspending => 5 | .suspended => 6
  | .readInSusp => 7 | .progInSusp => 8 | .resetting => 9 | .generalBusy => 10
/-- TARGET and LUN of a die of a lane, as events carry them. -/
def lunBits (ld : Nat) : Nat := ld / 4 + (ld % 4) * 16
/-- LUN_READY. -/
def State.lunReadyEvent (s : State) (g ld status : Nat) : State :=
  s.event g 3 (lunBits ld + status * 2 ^ 6 + 2 ^ 14 * (((s.lane g).lun ld).state.code))
/-- SENSE_REQ: 0 re-sense, 1 soft sensing, 2 Gambit step with its number. -/
def State.senseReq (s : State) (g h frame kind step : Nat) : State :=
  s.event g 4 (h + 2 ^ 11 * frame + 2 ^ 16 * kind + 2 ^ 18 * step)

/-! ### Frontier records under a result (R272, R274, R277) -/

/-- A record of class FR_STORE. -/
def State.frStore (s : State) (owner die blk : Nat) : State :=
  s.blot 0xE000 0x21 (some owner) [BitVec.ofNat 32 die, BitVec.ofNat 32 blk]
/-- The lower of two exposures. -/
def lowest (a b : Option Nat) : Option Nat :=
  match a, b with
  | some x, some y => some (min x y)
  | some x, none => some x
  | none, y => y
/-- The record of one plane-block changed by a result: f answers the record after it and the record by which exposure is
computed, or nothing where the result changes nothing. Answers the exposure. -/
def State.frResult (s : State) (u : Asker) (owner : Nat) (m : BitVec 64) (cc : CcFault)
    (f : FrRec → Option (FrRec × FrRec)) : State × Option Nat :=
  let g := mawLane m
  let die := mawDie m
  let blk := (s.geo g).dieBlock m
  if s.glb.mode = .fallback ∧ ¬ s.frAssigned then (s, none) else
  let q := s.frSlots u die cc
  match q.2 with
  | none => (q.1.frStore owner die blk, none)
  | some l =>
    match frFind l blk with
    | none => (q.1, none)
    | some i =>
      match f (l.getD i frFree) with
      | none => (q.1, none)
      | some (after, shown) =>
        let t := q.1.frPut u die i after cc
        (if t.2 then t.1 else t.1.frStore owner die blk, q.1.exposure g shown)
/-- The plane-block of a MAW within the block: its die and DIE_BLK. -/
def State.pblk (s : State) (m : BitVec 64) : Nat := 8192 * mawDie m + (s.geo (mawLane m)).dieBlock m
/-- A result applied to every plane of a command, with the lowest exposure; a record that has been freed under the command's claim is
left, also where another has been made for its plane-block since (R272). -/
def State.frResults (s : State) (c : Nat) (x : Cmd) (cc : CcFault) (f : FrRec → Option (FrRec × FrRec)) : State × Option Nat :=
  (x.frMaws.filter (fun m => !x.dead.contains (s.pblk m))).foldl (fun a m =>
    let r := a.1.frResult (unitCluster c) x.owner m cc f
    (r.1, lowest a.2 r.2)) (s, none)
/-- The page that a command programs. -/
def Cmd.progPage (x : Cmd) : Nat := mawPage (x.frMaws.headD 0)
/-- What a program's result does to a record (R272): OK completes the page, any other result frees the record; a record
that no longer holds the page's claim is left. -/
def progEffect (pages page : Nat) (ok : Bool) (r : FrRec) : Option (FrRec × FrRec) :=
  if r.st ≠ 1 ∨ r.next ≤ page then none
  else if ok then
    let d := { r with done := page + 1 }
    some (if page + 1 = pages then (frFree, d) else (d, d))
  else some (frFree, r)
/-- What an erase's result does to a record (R274). -/
def eraseEffect (owner : Nat) (us : Word) (ok : Bool) (r : FrRec) : Option (FrRec × FrRec) :=
  if r.st ≠ 3 then none
  else if ok then
    some ({ blk := r.blk, st := 1, blank := false, owner := owner, next := 0, done := 0, base := 0, time := us.toNat, seq := 0 }, frFree)
  else some (frFree, frFree)
/-- The records of a failed program have been freed: the other claims on them hold no record any longer (R272). -/
def State.orphanClaims (s : State) (x : Cmd) : State :=
  let l := (x.frMaws.map s.pblk).filter (fun b => !x.dead.contains b)
  { s with cmds := s.cmds.map (fun e => (e.1, e.2.map (fun y =>
      if y.claimed ∧ y.pkt.opcode ≠ 3 then { y with dead := y.dead ++ (y.frMaws.map s.pblk).filter l.contains } else y))) }
/-- GROWN_BLOCK on every plane-block of a command (R280). -/
def State.growAll (s : State) (x : Cmd) (cause : Nat) (cc : CcFault) : State :=
  x.frMaws.foldl (fun t m => t.growLater (mawDie m) (mawBlock m) (mawPlane m) cause cc) s
/-- The counters and marks of a failed result (R280): the status, and whether an erase gave it. -/
def State.mediaFail (s : State) (x : Cmd) (st : Nat) (erase : Bool) (cc : CcFault) : State :=
  let g := x.lane
  let pol := s.regAt Reg.DF_GROW_POL
  let s1 := if st = stProgFail then s.count (lnA g Reg.LN_PROG_FAIL)
    else if st = stEraseFail then s.count (lnA g Reg.LN_ERASE_FAIL) else s
  let s2 := if st = stProgFail ∨ st = stEraseFail then s1.raise (lnA g 0) 11 else s1
  if st = stProgFail ∧ bit pol 0 then s2.growAll x 1 cc
  else if st = stEraseFail ∧ bit pol 1 then s2.growAll x 2 cc
  else if st = stTimeout ∧ bit pol 2 then s2.growAll x (if erase then 4 else 3) cc
  else s2
/-- The media result of a program or an erase is applied: records, exposure, marks, its MEDIA units, and the summary record of a reset
(R272, R274, R277, R280, R391, R400, R409). st is OK, PROG_FAIL, ERASE_FAIL, TIMEOUT, or ABORTED for a die reset (R437) and for one that
never ran, which no wear counter counts. -/
def State.resultApplied (s : State) (c h st : Nat) (ran : Bool) (cc : CcFault) : State :=
  match s.cmd? c h with
  | none => s
  | some x =>
    if x.result.isSome then s
    else
      let erase := decide (x.pkt.opcode = 3)
      let ok := decide (st = stOk)
      let r := if erase then s.frResults c x cc (eraseEffect x.owner s.us ok)
        else s.frResults c x cc (progEffect (s.geo x.lane).pages x.progPage ok)
      let s0 := if erase ∨ ok then r.1 else r.1.orphanClaims x
      let s1 : State := { s0.mediaFail x st erase cc with serial := (s0.mediaFail x st erase cc).serial + 1 }
      let s2 := s1.modCmd c h (fun y => { y with result := some st, resultNo := s1.serial, exp := if erase then 0 else expWord r.2, units := 0, claimed := false })
      let s3 := if ran then s2.count (rgA (x.lane / 64) (if erase then Reg.RG_ERASES else Reg.RG_PROGS)) else s2
      let s4 := s3.releaseUnits (x.lane / 64) x.units
      match x.discard, s4.cmd? c h with
      | true, some y => (s4.modCmd c h (fun z => { z with summed := true })).summary c h y st
      | _, _ => s4
/-- The media result of a program or an erase that has run is applied. -/
def State.mediaResult (s : State) (c h st : Nat) (cc : CcFault) : State := s.resultApplied c h st true cc

/-! ### Cancelled claims (R273) and the records of a blank check (R440) -/

/-- The commands whose unbegun claim on the record of a plane-block stands at a page or above. -/
def State.claimsFrom (s : State) (die blk page : Nat) : List (Nat × Nat) :=
  let pb := 8192 * die + blk
  (s.cmdList.filter (fun e => decide (e.2.2.claimed ∧ ¬ e.2.2.begun ∧ e.2.2.pkt.opcode ≠ 3 ∧ page ≤ e.2.2.progPage ∧ e.2.2.stage ≠ .ready) &&
    (e.2.2.frMaws.map s.pblk).contains pb && !e.2.2.dead.contains pb)).map (fun e => (e.1, e.2.1))
/-- The later claims on the records of a command. -/
def State.laterClaims (s : State) (e : Nat × Nat) : List (Nat × Nat) :=
  match s.cmd? e.1 e.2 with
  | none => []
  | some x => (x.frMaws.filter (fun m => !x.dead.contains (s.pblk m))).flatMap (fun m =>
      s.claimsFrom (mawDie m) ((s.geo (mawLane m)).dieBlock m) x.progPage)
/-- The commands that are cancelled with some: every later claim on their records, and so on for those. -/
def State.cancelSet (s : State) (l : List (Nat × Nat)) : List (Nat × Nat) :=
  let open_ := s.cmdList.filter (fun e => e.2.2.claimed && !e.2.2.begun)
  open_.foldl (fun acc _ => (acc ++ acc.flatMap s.laterClaims).dedup) l
/-- NEXT of every record of a cancelled command returns to its page. -/
def State.claimBack (s : State) (e : Nat × Nat) (cc : CcFault) : State :=
  match s.cmd? e.1 e.2 with
  | none => s
  | some x =>
    (s.frResults e.1 x cc (fun r =>
      if r.st = 1 ∧ x.progPage < r.next then some ({ r with next := x.progPage }, r) else none)).1
/-- The committed strokes of a command are discarded and reported DROPPED; one that is on the bus ends (R273, R390). In ENDGAME the
sequencer has the lane, and nothing is reported. -/
def State.dropStrokes (s : State) (g h : Nat) : State :=
  let l := (s.lane g).committed.filter (fun k => k.of h)
  if l.isEmpty ∨ s.glb.mode = .endgame then s
  else
    let keep (r : Running) : Bool := !r.stroke.of h
    let s1 := s.modLane g (fun q =>
      let m := if l.any (fun k => decide (q.mpOpen.map Prod.fst = some (pDie k.params))) then none else q.mpOpen
      { q with strokes := q.strokes.filter (fun k => !k.of h), run := q.run.filter keep, waiting := q.waiting.filter keep,
               ceLow := if q.run.any (fun r => !keep r) then none else q.ceLow, mpOpen := m })
    (l.foldl (fun u _ => u.strokeEnd g h 0 1) s1).idleSync g
/-- A cancelled program gives its MEDIA units back (R400). -/
def State.unitsBack (s : State) (e : Nat × Nat) : State :=
  match s.cmd? e.1 e.2 with
  | some x => (s.modCmd e.1 e.2 (fun y => { y with claimed := false, units := 0 })).releaseUnits (x.lane / 64) x.units
  | none => s
/-- Programs are cancelled (R273) with every later claim on their records: NEXT returns to the lowest cancelled page, their strokes
are discarded, and their MEDIA units are released. Answers all the commands cancelled. -/
def State.cancelPrograms (s : State) (seeds : List (Nat × Nat)) (cc : CcFault) : State × List (Nat × Nat) :=
  let l := s.cancelSet seeds
  let s1 := l.foldl (fun t e => t.claimBack e cc) s
  (l.foldl (fun t e => (t.unitsBack e).dropStrokes (((t.cmd? e.1 e.2).map (·.lane)).getD 0) e.2) s1, l)
/-- One program cancelled. -/
def State.cancelClaims (s : State) (c h : Nat) (cc : CcFault) : State × List (Nat × Nat) := s.cancelPrograms [(c, h)] cc
/-- The VERIFYING slot of a plane-block in line k of its die's slots returns to FREE, where the line can be read and written; whether it
could. -/
def State.unverifyLine (s : State) (u : Asker) (die blk k : Nat) (cc : CcFault) : State × Bool :=
  let q := s.frLine u die k cc
  match q.2 with
  | none => (q.1, false)
  | some l =>
    match frFind l blk with
    | some i => if (l.getD i frFree).st = 2 then q.1.frPut u die (4 * k + i) frFree cc else (q.1, true)
    | none => (q.1, true)
/-- Every VERIFYING slot that a command's blank check holds, and that the block can still write, returns to FREE (R271, R440); whether
every line could be read and every slot written. -/
def State.unverify (s : State) (c h : Nat) (cc : CcFault) : State × Bool :=
  match s.cmd? c h with
  | none => (s, true)
  | some x =>
    let r := x.frMaws.foldl (fun (a : State × Bool) m =>
      (List.range 4).foldl (fun (a : State × Bool) k =>
        let t := a.1.unverifyLine (unitCluster c) (mawDie m) ((s.geo (mawLane m)).dieBlock m) k cc
        (t.1, a.2 && t.2)) a) (s, true)
    (r.1.modCmd c h (fun y => { y with verifying := false }), r.2)
/-- A command ends early: the VERIFYING slots of its blank check are freed first (R440). -/
def State.abort (s : State) (c h st det : Nat) : State :=
  match s.cmd? c h with
  | some x => if x.verifying then (s.unverify c h .clean).1.finish c h st det else s.finish c h st det
  | none => s

/-! ### A die reset (R437) -/

/-- A command's sensed data has not all been transferred out: frames of it still await their data-out, or
the parameter pages of an IDENTIFY (R437). -/
def State.moreData (s : State) (x : Cmd) : Bool :=
  if x.pkt.opcode = 0x0A then true
  else if x.pkt.opcode = 5 ∨ x.verifying then decide (x.counts.length < x.pkt.maws.length * (s.geo x.lane).frames)
  else decide (x.pkt.opcode = 1 ∨ x.pkt.opcode = 0x0C ∨ x.pkt.opcode = 0x0D ∨ (x.pkt.opcode = 4 ∧ ¬ x.destPart)) &&
    x.frames.any (fun f => decide (f.flow = .waiting))
/-- The commands in service that a reset of a LUN ends, apart from two: whose array operation runs or is held suspended,
or whose sensed data has not all been transferred. -/
def State.resetVictims (s : State) (g ld : Nat) (spare : List Nat) : List Nat :=
  let u := (s.lane g).lun ld
  let more (h : Nat) : Bool := match s.cmd? (g / 8) h with | some x => s.moreData x | none => false
  let runs := u.busy && (decide (u.state ≠ .generalBusy) || decide (u.handle = u.arrayBy))
  let hs := u.progs ++ u.erase.toList ++ (if runs then u.arrayBy.toList else []) ++ u.sensed.filter more
  (hs.filter (fun h => !spare.contains h)).dedup
/-- One command ended by a die reset: ABORTED with DETAIL DIE_RESET, its records freed where it programs or erases, and
the unbegun programs claimed on records so freed cancelled and ended with it (R437). A PROGRAM or ERASE whose Quill part has ended,
but whose array operation still runs, is ended like one in service (log entry 126). -/
def State.dieResetCmd (s : State) (c h : Nat) : State :=
  match s.cmd? c h with
  | none => s
  | some x =>
    if x.stage = .ready ∨ (x.quill.isSome ∧ ¬ (x.claimed ∧ x.result.isNone)) then s
    else if x.claimed ∧ ¬ x.verifying then
      let l := if x.pkt.opcode = 3 then [] else ((s.laterClaims (c, h)).filter (fun e => decide (e ≠ (c, h)))).dedup
      let s1 := (s.mediaResult c h stAborted .clean).finish c h stAborted 0x19
      let r := s1.cancelPrograms l .clean
      r.2.foldl (fun t e => t.finish e.1 e.2 stAborted 0x19) r.1
    else s.abort c h stAborted 0x19
/-- A RESET or RESET_LUN stroke is accepted for a LUN: it ends the commands of R437 and frees the LUN's bookkeeping. -/
def State.dieReset (s : State) (g ld : Nat) (spare : List Nat) : State :=
  let s1 := (s.resetVictims g ld spare).foldl (fun t h => t.dieResetCmd (g / 8) h) s
  s1.modLane g (fun l =>
    let m := if l.mpOpen.map Prod.fst = some ld then none else l.mpOpen
    { l with mpOpen := m }.modLun ld (fun u =>
      { u with pendData := false, erase := none, progs := [], handle := none, cacheEnd := false, cachedRow := 0,
               sensed := [], arrayBy := none, suspAsked := false, suspFree := false, overrun := false, awaitReset := false, feat := 0xFFFFFFFF#32, featNew := none }))

/-! ### The end of a command's frames (R244, R248, R294) -/

/-- A frame has ended its flow. -/
def FrameSt.ended (f : FrameSt) : Bool := f.flow = .done ∨ f.flow = .failed ∨ f.flow = .erased
/-- Every frame of a command has ended. -/
def Cmd.allEnded (x : Cmd) : Bool := x.frames.all FrameSt.ended
/-- Once every frame of a READ or RAW_READ has ended, its data is ready to move, if there is any to move (R294, R296). -/
def State.framesEnded (s : State) (c h : Nat) : State :=
  match s.cmd? c h with
  | some x =>
    if ¬ x.allEnded ∨ x.moved ∨ (x.pkt.opcode ≠ 1 ∧ x.pkt.opcode ≠ 0x0C) then s
    else if x.stageFlag ∨ ¬ x.frames.any FrameSt.ok then s.modCmd c h (fun y => { y with moved := true })
    else (s.modCmd c h (fun y => { y with stage := .staged })).toMover c h c
  | none => s

end Sys2Proof.Machine
end

