-- ==== Sys2Proof/Machine/Seals.lean ====
section
/-! DEFINITION. The copies of the seal record (R92, R341 to R344) and the erases of the sanitize (R345), as they progress on their dies.
The commands that start them are in Machine/Keys.lean and Machine/Opening.lean. -/
namespace Sys2Proof.Machine
open Sys2Proof

/-! ### The record that a copy carries (R342) -/

/-- The 64 bytes of a seal record: LEVEL, TARGET, GEN and the words of INSTANCE_ID; STATE is SANITIZING where TARGET is below LEVEL. -/
def sealBytes (level target gen id0 id1 : Nat) : Nat :=
  let n := 0x4C53584E + 2 ^ 32 + 2 ^ 48 * level + (if target < level then 2 ^ 56 else 0) + 2 ^ 64 * target + 2 ^ 96 * gen + 2 ^ 128 * id0 +
    2 ^ 160 * id1
  n + 2 ^ 480 * crc32c (natBytes 60 n)
/-- Frame f of page 0 of a region's copy, as it is written: the record in its first user bytes, side data of instance 0x1FF and key slot 0
with SEQ and META zero, randomised and encoded (R342). -/
def sealFrameOut (region f record : Nat) : Frame :=
  let user : BitVec 32768 := BitVec.ofNat 32768 record
  let die := 4096 * region
  writeFrame user (sideOf (tagOf 511 0) (echoOf (mkMaw die 0 0 0 0) f) (crc32c (natBytes 4096 record)) 0 0) die f 0 0
/-- Frame f of the copy being written. -/
def State.copyFrame (s : State) (j : SealJob) (f : Nat) : Frame :=
  sealFrameOut j.region f (sealBytes j.level.val j.target.val s.keys.gen.toNat (s.regAt (Reg.CHAR_ROW + 4)).toNat
    (s.regAt (Reg.CHAR_ROW + 8)).toNat)

/-! ### The seal copies (R341, R343, R344, R394) -/

/-- A lane is trained and absent from GLB_LANE_FAIL, whether its cluster dozes or not (R345). -/
def State.laneTrue (s : State) (g : Nat) : Bool := decide (g < s.build.lanes) && (s.lane g).enabled && !s.laneFailed g
/-- The die that holds region r's copy takes part: target 0, LUN 0 of lane 64r. -/
def State.sealDie (s : State) (r : Nat) : Bool := s.laneTrue (64 * r) && s.targetUp (64 * r) 0
/-- A copy could not be written: SEAL_DEGRADED and its record; why is 1 in OPENING, 2 in a raise, 3 in a lowering. -/
def State.sealDegrade (s : State) (r why : Nat) : State :=
  (s.modGlb (fun g => { g with sealDegraded := true })).blot 0xD000 0x2D none [BitVec.ofNat 32 r, BitVec.ofNat 32 why]
/-- A level is latched: level 1 returns the perturbation slots that hold fault kinds to reset, level 2 closes the expert
unlock (R106, R434). -/
def State.latchLevel (s : State) (l : Fin 3) : State :=
  let s1 := s.modGlb (fun g => { g with level := some l })
  if l = 2 then s1.expertDrop else if l = 1 then s1.pxDropFaults else s1
/-- The latched level. -/
def State.levelNo (s : State) : Nat := match s.glb.level with | some l => l.val | none => 0
/-- The LUN is taken by the seal copy that is being written. -/
def State.sealHeld (s : State) (g ld : Nat) : Bool :=
  match s.keys.job with
  | some j => decide (g = 64 * j.region ∧ ld = 0)
  | none => false
/-- The copy's erase or program has been issued. -/
def SealJob.runs (j : SealJob) : Bool := j.step = .erasing ∨ j.step = .programming
/-- The LUN runs the erase or the program of a seal copy. -/
def State.sealBusy (s : State) (g ld : Nat) : Bool :=
  match s.keys.job with
  | some j => decide (g = 64 * j.region ∧ ld = 0) && j.runs
  | none => false
/-- RESULT of KY_SEAL_STAT with BUSY and SANITIZING at 0, and SEAL_DONE. -/
def State.sealResult (s : State) (r : Nat) : State :=
  (s.modReg Reg.KY_SEAL_STAT (fun w => putFld (putFld w 31 30 0) 10 8 r)).raise 0xD000 2
/-- Phase SEAL ends: DEFECT follows, or OPENING fails with KEK_MISSING (R336). -/
def State.sealPhaseEnd (s : State) : State :=
  if s.fuse.kek.isNone ∧ 1 ≤ s.levelNo then s.openFail .kekMissing else s.toPhase .defect
/-- The last copy has been written or has failed (R92, R343 step 5, R344). -/
def State.sealEnd (s : State) (j : SealJob) : State :=
  let bad (why : Nat) : State := (j.failed.foldl (fun t r => t.sealDegrade r why) s).modKeys (fun k => { k with job := none })
  match j.why with
  | .rewrite => if s.glb.mode = .opening ∧ s.glb.phase = .seal then (bad 1).sealPhaseEnd else bad 1
  | .raise =>
    if j.wrote.isEmpty then (s.modKeys (fun k => { k with job := none })).sealResult 4 else (bad 2).sealResult 0
  | .before => bad 3
  | .after => ((((bad 3).latchLevel j.level).modKeys (fun k => { k with sanit := none })).raise 0xD000 3).sealResult 0
/-- One copy is written or has failed: the first copy of a raise that succeeds latches the level (R343). -/
def State.sealWritten (s : State) (ok : Bool) : State :=
  match s.keys.job with
  | none => s
  | some j =>
    let s1 := if ok ∧ j.why = .raise ∧ j.wrote.isEmpty then s.latchLevel j.level else s
    let j1 := if ok then { j with wrote := j.wrote ++ [j.region] } else { j with failed := j.failed ++ [j.region] }
    match j.todo with
    | r :: l => s1.modKeys (fun k => { k with job := some { j1 with region := r, todo := l, step := .waitErase } })
    | [] => s1.sealEnd j1
/-- A ROM stroke that the opening sequencer of a lane issues for a seal copy or for the sanitize (R341, R345). -/
def State.seqStroke (s : State) (g ld id row frames : Nat) : Stroke :=
  { id := id, params := [BitVec.ofNat 32 (lunBits ld), BitVec.ofNat 32 row, 0, 0, 0, 0, BitVec.ofNat 32 frames, 0], byBlock := true, rom := true,
    fill := s.regAt (lnA g Reg.LN_FRAME_CFG), seq := true }
/-- The sequencer issues a stroke. -/
def State.seqIssue (s : State) (g : Nat) (st : Stroke) : State := s.modLane g (fun l => { l with strokes := l.strokes ++ [st] })
/-- PROG + ⌈B × XFER / 1,024⌉ of one page of a lane (R394). -/
def State.copyCost (s : State) (g : Nat) : Nat :=
  fld (s.costWord (s.costTable g) 1) 23 0 + s.xferCost (s.costTable g) (4672 * ((s.geo g).frames))
/-- The lane and the die are free for a stroke of the sequencer: at an idle point with no hand-over due, the LUN idle, and no ring command in
service on it (R149). -/
def State.seqFree (s : State) (g ld : Nat) : Bool :=
  let u := (s.lane g).lun ld
  decide (u.state = .idle ∧ ¬ u.busy ∧ ¬ u.awaitReset) && s.idlePoint g && !s.castPending g && !(s.lane g).forced && !(s.lane g).retrainWait &&
    (s.cmdsOn g).all (fun e => !(e.2.2.inService && decide (mawLd (if e.2.2.destPart then e.2.2.pkt.maw1 else e.2.2.pkt.maw0) = ld)))
/-- The copy being written goes on where it waits on a lane: its erase, or its program with GEN incremented, is issued once its die is free
and HOLDUP_OK is high, and charged; a die that takes no part fails its copy (R341 to R344, R394, R417). -/
def State.sealNext (s : State) (g : Nat) : State :=
  match s.keys.job with
  | none => s
  | some j =>
    if j.runs ∨ s.glb.mode = .endgame then s
    else if ¬ s.sealDie j.region then s.sealWritten false
    else if g ≠ 64 * j.region ∨ ¬ s.clusterUp (g / 8) ∨ ¬ s.pins.holdup ∨ ¬ s.seqFree g 0 then s
    else if j.step = .waitErase then
      ((s.lateCharge none (s.chargeOf (s.costTable g) .erase 1 0)).seqIssue g (s.seqStroke g 0 0x012 0 0)).modKeys (fun k =>
        { k with job := some { j with step := .erasing } })
    else
      ((s.lateCharge none (s.copyCost g)).seqIssue g (s.seqStroke g 0 0x00F 0 (s.geo g).frames)).modKeys (fun k =>
        { k with gen := k.gen + 1, job := some { j with step := .programming } })
/-- The copy being written goes on wherever it can. -/
def State.sealKick (s : State) : State := s.sealLanes.foldl State.sealNext s
/-- The block begins to write the copies of some regions. -/
def State.sealBegin (s : State) (why : SealWhy) (level target : Fin 3) (regions : List Nat) : State :=
  match regions with
  | [] => s
  | r :: l =>
    let j : SealJob := { why := why, level := level, target := target, region := r, todo := l, step := .waitErase, wrote := [], failed := [] }
    (s.modKeys (fun k => { k with job := some j })).sealKick
/-- The erase or program of the copy being written has ended: the erase leads to the program, the program ends the copy (R341, R343). -/
def State.sealReady (s : State) (fail : Bool) : State :=
  match s.keys.job with
  | none => s
  | some j =>
    ((if fail then s.sealWritten false
    else if j.step = .programming then s.sealWritten true
    else s.modKeys (fun k => { k with job := some { j with step := .waitProgram } })).releaseUnits j.region 0).sealKick
/-- Copies that still wait when SEAL's limit expires count as failed rewrites (R417). -/
def State.sealExpired (s : State) : State :=
  match s.keys.job with
  | some j => s.sealEnd { j with failed := j.failed ++ j.region :: j.todo }
  | none => s

/-! ### The erases of the sanitize (R345) -/

/-- The plane-blocks of a die of a lane. -/
def State.dieBlocks (s : State) (g : Nat) : Nat := (s.geo g).blocks * (s.geo g).planes
/-- The sanitize's erase of a die. -/
def State.sanErase (s : State) (die : Nat) : Option SanErase := s.keys.sanit.bind (fun z => Tab.find? z.running die)
/-- The sanitize's erase of a die set, or over. -/
def State.setErase (s : State) (die : Nat) (e : Option SanErase) : State :=
  s.modKeys (fun k => { k with sanit := k.sanit.map (fun z =>
    { z with running := match e with | some x => Tab.put z.running die x | none => Tab.erase z.running die }) })
/-- A die of which nothing is left to erase is finished: DONE of KY_SAN_PROG. -/
def State.sanitCount (s : State) (die : Nat) : State :=
  match s.keys.sanit with
  | some z =>
    if s.dieBlocks (die / 64) ≤ Tab.getD (fun _ => 0) z.cursor die ∧ (Tab.find? z.running die).isNone then
      s.countField Reg.KY_SAN_PROG 29 16 1
    else s
  | none => s
/-- The next stroke of a die's erase: a plane stroke that does not end the sequence, or its last one (R169, R345). -/
def State.sanStroke (s : State) (die : Nat) (e : SanErase) : State :=
  let g := die / 64
  let q := s.geo g
  match e.left with
  | b :: l =>
    let row := q.row (mkMaw die (b / q.planes) 0 (b % q.planes) 0)
    ((s.seqIssue g (s.seqStroke g (die % 64) (if l.isEmpty then 0x012 else 0x013) row 0)).modLane g (fun q =>
      { q with mpOpen := if l.isEmpty then q.mpOpen else some (die % 64, 5) })).setErase die (some { e with left := l })
  | [] => s
/-- A die's erase under the sanitize is over without a result: its units are released. -/
def State.sanitDrop (s : State) (die : Nat) : State :=
  match s.sanErase die with
  | some e => (s.setErase die none).releaseUnits (die / 4096) e.units
  | none => s
/-- A die's erase under the sanitize has its result: its units, its count (R409; log entry 127) and the policy of R280; cause 2 a failure, 4 a
time-out. -/
def State.sanitReady (s : State) (die cause : Nat) (fail : Bool) (cc : CcFault) : State :=
  match s.sanErase die with
  | none => s
  | some e =>
    let s1 := ((s.sanitDrop die).sanitCount die).count (rgA (die / 4096) Reg.RG_ERASES)
    if ¬ fail then s1
    else
      let s2 := s1.count Reg.KY_SAN_FAIL
      let q := s.geo (die / 64)
      if bit (s.regAt Reg.DF_GROW_POL) (if cause = 4 then 2 else 1) then
        e.blocks.foldl (fun t b => t.growLater die (b / q.planes) (b % q.planes) cause cc) s2
      else s2
/-- The LUN's operation is the sequencer's own: a seal copy, or an erase of the sanitize. -/
def State.seqOwns (s : State) (g ld : Nat) : Bool := s.sealBusy g ld || (s.sanErase (g * 64 + ld)).isSome
/-- The sequencer's operation on a LUN has ended, with or without a failure: a seal copy, or an erase of the sanitize. -/
def State.seqReady (s : State) (g ld cause : Nat) (fail : Bool) (cc : CcFault) : State :=
  if s.sealBusy g ld then s.sealReady fail else s.sanitReady (g * 64 + ld) cause fail cc
/-- A LUN that the sequencer works on is ready: a plane stroke of its erase leads to the next, a suspension leaves the erase as it is, and
anything else ends the operation, a reset as a failure. old is the LUN as it was (R179, R182). -/
def State.seqLun (s : State) (g ld : Nat) (old : Lun) (fail : Bool) (cc : CcFault) : State :=
  if ((s.lane g).lun ld).state ≠ .idle then s
  else match old.state, s.sanErase (g * 64 + ld) with
    | .generalBusy, some e => s.sanStroke (g * 64 + ld) e
    | .generalBusy, none => s
    | st, _ => s.seqReady g ld 2 (fail || decide (st = .resetting)) cc
/-- A lane is lost with what the sequencer does on it: its seal copy fails, and its erases are over. -/
def State.seqLost (s : State) (g : Nat) : State :=
  let s1 := (List.range 64).foldl (fun t d => t.sanitDrop (g * 64 + d)) s
  if s1.sealHeld g 0 then (s1.sealWritten false).sealKick else s1

/-- HOLDUP_OK_CHANGE (R54, R417): the synchronised level changes; a rise signals room to the commands that wait for it, and to a seal copy. -/
def execHoldupOkChange (level : Bool) (s : State) : Out :=
  if s.alive then
    let s1 := s.modPins (fun p => { p with holdup := level })
    done s (if level then (s1.mediaRoom (fun _ => true)).sealKick else s1)
  else idle s

end Sys2Proof.Machine
end

