-- ==== Sys2Proof/Machine/Summary.lean ====
section
/-! DEFINITION. The Endgame summary (R414, R415), its host copy (R416), and the move to RESET that ends ENDGAME (R413). -/
namespace Sys2Proof.Machine
open Sys2Proof

/-! ### Entries (R414 to R416) -/

/-- An entry of 16 bytes: TAG, OUTCOME, OPCODE, INST, EXP and MAW (R414). -/
def egEntry (tag out op inst : Nat) (exp : BitVec 16) (maw : BitVec 64) : BitVec 128 :=
  BitVec.ofNat 128 (tag + 2 ^ 16 * out + 2 ^ 24 * op + 2 ^ 32 * inst + 2 ^ 48 * exp.toNat + 2 ^ 64 * maw.toNat)
/-- The host copy is on (R416). -/
def State.egHost (s : State) : Bool := bit (s.regAt Reg.GLB_EG_CTL) 0
/-- The host address of the area (R416). -/
def State.egAddr (s : State) : Nat := 2 ^ 32 * ((s.regAt Reg.GLB_EG_HOST_HI).toNat) + (s.regAt Reg.GLB_EG_HOST_LO).toNat
/-- An entry is made: it is held and, with the host copy on, written to host memory; the 4,097th is dropped (R414, R416). -/
def State.egPut (s : State) (e : BitVec 128) : State :=
  let i := s.endgame.entries.length
  if 4096 ≤ i then (s.count Reg.GLB_EG_DROP).orReg Reg.GLB_EG_SUM (flag true 30)
  else
    let s1 := (s.modEndgame (fun x => { x with entries := x.entries ++ [e] })).modReg Reg.GLB_EG_SUM (fun w => putFld w 12 0 (i + 1))
    if s.egHost then
      (s1.modEndgame (fun x => { x with hostOut := x.hostOut + 1 })).hpPush 0
        (oneBeat (s.egAddr + 128 + 16 * i) (leBytes 16 e.toNat) 1 .egEntry)
    else s1
/-- OUTCOME of a media result (R415): the codes of OK and failed programs and erases; an erase that a reset ended is
ERASE_RESET (log entry 34). -/
def egOutcome (erase : Bool) (st : Nat) : Nat :=
  if erase then (if st = stOk then 5 else if st = stAborted then 7 else 6) else if st = stOk then 1 else 2
/-- The entry of a command with an outcome: EXP is VALID for PROG_OK and PROG_FAIL only (R414). -/
def State.egCmd (s : State) (x : Cmd) (out : Nat) : State :=
  s.egPut (egEntry x.pkt.tag.toNat out x.pkt.opcode x.owner (if out = 1 ∨ out = 2 then x.exp else 0)
    (if x.pkt.opcode = 4 then x.pkt.maw1 else x.pkt.maw0))
/-- The entry of a command whose media result is known. -/
def State.egKnown (s : State) (x : Cmd) : State :=
  match x.result with
  | some st => s.egCmd x (egOutcome (decide (x.pkt.opcode = 3)) st)
  | none => s
/-- The entries of commands whose results became known since a state. -/
def State.egResults (s : State) (old : State) (c : Nat) (handles : List Nat) : State :=
  handles.foldl (fun t h => match old.cmd? c h, t.cmd? c h with
    | some a, some b => if a.result.isNone then t.egKnown b else t
    | _, _ => t) s
/-- The MAW of the block's own operation on a LUN: a seal copy, or an erase of the sanitize (R341, R345). -/
def State.egOwn (s : State) (g ld : Nat) : Option (BitVec 64) :=
  if s.sealBusy g ld then some (mkMaw (g * 64) 0 0 0 0)
  else match (s.sanErase (g * 64 + ld)).map (·.blocks) with
    | some (b :: _) => some (mkMaw (g * 64 + ld) (b / (s.geo g).planes) 0 (b % (s.geo g).planes) 0)
    | _ => none
/-- The block's own operation on a LUN has an outcome: its entry, and the operation is over (R412, R414). -/
def State.egOwnEnd (s : State) (g ld out : Nat) : State :=
  match s.egOwn g ld with
  | none => s
  | some m =>
    let s1 := s.egPut (egEntry 0xFFFF out 0 0x1FF 0 m)
    if s.sealBusy g ld then s1.modKeys (fun k => { k with job := none }) else s1.setErase (g * 64 + ld) none
/-- The sequencer's operation on a LUN has gone to the die: the LUN runs it, or its stroke runs, a program's with its first frame sent, an
erase's last (R411). -/
def Lane.seqBegun (l : Lane) (ld : Nat) : Bool :=
  let st := (l.lun ld).state
  decide (st = .progBusy ∨ st = .eraseBusy ∨ st = .suspending ∨ st = .suspended) ||
    (l.run.toList ++ l.waiting.toList).any (fun r => r.stroke.seq && decide (pDie r.stroke.params = ld) &&
      (if r.cls = 4 then decide (0 < r.moved) else !r.cont))
/-- The block's own operations of a lane that have not gone to a die are over, each with its entry (R411, R414; log entry 36). -/
def State.egOwnCancel (s : State) (g : Nat) : State :=
  (List.range 64).foldl (fun t ld =>
    if (t.lane g).seqBegun ld then t
    else t.egOwnEnd g ld (if t.sealBusy g ld ∧ (t.keys.job.map (·.step)) = some .programming then 3 else 7)) s

/-! ### The end of ENDGAME (R413, R416) -/

/-- The block moves to RESET, and a warm reset deferred under R73 is applied (R79, R413). -/
def State.egReset (s : State) : State :=
  let s1 := s.toMode .reset
  if s1.glb.warmWait then
    (s1.modGlb (fun g => { g with warmWait := false, warmDeferred := !s.pins.warmLow })).applyWarm.orReg
      Reg.CLK_RESET_CAUSE (flag true 2)
  else s1
/-- The host copy has failed: HOST_ERR (R416). -/
def State.egHostErr (s : State) : State := s.orReg Reg.GLB_EG_SUM (flag true 27)
/-- The host copy has failed. -/
def State.egFailed (s : State) : Bool := bit (s.regAt Reg.GLB_EG_SUM) 27
/-- Every lane enters the R50 state with WP_N low, and GLB_EG_DUR takes the elapsed µs (R413). -/
def State.egPark (s : State) : State :=
  let s1 := s.laneList.foldl (fun t g => t.modLane g (fun l =>
    { l with enabled := false, wpHigh := false, strokes := [], run := none, waiting := none, source := [], ceLow := none, mpOpen := none })) s
  (s1.setReg Reg.GLB_EG_DUR (satWord (s.since s.endgame.start / 100))).modEndgame (fun e => { e with ended := true })
/-- An entry's status returns: an error fails the copy; after the sequence's end nothing is left to wait for then (R416). -/
def State.egEntryStatus (s : State) (resp : Nat) : State :=
  let s1 := s.modEndgame (fun e => { e with hostOut := e.hostOut - 1 })
  if resp = 0 then s1
  else if s.endgame.ended then s1.egHostErr.egReset else s1.egHostErr
/-- The header's status returns: the block moves to RESET (R416). -/
def State.egHeaderStatus (s : State) (resp : Nat) : State :=
  let s1 := s.modEndgame (fun e => { e with headerOut := false })
  (if resp = 0 then s1 else s1.egHostErr).egReset

end Sys2Proof.Machine
end

