-- ==== Sys2Proof/Machine/Slots.lean ====
section
/-! DEFINITION. The slots of the lane read FIFOs and the end of a frame's flow (R236 to R239, R244, R248, R250 to R252). -/
namespace Sys2Proof.Machine
open Sys2Proof

/-- The frame state k of a command changed. -/
def Cmd.modFrame (x : Cmd) (k : Nat) (f : FrameSt → FrameSt) : Cmd := { x with frames := x.frames.modify k f }
/-- The slot that holds a frame of a handle. -/
def Lane.slotOf (l : Lane) (h k : Nat) : Option (Nat × Slot) := List.find? (fun e => e.2.handle = h && e.2.index = k) l.slots
/-- The slots of a frame are released (R237). -/
def State.freeSlot (s : State) (g h k : Nat) : State :=
  s.modLane g (fun l => { l with slots := l.slots.filter (fun e => !(e.2.handle = h && e.2.index = k)) })
/-- A frame's state. -/
def State.frame? (s : State) (c h k : Nat) : Option FrameSt := (s.cmd? c h).bind (fun x => x.frames[k]?)
/-- A frame's state changed. -/
def State.modFrame (s : State) (c h k : Nat) (f : FrameSt → FrameSt) : State := s.modCmd c h (fun x => x.modFrame k f)
/-- Group and row of a byte of slot i of a lane's FIFO (R355). -/
def fifoRow (g i byte : Nat) : Nat × Nat := (0x100 + g, (4672 * i + byte) / 128)
/-- The MAW of frame k of a command, with its index in the plane page: of the page read, or of the page written. -/
def State.frameMaw (s : State) (x : Cmd) (k : Nat) (written : Bool) : BitVec 64 × Nat :=
  let ms := if written then x.frMaws else x.pkt.maws
  let per := x.frames.length / ms.length
  let m := ms.getD (k / per) 0
  (m, k % per + if written then 0 else firstFrame (s.geo (mawLane m)).frames (mawFrame x.pkt.maw0))
/-- The sample of a frame whose first load was counted (R251, R252): against the ones of its decoded codeword, by whatever path it
decoded, or against 18,688; it goes to the entry of MAW0 (R254). -/
def State.frameSample (s : State) (c h k : Nat) (cc : CcFault) : State :=
  match s.cmd? c h with
  | none => s
  | some x =>
    match x.frames[k]? with
    | none => s
    | some f =>
      match f.ones with
      | some n =>
        if s.glb.mode = Mode.fallback ∨ s.glb.mode = Mode.opening then s
        else
          let x1 : Int := (n : Int) - ((f.decoded.getD 18688 : Nat) : Int)
          s.sampleLater c x.pkt.maw0 x.field9 f.sensed x.rlOk x1 cc
      | none => s
/-- A frame's flow ends: its sample is formed, but for an erased frame's (R251), and the command goes on. -/
def State.frameEnd (s : State) (c h k : Nat) (sample : Bool) (cc : CcFault) : State :=
  (if sample then s.frameSample c h k cc else s).framesEnded c h
/-- A frame fails (R244, R248): its slot is released and LN_DEC_FAIL counts it. -/
def State.frameFailed (s : State) (c g h k : Nat) : State :=
  ((s.freeSlot g h k).modFrame c h k (fun f => { f with flow := .failed })).count (lnA g Reg.LN_DEC_FAIL)
/-- A frame fails, and its flow ends (R244, R248). -/
def State.frameFail (s : State) (c g h k : Nat) (cc : CcFault) : State := (s.frameFailed c g h k).frameEnd c h k true cc
/-- A frame that waits for a Scribe that is lost fails, and its command ends DEFERRED (R250). -/
def State.frameLost (s : State) (c g h k : Nat) (cc : CcFault) : State :=
  ((s.frameFailed c g h k).frameSample c h k cc).finish c h stDeferred 0
/-- A frame leaves the Gambit queue, and its step ends. -/
def State.leaveGambit (s : State) (g h k : Nat) : State :=
  s.modLane g (fun l =>
    { l with gambit := l.gambit.filter (fun e => decide (e ≠ (h, k))),
             gambitRun := l.gambitRun.filter (fun r => decide (¬ (r.handle = h ∧ r.frame = k))) })
/-- An uncorrectable word of a slot (R239): the frame leaves the Gambit walk that it may be in and is sensed again, once; the second
time it fails. -/
def State.fifoUncorr (s : State) (g h k : Nat) (cc : CcFault) : State :=
  let c := g / 8
  match s.frame? c h k with
  | none => s
  | some f =>
    let s1 := (s.freeSlot g h k).leaveGambit g h k
    if f.resensed then
      let owner := (s.cmd? c h).map (·.owner)
      (s1.blot (lnA g 0) 0x0B owner [BitVec.ofNat 32 g, BitVec.ofNat 32 h, BitVec.ofNat 32 k]).frameFail c g h k cc
    else
      ((s1.modFrame c h k (fun f => { f with flow := .waiting, ones := none, pass := 0, resensed := true })).count
        (lnA g Reg.LN_RESENSE)).senseReq g h k 0 0
/-- A read of a slot's 584 words, each an opportunity of the FIFO's point (R435, R239): a corrected word counts, an uncorrectable one is
answered true. ecc is what the word of the given byte finds. -/
def State.fifoRead (s : State) (g i : Nat) (ecc : Ecc) (byte : Nat := 0) : State × Bool :=
  let o := s.opportunities (lnA g 0) 2 584
  let s1 := ((firedAt o.2 8).map (8 * ·) ++ (if ecc = Ecc.corrected then [byte] else [])).foldl (fun t b => t.corrected (fifoRow g i b).1 (fifoRow g i b).2) o.1
  let bad := (firedAt o.2 9).map (8 * ·) ++ (if ecc = Ecc.uncorrectable then [byte] else [])
  (bad.foldl (fun t b => t.uncorrRow (fifoRow g i b).1 (fifoRow g i b).2) s1, !bad.isEmpty)

end Sys2Proof.Machine
end

