-- ==== Sys2Proof/Machine/Strokes.lean ====
section
/-! DEFINITION. Stroke tables (R164 to R170), the commit and start of strokes (R168, R172 to R175), their elements (R166),
and the states of LUNs with their polls, time-outs and suspensions (R176 to R182). -/
namespace Sys2Proof.Machine
open Sys2Proof

/-! ### Stroke tables (R164, R165, R169) -/

/-- A stroke: its class, its flags and its elements. -/
structure Entry where
  cls   : Nat
  cont  : Bool
  slab  : Bool
  cache : Bool
  elems : List Word
  deriving DecidableEq, Repr

/-- Byte of the load window's stroke-table area (R88). -/
def State.tableByte (s : State) (i : Nat) : Nat := (Tab.getD (fun _ => (0 : Byte)) s.images (0x60000 + i)).toNat
/-- n bytes of the stroke-table area as a number. -/
def State.tableNat (s : State) (i n : Nat) : Nat := (List.range n).foldr (fun k a => s.tableByte (i + k) + 256 * a) 0
/-- The area holds a table: T_LEN is not 0 (R165). -/
def State.hasTable (s : State) : Bool := decide (fld (s.regAt Reg.MS_IMG_LEN) 31 21 ≠ 0)
/-- Entry i of the directory. -/
def State.dirEntry (s : State) (i : Nat) : Nat := s.tableNat (s.tableNat 8 4 + 8 * i) 8
/-- The stroke that a directory entry describes. -/
def State.dirStroke (s : State) (d : Nat) : Entry :=
  let body := s.tableNat 12 4
  { cls := d / 2 ^ 24 % 16, cont := decide (d / 2 ^ 28 % 2 = 1), slab := decide (d / 2 ^ 29 % 2 = 1), cache := decide (d / 2 ^ 30 % 2 = 1),
    elems := (List.range (d / 2 ^ 48 % 256)).map (fun k => BitVec.ofNat 32 (s.tableNat (body + 4 * (d / 2 ^ 32 % 65536 + k)) 4)) }

/-- Element CE, asserting. -/
def eCe : Word := 0x90000001#32
/-- Element CMD. -/
def eCmd (b : Nat) : Word := BitVec.ofNat 32 (0x10000000 + b)
/-- Element CMDP of word n, byte b. -/
def eCmdp (n b : Nat) : Word := BitVec.ofNat 32 (0x20000000 + n + 16 * b)
/-- Element ADDR of the column. -/
def eCol : Word := 0x30000000#32
/-- Element ADDR of the row. -/
def eRow : Word := 0x30000001#32
/-- Element ADDR of P5. -/
def eP5 : Word := 0x30000002#32
/-- Element ADDR of a literal byte. -/
def eLit (b : Nat) : Word := BitVec.ofNat 32 (0x30000003 + 256 * b)
/-- Element DOUT of P6 frames. -/
def eDout : Word := 0x40000000#32
/-- Element DOUT of n raw bytes. -/
def eRaw (n : Nat) : Word := BitVec.ofNat 32 (0x40000010 + 32 * n)
/-- Element DIN of P6 frames. -/
def eDin : Word := 0x50000000#32
/-- Element FEAT. -/
def eFeat : Word := 0x60000000#32
/-- Element WAIT of a named time, with or without REL. -/
def eWait (k : Nat) (rel : Bool) : Word := BitVec.ofNat 32 (0x70000000 + 65536 * k + if rel then 2 ^ 20 else 0)
/-- Element STAT. -/
def eStat : Word := 0x80000000#32
/-- Element END, not busy. -/
def eEnd : Word := 0#32
/-- Element END with a busy class. -/
def eBusy (cls : Nat) : Word := BitVec.ofNat 32 (1 + 2 * cls)

/-- The cycles of the standard's DQ training sequences (R169): of the lane's signalling mode, which R134 names the standard of. -/
def trainCycles (mode k : Nat) : List Word := Config.trainElems mode k
/-- A training stroke of the ROM (R169): the standard's sequence, for RD_TRAIN with its DOUT raw pattern, and END. -/
def trainStroke (mode k : Nat) : List Word :=
  trainCycles mode k ++ (if k = 0 then [eRaw (1 + Config.trainBytes mode % 1024)] else []) ++ [eEnd]
/-- The ROM strokes (R169); the DQ training strokes follow the lane's mode. -/
def romStroke (mode id : Nat) : Option Entry :=
  let mk (cls : Nat) (l : List Word) : Option Entry := some { cls := cls, cont := false, slab := false, cache := false, elems := eCe :: l }
  let prog (last busy : Nat) (cont cache : Bool) : Option Entry :=
    some { cls := 4, cont := cont, slab := true, cache := cache,
           elems := [eCe, eCmd 0x80, eCol, eRow, eWait 2 false, eDin, eCmd last, eBusy busy] }
  let cont (e : Option Entry) : Option Entry := e.map (fun x => { x with cont := true })
  match id with
  | 0x000 => mk 8 [eCmd 0xFF, eBusy 3]
  | 0x001 => mk 8 [eCmd 0xFA, eRow, eBusy 3]
  | 0x002 => mk 0 [eCmd 0x90, eLit 0, eWait 1 false, eRaw 8, eEnd]
  | 0x003 => mk 0 [eCmd 0xEC, eLit 0, eBusy 3]
  | 0x004 => mk 0 [eCmd 0x00, eRaw 768, eEnd]
  | 0x005 => mk 0 [eCmd 0xEE, eP5, eBusy 3]
  | 0x006 => mk 0 [eCmd 0x00, eRaw 4, eEnd]
  | 0x007 => mk 0 [eCmd 0xEF, eP5, eWait 2 false, eFeat, eBusy 3]
  | 0x008 => mk 1 [eCmd 0x70, eStat, eEnd]
  | 0x009 => mk 1 [eCmd 0x78, eRow, eStat, eEnd]
  | 0x00A => mk 2 [eCmd 0x00, eCol, eRow, eCmd 0x30, eBusy 0]
  | 0x00B => cont (mk 2 [eCmd 0x00, eCol, eRow, eCmd 0x32, eBusy 3])
  | 0x00C => mk 3 [eCmd 0x06, eCol, eRow, eCmd 0xE0, eWait 3 true, eDout, eWait 4 true, eEnd]
  | 0x00D => mk 9 [eCmd 0x31, eBusy 0]
  | 0x00E => mk 10 [eCmd 0x3F, eBusy 0]
  | 0x00F => prog 0x10 1 false false
  | 0x010 => prog 0x11 3 true false
  | 0x011 => prog 0x15 1 false true
  | 0x012 => mk 5 [eCmd 0x60, eRow, eCmd 0xD0, eBusy 2]
  | 0x013 => cont (mk 5 [eCmd 0x60, eRow, eCmd 0xD1, eBusy 3])
  | 0x014 => mk 6 [eCmdp 7 0, eBusy 3]
  | 0x015 => mk 7 [eCmdp 7 1, eBusy 2]
  | 0x016 | 0x017 | 0x018 =>
    some { cls := 0, cont := false, slab := false, cache := false, elems := trainStroke mode (id - 0x016) }
  | 0x019 => mk 3 [eCmd 0x06, eCol, eRow, eCmd 0xE0, eWait 3 false, eRaw 1, eEnd]
  | _ => none

/-- The signalling mode of a lane (LN_SIG_STAT.MODE). -/
def State.sigMode (s : State) (g : Nat) : Nat := fld (s.regAt (lnA g Reg.LN_SIG_STAT)) 3 0
/-- The stroke that an ID names on a lane (R164). -/
def State.resolve (s : State) (g id : Nat) : Option Entry :=
  if (s.serving ∨ s.glb.mode = .endgame) ∧ s.hasTable then
    let n := s.tableNat 6 2
    match ((List.range n).map s.dirEntry).find? (fun d => decide (d % 65536 = id ∧ d / 2 ^ (16 + s.sigMode g) % 2 = 1)) with
    | some d => some (s.dirStroke d)
    | none => romStroke (s.sigMode g) id
  else romStroke (s.sigMode g) id
/-- The stroke that an ID names where the ROM alone may serve it, or the loaded table too (R164). -/
def State.entryFor (s : State) (g id : Nat) (rom : Bool) : Option Entry :=
  if rom then romStroke (s.sigMode g) id else s.resolve g id

/-! ### Parameters of a stroke (R168) -/

/-- P0 names a target and a LUN that take part (R121). -/
def State.paramOk (s : State) (g : Nat) (p : List Word) : Bool :=
  let ld := pDie p
  s.laneUp g && s.targetUp g (ld / 4) && decide (ld % 4 < (s.geo g).luns)

/-! ### What a LUN accepts (R172 to R174, R179, R180) -/

/-- LN_SUSP_CTL of a lane. -/
def State.suspCtl (s : State) (g : Nat) : Word := s.regAt (lnA g Reg.LN_SUSP_CTL)
/-- An in-service READ addresses the next page of the block that the LUN's last read addressed, both on one plane (R173). -/
def State.nextPageHeld (s : State) (g ld : Nat) : Bool :=
  match ((s.lane g).lun ld).arrayBy.bind (s.cmd? (g / 8)) with
  | none => false
  | some x =>
    decide (x.pkt.mask = 0) && (s.cmdsOn g).any (fun e => decide (e.2.2.inService ∧ e.2.2.pkt.mask = 0 ∧ mawLd e.2.2.pkt.maw0 = ld ∧
      mawBlock e.2.2.pkt.maw0 = mawBlock x.pkt.maw0 ∧ mawPlane e.2.2.pkt.maw0 = mawPlane x.pkt.maw0 ∧
      mawPage e.2.2.pkt.maw0 = mawPage x.pkt.maw0 + 1))
/-- The class is accepted in the LUN's state (R179, with R173, R174 and R180); byScribe waives MIN_RUN_US for a retrain
(R182). -/
def State.classOk (s : State) (g ld cls : Nat) (byScribe : Bool) : Bool :=
  let u := (s.lane g).lun ld
  let held := cls = 3 ∨ cls = 9 ∨ cls = 0
  if cls = 1 ∨ cls = 8 then true
  else if u.pendData ∧ ¬ held then false
  else match u.state with
    | .idle => decide (cls = 0 ∨ cls = 2 ∨ cls = 4 ∨ cls = 5 ∨ cls = 3) || (decide (cls = 9) && u.pendData && s.nextPageHeld g ld)
    | .cacheRead => !u.busy && (decide (cls = 3 ∨ cls = 10) || (decide (cls = 9) && s.nextPageHeld g ld))
    | .progBusy => decide (cls = 4) && u.cacheEnd
    | .eraseBusy =>
      decide (cls = 6) && bit (s.suspCtl g) 0 &&
        (decide (fld (s.suspCtl g) 31 16 * 100 ≤ s.since u.eraseRun) || (byScribe && (s.lane g).retrainReq.isSome))
    | .suspended =>
      decide (cls = 0 ∨ cls = 2 ∨ cls = 3 ∨ cls = 7) || (decide (cls = 4) && bit (s.suspCtl g) 1)
    | _ => false
/-- A multi-plane sequence admits the stroke (R172). -/
def Lane.mpAdmits (l : Lane) (ld cls : Nat) : Bool :=
  match l.mpOpen with
  | none => true
  | some (d, k) => decide (d = ld ∧ (cls = k ∨ cls = 1 ∨ cls = 8))
/-- The lane commits no new stroke: a forced idle point, for any source, or a retrain that waits for its targets, but for the
Scribe's own strokes (R148, R151). -/
def State.laneHeld (s : State) (g : Nat) (byScribe : Bool) : Bool :=
  (s.lane g).forced || ((s.lane g).retrainWait && !byScribe)
/-- The command of a handle was cancelled by an instance reset before its data-in began (R390). -/
def State.cancelled (s : State) (c h : Nat) : Bool :=
  match s.cmd? c h with
  | some x => x.discard && !x.runsOn
  | none => false
/-- A stroke for a command that the Ledger has not admitted yet, or a PROGRAM stroke for one whose blank check runs (R22, R271). The
strokes that act on the LUN and not for a command, STATUS, SUSPEND, RESUME and RESET, are not meant (log entry 125). -/
def State.barred (s : State) (g : Nat) (e : Option Entry) (p : List Word) : Bool :=
  match e, s.cmd? (g / 8) (pHandle p) with
  | some e, some x =>
    decide (e.cls ≠ 1 ∧ e.cls ≠ 6 ∧ e.cls ≠ 7 ∧ e.cls ≠ 8) && (decide (x.stage = .pending) || (decide (e.cls = 4) && x.verifying))
  | _, _ => false
/-- The result of a commit of an entry (R168): 0 ACCEPTED, 1 QUEUE_FULL, 2 WRONG_STATE, 3 BAD_ID, 4 BAD_PARAM. -/
def State.commitResult (s : State) (g : Nat) (e : Option Entry) (p : List Word) (byScribe : Bool) : Nat :=
  match e with
  | none => 3
  | some e =>
    if ¬ s.paramOk g p then 4
    else if s.glb.mode = .endgame ∨ s.laneHeld g byScribe then 1
    else if 4 ≤ (s.lane g).committed.length then 1
    else if e.cls = 4 ∧ s.cancelled (g / 8) (pHandle p) then 2
    else if (s.lane g).mpAdmits (pDie p) e.cls ∧ s.classOk g (pDie p) e.cls byScribe then 0
    else 2
/-- A reset of a LUN that the block issues itself (R177, R412): RESET_LUN, or RESET on a single-LUN target, of the ROM. -/
def State.resetStroke (s : State) (g ld : Nat) : Stroke :=
  { id := if (s.geo g).luns = 1 then 0 else 1,
    params := [BitVec.ofNat 32 (lunBits ld), BitVec.ofNat 32 ((ld % 4) <<< ((s.geo g).pb + (s.geo g).bb))], byBlock := true, rom := true, fill := 0 }
/-- In FALLBACK the LUNs of a lane that await the reset behind a busy time-out get it, unless the lane is held (R151, R177). -/
def State.fallbackResets (s : State) (g : Nat) : State :=
  if s.glb.mode ≠ .fallback ∨ s.laneHeld g false then s
  else
    let due := (s.laneDies g).filter (fun d => ((s.lane g).lun d).awaitReset &&
      !((s.lane g).committed.any (fun k => k.byBlock && decide (pDie k.params = d))))
    s.modLane g (fun l => { l with strokes := l.strokes ++ due.map (s.resetStroke g) })
/-- At an idle point the shadows that wait are handed over, and a forced one is recorded (R149, R151). -/
def State.castle (s : State) (g : Nat) : State :=
  let s1 := if (s.lane g).forced then
      (s.modLane g (fun l => { l with forced := false })).orReg (lnA g Reg.LN_CAL_STAT) (flag true 10)
    else s
  (s1.handOver g).fallbackResets g
/-- A hand-over that is due at the lane's idle point comes before the next commit (R149). -/
def State.castleDue (s : State) (g : Nat) : State := if s.castPending g ∧ s.idlePoint g then s.castle g else s
/-- A stroke as it is committed: P7 of a SUSPEND or RESUME takes LN_SUSP_OPC, and the tail fill that holds is kept, since a later
change of either applies to later commits only (R180, R231); a SUSPEND that the Scribe commits while a retrain is asked for is made for
it (R182); outside SERVICE, THRIFT and ENDGAME it is a ROM stroke (R164). -/
def State.newStroke (s : State) (g id : Nat) (e : Entry) (p : List Word) (byBlock byScribe rom : Bool) : Stroke :=
  { id := id, params := if e.cls = 6 ∨ e.cls = 7 then p.set 7 (s.regAt (lnA g Reg.LN_SUSP_OPC)) else p, byBlock := byBlock,
    rom := rom || !(s.serving || decide (s.glb.mode = .endgame)), fill := s.regAt (lnA g Reg.LN_FRAME_CFG),
    waived := byScribe && decide (e.cls = 6) && (s.lane g).retrainReq.isSome, ofs := ((s.lane g).lun (pDie p)).feat }
/-- A commit among the ROM's strokes alone, or among the loaded ones too: the result, and on ACCEPTED the stroke in the lane's queue and
the multi-plane sequence opened by a CONT stroke (R172). -/
def State.commitFrom (s0 : State) (rom : Bool) (g id : Nat) (p : List Word) (byBlock byScribe : Bool) : State × Nat :=
  let s := s0.castleDue g
  let r := if byBlock ∨ ¬ s.barred g (s.entryFor g id rom) p then s.commitResult g (s.entryFor g id rom) p byScribe else 2
  if r ≠ 0 then (s, r)
  else
    let e := (s.entryFor g id rom).getD { cls := 0, cont := false, slab := false, cache := false, elems := [] }
    (s.modLane g (fun l =>
      { l with strokes := l.strokes ++ [s.newStroke g id e p byBlock byScribe rom],
               mpOpen := if e.cont then some (pDie p, e.cls) else l.mpOpen }), 0)
/-- A commit (R168). -/
def State.commit (s : State) (g id : Nat) (p : List Word) (byBlock byScribe : Bool) : State × Nat :=
  s.commitFrom false g id p byBlock byScribe

/-! ### The start of a stroke (R168, R175, R238) -/

/-- Free general slots of a lane's read FIFO. -/
def Lane.freeSlots (l : Lane) : Nat := 14 - (l.slots.filter (fun e => decide (e.1 < 14))).length
/-- The frames that a DOUT or DIN element moves. -/
def elemFrames (w : Word) (p : List Word) : Nat := if fld w 3 0 = 0 then fld (pw p 6) 3 0 else fld w 3 0
/-- The frame of a command that the n-th frame of a stroke is: from the plane that the row names and the page's frame index (R116,
R168). A row of a plane that the command does not have counts as its first plane's: the frame goes its way under the command's
handle, and fails the checks of R247 (R179). -/
def State.frameIndex (s : State) (g : Nat) (x : Cmd) (p : List Word) (n : Nat) : Option Nat :=
  let q := s.geo g
  let plane := ((pw p 1).toNat >>> q.pb) % 2 ^ q.bb % q.planes
  let maws := if x.destPart ∧ x.pkt.opcode = 4 then [x.pkt.maw1] else x.pkt.maws
  let per := x.frames.length / maws.length
  let first := if x.destPart then 0 else firstFrame q.frames (mawFrame x.pkt.maw0)
  let i := (maws.findIdx? (fun m => mawPlane m == plane)).getD 0
  let k := fld (pw p 3) 19 16 + n
  if first ≤ k ∧ k - first < per then some (i * per + (k - first)) else none
/-- The slot that a frame's sensing uses: 15 for a soft sensing, 14 for a Gambit step, none for a general slot (R236). -/
def Cmd.specialSlot (x : Cmd) (k : Nat) : Option Nat :=
  match (x.frames[k]?).map FrameSt.flow with
  | some Flow.inSde => some 15
  | some Flow.gambitSense => some 14
  | _ => none
/-- The frames of a read stroke have room: enough general slots, or the special slot free (R238). -/
def State.roomFor (s : State) (g : Nat) (st : Stroke) (e : Entry) : Bool :=
  let l := s.lane g
  let n := e.elems.foldl (fun a w => if fld w 31 28 = 4 ∧ ¬ bit w 4 then a + elemFrames w st.params else a) 0
  if n = 0 then true else
  match s.cmd? (g / 8) (pHandle st.params) with
    | some x =>
      match (s.frameIndex g x st.params 0).bind x.specialSlot with
      | some k => (Tab.find? l.slots k).isNone
      | none => decide (n ≤ l.freeSlots)
    | none => true
/-- At an idle point of a lane whose run waits past CAL_RUN.MAX_WAIT_US, a ROM read-training stroke to its lowest present
target (R146); shadows that wait are handed over first (R149). -/
def State.calInsert (s : State) (g : Nat) : State :=
  let wants : Bool := match (s.lane g).cal with | some r => r.insert | none => false
  if wants ∧ s.glb.mode ≠ .endgame ∧ s.idlePoint g ∧ ¬ s.castPending g then
    match (s.laneDies g).head? with
    | some d => (s.commitFrom true g 0x016 [BitVec.ofNat 32 (lunBits d), 0, 0, 0, 0, 0, 0, 0] true true).1
    | none => s
  else s
/-- The stroke that a committed stroke stands for: those of the sequencer in ENDGAME are the ROM's (R164, R412). -/
def State.strokeEntry (s : State) (g : Nat) (st : Stroke) : Option Entry :=
  s.entryFor g st.id (st.rom || (decide (s.glb.mode = .endgame) && st.byBlock))
/-- The row of the stroke store in which a stroke's elements begin; none for a stroke of the ROM (R164, R165, R355). -/
def State.strokeRow (s : State) (g : Nat) (st : Stroke) : Option Nat :=
  if ¬ (st.rom ∨ s.glb.mode = .endgame ∧ st.byBlock) ∧ (s.serving ∨ s.glb.mode = .endgame) ∧ s.hasTable then
    (((List.range (s.tableNat 6 2)).map s.dirEntry).find? (fun d =>
      decide (d % 65536 = st.id ∧ d / 2 ^ (16 + s.sigMode g) % 2 = 1))).map (fun d => (s.tableNat 12 4 + 4 * (d / 2 ^ 32 % 65536)) / 128)
  else none
/-- What the fetch of a stroke from the stroke store finds: a corrected word counts in its row; an uncorrectable one, answered true, drops
the stroke (R167, R348, R356). -/
def State.strokeFetch (s : State) (g : Nat) (st : Stroke) (ecc : Ecc) : State × Bool :=
  let m := 0x181 + 2 * (g / 8)
  match s.strokeRow g st, ecc with
  | some r, .corrected => (s.corrected m r, false)
  | some r, .uncorrectable =>
    ((s.blot (clA (g / 8) 0) 0x18 none [BitVec.ofNat 32 (g / 8), BitVec.ofNat 32 st.id]).uncorrRow m r, true)
  | _, _ => (s, false)
/-- A stroke is the final one of its LUN's open multi-plane sequence. -/
def Lane.mpFinal (l : Lane) (st : Stroke) (e : Option Entry) : Bool :=
  match e with
  | some e => !e.cont && decide (l.mpOpen = some (pDie st.params, e.cls))
  | none => false
/-- The stroke at the head is dropped: STROKE_END reports it (R168). A final stroke of a multi-plane sequence that is dropped will not
run, and ends the sequence (log entry 56). -/
def State.dropStroke (s : State) (g : Nat) (st : Stroke) : State :=
  let fin := (s.lane g).mpFinal st (s.strokeEntry g st)
  let s1 := (s.modLane g (fun l => { l with strokes := l.strokes.drop 1, mpOpen := if fin then none else l.mpOpen })).idleSync g
  (if st.seq then s1.seqReady g (pDie st.params) 2 true .clean else if st.byBlock then s1 else s1.strokeEnd g (pHandle st.params) 0 1).calInsert g
/-- The elements that the engine runs: on a target with more than one LUN a DATA_OUT stroke that sends no row before its data is
given the column change that carries its LUN's row (R175; log entry 112). -/
def State.enforced (s : State) (g : Nat) (e : Entry) : List Word :=
  let before := e.elems.takeWhile (fun w => decide (fld w 31 28 ≠ 4))
  if e.cls = 3 ∧ 1 < (s.geo g).luns ∧ ¬ before.any (fun w => decide (fld w 31 28 = 3 ∧ fld w 1 0 = 1)) then
    [eCe, eCmd 0x06, eCol, eRow, eCmd 0xE0, eWait 3 false] ++ e.elems.filter (fun w => decide (w ≠ eCe))
  else e.elems
/-- The stroke at the head starts: DATA_PENDING cleared by an array operation, and the commands that a RESET ends (R168, R179,
R437). -/
def State.beginStroke (s : State) (g : Nat) (st : Stroke) (e : Entry) : State :=
  let ld := pDie st.params
  let s1 := if e.cls = 8 ∧ s.glb.mode ≠ .endgame then s.dieReset g ld (if st.byBlock then [] else [pHandle st.params]) else s
  let s2 := if e.cls = 2 ∨ e.cls = 4 ∨ e.cls = 5 then s1.modLun g ld (fun u => { u with pendData := false }) else s1
  s2.modLane g (fun l =>
    { l with strokes := l.strokes.drop 1, bus := [],
             run := some { stroke := st, cls := e.cls, cont := e.cont, slab := e.slab, cache := e.cache,
                           elems := s2.enforced g e, moved := 0, status := 0 } })
/-- A stroke may run beside one that waits with its CE_N released: it is for another target and moves no frames or raw bytes (R175). -/
def Lane.besides (l : Lane) (st : Stroke) (e : Entry) : Bool :=
  match l.waiting with
  | none => true
  | some w => decide (pDie st.params / 4 ≠ pDie w.stroke.params / 4) && e.elems.all (fun x => decide (fld x 31 28 ≠ 4 ∧ fld x 31 28 ≠ 5))

/-- STROKE_START (R168): the stroke at the head of a lane's queue is checked again against R121, R179 and R172; it runs, waits for
slots or for the stroke that waits with its CE_N released, or is dropped. The engine's own reset in FALLBACK waits behind the strokes
of a multi-plane sequence that another LUN has open (R172, R177). In ENDGAME a stroke waits for its LUN (R411, R412). -/
def execStrokeStart (lane : Fin 128) (ecc : Ecc) (s : State) : Out :=
  let g := lane.val
  let l := s.lane g
  if s.laneWork ∧ s.laneUp g ∧ l.run.isNone then
    match l.strokes with
    | [] => idle s
    | st :: _ =>
      let f := (s.opportunity (lnA g 0) 0).1.strokeFetch g st ecc
      let s0 := f.1
      if f.2 then looked s (s0.dropStroke g st)
      else match s0.strokeEntry g st with
        | none => looked s (s0.dropStroke g st)
        | some e =>
          if ¬ l.besides st e then idle s
          else if s.glb.mode = .endgame ∧ ¬ s0.classOk g (pDie st.params) e.cls true then idle s
          else if ¬ (s0.paramOk g st.params ∧ s0.classOk g (pDie st.params) e.cls true) then looked s (s0.dropStroke g st)
          else if ¬ st.byBlock ∧ s0.barred g (some e) st.params then looked s (s0.dropStroke g st)
          else if s.glb.mode ≠ .endgame ∧ ¬ l.mpAdmits (pDie st.params) e.cls then
            if st.byBlock ∧ e.cls = 8 then looked s (s.modLane g (fun l => { l with strokes := l.strokes.drop 1 ++ [st] }))
            else looked s (s0.dropStroke g st)
          else if s0.roomFor g st e then looked s (s0.beginStroke g st e)
          else idle s
  else idle s

/-! ### Elements (R166) -/

/-- The stroke whose element comes next: the one that runs, else the one that waits with its CE_N released (R175). -/
def Lane.current (l : Lane) : Option Running := l.run.orElse (fun _ => l.waiting)
/-- The lane with its current stroke going on with the elements t; one that waited asserts its target's CE_N again. -/
def Lane.advance (l : Lane) (r : Running) (t : List Word) : Lane :=
  { l with run := some { r with elems := t }, waiting := if l.run.isSome then l.waiting else none,
           ceLow := if l.run.isSome then l.ceLow else some (fld (pw r.stroke.params 0) 3 0) }
/-- The current stroke's next element is of a kind: what it does, and the stroke goes on behind it. -/
def State.element (s : State) (g kind : Nat) (f : Running → Word → State → State) : Out :=
  match (s.lane g).current with
  | some r =>
    match r.elems with
    | w :: t =>
      if s.laneWork ∧ s.laneUp g ∧ fld w 31 28 = kind then done s (f r w (s.modLane g (fun l => l.advance r t)))
      else idle s
    | [] => idle s
  | none => idle s
/-- The running stroke changed. -/
def State.modRun (s : State) (g : Nat) (f : Running → Running) : State := s.modLane g (fun l => { l with run := l.run.map f })

/-- CMD (R166). -/
def execElCmd (lane : Fin 128) (s : State) : Out :=
  s.element lane.val 1 (fun _ w t => t.drive lane.val [.cmd (byteAt w 0)])
/-- CMDP (R166). -/
def execElCmdp (lane : Fin 128) (s : State) : Out :=
  s.element lane.val 2 (fun r w t => t.drive lane.val [.cmd (byteAt (pw r.stroke.params (fld w 3 0)) (fld w 5 4))])
/-- The address cycles of an ADDR element, least significant byte first. -/
def State.addrBytes (s : State) (g : Nat) (r : Running) (w : Word) : List Byte :=
  let q := s.geo g
  match fld w 1 0 with
  | 0 => leBytes q.colC (pw r.stroke.params 2).toNat
  | 1 => leBytes q.rowC (pw r.stroke.params 1).toNat
  | 2 => [byteAt (pw r.stroke.params 5) 0]
  | _ => [byteAt w 1]
/-- ADDR (R166). -/
def execElAddr (lane : Fin 128) (s : State) : Out :=
  s.element lane.val 3 (fun r w t => t.drive lane.val ((t.addrBytes lane.val r w).map .addr))
/-- FEAT (R166): the bytes of P4; at LN_RL_FEAT.ADDR they are the offsets that field 10 shows once the LUN is ready without
a failure (R159, R171). -/
def execElFeat (lane : Fin 128) (s : State) : Out :=
  s.element lane.val 6 (fun r _ t =>
    let p := r.stroke.params
    let t1 := t.drive lane.val ((leBytes 4 (pw p 4).toNat).map .dataIn)
    if fld (pw p 5) 7 0 = fld (t.regAt (lnA lane.val Reg.LN_RL_FEAT)) 7 0 then
      t1.modLun lane.val (pDie p) (fun u => { u with featNew := some (pw p 4) })
    else t1)
/-- A WAIT with REL of at least 50 ns (R175); the named times of every mode are no shorter (log entry 113). -/
def longRel (w : Word) : Bool := bit w 20 && decide (fld w 19 16 ≠ 0 ∨ 50 ≤ fld w 15 0)
/-- WAIT (R166): no bus activity; a REL wait of at least 50 ns releases the target's CE_N, so that strokes for other targets may
run, unless the stroke itself runs beside one that waits so (R175). -/
def execElWait (lane : Fin 128) (s : State) : Out :=
  s.element lane.val 7 (fun _ w t =>
    if longRel w ∧ (t.lane lane.val).waiting.isNone then
      t.modLane lane.val (fun l => { l with waiting := l.run, run := none, ceLow := none })
    else t)
/-- STAT (R166): one status byte as the stroke's result. -/
def execElStat (lane : Fin 128) (status : Byte) (s : State) : Out :=
  s.element lane.val 8 (fun _ _ t => (t.drive lane.val [.dataOut status]).modRun lane.val (fun r => { r with status := status }))
/-- CE (R166, R175): at most one CE_N of a lane is low. -/
def execElCe (lane : Fin 128) (s : State) : Out :=
  s.element lane.val 9 (fun r w t => t.modLane lane.val (fun l =>
    { l with ceLow := if bit w 0 then some (fld (pw r.stroke.params 0) 3 0) else none }))

/-! ### Data out and data in -/

/-- The slab of a command that frame k uses, two slabs a frame for RAW_READ (R249, R283). -/
def Cmd.slabFor (x : Cmd) (k : Nat) : Nat := x.slabs.getD (if x.pkt.opcode = 0x0C then 2 * k else k) 0
/-- The bytes of a RAW_READ frame fill their two slabs (R249). -/
def State.rawFrame (s : State) (c h k : Nat) (x : Cmd) (f : Frame) : State :=
  let a := x.slabs.getD (2 * k) 0
  let b := x.slabs.getD (2 * k + 1) 0
  let s1 := s.modSlab a (fun y => { y with payload := f.setWidth 32768, side := (f >>> 32768).setWidth 512 })
  let tail : BitVec 32768 := ((f >>> 33280).setWidth 4096).setWidth 32768
  let s2 := s1.modSlab b (fun y => { y with payload := ((y.payload >>> 4096) <<< 4096) ||| tail })
  (s2.modFrame c h k (fun z => { z with flow := .done })).framesEnded c h
/-- The data of a cancelled command's Gambit step arrives and is released: the step is over (R264). -/
def State.gambitGone (s : State) (g h : Nat) : State :=
  s.modLane g (fun l => { l with gambitRun := l.gambitRun.filter (fun r => decide (¬ (r.gone ∧ r.handle = h))) })
/-- Slot i of a lane's FIFO takes a frame, with its handle, its frame index and its place in the order of arrival (R236, R240). -/
def State.fillSlot (s : State) (g i h k : Nat) (f : Frame) : State :=
  let s1 := s.modLane g (fun l =>
    { l with slots := Tab.put l.slots i { frame := f, handle := h, index := k, seqNo := s.serial, arrived := s.time.toNat, loaded := false } })
  { s1 with serial := s1.serial + 1 }
/-- The general slot that a frame fills: the lowest free one (R236, R238). -/
def Lane.generalSlot (l : Lane) : Nat := ((List.range 14).find? (fun i => (Tab.find? l.slots i).isNone)).getD 13
/-- The charge of the sensing that brings a frame, where that is a repeated one (R239, R394). -/
def State.resensed (s : State) (g h k : Nat) : State :=
  if ((s.frame? (g / 8) h k).map (·.resensed)).getD false then s.chargeSense g h else s
/-- A frame of a READ, a COPY source or a sample fills its slot (R236). One that waits for its sensing takes with it whether that was made
at the command's offsets: whether field 10 equalled field 9 when its array read was committed (R256). -/
def State.frameArrives (s : State) (g h k : Nat) (p : List Word) (x : Cmd) (f : Frame) : State :=
  match x.specialSlot k with
  | some i => (s.fillSlot g i h k f).chargeSense g h
  | none => ((s.fillSlot g (s.lane g).generalSlot h k f).resensed g h k).modFrame (g / 8) h k (fun z =>
      { z with flow := .inSlot, sensed := decide (((s.lane g).lun (pDie p)).ofsCur = x.field9) })
/-- A frame that its command does not read enters the FIFO under its handle like any other (R179); its index is that in the page. -/
def State.foreignArrives (s : State) (g h k : Nat) (f : Frame) : State :=
  let i := (s.lane g).generalSlot
  (s.fillSlot g i h k f).modLane g (fun l =>
    { l with slots := l.slots.map (fun e => if e.1 = i then (e.1, { e.2 with foreign := true }) else e) })
/-- A frame of a RAW_READ fills a slot, and the RAW_READ path reads it out into the command's slabs (R236, R239, R249). -/
def State.rawArrives (s : State) (g h k : Nat) (x : Cmd) (f : Frame) (ecc : Ecc) (byte : Nat) : State :=
  let i := (s.lane g).generalSlot
  let rd := (((s.fillSlot g i h k f).resensed g h k).modFrame (g / 8) h k (fun z => { z with flow := .inSlot })).fifoRead g i ecc byte
  if rd.2 then rd.1.fifoUncorr g h k .clean else (rd.1.freeSlot g h k).rawFrame (g / 8) h k x f
/-- One frame arrives on a lane for a handle (R179, R236, R249, R279): it fills its slot, or its ones count is taken at once. A frame of
a command that has been cancelled or has ended is released on arrival (R250). -/
def State.takeFrame (s : State) (g h : Nat) (p : List Word) (n : Nat) (f : Frame) (ecc : Ecc) (byte : Nat) : State :=
  let c := g / 8
  match s.cmd? c h with
  | none => s.gambitGone g h
  | some x =>
    if x.stage = .ready ∨ x.discard then s.gambitGone g h
    else if x.pkt.opcode = 5 ∨ x.verifying then
      let q := s.geo g
      let plane := ((pw p 1).toNat >>> q.pb) % 2 ^ q.bb % q.planes
      s.modCmd c h (fun y => { y with counts := y.counts ++ [65536 * plane + ones f] })
    else match s.frameIndex g x p n with
      | none => s.foreignArrives g h (fld (pw p 3) 19 16 + n) f
      | some k =>
        if x.pkt.opcode = 0x0C then s.rawArrives g h k x f ecc byte
        else if x.pkt.opcode = 1 ∨ x.pkt.opcode = 4 ∨ x.pkt.opcode = 0x0D then s.frameArrives g h k p x f
        else s.foreignArrives g h (fld (pw p 3) 19 16 + n) f
/-- n bytes of a raw burst. -/
def rawBytes (n : Nat) (raw : List Byte) : List Byte := (raw ++ List.replicate n 0).take n
/-- Raw bytes reach the lane's raw buffer in its Quill's data area (R157), and the command that reads them out for its
completion or its slab (GET_FEATURE, IDENTIFY; log entry 25). -/
def State.takeRaw (s : State) (g h n : Nat) (raw : List Byte) : State :=
  let c := g / 8
  let bytes := rawBytes n raw
  let base := (0x2E000 + 1024 * (g % 8)) / 4
  let words := (List.range ((n + 3) / 4)).map (fun k => (k, leNat ((bytes.drop (4 * k)).take 4), min 4 (n - 4 * k)))
  let put (t : Tab Word) (e : Nat × Nat × Nat) : Tab Word :=
    let old := (Tab.getD (fun _ => (0 : Word)) t (base + e.1)).toNat
    Tab.setD (fun _ => 0) t (base + e.1) (BitVec.ofNat 32 (old - old % 2 ^ (8 * e.2.2) + e.2.1))
  let s1 := s.modCore c (fun q => { q with iram := words.foldl put q.iram })
  match s1.cmd? c h with
  | some x =>
    if x.pkt.opcode = 8 ∧ n = 4 then s1.modCmd c h (fun y => { y with data := BitVec.ofNat 32 (leNat bytes) })
    else if x.pkt.opcode = 0x0A ∧ ¬ x.slabs.isEmpty then
      let at_ := if n = 8 then 0 else 256
      let mask : BitVec 32768 := BitVec.ofNat 32768 ((2 ^ (8 * n) - 1) <<< (8 * at_))
      let new : BitVec 32768 := BitVec.ofNat 32768 (leNat bytes <<< (8 * at_))
      s1.modSlab (x.slabs.headD 0) (fun y => { y with payload := (y.payload &&& ~~~ mask) ||| new })
    else s1
  | none => s1
/-- Bytes of read data have passed on a lane: the step of its calibration run counts them (R144). -/
def State.calBytes (s : State) (g n : Nat) : State :=
  s.modLane g (fun l => { l with cal := l.cal.map (fun r => if r.began then { r with bytes := r.bytes + n } else r) })
/-- The first n frames of a burst. -/
def burst (n : Nat) (frames : List Frame) : List Frame := (frames ++ List.replicate n (0 : Frame)).take n
/-- The frame in the page behind the last one that a read command asks for (R116, R192). -/
def State.pageEnd (s : State) (x : Cmd) : Nat :=
  let q := s.geo x.lane
  if x.frames.isEmpty ∨ x.verifying then q.frames else firstFrame q.frames (mawFrame x.pkt.maw0) + x.frames.length / x.pkt.maws.length
/-- A burst that has moved n frames of a stroke has read the last frame that P6 or the command asks for (R179). -/
def State.lastAsked (s : State) (g : Nat) (p : List Word) (n : Nat) : Bool :=
  (decide (fld (pw p 6) 3 0 ≠ 0 ∧ fld (pw p 6) 3 0 ≤ n)) || (match s.cmd? (g / 8) (pHandle p) with
    | some x => decide (s.pageEnd x ≤ fld (pw p 3) 19 16 + n)
    | none => false)
/-- A DOUT of n frames of the running stroke: each arrives under the stroke's handle, and the last one asked for ends DATA_PENDING
(R166, R179). -/
def State.frameBurst (s : State) (g : Nat) (r : Running) (n : Nat) (frames : List Frame) (ecc : List Ecc) (byte : Nat) : State :=
  let p := r.stroke.params
  let fs := burst n frames
  let s1 := fs.zipIdx.foldl (fun (u : State) e => u.takeFrame g (pHandle p) p (r.moved + e.2) e.1 (ecc.getD e.2 .clean) byte) s
  let s2 := ((s1.drive g (fs.flatMap (fun f => (leBytes 4672 f.toNat).map .dataOut))).modRun g (fun r =>
    { r with moved := r.moved + n })).calBytes g (4672 * n)
  if r.cls = 3 ∧ s.lastAsked g p (r.moved + n) then s2.modLun g (pDie p) (fun u => { u with pendData := false }) else s2
/-- A DOUT of n raw bytes (R166). -/
def State.rawBurst (s : State) (g : Nat) (r : Running) (n : Nat) (raw : List Byte) : State :=
  ((s.takeRaw g (pHandle r.stroke.params) n raw).drive g ((rawBytes n raw).map .dataOut)).calBytes g n
/-- DOUT (R166): frames reach the read FIFO under the stroke's handle, or raw bytes the lane's raw buffer; ecc is what the RAW_READ path
finds in the slots that it reads, at the given byte of each. -/
def execElDout (lane : Fin 128) (frames : List Frame) (raw : List Byte) (s : State) (ecc : List Ecc := []) (byte : Fin 4672 := 0) : Out :=
  s.element lane.val 4 (fun r w t =>
    if bit w 4 then t.rawBurst lane.val r (fld w 15 5) raw
    else t.frameBurst lane.val r (elemFrames w r.stroke.params) frames ecc byte.val)

/-- The bytes that a program sends for frame k: its slab's ciphertext and side data, randomised and encoded (R233, R235);
what a poisoned slab's frame carries is open (R291). -/
def State.sentFrame (s : State) (g : Nat) (x : Cmd) (k : Nat) : Frame :=
  let per := x.frames.length / x.frMaws.length
  let m := x.frMaws.getD (k / per) 0
  let sl := s.slab (x.slabs.getD k 0)
  if sl.poison then Config.poisonFrame (s.freeCtr + k)
  else writeFrame sl.payload sl.side (mawDie m) (k % per) (mawPage m) ((s.geo g).dieBlock m)
/-- The tail bytes that follow the last frame, f, of a plane page, filled as the stroke's commit took it (R231). -/
def State.tailOf (s : State) (g : Nat) (m : BitVec 64) (cfg : Word) (f : Nat) : List Byte :=
  let n := fld (s.regAt (lnA g Reg.LN_FRAME_STAT)) 15 0
  if bit cfg 8 then
    leBytes n (randNat (frameSeed (mawDie m) f (mawPage m) ((s.geo g).dieBlock m)) (4160 + n) / 2 ^ (8 * 4160))
  else List.replicate n (byteAt cfg 0)
/-- The tail bytes that follow frame k of a command when it is the last of its plane page. -/
def State.tailBytes (s : State) (g : Nat) (x : Cmd) (cfg : Word) (k : Nat) : List Byte :=
  let per := x.frames.length / x.frMaws.length
  if k % per + 1 ≠ per then [] else s.tailOf g (x.frMaws.getD (k / per) 0) cfg (k % per)
/-- The frames of the seal copy that a lane writes, with the tail behind them (R231, R342). -/
def State.copyBytes (s : State) (g n : Nat) (cfg : Word) : List Byte :=
  match s.keys.job with
  | some j => (List.range n).flatMap (fun f => leBytes 4672 (s.copyFrame j f).toNat) ++ s.tailOf g (mkMaw (64 * g) 0 0 0 0) cfg (n - 1)
  | none => []
/-- The frames ks of a command are read from their slabs (R291) and sent. -/
def State.sendFrames (s : State) (g h : Nat) (x : Cmd) (fill : Word) (ks : List Nat) (ecc : List Ecc) : State :=
  let s1 := ks.zipIdx.foldl (fun (u : State) e => u.slabRead (x.slabs.getD e.1 0) 0 4160 (ecc.getD e.2 .clean)) s
  let s2 := s1.drive g (ks.flatMap (fun k => (leBytes 4672 (s1.sentFrame g x k).toNat ++ s1.tailBytes g x fill k).map .dataIn))
  { s2 with freeCtr := s2.freeCtr + 32 }.modCmd (g / 8) h (fun y =>
    { y with begun := true, sent := y.sent ++ (ks.map (· / (x.frames.length / x.frMaws.length))).dedup })
/-- DIN (R166): the command's next encoded frames as data-in, or those of the seal copy that the sequencer writes (R341); its data-in has begun (R273). ecc is what the engine finds in the slabs
that it reads (R291). -/
def execElDin (lane : Fin 128) (s : State) (ecc : List Ecc := []) : Out :=
  s.element lane.val 5 (fun r w t =>
    let g := lane.val
    let p := r.stroke.params
    let n := elemFrames w p
    if r.stroke.seq then (t.drive g ((t.copyBytes g n r.stroke.fill).map .dataIn)).modRun g (fun r => { r with moved := r.moved + n })
    else match t.cmd? (g / 8) (pHandle p) with
    | none => t
    | some x =>
      let ks := (List.range n).filterMap (fun i => t.frameIndex g { x with destPart := true } p (r.moved + i))
      (t.sendFrames g (pHandle p) x r.stroke.fill ks ecc).modRun g (fun r => { r with moved := r.moved + n }))

/-! ### END and the states of a LUN (R166, R172 to R174, R179, R180) -/

/-- A LUN goes busy by a stroke's END: its state, its class, the time, and the command whose operation it is. A further CONT PROGRAM of
a cached sequence leaves the running program's part as it is (R174); the time of a suspension made for a retrain counts towards no
limit (R182). The parameter pages that PARAM_ISSUE fetches are sensed data of an IDENTIFY until PARAM_OUT has read them (R437). -/
def Lun.toBusy (u : Lun) (r : Running) (cls now : Nat) : Lun :=
  let h := pHandle r.stroke.params
  let erasing := decide (r.cls = 6 ∨ r.cls = 7)
  let array := decide (r.cls = 2 ∨ r.cls = 4 ∨ r.cls = 5 ∨ r.cls = 9 ∨ r.cls = 10)
  let b := { u with busy := true, busyClass := cls, busyAt := now, from_ := u.state,
                    handle := if r.stroke.byBlock then (if erasing then u.erase else none) else some h,
                    arrayBy := if array ∧ ¬ r.stroke.byBlock then some h else u.arrayBy }
  let fresh := { b with cacheEnd := false }
  if r.cls = 8 then { fresh with state := .resetting, sensed := [] }
  else if r.cont ∨ r.cls = 0 ∨ r.cls = 1 ∨ r.cls = 3 then
    { b with state := .generalBusy, sensed := if r.stroke.id = 0x003 ∧ r.cls = 0 then [h] else u.sensed }
  else if r.cls = 2 then
    { fresh with state := if u.state = .suspended then .readInSusp else .readBusy, sensed := [h], ofsCur := r.stroke.ofs, ofsNext := r.stroke.ofs }
  else if r.cls = 4 then
    { fresh with state := if u.state = .suspended then .progInSusp else .progBusy, progs := if r.stroke.byBlock then u.progs else u.progs ++ [h],
                 cachedRow := if r.cache then 1 else 0, sensed := [] }
  else if r.cls = 5 then
    { fresh with state := .eraseBusy, erase := if r.stroke.byBlock then none else some h, eraseRun := now, suspTotal := 0, suspWaived := 0, suspReqs := 0, suspCount := 0, suspAsked := false,
                 suspFree := false, sensed := [] }
  else if r.cls = 6 then
    { b with state := .suspending, suspAt := now, suspFree := r.stroke.byBlock || r.stroke.waived, overrun := false,
             suspOpc := pw r.stroke.params 7 }
  else if r.cls = 7 then
    { b with state := .eraseBusy, eraseRun := now, suspTotal := u.suspTotal + (now - u.suspAt),
             suspWaived := if u.suspFree then u.suspWaived + (now - u.suspAt) else u.suspWaived, suspFree := false }
  else { fresh with state := .cacheRead, cacheEnd := decide (r.cls = 10), sensed := (h :: u.sensed).dedup.take 2,
                    ofsCur := u.ofsNext, ofsNext := r.stroke.ofs }
/-- In ENDGAME a LUN whose erase runs, or waits in suspension with no program left to run in it, is to be reset: the
sequencer's stroke goes ahead of the lane's others, but for a multi-plane sequence that is open (R412, R172). -/
def State.egAct (s : State) (g ld : Nat) : State :=
  let l := s.lane g
  let u := l.lun ld
  let due := l.committed.any (fun k => decide (pDie k.params = ld))
  if ((u.state = .eraseBusy ∧ u.busy) ∨ (u.state = .suspended ∧ ¬ u.busy)) ∧ ¬ due then
    let st := s.resetStroke g ld
    s.modLane g (fun l => { l with strokes := if l.mpOpen.isSome then l.strokes ++ [st] else st :: l.strokes })
  else s
/-- END (R166): CE_N goes up and the stroke ends; a busy END starts the LUN's busy time, and a final stroke closes its multi-plane
sequence (R172). -/
def execElEnd (lane : Fin 128) (s : State) : Out :=
  let g := lane.val
  s.element g 0 (fun r w t =>
    let ld := pDie r.stroke.params
    let t1 := t.modLane g (fun l =>
      let m := if ¬ r.cont ∧ l.mpOpen = some (ld, r.cls) then none else l.mpOpen
      let l1 := if r.stroke.id = 0x004 then l.modLun ld (fun u => { u with sensed := u.sensed.filter (· ≠ pHandle r.stroke.params) }) else l
      { l1 with run := none, ceLow := none, mpOpen := m })
    let t2 := (t1.idleSync g).modLun g ld (fun u => if bit w 0 then u.toBusy r (fld w 2 1) t.time.toNat else u)
    if s.glb.mode = .endgame then t2.egAct g ld
    else ((if r.stroke.byBlock then t2 else t2.strokeEnd g (pHandle r.stroke.params) r.status.toNat 0).calInsert g).sealNext g)

/-! ### Ready LUNs (R173, R174, R176, R179 to R182) -/

/-- The results that a status byte gives the programs of a LUN: with two under way, the first by FAILC as soon as the
second has begun; the last by FAIL when the LUN is ready (R174). -/
def State.progResults (s : State) (g ld : Nat) (status : Byte) (ready : Bool) (cc : CcFault) : State :=
  let u := (s.lane g).lun ld
  let c := g / 8
  let res (b : Bool) : Nat := if b then stProgFail else stOk
  let s1 := match u.progs with
    | h :: _ :: _ =>
      (s.mediaResult c h (res (bit status 1)) cc).modLun g ld (fun v => { v with progs := v.progs.drop 1 })
    | _ => s
  if ready then
    (((s1.lane g).lun ld).progs.foldl (fun t h => t.mediaResult c h (res (bit status 0)) cc) s1).modLun g ld (fun v =>
      { v with progs := [], cachedRow := 0, cacheEnd := false })
  else s1
/-- The erase of a LUN has finished with a status. -/
def State.eraseResult (s : State) (g ld : Nat) (status : Byte) (cc : CcFault) : State :=
  match ((s.lane g).lun ld).erase with
  | some h =>
    (s.mediaResult (g / 8) h (if bit status 0 then stEraseFail else stOk) cc).modLun g ld (fun u =>
      { u with erase := none, suspAsked := false })
  | none => s
/-- A read's wait behind a program ends at the program's ready (R178). -/
def State.endStall (s : State) (c h : Nat) : State :=
  match s.cmd? c h with
  | some x =>
    match x.firstSince with
    | some t =>
      let w := s.since t / 100
      let a (o : Nat) : Nat := lnA x.lane o
      let s1 := (s.count (a Reg.LN_PROG_STALL_CNT)).modReg (a Reg.LN_PROG_STALL_US) (fun v => satWord (v.toNat + w))
      (s1.modReg (a Reg.LN_PROG_STALL_MAX) (fun v => BitVec.ofNat 32 (max v.toNat (satField 24 w)))).modCmd c h (fun y =>
        { y with firstSince := none, stall := y.stall + w })
    | none => s
  | none => s
/-- The reads that waited for the programs of a LUN (R178). -/
def State.endStalls (s : State) (g ld : Nat) : State :=
  (s.cmdsOn g).foldl (fun t e => if mawLd e.2.2.pkt.maw0 = ld then t.endStall e.1 e.2.1 else t) s
/-- The LUN's new state once it is ready (R179, R180), beside the results that its ready applies. A LUN whose cached program still runs
after a CONT stroke goes on being polled for it (R174); a suspension for a retrain counts neither for the scheduler nor in
LN_SUSP_ISSUED (R182, R221). -/
def State.becomeReady (s : State) (g ld : Nat) (status : Byte) (cc : CcFault) : State :=
  let u := (s.lane g).lun ld
  let set (t : State) (f : Lun → Lun) : State := t.modLun g ld (fun v => f { v with busy := false })
  match u.state with
  | .readBusy => set s (fun v => { v with state := .idle, pendData := true })
  | .readInSusp => set s (fun v => { v with state := .suspended, pendData := true })
  | .cacheRead => set s (fun v => if v.cacheEnd then { v with state := .idle, pendData := true, cacheEnd := false } else v)
  | .progBusy => set ((s.progResults g ld status true cc).endStalls g ld) (fun v => { v with state := .idle })
  | .progInSusp => set ((s.progResults g ld status true cc).endStalls g ld) (fun v => { v with state := .suspended })
  | .eraseBusy => set (s.eraseResult g ld status cc) (fun v => { v with state := .idle })
  | .suspending =>
    let o := u.suspOpc
    if status.toNat &&& fld o 23 16 = fld o 31 24 then
      let asked := u.suspAsked && !u.suspFree
      let s1 := set s (fun v => { v with state := .suspended, suspCount := min 255 (v.suspCount + 1),
                                         suspReqs := if asked then v.suspReqs + 1 else v.suspReqs, suspAsked := false })
      if asked then s1.count (lnA g Reg.LN_SUSP_ISSUED) else s1
    else set (s.eraseResult g ld status cc) (fun v => { v with state := .idle })
  | .generalBusy => set s (fun v =>
      let running := decide (v.from_ = .progBusy)
      { v with state := v.from_, busy := running, busyClass := if running then 1 else v.busyClass, featNew := none,
               feat := match v.featNew with | some w => if bit status 0 then 0xFFFFFFFF#32 else w | none => v.feat })
  | .resetting => set s (fun v => { v with state := .idle })
  | _ => set s id
/-- The read that waits for a LUN whose suspend has overrun: the pending READ, RAW_READ or PATROL_SAMPLE with the
smallest V (R181). -/
def State.waitingRead (s : State) (g ld : Nat) : Option (Nat × Nat × Cmd) :=
  ((s.cmdsOn g).filter (fun e => decide (e.2.2.stage = .pending ∧ mawLd e.2.2.pkt.maw0 = ld ∧
    (e.2.2.pkt.opcode = 1 ∨ e.2.2.pkt.opcode = 0x0C ∨ e.2.2.pkt.opcode = 0x0D)))).foldl (fun a e =>
      match a with
      | none => some e
      | some b => if usDiff e.2.2.v b.2.2.v < 0 then some e else a) none
/-- The read that waits for an overrun suspend ends DEFERRED (R430). -/
def State.overrunLost (s : State) (g ld : Nat) : State :=
  let s1 := s.modLun g ld (fun u => { u with overrun := false })
  match s1.waitingRead g ld with
  | some e => s1.finish e.1 e.2.1 stDeferred 0
  | none => s1
/-- A LUN is ready with a status byte: its results, its new state and LUN_READY (R176). One whose suspend overran is reported to the
Scribe, which completes the waiting read (R181); while the Scribe is lost that read ends DEFERRED (R430). -/
def State.lunReady (s : State) (g ld : Nat) (status : Byte) (cc : CcFault) : State :=
  let s1 := s.becomeReady g ld status cc
  let s2 := if s.seqOwns g ld then s1.seqLun g ld ((s.lane g).lun ld) (bit status 0) cc else (s1.lunReadyEvent g ld status.toNat).sealNext g
  if ¬ ((s.lane g).lun ld).overrun then s2
  else if s.scribeUp then s2.toScribe g 3 (lunBits ld + status.toNat * 2 ^ 6 + 2 ^ 14 * (((s2.lane g).lun ld).state.code))
  else s2.overrunLost g ld

/-! ### Polls and time-outs (R155, R176, R177) -/

/-- RB_N is in use on a lane (R155), also in an ENDGAME that SERVICE or THRIFT led to (R412). -/
def State.rbInUse (s : State) (g : Nat) : Bool :=
  (s.serving || (decide (s.glb.mode = .endgame) && decide (s.glb.prevMode = .service ∨ s.glb.prevMode = .thrift))) && bit (s.regAt (lnA g Reg.LN_SIG_STAT)) 16
/-- The busy limit of a class in CLK_AON cycles. -/
def State.busyLimit (s : State) (g cls : Nat) : Nat :=
  let w := s.regAt (lnA g Reg.LN_BUSY_TMO)
  let ms := match cls with | 0 => fld w 15 8 | 1 => fld w 23 16 | 2 => fld w 31 24 | _ => fld w 7 0
  100000 * (atLeast1 ms)
/-- A status byte shows the LUN ready for its busy class (R176). -/
def readyStatus (cls : Nat) (status : Byte) : Bool := bit status 6 && (bit status 5 || decide (cls = 0 ∨ cls = 3))
/-- What the command or the sequence of a LUN whose busy time ran out gets (R176, R177, R272). -/
def State.timedOut (s : State) (g ld : Nat) (h : Option Nat) (cc : CcFault) : State :=
  match h with
  | some k =>
    let t : State := s.strokeEnd g k 0 2
    let t1 := match t.cmd? (g / 8) k with
      | some x => if x.claimed ∧ ¬ x.verifying then t.mediaResult (g / 8) k stTimeout cc else t
      | none => t
    t1.abort (g / 8) k stTimeout 1
  | none => s.seqReady g ld 4 true cc
/-- The reset of a LUN whose busy time ran out: the block's own in FALLBACK, which a forced idle point holds back (R151), else the
Scribe is told (R176, R177). -/
def State.timedOutReset (s : State) (g ld : Nat) : State :=
  if s.glb.mode = .fallback then s.fallbackResets g
  else if s.scribeUp then s.toScribe g 3 (lunBits ld)
  else s
/-- A busy time-out is declared on a LUN (R177, R430): the interrupt, the record, STROKE_END, the reset passed to the
Scribe or committed by the engine in FALLBACK, and the command of the stroke ended with TIMEOUT. -/
def State.busyTimeout (s : State) (g ld : Nat) (cc : CcFault) : State :=
  let u := (s.lane g).lun ld
  let c := g / 8
  let h := u.handle
  let owner := (h.bind (s.cmd? c)).map (·.owner)
  let s1 := (s.raise (lnA g 0) 4).blot (lnA g 0) 0x19 owner [BitVec.ofNat 32 g, BitVec.ofNat 32 ld, BitVec.ofNat 32 u.busyClass]
  let s2 := s1.modLun g ld (fun v => { v with busy := false, awaitReset := true, progs := v.progs.filter (fun k => some k ≠ h),
                                              erase := v.erase.filter (fun k => some k ≠ h), sensed := v.sensed.filter (fun k => some k ≠ h),
                                              handle := none })
  (s2.timedOut g ld h cc).timedOutReset g ld
/-- A LUN is ready in ENDGAME (R412): its results are applied and entered in the summary, and a suspended erase is reset. -/
def State.egReady (s : State) (g ld : Nat) (status : Byte) (cc : CcFault) : State :=
  let u := (s.lane g).lun ld
  let c := g / 8
  let s1 := (s.becomeReady g ld status cc).egResults s c (u.progs ++ u.erase.toList).dedup
  let s2 := match u.state with
    | .resetting =>
      (match u.erase.bind (s1.cmd? c) with | some x => s1.egCmd x 7 | none => s1.egOwnEnd g ld 7).modLun g ld (fun v =>
        { v with erase := none })
    | .progBusy => s1.egOwnEnd g ld (if bit status 0 then 2 else 1)
    | _ => s1
  s2.egAct g ld
/-- A status byte read of a LUN in ENDGAME (R412); one whose erase awaits its reset is not polled, and no time-out applies
(log entry 35). -/
def State.egStatus (s : State) (g ld : Nat) (status : Byte) (cc : CcFault) : State :=
  let u := (s.lane g).lun ld
  if u.state = .eraseBusy then s
  else if readyStatus u.busyClass status then s.egReady g ld status cc
  else
    let s1 := (s.progResults g ld status false cc).egResults s (g / 8) u.progs.dedup
    if u.state = .progBusy ∧ u.cachedRow = 1 ∧ bit status 6 then s1.modLun g ld (fun v => { v with cacheEnd := true }) else s1
/-- A status byte read of a busy LUN (R174, R176, R412). -/
def State.lunStatus (s : State) (g ld : Nat) (status : Byte) (cc : CcFault) (timed : Bool) : State :=
  let u := (s.lane g).lun ld
  if s.glb.mode = .endgame then s.egStatus g ld status cc
  else if readyStatus u.busyClass status then s.lunReady g ld status cc
  else
    let s1 := s.progResults g ld status false cc
    let s2 := if u.state = .progBusy ∧ u.cachedRow = 1 ∧ bit status 6 then s1.modLun g ld (fun v => { v with cacheEnd := true }) else s1
    if timed ∧ s.busyLimit g u.busyClass ≤ s.since u.busyAt then s2.busyTimeout g ld cc else s2
/-- The status byte of a ready poll, as the perturbation point of R435 leaves it. -/
def State.pollByte (s : State) (g : Nat) (status : Byte) : State × Byte :=
  let o := s.opportunity (lnA g 0) 1
  (o.1, (firedAll o.2 12).foldl (fun w a => w ||| a.setWidth 8) status)
/-- The bus cycles of a status read (R169, R175, R176): STATUS_ENH with the LUN's row on a target with more than one LUN, else STATUS. -/
def State.pollCycles (s : State) (g ld : Nat) (status : Byte) : List BusCycle :=
  let q := s.geo g
  (if q.luns = 1 then [.cmd 0x70] else .cmd 0x78 :: (leBytes q.rowC ((ld % 4) <<< (q.pb + q.bb))).map .addr) ++ [.dataOut status]
/-- A LUN's status is read at a stroke boundary: the bus cycles, and what its byte shows. -/
def State.readStatusOf (s : State) (g ld : Nat) (status : Byte) (cc : CcFault) (timed : Bool) : State :=
  let b := s.pollByte g status
  (b.1.modLane g (fun l => { l with bus := s.pollCycles g ld b.2 })).lunStatus g ld b.2 cc timed
/-- A status read may run on a lane for a LUN: it is busy, and no stroke runs or waits in its course (R176). -/
def State.mayPoll (s : State) (g ld : Nat) : Bool :=
  s.laneWork && s.laneUp g && (s.lane g).noRun && ((s.lane g).lun ld).busy
/-- BUSY_POLL (R176, R177): a poll of a busy LUN at a stroke boundary, which leaves the lane at an idle point where nothing is committed
(R146). -/
def execBusyPoll (lane : Fin 128) (die : Fin 64) (status : Byte) (cc : CcFault) (s : State) : Out :=
  if s.mayPoll lane.val die.val ∧ ¬ s.rbInUse lane.val then
    looked s ((s.readStatusOf lane.val die.val status cc true).calInsert lane.val)
  else idle s
/-- RB_READY (R155): RB_N shows a target ready, and its status is read once. -/
def execRbReady (lane : Fin 128) (die : Fin 64) (status : Byte) (cc : CcFault) (s : State) : Out :=
  if s.mayPoll lane.val die.val ∧ s.rbInUse lane.val then
    looked s ((s.readStatusOf lane.val die.val status cc false).calInsert lane.val)
  else idle s
/-- RB_BUSY_TIMEOUT (R177): RB_N still shows busy when the limit passes. -/
def execRbBusyTimeout (lane : Fin 128) (die : Fin 64) (cc : CcFault) (s : State) : Out :=
  let g := lane.val
  let u := (s.lane g).lun die.val
  if s.working ∧ s.laneUp g ∧ u.busy ∧ s.rbInUse g ∧ s.busyLimit g u.busyClass ≤ s.since u.busyAt then
    looked s (s.busyTimeout g die.val cc)
  else idle s
/-- SUSP_OVERRUN (R181): a LUN has stayed in SUSPENDING for longer than its limit; it is passed to the Scribe, and polling goes on. -/
def execSuspOverrun (lane : Fin 128) (die : Fin 64) (s : State) : Out :=
  let g := lane.val
  let u := (s.lane g).lun die.val
  if s.working ∧ s.laneUp g ∧ u.state = .suspending ∧ ¬ u.overrun ∧ 1000 * (atLeast1 (fld (s.suspCtl g) 15 8)) < s.since u.suspAt then
    let s1 := ((s.raise (lnA g 0) 5).blot (lnA g 0) 0x1A none [BitVec.ofNat 32 g, BitVec.ofNat 32 die.val]).modLun g die.val (fun v =>
      { v with overrun := true })
    done s (if s1.scribeUp then s1.toScribe g 7 (lunBits die.val) else s1)
  else idle s

end Sys2Proof.Machine
end

