-- ==== Sys2Proof/Machine/Quill.lean ====
section
/-! DEFINITION. The Quills and the Scribe (R157 to R162, R428 to R430): their instructions, their faults, and the loss of the
Scribe. Core 16 is the Scribe; the others are the Quills of the clusters. -/
namespace Sys2Proof.Machine
open Sys2Proof

/-! ### Packets that end without a handle -/

/-- A packet that leaves an intake without a handle completes with a status; an instance under reset has its completion
discarded (R161, R200, R201, R390). -/
def State.endPacket (s : State) (c : Nat) (w : IntakeWord) (visible : Bool) (st det : Nat) : State :=
  let cpl := fld (s.note w.ring) 14 0
  if s.tnState w.owner = .resetting then s.releaseOut w.ring cpl
  else
    s.pushReady { cplRing := cpl, subRing := some w.ring, handle := none, port := s.portOf c,
                  words := plainWords (fld w.bits 31 16) st det (fld w.bits 15 8) w.ring w.sqHead, reserved := true,
                  seen := if visible then some w.seen else none }
/-- The packet that a first word opens has its LAST word in the intake. -/
def Intake.complete (k : Intake) (w : IntakeWord) : Bool := k.words.any (fun x => x.last && x.packet = w.packet)
/-- The first words of an intake's packets, in order. -/
def Intake.heads (k : Intake) : List IntakeWord := k.words.filter (·.first)

/-! ### A core's registers and words (R157) -/

/-- Register Qn; Q0 reads zero. -/
def Core.q (k : Core) (n : Nat) : Word := if n = 0 then 0 else Tab.getD (fun _ => 0) k.regs n
/-- Register Qn written; Q0 ignores writes. -/
def Core.setQ (k : Core) (n : Nat) (v : Word) : Core := if n = 0 then k else { k with regs := Tab.setD (fun _ => 0) k.regs n v }
/-- The core executes instructions: starting, running its image, or running the ROM program. -/
def Core.executes (k : Core) : Bool := k.state = .running ∨ k.state = .starting ∨ k.state = .rom
/-- The core is present and powered. -/
def State.coreUp (s : State) (c : Nat) : Bool := if c = 16 then s.awake else s.awake && s.clusterUp c
/-- The word that a core executes next: of the ROM program in FALLBACK, else of its IRAM (R158, R163). The spec does not say what a
program counter outside the code does: the model goes on with the word of the IRAM there, a zero word (an ADD) past the end, and
takes the counter modulo 65,536 (log entry 107). -/
def Core.word (k : Core) : Word := if k.state = .rom then Config.quillRom k.pc else Tab.getD (fun _ => 0) k.iram k.pc
/-- The first word index of a core's 64 KiB data area: behind the 128 KiB of code of a Quill and the 256 KiB of the Scribe
(R157; log entry 27). -/
def dataBase (c : Nat) : Nat := if c = 16 then 0x10000 else 0x8000
/-- The IRAM word of a data access, or none outside the data area (R161). -/
def dataWord (c : Nat) (a : Word) : Option Nat :=
  let i := a.toNat / 4
  if dataBase c ≤ i ∧ i < 0x4000 + dataBase c then some i else none

/-! ### Faults (R161) and the loss of the Scribe (R429, R430) -/

/-- A program or an erase of the command runs on a die, or its data-in has begun: it ends with its result. -/
def Cmd.onDie (x : Cmd) : Bool := x.claimed && !x.verifying && x.result.isNone && (x.begun || x.pkt.opcode = 3)
/-- A command's Quill part ends with a status that is not its own: with the result of what runs on a die, else at once. -/
def State.endOrHold (s : State) (c h st det : Nat) : State :=
  match s.cmd? c h with
  | some x =>
    if x.stage = .ready then s
    else if x.onDie then s.modCmd c h (fun y => { y with quill := some st, detail := BitVec.ofNat 8 det, deferred := false })
    else s.abort c h st det
  | none => s
/-- The commands that a faulted Quill leaves (R161): one whose program or erase runs on a die ends with its result, one
with an unbegun claim gives it up, and any other ends at once. -/
def State.faultCmd (s : State) (c h : Nat) : State :=
  match s.cmd? c h with
  | none => s
  | some x =>
    if x.claimed ∧ ¬ x.verifying ∧ x.result.isNone ∧ ¬ x.onDie ∧ x.stage ≠ .ready then
      let r := s.cancelClaims c h .clean
      r.2.foldl (fun t e => t.finish e.1 e.2 stAborted 0x14) (r.1.finish c h stAborted 0x14)
    else s.endOrHold c h stAborted 0x14
/-- Every packet of a cluster's intakes ends with ABORTED (R161). -/
def State.faultIntakes (s : State) (c : Nat) : State :=
  let k := s.cluster c
  let ends (t : State) (i : Intake) : State := i.heads.foldl (fun u w => u.endPacket c w (i.complete w) stAborted 0x14) t
  (ends (ends s k.bulk) k.urgent).modCluster c (fun x =>
    { x with bulk := { words := [], skip := false }, urgent := { words := [], skip := false } })
/-- A Quill faults (R161): 1 illegal instruction, 2 IRAM, 3 register parity, 4 data address. -/
def State.quillFault (s : State) (c code : Nat) : State :=
  let pc := (s.cluster c).quill.pc
  let s1 := (s.modCore c (fun q => { q with state := .fault, faultCode := code })).modCluster c (fun k => { k with quillDead := true })
  let s2 := (s1.blot (clA c 0) 0x02 none [BitVec.ofNat 32 c, BitVec.ofNat 32 code, BitVec.ofNat 32 pc]).raise (clA c 0) 1
  ((s2.cmdsOf c).foldl (fun t e => t.faultCmd c e.1) s2).faultIntakes c
/-- The frames of one command that wait for the Scribe fail, and it ends DEFERRED (R250, R430). -/
def State.lostFramesOf (s : State) (c h : Nat) (x : Cmd) : State :=
  if x.stage = .ready then s
  else x.frames.zipIdx.foldl (fun t e => if e.1.flow = .scribe then t.frameLost c x.lane h e.2 .clean else t) s
/-- Every frame that waits for the Scribe fails, in order of lane, handle and frame (R250, R258, R430). -/
def State.lostFrames (s : State) : State :=
  s.laneList.foldl (fun t g => (s.cmdsOn g).foldl (fun t e => t.lostFramesOf e.1 e.2.1 e.2.2) t) s
/-- The erases that were suspended for a retrain are resumed (R182); one that the scheduler has suspended stays so. -/
def State.retrainResume (s : State) (g : Nat) : State :=
  ((s.laneDies g).filter (fun d => decide (((s.lane g).lun d).state = .suspended) && ((s.lane g).lun d).suspFree)).foldl (fun t d =>
    (t.commit g 0x015 [BitVec.ofNat 32 (lunBits d), 0, 0, 0, 0, 0, 0, 0] true true).1) s
/-- A retrain that waits for its targets is left: its request goes on waiting, and the lane runs on its current values (R148, R430). -/
def State.leaveRetrain (s : State) (g : Nat) : State :=
  if (s.lane g).retrainWait then (s.modLane g (fun l => { l with retrainWait := false })).retrainResume g else s
/-- The reads that wait for an overrun suspend whose LUN has become ready, and that the Scribe was to complete, end DEFERRED (R430). -/
def State.lostOverruns (s : State) (g : Nat) : State :=
  ((s.lane g).luns.map Prod.fst).foldl (fun t ld =>
    if ((t.lane g).lun ld).overrun ∧ ((t.lane g).lun ld).state ≠ .suspending then t.overrunLost g ld else t) s
/-- The work of a lost Scribe (R430): deferred commands, frames passed to it and reads that it was to complete end DEFERRED, and
retrains wait. -/
def State.lostWork (s : State) : State :=
  let s1 := (s.cmdList.foldl (fun t e => if e.2.2.deferred then t.endOrHold e.1 e.2.1 stDeferred 0 else t) s).lostFrames
  let s2 := s1.laneList.foldl State.lostOverruns s1
  s2.laneList.foldl State.leaveRetrain s2
/-- The Scribe is lost (R429): halted, with the cause and its program counter, source 53, the record, and its work ended. -/
def State.loseScribe (s : State) (cause : Nat) : State :=
  let pc := s.scribe.pc
  let s1 := s.modCore 16 (fun q => { q with state := .lost, events := [], timers := [] })
  let s2 := s1.modReg Reg.GLB_SCR_STAT (fun w => putFld (putFld w 31 16 (pc % 65536)) 3 1 cause)
  ((s2.pulse 53).blot 0 0x01 none [BitVec.ofNat 32 cause, BitVec.ofNat 32 pc]).lostWork
/-- A Scribe reload ends: its RESULT and its record (R432). -/
def State.reloadEnd (s : State) (r : Nat) : State :=
  (s.modReg Reg.GLB_SCR_STAT (fun w => putFld w 10 8 r)).blot 0 0x2A none [s.regAt Reg.MS_LOAD_COUNT, BitVec.ofNat 32 r]
/-- The Scribe's watchdog has reached its limit without a KICK (R428). -/
def State.watchdogDue (s : State) : Bool :=
  let us := fld (s.regAt Reg.GLB_SCR_WDOG) 15 0
  s.awake && decide (s.glb.mode ≠ .fallback ∧ s.glb.mode ≠ .endgame ∧ s.scribe.state = .running ∧ us ≠ 0 ∧ us * 100 ≤ s.since s.scribe.kick)
/-- The reloaded Scribe has executed READY within 10 ms of GO (R432). -/
def State.readyInTime (s : State) : Bool := s.scribe.ready && decide (s.scribe.kick ≤ s.scribe.goAt + 1000000)
/-- A core meets a cause of R161 or R429, of which the lowest code of the cycle is recorded; a Scribe lost in OPENING after READY fails
OPENING (R430), and one lost while it starts after a reload ends the reload without READY (R432). -/
def State.coreFault (s : State) (c : Nat) (why : CoreFault) : State :=
  if c = 16 then
    let s0 := if s.glb.mode ≠ .opening ∧ s.scribe.state = .starting then s.reloadEnd (if s.readyInTime then 1 else 4) else s
    let t := s0.loseScribe (if s.watchdogDue then 1 else match why with | .residue => 2 | .iram => 3 | .regParity => 4 | _ => 5)
    if s.glb.mode = .opening ∧ s.scribe.ready then t.openFail .scribeStart else t
  else s.quillFault c (match why with | .iram => 2 | .regParity => 3 | .dataAddress => 4 | _ => 1)

/-- The macro group of a core's IRAM (R355). -/
def coreGroup (c : Nat) : Nat := if c = 16 then 0x1A0 else 0x180 + 2 * c

/-! ### Instructions (R158) -/

/-- The fields of an instruction word with the values of its registers. -/
structure Ins where
  w   : Word
  d   : Nat
  a   : Word
  b   : Word
  imm : Nat
  pc  : Nat
  deriving DecidableEq, Repr

/-- IMM sign-extended. -/
def Ins.simm (i : Ins) : Word := BitVec.ofInt 32 (signed 14 i.imm)
/-- The instruction that a core executes next. -/
def Core.ins (k : Core) : Ins :=
  let w := k.word
  { w := w, d := fld w 25 22, a := k.q (fld w 21 18), b := k.q (fld w 17 14), imm := fld w 13 0, pc := k.pc }
/-- The core goes on at a program counter. -/
def State.jump (s : State) (c pc : Nat) : State := s.modCore c (fun k => { k with pc := pc % 65536 })
/-- The core goes on with the next word. -/
def State.nextPc (s : State) (c : Nat) (i : Ins) : State := s.jump c (i.pc + 1)
/-- A result in register D. -/
def State.result (s : State) (c : Nat) (i : Ins) (v : Word) : State := s.modCore c (fun k => k.setQ i.d v)
/-- What a core meets, with the row of the word: a corrected one counts there, and an uncorrectable one qualifies it (R348, R354, R356). -/
def State.coreMeets (s : State) (c : Nat) (why : CoreFault) : State :=
  let k := s.core c
  match why with
  | .corrected data =>
    s.corrected (coreGroup c) ((if data then (dataWord c (k.ins.a + k.ins.simm)).getD k.pc else k.pc) / 32)
  | .iram => (s.coreFault c .iram).uncorrRow (coreGroup c) (k.pc / 32)
  | _ => s.coreFault c why
/-- The Scribe's instruction point (R435): kinds 9 and 11 of PB point 9 lose it, by the lower code where both fire (R429). -/
def State.scribePoint (s : State) (c : Nat) : State × Option CoreFault :=
  if c = 16 then
    let o := s.opportunity 0xF000 9
    (o.1, if (fired o.2 11).isSome then some .residue else if (fired o.2 9).isSome then some .iram else none)
  else (s, none)
/-- A core executes an instruction of an opcode: the word at its program counter must hold it. -/
def State.instr (s : State) (core : Fin 17) (op : Nat) (f : State → Ins → State) : Out :=
  let c := core.val
  let k := s.core c
  if s.coreUp c ∧ k.executes ∧ fld k.word 31 26 = op then
    let p := s.scribePoint c
    match p.2 with
    | some why => looked s (p.1.coreMeets c why)
    | none => looked s (f p.1 k.ins)
  else idle s
/-- An instruction that writes D from its operands. -/
def State.alu (s : State) (core : Fin 17) (op : Nat) (g : Ins → Word) : Out :=
  s.instr core op (fun t i => (t.result core.val i (g i)).nextPc core.val i)
/-- A branch. -/
def State.branch (s : State) (core : Fin 17) (op : Nat) (g : Ins → Bool) : Out :=
  s.instr core op (fun t i => if g i then t.jump core.val (BitVec.ofNat 32 i.pc + i.simm).toNat else t.nextPc core.val i)

/-- ADD (R158). -/
def execQAdd (core : Fin 17) (s : State) : Out := s.alu core 0x00 (fun i => i.a + i.b)
/-- ADDI (R158). -/
def execQAddi (core : Fin 17) (s : State) : Out := s.alu core 0x01 (fun i => i.a + i.simm)
/-- SUB (R158). -/
def execQSub (core : Fin 17) (s : State) : Out := s.alu core 0x02 (fun i => i.a - i.b)
/-- AND (R158). -/
def execQAnd (core : Fin 17) (s : State) : Out := s.alu core 0x03 (fun i => i.a &&& i.b)
/-- OR (R158). -/
def execQOr (core : Fin 17) (s : State) : Out := s.alu core 0x04 (fun i => i.a ||| i.b)
/-- XOR (R158). -/
def execQXor (core : Fin 17) (s : State) : Out := s.alu core 0x05 (fun i => i.a ^^^ i.b)
/-- SHLI (R158). -/
def execQShli (core : Fin 17) (s : State) : Out := s.alu core 0x06 (fun i => i.a <<< (i.imm % 32))
/-- SHRI (R158). -/
def execQShri (core : Fin 17) (s : State) : Out := s.alu core 0x07 (fun i => i.a >>> (i.imm % 32))
/-- LUI (R158). -/
def execQLui (core : Fin 17) (s : State) : Out := s.alu core 0x08 (fun i => BitVec.ofNat 32 i.imm <<< 18)
/-- LD (R158): a data word; outside the data area the core faults (R161). -/
def execQLd (core : Fin 17) (s : State) : Out :=
  s.instr core 0x09 (fun t i =>
    match dataWord core.val (i.a + i.simm) with
    | some k => (t.result core.val i (Tab.getD (fun _ => 0) (t.core core.val).iram k)).nextPc core.val i
    | none => t.coreFault core.val .dataAddress)
/-- ST (R158). -/
def execQSt (core : Fin 17) (s : State) : Out :=
  s.instr core 0x0A (fun t i =>
    match dataWord core.val (i.a + i.simm) with
    | some k => (t.modCore core.val (fun x => { x with iram := Tab.setD (fun _ => 0) x.iram k i.b })).nextPc core.val i
    | none => t.coreFault core.val .dataAddress)
/-- BEQ (R158). -/
def execQBeq (core : Fin 17) (s : State) : Out := s.branch core 0x0B (fun i => i.a == i.b)
/-- BNE (R158). -/
def execQBne (core : Fin 17) (s : State) : Out := s.branch core 0x0C (fun i => i.a != i.b)
/-- BLTU (R158). -/
def execQBltu (core : Fin 17) (s : State) : Out := s.branch core 0x0D (fun i => decide (i.a.toNat < i.b.toNat))
/-- JAL (R158). -/
def execQJal (core : Fin 17) (s : State) : Out :=
  s.instr core 0x0E (fun t i =>
    (t.result core.val i (BitVec.ofNat 32 (i.pc + 1))).jump core.val (BitVec.ofNat 32 i.pc + i.simm).toNat)
/-- JR (R158). -/
def execQJr (core : Fin 17) (s : State) : Out := s.instr core 0x0F (fun t i => t.jump core.val i.a.toNat)
/-- WAITEV (R157, R160): the oldest event, removed; with an empty queue the core waits where it stands. -/
def execQWaitev (core : Fin 17) (s : State) : Out :=
  s.instr core 0x10 (fun t i =>
    match (t.core core.val).events with
    | [] => t
    | e :: l => ((t.modCore core.val (fun k => { k with events := l })).result core.val i e).nextPc core.val i)

/-- The cluster and handle that register A names: on the Scribe the cluster stands in [24:21], as in its events. -/
def handleOf (c : Nat) (a : Word) : Nat × Nat := (if c = 16 then fld a 24 21 else c, fld a 10 0)
/-- The MAWs of a command as MAWROW numbers them: both MAWs of a COPY, else one per plane. -/
def Cmd.rowMaw (x : Cmd) (k : Nat) : BitVec 64 :=
  if x.pkt.opcode = 4 then (if k = 0 then x.pkt.maw0 else if k = 1 then x.pkt.maw1 else 0) else x.pkt.maws.getD k 0
/-- A field of CMDRD (R159). The spec does not say what field 6 shows of a count of 0, the rest of the page: the header's value stands
(log entry 106). -/
def State.cmdField (s : State) (x : Cmd) (n : Nat) : Word :=
  match n with
  | 0 => BitVec.ofNat 32 x.pkt.opcode
  | 1 => x.pkt.maw0.setWidth 32
  | 2 => (x.pkt.maw0 >>> 32).setWidth 32
  | 3 => if x.pkt.opcode = 4 then x.pkt.maw1.setWidth 32 else 0
  | 4 => if x.pkt.opcode = 4 then (x.pkt.maw1 >>> 32).setWidth 32 else 0
  | 5 => x.pkt.mask.setWidth 32
  | 6 => BitVec.ofNat 32 x.pkt.fcount
  | 7 => x.pkt.flags
  | 8 => BitVec.ofNat 32 x.owner
  | 9 => x.field9
  | 10 => ((s.lane x.lane).lun (mawLd (if x.destPart then x.pkt.maw1 else x.pkt.maw0))).feat
  | _ => 0
/-- CMDRD (R159); a handle that holds no command reads zero. -/
def execQCmdrd (core : Fin 17) (s : State) : Out :=
  s.instr core 0x11 (fun t i =>
    let k := handleOf core.val i.a
    (t.result core.val i (match t.cmd? k.1 k.2 with | some x => t.cmdField x i.imm | none => 0)).nextPc core.val i)
/-- MAWROW (R117, R158). -/
def execQMawrow (core : Fin 17) (s : State) : Out :=
  s.instr core 0x12 (fun t i =>
    let k := handleOf core.val i.a
    let v : Nat := match t.cmd? k.1 k.2 with
      | some x =>
        let m := x.rowMaw (i.imm % 4)
        let q := t.geo (mawLane m)
        if i.imm / 4 % 2 = 1 then q.column m else q.row m
      | none => 0
    (t.result core.val i (BitVec.ofNat 32 v)).nextPc core.val i)
/-- The lane that register A names. -/
def laneOf (c : Nat) (a : Word) : Nat := if c = 16 then fld a 6 0 else 8 * c + fld a 2 0
/-- PSET (R168). -/
def execQPset (core : Fin 17) (s : State) : Out :=
  s.instr core 0x13 (fun t i =>
    (t.modLane (laneOf core.val i.a) (fun l => { l with params := Tab.setD (fun _ => 0) l.params (i.imm % 16) i.b })).nextPc core.val i)
/-- A stroke that the ROM program of FALLBACK never commits (R163): a cache operation, a suspension, or a setting of the read-level
feature. -/
def State.notOfRom (s : State) (g id : Nat) (p : List Word) : Bool :=
  match s.resolve g id with
  | some e => e.cache || decide (e.cls = 6 ∨ e.cls = 7 ∨ e.cls = 9 ∨ e.cls = 10) ||
      (decide (id = 0x007) && decide (fld (pw p 5) 7 0 = fld (s.regAt (lnA g Reg.LN_RL_FEAT)) 7 0))
  | none => false
/-- The commit that STRK makes for a core. The words of the ROM program are free; the strokes that R163 keeps from it are refused. -/
def State.strk (s : State) (c g id : Nat) (p : List Word) : State × Nat :=
  if (s.core c).state = .rom ∧ s.notOfRom g id p then (s, 2) else s.commit g id p false (decide (c = 16))
/-- The open parameter block of a lane. -/
def Lane.openParams (l : Lane) : List Word := (List.range 16).map (fun k => Tab.getD (fun _ => (0 : Word)) l.params k)
/-- STRK (R168). -/
def execQStrk (core : Fin 17) (s : State) : Out :=
  s.instr core 0x14 (fun t i =>
    let g := laneOf core.val i.a
    let r := t.strk core.val g (fld i.b 10 0) (t.lane g).openParams
    (r.1.result core.val i (BitVec.ofNat 32 r.2)).nextPc core.val i)
/-- The status codes of R205. -/
def statusCodes : List Nat :=
  [stOk, stWarn, stEcc, stNotErased, stOffFrontier, stBadBlock, stProgFail, stEraseFail, stSealed, stQuota, stPoison, stDeferred, stAborted,
   stTimeout, stHostErr, stWriteErr, stLate]
/-- The Scribe completes the read that waits for an overrun suspend, once its LUN has become ready (R181). -/
def State.overrunDone (s : State) (c h st : Nat) (x : Cmd) : State :=
  let ld := mawLd x.pkt.maw0
  let u := (s.lane x.lane).lun ld
  if u.overrun ∧ u.state ≠ .suspending ∧ (s.waitingRead x.lane ld).map (fun e => (e.1, e.2.1)) = some (c, h) then
    (s.modLun x.lane ld (fun v => { v with overrun := false })).finish c h st 0
  else s
/-- A core ends a command's Quill part with a status (R160), or the Scribe the read that waits for an overrun suspend (R181). A code
outside the table of R205 is no status, and ends nothing (log entry 115). -/
def State.quillDone (s : State) (c h st : Nat) (byScribe : Bool) : State :=
  match s.cmd? c h with
  | some x =>
    if ¬ statusCodes.contains st then s
    else if x.inService then (s.modCmd c h (fun y => { y with quill := some st, deferred := false })).tableSync x.lane
    else if byScribe ∧ x.stage = .pending then s.overrunDone c h st x
    else s
  | none => s
/-- DONE (R160). The status code is bits [7:0] of B, the width of STATUS, and the bits above do nothing, which is the model's choice (log
entry 134). -/
def execQDone (core : Fin 17) (s : State) : Out :=
  s.instr core 0x15 (fun t i =>
    let k := handleOf core.val i.a
    (t.quillDone k.1 k.2 (fld i.b 7 0) (decide (core.val = 16))).nextPc core.val i)
/-- A command is passed to the Scribe, or ends DEFERRED when the Scribe does not run (R160, R430). -/
def State.defer (s : State) (c h reason : Nat) : State :=
  match s.cmd? c h with
  | some x =>
    if ¬ x.inService then s
    else if s.scribeUp then
      (s.modCmd c h (fun y => { y with deferred := true })).toScribe x.lane 1 (h + 2 ^ 11 * reason)
    else s.endOrHold c h stDeferred 0
  | none => s
/-- DEFER (R160). -/
def execQDefer (core : Fin 17) (s : State) : Out :=
  s.instr core 0x16 (fun t i =>
    let k := handleOf core.val i.a
    (t.defer k.1 k.2 (i.imm % 256)).nextPc core.val i)
/-- The mask of a cluster's lanes that are present and trained. -/
def State.laneMask (s : State) (c : Nat) : Nat :=
  (List.range 8).foldl (fun a l => if s.laneUp (8 * c + l) then a + 2 ^ l else a) 0
/-- CSRR (R160): control registers without a value of their own read zero. -/
def execQCsrr (core : Fin 17) (s : State) : Out :=
  s.instr core 0x17 (fun t i =>
    let c := core.val
    let v : Word := match i.imm % 32 with
      | 0 => BitVec.ofNat 32 (if c = 16 then 0 else c)
      | 1 => t.time.setWidth 32
      | 2 => BitVec.ofNat 32 (if c = 16 then 0 else t.laneMask c)
      | 3 => BitVec.ofNat 32 t.glb.mode.code
      | 4 => BitVec.ofNat 32 (min 64 (t.core c).events.length)
      | _ => 0
    (t.result c i v).nextPc c i)
/-- Writes to KICK are ignored while a slot of PB point 9 with kind 13 is armed (R435). -/
def State.kickBlocked (s : State) : Bool :=
  (List.range 4).any (fun k => let w := s.regAt (0xFF00 + 8 * k); bit w 0 && fld w 12 8 == 9 && fld w 7 4 == 13)
/-- A control register written (R160, R428): the timers, the mailbox between Quill and Scribe (its cluster in [24:21] on
the Scribe), and KICK of the Scribe. The spec does not say how much of a MAILBOX word the Scribe gets: the model passes its low 16
bits, as many as its reply has (log entry 108). -/
def State.csrWrite (s : State) (c n : Nat) (v : Word) : State :=
  if 8 ≤ n ∧ n ≤ 11 then
    if v = 0 then s.modCore c (fun k => { k with timers := Tab.erase k.timers (n - 8) })
    else if v.toNat ≤ 65535 then s.modCore c (fun k => { k with timers := Tab.put k.timers (n - 8) (s.time.toNat + v.toNat * 100) })
    else s
  else if n = 12 then
    if c ≠ 16 then (if s.scribeUp then s.toScribe (8 * c) 6 (fld v 15 0) else s)
    else
      let q := fld v 24 21
      if s.quillUp q then s.postTo q (eventWord 6 0 (fld v 15 0)) else s
  else if n = 13 ∧ c = 16 ∧ ¬ s.kickBlocked then s.modCore 16 (fun k => { k with kick := s.time.toNat })
  else s
/-- CSRW (R160). -/
def execQCsrw (core : Fin 17) (s : State) : Out :=
  s.instr core 0x18 (fun t i => (t.csrWrite core.val (i.imm % 32) i.a).nextPc core.val i)
/-- Every core has executed READY. -/
def State.coresReady (s : State) : Bool := s.scribe.ready && s.clusterList.all (fun c => (s.cluster c).quill.ready)
/-- Every saved calibration record is invalid from the start of TRAIN (R153). -/
def State.dropSaved (s : State) : State := s.laneList.foldl (fun t g => t.modLane g (fun l => { l with saved := none })) s
/-- START completes, and TRAIN begins, once every core has executed READY (R85, R162). -/
def State.startEnd (s : State) : State :=
  if s.glb.phase = .start ∧ s.coresReady then
    (s.modGlb (fun g => { g with phase := .train, phaseAt := s.time.toNat, walked := false })).dropSaved
  else s
/-- READY (R162): the start is complete; a reload of the Scribe ends with SCRIBE_RELOAD (R432). -/
def execQReady (core : Fin 17) (s : State) : Out :=
  s.instr core 0x19 (fun t i =>
    let reload := core.val = 16 ∧ t.glb.mode ≠ .opening
    ((t.modCore core.val (fun k =>
      { k with ready := true, kick := if k.state = .starting then t.time.toNat else k.kick,
               state := if k.state = .starting ∧ ¬ reload then .running else k.state })).nextPc core.val i).startEnd)

/-- QUILL_TIMER (R160): a timer expires and raises its event. -/
def execQuillTimer (core : Fin 17) (n : Fin 4) (s : State) : Out :=
  let c := core.val
  let k := s.core c
  match Tab.find? k.timers n.val with
  | some t =>
    if s.coreUp c ∧ k.executes ∧ t ≤ s.time.toNat then
      done s ((s.modCore c (fun k => { k with timers := Tab.erase k.timers n.val })).postTo c (eventWord 5 0 n.val))
    else idle s
  | none => idle s
/-- The cause that a core meets is there: an opcode outside the table, a data address outside the data area, a residue on
the Scribe alone, or an upset of the hardware (R161, R429). -/
def State.faultMet (s : State) (c : Nat) (why : CoreFault) : Bool :=
  let k := s.core c
  match why with
  | .illegal => decide (0x1A ≤ fld k.word 31 26)
  | .dataAddress => decide (fld k.word 31 26 = 9 ∨ fld k.word 31 26 = 10) && (dataWord c (k.ins.a + k.ins.simm)).isNone
  | .residue => decide (c = 16)
  | .corrected data => !data || (decide (fld k.word 31 26 = 9) && (dataWord c (k.ins.a + k.ins.simm)).isSome)
  | _ => true
/-- ILLEGAL_INSTRUCTION (R161, R348, R429): a core faults, or goes on with a corrected word. -/
def execIllegalInstruction (core : Fin 17) (why : CoreFault) (s : State) : Out :=
  let c := core.val
  if s.coreUp c ∧ (s.core c).executes ∧ s.faultMet c why then looked s (s.coreMeets c why) else idle s
/-- WATCHDOG_EXPIRY (R428, R429): the limit passes without a KICK. -/
def execWatchdogExpiry (s : State) : Out :=
  if s.watchdogDue then
    let t := s.loseScribe 1
    looked s (if s.glb.mode = .opening ∧ s.scribe.ready then t.openFail .scribeStart else t)
  else idle s

end Sys2Proof.Machine
end

