-- ==== Sys2Proof/Machine/Frames.lean ====
section
/-! DEFINITION. The flow of a frame (R236 to R250): the read FIFO, the decoders, the Gambit walk (R261 to R265), the outlet
(R246, R247), the samples of the tracker (R251, R252), and the cipher engines (R335, R338). -/
namespace Sys2Proof.Machine
open Sys2Proof

/-! ### Settings (RG_DEC_CTL, RG_DEC_ERASED) -/

/-- RG_DEC_CTL of a lane's region. -/
def State.decCtl (s : State) (g : Nat) : Word := s.regAt (rgA (g / 64) Reg.RG_DEC_CTL)
/-- ITER1: 0 acts as 1, above 20 as 20. -/
def State.iter1 (s : State) (g : Nat) : Nat := min 20 (atLeast1 (fld (s.decCtl g) 4 0))
/-- SOFT_EN; 0 in FALLBACK (R243). -/
def State.softEn (s : State) (g : Nat) : Bool := bit (s.decCtl g) 9 && decide (s.glb.mode ≠ .fallback)
/-- SOFT_SENSES: 3 acts as 2. -/
def State.softSenses (s : State) (g : Nat) : Nat := min 2 (fld (s.decCtl g) 11 10)
/-- SDE_ITER_MAX of RG_DEC_CTL: 0 acts as 1, above 50 as 50. -/
def sdeMax (ctl : Word) : Nat := min 50 (atLeast1 (fld ctl 21 16))

/-! ### The load of a frame -/

/-- The raw frame as a decoder loads it, counted on its page (R435). -/
def State.loadFrame (s : State) (e : Nat) (f : Frame) : State × Frame :=
  let o := s.opportunity (deA e 0) 0
  (o.1.count (deA e Reg.DE_FRAMES), (firedAll o.2 8).foldl (fun f a => f ^^^ (BitVec.ofNat 37376 (2 ^ fld a 15 0))) f)
/-- A decoder's counters at the end of a pass. -/
def State.decoded (s : State) (e : Nat) (d : Decoded) (corr : Nat) : State :=
  let s1 := s.modReg (deA e Reg.DE_ITER_SUM) (fun w => satWord (w.toNat + d.iters))
  if d.ok then s1.modReg (deA e Reg.DE_CORR_MAX) (fun w => BitVec.ofNat 32 (max w.toNat (min 65535 corr)))
  else s1.count (deA e Reg.DE_FAILS)

/-! ### The outlet (R246, R247) -/

/-- A frame fails at the outlet: 1 TAG, 2 ECHO, 3 CRC. -/
def State.outletFail (s : State) (g h k reason : Nat) (cc : CcFault) : State :=
  let c := g / 8
  let owner := (s.cmd? c h).map (·.owner)
  let s1 := ((s.count (lnA g Reg.LN_OUTLET_FAIL)).raise (lnA g 0) 8).blot (lnA g 0) 0x1D owner
    [BitVec.ofNat 32 g, BitVec.ofNat 32 h, BitVec.ofNat 32 reason]
  ((s1.freeSlot g h k).modFrame c h k (fun f => { f with flow := .failed })).frameEnd c h k true cc
/-- The source of a COPY from a Manager ring, whose key slot is the frame's own (R247 step 2). -/
def Cmd.managerCopy (x : Cmd) : Bool := x.pkt.opcode = 4 ∧ x.owner = 511
/-- The key slot under which a frame with a TAG is read. -/
def Cmd.readKey (x : Cmd) (tag : Nat) : Nat := if x.managerCopy then tag % 512 * 4 + tag / 2 ^ 16 % 4 else x.keyNo
/-- TAG passes step 2. -/
def Cmd.tagOk (x : Cmd) (tag : Nat) : Bool :=
  if x.managerCopy then decide (tag / 2 ^ 24 = 1) else decide (tag = tagOf x.owner x.pkt.keySlot)
/-- A decoded codeword enters the outlet: steps 1 to 3; a sample ends there, any other frame waits for a cipher engine. -/
def State.outlet (s : State) (g h k : Nat) (code hardIn : Frame) (cc : CcFault) : State :=
  let c := g / 8
  match s.cmd? c h with
  | none => s
  | some x =>
    let m := s.frameMaw x k false
    let plain := randomise (frameSeed (mawDie m.1) m.2 (mawPage m.1) ((s.geo g).dieBlock m.1)) code
    let side := frameSide plain
    let s1 := (s.freeSlot g h k).modFrame c h k (fun f => { f with out := plain, corr := ones (code ^^^ hardIn), decoded := some (ones code) })
    if x.pkt.opcode ≠ 0x0D ∧ ¬ x.tagOk (sideTag side) then s1.outletFail g h k 1 cc
    else if sideEcho side ≠ echoOf m.1 m.2 then s1.outletFail g h k 2 cc
    else if x.pkt.opcode = 0x0D then (s1.modFrame c h k (fun f => { f with flow := .done })).frameEnd c h k true cc
    else (s1.modFrame c h k (fun f => { f with flow := .waitCipher })).modCluster c (fun q => { q with decipher := q.decipher ++ [(h, k)] })

/-! ### The Gambit walk (R262, R263) -/

/-- The page type of a command's page (R254). -/
def State.frameType (s : State) (x : Cmd) : Nat := s.pageType (mawLane x.pkt.maw0) (mawPage x.pkt.maw0)
/-- A frame reaches the Gambit walk, or fails: a sample, or an empty ladder (R244, R263). -/
def State.toGambit (s : State) (g h k : Nat) (cc : CcFault) : State :=
  let c := g / 8
  match s.cmd? c h with
  | none => s
  | some x =>
    if x.pkt.opcode = 0x0D ∨ s.ladderEmpty (s.frameType x) then s.frameFail c g h k cc
    else
      ((s.freeSlot g h k).modFrame c h k (fun f => { f with flow := .gambitQueue, pass := 0 })).modLane g (fun l =>
        { l with gambit := l.gambit ++ [(h, k)] })
/-- The step of a frame's walk that comes next or is under way. -/
def Cmd.gbStep (x : Cmd) (k : Nat) : Nat := ((x.frames[k]?).map (·.pass)).getD 0
/-- A walk ends without success: the frame fails, or is passed to the Scribe, whose loss ends its command DEFERRED (R263, R250). -/
def State.walkExhausted (s : State) (g h k : Nat) (cc : CcFault) : State :=
  let c := g / 8
  let s1 := ((s.leaveGambit g h k).count (lnA g Reg.LN_GB_EXHAUST)).raise (lnA g 0) 10
  let again := ((s.frame? c h k).map (·.rewalked)).getD false
  if bit (s.regAt Reg.CAL_RL_CTL) 1 ∧ ¬ again then
    if s.scribeUp then (s1.modFrame c h k (fun f => { f with flow := .scribe })).toScribe g 4 (h + 2 ^ 11 * k + 3 * 2 ^ 16)
    else s1.frameLost c g h k cc
  else s1.frameFail c g h k cc
/-- The Gambit step of a frame, as it took its fields when it started (R261). -/
def Lane.stepOf (l : Lane) (h k : Nat) : Option GambitRun :=
  l.gambitRun.filter (fun r => decide (r.handle = h ∧ r.frame = k) && !r.gone)
/-- A Gambit step has failed: the next step, or the walk ends behind the ladder's last step. -/
def State.stepFailed (s : State) (g h k : Nat) (cc : CcFault) : State :=
  match s.cmd? (g / 8) h with
  | none => s
  | some x =>
    let last := ((s.lane g).stepOf h k).any (fun r => bit r.flags 0) || decide (31 ≤ x.gbStep k)
    if last then s.walkExhausted g h k cc
    else (s.modFrame (g / 8) h k (fun f => { f with flow := .gambitQueue, pass := x.gbStep k + 1 })).modLane g (fun l => { l with gambitRun := none })
/-- A Gambit step has decoded: the histogram, ADOPT of the offsets that it took, and the outlet. -/
def State.stepDecoded (s : State) (g h k : Nat) (code hardIn : Frame) (cc : CcFault) : State :=
  match s.cmd? (g / 8) h with
  | none => s
  | some x =>
    let s1 := ((s.leaveGambit g h k).count (lnA g Reg.LN_GB_OK)).count (winKey (lnA g Reg.LN_GB_HIST) (x.gbStep k))
    let s2 := match (s.lane g).stepOf h k with
      | some r => if bit r.flags 3 then s1.adopt (unitCluster (g / 8)) x.pkt.maw0 x.field9 r.ofs cc else s1
      | none => s1
    s2.outlet g h k code hardIn cc
/-- The step under way on a lane; a cancelled one is over once its array read is (R264). -/
def Lane.stepNow (l : Lane) : Option GambitRun := l.gambitRun.filter (fun r => !r.gone || l.sensing r.handle)
/-- The next step of the frame at the head of the lane's Gambit queue starts: its fields are read (R261), its offsets go to the lane's
raw buffer, and its sensing is asked for; at a step that does not exist the walk ends. -/
def State.stepStart (s : State) (g h k : Nat) (x : Cmd) (parity : Bool) (cc : CcFault) : State :=
  let c := g / 8
  let st := x.gbStep k
  let ty := s.frameType x
  let s0 := if parity then s.stepParity ty st else s
  if s0.stepValid ty st then
    let o := s0.gbOffsets ty st x.field9
    let s1 := if st = 0 then s0.count (lnA g Reg.LN_GB_WALKS) else s0
    let s2 := s1.modLane g (fun l => { l with gambitRun := some { handle := h, frame := k, ofs := o, flags := s0.gbData1 ty st, gone := false } })
    let s3 := s2.modFrame c h k (fun f => { f with flow := .gambitSense, steps := f.steps + 1 })
    let word := (0x2E000 + 1024 * (g % 8) + 1020) / 4
    (s3.modCore c (fun q => { q with iram := Tab.setD (fun _ => 0) q.iram word o })).senseReq g h k 2 st
  else s0.walkExhausted g h k cc
/-- GAMBIT_STEP (R262): the lane starts the next step of the frame at the head of its queue, or hands a step's sensing in
slot 14 to the queue for an SDE context; parity says that the read of the step's entry finds a parity error (R352). -/
def execGambitStep (lane : Fin 128) (parity : Bool) (cc : CcFault) (s : State) : Out :=
  let g := lane.val
  if s.working ∧ s.laneUp g then
    match (s.lane g).stepNow, (s.lane g).gambit with
    | none, (h, k) :: _ =>
      match s.cmd? (g / 8) h with
      | none => idle s
      | some x => looked s (s.stepStart g h k x parity cc)
    | some r, _ =>
      match (s.lane g).slotOf r.handle r.frame with
      | some (14, sl) =>
        if ¬ r.gone ∧ bit r.flags 2 ∧ ¬ sl.loaded then
          let s1 := s.modLane g (fun l => { l with slots := Tab.put l.slots 14 { sl with loaded := true } })
          looked s (s1.modRegion (g / 64) (fun q => { q with waiting := q.waiting ++ [(g, r.handle, r.frame)] }))
        else idle s
      | _ => idle s
    | none, [] => idle s
  else idle s

/-! ### Hard decoding (R240, R244, R245) -/

/-- A frame waits for an HDE: it lies in a slot that no engine has taken, and a Gambit step's only where its step names the
HDE. -/
def State.hdeWaits (s : State) (g : Nat) (e : Nat × Slot) : Bool :=
  !e.2.loaded && (e.2.foreign || match (s.frame? (g / 8) e.2.handle e.2.index).map FrameSt.flow with
    | some Flow.inSlot => true
    | some Flow.gambitSense => decide (e.1 = 14) && ((s.lane g).stepOf e.2.handle e.2.index).any (fun r => !bit r.flags 2)
    | _ => false)
/-- An HDE takes one waiting frame before another (R240): the older; of those that arrived in one cycle, the one of the lane that comes
first after the lane it served last; and of one lane's, the one that arrived first. -/
def hdeBefore (served : Nat) (a b : Nat × Nat × Slot) : Bool :=
  let turn (g : Nat) : Nat := (g % 8 + 7 - served) % 8
  let k (e : Nat × Nat × Slot) : Nat × Nat × Nat := (e.2.2.arrived, turn e.1, e.2.2.seqNo)
  let x := k a
  let y := k b
  decide (x.1 < y.1) || (decide (x.1 = y.1) && (decide (x.2.1 < y.2.1) || (decide (x.2.1 = y.2.1) && decide (x.2.2 < y.2.2))))
/-- The waiting frame of a cluster that an HDE takes next: its lane, its slot's number, and the slot. -/
def State.hdeNext (s : State) (c served : Nat) : Option (Nat × Nat × Slot) :=
  ((List.range 8).flatMap (fun l => ((s.lane (8 * c + l)).slots.filter (s.hdeWaits (8 * c + l))).map (fun e => (8 * c + l, e.1, e.2)))).foldl
    (fun a e => match a with
      | none => some e
      | some b => if hdeBefore served e b then some e else a) none
/-- The lane that an HDE served last. -/
def Cluster.served (q : Cluster) (k : Nat) : Nat := if k = 0 then q.served0 else q.served1
/-- An HDE serves a lane of its cluster. -/
def Cluster.serve (q : Cluster) (k l : Nat) : Cluster := if k = 0 then { q with served0 := l } else { q with served1 := l }
/-- The frames of an HDE. -/
def Cluster.hde (q : Cluster) (k : Nat) : List Engine := if k = 0 then q.hde0 else q.hde1
/-- The frames of an HDE replaced. -/
def Cluster.setHde (q : Cluster) (k : Nat) (l : List Engine) : Cluster := if k = 0 then { q with hde0 := l } else { q with hde1 := l }
/-- A frame that its command does not read ends its flow at the HDE, by its two passes and the outlet (R179, R244, R247; log entry 114): it is
counted, and what decodes fails the outlet, at TAG or else at ECHO, since the command has no MAW for it. -/
def State.foreignFrame (s : State) (g i e : Nat) (sl : Slot) (bits : Frame) : State :=
  let s1 := s.modLane g (fun l => { l with slots := Tab.erase l.slots i })
  if fld (s.regAt (rgA (g / 64) Reg.RG_DEC_ERASED)) 15 0 ≤ ones sl.frame then s1.count (lnA g Reg.LN_DEC_ERASED)
  else
    let d1 := hdeDecode false (s.iter1 g) bits
    let again := ¬ d1.ok ∧ bit (s.decCtl g) 8
    let d := if again then hdeDecode true 20 bits else d1
    let out : Frame := BitVec.ofNat 37376 d.bits
    let s2 := (if again then s1.chargeFrame g sl.handle else s1).decoded e d (ones (out ^^^ bits))
    if ¬ d.ok then s2.count (lnA g Reg.LN_DEC_FAIL)
    else
      match s.cmd? (g / 8) sl.handle with
      | none => s2
      | some x =>
        let m := x.pkt.maw0
        let side := frameSide (randomise (frameSeed (mawDie m) sl.index (mawPage m) ((s.geo g).dieBlock m)) out)
        ((s2.count (lnA g Reg.LN_OUTLET_FAIL)).raise (lnA g 0) 8).blot (lnA g 0) 0x1D (some x.owner)
          [BitVec.ofNat 32 g, BitVec.ofNat 32 sl.handle, BitVec.ofNat 32 (if x.tagOk (sideTag side) then 2 else 1)]
/-- HDE_PASS (R240): a free HDE takes its next waiting frame; on the first load its ones are counted, and an erased frame
ends there (R245). ecc is what the read of the slot finds at a byte, cc what a sample's lookup meets (R258). -/
def execHdePass (cl : Fin 16) (k : Fin 2) (ecc : Ecc) (s : State) (cc : CcFault := .clean) (byte : Fin 4672 := 0) : Out :=
  let c := cl.val
  if s.working ∧ s.clusterUp c ∧ ((s.cluster c).hde k.val).length < 4 then
    match s.hdeNext c ((s.cluster c).served k.val) with
    | none => idle s
    | some (g, i, sl) =>
      let h := sl.handle
      let j := sl.index
      let rd := (s.modCluster c (fun q => q.serve k.val (g % 8))).fifoRead g i ecc byte.val
      if rd.2 ∧ sl.foreign then looked s (rd.1.modLane g (fun l => { l with slots := Tab.erase l.slots i }))
      else if rd.2 then looked s (rd.1.fifoUncorr g h j cc)
      else
        let ld := rd.1.loadFrame (2 * c + k.val) sl.frame
        if sl.foreign then looked s (ld.1.foreignFrame g i (2 * c + k.val) sl ld.2)
        else
        let n := ones sl.frame
        match ld.1.frame? c h j with
        | none => idle s
        | some f =>
          let gambit := f.flow = Flow.gambitSense
          let first := f.pass = 0 ∧ ¬ gambit ∧ f.ones.isNone
          let s1 := if first then ld.1.modFrame c h j (fun f => { f with ones := some n }) else ld.1
          if first ∧ fld (s.regAt (rgA (g / 64) Reg.RG_DEC_ERASED)) 15 0 ≤ n then
            looked s ((((s1.freeSlot g h j).modFrame c h j (fun f => { f with flow := .erased })).count (lnA g Reg.LN_DEC_ERASED)).frameEnd c h j false .clean)
          else
            let refeed := gambit ∨ f.pass = 1
            let e : Engine := { lane := g, handle := h, frame := j, bits := ld.2, limit := if refeed then 20 else s.iter1 g,
                                refeed := refeed, gambit := gambit, key := none }
            let s2 := (if refeed then s1.chargeFrame g h else s1).modCluster c (fun q => q.setHde k.val (q.hde k.val ++ [e]))
            let s3 := if gambit then s2.freeSlot g h j
              else s2.modLane g (fun l => { l with slots := Tab.put l.slots i { sl with loaded := true } })
            looked s (if gambit then s3 else s3.modFrame c h j (fun f => { f with flow := .inHde, pass := f.pass + 1 }))
  else idle s
/-- What the outlet finds in the slab that a frame of a command is staged in, where it has one (R291). -/
def State.outletSlab (s : State) (c h k : Nat) (ecc : Ecc) : State :=
  match s.cmd? c h, ecc with
  | _, .clean => s
  | some x, _ => if x.slabs.isEmpty then s else s.slabRead (x.slabFor k) 0 4160 ecc
  | none, _ => s
/-- A frame whose hard decoding has failed waits for an SDE context, or goes on to the Gambit walk (R244). -/
def State.hardFailed (s : State) (g h k : Nat) (cc : CcFault) : State :=
  if s.softEn g then
    (s.modFrame (g / 8) h k (fun f => { f with flow := .waitSde })).modRegion (g / 64) (fun r => { r with waiting := r.waiting ++ [(g, h, k)] })
  else s.toGambit g h k cc
/-- HDE_DONE (R240, R244): a pass of a frame ends; ecc is what the outlet finds in the slab that the frame is to be staged in (R291). -/
def execHdeDone (cl : Fin 16) (k : Fin 2) (h : Fin 2048) (frame : Fin 32) (cc : CcFault) (s : State) (ecc : Ecc := .clean) : Out :=
  let c := cl.val
  if s.working ∧ s.clusterUp c then
    match ((s.cluster c).hde k.val).find? (fun e => e.handle = h.val && e.frame = frame.val) with
    | none => idle s
    | some e =>
      let d := hdeDecode e.refeed e.limit e.bits
      let out : Frame := BitVec.ofNat 37376 d.bits
      let s1 := (s.modCluster c (fun q => q.setHde k.val ((q.hde k.val).erase e))).decoded (2 * c + k.val) d (ones (out ^^^ e.bits))
      let g := e.lane
      let s1 := if d.ok then s1.outletSlab c e.handle e.frame ecc else s1
      if d.ok then looked s (if e.gambit then s1.stepDecoded g e.handle e.frame out e.bits cc else s1.outlet g e.handle e.frame out e.bits cc)
      else if e.gambit then looked s (s1.stepFailed g e.handle e.frame cc)
      else if ¬ e.refeed ∧ bit (s.decCtl g) 8 then
        let s2 := s1.modLane g (fun l => match l.slotOf e.handle e.frame with
          | some (i, sl) => { l with slots := Tab.put l.slots i { sl with loaded := false } }
          | none => l)
        looked s (s2.modFrame c e.handle e.frame (fun f => { f with flow := .inSlot, redecoded := true }))
      else looked s (s1.hardFailed g e.handle e.frame cc)
  else idle s

/-! ### Soft decoding (R241, R244) -/

/-- The lowest-numbered free context of a region. -/
def State.freeCtx (s : State) (r : Nat) : Option Nat :=
  (List.range 32).find? (fun i => (Tab.getD (fun _ => none) (s.region r).ctx i).isNone)
/-- A context set. -/
def State.setCtx (s : State) (r i : Nat) (x : Option SdeCtx) : State :=
  s.modRegion r (fun y => { y with ctx := Tab.setD (fun _ => none) y.ctx i x })
/-- SDE_CONTEXT_GRANT (R241, R244): the oldest request takes a context, its hard data is copied in, and its first soft
sensing is asked for; an uncorrectable word frees the context (R250). -/
def execSdeContextGrant (reg : Fin 2) (ecc : Ecc) (s : State) (cc : CcFault := .clean) (byte : Fin 4672 := 0) : Out :=
  let r := reg.val
  if s.working ∧ r < s.nRegions ∧ ¬ (s.region r).dozed then
    match (s.region r).waiting, s.freeCtx r with
    | (g, h, k) :: rest, some i =>
      match (s.lane g).slotOf h k with
      | none => idle s
      | some (n, sl) =>
        let s1 := s.modRegion r (fun y => { y with waiting := rest })
        let rd := s1.fifoRead g n ecc byte.val
        if rd.2 then looked s (rd.1.fifoUncorr g h k cc)
        else
          let e := 32 + 8 * r + i / 4
          let ld := rd.1.loadFrame e sl.frame
          let gambit := decide (n = 14)
          let want := if gambit then 0 else s.softSenses g
          let s2 := (ld.1.setCtx r i (some { cluster := g / 8, lane := g, handle := h, frame := k, hard := ld.2, soft := [], want := want,
                                             gambit := gambit, ctl := s.decCtl g })).freeSlot g h k
          let s3 := if gambit then s2 else s2.modFrame (g / 8) h k (fun f => { f with flow := .inSde })
          looked s (if want = 0 then s3 else s3.senseReq g h k 1 0)
    | _, _ => idle s
  else idle s
/-- The soft sensing in slot 15 goes to its frame's context, and the next one is asked for; with the last one the soft decode begins,
under RG_DEC_CTL as it stands (R244, R250). One whose context has gone is released. -/
def State.softArrives (s : State) (g : Nat) (sl : Slot) : State :=
  let r := g / 64
  let mine (e : Nat × Option SdeCtx) : Bool := match e.2 with
    | some x => decide (x.lane = g ∧ x.handle = sl.handle ∧ x.frame = sl.index)
    | none => false
  match List.find? mine (s.region r).ctx with
  | some (i, some x) =>
    let s2 := s.setCtx r i (some { x with soft := x.soft ++ [sl.frame], ctl := s.decCtl g })
    if x.soft.length + 1 < x.want then s2.senseReq g sl.handle sl.index 1 0 else s2
  | _ => s
/-- An uncorrectable word is found in slot 15: the frame's context is freed, and R239 applies (R250). -/
def State.softUncorr (s : State) (g : Nat) (sl : Slot) (cc : CcFault) : State :=
  (s.modRegion (g / 64) (fun y => { y with ctx := y.ctx.filter (fun e => match e.2 with
    | some x => decide (¬ (x.lane = g ∧ x.handle = sl.handle ∧ x.frame = sl.index))
    | none => false) })).fifoUncorr g sl.handle sl.index cc
/-- SOFT_SENSING_ARRIVAL (R244): the sensing in slot 15 goes to its context; ecc is what the read of the slot finds. -/
def execSoftSensingArrival (lane : Fin 128) (s : State) (ecc : Ecc := .clean) (cc : CcFault := .clean) (byte : Fin 4672 := 0) : Out :=
  let g := lane.val
  if s.working ∧ s.laneUp g then
    match Tab.find? (s.lane g).slots 15 with
    | none => idle s
    | some sl =>
      let rd := s.fifoRead g 15 ecc byte.val
      let s1 := rd.1.modLane g (fun l => { l with slots := Tab.erase l.slots 15 })
      looked s (if rd.2 then s1.softUncorr g sl cc else s1.softArrives g sl)
  else idle s
/-- SDE_DONE (R241, R244): a soft decode ends. -/
def execSdeDone (reg : Fin 2) (ctx : Fin 32) (cc : CcFault) (s : State) : Out :=
  let r := reg.val
  if s.working ∧ r < s.nRegions then
    match Tab.getD (fun _ => none) (s.region r).ctx ctx.val with
    | none => idle s
    | some x =>
      if x.soft.length < x.want then idle s
      else
        let g := x.lane
        let d := sdeDecode x.hard x.soft (atLeast1 (fld x.ctl 29 28)) (fld x.ctl 25 24) (sdeMax x.ctl)
        let out : Frame := BitVec.ofNat 37376 d.bits
        let s1 := (((s.chargeFrame g x.handle).setCtx r ctx.val none).decoded (32 + 8 * r + ctx.val / 4) d (ones (out ^^^ x.hard))).modFrame x.cluster x.handle x.frame
          (fun f => { f with soft := true })
        if d.ok then
          looked s (if x.gambit then s1.stepDecoded g x.handle x.frame out x.hard cc else s1.outlet g x.handle x.frame out x.hard cc)
        else if x.gambit then looked s (s1.stepFailed g x.handle x.frame cc)
        else looked s (s1.toGambit g x.handle x.frame cc)
  else idle s

/-! ### The cipher engines (R335, R338) -/

/-- A cipher engine of a cluster. -/
def Cluster.cipher (q : Cluster) (k : Nat) : Option Engine := if k = 0 then q.cipher0 else q.cipher1
/-- A cipher engine set. -/
def Cluster.setCipher (q : Cluster) (k : Nat) (e : Option Engine) : Cluster := if k = 0 then { q with cipher0 := e } else { q with cipher1 := e }
/-- The key in a slot. -/
def State.keyAt (s : State) (n : Nat) : Option (BitVec 512) := Tab.getD (fun _ => none) s.keys.slots n
/-- A key slot set: LOADED with a key, or EMPTY. -/
def State.setKey (s : State) (k : Nat) (v : Option (BitVec 512)) : State :=
  s.modKeys (fun x => { x with slots := Tab.setD (fun _ => none) x.slots k v })
/-- What the read of a LOADED slot finds (R348, R354, R356): a corrected word counts; an uncorrectable one leaves the slot EMPTY, with a
record, and qualifies its row. -/
def State.keyRead (s : State) (n : Nat) (ecc : Ecc) : State :=
  match ecc with
  | .clean => s
  | .corrected => s.corrected 0x1A1 (n / 2)
  | .uncorrectable => ((s.setKey n none).blot 0xD000 0x05 (some (n / 4)) [BitVec.ofNat 32 n]).uncorrRow 0x1A1 (n / 2)
/-- The key slot and the owner's TAG under which a command's unit is enciphered: those of the source frame for a COPY from
a Manager ring (R247, R335). -/
def State.writeTag (_ : State) (x : Cmd) (k : Nat) : Nat :=
  if x.managerCopy then sideTag (frameSide (((x.frames[k]?).map (·.out)).getD 0)) else tagOf x.owner x.pkt.keySlot
/-- CIPHER_UNIT (R335, R338): a free engine takes the oldest decipher unit of its cluster, or the oldest encipher unit;
`refeed` marks an encipher unit; ecc is what the read of its key slot finds (R348). An EMPTY slot ends the command with SEALED. -/
def execCipherUnit (cl : Fin 16) (k : Fin 2) (s : State) (ecc : Ecc := .clean) (cc : CcFault := .clean) : Out :=
  let c := cl.val
  let q := s.cluster c
  if s.working ∧ s.clusterUp c ∧ (q.cipher k.val).isNone then
    let take (dec : Bool) (h j : Nat) (u : State) : State :=
      match u.cmd? c h with
      | none => u
      | some x =>
        match x.frames[j]? with
        | none => u
        | some f =>
          let n := if dec then x.readKey (sideTag (frameSide f.out))
            else (u.writeTag x j) % 512 * 4 + (u.writeTag x j) / 2 ^ 16 % 4
          let t := if (u.keyAt n).isSome then u.keyRead n ecc else u
          match t.keyAt n with
          | none => if dec ∧ x.managerCopy then t.outletFail x.lane h j 3 cc else t.abort c h stSealed 0
          | some key =>
            (t.modFrame c h j (fun f => { f with flow := .inCipher })).modCluster c (fun y => y.setCipher k.val
              (some { lane := x.lane, handle := h, frame := j, bits := f.out, limit := 0, refeed := !dec, gambit := false, key := some key }))
    match q.decipher, q.encipher with
    | (h, j) :: rest, _ => looked s (take true h j (s.modCluster c (fun y => { y with decipher := rest })))
    | [], (h, j) :: rest => looked s (take false h j (s.modCluster c (fun y => { y with encipher := rest })))
    | [], [] => idle s
  else idle s
/-- A deciphered unit passes step 5 and is staged in its slab with its side data, or fails (R247). -/
def State.decipherDone (s : State) (c : Nat) (e : Engine) (key : BitVec 512) (x : Cmd) (cc : CcFault) : State :=
  let side := frameSide e.bits
  let plain := xts false key (sideEcho side) (natBytes 4096 (frameUser e.bits).toNat)
  if crc32c plain ≠ sideCrc side then s.outletFail e.lane e.handle e.frame 3 cc
  else
    let s1 := s.modSlab (x.slabFor e.frame) (fun y => { y with payload := BitVec.ofNat 32768 (bytesNat plain), side := side })
    (s1.modFrame c e.handle e.frame (fun f => { f with flow := .done })).frameEnd c e.handle e.frame true cc
/-- A unit to be written is enciphered in its slab under the destination's tweak, with its side data; a COPY keeps
the CRC that its source frame carried (R228, R229, R337, R350). -/
def State.encipherDone (s : State) (c : Nat) (e : Engine) (key : BitVec 512) (x : Cmd) : State :=
  let n := x.slabFor e.frame
  let sl := s.slab n
  let m := s.frameMaw x e.frame true
  let plain := natBytes 4096 sl.payload.toNat
  let echo := echoOf m.1 m.2
  let ct := xts true key echo plain
  let meta_ := sl.side.toNat / 2 ^ 192
  let crc := if x.pkt.opcode = 4 then sideCrc sl.side else crc32c plain
  let s1 := s.modSlab n (fun y => { y with payload := BitVec.ofNat 32768 (bytesNat ct),
                                           side := sideOf (s.writeTag x e.frame) echo crc 0 meta_ })
  let s2 := s1.modFrame c e.handle e.frame (fun f => { f with flow := .done })
  match s2.cmd? c e.handle with
  | some y => if y.allEnded then s2.modCmd c e.handle (fun z => { z with moved := true }) else s2
  | none => s2
/-- CIPHER_UNIT_DONE (R338): an engine finishes its unit; ecc is what the read of the slab that is enciphered, or that the
outlet stages the frame in, finds (R291), cc what the frame's sample meets (R258). -/
def execCipherUnitDone (cl : Fin 16) (k : Fin 2) (s : State) (ecc : Ecc := .clean) (cc : CcFault := .clean) : Out :=
  let c := cl.val
  if s.working ∧ s.clusterUp c then
    match (s.cluster c).cipher k.val with
    | some e =>
      let s1 := s.modCluster c (fun q => q.setCipher k.val none)
      match e.key, s1.cmd? c e.handle with
      | some key, some x => looked s (if e.refeed then (s1.slabRead (x.slabFor e.frame) 0 4160 ecc).encipherDone c e key x
          else (s1.outletSlab c e.handle e.frame ecc).decipherDone c e key x cc)
      | _, _ => looked s s1
    | none => idle s
  else idle s

/-! ### The Scribe's verdict on exhausted walks (R263) and the histograms -/

/-- A write of CAL_GB_SCMD whose OP is the command's: the frame that it names, if the Scribe
holds it for a command that has not ended (R263, R264). -/
def State.scmd (s : State) (op : Nat) (a : RpAcc) (f : State → Nat → Nat → Nat → State) : State :=
  s.portWrite Reg.CAL_GB_SCMD a (fun _ s =>
    let g := fld a.data 29 23
    let h := fld a.data 10 0
    let k := fld a.data 22 18
    if fld a.data 31 30 = op ∧ ((s.frame? (g / 8) h k).map FrameSt.flow = some Flow.scribe) ∧
        (s.cmd? (g / 8) h).any (fun x => decide (x.lane = g ∧ x.stage ≠ .ready) && !x.discard) then
      f s g h k else s)
/-- REWALK (R263): one more walk from step 0, at the tail of the lane's queue. -/
def execRewalk (a : RpAcc) (s : State) : Out :=
  done s (s.scmd 1 a (fun s g h k =>
    (s.modFrame (g / 8) h k (fun f => { f with flow := .gambitQueue, pass := 0, rewalked := true })).modLane g (fun l =>
      { l with gambit := l.gambit ++ [(h, k)] })))
/-- GB_FAIL (R263): the frame fails. -/
def execGbFail (a : RpAcc) (s : State) (cc : CcFault := .clean) : Out := done s (s.scmd 2 a (fun s g h k => s.frameFail (g / 8) g h k cc))
/-- A write of a histogram's select register: its fields, and with CLEAR every bucket zeroed. -/
def State.histWrite (s : State) (sel hist n bitNo : Nat) (a : RpAcc) : State :=
  s.portWrite sel a (fun locked s =>
    let s1 := s.writeRow sel locked a.data
    if bit a.data bitNo then (List.range n).foldl (fun t k => t.setReg (winKey hist k) 0) s1 else s1)
/-- LAT_HIST_CLEAR (R227). -/
def execLatHistClear (lane : Fin 128) (a : RpAcc) (s : State) : Out :=
  done s (s.histWrite (lnA lane.val Reg.LN_LAT_SEL) (lnA lane.val Reg.LN_LAT_HIST) 16 31 a)
/-- GB_HIST_CLEAR (R262). -/
def execGbHistClear (lane : Fin 128) (a : RpAcc) (s : State) : Out :=
  done s (s.histWrite (lnA lane.val Reg.LN_GB_SEL) (lnA lane.val Reg.LN_GB_HIST) 32 31 a)
/-- PT_HIST_CLEAR (R364). -/
def execPtHistClear (a : RpAcc) (s : State) : Out := done s (s.histWrite Reg.PT_HIST_SEL Reg.PT_HIST 16 31 a)

end Sys2Proof.Machine
end

