-- ==== Sys2Proof/Machine/Sched.lean ====
section
/-! DEFINITION. The lane schedulers (R212 to R225): candidates, the choice, the checks before admission (R132, R269 to R271,
R278, R335, R340, R341, R386), the ask, the claims, and erase suspension. -/
namespace Sys2Proof.Machine
open Sys2Proof

/-! ### A command on its lane -/

/-- The MAW on which a command acts on its present lane: a COPY's destination once its program is there. -/
def Cmd.maw (x : Cmd) : BitVec 64 := if x.destPart then x.pkt.maw1 else x.pkt.maw0
/-- READ, RAW_READ or PATROL_SAMPLE. -/
def Cmd.isRead (x : Cmd) : Bool := x.pkt.opcode = 1 ∨ x.pkt.opcode = 0x0C ∨ x.pkt.opcode = 0x0D
/-- A PROGRAM or a COPY destination. -/
def Cmd.isProg (x : Cmd) : Bool := x.pkt.opcode = 2 ∨ (x.pkt.opcode = 4 ∧ x.destPart)
/-- A PROGRAM, an ERASE or a COPY destination. -/
def Cmd.isWrite (x : Cmd) : Bool := x.isProg ∨ x.pkt.opcode = 3
/-- A COPY at its source. -/
def Cmd.isSource (x : Cmd) : Bool := x.pkt.opcode = 4 ∧ ¬ x.destPart
/-- The MAWs that a command addresses on its present lane. -/
def Cmd.laneMaws (x : Cmd) : List (BitVec 64) := if x.pkt.opcode = 4 then [x.maw] else x.pkt.maws
/-- An entry of a lane: cluster, handle, command. -/
abbrev Entry3 := Nat × Nat × Cmd
/-- Earlier in V, the lower handle first (R214). -/
def earlier (a b : Entry3) : Bool := usDiff a.2.2.v b.2.2.v < 0 ∨ (a.2.2.v = b.2.2.v ∧ a.2.1 < b.2.1)
/-- The least entry under an order. -/
def least (lt : Entry3 → Entry3 → Bool) : List Entry3 → Option Entry3
  | [] => none
  | a :: t => match least lt t with
    | none => some a
    | some b => if lt b a then some b else some a

/-! ### Candidates (R214, R217, R220, R222, R269) -/

/-- The commands in service on a LUN. -/
def serviceOn (on : List Entry3) (ld : Nat) : List Entry3 := on.filter (fun e => e.2.2.inService && decide (mawLd e.2.2.maw = ld))
/-- The next page of the same block (R214). -/
def nextPage (o x : Cmd) : Bool :=
  mawBlock x.maw = mawBlock o.maw ∧ mawPlane x.maw = mawPlane o.maw ∧ mawPage x.maw = mawPage o.maw + 1
/-- What PIPE lets follow a command in service (R214): one of the same opcode; a READ or a PROGRAM addresses the next page. -/
def pipeOk (o x : Cmd) : Bool := o.pkt.opcode = x.pkt.opcode ∧ ((x.pkt.opcode = 1 ∨ x.pkt.opcode = 2) → nextPage o x)
/-- The time of the suspension under way, in CLK_AON cycles; time in SUSPENDING counts (R223). -/
def State.suspNow (s : State) (u : Lun) : Nat :=
  match u.state with
  | .suspending | .suspended | .readInSusp | .progInSusp => s.since u.suspAt
  | _ => 0
/-- The total time for which an erase has been suspended, in µs (R221): the current suspension included. -/
def State.suspendedUs (s : State) (u : Lun) : Nat := (u.suspTotal + s.suspNow u) / 100
/-- The part of that time that counts towards MAX_TOTAL_MS: not that of retrains (R182). -/
def State.suspLimited (s : State) (u : Lun) : Nat := (u.suspTotal - u.suspWaived + if u.suspFree then 0 else s.suspNow u) / 100
/-- The expected end of a LUN's erase, from its dispatch (R221). -/
def State.eraseEnd (s : State) (g : Nat) (u : Lun) : Word :=
  let at_ := ((u.erase.bind (s.cmd? (g / 8))).map (·.sentAt)).getD u.eraseRun
  let e := BitVec.ofNat 32 (at_ / 100 + fld (s.regAt (lnA g Reg.LN_EST)) 31 16 + s.suspendedUs u)
  if usDiff e s.us < 0 then s.us else e
/-- A program may run in the suspension of an erase (R222). -/
def State.progInSuspension (s : State) (g : Nat) (u : Lun) (erase x : Cmd) : Bool :=
  bit (s.suspCtl g) 1 && decide (usDiff x.d (s.eraseEnd g u) < 0) &&
    x.laneMaws.all (fun m => erase.laneMaws.all (fun e => (s.geo g).dieBlock m ≠ (s.geo g).dieBlock e))
/-- The erase of a LUN, if a command holds it. -/
def State.eraseCmd (s : State) (g : Nat) (u : Lun) : Option Cmd := u.erase.bind (s.cmd? (g / 8))
/-- The commands in service on a LUN, its erase apart. -/
def serviceBeside (on : List Entry3) (ld : Nat) (u : Lun) : List Entry3 := (serviceOn on ld).filter (fun o => some o.2.1 ≠ u.erase)
/-- A command may run in the suspension of a LUN's erase (R214, R222). -/
def State.suits (s : State) (g : Nat) (u : Lun) (x : Cmd) : Bool :=
  x.isRead || (match s.eraseCmd g u with | some e => x.isProg && s.progInSuspension g u e x | none => false)
/-- The LUN takes a command (R214): nothing in service; PIPE; or a suspended erase alone. -/
def State.lunTakes (s : State) (g : Nat) (on : List Entry3) (x : Cmd) : Bool :=
  let ld := mawLd x.maw
  let u := (s.lane g).lun ld
  if u.state = .resetting ∨ u.awaitReset ∨ s.sealHeld g ld then false
  else if u.state = .suspended then (serviceBeside on ld u).isEmpty && s.suits g u x
  else match serviceOn on ld with
    | [] => true
    | [o] => bit (s.regAt (lnA g Reg.LN_SCHED_CTL)) 1 && pipeOk o.2.2 x
    | _ => false
/-- Die and block of two commands meet. -/
def sameBlock (x y : Cmd) : Bool :=
  x.laneMaws.any (fun a => y.laneMaws.any (fun b => decide (mawDie a = mawDie b ∧ mawBlock a = mawBlock b)))
/-- The command is held behind an earlier one of its tenant to the same die and block, when either writes (R214); a
program that PIPE lets follow the one in service is not (R270). -/
def State.hazard (s : State) (g : Nat) (on : List Entry3) (e : Entry3) : Bool :=
  on.any (fun o => decide (o.2.2.owner = e.2.2.owner) && (o.2.2.isWrite || e.2.2.isWrite) && earlier o e && sameBlock o.2.2 e.2.2 &&
    !(bit (s.regAt (lnA g Reg.LN_SCHED_CTL)) 1 && o.2.2.inService && e.2.2.isProg && pipeOk o.2.2 e.2.2 && nextPage o.2.2 e.2.2))
/-- A selection that still waits for a line has stored a plane-block's ERASE_PENDING record for a command already (R316). -/
def State.erasePut (s : State) (x : Cmd) (b : Nat) : Bool :=
  s.cache.served.any (fun v => decide (v.q.unit.val = x.lane / 8 % 16) && v.q.bytes == frEncode (eraseRec b x.owner))
/-- An ERASE is held while a record of one of its planes is VERIFYING, ERASE_PENDING, or OPEN with NEXT ≠ DONE (R269), but for a record
that its own selection has made. -/
def State.eraseFree (s : State) (x : Cmd) : Bool :=
  if s.glb.mode = .fallback ∧ ¬ s.frAssigned then true
  else match s.frPeek (mawDie x.maw) with
    | none => true
    | some l => x.laneMaws.all (fun m => s.erasePut x ((s.geo (mawLane m)).dieBlock m) ||
        match frFind l ((s.geo (mawLane m)).dieBlock m) with
        | none => true
        | some i => let r := l.getD i frFree; decide (r.st = 1 ∧ r.next = r.done))
/-- The program guard (R220): a read is pending on the LUN that a program would make late. -/
def State.guarded (s : State) (g : Nat) (on : List Entry3) (x : Cmd) : Bool :=
  bit (s.regAt (lnA g Reg.LN_SCHED_CTL)) 2 && x.isProg &&
    on.any (fun o => o.2.2.isRead && decide (o.2.2.stage = .pending ∧ mawLd o.2.2.maw = mawLd x.maw ∧
      usDiff o.2.2.d (s.us + BitVec.ofNat 32 (fld (s.regAt (lnA g Reg.LN_EST)) 15 0)) < 0))
/-- The command may be chosen, its LUN apart: pending, not set aside (R217, R285), its frames enciphered (R284, R335),
its records free (R269), not guarded and not held behind another. -/
def State.choosable (s : State) (g : Nat) (on : List Entry3) (e : Entry3) : Bool :=
  let x := e.2.2
  decide (x.stage = .pending) && !x.slabWait && !(s.lane g).tenantWait.contains x.owner && !(x.isWrite && (s.lane g).mediaWait) && (!x.isProg || x.moved) && (x.pkt.opcode ≠ 3 || s.eraseFree x) &&
    !s.guarded g on x && !s.hazard g on e
/-- The candidates of a lane. -/
def State.laneCands (s : State) (g : Nat) (on : List Entry3) : List Entry3 :=
  on.filter (fun e => s.choosable g on e && s.lunTakes g on e.2.2)

/-! ### The choice (R215, R216) -/

/-- A tenant's virtual time on a lane, if it holds an entry. -/
def Lane.vOf (l : Lane) (t : Nat) : Option (BitVec 48) := (l.table.find? (fun a => a.tenant = t)).map (·.v)
/-- The pick among candidates, and whether it is overdue. -/
def State.choose (s : State) (g : Nat) (cs : List Entry3) : Option (Entry3 × Bool) :=
  let l := s.lane g
  let now := s.us
  let late := cs.filter (fun e => ((atLeast1 (s.regAt (lnA g Reg.LN_SCHED_AGE)).toNat : Nat) : Int) ≤ usDiff now e.2.2.v)
  match least earlier late with
  | some e => some (e, true)
  | none =>
    let act := cs.filter (fun e => (l.vOf e.2.2.owner).isSome)
    match minV (act.filterMap (fun e => (l.vOf e.2.2.owner).map (fun v => { tenant := e.2.2.owner, v := v : Active }))) with
    | none => none
    | some vmin =>
      let win : Int := (1024 * (fld (s.regAt (lnA g Reg.LN_SCHED_CTL)) 31 16) : Nat)
      let elig := act.filter (fun e => decide ((((l.vOf e.2.2.owner).getD 0) - vmin).toInt ≤ win))
      let first (a b : Entry3) : Bool := usDiff a.2.2.d b.2.2.d < 0 ∨ (a.2.2.d = b.2.2.d ∧ earlier a b)
      (least first elig).map (fun e => (e, false))
/-- cost(c) of R215. -/
def State.schedCost (s : State) (g : Nat) (x : Cmd) : Nat :=
  let w := s.regAt (lnA g Reg.LN_SCHED_COST)
  fld w 7 0 * 10 + (if x.isRead ∨ x.isSource then x.frames.length * fld w 15 8 * 10 else 0) +
    (if x.isProg then x.frames.length * fld w 23 16 * 10 else 0) + (if x.pkt.opcode = 3 then fld w 31 24 * 100 else 0)

/-! ### Checks at the pick -/

/-- A refusal: a status with its DETAIL. -/
abbrev Refuse := Option (Nat × Nat)
/-- The extents of an instance hold a MAW (R386). -/
def State.inExtent (s : State) (t : Nat) (m : BitVec 64) : Bool :=
  (List.range 4).any (fun k =>
    let d := s.regAt (winKey (Reg.TN_EXT0_DIE + 8 * k) t)
    let b := s.regAt (winKey (Reg.TN_EXT0_BLK + 8 * k) t)
    bit d 31 && decide (fld d 12 0 ≤ mawDie m ∧ mawDie m ≤ fld d 28 16 ∧ fld b 15 0 ≤ mawBlock m ∧ mawBlock m ≤ fld b 31 16))
/-- Every MAW of a command. -/
def Cmd.allMaws (x : Cmd) : List (BitVec 64) := if x.pkt.opcode = 4 then [x.pkt.maw0, x.pkt.maw1] else x.pkt.maws
/-- The extents of R386: commands of the Manager are not checked. -/
def State.extentCheck (s : State) (x : Cmd) : Refuse :=
  if x.owner = 511 ∨ x.allMaws.all (s.inExtent x.owner) then none else some (stQuota, 0)
/-- A seal plane-block (R341). -/
def sealBlock (m : BitVec 64) : Bool := mawDie m % 4096 = 0 ∧ mawBlock m = 0 ∧ mawPlane m = 0
/-- The MAWs whose defect entries are looked up, each with the lowest code that is refused (4: none; R132). -/
def Cmd.lookups (x : Cmd) : List (BitVec 64 × Nat) :=
  match x.pkt.opcode with
  | 1 | 5 => x.pkt.maws.map (fun m => (m, 3))
  | 2 | 3 | 0x0D => x.pkt.maws.map (fun m => (m, 1))
  | 4 => if x.destPart then [(x.pkt.maw1, 1)] else [(x.pkt.maw0, 3), (x.pkt.maw1, 1)]
  | 0x0C => x.pkt.maws.map (fun m => (m, 4))
  | _ => []
/-- The defect entries of a command: BAD_BLOCK, or ABORTED with STORE_ERR where one cannot be read (R132). -/
def State.defectLoop (cc : CcFault) (u : Asker) : List (BitVec 64 × Nat) → State → Bool → State × Refuse
  | [], s, bad => (s, if bad then some (stBadBlock, 0) else none)
  | (m, least) :: t, s, bad =>
    let r := s.dfCode u (mawDie m) ((s.geo (mawLane m)).dieBlock m) cc
    match r.2 with
    | none => (r.1, some (stAborted, 0x18))
    | some code => State.defectLoop cc u t r.1 (bad || decide (least ≤ code))
/-- Order 2 of R269: the seal plane-blocks of R341, then the defect entries of R132. -/
def State.defectCheck (s : State) (c : Nat) (x : Cmd) (cc : CcFault) : State × Refuse :=
  if x.lookups.any (fun e => sealBlock e.1) then (s, some (stBadBlock, 0))
  else State.defectLoop cc (unitCluster c) x.lookups s false
/-- What the frontier check of a program or an erase finds: the slots of its die (none: it runs without records), and the
planes of a PROGRAM that VERIFY_BLANK must check. -/
structure Frontier where
  slots  : Option (List FrRec)
  verify : List (BitVec 64)
  deriving DecidableEq, Repr
/-- Orders 3 to 5 on one plane's record: the failing order, or 0. -/
def planeOrder (x : Cmd) (l : List FrRec) (blk page order : Nat) : Bool :=
  let vb := x.pkt.opcode = 2 ∧ x.verifyBlank
  match frFind l blk with
  | none => order = 3 ∧ ¬ vb
  | some i =>
    let r := l.getD i frFree
    if order = 3 then r.st = 3
    else if order = 4 then r.st = 2 ∨ (r.st = 1 ∧ r.owner ≠ x.owner ∧ x.owner ≠ 511)
    else page ≠ r.next
/-- Orders 3 to 6 of R269, order by order over the planes; full is false for the first check of a COPY, which leaves out
order 6 (R278). -/
def State.frontierCheck (s : State) (c : Nat) (x : Cmd) (full : Bool) (cc : CcFault) : State × Refuse × Frontier :=
  let g := mawLane (x.frMaws.headD 0)
  let erase := x.pkt.opcode = 3
  let blk (m : BitVec 64) : Nat := (s.geo g).dieBlock m
  if s.glb.mode = .fallback ∧ ¬ s.frAssigned then
    (s, if erase then none else some (stNotErased, 0), { slots := none, verify := [] })
  else
    let die := mawDie (x.frMaws.headD 0)
    let q := s.frSlots (unitCluster c) die cc
    match q.2 with
    | none =>
      (q.1.frStore x.owner die (blk (x.frMaws.headD 0)), if erase then none else some (stNotErased, 0),
        { slots := none, verify := [] })
    | some l =>
      let fails (o : Nat) : Bool := x.frMaws.any (fun m => planeOrder x l (blk m) (mawPage m) o)
      let missing := x.frMaws.filter (fun m => (frFind l (blk m)).isNone)
      let free := (l.filter (fun r => r.st = 0)).length
      let r : Refuse :=
        if ¬ erase ∧ fails 3 then some (stNotErased, 0)
        else if ¬ erase ∧ (fails 4 ∨ fails 5) then some (stOffFrontier, 0)
        else if full ∧ free < missing.length then some (stQuota, 0)
        else none
      (q.1, r, { slots := some l, verify := if erase then [] else missing })
/-- Slabs that the pick must have (R283): their number and bank. -/
def Cmd.slabNeed (x : Cmd) : Nat × Nat :=
  match x.pkt.opcode with
  | 1 => (x.frames.length, mawCluster x.pkt.maw0)
  | 0x0C => (2 * x.frames.length, mawCluster x.pkt.maw0)
  | 0x0A => (1, mawCluster x.pkt.maw0)
  | 4 => (if x.destPart then 0 else x.frames.length, mawCluster x.pkt.maw1)
  | _ => (0, 0)
/-- The refusals that follow the frontier check: FRAMES of a COPY (R278), RAW_READ above level 0 (R340), an EMPTY key
slot (R335), and a poisoned slab of a program (R291). -/
def State.lateChecks (s : State) (x : Cmd) : Refuse :=
  if x.isSource ∧ (s.geo (mawLane x.pkt.maw0)).frames ≠ (s.geo (mawLane x.pkt.maw1)).frames then some (stAborted, 0x0C)
  else if x.pkt.opcode = 0x0C ∧ s.glb.level ≠ some 0 then some (stSealed, 0)
  else if x.usesKey ∧ ¬ x.managerCopy ∧ (s.keyAt x.keyNo).isNone then some (stSealed, 0)
  else if x.isProg ∧ x.slabs.any (fun n => (s.slab n).poison) then some (stPoison, 0)
  else none
/-- Every check of a pick in its order: the refusal, if any, and what the frontier check found. -/
def State.pickChecks (s : State) (c : Nat) (x : Cmd) (cc : CcFault) : State × Refuse × Frontier :=
  let none_ : Frontier := { slots := none, verify := [] }
  match s.extentCheck x with
  | some r => (s, some r, none_)
  | none =>
    let d := s.defectCheck c x cc
    match d.2 with
    | some r => (d.1, some r, none_)
    | none =>
      let f := if x.isWrite ∨ x.isSource then d.1.frontierCheck c x (!x.isSource) cc else (d.1, none, none_)
      match f.2.1 with
      | some r => (f.1, some r, f.2.2)
      | none => (f.1, f.1.lateChecks x, f.2.2)
/-- A command that its pick refuses completes; NOT_ERASED and OFF_FRONTIER count in LN_FR_REFUSE. -/
def State.refuse (s : State) (c h : Nat) (x : Cmd) (r : Nat × Nat) : State :=
  let s1 := if r.1 = stNotErased ∨ r.1 = stOffFrontier then s.count (lnA (mawLane (x.frMaws.headD 0)) Reg.LN_FR_REFUSE) else s
  s1.finish c h r.1 r.2

/-! ### Admission (R230, R255, R270, R271, R393) -/

/-- The kind of a command's charge, its planes and its frames (R393). -/
def State.chargeKind (s : State) (g : Nat) (x : Cmd) (verify : Nat) : Charge × Nat × Nat :=
  let p := x.laneMaws.length
  let f := x.frames.length
  if 0 < verify then (.raw, verify, verify * (s.geo g).frames)
  else if x.isProg then (.program, p, f)
  else match x.pkt.opcode with
    | 1 | 4 | 0x0D => (.read, p, f)
    | 3 => (.erase, p, 0)
    | 5 => (.raw, 1, (s.geo g).frames)
    | 0x0A => (.identify, 1, 0)
    | 0x0C => (.raw, p, f)
    | _ => (.free, 0, 0)
/-- One record of a claim written into a slot of a die, with what it takes the place of, unless one before it could not be written. -/
def claimPut (u : Asker) (die : Nat) (cc : CcFault) (a : State × List FrRec × Bool × List (Nat × FrRec)) (i : Nat) (r : FrRec) :
    State × List FrRec × Bool × List (Nat × FrRec) :=
  if ¬ a.2.2.1 then a
  else
    let t := a.1.frPut u die i r cc
    if t.2 then (t.1, a.2.1.set i r, true, (i, a.2.1.getD i frFree) :: a.2.2.2) else (t.1, a.2.1, false, a.2.2.2)
/-- The claim of a program or an erase on its records (R270, R271): answers whether every record could be written; where one could not,
those before it are put back. -/
def State.claim (s : State) (c : Nat) (x : Cmd) (l : List FrRec) (verify : List (BitVec 64)) (seq : Nat) (cc : CcFault) :
    State × Bool :=
  let u := unitCluster c
  let die := mawDie (x.frMaws.headD 0)
  let q := s.geo (mawLane (x.frMaws.headD 0))
  let slot (l : List FrRec) (b : Nat) : Nat := ((frFind l b).orElse (fun _ => frFreeSlot l)).getD 0
  let ms := if verify.isEmpty then x.frMaws else verify
  let r := ms.foldl (fun a m =>
    let b := q.dieBlock m
    let i := slot a.2.1 b
    let old := a.2.1.getD i frFree
    let new : FrRec :=
      if x.pkt.opcode = 3 then eraseRec b x.owner
      else if ¬ verify.isEmpty then
        { frFree with blk := b, st := 2, owner := x.owner, next := mawPage m, done := mawPage m, base := mawPage m }
      else { old with next := mawPage m + 1, seq := seq }
    claimPut u die cc a i new) (s, l, true, [])
  (if r.2.2.1 then r.1 else r.2.2.2.foldl (fun t e => (t.frPut u die e.1 e.2 cc).1) r.1, r.2.2.1)
/-- SEQ of an admitted program in the side data of its slabs (R229, R230). -/
def State.takeSeq (s : State) (g : Nat) (x : Cmd) : State × Nat :=
  let k := rgA (g / 64) Reg.RG_WR_SEQ
  let n := (s.regAt k).toNat
  let mask : BitVec 512 := BitVec.ofNat 512 (0xFFFFFFFF <<< 160)
  let put (t : State) (i : Nat) : State :=
    t.modSlab i (fun y => { y with side := (y.side &&& ~~~ mask) ||| BitVec.ofNat 512 (n <<< 160) })
  (x.slabs.foldl put (s.modReg k (· + 1)), n)
/-- The tenant's virtual time advances, and the overdue counter counts (R215, R216, R225). -/
def State.countPick (s : State) (g : Nat) (x : Cmd) (late : Bool) : State :=
  let s1 := if late then (s.count (lnA g Reg.LN_OVERDUE)).raise (lnA g 0) 7 else s
  match (s.lane g).vOf x.owner with
  | none => s1
  | some v =>
    let nv := v + BitVec.ofNat 48 (s.schedCost g x * 256 / s.weight x.owner)
    s1.modLane g (fun l =>
      { l with vclock := nv, table := l.table.map (fun a => if a.tenant = x.owner then { a with v := nv } else a) })
/-- The command is dispatched: the read-level entry that its MAW names is looked up (R159, R255), it is in service, with the time noted, and
its CMD event goes to the Quill. -/
def State.dispatch (s : State) (g c h : Nat) (units : Nat) (cc : CcFault) : State :=
  let s1 := s.modCmd c h (fun y => { y with stage := .service, slabWait := false, units := units, sentAt := s.time.toNat })
  let s2 := match s1.cmd? c h with
    | some y =>
      let r := s1.rlLookup (unitCluster c) y.maw cc
      let t := r.1.modCmd c h (fun z => { z with field9 := r.2.1, rlOk := r.2.2 })
      if y.isRead then t.modLun g (mawLd y.maw) (fun u => { u with overrun := false }) else t
    | none => s1
  (s2.event g 1 h).tableSync g
/-- An admitted command takes its slabs, its SEQ and its claims, and is dispatched, or completes NOT_ERASED where a record
cannot be written (R230, R270, R271, R285). -/
def State.admitted (s : State) (g c h : Nat) (x : Cmd) (f : Frontier) (units : Nat) (late : Bool) (cc : CcFault) : State :=
  let n := x.slabNeed
  let t := if n.1 = 0 then (s, x.slabs) else s.takeSlabs x.owner n.1 n.2
  let s1 := (t.1.modCmd c h (fun y => { y with slabs := t.2 })).countPick g x late
  let verify := ¬ f.verify.isEmpty ∧ x.pkt.opcode = 2
  let q := if x.isProg ∧ ¬ verify then s1.takeSeq g x else (s1, 0)
  let die := mawDie (x.frMaws.headD 0)
  let lost (a : State) : State := a.frStore x.owner die ((s.geo (die / 64)).dieBlock (x.frMaws.headD 0))
  if ¬ x.isWrite then q.1.dispatch g c h units cc
  else
    let k := match f.slots with
      | some l => q.1.claim c x l (if verify then f.verify else []) q.2 cc
      | none => (q.1, true)
    if x.pkt.opcode = 3 then
      ((if k.2 then k.1 else lost k.1).modCmd c h (fun y => { y with claimed := true })).dispatch g c h units cc
    else if ¬ k.2 then
      (((lost k.1).modCmd c h (fun y => { y with units := units, verifying := decide verify })).abort c h stNotErased 0).count
        (lnA (die / 64) Reg.LN_FR_REFUSE)
    else if verify then
      (k.1.modCmd c h (fun y => { y with verifying := true, counts := [] })).dispatch g c h units cc
    else
      (k.1.modCmd c h (fun y => { y with claimed := true, dead := [], seq := BitVec.ofNat 32 q.2 })).dispatch g c h units cc

/-! ### Erase suspension and program stalls (R178, R221 to R224) -/

/-- The read that stands first for a LUN: the selection's choice, were its LUN to accept reads. -/
def State.standsFirst (s : State) (g : Nat) (on : List Entry3) (ld : Nat) : Option Entry3 :=
  let reads := on.filter (fun e => e.2.2.isRead && decide (mawLd e.2.2.maw = ld) && s.choosable g on e)
  let others := (s.laneCands g on).filter (fun e => !(e.2.2.isRead && decide (mawLd e.2.2.maw = ld)))
  match s.choose g (others ++ reads) with
  | some (e, _) => if e.2.2.isRead ∧ mawLd e.2.2.maw = ld then some e else none
  | none => none
/-- A read stands first for an erasing LUN: a SUSPEND_REQ, or the read is denied (R221). -/
def State.askSuspend (s : State) (g ld : Nat) (e : Entry3) : State :=
  let u := (s.lane g).lun ld
  let pol := s.regAt (lnA g Reg.LN_SUSP_POL)
  if bit (s.suspCtl g) 0 ∧ usDiff e.2.2.d (s.eraseEnd g u) < 0 ∧ u.suspReqs < fld pol 31 24 ∧
      s.suspLimited u < 1000 * (fld pol 23 16) then
    if u.suspAsked then s else (s.event g 7 (lunBits ld)).modLun g ld (fun v => { v with suspAsked := true })
  else if e.2.2.denied then s
  else (s.count (lnA g Reg.LN_SUSP_DENIED)).modCmd e.1 e.2.1 (fun y => { y with denied := true })
/-- The block's RESUME of a LUN, unless one is committed (R182, R223). -/
def State.resumeStroke (s : State) (g ld : Nat) : State :=
  if (s.lane g).committed.any (fun k => k.byBlock && decide (k.id = 0x015 ∧ pDie k.params = ld)) then s
  else (s.commit g 0x015 [BitVec.ofNat 32 (lunBits ld), 0, 0, 0, 0, 0, 0, 0] true false).1
/-- A suspended LUN without a command in service is resumed when R223 says so, or for an instance under reset
(R182): stroke 0x015 on the scheduler's behalf. -/
def State.resumeErase (s : State) (g : Nat) (on : List Entry3) (ld : Nat) : State :=
  let u := (s.lane g).lun ld
  let pol := s.regAt (lnA g Reg.LN_SUSP_POL)
  let wanted := on.any (fun e => decide (e.2.2.stage = .pending ∧ mawLd e.2.2.maw = ld ∧ usDiff e.2.2.d (s.eraseEnd g u) < 0) &&
    (!e.2.2.isProg || e.2.2.moved) && s.suits g u e.2.2 && !s.hazard g on e)
  if ¬ wanted ∨ ((s.eraseCmd g u).map (·.discard)).getD true ∨ atLeast1 (fld pol 15 0) * 100 ≤ s.since u.suspAt ∨ 1000 * (fld pol 23 16) ≤ s.suspLimited u then
    s.resumeStroke g ld
  else s
/-- One LUN at a selection: stalls behind programs, suspension requests, and resumes; an erase that a retrain left suspended is
resumed at once (R182). -/
def State.lunPolicy (s : State) (g ld : Nat) : State :=
  let on := s.cmdsOn g
  let u := (s.lane g).lun ld
  match u.state with
  | .progBusy | .progInSusp =>
    match s.standsFirst g on ld with
    | some e => s.modCmd e.1 e.2.1 (fun y => { y with firstSince := some (y.firstSince.getD s.time.toNat) })
    | none => s
  | .eraseBusy =>
    if (serviceOn on ld).any (fun e => e.2.2.pkt.opcode = 3) then
      match s.standsFirst g on ld with
      | some e => s.askSuspend g ld e
      | none => s
    else s
  | .suspended =>
    if u.suspFree ∧ ¬ (s.lane g).retrainWait then s.resumeStroke g ld
    else if (serviceBeside on ld u).isEmpty then s.resumeErase g on ld
    else s
  | _ => s
/-- Every LUN of a lane. -/
def State.lanePolicy (s : State) (g : Nat) : State := ((s.lane g).luns.map Prod.fst).foldl (fun t ld => t.lunPolicy g ld) s

/-! ### SELECTION (R215, R217) -/

/-- What is done with one pick: it is refused, set aside, or admitted; true ends the selection. -/
def State.tryPick (s : State) (g : Nat) (e : Entry3) (late : Bool) (cc : CcFault) (upset : Upset) : State × Bool :=
  let c := e.1
  let h := e.2.1
  let x := e.2.2
  let k := s.pickChecks c x cc
  match k.2.1 with
  | some r => (k.1.refuse c h x r, false)
  | none =>
    let f := k.2.2
    let n := x.slabNeed
    if 0 < n.1 ∧ k.1.quotaMax x.owner < n.1 then (k.1.refuse c h x (stQuota, 0), false)
    else if 0 < n.1 ∧ ¬ k.1.mayTake x.owner n.1 n.2 then (k.1.modCmd c h (fun y => { y with slabWait := true }), false)
    else
      let tab := s.costTable g
      let ck := s.chargeKind g x (if x.pkt.opcode = 2 then f.verify.length else 0)
      let s1 := k.1.upset upset tab
      let units := s1.unitsOf tab ck.1
      let a := s1.ask (s1.chargeOf tab ck.1 ck.2.1 ck.2.2) units x.owner (g / 64) x.isWrite
      match a.2 with
      | .admitted => (a.1.admitted g c h x f units late cc, true)
      | .waitTenant => (a.1.modLane g (fun l => { l with tenantWait := x.owner :: l.tenantWait }), false)
      | .waitMedia => (a.1.modLane g (fun l => { l with mediaWait := true }), false)
      | .waitBlock => (a.1.modLane g (fun l => { l with blockWait := true }), true)
/-- The selection goes on to the next candidate until one is admitted, none is left, or it stops. -/
def State.selectLoop (g : Nat) (cc : CcFault) : Nat → Upset → State → State
  | 0, _, s => s
  | n + 1, u, s =>
    match s.choose g (s.laneCands g (s.cmdsOn g)) with
    | none => s
    | some (e, late) =>
      let r := s.tryPick g e late cc u
      if r.2 then r.1 else State.selectLoop g cc n .none r.1
/-- Commands to a LUN that waits for the reset of a lost Scribe complete DEFERRED (R430). -/
def State.deferWaiting (s : State) (g : Nat) : State :=
  if s.serving ∧ ¬ s.scribeUp then
    (s.cmdsOn g).foldl (fun t e =>
      if e.2.2.stage = .pending ∧ ((s.lane g).lun (mawLd e.2.2.maw)).awaitReset then t.finish e.1 e.2.1 stDeferred 0 else t) s
  else s

/-- SELECTION (R215): one selection of a lane's scheduler. Under WAIT_BLOCK no command is chosen, and the erase policy of R221 to R223 goes
on, which is the model's choice (R217; log entry 137). -/
def execSelection (lane : Fin 128) (cc : CcFault) (upset : Upset) (s : State) : Out :=
  let g := lane.val
  if s.working ∧ s.laneUp g then
    let s1 := ((s.sealNext g).deferWaiting g).lanePolicy g
    if (s1.lane g).blockWait then looked s s1
    else looked s (State.selectLoop g cc (s1.cmdsOn g).length upset s1)
  else idle s

end Sys2Proof.Machine
end

