-- ==== Sys2Proof/Machine/Fetch.lean ====
section
/-! DEFINITION. The Ring Fetcher (R190 to R197), the MAW check (R121 to R124), and the intakes with their flush (R198 to
R202). The dispatcher is in Machine/Pop.lean. -/
namespace Sys2Proof.Machine
open Sys2Proof

/-! ### The fields of a packet (R190, R191) -/

/-- A field of a Command Word by bytes: n bytes from byte k. -/
def wordField (w : BitVec 512) (k n : Nat) : Nat := fld w (8 * (k + n) - 1) (8 * k)
/-- NW of a header: continuation words. -/
def hdrNw (w : BitVec 512) : Nat := fld w 5 4
/-- OPCODE of a header. -/
def hdrOp (w : BitVec 512) : Nat := wordField w 1 1
/-- TAG of a header. -/
def hdrTag (w : BitVec 512) : Nat := wordField w 2 2
/-- A MAW with its PLANE field replaced. -/
def withPlane (m : BitVec 64) (p : Nat) : BitVec 64 := BitVec.ofNat 64 (m.toNat - mawPlane m * 4 + p * 4)
/-- The opcodes whose packet carries no MAW: FETCH, RELEASE, FENCE. -/
def noMaw (op : Nat) : Bool := op = 6 ∨ op = 7 ∨ op = 0x0E
/-- The MAWs of a packet but a COPY's destination: one per plane, planes ascending (R191). -/
def planeMaws (ws : List (BitVec 512)) : List (BitVec 64) :=
  let h := ws.headD 0
  let m := BitVec.ofNat 64 (wordField h 8 8)
  let planes := (List.range 4).filter (fun p => (wordField h 28 1).testBit p)
  if noMaw (hdrOp h) then []
  else if planes.isEmpty then [m]
  else if (wordField h 4 4).testBit 3 then
    (List.range planes.length).map (fun k => BitVec.ofNat 64 (wordField (ws.getD 1 0) (8 + 8 * k) 8))
  else planes.map (withPlane m)
/-- The payload bytes of the META words. -/
def metaOf (ws : List (BitVec 512)) : List Byte :=
  ((ws.drop 1).filter (fun w => decide (wordField w 1 1 = 2))).flatMap (fun w => leBytes 56 (wordField w 8 56))
/-- The packet that its words give. -/
def packetOf (ws : List (BitVec 512)) : Packet :=
  let h := ws.headD 0
  { opcode := hdrOp h, tag := BitVec.ofNat 16 (hdrTag h), flags := BitVec.ofNat 32 (wordField h 4 4),
    maw0 := BitVec.ofNat 64 (wordField h 8 8), maw1 := BitVec.ofNat 64 (wordField h 16 8), deadline := wordField h 24 4,
    mask := BitVec.ofNat 4 (wordField h 28 1), keySlot := wordField h 29 1 % 4, fcount := wordField h 30 1,
    buf := BitVec.ofNat 64 (wordField h 32 8), metaAddr := BitVec.ofNat 64 (wordField h 40 8),
    arg := BitVec.ofNat 64 (wordField h 48 8), maws := planeMaws ws, metaBytes := metaOf ws }

/-! ### Malformed packets (R194) -/

/-- The opcodes that take a multi-plane mask: READ, PROGRAM, ERASE, RAW_READ, PATROL_SAMPLE (R192, R279). -/
def manyPlanes (op : Nat) : Bool := op = 1 ∨ op = 2 ∨ op = 3 ∨ op = 0x0C ∨ op = 0x0D
/-- The opcodes of R192. -/
def knownOp (op : Nat) : Bool := 1 ≤ op ∧ op ≤ 0x0E
/-- The opcodes permitted only from Manager rings. -/
def managerOp (op : Nat) : Bool := op = 8 ∨ op = 9 ∨ op = 0x0B ∨ op = 0x0C
/-- The flags of a packet break R193. -/
def flagsBad (p : Packet) : Bool :=
  let op := p.opcode
  let on (i : Nat) : Bool := bit p.flags i
  decide (2 ^ 7 ≤ p.flags.toNat) ||
  (on 0 && !decide (op = 1 ∨ op = 6 ∨ op = 0x0C ∨ op = 0x0A)) || (on 1 && !decide (op = 1)) || (on 2 && !decide (op = 2)) ||
  (on 3 && !decide ((op = 1 ∨ op = 2 ∨ op = 3) ∧ p.mask ≠ 0)) || (on 4 && !decide (op = 2 ∧ p.mask = 0 ∧ p.metaAddr = 0)) ||
  (decide (fld p.flags 6 5 ≠ 0) && !decide (op = 1 ∨ op = 2 ∨ op = 6 ∨ op = 0x0A ∨ op = 0x0C))
/-- The fields of a MAW that an opcode wants zero (R192): FRAME of a PROGRAM, a COPY or a BLANK_CHECK, PAGE and FRAME of an
ERASE, and BLOCK, PAGE and FRAME where a die is named. -/
def mawZero (op : Nat) (m : BitVec 64) : Bool :=
  if op = 2 ∨ op = 4 ∨ op = 5 then mawFrame m = 0
  else if op = 3 then mawPage m = 0 ∧ mawFrame m = 0
  else if op = 8 ∨ op = 9 ∨ op = 0x0A ∨ op = 0x0B then mawBlock m = 0 ∧ mawPage m = 0 ∧ mawFrame m = 0
  else true
/-- The header breaks R190 or R192. -/
def headerBad (h : BitVec 512) (p : Packet) : Bool :=
  let op := p.opcode
  let planes := ones p.mask
  decide ((bit h 1 = true ↔ hdrNw h ≠ 0) ∨ fld h 3 2 ≠ 0 ∨ fld h 7 6 ≠ 0) || !knownOp op ||
  decide (fld h 231 228 ≠ 0 ∨ fld h 239 234 ≠ 0 ∨ wordField h 31 1 ≠ 0 ∨ wordField h 56 8 ≠ 0) ||
  decide (planes = 1 ∨ planes = 3) || (decide (p.mask ≠ 0) && !manyPlanes op) ||
  decide (p.mask ≠ 0 ∧ (setBits p.mask).head? ≠ some (mawPlane p.maw0)) ||
  (noMaw op && decide (p.maw0 ≠ 0)) || (decide (op ≠ 4) && decide (p.maw1 ≠ 0)) || !mawZero op p.maw0 ||
  !p.maws.all (mawZero op) || (decide (op = 4) && !mawZero op p.maw1) ||
  (if op = 1 ∨ op = 0x0C ∨ op = 0x0D then decide (8 < p.fcount) else decide (p.fcount ≠ 0))
/-- A continuation word's first eight bytes break R191. -/
def contBad (nw k : Nat) (w : BitVec 512) : Bool :=
  decide (bit w 0 = true ∨ fld w 3 2 ≠ k ∨ fld w 5 4 ≠ nw ∨ fld w 7 6 ≠ 0 ∨ wordField w 2 6 ≠ 0) ||
    decide (bit w 1 = true ↔ k ≠ nw)
/-- The continuation words break R191: PLANE_MAWS is word 1 alone, META words cover exactly the frames of the command,
and a word without its flag has no place. A lane without a geometry leaves the number of META words unjudged. -/
def State.contsBad (s : State) (ws : List (BitVec 512)) (p : Packet) : Bool :=
  let cs := ws.drop 1
  let nw := hdrNw (ws.headD 0)
  let q := s.geo (mawLane p.maw0)
  cs.zipIdx.any (fun e => contBad nw (e.2 + 1) e.1) ||
  (if bit p.flags 3 then
    !decide (cs.length = 1 ∧ wordField (cs.headD 0) 1 1 = 1 ∧ wordField (cs.headD 0) 8 56 < 2 ^ (64 * ones p.mask))
  else if bit p.flags 4 then
    !decide (cs.length ≠ 0) || cs.any (fun w => decide (wordField w 1 1 ≠ 2)) ||
      (decide (q.planes ≠ 0) && !(decide (cs.length = (40 * q.frames + 55) / 56) &&
        (p.metaBytes.drop (40 * q.frames)).all (fun b => decide (b = 0))))
  else !cs.isEmpty)
/-- The packet is malformed (R194). -/
def State.malformed (s : State) (ws : List (BitVec 512)) : Bool :=
  let p := packetOf ws
  headerBad (ws.headD 0) p || flagsBad p || s.contsBad ws p

/-! ### The MAW check (R121 to R124) -/

/-- The MAWs of a packet in the order of R124, each with whether it is a COPY's destination. The header's MAW0, which names the lowest
plane, comes first also where a PLANE_MAWS word gives that plane's MAW again (log entry 117). -/
def Packet.mawList (p : Packet) : List (BitVec 64 × Bool) :=
  (if bit p.flags 3 then [(p.maw0, false)] else []) ++ p.maws.map (fun m => (m, false)) ++
    (if p.opcode = 4 then [(p.maw1, true)] else [])
/-- Checks 2 to 5 of R122 on one MAW: the reason, or 0. -/
def State.mawFetch (s : State) (m : BitVec 64) : Nat :=
  if fld m 63 45 ≠ 0 then 2
  else if s.nRegions ≤ fld m 44 44 then 3
  else if s.nClusters ≤ mawCluster m then 4
  else if s.glb.mode = .fallback ∧ 8 ≤ mawLane m then 5
  else 0
/-- The multi-plane rules of R121 on one plane's MAW beside that of the lowest plane. -/
def planesAgree (q : Geo) (first : BitVec 64) (plane : Nat) (m : BitVec 64) : Bool :=
  mawPlane m = plane ∧ mawDie m = mawDie first ∧ mawPage m = mawPage first ∧ (q.free ∨ mawBlock m = mawBlock first)
/-- FRAME under R116. -/
def frameOk (q : Geo) (f : Nat) : Bool := if q.frames ≤ 4 then f < q.frames else 2 * f < q.frames
/-- Checks 6 to 12 of R122 on one MAW; many says whether the multi-plane rules hold. -/
def State.mawCluster_ (s : State) (m : BitVec 64) (many : Bool) : Nat :=
  let g := mawLane m
  let q := s.geo g
  if ¬ (g < s.build.lanes ∧ (s.lane g).enabled ∧ ¬ s.laneFailed g) then 6
  else if ¬ s.targetUp g (mawTarget m) then 7
  else if q.luns ≤ mawLun m then 8
  else if q.planes ≤ mawPlane m ∨ ¬ many then 9
  else if q.blocks ≤ mawBlock m then 0xA
  else if q.pages ≤ mawPage m then 0xB
  else if ¬ frameOk q (mawFrame m) then 0xC
  else 0
/-- The first MAW that fails a stage, with its reason. -/
def firstBad (f : BitVec 64 × Nat → Nat) (l : List (BitVec 64 × Bool)) : Option (BitVec 64 × Bool × Nat) :=
  (l.zipIdx.find? (fun e => decide (f (e.1.1, e.2) ≠ 0))).map (fun e => (e.1.1, e.1.2, f (e.1.1, e.2)))
/-- The first stage: checks 1 to 5 on every MAW; residue names the MAW, if any, whose decoding shows a residue error. -/
def State.fetchCheck (s : State) (p : Packet) (residue : Option Nat) : Option (BitVec 64 × Bool × Nat) :=
  firstBad (fun e => if residue = some e.2 then 1 else s.mawFetch e.1) p.mawList
/-- The MAW at a place of the order of R124 keeps the multi-plane rules of R121 beside MAW0: with the PLANE that the mask gives it. -/
def State.agrees (s : State) (p : Packet) (k : Nat) (m : BitVec 64) : Bool :=
  let planes := setBits p.mask
  planes.isEmpty || planesAgree (s.geo (mawLane p.maw0)) p.maw0 (planes.getD (if bit p.flags 3 then k - 1 else k) 0) m
/-- The second stage: checks 6 to 12 on every MAW. -/
def State.clusterCheck (s : State) (p : Packet) : Option (BitVec 64 × Bool × Nat) :=
  firstBad (fun e => s.mawCluster_ e.1 (s.agrees p e.2 e.1)) p.mawList
/-- A failing check is counted and recorded (R123); one of the residue writes its record (R122). -/
def State.mawReject (s : State) (owner : Nat) (r : BitVec 64 × Bool × Nat) : State :=
  let lo : Word := r.1.setWidth 32
  let hi : Word := (r.1 >>> 32).setWidth 32
  let info : Word := BitVec.ofNat 32 (2 ^ 16 * owner + (if r.2.1 then 2 ^ 8 else 0) + r.2.2)
  let s1 := (((s.count Reg.DF_REJECT_COUNT).setReg Reg.DF_MAW_REJECT_LO lo).setReg Reg.DF_MAW_REJECT_HI hi).setReg
    Reg.DF_MAW_REJECT_INFO info
  let s2 := s1.raise 0xE000 2
  if r.2.2 = 1 then s2.blot 0xE000 0x0E (some owner) [lo, hi] else s2

/-! ### The Ring Fetcher (R195 to R197) -/

/-- The packet under way of a ring. -/
def State.fetchOf (s : State) (ring : Nat) : Option Fetching := s.fetching.find? (fun e => e.ring = ring)
/-- A ring's packet changed. -/
def State.modFetch (s : State) (ring : Nat) (f : Fetching → Fetching) : State :=
  { s with fetching := s.fetching.map (fun e => if e.ring = ring then f e else e) }
/-- The next beat of a packet is requested, on the port of the ring's home cluster (R19, R31). -/
def State.fetchAsk (s : State) (e : Fetching) : State :=
  s.hpPush (s.portOf e.home)
    { wr := false, addr := beatAddr (e.base + 64 * ((e.slot + e.words.length) % e.size)), len := 1, cls := 3,
      issuer := .fetch e.ring, beats := [], dest := 0, off := 0, count := 128 }
/-- The packet leaves the Fetcher: CONS advances by n slots, and the packet is counted as fetched, as dropped, or as
both. -/
def State.fetchGone (s : State) (e : Fetching) (n : Nat) (pkt drop : Bool) : State :=
  let s1 := s.ringPut e.ring (.gone ((e.slot + n) % e.size) pkt drop)
  { s1 with fetching := s1.fetching.filter (fun q => q.ring ≠ e.ring) }
/-- CL_INTAKE_REWIND counts a rewound packet: on the cluster that it was routed to, else on the ring's home cluster. -/
def State.countRewind (s : State) (e : Fetching) : State := s.count (clA (e.route.getD e.home) Reg.CL_INTAKE_REWIND)
/-- A packet whose header has been read ends in the Fetcher, or is rewound, with a completion from the port of the ring's
home cluster (R123, R194, R197); an instance under reset has its reservation released instead (R390). -/
def State.fetchEnds (s : State) (e : Fetching) (st det : Nat) (rewind : Bool) : State :=
  let w := e.words.headD 0
  let n := hdrNw w + 1
  let cpl := fld (s.note e.ring) 14 0
  let s0 := if rewind then s.countRewind e else s
  let s1 := s0.fetchGone e n true rewind
  if s.tnState e.owner = .resetting then s1.releaseOut e.ring cpl
  else
    s1.pushReady { cplRing := cpl, subRing := some e.ring, handle := none, port := s.portOf e.home,
                   words := plainWords (hdrTag w) st det (hdrOp w) e.ring ((e.slot + n) % e.size), reserved := true,
                   seen := none }
/-- A packet whose header cannot be read: it is dropped without a completion, and the ring errs (R197, R211). -/
def State.fetchLost (s : State) (e : Fetching) (header : Bool) : State :=
  let cpl := fld (s.note e.ring) 14 0
  let s1 := ((s.countRewind e).fetchGone e (if header then 1 else 0) false true).releaseOut e.ring cpl
  if header then s1.ringReport e.ring 4 e.owner (s1.ringPeek cpl)
  else s1.ringError e.ring 2
/-- LEASE of a FETCH or RELEASE. -/
def Packet.lease (p : Packet) : Nat := fld p.arg 12 0
/-- The cluster that a packet is routed to (R196). -/
def Packet.cluster (p : Packet) : Nat := if p.opcode = 6 ∨ p.opcode = 7 then p.lease / 512 else mawCluster p.maw0
/-- A record of class IW_FREE: 1 DOUBLE_FREE, 2 NOT_LEASE, 3 NOT_OWNER, 4 BUSY (R290). -/
def State.iwFree (s : State) (owner slab why : Nat) : State :=
  s.blot 0xA000 0x24 (some owner) [BitVec.ofNat 32 slab, BitVec.ofNat 32 why]
/-- A packet with all its words read is judged (R192 to R196): malformed, from a ring that may not issue it, a FENCE,
which stays, refused by the MAW check, of an absent bank, of a cluster whose Quill has faulted (R161), or routed. -/
def State.judge (s : State) (e : Fetching) : State :=
  let p := packetOf e.words
  if s.malformed e.words then s.fetchEnds e stAborted 0x10 true
  else if managerOp p.opcode ∧ e.owner ≠ 511 then s.fetchEnds e stAborted 0x11 false
  else if p.opcode = 0x0E then s.modFetch e.ring (fun q => { q with done := true })
  else match s.fetchCheck p e.mawBad with
    | some r => (s.mawReject e.owner r).fetchEnds e stAborted r.2.2 false
    | none =>
      let c := p.cluster
      if s.nClusters ≤ c ∨ (s.glb.mode = .fallback ∧ c ≠ 0) then
        (s.iwFree e.owner p.lease 2).fetchEnds e stAborted 0x16 false
      else if (s.cluster c).quillDead then s.fetchEnds e stAborted 0x14 false
      else s.modFetch e.ring (fun q => { q with done := true, route := some c })
/-- A beat of a ring's packet arrives, or its read has failed (R37 to R39, R197). -/
def State.fetchBeat (s : State) (ring : Nat) (ok : Bool) (data : Beat) : State :=
  match s.fetchOf ring with
  | none => s
  | some e =>
    if e.done then s
    else if ¬ ok then
      if e.words.isEmpty then s.fetchLost e false else s.fetchEnds e stHostErr 1 true
    else
      let half := (e.slot + e.words.length) % 2
      let new := if half = 0 then [data.setWidth 512, (data >>> 512).setWidth 512] else [(data >>> 512).setWidth 512]
      let ws := e.words ++ new
      let h := ws.headD 0
      if ¬ bit h 0 then s.fetchLost { e with words := [h] } true
      else
        let e1 := { e with words := ws.take (hdrNw h + 1) }
        let s1 := s.modFetch ring (fun _ => e1)
        if hdrNw h + 1 ≤ ws.length then
          (if s.glb.mode = .fallback then s1.modGlb (fun g => { g with fetchedInFallback := true }) else s1).judge e1
        else s1.fetchAsk e1
/-- The Fetcher may fetch for an instance in the present mode; it stops while a sanitize runs (R93, R189, R344). -/
def State.fetches (s : State) (owner : Nat) : Bool :=
  s.working && s.keys.sanit.isNone && (decide (s.glb.mode ≠ .fallback) || decide (owner = 511))
/-- RING_FETCH (R195): a packet of an ACTIVE SUB ring with slots offered is begun: a completion slot is reserved in both
rings, and its first beat is requested. A residue error of a ring ends in ERROR (R185); a context that has met STORE_ERR is looked up again
at the next retry (R327). -/
def execRingFetch (ring : Fin 32768) (cc : CcFault) (residue : Bool) (mawResidue : Option (Fin 5)) (s : State) : Out :=
  let n := ring.val
  if ¬ s.working ∨ s.note n = 0 ∨ (s.fetchOf n).isSome ∨ s.cache.stuck.contains (false, n) ∨ s.ringWaits n then idle s
  else
    let r := s.ringLoad unitFetcher n cc
    match r.2 with
    | none => looked s (r.1.stick false n)
    | some x =>
      if x.kind ≠ 1 ∨ x.state ≠ 0 ∨ ¬ s.fetches x.owner then looked s r.1
      else if residue ∨ ¬ x.sound then looked s (r.1.ringError n 3)
      else if x.prod = x.cons ∨ s.ringWaits x.cplRing then looked s r.1
      else
        let q := r.1.ringLoad unitFetcher x.cplRing cc
        match q.2 with
        | none => looked s (q.1.stick false n)
        | some y =>
          if y.kind ≠ 2 ∨ y.state ≠ 0 then looked s q.1
          else if ¬ y.sound then looked s (q.1.ringError x.cplRing 3)
          else if y.freeSlots ≤ y.out then looked s q.1
          else
            let t1 := q.1.ringStore unitFetcher n (x.setOut (x.out + 1)) cc
            let t2 := t1.1.ringStore unitFetcher x.cplRing (y.setOut (y.out + 1)) cc
            let s2 := t2.1
            let e : Fetching :=
              { ring := n, owner := x.owner, slot := x.cons, size := x.size, base := x.base, home := x.home,
                prio := x.prio, urgent := x.urgent, words := [], mawBad := mawResidue.map Fin.val, done := false, route := none,
                pushed := 0, packet := s2.serial }
            let s3 := { s2 with fetching := s2.fetching ++ [e], serial := s2.serial + 1 }
            looked s (if t1.2 ∧ t2.2 then s3.fetchAsk e else (s.backTo t2.1).stick false n)
/-- FENCE (R195): the Fetcher holds a FENCE until the ring's OUTSTANDING is 1, its own, and then completes it. -/
def execOpFence (ring : Fin 32768) (cc : CcFault) (s : State) : Out :=
  if s.working then
    match s.fetchOf ring.val with
    | some e =>
      if e.done ∧ hdrOp (e.words.headD 0) = 0x0E ∧ ¬ s.cache.stuck.contains (false, ring.val) then
        let r := s.ringLoad unitFetcher ring.val cc
        match r.2 with
        | some x => looked s (if x.out = 1 ∧ ¬ s.ringWaits ring.val then r.1.fetchEnds e stOk 0 false else r.1)
        | none => looked s (r.1.stick false ring.val)
      else idle s
    | none => idle s
  else idle s

/-! ### The intakes (R198 to R202) -/

/-- An intake of a cluster. -/
def Cluster.intake (q : Cluster) (urgent : Bool) : Intake := if urgent then q.urgent else q.bulk
/-- An intake changed. -/
def State.modIntake (s : State) (c : Nat) (urgent : Bool) (f : Intake → Intake) : State :=
  s.modCluster c (fun q => if urgent then { q with urgent := f q.urgent } else { q with bulk := f q.bulk })
/-- Packets held in an intake, a partial one included. -/
def Intake.packets (k : Intake) : Nat := k.heads.length
/-- OCC of an intake: words of the Bulk Intake, packets of the Urgent Intake (R198). -/
def Intake.occ (k : Intake) (urgent : Bool) : Nat := if urgent then k.packets else k.words.length
/-- VIS of an intake. -/
def Intake.vis (k : Intake) (urgent : Bool) : Nat :=
  if urgent then (k.heads.filter k.complete).length else (k.words.filter k.complete).length
/-- A word of a packet may be pushed: the Bulk Intake has room for it; the Urgent Intake for its packet (R198, R199). -/
def Intake.room (k : Intake) (urgent first : Bool) : Bool :=
  if urgent then decide (¬ first ∨ k.packets < 32) else decide (k.words.length < 256)
/-- The packet that the Fetcher offers an intake next: the one begun, or the oldest. -/
def State.offered (s : State) (c : Nat) (urgent : Bool) : Option Fetching :=
  let l := s.fetching.filter (fun e => e.route = some c ∧ e.urgent = urgent)
  match l.find? (fun e => 0 < e.pushed) with
  | some e => some e
  | none => l.head?
/-- A committed word's packet is rewound: its words leave the intake (R197, R200). -/
def State.intakeRewind (s : State) (c : Nat) (urgent : Bool) (e : Fetching) : State :=
  (s.modIntake c urgent (fun k => { k with words := k.words.filter (fun w => w.packet ≠ e.packet) })).fetchEnds e stAborted 0x13 true
/-- A word is committed, and with the last one the packet is visible and CONS advances (R195, R198). -/
def State.intakeCommit (s : State) (c : Nat) (urgent : Bool) (e : Fetching) : State :=
  let h := e.words.headD 0
  let n := hdrNw h + 1
  let last := decide (e.pushed + 1 = n)
  let w : IntakeWord :=
    { bits := e.words.getD e.pushed 0, ring := e.ring, owner := e.owner, prio := e.prio, sqHead := (e.slot + n) % e.size,
      first := decide (e.pushed = 0), last := last, packet := e.packet, seen := 0 }
  let s1 := s.modIntake c urgent (fun k =>
    let ws := k.words ++ [w]
    { k with words := if last then ws.map (fun v => if v.packet = e.packet then { v with seen := s.time.toNat / 100 } else v) else ws })
  if last then s1.fetchGone e n true false else s1.modFetch e.ring (fun q => { q with pushed := q.pushed + 1 })
/-- A word is discarded under FLUSH_SKIP (R201). -/
def State.intakeSkip (s : State) (c : Nat) (e : Fetching) : State :=
  let s1 := s.count (clA c Reg.CL_FLUSH_SKIP_CNT)
  let n := hdrNw (e.words.headD 0) + 1
  if e.pushed + 1 = n then s1.fetchGone e n true false else s1.modFetch e.ring (fun q => { q with pushed := q.pushed + 1 })
/-- The packet was partly pushed when its Quill faulted or its words were flushed: what is left of it only advances CONS. -/
def State.orphan (s : State) (c : Nat) (urgent : Bool) (e : Fetching) : Bool :=
  decide (0 < e.pushed) && !((s.cluster c).intake urgent).words.any (fun w => w.packet = e.packet)
/-- Group of an intake (R355). -/
def intakeGroup (c : Nat) (urgent : Bool) : Nat := 0xA0 + 2 * c + if urgent then 1 else 0
/-- A corrected word of an intake (R200, R348); the word's place in the array is its place in the queue (log entry 28). -/
def State.intakeCorr (s : State) (c : Nat) (urgent : Bool) (i : Nat) : State :=
  (s.count (clA c Reg.CL_INTAKE_CORR)).corrected (intakeGroup c urgent) (i / 2)
/-- An uncorrectable word of an intake qualifies its row for repair (R356). -/
def State.intakeUncorr (s : State) (c : Nat) (urgent : Bool) (i : Nat) : State := s.uncorrRow (intakeGroup c urgent) (i / 2)
/-- INTAKE_PUSH (R198 to R202): the Fetcher offers an intake the next word of a packet; ecc is what the check of the
committed word finds. -/
def execIntakePush (cl : Fin 16) (urgent : Bool) (ecc : Ecc) (s : State) : Out :=
  let c := cl.val
  if s.working ∧ s.clusterUp c then
    match s.offered c urgent with
    | none => idle s
    | some e =>
      let o := s.opportunity (clA c 0) 0
      let k := (s.cluster c).intake urgent
      let first := decide (e.pushed = 0)
      if (s.cluster c).quillDead then
        looked s (if first then s.fetchEnds e stAborted 0x14 false
          else s.fetchGone e (hdrNw (e.words.headD 0) + 1) true false)
      else if (fired o.2 3).isSome ∨ ¬ k.room urgent first then looked s o.1
      else if k.skip ∧ ¬ first then looked s (o.1.intakeSkip c e)
      else if s.orphan c urgent e then looked s (o.1.fetchGone e (hdrNw (e.words.headD 0) + 1) true false)
      else
        let s1 := o.1.modIntake c urgent (fun k => { k with skip := false })
        let bad := (fired o.2 9).isSome ∨ ecc = .uncorrectable
        let corr := (fired o.2 8).isSome ∨ ecc = .corrected
        let s2 := if corr then s1.intakeCorr c urgent k.words.length else s1
        looked s (if bad then (s2.intakeUncorr c urgent k.words.length).intakeRewind c urgent e else s2.intakeCommit c urgent e)
  else idle s

/-! ### Flushes (R201, R202) -/

/-- One packet is discarded by a flush: DROP_COUNT of its ring, and its completion. -/
def State.flushPacket (s : State) (c : Nat) (visible : Bool) (w : IntakeWord) : State :=
  (s.ringPut w.ring (.drop false)).endPacket c w visible stAborted 0x12
/-- A flush of an intake, of every instance or of one: its packets are discarded, and a partial packet leaves the intake in
FLUSH_SKIP. -/
def State.flush (s : State) (c : Nat) (urgent : Bool) (inst : Option Nat) : State :=
  let k := (s.cluster c).intake urgent
  let mine (w : IntakeWord) : Bool := match inst with | some t => decide (w.owner = t) | none => true
  let part := s.fetching.any (fun e => decide (e.route = some c ∧ e.urgent = urgent ∧ 0 < e.pushed) &&
    k.words.any (fun w => w.packet = e.packet && mine w))
  let s1 := (k.heads.filter mine).foldl (fun t w => t.flushPacket c (k.complete w) w) s
  s1.modIntake c urgent (fun k => { words := k.words.filter (fun w => !mine w), skip := k.skip || part })
/-- The intakes that a write of CL_INTAKE_FLUSH names are flushed: BULK is bit 0, URGENT bit 1 (R201). -/
def State.flushNamed (s : State) (c : Nat) (w : Word) : State :=
  let s1 := if bit w 0 then s.flush c false none else s
  if bit w 1 then s1.flush c true none else s1
/-- INTAKE_FLUSH_BULK (R201): a write of CL_INTAKE_FLUSH with BULK; one with both bits flushes both intakes. -/
def execIntakeFlushBulk (cl : Fin 16) (a : RpAcc) (s : State) : Out :=
  done s (s.portWrite (clA cl.val Reg.CL_INTAKE_FLUSH) a (fun _ s => if bit a.data 0 then s.flushNamed cl.val a.data else s))
/-- INTAKE_FLUSH_URGENT (R201): a write of CL_INTAKE_FLUSH with URGENT; one with both bits flushes both intakes. -/
def execIntakeFlushUrgent (cl : Fin 16) (a : RpAcc) (s : State) : Out :=
  done s (s.portWrite (clA cl.val Reg.CL_INTAKE_FLUSH) a (fun _ s => if bit a.data 1 then s.flushNamed cl.val a.data else s))

end Sys2Proof.Machine
end

