-- ==== Sys2Proof/Machine/Pop.lean ====
section
/-! DEFINITION. The dispatcher (R198 to R200, R212, R213, R290): what becomes of the packet that it takes from an intake. -/
namespace Sys2Proof.Machine
open Sys2Proof

/-- A packet's first word that the dispatcher takes next, with its intake: the Urgent Intake's visible packet of the lowest
PRIO, the oldest among equals, or the Bulk Intake's first packet if it is visible (R198). -/
def State.popNext (s : State) (c : Nat) : Option (Bool × IntakeWord) :=
  let q := s.cluster c
  let urg := (q.urgent.heads.filter q.urgent.complete).foldl (fun (a : Option IntakeWord) w =>
    match a with
    | none => some w
    | some v => if w.prio < v.prio then some w else a) none
  match urg with
  | some w => some (true, w)
  | none => match q.bulk.heads with
    | w :: _ => if q.bulk.complete w then some (false, w) else none
    | [] => none
/-- Frames of a plane page that a command covers (R116, R192). -/
def Packet.planeFrames (p : Packet) (q : Geo) : Nat :=
  let first := firstFrame q.frames (mawFrame p.maw0)
  if p.opcode = 1 ∨ p.opcode = 0x0C ∨ p.opcode = 0x0D then (if p.fcount = 0 then q.frames - first else p.fcount)
  else if p.opcode = 2 ∨ p.opcode = 4 then q.frames
  else 0
/-- The count of a command runs past its plane page (R192). -/
def Packet.pastPage (p : Packet) (q : Geo) : Bool := q.frames < firstFrame q.frames (mawFrame p.maw0) + p.planeFrames q
/-- A frame before anything has happened to it. -/
def FrameSt.init : FrameSt :=
  { flow := .waiting, ones := none, pass := 0, soft := false, redecoded := false, steps := 0, rewalked := false,
    resensed := false, corr := 0, decoded := none, out := 0 }
/-- The visibility time and the absolute deadline of a packet (R213). -/
def State.deadlineOf (s : State) (c : Nat) (p : Packet) (v : Word) : Word :=
  let w := s.regAt (clA c Reg.CL_SCHED_DEF)
  let dl := if p.deadline ≠ 0 then min p.deadline (2 ^ 30)
    else 100 * (if p.opcode = 1 ∨ p.opcode = 0x0C ∨ p.opcode = 0x0D then fld w 15 0 else fld w 31 16)
  v + BitVec.ofNat 32 dl
/-- The command of a popped packet. -/
def State.newCmd (s : State) (c : Nat) (w : IntakeWord) (p : Packet) (lane frames : Nat) : Cmd :=
  let v : Word := BitVec.ofNat 32 w.seen
  { serial := s.serial, pkt := p, ring := w.ring, cplRing := fld (s.note w.ring) 14 0, owner := w.owner, sqHead := w.sqHead,
    patrol := false, lane := lane, destPart := false, stage := .pending, slabWait := false, v := v, seenAt := w.seen, d := s.deadlineOf c p v,
    field9 := 0, rlOk := false, seq := 0, slabs := [], frames := List.replicate frames FrameSt.init,
    counts := [], claimed := false, dead := [], begun := false, sent := [], verifying := false, blankOrigin := false, result := none,
    units := 0, firstSince := none, stall := 0, denied := false, deferred := false, quill := none, sentAt := 0, moved := false,
    dataErr := none, writesOut := 0, exp := 0, status := 0, detail := 0, data := 0, discard := false }
/-- A handle takes a command. -/
def State.takeHandle (s : State) (c h : Nat) (x : Cmd) : State := { s with serial := s.serial + 1 }.setCmd c h (some x)
/-- The first check of R290 that a FETCH or a RELEASE fails: 1 DOUBLE_FREE, 2 NOT_LEASE, 3 NOT_OWNER, 4 BUSY; or 0. -/
def State.leaseCheck (s : State) (p : Packet) (owner : Nat) : Nat :=
  let n := p.lease
  let x := s.slab n
  if x.st ≠ .held then 1
  else if ¬ x.head ∨ s.nSlabs ≤ n then 2
  else if x.owner ≠ owner ∧ ¬ (p.opcode = 7 ∧ owner = 511) then 3
  else if x.fetching then 4
  else 0
/-- A refused FETCH or RELEASE: its record, its counter and the page's bit (R290). -/
def State.leaseRefuse (s : State) (p : Packet) (owner why : Nat) : State :=
  let s1 := s.iwFree owner p.lease why
  let k := winKey Reg.IW_TN_ERR owner
  if why = 1 then (s1.countField k 15 0 1).raise 0xA000 1
  else if why = 3 then (s1.countField k 31 16 1).raise 0xA000 2
  else s1
/-- A FETCH that passes holds its lease and joins the Mover's queue; a RELEASE that passes frees its lease at once, and
ends OK or, where a slab was poisoned, POISON (R290, R291, R294). -/
def State.leaseTake (s : State) (c h : Nat) (w : IntakeWord) (p : Packet) : State :=
  let l := s.leaseChain p.lease
  let x := s.newCmd c w p (8 * c) 0
  if p.opcode = 6 then
    ((s.modSlab p.lease (fun y => { y with fetching := true })).takeHandle c h
      { x with slabs := l, stage := .staged, quill := some stOk }).toMover c h (p.lease / 512)
  else
    let st := if l.any (fun n => (s.slab n).poison) then stPoison else stOk
    (s.releaseSlabs l).takeHandle c h { x with stage := .staged, quill := some st }
/-- The addresses of the features that the lane keeps for itself: those of CAL_CP_FEAT and LN_RL_FEAT (R192). -/
def State.reservedFeature (s : State) (p : Packet) : Bool :=
  let a := fld p.arg 7 0
  p.opcode = 9 ∧ (a = fld (s.regAt Reg.CAL_CP_FEAT) 7 0 ∨ a = fld (s.regAt (lnA (mawLane p.maw0) Reg.LN_RL_FEAT)) 7 0)
/-- A command enters the pending set of its lane: its key slot is referenced (R334), its tenant may take an entry of the
active table (R216), and a PROGRAM asks for its slabs (R283, R284). -/
def State.enterPending (s : State) (c h : Nat) (x : Cmd) : State :=
  let s1 := s.takeHandle c h x
  let s2 := if x.usesKey then s1.modRefs x.keyNo (· + 1) else s1
  let s3 := s2.tableSync x.lane
  if x.pkt.opcode ≠ 2 then s3
  else if s.quotaMax x.owner < x.frameCount then s3.finish c h stQuota 0
  else s3.allocOne c h
/-- A packet that is refused as it is taken holds its handle until its completion is written (R212). -/
def State.refusePacket (s : State) (c h : Nat) (w : IntakeWord) (p : Packet) (det : Nat) : State :=
  (s.takeHandle c h { s.newCmd c w p (8 * c) 0 with refused := true, quill := some stAborted }).finish c h stAborted det
/-- What becomes of a packet taken from an intake with a free handle. -/
def State.dispatchPacket (s : State) (c h : Nat) (w : IntakeWord) (ws : List (BitVec 512)) : State :=
  let p := packetOf ws
  let fail (t : State) (det : Nat) : State := t.refusePacket c h w p det
  if noMaw p.opcode then
    let why := s.leaseCheck p w.owner
    if why ≠ 0 then fail (s.leaseRefuse p w.owner why) 0x16 else s.leaseTake c h w p
  else match s.clusterCheck p with
    | some r => fail (s.mawReject w.owner r) r.2.2
    | none =>
      let g := mawLane p.maw0
      let q := s.geo g
      if p.pastPage q then fail s 0x0C
      else if s.reservedFeature p then fail s 0x17
      else s.enterPending c h (s.newCmd c w p g (p.planeFrames q * p.maws.length))
/-- INTAKE_POP (R198, R200, R212): the dispatcher takes a visible packet while a handle is free; ecc is what the read of
its words finds. -/
def execIntakePop (cl : Fin 16) (ecc : Ecc) (s : State) : Out :=
  let c := cl.val
  if s.working ∧ s.clusterUp c then
    match s.popNext c, s.lowHandle c with
    | some (urgent, w), some h =>
      let k := (s.cluster c).intake urgent
      let ws := (k.words.filter (fun v => v.packet = w.packet)).map (·.bits)
      let s1 := s.modIntake c urgent (fun k => { k with words := k.words.filter (fun v => v.packet ≠ w.packet) })
      let s2 := if ecc = .corrected then s1.intakeCorr c urgent 0 else s1
      if ecc = .uncorrectable then looked s ((s2.intakeUncorr c urgent 0).refusePacket c h w (packetOf ws) 0x13)
      else looked s (s2.dispatchPacket c h w ws)
    | _, _ => idle s
  else idle s

end Sys2Proof.Machine
end

