-- ==== Sys2Proof/Machine/Commands.lean ====
section
/-! DEFINITION. The end of each command of R192 at its engine: the status that it completes with once its Quill's part and
its data path have ended (R160, R244, R271 to R279, R291, R302, R303). -/
namespace Sys2Proof.Machine
open Sys2Proof

/-! ### What has ended -/

/-- A stroke of a handle waits or runs on its lane, or an array operation of it runs there. -/
def State.onLane (s : State) (g h : Nat) : Bool :=
  let l := s.lane g
  l.committed.any (fun k => k.of h) ||
    l.luns.any (fun e => e.2.progs.contains h || decide (e.2.erase = some h) || (e.2.busy && decide (e.2.handle = some h)))
/-- No frame of a command is under way: each has ended, or waits for a sensing that nothing makes. -/
def Cmd.framesStill (x : Cmd) : Bool := x.frames.all (fun f => f.ended || decide (f.flow = .waiting))
/-- The last descriptor of a command's chain carries END: its data leaves on another port than its completion (R297). -/
def State.chainEnds (s : State) (c : Nat) (x : Cmd) : Bool := decide (s.portOf (x.slabs.headD 0 / 512) ≠ s.portOf c)
/-- The last descriptor of a command's chain carries END or BARRIER (R297). -/
def State.waitsStatuses (s : State) (c : Nat) (x : Cmd) : Bool := bit x.pkt.flags 0 || s.chainEnds c x
/-- The data of a command has been moved: the byte count is zero, and every status has returned where END, BARRIER or an
error waits for them (R302, R303). -/
def State.dataMoved (s : State) (c : Nat) (x : Cmd) : Bool :=
  x.moved && (decide (x.writesOut = 0) || (!s.waitsStatuses c x && x.dataErr.isNone))
/-- The command completes with a status, or with the error of its data (R303). -/
def State.complete (s : State) (c h st det : Nat) : State :=
  match (s.cmd? c h).bind (·.dataErr) with
  | some e => s.finish c h e.1 e.2
  | none => s.finish c h st det
/-- A command of an instance under reset that does not run to a media result ends once its Quill's part has ended and
nothing of it is left on its lane (R390). -/
def State.discardEnd (s : State) (c h : Nat) (x : Cmd) : State :=
  if x.quill.isSome ∧ ¬ s.onLane x.lane h then s.abort c h stAborted 0 else s
/-- A command of an opcode whose handle holds it acts, unless it has completed. -/
def State.opEnd (s : State) (cl : Fin 16) (hd : Fin 2048) (op : Nat) (f : Cmd → State) : Out :=
  match s.cmd? cl.val hd.val with
  | some x =>
    if s.working ∧ s.clusterUp cl.val ∧ x.pkt.opcode = op ∧ x.stage ≠ .ready then
      looked s (if x.discard ∧ ¬ x.runsOn then s.discardEnd cl.val hd.val x else f x)
    else idle s
  | none => idle s

/-! ### Reads -/

/-- The status of a read's data path: POISON, ECC_FAIL, or OK (R207, R248, R291). -/
def State.readStatus (s : State) (x : Cmd) : Nat × Nat :=
  if s.anyPoison x then (stPoison, 0)
  else if x.frames.any FrameSt.bad then (stEcc, x.eccDetail)
  else (stOk, 0)
/-- A command that moves data to the host ends: its Quill's status when that is not OK, the data path's otherwise (R160,
R302). -/
def State.readEnd (s : State) (c h : Nat) (x : Cmd) (still : Bool) : State :=
  match x.quill with
  | none => s
  | some st =>
    let moving := x.stage = .moving ∨ x.stage = .staged
    if st ≠ stOk then
      if moving ∧ ¬ s.dataMoved c x then s
      else if moving ∨ (still ∧ ¬ s.onLane x.lane h) then s.complete c h st x.detail.toNat else s
    else if x.allEnded ∧ s.dataMoved c x then
      let r := s.readStatus x
      s.complete c h r.1 r.2
    else s
/-- READ (R192, R244, R302): completes with its Quill's status or its data path's. -/
def execOpRead (cl : Fin 16) (h : Fin 2048) (s : State) : Out :=
  s.opEnd cl h 1 (fun x => s.readEnd cl.val h.val x x.framesStill)
/-- RAW_READ (R249). -/
def execOpRawRead (cl : Fin 16) (h : Fin 2048) (s : State) : Out :=
  s.opEnd cl h 0x0C (fun x => s.readEnd cl.val h.val x x.framesStill)
/-- PATROL_SAMPLE (R249, R364): no transfer; ECC_FAIL where a frame failed. A sample of Patrol is classified as it ends. -/
def execOpPatrolSample (cl : Fin 16) (h : Fin 2048) (s : State) : Out :=
  s.opEnd cl h 0x0D (fun x =>
    match x.quill with
    | none => s
    | some st =>
      if st ≠ stOk then
        if x.framesStill ∧ ¬ s.onLane x.lane h.val then s.finish cl.val h.val st x.detail.toNat else s
      else if x.allEnded then
        let bad := if x.patrol then x.frames.any (fun f => f.flow = .failed) else x.frames.any FrameSt.bad
        if bad then s.finish cl.val h.val stEcc x.eccDetail else s.finish cl.val h.val stOk 0
      else s)
/-- FETCH (R290, R291): completes once its lease has been written; a poisoned lease completes POISON. -/
def execOpFetch (cl : Fin 16) (h : Fin 2048) (s : State) : Out :=
  s.opEnd cl h 6 (fun x =>
    if s.dataMoved cl.val x then s.complete cl.val h.val (if s.anyPoison x then stPoison else stOk) 0 else s)
/-- RELEASE (R290, R291): completes with the lease freed. -/
def execOpRelease (cl : Fin 16) (h : Fin 2048) (s : State) : Out :=
  s.opEnd cl h 7 (fun x => s.finish cl.val h.val (x.quill.getD stOk) 0)
/-- IDENTIFY (R192, R294): once its Quill's part has ended its bytes are ready to move; it completes when they have been. -/
def execOpIdentify (cl : Fin 16) (h : Fin 2048) (s : State) : Out :=
  let c := cl.val
  s.opEnd cl h 0x0A (fun x =>
    match x.quill with
    | none => s
    | some st =>
      if st ≠ stOk then s.complete c h.val st x.detail.toNat
      else if x.stage = .service then
        if s.anyPoison x then s.finish c h.val stPoison 0
        else (s.modCmd c h.val (fun y => { y with stage := .staged })).toMover c h.val c
      else if s.dataMoved c x then s.complete c h.val (if s.anyPoison x then stPoison else stOk) 0
      else s)

/-! ### Commands without data -/

/-- A command without data completes with its Quill's status. -/
def State.plainEnd (s : State) (c h : Nat) (x : Cmd) : State :=
  match x.quill with
  | some st => s.finish c h st x.detail.toNat
  | none => s
/-- GET_FEATURE (R192): its DATA is what its strokes read. -/
def execOpGetFeature (cl : Fin 16) (h : Fin 2048) (s : State) : Out := s.opEnd cl h 8 (fun x => s.plainEnd cl.val h.val x)
/-- SET_FEATURE (R192). -/
def execOpSetFeature (cl : Fin 16) (h : Fin 2048) (s : State) : Out := s.opEnd cl h 9 (fun x => s.plainEnd cl.val h.val x)
/-- RESET_DIE (R192). -/
def execOpResetDie (cl : Fin 16) (h : Fin 2048) (s : State) : Out := s.opEnd cl h 0x0B (fun x => s.plainEnd cl.val h.val x)

/-! ### The blank check (R271, R279, R440) -/

/-- Density and class of a page from its frames' ones counts (R279). -/
def State.blankClass (s : State) (counts : List Nat) : Nat × Nat :=
  let n := 37376 * counts.length
  let sum := counts.foldl (· + ·) 0
  let zmax := counts.foldl (fun a k => max a (37376 - k)) 0
  let density := min 65535 (65536 * sum / n)
  let th := s.regAt Reg.DF_BLANK_TH
  let cls := if fld th 31 16 ≤ density ∧ zmax ≤ fld (s.regAt Reg.DF_BLANK_ERR) 15 0 then 0
    else if density < fld th 15 0 then 2 else 1
  (cls, density)
/-- The counts of one plane among those of a blank check. -/
def Cmd.planeCounts (x : Cmd) (plane : Nat) : List Nat := (x.counts.filter (fun k => k / 65536 = plane)).map (· % 65536)
/-- BLANK_CHECK (R279). -/
def execOpBlankCheck (cl : Fin 16) (h : Fin 2048) (s : State) : Out :=
  let c := cl.val
  s.opEnd cl h 5 (fun x =>
    match x.quill with
    | none => s
    | some st =>
      let l := x.planeCounts (mawPlane x.pkt.maw0)
      if st ≠ stOk then s.finish c h.val st x.detail.toNat
      else if l.length < (s.geo x.lane).frames then s
      else
        let k := s.blankClass l
        let s1 := if k.1 = 1 then s.count (lnA x.lane Reg.LN_BLANK_PARTIAL) else s
        (s1.modCmd c h.val (fun y => { y with data := BitVec.ofNat 32 (k.1 + 65536 * k.2) })).finish c h.val stOk 0)
/-- The blank check of a program has counted every frame of the planes that it checks, those whose records are VERIFYING (R271). -/
def State.verifyCounted (s : State) (x : Cmd) : Bool :=
  match s.frPeek (mawDie (x.frMaws.headD 0)) with
  | none => true
  | some l => x.frMaws.all (fun m =>
    match frFind l ((s.geo (mawLane m)).dieBlock m) with
    | some i => (l.getD i frFree).st != 2 || decide ((s.geo x.lane).frames ≤ (x.planeCounts (mawPlane m)).length)
    | none => true)
/-- The planes of a command whose records are VERIFYING; none where they cannot be read. -/
def State.verifyPlanes (s : State) (c : Nat) (x : Cmd) (cc : CcFault) : State × Option (List (BitVec 64)) :=
  let die := mawDie (x.frMaws.headD 0)
  let q := s.frSlots (unitCluster c) die cc
  (q.1, q.2.map (fun l => x.frMaws.filter (fun m =>
    match frFind l ((s.geo (mawLane m)).dieBlock m) with
    | some i => decide ((l.getD i frFree).st = 2)
    | none => false)))
/-- A VERIFYING record becomes OPEN with BLANK_ORIGIN and OPEN_TIME (R267, R271 step 4); whether it could be written. -/
def State.verified (s : State) (c : Nat) (m : BitVec 64) (cc : CcFault) : State × Bool :=
  let u := unitCluster c
  let q := s.frSlots u (mawDie m) cc
  match q.2 with
  | none => (q.1, false)
  | some l => match frFind l ((s.geo (mawLane m)).dieBlock m) with
    | some i => q.1.frPut u (mawDie m) i { (l.getD i frFree) with st := 1, blank := true, time := s.us.toNat } cc
    | none => (q.1, true)
/-- A blank check fails, or meets a store error: its slots are freed and the command completes NOT_ERASED (R271 step 5,
R440). -/
def State.verifyFail (s : State) (c h : Nat) (x : Cmd) (store : Bool) (cc : CcFault) : State :=
  let r := s.unverify c h cc
  let m := x.frMaws.headD 0
  let s1 := if store ∨ ¬ r.2 then r.1.frStore x.owner (mawDie m) ((s.geo (mawLane m)).dieBlock m) else r.1
  (s1.count (lnA x.lane Reg.LN_FR_REFUSE)).finish c h stNotErased 0
/-- The blank check of a PROGRAM ends (R271 steps 3 to 5): all ERASED, its records open and it returns to the pending set;
otherwise it completes NOT_ERASED. -/
def State.verifyEnd (s : State) (c h : Nat) (x : Cmd) (cc : CcFault) : State :=
  if ¬ s.verifyCounted x then s else
  let v := s.verifyPlanes c x cc
  match v.2 with
  | none => v.1.verifyFail c h x true cc
  | some ms =>
    let got (m : BitVec 64) : List Nat := x.planeCounts (mawPlane m)
    if ms.any (fun m => decide ((s.blankClass (got m)).1 ≠ 0)) then v.1.verifyFail c h x false cc
    else
      let r := ms.foldl (fun (a : State × Bool) m => if a.2 then a.1.verified c m cc else a) (v.1, true)
      if ¬ r.2 then r.1.verifyFail c h x true cc
      else
        (r.1.modCmd c h (fun y =>
          { y with verifying := false, blankOrigin := true, stage := .pending, quill := none, counts := [], units := 0,
                   slabWait := false })).tableSync x.lane

/-! ### Programs, erases and copies -/

/-- A claim that no stroke will serve is given up, because the Quill's part has ended without one: a program cancels it and
those above it, an erase frees its records (R273, R274; log entry 29). -/
def State.unclaim (s : State) (c h : Nat) (x : Cmd) (st : Nat) : State :=
  if x.pkt.opcode = 3 then (s.resultApplied c h stAborted false .clean).finish c h st x.detail.toNat
  else
    let r := s.cancelClaims c h .clean
    r.2.foldl (fun t e => if e = (c, h) then t else t.finish e.1 e.2 stAborted 0) (r.1.finish c h st x.detail.toNat)
/-- The end of a claimed program or erase: its Quill's status when that is not OK, the media result otherwise; POISON where
a slab of a program is poisoned and the media did not fail (R160, R272, R291). -/
def State.writeEnd (s : State) (c h : Nat) (x : Cmd) : State :=
  match x.quill, x.result with
  | some st, some r =>
    if st ≠ stOk then s.finish c h st x.detail.toNat
    else if x.pkt.opcode ≠ 3 ∧ r = stOk ∧ s.anyPoison x then s.finish c h stPoison 0
    else s.finish c h r (if r = stTimeout then 1 else 0)
  | some st, none => if st ≠ stOk ∧ ¬ s.onLane x.lane h then s.unclaim c h x st else s
  | none, _ => s
/-- PROGRAM (R272, R304): completes with its result, with the error of its data before it is selected, or goes on from its
blank check; cc says that a fill of a record's line fails. -/
def execOpProgram (cl : Fin 16) (h : Fin 2048) (s : State) (cc : CcFault := .clean) : Out :=
  let c := cl.val
  s.opEnd cl h 2 (fun x =>
    if x.stage = .pending then (if x.dataErr.isSome then s.complete c h.val stHostErr 2 else s)
    else if x.verifying then
      match x.quill with
      | some st => if st ≠ stOk then s.abort c h.val st x.detail.toNat else s.verifyEnd c h.val x cc
      | none => s
    else s.writeEnd c h.val x)
/-- ERASE (R274). -/
def execOpErase (cl : Fin 16) (h : Fin 2048) (s : State) : Out :=
  s.opEnd cl h 3 (fun x => if x.stage = .pending then s else s.writeEnd cl.val h.val x)
/-- A COPY whose source has been read goes to its destination lane: it takes the lowest free handle of the destination's
cluster, and its frames are enciphered there (R278, R335; log entry 30). -/
def State.toDestination (s : State) (c h : Nat) (x : Cmd) : State :=
  let d := mawCluster x.pkt.maw1
  match (if d = c then some h else s.lowHandle d) with
  | none => s
  | some k =>
    let y : Cmd := { x with destPart := true, lane := mawLane x.pkt.maw1, stage := .pending, quill := none, moved := false,
                            slabWait := false, denied := false, firstSince := none,
                            frames := x.frames.map (fun f => { f with flow := .waitCipher }) }
    let s1 := ((s.setCmd c h none).setCmd d k (some y)).modCluster d (fun q =>
      { q with encipher := q.encipher ++ (List.range x.frames.length).map (fun j => (k, j)) })
    (s1.tableSync x.lane).tableSync y.lane
/-- COPY (R24, R25, R278): a failed source completes with ECC_FAIL; a good one goes to its destination, whose result is the
command's. -/
def execOpCopy (cl : Fin 16) (h : Fin 2048) (s : State) : Out :=
  let c := cl.val
  s.opEnd cl h 4 (fun x =>
    if x.stage = .pending then s
    else if x.destPart then s.writeEnd c h.val x
    else match x.quill with
      | none => s
      | some st =>
        if st ≠ stOk then
          if x.framesStill ∧ ¬ s.onLane x.lane h.val then s.finish c h.val st x.detail.toNat else s
        else if ¬ x.allEnded then s
        else if s.anyPoison x then s.finish c h.val stPoison 0
        else if x.frames.any FrameSt.bad then s.finish c h.val stEcc x.eccDetail
        else s.toDestination c h.val x)

end Sys2Proof.Machine
end

