-- ==== Sys2Proof/Machine/Mover.lean ====
section
/-! DEFINITION. The Mover (R293 to R310): the command pool, the funnel's requests, the Manager channels with their
descriptors, triggers and hand-over. What the host's beats and statuses do is applied by Machine/HostPort.lean. -/
namespace Sys2Proof.Machine
open Sys2Proof

/-! ### Channels (R293, R310) -/

/-- MAX_OUT of the active configuration: 0 and values above 64 act as 64. -/
def Channel.maxOut (x : Channel) : Nat :=
  let n := fld x.active 6 0
  if n = 0 ∨ 64 < n then 64 else n
/-- A channel belongs to the command pool. -/
def State.isPool (s : State) (ch : Nat) : Bool := ch < 64 - min 32 (fld s.glb.mvCfg 5 0)
/-- PENDING of a channel. -/
def State.cfgPending (s : State) (ch : Nat) : Bool := bit (s.regAt (mvA ch Reg.MV_CH_STAT)) 8
/-- The hand-over of a channel's configuration, if PENDING is 1 (R310). -/
def State.castleCh (s : State) (ch : Nat) : State :=
  if s.cfgPending ch then
    (s.modChannel ch (fun x => { x with active := s.regAt (mvA ch Reg.MV_CH_CFG), handAt := some s.time.toNat })).modReg (mvA ch Reg.MV_CH_STAT) (fun w =>
      putFld w 8 8 0)
  else s
/-- σ of R301: the host offset that slab or source byte j goes to, and back. -/
def swapOff (swap j : Nat) : Nat :=
  match swap with
  | 1 => j / 4 * 4 + (3 - j % 4)
  | 2 => j / 8 * 8 + (7 - j % 8)
  | 3 => if j / 2 % 2 = 0 then j + 2 else j - 2
  | _ => j

/-! ### Requests of the funnel (R31, R298) -/

/-- Bytes of the next request of a range: up to its end, or to a 4 KiB boundary. -/
def pieceLen (a rest : Nat) : Nat := min rest (4096 - a % 4096)
/-- Beats that cover n bytes from an address. -/
def beatCount (a n : Nat) : Nat := (a % 128 + n + 127) / 128
/-- The write beats that carry some bytes at an address. -/
def writeBeats (a : Nat) (bytes : List Byte) : List WBeat :=
  (List.range (beatCount a bytes.length)).map (fun i =>
    if i = 0 then beatOf (a % 128) (bytes.take (128 - a % 128))
    else beatOf 0 ((bytes.drop (128 * i - a % 128)).take 128))
/-- A write of some bytes. -/
def hpWrite (a : Nat) (bytes : List Byte) (i : Issuer) (slab : Nat) : HpReq :=
  { wr := true, addr := beatAddr a, len := beatCount a bytes.length, cls := 0, issuer := i, beats := writeBeats a bytes,
    dest := slab, off := 0, count := bytes.length }
/-- A read of n bytes whose first is byte off of its descriptor. -/
def hpRead (a n : Nat) (i : Issuer) (dest off : Nat) : HpReq :=
  { wr := false, addr := beatAddr a, len := beatCount a n, cls := 0, issuer := i, beats := [], dest := dest, off := off,
    count := n }

/-! ### The chain of a command (R296, R297) -/

/-- A descriptor between slab bytes and a host range. -/
def slabDesc (slab off : Nat) (host : BitVec 64) (len swap : Nat) : Desc :=
  { slab := slab, sideOff := off, host := host, src := 0, fill := none, len := len, swap := swap,
    barrier := false, end_ := false, irq := false, trig := false, next := 0 }
/-- SWAP of a command. -/
def Cmd.swap (x : Cmd) : Nat := fld x.pkt.flags 6 5
/-- A host address some bytes on. -/
def plus (a : BitVec 64) (n : Nat) : BitVec 64 := a + BitVec.ofNat 64 n
/-- The descriptors of frame k: its payload, and its metadata where META_ADDR is not zero. -/
def Cmd.frameDescs (x : Cmd) (slab k : Nat) : List Desc :=
  slabDesc slab 0 (plus x.pkt.buf (4096 * k)) 4096 x.swap ::
    (if x.pkt.metaAddr = 0 then [] else [slabDesc slab (4096 + 24) (plus x.pkt.metaAddr (40 * k)) 40 0])
/-- The chain of a command. -/
def Cmd.descs (x : Cmd) : List Desc :=
  match x.pkt.opcode with
  | 1 => x.frames.zipIdx.flatMap (fun e => if e.1.ok then x.frameDescs (x.slabFor e.2) e.2 else [])
  | 2 => (List.range x.frames.length).flatMap (fun k => x.frameDescs (x.slabFor k) k)
  | 6 => x.slabs.zipIdx.flatMap (fun e => x.frameDescs e.1 e.2)
  | 0x0A => [slabDesc (x.slabs.headD 0) 0 x.pkt.buf 1024 x.swap]
  | 0x0C => (List.range x.frames.length).flatMap (fun k =>
      [slabDesc (x.slabs.getD (2 * k) 0) 0 (plus x.pkt.buf (4672 * k)) 4160 x.swap,
       slabDesc (x.slabs.getD (2 * k + 1) 0) 0 (plus x.pkt.buf (4672 * k + 4160)) 512 x.swap])
  | _ => []
/-- Byte j of a slab: its payload, then its side area. -/
def Slab.byte (x : Slab) (j : Nat) : Byte := if j < 4096 then byteAt x.payload j else byteAt x.side (j - 4096)

/-! ### CHANNEL_TAKE (R294) -/

/-- Pool channels busy on a port. -/
def State.busyOn (s : State) (p : Nat) : Nat :=
  ((List.range 64).filter (fun ch => s.isPool ch && (s.channel ch).cmd.isSome && decide ((s.channel ch).port = p))).length
/-- PORT_CH: 0 acts as 1. -/
def State.portCh (s : State) : Nat := atLeast1 (fld s.glb.mvCfg 13 8)
/-- The port whose queue's first command is the oldest among the ports with a channel to spare; the lower port among equals. -/
def State.takePort (s : State) : Option (Nat × Nat × Nat × Nat) :=
  (List.range 4).foldl (fun (a : Option (Nat × Nat × Nat × Nat)) p =>
    match (s.port p).moverQ with
    | e :: _ => if s.busyOn p < s.portCh then
        match a with
        | some b => if e.2.2 < b.2.2.2 then some (p, e) else a
        | none => some (p, e)
      else a
    | [] => a) none
/-- CHANNEL_TAKE (R294, R296, R310): the lowest-numbered free pool channel takes the oldest command ready to move. -/
def execChannelTake (s : State) : Out :=
  if s.working then
    match (List.range 64).find? (fun ch => s.isPool ch && (s.channel ch).cmd.isNone), s.takePort with
    | some ch, some (p, c, h, _) =>
      let s1 := (s.modPort p (fun q => { q with moverQ := q.moverQ.drop 1 })).castleCh ch
      match s1.cmd? c h with
      | none => done s s1
      | some x =>
        let per := 4096 + if x.pkt.metaAddr = 0 then 0 else 40
        let s2 := s1.modCmd c h (fun y =>
          if y.pkt.opcode = 2 then { y with counts := List.replicate y.frames.length per } else { y with stage := .moving })
        done s (s2.modChannel ch (fun q =>
          { q with st := .active, cmd := some (c, h, x.serial), port := p, chain := x.descs, issued := 0,
                   stop := false }))
    | _, _ => idle s
  else idle s

/-! ### Residues and the end of a transfer (R302 to R305) -/

/-- A request of a channel has not left its port: it waits to be accepted, or some of its beats do. -/
def State.unsent (s : State) (p : Nat) (f : Issuer → Bool) (writes : Bool) : Bool :=
  let q := s.port p
  q.queue.any (fun r => f r.issuer) ||
    (writes && q.wdata.any (fun e => match Tab.getD (fun _ => none) q.writes e.1 with
      | some o => f o.req.issuer
      | none => false))
/-- A pool channel is free again. -/
def State.freeChannel (s : State) (ch : Nat) : State :=
  s.modChannel ch (fun q => { q with st := .idle, cmd := none, chain := [], issued := 0, stop := false })
/-- An issuer is a pool channel's command. -/
def ofCmd (c h ser : Nat) (i : Issuer) : Bool :=
  match i with
  | .mover _ h' c' ser' => decide (h' = h ∧ c' = c ∧ ser' = ser)
  | _ => false
/-- An error of a command's data: its channel issues no further request. The first error stands, but a port time-out takes the
place of an error status (R303, R304). -/
def State.dataFail (s : State) (c h : Nat) (st det : Nat) : State :=
  match s.cmd? c h with
  | none => s
  | some x =>
    (s.withdraw (fun r => ofCmd c h x.serial r.issuer)).modCmd c h (fun y =>
      let e := if st = stTimeout then (st, det) else y.dataErr.getD (st, det)
      { y with dataErr := some e, status := if y.stage = .ready then e.1 else y.status,
               detail := if y.stage = .ready then BitVec.ofNat 8 e.2 else y.detail })
/-- A trigger is consumed, if one waits for it (R309). -/
def State.trigTake (s : State) (ch : Nat) : State :=
  s.modChannel ch (fun x => if x.st = .trigWait ∧ 0 < x.trigPend then { x with st := .active, trigPend := x.trigPend - 1 } else x)
/-- A trigger event is counted on a channel: at 255 it sets TRIG_OVF. -/
def State.trigger (s : State) (ch : Nat) : State :=
  if (s.channel ch).trigPend = 255 then (s.orReg (mvA ch Reg.MV_CH_STAT) (flag true 10)).raise (mvA ch 0) 4
  else (s.modChannel ch (fun x => { x with trigPend := x.trigPend + 1 })).trigTake ch
/-- The event reaches every Manager channel whose TRIG_SRC chooses it. -/
def State.triggerAll (s : State) (f : Word → Bool) : State :=
  ((List.range 64).filter (fun ch => !s.isPool ch && f (s.channel ch).active)).foldl State.trigger s
/-- A pool channel whose requests have all been issued and accepted is free; the byte count of a transfer to the host is
then zero, and an END descriptor's end is an event (R294, R302, R309). -/
def State.poolCheck (s : State) (ch : Nat) : State :=
  let x := s.channel ch
  match x.cmd with
  | none => s
  | some (c, h, ser) =>
    match s.cmd? c h with
    | none => s.freeChannel ch
    | some y =>
      if y.serial ≠ ser then s.freeChannel ch
      else if (¬ x.chain.isEmpty ∧ y.dataErr.isNone ∧ y.stage ≠ .ready) ∨ s.unsent x.port (ofCmd c h ser) (y.pkt.opcode ≠ 2) then s
      else
        let s1 := s.freeChannel ch
        if y.pkt.opcode = 2 then s1
        else
          let s2 := s1.modCmd c h (fun z => { z with moved := true })
          if y.dataErr.isNone ∧ y.stage ≠ .ready ∧ s.chainEnds c y then s2.triggerAll (fun w => decide (fld w 19 16 = 9 ∧ fld w 29 24 = ch))
          else s2

/-! ### Manager channels (R307 to R309) -/

/-- An issuer is a Manager channel. -/
def ofChannel (ch : Nat) (i : Issuer) : Bool :=
  match i with
  | .manager k => k = ch
  | .descriptor k => k = ch
  | _ => false
/-- The read of a channel's next descriptor is requested. -/
def State.descPush (s : State) (ch : Nat) : State :=
  let x := s.channel ch
  (s.modChannel ch (fun y => { y with got := 0, out := y.out + 1 })).hpPush x.port (hpRead x.cur.toNat 32 (.descriptor ch) 0 0)
/-- A channel fetches a descriptor, with a hand-over before it; the read waits for MOVER_REQUEST while MAX_OUT requests are
outstanding (R294, R310). -/
def State.descAsk (s : State) (ch : Nat) (a : BitVec 64) : State :=
  let s1 := s.castleCh ch
  let s2 := s1.modChannel ch (fun x => { x with st := .fetch, cur := a, chain := [], issued := 0, buffer := [], got := 4,
                                                port := fld x.active 9 8 })
  if (s2.channel ch).out < (s2.channel ch).maxOut then s2.descPush ch else s2
/-- A descriptor has ended: DONE with END or IRQ; with END the channel is IDLE and its end is an event, else the next one is
fetched. -/
def State.descDone (s : State) (ch : Nat) (d : Desc) : State :=
  let s1 := if d.irq ∨ d.end_ then s.raise (mvA ch 0) 1 else s
  if d.end_ then
    (s1.modChannel ch (fun x => { x with st := .idle, chain := [], issued := 0, buffer := [] })).triggerAll (fun w =>
      decide (fld w 19 16 = 9 ∧ fld w 29 24 = ch))
  else s1.descAsk ch d.next
/-- A Manager channel goes on once requests have been accepted or answered (R308): a halted or stopped one once every
outstanding answer has come, an active one when its count is zero, a draining one when every status has returned. -/
def State.chanCheck (s : State) (ch : Nat) : State :=
  let x := s.channel ch
  if x.stop then
    if x.out ≠ 0 then s
    else if x.st = .stopping then s.modChannel ch (fun y => { y with st := .idle, cause := 7, stop := false, chain := [], buffer := [], issued := 0 })
    else (s.modChannel ch (fun y => { y with st := .halted, stop := false, chain := [], buffer := [], issued := 0 })).raise (mvA ch 0) 2
  else match x.st, x.chain with
    | .active, d :: _ =>
      if x.issued < d.len ∨ s.unsent x.port (ofChannel ch) true then s
      else if d.barrier ∨ d.end_ then
        let s1 := s.modChannel ch (fun y => { y with st := .drain })
        if x.out = 0 then s1.descDone ch d else s1
      else s.descDone ch d
    | .drain, d :: _ => if x.out = 0 then s.descDone ch d else s
    | _, _ => s
/-- A Manager channel issues no request after the next beat boundary: those that no port presents yet are withdrawn (R308). -/
def State.chanStop (s : State) (ch : Nat) : State :=
  (s.modChannel ch (fun y => { y with stop := true })).withdraw (fun r => ofChannel ch r.issuer)
/-- A Manager channel meets an error: it issues no further request and halts with its cause (R308). -/
def State.chanHalt (s : State) (ch cause : Nat) : State :=
  let x := s.channel ch
  if x.stop ∨ x.st = .idle ∨ x.st = .halted then s
  else ((s.chanStop ch).modChannel ch (fun y => { y with cause := cause })).chanCheck ch
/-- A write of MV_CH_CMD with one bit set, on a Manager channel. -/
def State.chanCmd (s : State) (ch : Nat) (b : Nat) (a : RpAcc) (f : State → State) : State :=
  s.portWrite (mvA ch Reg.MV_CH_CMD) a (fun _ s => if fld a.data 2 0 = b ∧ ¬ s.isPool ch then f s else s)
/-- START (R307): an IDLE channel fetches the descriptor at MV_CH_DESC. -/
def execStart (ch : Fin 64) (a : RpAcc) (s : State) : Out :=
  let n := ch.val
  done s (s.chanCmd n 1 a (fun t =>
    if (t.channel n).st = .idle ∧ t.glb.mode ≠ .endgame then
      t.descAsk n (BitVec.ofNat 64 ((t.regAt (mvA n Reg.MV_CH_DESC_LO)).toNat + 2 ^ 32 * (t.regAt (mvA n Reg.MV_CH_DESC_HI)).toNat))
    else t))
/-- STOP (R308). -/
def execStop (ch : Fin 64) (a : RpAcc) (s : State) : Out :=
  let n := ch.val
  done s (s.chanCmd n 2 a (fun t =>
    let x := t.channel n
    if x.st = .idle ∨ x.st = .halted ∨ x.st = .stopping then t
    else ((t.chanStop n).modChannel n (fun y => { y with st := .stopping })).chanCheck n))
/-- MV_CLEAR (R308): HALTED or IDLE becomes IDLE, with CAUSE and TRIG_PEND cleared. -/
def execMvClear (ch : Fin 64) (a : RpAcc) (s : State) : Out :=
  let n := ch.val
  done s (s.chanCmd n 4 a (fun t =>
    let x := t.channel n
    if x.st = .idle ∨ x.st = .halted then t.modChannel n (fun y => { y with st := .idle, cause := 0, trigPend := 0 }) else t))

/-- The bytes of an arrived descriptor as a number. -/
def Channel.descNat (x : Channel) : Nat := leNat ((List.range 32).map (fun k => Tab.getD (fun _ => 0) x.buffer k))
/-- A descriptor's fields (R307). -/
def descOf (n : Nat) : Desc :=
  let b : BitVec 256 := BitVec.ofNat 256 n
  { slab := 0, sideOff := 0, host := BitVec.ofNat 64 (fld b 191 128), src := BitVec.ofNat 64 (fld b 127 64),
    fill := if bit b 0 then some (BitVec.ofNat 64 (fld b 127 64)) else none, len := fld b 52 32, swap := fld b 4 3,
    barrier := bit b 1, end_ := bit b 2, irq := bit b 5, trig := bit b 6, next := BitVec.ofNat 64 (fld b 255 192) }
/-- Two host ranges of a length meet. -/
def overlap (a b len : Nat) : Bool := a < b + len ∧ b < a + len
/-- A descriptor fails its format check (R301, R307). -/
def descBad (n trigSrc : Nat) : Bool :=
  let d := descOf n
  let b : BitVec 256 := BitVec.ofNat 256 n
  decide (fld b 31 7 ≠ 0 ∨ fld b 63 53 ≠ 0 ∨ d.len = 0 ∨ 2 ^ 52 ≤ d.host.toNat) ||
    (d.fill.isNone && decide (2 ^ 52 ≤ d.src.toNat)) || (d.fill.isSome && decide (d.swap ≠ 0)) ||
    (!d.end_ && decide (2 ^ 52 ≤ d.next.toNat ∨ d.next.toNat % 32 ≠ 0)) ||
    (d.trig && decide (trigSrc = 0 ∨ 10 ≤ trigSrc)) ||
    (d.fill.isNone && overlap d.src.toNat d.host.toNat d.len) ||
    (d.fill.isNone && decide ((d.swap = 2 ∧ d.len % 8 ≠ 0) ∨ (d.swap ≠ 0 ∧ d.len % 4 ≠ 0)))
/-- DESCRIPTOR_FETCH (R307, R308): the descriptor that has arrived is checked; the channel halts, waits for a trigger, or
runs it. -/
def execDescriptorFetch (ch : Fin 64) (s : State) : Out :=
  let n := ch.val
  let x := s.channel n
  if s.awake ∧ s.glb.mode ≠ .endgame ∧ x.st = .fetch ∧ ¬ x.stop then
    match x.got with
    | 1 =>
      let v := x.descNat
      if descBad v (fld x.active 19 16) then done s (s.chanHalt n 2)
      else
        let d := descOf v
        let s1 := s.modChannel n (fun y => { y with st := if d.trig then .trigWait else .active, chain := [d], issued := 0, got := 0,
                                                    buffer := [] })
        done s (s1.trigTake n)
    | 2 => done s (s.chanHalt n 1)
    | _ => idle s
  else idle s

/-! ### MOVER_REQUEST (R295, R298, R301, R305) -/

/-- The next request of a transfer to the host, with the slab bytes as they are read. -/
def State.poolWrite (s : State) (ch c h ser : Nat) (d : Desc) (rest : List Desc) : State :=
  let x := s.channel ch
  let a := d.host.toNat + x.issued
  let n := pieceLen a (d.len - x.issued)
  let sl := s.slab d.slab
  let bytes := (List.range n).map (fun i => sl.byte (d.sideOff + swapOff d.swap (x.issued + i)))
  let all := x.issued + n = d.len
  ((s.modChannel ch (fun y => { y with chain := if all then rest else y.chain, issued := if all then 0 else y.issued + n,
                                       out := y.out + 1 })).hpPush x.port (hpWrite a bytes (.mover ch h c ser) (d.slab + 1))).modCmd
    c h (fun y => { y with writesOut := y.writesOut + 1 })
/-- The next read request of a PROGRAM's data; dest names the slab, and its side area by the low bit. -/
def State.poolRead (s : State) (ch c h ser : Nat) (d : Desc) (rest : List Desc) : State :=
  let x := s.channel ch
  let a := d.host.toNat + x.issued
  let n := pieceLen a (d.len - x.issued)
  let all := x.issued + n = d.len
  (s.modChannel ch (fun y => { y with chain := if all then rest else y.chain, issued := if all then 0 else y.issued + n,
                                      out := y.out + 1 })).hpPush x.port
    (hpRead a n (.mover ch h c ser) (2 * d.slab + if d.sideOff = 0 then 0 else 1) x.issued)
/-- A residue error of a channel: its record and the page's bit, and the end of its command's transfer or of its chain
(R305). -/
def State.mvResidue (s : State) (ch : Nat) : State :=
  let x := s.channel ch
  match x.cmd with
  | some (c, h, _) =>
    let y := s.cmd? c h
    let s1 := (s.blot 0xB000 0x0C (y.map (·.owner)) [BitVec.ofNat 32 ch]).raise 0xB000 2
    let pull := (y.map (fun z => decide (z.pkt.opcode = 2))).getD false
    (s1.dataFail c h (if pull then stHostErr else stWriteErr) (if pull then 2 else 0)).poolCheck ch
  | none => (((s.blot 0xB000 0x0C none [BitVec.ofNat 32 ch]).raise 0xB000 2)).chanHalt ch 6
/-- Some bytes written into a slab by their offsets. -/
def Slab.putAll (x : Slab) (l : List (Nat × Byte)) : Slab :=
  let put (m v : Nat) (l : List (Nat × Byte)) : Nat :=
    l.foldl (fun a e => a - (a >>> (8 * e.1)) % 256 * 2 ^ (8 * e.1) + e.2.toNat * 2 ^ (8 * e.1)) (v % 2 ^ m)
  let lo := l.filter (fun e => e.1 < 4096)
  let hi := (l.filter (fun e => 4096 ≤ e.1)).map (fun e => (e.1 - 4096, e.2))
  { x with payload := if lo.isEmpty then x.payload else BitVec.ofNat 32768 (put 32768 x.payload.toNat lo),
           side := if hi.isEmpty then x.side else BitVec.ofNat 512 (put 512 x.side.toNat hi) }
/-- A frame of a PROGRAM is in its slab: inline metadata is placed, and the frame waits for a cipher engine (R284, R296). -/
def State.framePulled (s : State) (c h k : Nat) (x : Cmd) : State :=
  let m := (x.pkt.metaBytes.drop (40 * k)).take 40
  let s1 := if x.pkt.metaBytes.isEmpty then s
    else s.modSlab (x.slabFor k) (fun y => y.putAll (m.zipIdx.map (fun e => (4096 + 24 + e.2, e.1))))
  (s1.modFrame c h k (fun f => { f with flow := .waitCipher })).modCluster c (fun q => { q with encipher := q.encipher ++ [(h, k)] })
/-- A PROGRAM's descriptor into a slab that is poisoned issues nothing more, and its frame waits for no more data (R291, R306). -/
def State.pullDropped (s : State) (ch c h : Nat) (y : Cmd) (d : Desc) (rest : List Desc) : State :=
  let k := (y.slabs.findIdx? (· = d.slab)).getD 0
  let s1 := (s.modChannel ch (fun q => { q with chain := rest, issued := 0 })).modCmd c h (fun z => { z with counts := z.counts.set k 0 })
  (if 0 < y.counts.getD k 0 then s1.framePulled c h k y else s1).poolCheck ch
/-- One request of a pool channel. -/
def State.poolRequest (s : State) (ch c h ser : Nat) (ecc : Ecc) (retire : Bool) : State :=
  let x := s.channel ch
  match s.cmd? c h, x.chain with
  | some y, d :: rest =>
    if y.serial ≠ ser ∨ y.stage = .ready ∨ y.dataErr.isSome then s.poolCheck ch
    else if y.pkt.opcode = 2 then
      let s1 := if retire then s.slabRetire d.slab else s
      if (s1.slab d.slab).poison then s1.pullDropped ch c h y d rest else s1.poolRead ch c h ser d rest
    else
      let s1 := s.slabRead d.slab (d.sideOff + x.issued) (pieceLen (d.host.toNat + x.issued) (d.len - x.issued)) ecc
      let s3 := if retire then s1.slabRetire d.slab else s1
      if (s3.slab d.slab).poison then
        (s3.modChannel ch (fun q => { q with chain := rest, issued := 0 })).poolCheck ch
      else s3.poolWrite ch c h ser d rest
  | _, _ => s.poolCheck ch
/-- One request of a Manager channel: the next write whose bytes are there, or the next read of its source. -/
def State.chanRequest (s : State) (ch : Nat) : State :=
  let x := s.channel ch
  match x.st, x.chain with
  | .active, d :: _ =>
    let a := d.host.toNat + x.issued
    let n := pieceLen a (d.len - x.issued)
    let src (i : Nat) : Nat := swapOff d.swap (x.issued + i)
    let has := (List.range n).all (fun i => (Tab.find? x.buffer (src i)).isSome)
    if x.issued < d.len ∧ (d.fill.isSome ∨ has) then
      let bytes := (List.range n).map (fun i => match d.fill with
        | some f => byteAt f ((a + i) % 8)
        | none => Tab.getD (fun _ => 0) x.buffer (src i))
      ((s.modChannel ch (fun y => { y with issued := y.issued + n, out := y.out + 1,
                                           buffer := (List.range n).foldl (fun t i => Tab.erase t (src i)) y.buffer })).hpPush
        x.port (hpWrite a bytes (.manager ch) 0))
    else if d.fill.isNone ∧ x.got < d.len then
      let b := d.src.toNat + x.got
      let m := pieceLen b (d.len - x.got)
      (s.modChannel ch (fun y => { y with got := y.got + m, out := y.out + 1 })).hpPush x.port (hpRead b m (.manager ch) 0 x.got)
    else s
  | _, _ => s
/-- MOVER_REQUEST (R295, R298): a channel with fewer than MAX_OUT requests outstanding issues its next one. ecc and tag
are what a read of its slab finds (R282, R288, R291), residue what the check of its counts finds (R305). -/
def execMoverRequest (ch : Fin 64) (ecc : Ecc) (residue tag : Bool) (s : State) : Out :=
  let n := ch.val
  let x := s.channel n
  if ¬ s.awake ∨ s.glb.mode = .endgame ∨ x.stop ∨ ¬ (x.st = .active ∨ x.st = .fetch ∧ x.got = 4) ∨ x.maxOut ≤ x.out ∨
      (x.cmd.isSome ∧ ¬ s.running) then idle s
  else
    let o := s.opportunity (mvA n 0) 0
    if residue ∨ (fired o.2 11).isSome then done s (o.1.mvResidue n)
    else match x.cmd with
      | some (c, h, ser) => done s (o.1.poolRequest n c h ser ecc tag)
      | none => done s (if x.st = .fetch then o.1.descPush n else o.1.chanRequest n)

/-! ### Data that arrives (R299, R304, R307) -/

/-- The bytes of beat i of a read that lie in its range: each with its offset in the descriptor whose range starts at a
host address. -/
def HpReq.beatBytes (r : HpReq) (start i : Nat) (data : Beat) : List (Nat × Byte) :=
  (List.range 128).filterMap (fun k =>
    let a := r.addr.toNat + 128 * i + k
    if start + r.off ≤ a ∧ a < start + r.off + r.count then some (a - start, byteAt data k) else none)
/-- A beat of a PROGRAM's data reaches its slab, or is discarded where that is poisoned (R299, R306). -/
def State.pullBeat (s : State) (c h : Nat) (x : Cmd) (r : HpReq) (i : Nat) (data : Beat) : State :=
  let slab := r.dest / 2
  let k := (x.slabs.findIdx? (· = slab)).getD 0
  let meta_ := r.dest % 2 = 1
  let start := if meta_ then (plus x.pkt.metaAddr (40 * k)).toNat else (plus x.pkt.buf (4096 * k)).toNat
  let l := r.beatBytes start i data
  let at_ (j : Nat) : Nat := if meta_ then 4096 + 24 + j else swapOff x.swap j
  let s1 := (s.modSlab slab (fun y => if y.poison then y else y.putAll (l.map (fun e => (at_ e.1, e.2))))).modCmd c h (fun y =>
    { y with counts := y.counts.modify k (· - l.length) })
  if x.counts.getD k 0 = l.length ∧ ¬ l.isEmpty then s1.framePulled c h k x else s1
/-- A beat of a Manager channel's source reaches its buffer. -/
def State.chanBeat (s : State) (ch : Nat) (r : HpReq) (i : Nat) (data : Beat) : State :=
  match (s.channel ch).chain with
  | d :: _ =>
    let l := r.beatBytes d.src.toNat i data
    s.modChannel ch (fun x => { x with buffer := l.foldl (fun t e => Tab.put t e.1 e.2) x.buffer })
  | [] => s
/-- A channel's descriptor has arrived, or its read has failed; one retired under R39 fails as with ERR_TARGET. -/
def State.descBeat (s : State) (ch resp : Nat) (data : Beat) : State :=
  s.modChannel ch (fun x =>
    if resp ≠ 0 then { x with got := 2 }
    else
      let o := x.cur.toNat % 128
      { x with got := 1, buffer := (List.range 32).foldl (fun t k => Tab.put t k (byteAt data (o + k))) [] })

/-! ### Hand-over and triggers (R309, R310) -/

/-- A channel stands at a descriptor boundary outside a chain: IDLE or HALTED, or a pool channel without a command. -/
def State.atBoundary (s : State) (ch : Nat) : Bool :=
  let x := s.channel ch
  if s.isPool ch then x.cmd.isNone else x.st = .idle ∨ x.st = .halted
/-- MV_CASTLING (R310): the hand-over at a boundary. Those at the end of a descriptor and at START are made with the fetch
that follows. -/
def execMvCastling (ch : Fin 64) (s : State) : Out :=
  if s.awake ∧ s.atBoundary ch.val then done s (s.castleCh ch.val) else idle s
/-- MV_CFG_SHADOW_WRITE (R310): the write lands in the shadow and sets PENDING; one in the cycle of a hand-over, which handOver says it
is, lands after it and sets SHADOW_LATE. The hand-over is one that the write's cycle makes at a boundary, or one that START or the end of
a descriptor has made in it. -/
def execMvCfgShadowWrite (ch : Fin 64) (a : RpAcc) (handOver : Bool) (s : State) : Out :=
  let n := ch.val
  let st := mvA n Reg.MV_CH_STAT
  done s (s.portWrite (mvA n Reg.MV_CH_CFG) a (fun locked s =>
    if locked then s
    else
      let now := handOver ∧ s.cfgPending n ∧ s.atBoundary n
      let s0 := if now then s.castleCh n else s
      let s1 := if now ∨ handOver ∧ (s.channel n).handAt = some s.time.toNat then (s0.orReg st (flag true 9)).raise (mvA n 0) 3 else s0
      (s1.writeRow (mvA n Reg.MV_CH_CFG) false a.data).orReg st (flag true 8)))
/-- MV_TIMER_WRITE (R309): a write of MV_TMRn restarts the timer. -/
def execMvTimerWrite (n : Fin 8) (a : RpAcc) (s : State) : Out :=
  let k := Reg.MV_TMR + 4 * n.val
  done s (s.portWrite k a (fun locked s =>
    let t : State := s.writeRow k locked a.data
    if locked then t else { t with ticks := Tab.setD (fun _ => 0) t.ticks n.val t.time.toNat }))
/-- TRIGGER_TICK (R309): a timer's period has passed: its tick is counted on the channels that choose it. -/
def execTriggerTick (n : Fin 8) (s : State) : Out :=
  let w := s.regAt (Reg.MV_TMR + 4 * n.val)
  let t0 := Tab.getD (fun _ => 0) s.ticks n.val
  let p := atLeast1 (fld w 19 0) * 100
  if s.awake ∧ s.glb.mode ≠ .endgame ∧ bit w 31 ∧ t0 + p ≤ s.time.toNat then
    let s1 := { s with ticks := Tab.setD (fun _ => 0) s.ticks n.val (t0 + p) }
    done s (s1.triggerAll (fun v => decide (fld v 19 16 = n.val + 1)))
  else idle s

end Sys2Proof.Machine
end

