-- ==== Sys2Proof/Machine/HostPort.lean ====
section
/-! DEFINITION. The four host ports (R29 to R41): acceptance of requests and write beats, and read beats, each taken
to the unit that issued the transaction. Write statuses and time-outs are in Machine/Pending.lean. -/
namespace Sys2Proof.Machine
open Sys2Proof

/-! ### Tags (R33, R39) -/

/-- The transaction outstanding on a tag. -/
def Port.outOn (q : Port) (wr : Bool) (t : Nat) : Option HpOut :=
  if wr then Tab.getD (fun _ => none) q.writes t else Tab.getD (fun _ => none) q.reads t
/-- The transaction of a tag set, or freed. -/
def Port.setOut (q : Port) (wr : Bool) (t : Nat) (o : Option HpOut) : Port :=
  if wr then { q with writes := Tab.setD (fun _ => none) q.writes t o } else { q with reads := Tab.setD (fun _ => none) q.reads t o }
/-- The host ports work: out of reset, with both reset inputs high (R30), also while the block dozes: their side is never gated
(R65). -/
def State.portsUp (s : State) : Bool := s.alive ∧ ¬ s.pins.warmLow ∧ s.glb.mode ≠ .reset

/-! ### After a request or a beat has been accepted -/

/-- The channel that issued a transaction goes on (R294, R308). -/
def State.issuerCheck (s : State) (i : Issuer) : State :=
  if s.glb.mode = .endgame then s
  else match i with
  | .mover ch h c ser => if (s.channel ch).cmd = some (c, h, ser) then s.poolCheck ch else s
  | .manager ch => s.chanCheck ch
  | .descriptor ch => s.chanCheck ch
  | _ => s
/-- A port once its request has been accepted: the transaction is outstanding on the tag that was presented, a write's beats join those
to be sent, and the next request is presented (R30 to R33, R295). -/
def Port.accept (q : Port) (t : Nat) (r : HpReq) (now : Nat) : Port :=
  let q1 := { q with queue := q.queue.drop 1, rqTag := none }.setOut r.wr t (some { req := r, got := 0, at_ := now, err := false })
  (if r.wr then { q1 with wdata := q1.wdata ++ [(t, r.beats)] } else q1).present
/-- HP_REQUEST_ACCEPT (R30, R33): the host accepts the request that a port presents. -/
def execHpRequestAccept (port : Fin 4) (s : State) : Out :=
  let p := port.val
  if s.portsUp then
    match (s.port p).rqTag, (s.port p).queue with
    | some t, r :: _ => done s ((s.modPort p (fun q => q.accept t r s.time.toNat)).issuerCheck r.issuer)
    | _, _ => idle s
  else idle s
/-- HP_WRITE_BEAT (R32): the host accepts the next write beat, in request order. -/
def execHpWriteBeat (port : Fin 4) (s : State) : Out :=
  let p := port.val
  if s.portsUp then
    match (s.port p).wdata with
    | [] => idle s
    | (t, bs) :: rest =>
      let left := bs.drop 1
      let s1 := s.modPort p (fun q => { q with wdata := if left.isEmpty then rest else (t, left) :: rest })
      match left.isEmpty, (s.port p).outOn true t with
      | true, some o => done s (s1.issuerCheck o.req.issuer)
      | _, _ => done s s1
  else idle s

/-! ### Answers, by issuer (R38, R39) -/

/-- A beat or status that belongs to no transaction: counted, logged and signalled (R39). -/
def State.hpProtocol (s : State) (p t kind : Nat) : State :=
  (s.blot 0 0x10 none [BitVec.ofNat 32 p, BitVec.ofNat 32 t, BitVec.ofNat 32 kind]).pulse 50
/-- A beat of a read reaches its issuer: resp is 0 for OK; late marks a retirement under R39; ENDGAME discards it (R410). -/
def State.readAnswer (s : State) (r : HpReq) (i resp : Nat) (late : Bool) (data : Beat) : State :=
  if s.glb.mode = .endgame then s
  else match r.issuer with
  | .mover ch h c ser =>
    match s.cmd? c h with
    | some x =>
      if x.serial ≠ ser ∨ x.stage = .ready ∨ x.discard ∨ x.dataErr.isSome ∧ ¬ late then s
      else if resp = 0 then s.pullBeat c h x r i data
      else (s.dataFail c h (if late then stTimeout else stHostErr) 2).poolCheck ch
    | none => s
  | .manager ch => if resp = 0 then s.chanBeat ch r i data else s.chanHalt ch (if late then 5 else 3)
  | .descriptor ch => s.descBeat ch resp data
  | .fetch ring => s.fetchBeat ring (resp = 0) data
  | .ccFill reg =>
    match Tab.getD (fun _ => none) s.cache.miss reg with
    | some m => s.setMiss reg (some { m with reply := some (resp, data) })
    | none => s
  | _ => s
/-- A late error of a command that has completed (R303): its first makes one LATE_ERR, the others count. -/
def State.lateWrite (s : State) (p : Posted) : State :=
  if p.lateSent then
    (s.countField Reg.MV_LATE_COUNT 15 0 1).blot 0xB000 0x1E (some p.owner) [BitVec.ofNat 32 p.ring, p.tag.setWidth 32]
  else (s.lateError p).raise 0xB000 1
/-- A write status for the data of a command, in flight or completed (R302, R303). -/
def State.dataStatus (s : State) (ch h c ser resp : Nat) (late : Bool) : State :=
  let mine := match s.cmd? c h with | some x => decide (x.serial = ser) | none => false
  if mine then
    let s1 := s.modCmd c h (fun y => { y with writesOut := y.writesOut - 1 })
    let s2 := if resp = 0 then s1 else s1.dataFail c h (if late then stTimeout else stWriteErr) (if late then 2 else 0)
    if (s2.channel ch).cmd = some (c, h, ser) then s2.poolCheck ch else s2
  else
    match s.posted.find? (fun p => p.serial = ser) with
    | none => s
    | some p =>
      let q := { p with out := p.out - 1, lateSent := p.lateSent || decide (resp ≠ 0) }
      let s1 := { s with posted := (s.posted.map (fun e => if e.serial = ser then q else e)).filter (fun e => decide (0 < e.out)) }
      if resp = 0 then s1 else s1.lateWrite p
/-- A write's status reaches its issuer; ENDGAME discards all but those of the summary (R410, R416). -/
def State.writeAnswer (s : State) (p : Nat) (r : HpReq) (resp : Nat) (late : Bool) : State :=
  if s.glb.mode = .endgame ∧ r.issuer ≠ .egEntry ∧ r.issuer ≠ .egHeader then s
  else match r.issuer with
  | .mover ch h c ser => s.dataStatus ch h c ser resp late
  | .manager ch => if resp = 0 then s else s.chanHalt ch (if late then 5 else 4)
  | .completion _ cpl slot =>
    let s1 := s.vecAnswered (p, slotKey cpl slot)
    if resp = 0 then s1 else s1.cplError cpl
  | .vector v =>
    if resp = 0 then s
    else
      (((s.countField (vtA v 0x1C) 15 0 1).count Reg.SG_VEC_WERR).blot 0x5000 0x1F (some (v / 8))
        [BitVec.ofNat 32 v, BitVec.ofNat 32 resp]).raise 0x5000 2
  | .ccAround reg => s.aroundStatus reg resp
  | .ccWriteback tag =>
    match s.cache.victims.findIdx? (fun v => v.line.tag = tag && v.writing) with
    | some i => s.modVictim i (fun v => { v with reply := some resp })
    | none => s
  | .egEntry => if s.glb.mode = .endgame then s.egEntryStatus resp else s
  | .egHeader => if s.glb.mode = .endgame then s.egHeaderStatus resp else s
  | _ => s

/-! ### HP_READ_BEAT (R34 to R39, R435) -/

/-- HP_READ_BEAT (R34 to R39): the block accepts a read beat; one that fails its parity acts as ERR_POISON; one whose tag is
not outstanding is discarded. A slot of points 0 to 3 may flip a bit of it, change its response, or hold RD_READY at 0: the beat is then
taken when the host presents it again, with what else has fired on it. -/
def execHpReadBeat (port : Fin 4) (tag : Fin 512) (data : Beat) (par : BitVec 128) (resp : BitVec 2) (s : State) : Out :=
  let p := port.val
  let t := tag.val
  if ¬ s.portsUp then idle s
  else
    let o := match (s.port p).rdHeld with
      | some l => (s.modPort p (fun q => { q with rdHeld := none }), l)
      | none => s.opportunity 0xF000 p
    if (fired o.2 3).isSome then done s (o.1.modPort p (fun q => { q with rdHeld := some (o.2.filter (fun f => f.1 != 3)) }))
    else
      let data1 : Beat := (firedAll o.2 8).foldl (fun d a => d ^^^ BitVec.ofNat 1024 (2 ^ fld a 9 0)) data
      let resp1 := match fired o.2 10 with | some a => fld a 1 0 | none => resp.toNat
      let ok := parOk 128 data1 par
      let s1 := if ok then o.1 else o.1.blot 0 0x0F none [BitVec.ofNat 32 p, BitVec.ofNat 32 t]
      let resp2 := if ok then resp1 else 3
      match (s1.port p).outOn false t with
      | none =>
        let s2 := s1.modPort p (fun q =>
          { q with qReads := Tab.setD (fun _ => 0) q.qReads t (Tab.getD (fun _ => 0) q.qReads t - 1) }.present)
        done s (s2.hpProtocol p t 0)
      | some x =>
        let last := x.got + 1 = x.req.len
        let s2 := s1.modPort p (fun q =>
          (q.setOut false t (if last then none else some { x with got := x.got + 1, err := x.err || decide (resp2 ≠ 0) })).present)
        let s3 := if last then s2.lessOut x.req.issuer else s2
        let s4 := s3.readAnswer x.req x.got resp2 false data1
        done s (if last then s4.issuerCheck x.req.issuer else s4)
end Sys2Proof.Machine
end

