-- ==== Sys2Proof/Machine/Keys.lean ====
section
/-! DEFINITION. The commands of the key store (R332 to R339) and of the seal level (R343 to R347): key loads and
zeroising, raises, and the lowering with its sanitize. -/
namespace Sys2Proof.Machine
open Sys2Proof

/-! ### Keys (R333, R334) -/

/-- A key load or a key command is under way: KY_RESULT.BUSY. -/
def State.keyBusy (s : State) : Bool := bit (s.regAt Reg.KY_RESULT) 31
/-- The slot that KY_SLOT_SEL selects. -/
def State.keySel (s : State) : Nat := fld (s.regAt Reg.KY_SLOT_SEL) 10 0
/-- A slot holds a key. -/
def State.keyLoaded (s : State) (k : Nat) : Bool := (Tab.getD (fun _ => none) s.keys.slots k).isSome
/-- The RESULT of orders 1 to 4 for a load into a slot; 0 where none applies (R333). -/
def State.loadRefuse (s : State) (k : Nat) : Nat :=
  if s.keys.sanit.isSome then 1
  else if s.fuse.kek.isNone then 2
  else if s.keyLoaded k then 3
  else if Tab.getD (fun _ => 0) s.keys.refs k ≠ 0 then 4
  else 0
/-- A write of KY_CMD whose OP is the command's; without effect while BUSY is 1. -/
def State.keyCmd (s : State) (op : Nat) (a : RpAcc) (f : State → State) : State :=
  s.portWrite Reg.KY_CMD a (fun _ s => if fld a.data 1 0 = op ∧ ¬ s.keyBusy then f s else s)
/-- The load begins: the slot and the wrapped words are taken, and orders 1 to 4 judged. -/
def State.loadBegin (s : State) : State :=
  let k := s.keySel
  let l : KeyLoad := { slot := k, wrap := (List.range 18).map (fun i => s.regAt (Reg.KY_WRAP + 4 * i)), refuse := s.loadRefuse k }
  (s.orReg Reg.KY_RESULT (flag true 31)).modKeys (fun x => { x with load := some l })

/-- LOAD (R333). -/
def execLoad (a : RpAcc) (s : State) : Out := done s (s.keyCmd 1 a State.loadBegin)
/-- ZEROISE (R334). -/
def execZeroise (a : RpAcc) (s : State) : Out := done s (s.keyCmd 2 a (fun s => s.setKey s.keySel none))
/-- The four slots of an instance become EMPTY (R334). -/
def State.zeroiseInst (s : State) (t : Nat) : State := (List.range 4).foldl (fun s k => s.setKey (4 * t + k) none) s
/-- ZEROISE_INST (R334). -/
def execZeroiseInst (a : RpAcc) (s : State) : Out := done s (s.keyCmd 3 a (fun s => s.zeroiseInst (s.keySel / 4)))

/-- Orders 5 and 6: the key that a load's wrapped words give under a KEK, or the RESULT that refuses it. -/
def unwrapKey (kek : BitVec 256) (wrap : List Word) : Nat × Option (BitVec 512) :=
  match kwUnwrap (natBytes 32 kek.toNat) (natBytes 72 (leWords wrap)) with
  | none => (5, none)
  | some b =>
    let v := BitVec.ofNat 512 (bytesNat b)
    if (v.setWidth 256 : BitVec 256) = (v >>> 256).setWidth 256 then (6, none) else (0, some v)
/-- The end of a load: its RESULT, BUSY falls, and KY_WRAP0 to KY_WRAP17 clear. -/
def State.loadEnd (s : State) (result : Nat) : State :=
  let s1 := (List.range 18).foldl (fun t i => t.setReg (Reg.KY_WRAP + 4 * i) 0) s
  ((s1.setReg Reg.KY_RESULT (BitVec.ofNat 32 result)).raise 0xD000 1).modKeys (fun x => { x with load := none })

/-- KEY_LOAD_DONE (R333): the unwrap ends; the slot is loaded or the load refused. -/
def execKeyLoadDone (s : State) : Out :=
  match s.keys.load, s.awake with
  | some l, true =>
    if l.refuse ≠ 0 then done s (s.loadEnd l.refuse)
    else match s.fuse.kek with
      | some kek =>
        let r := unwrapKey kek l.wrap
        done s ((match r.2 with | some v => s.setKey l.slot (some v) | none => s).loadEnd r.1)
      | none => done s (s.loadEnd 2)
  | _, _ => idle s

/-! ### Requests for a level (R343, R344) -/

/-- RESULT of KY_SEAL_STAT alone. -/
def State.sealAnswer (s : State) (r : Nat) : State := s.modReg Reg.KY_SEAL_STAT (fun w => putFld w 10 8 r)
/-- A write of KY_SEAL_CMD: refused, SAME, or a request, which the given function carries out (R343, R347). -/
def State.sealCmd (s : State) (a : RpAcc) (f : State → Fin 3 → State) : State :=
  s.portWrite Reg.KY_SEAL_CMD a (fun _ s =>
    let l := fld a.data 1 0
    if fld a.data 31 16 ≠ 0x5EA1 ∨ ¬ s.serving ∨ s.keys.sanit.isSome ∨ s.keys.job.isSome ∨ bit (s.regAt Reg.KY_SEAL_STAT) 31 then
      s.sealAnswer 1
    else if h : l < 3 then
      let s1 := s.modReg Reg.KY_SEAL_STAT (fun w => putFld w 1 0 l)
      if l = s.levelNo then s1.sealAnswer 2 else f s1 ⟨l, h⟩
    else s.sealAnswer 1)
/-- A raise begins: BUSY, and the copies in ascending order of their regions (R343). -/
def State.sealRaise (s : State) (l : Fin 3) : State := (s.orReg Reg.KY_SEAL_STAT (flag true 31)).sealBegin .raise l l s.regionList

/-- SEAL_RAISE (R343): a request for a level above the latched one. -/
def execSealRaise (a : RpAcc) (s : State) : Out :=
  done s (s.sealCmd a (fun s l => if s.levelNo < l.val then s.sealRaise l else s))

/-! ### The lowering and its sanitize (R344 to R346) -/

/-- Every installed ring whose OWNER is not 511 is FENCED, or its owner is under reset (R344, R392); a context that cannot
be read counts as not fenced. -/
def State.tenantsFenced (s : State) (cc : CcFault) : State × Bool :=
  (s.rings.filter (fun e => decide (fld e.2 24 16 ≠ 511))).foldl (fun a e =>
    let r := a.1.ringLoad unitTenants e.1 cc
    (r.1, a.2 && (match r.2 with | some x => decide (x.kind = 0 ∨ x.state = 1 ∨ a.1.tnState x.owner = .resetting) | none => false))) (s, true)
/-- The dies of a lane that the sanitize erases (R345). -/
def State.sanitDies (s : State) (g : Nat) : List Nat := if s.laneTrue g then (s.laneDies g).map (· + 64 * g) else []
/-- Every die that the block has found on a lane: the LUNs of each target that answered. -/
def State.foundDies (s : State) (g : Nat) : Nat :=
  ((List.range 16).filter (fun t => bit (s.regAt (lnA g Reg.LN_TGT_PRESENT)) t)).length * (s.geo g).luns
/-- A range of the store becomes zero, with the cached lines over it and what miss registers and issued writes still bring to it. -/
def State.zeroRange (s : State) (off len : Nat) : State :=
  let inR (o : Nat) : Bool := decide (off ≤ o ∧ o < off + len)
  let zl (l : Line) : Line := if inR (l.tag * 128) then { l with data := 0 } else l
  let st := s.store.filter (fun e => !(decide (s.ccBase ≤ e.1) && inR (e.1 - s.ccBase)))
  let t : State := { s with store := st }
  let zm (m : Miss) : Miss := if inR (m.tag * 128) then
    { m with merged := m.merged.map (fun o => { o with q := { o.q with bytes := o.q.bytes.map (fun _ => 0) } }), reply := m.reply.map (fun x => (x.1, 0)) } else m
  let u := t.modCache (fun c =>
    { c with ways := c.ways.map (fun (e : Nat × Option Line) => (e.1, e.2.map zl)),
             victims := c.victims.map (fun v => { v with line := zl v.line }),
             miss := c.miss.map (fun (e : Nat × Option Miss) => (e.1, e.2.map zm)) })
  let hit (r : HpReq) : Bool := match r.issuer with
    | .ccWriteback tag => inR (tag * 128)
    | .ccAround _ => decide (s.ccBase ≤ r.addr.toNat) && inR (r.addr.toNat - s.ccBase)
    | _ => false
  (List.range 4).foldl (fun t p => t.modPort p (fun q =>
    { q.blank hit with writes := q.writes.map (fun e => (e.1, e.2.map (fun o =>
        if hit o.req then { o with req := { o.req with beats := o.req.beats.map WBeat.zero } } else o))) })) u
/-- Every frontier slot becomes FREE, in one step and without a store through the cache, which is the model's choice (log entry 138). -/
def State.clearFrontier (s : State) : State :=
  if s.frAssigned then s.zeroRange (2048 * (fld (s.regAt Reg.DF_FR_BASE) 29 11)) (32768 * s.build.lanes) else s
/-- Step 1 of R344, the copies of step 2 begun, and the state in which the sanitize starts; upset is what the Ledger's check finds as the
first copy is charged (R394, R408). -/
def State.sanitBegin (s : State) (l : Fin 3) (upset : Upset) : State :=
  let total := (s.laneList.flatMap s.sanitDies).length
  let found := s.laneList.foldl (fun a g => a + s.foundDies g) 0
  let held := (s.slabs.filter (fun e => decide (e.2.st = .held))).map Prod.fst
  let s1 := (s.modKeys (fun k => { k with slots := [], sanit := some { target := l, cursor := [], running := [] } })).releaseSlabs held
  let s2 := (s1.orReg Reg.KY_SEAL_STAT (flag true 31 ||| flag true 30)).clearFrontier
  let s3 := (s2.setReg Reg.KY_SAN_PROG (BitVec.ofNat 32 total)).setReg Reg.KY_SAN_SKIP (satWord (found - total))
  let s4 := ((s3.setReg Reg.KY_SAN_ERASES 0).setReg Reg.KY_SAN_FAIL 0).upset upset (s3.costTable 0)
  s4.sealBegin .before (Fin.ofNat 3 s.levelNo) l s.regionList

/-- A request for a lower level is judged: accepted, it begins; otherwise it answers BUSY (R344). -/
def State.sealLower (s : State) (l : Fin 3) (upset : Upset) (cc : CcFault) : State :=
  let r := s.tenantsFenced cc
  if r.2 ∧ s.cmds.all (fun e => e.2.isNone) then r.1.sanitBegin l upset
  else (r.1.modReg Reg.KY_SEAL_STAT (fun w => putFld w 31 31 0)).sealAnswer 3
/-- SEAL_LOWER (R344): a request for a level below the latched one. -/
def execSealLower (a : RpAcc) (cc : CcFault) (upset : Upset) (s : State) : Out :=
  done s (s.sealCmd a (fun s l =>
    if l.val < s.levelNo then s.begins (.sealLower l) cc (fun cc t => t.sealLower l upset cc) else s))

/-- The planes of a block that the sanitize erases: not FACTORY, and not the seal plane-block; none is STORE_ERR. -/
def State.sanitPlanes (s : State) (die block : Nat) (cc : CcFault) : State × Option (List Nat) :=
  let q := s.geo (die / 64)
  (List.range q.planes).foldl (fun a p =>
    match a.2 with
    | none => a
    | some l =>
      let r := a.1.dfCode unitOpening die (block * q.planes + p) cc
      (r.1, r.2.map (fun c => if c = 3 ∨ (die % 4096 = 0 ∧ block = 0 ∧ p = 0) then l else l ++ [p]))) (s, some [])
/-- The next erase of a die from a plane-block on: its plane-blocks, all of the block's where every plane of it is
eligible, else one (R345). The list is empty where nothing is left; none is STORE_ERR. -/
def State.sanitNext (die : Nat) (cc : CcFault) : Nat → Nat → State → State × Option (List Nat)
  | 0, _, s => (s, some [])
  | n + 1, e, s =>
    let q := s.geo (die / 64)
    let b := e / q.planes
    if q.blocks ≤ b then (s, some [])
    else
      let r := s.sanitPlanes die b cc
      match r.2 with
      | none => (r.1, none)
      | some l =>
        if l.length = q.planes ∧ e % q.planes = 0 then (r.1, some (l.map (· + b * q.planes)))
        else match l.find? (fun p => decide (e % q.planes ≤ p)) with
          | some p => (r.1, some [b * q.planes + p])
          | none => State.sanitNext die cc n ((b + 1) * q.planes) r.1
/-- The cursor of a die. -/
def State.sanitCursor (s : State) (die e : Nat) : State :=
  s.modKeys (fun k => { k with sanit := k.sanit.map (fun z => { z with cursor := Tab.setD (fun _ => 0) z.cursor die e }) })

/-- SANITIZE_ERASE (R345): the next erase of a die, when its LUN and its lane are free and the Ledger admits it, as ROM strokes. -/
def execSanitizeErase (lane : Fin 128) (die : Fin 64) (cc : CcFault) (s : State) : Out :=
  let g := lane.val
  let d := g * 64 + die.val
  match s.keys.sanit with
  | some z =>
    let e := Tab.getD (fun _ => 0) z.cursor d
    if s.working ∧ s.laneUp g ∧ s.keys.job.isNone ∧ (s.sanitDies g).contains d ∧ s.seqFree g die.val ∧ e < s.dieBlocks g then
      let r := State.sanitNext d cc (s.geo g).blocks e s
      match r.2 with
      | none => looked s r.1
      | some [] => looked s ((r.1.sanitCursor d (s.dieBlocks g)).sanitCount d)
      | some (b :: bs) =>
        let tab := s.costTable g
        let units := s.unitsOf tab .erase
        let a := r.1.ask (s.chargeOf tab .erase (bs.length + 1) 0) units 511 (g / 64) true
        match a.2 with
        | .admitted =>
          looked s (((a.1.sanitCursor d ((b :: bs).getLastD b + 1)).count Reg.KY_SAN_ERASES).sanStroke d
            { units := units, blocks := b :: bs, left := b :: bs })
        | _ => looked s a.1
    else idle s
  | none => idle s

/-- SANITIZE_DONE (R344 step 4): nothing is left to erase and no erase is under way: both copies are begun, with whose end the level is
latched and the Ring Fetcher and Patrol restart (log entry 128). Dies lost on the way count as skipped. upset is what the Ledger's check finds
as the first copy is charged. -/
def execSanitizeDone (upset : Upset) (s : State) : Out :=
  match s.keys.sanit with
  | some z =>
    if s.working ∧ s.keys.job.isNone ∧ z.running.isEmpty ∧
        (s.laneList.flatMap s.sanitDies).all (fun d => decide (s.dieBlocks (d / 64) ≤ Tab.getD (fun _ => 0) z.cursor d)) then
      let w := s.regAt Reg.KY_SAN_PROG
      let s1 := s.modReg Reg.KY_SAN_SKIP (fun v => satWord (v.toNat + (fld w 13 0 - fld w 29 16)))
      done s ((s1.upset upset (s1.costTable 0)).sealBegin .after z.target z.target s.regionList)
    else idle s
  | none => idle s

end Sys2Proof.Machine
end

