-- ==== Sys2Proof/Machine/Tenants.lean ====
section
/-! DEFINITION. The instances' commands (R383, R384) and the instance reset (R390 to R392). -/
namespace Sys2Proof.Machine
open Sys2Proof

/-! ### TN_CMD (R384) -/

/-- The end of a TN_CMD operation: its RESULT (0 DONE, 1 BUSY, 2 STATE, 3 RINGS, 4 SLABS, 5 KEYS), and BUSY falls. -/
def State.tnResult (s : State) (r : Nat) : State := (s.setReg Reg.TN_STAT (BitVec.ofNat 32 r)).raise 0xC000 2
/-- A write of TN_CMD whose OP is the command's: without effect in FALLBACK (R93) and while BUSY is 1; instance 511 refuses every operation with
STATE, one under reset with BUSY (R383, R392). -/
def State.tnCmd (s : State) (op : Nat) (a : RpAcc) (f : State → Nat → State) : State :=
  s.portWrite Reg.TN_CMD a (fun _ s =>
    let t := fld (s.regAt Reg.TN_SEL) 8 0
    if fld a.data 2 0 ≠ op ∨ s.glb.mode = .fallback ∨ bit (s.regAt Reg.TN_STAT) 31 then s
    else if t = 511 then s.tnResult 2
    else if s.tnState t = .resetting then s.tnResult 1
    else f s t)

/-- CREATE (R384). -/
def execCreate (a : RpAcc) (s : State) : Out :=
  done s (s.tnCmd 1 a (fun s t => if s.tnState t = .free then (s.setTn t .fenced).tnResult 0 else s.tnResult 2))

/-- A ring of an instance is in STATE FENCED, or its context cannot be read. -/
def State.anyFenced (s : State) (t : Nat) (cc : CcFault) : State × Bool :=
  (s.ringsOf t).foldl (fun a n =>
    let r := a.1.ringLoad unitTenants n cc
    (r.1, a.2 || (match r.2 with | some x => decide (x.state = 1) | none => true))) (s, false)
/-- UNFENCE of an instance that is FENCED reads its rings' contexts, and ends. -/
def State.unfence (s : State) (t : Nat) (cc : CcFault) : State :=
  let r := s.anyFenced t cc
  if r.2 then r.1.tnResult 3 else (r.1.setTn t .active).tnResult 0
/-- UNFENCE (R384). -/
def execUnfence (a : RpAcc) (cc : CcFault) (s : State) : Out :=
  done s (s.tnCmd 3 a (fun s t =>
    if s.tnState t ≠ .fenced then s.tnResult 2 else s.begins (.unfence t) cc (fun cc u => u.unfence t cc)))

/-- Registers return to their reset values. -/
def State.dropRegs (s : State) (f : Nat → Bool) : State := { s with regs := s.regs.filter (fun e => !f e.1) }
/-- A key is one of the registers that TN_SEL reaches for an instance (TN_SCHED, TN_CPL_CFG, TN_RES and its extents). -/
def tnKey (t k : Nat) : Bool :=
  k = winKey Reg.TN_SCHED t ∨ k = winKey Reg.TN_CPL_CFG t ∨ k = winKey Reg.TN_RES t ∨
    (winKey Reg.TN_EXT0_DIE t ≤ k ∧ k ≤ winKey Reg.TN_EXT3_BLK t)
/-- The vector entries of an instance are zeroed (R384). -/
def State.zeroVectors (s : State) (t : Nat) : State :=
  (List.range 8).foldl (fun u i => u.modVec (8 * t + i) (fun _ => Vec.init))
    (s.dropRegs (fun k => decide (vtA (8 * t) 0 ≤ k ∧ k < vtA (8 * t + 8) 0)))
/-- The vector entries, the slab quota and the TN settings of an instance return to their reset values (R384). -/
def State.destroyed (s : State) (t : Nat) : State :=
  let s1 := ((s.zeroVectors t).dropRegs (tnKey t)).setReg (winKey Reg.IW_TN_QUOTA t) 0
  (s1.setTn t .free).allocPrograms.slabRoom
/-- DESTROY (R384). -/
def execDestroy (a : RpAcc) (s : State) : Out :=
  done s (s.tnCmd 4 a (fun s t =>
    if s.tnState t ≠ .fenced then s.tnResult 2
    else if ¬ (s.ringsOf t).isEmpty then s.tnResult 3
    else if s.held t ≠ 0 then s.tnResult 4
    else if (List.range 4).any (fun k => s.keyLoaded (4 * t + k)) then s.tnResult 5
    else (s.destroyed t).tnResult 0))

/-! ### The reset (R390) -/

/-- The commands of an instance that hold handles. -/
def State.cmdsFor (s : State) (t : Nat) : List (Nat × Nat × Cmd) := s.cmdList.filter (fun e => decide (e.2.2.owner = t))
/-- The reads of a ring's packet that are still out belong to no packet any longer. -/
def Port.orphanFetch (q : Port) (n : Nat) : Port :=
  let gone (i : Issuer) : Issuer := match i with
    | .fetch r => .fetch (if r = n then 32768 else r)
    | o => o
  { q with queue := q.queue.map (fun r => { r with issuer := gone r.issuer }),
           reads := q.reads.map (fun e => (e.1, e.2.map (fun o => { o with req := { o.req with issuer := gone o.req.issuer } }))) }
/-- Step 1 for one packet that is being fetched: rewound, counted in DROP_COUNT; one already partly pushed is left to the
flush. -/
def State.unfetch (s : State) (e : Fetching) : State :=
  if 0 < e.pushed then s
  else
    let s1 := if e.words.isEmpty then (s.fetchGone e 0 false true).releaseOut e.ring (fld (s.note e.ring) 14 0)
      else s.fetchEnds e stAborted 0 true
    (List.range 4).foldl (fun t p => t.modPort p (fun q => q.orphanFetch e.ring)) s1
/-- Step 1: the ACTIVE rings of the instance become FENCED, each as its context's line is there, and its packets under way are rewound. -/
def State.fence (s : State) (t : Nat) (cc : CcFault) : State :=
  let s1 := (s.ringsOf t).zipIdx.foldl (fun u e => u.ringPutCc e.1 .fence (if e.2 = 0 then cc else .clean)) s
  (s1.fetching.filter (fun e => decide (e.owner = t))).foldl State.unfetch s1
/-- Step 2: the instance's packets leave every intake. -/
def State.flushAll (s : State) (t : Nat) : State :=
  s.clusterList.foldl (fun u c => (u.flush c false (some t)).flush c true (some t)) s
/-- The programs cancelled with one of an instance under reset (R273, R390): those of the instance are discarded with it, and one of a
Manager ring completes ABORTED. -/
def State.alsoCancelled (s : State) (e : Nat × Nat) : State :=
  match s.cmd? e.1 e.2 with
  | some y => if s.tnState y.owner = .resetting then s else s.finish e.1 e.2 stAborted 0
  | none => s
/-- One command of the instance under steps 2, 5 and 6: a pending one ends, one whose completion waits is discarded, an
unbegun program is cancelled with the later claims on its records, and the frames of any other are released. -/
def State.resetCmd (s : State) (e : Nat × Nat × Cmd) : State :=
  let c := e.1
  let h := e.2.1
  match s.cmd? c h with
  | none => s
  | some x =>
    let s0 := s.modCmd c h (fun y => { y with discard := true, writesOut := 0 })
    if x.stage = .ready then
      let l := s0.ready.filter (fun r => decide (r.handle = some (hKey c h) ∧ r.reserved))
      if l.isEmpty then s0
      else ({ s0 with ready := s0.ready.filter (fun r => !l.contains r) }.releaseOut x.ring x.cplRing).retire c h
    else if x.stage = .pending then s0.finish c h stAborted 0
    else if x.runsOn then s0
    else
      let s1 := if x.claimed ∧ ¬ x.verifying then
          let r := s0.cancelClaims c h .clean
          (r.2.foldl State.alsoCancelled r.1).calInsert x.lane
        else s0
      let s2 := (s1.cleanFrames c h).modCmd c h (fun y =>
        { y with frames := y.frames.map (fun f => { f with flow := if f.ended then f.flow else .failed }) })
      match s2.cmd? c h with
      | some y => s2.discardEnd c h y
      | none => s2
/-- Step 3: the transfers of the instance's commands stop (R306): their requests that no port presents yet are withdrawn, the beats
still to come of their writes carry zero data, and their pool channels issue nothing more. -/
def State.stopMoves (s : State) (l : List (Nat × Nat × Cmd)) : State :=
  let mine (i : Issuer) : Bool := l.any (fun e => ofCmd e.1 e.2.1 e.2.2.serial i)
  let s1 := s.blankBeats (fun r => mine r.issuer)
  (s1.channels.map Prod.fst).foldl (fun u ch =>
    match (u.channel ch).cmd with
    | some (c, h, ser) =>
      if mine (.mover ch h c ser) then
        (u.modChannel ch (fun q => { q with chain := [] })).poolCheck ch
      else u
    | none => u) s1
/-- Completions of the instance that have no handle and are not presented are discarded with their reservations. -/
def State.dropPlain (s : State) (t : Nat) : State :=
  let mine (r : Ready) : Bool := match r.subRing with
    | some n => r.handle.isNone && r.reserved && decide (n < 32768 ∧ fld (s.note n) 24 16 = t)
    | none => false
  (s.ready.filter mine).foldl (fun u r => u.releaseOut (r.subRing.getD 0) r.cplRing) { s with ready := s.ready.filter (fun r => !mine r) }
/-- The vectors of an instance: open windows close without delivery, messages not yet presented are withdrawn. -/
def State.quietVectors (s : State) (t : Nat) : State :=
  (List.range 8).foldl (fun u i => (u.vecShut (8 * t + i)).vecWithdraw (8 * t + i)) s
/-- Steps 1 to 4 of the reset of an instance, and what steps 5 to 7 begin. -/
def State.tnResetBegin (s : State) (t : Nat) (keep : Bool) (cc : CcFault) : State :=
  let s1 := (s.setTn t .resetting).modTenants (fun q => { q with resetOf := some t, keepKeys := keep, closing := false, written := 0, dropped := 0 })
  let s2 := (s1.modReg Reg.TN_RST_SEQ (· + 1)).setReg Reg.TN_RST_STAT (flag true 31 ||| BitVec.ofNat 32 (2 ^ 16 * t))
  let l := s2.cmdsFor t
  let s3 := ((s2.fence t cc).flushAll t).dropPlain t
  let s4 := (l.foldl State.resetCmd s3).stopMoves l
  let leases := (s4.slabs.filter (fun e => decide (e.2.st = .held ∧ e.2.owner = t) && e.2.lease)).map Prod.fst
  let s5 := (s4.releaseSlabs leases).quietVectors t
  s5.laneList.foldl (fun u g =>
    if (u.lane g).table.any (fun a => decide (a.tenant = t)) then
      (u.modLane g (fun q => { q with table := q.table.filter (fun a => decide (a.tenant ≠ t)) })).tableSync g
    else u) s5

/-- TN_RESET (R384, R390). -/
def execTnReset (a : RpAcc) (cc : CcFault) (s : State) : Out :=
  done s (s.tnCmd 2 a (fun s t =>
    if s.tenants.resetOf.isSome then s.tnResult 1
    else if s.tnState t = .free then s.tnResult 2
    else s.begins (.tnReset t (bit a.data 8)) cc (fun cc u => (u.tnResetBegin t (bit a.data 8) cc).tnResult 0)))

/-- The final record of the reset under way (R391). -/
def State.finalRecord (s : State) (t : Nat) : Ready :=
  { cplRing := fld (s.tnCpl 511) 30 16, subRing := some 0xFFFD, handle := none, port := 0,
    words := finalWords t s.tenants.written s.tenants.dropped (s.regAt Reg.TN_RST_SEQ).toNat, reserved := false, seen := none }
/-- The final record of a reset: it joins the records that wait for the event ring, which end the reset with it, or is dropped where no
event ring stands (R391). -/
def State.finalise (s : State) (t : Nat) : State :=
  if bit (s.tnCpl 511) 31 then (s.modTenants (fun q => { q with closing := true })).pushReady (s.finalRecord t)
  else (s.dropRecord 0xFFFF).resetEnd
/-- The notify path writes or drops the final record, where it is the next record of its port and the channel is free for it (R204). -/
def State.finalNow (s : State) (cc : CcFault) : State :=
  match s.nextReady 0 with
  | some r => if r.subRing = some 0xFFFD ∧ (s.port 0).notifyFree then s.writeReady r cc false none else s
  | none => s

/-- RESET_DONE (R390 steps 8 and 9, R391): every command of the instance has ended and its rings are FENCED: its keys are zeroised and the
final record becomes ready. With that record written or dropped, which this command does at once where nothing stands before it, the
instance becomes FENCED. -/
def execResetDone (cc : CcFault) (s : State) : Out :=
  match s.tenants.resetOf with
  | some t =>
    if ¬ s.working ∨ ¬ (s.cmdsFor t).isEmpty ∨ (s.ringsOf t).any s.ringWaits then idle s
    else if s.tenants.closing then looked s (s.finalNow cc)
    else
      let s1 := (if s.tenants.keepKeys then s else s.zeroiseInst t).finalise t
      done s (if s1.tenants.closing then s1.waited (s1.finalNow cc) else s1)
  | none => idle s

end Sys2Proof.Machine
end

