-- ==== Sys2Proof/Machine/Calib.lean ====
section
/-! DEFINITION. Calibration runs, shadows and the hand-over, and retraining (R144 to R154). -/
namespace Sys2Proof.Machine
open Sys2Proof

/-! ### LN_CAL_CTL and the shadows (R146, R148 to R152) -/

/-- An accepted write of LN_CAL_CTL: HOLD, then RECAL and RETRAIN. -/
def State.calCtl (s : State) (g : Nat) (locked : Bool) (data : Word) : State :=
  let s1 := s.writeRow (lnA g Reg.LN_CAL_CTL) locked data
  let s2 := if bit data 8 then s1.startRun g else s1
  if bit data 9 then s2.askRetrain g true else s2
/-- RECAL (R146): a write of LN_CAL_CTL with RECAL. -/
def execRecal (lane : Fin 128) (a : RpAcc) (s : State) : Out :=
  done s (s.portWrite (lnA lane.val Reg.LN_CAL_CTL) a (fun k s => if bit a.data 8 then s.calCtl lane.val k a.data else s))
/-- RETRAIN (R148): a write of LN_CAL_CTL with RETRAIN. -/
def execRetrain (lane : Fin 128) (a : RpAcc) (s : State) : Out :=
  done s (s.portWrite (lnA lane.val Reg.LN_CAL_CTL) a (fun k s => if bit a.data 9 then s.calCtl lane.val k a.data else s))

/-- LANE_SHADOW_WRITE (R149, R150): the write lands in the shadow and sets PENDING; in a hand-over cycle the active set takes
the shadows as they stood before it. -/
def execLaneShadowWrite (lane : Fin 128) (which : Fin 6) (a : RpAcc) (handOver : Bool) (s : State) : Out :=
  let g := lane.val
  let ad := lnA g (shadowOff which.val)
  done s (s.portWrite ad a (fun locked s =>
    if locked then s
    else if handOver ∧ s.castPending g ∧ s.idlePoint g then
      ((((s.castle g).writeRow ad false a.data).setPending g).orReg (lnA g Reg.LN_CAL_STAT) (flag true 8)).raise (lnA g 0) 3
    else (s.writeRow ad false a.data).setPending g))
/-- CASTLING (R149): at an idle point with PENDING set, the active set takes the shadows; a read-training stroke that waits for the
hand-over follows (R146). -/
def execCastling (lane : Fin 128) (s : State) : Out :=
  let g := lane.val
  if s.awake ∧ g < s.build.lanes ∧ s.clusterUp (g / 8) ∧ s.castPending g ∧ s.idlePoint g then done s ((s.castle g).calInsert g) else idle s
/-- FORCED_IDLE (R151): PENDING has been 1 for CAL_CASTLE.MAX_US; the lane commits no new stroke until an idle point. -/
def execForcedIdle (lane : Fin 128) (s : State) : Out :=
  let g := lane.val
  if s.awake ∧ s.laneUp g ∧ s.castPending g then done s (s.modLane g (fun l => { l with forced := true })) else idle s

/-! ### Calibration runs (R144 to R146) -/

/-- The mismatches of one step, one count a bit; behind the last step of a pass the next one waits for its idle point. -/
def CalRun.take (r : CalRun) (mism : List Nat) : CalRun :=
  { r with step := r.step + 1, bytes := 0, began := decide ((r.step + 1) % 64 ≠ 0), insert := false,
           mism := (List.range 8).foldl (fun m b => Tab.setD (fun _ => 0) m (b * 256 + r.step) (mism.getD b 0)) r.mism }
/-- The bytes of read data that fill a step (R144). -/
def State.stepBytes (s : State) : Nat := 1024 * atLeast1 (fld (s.regAt Reg.CAL_RUN) 7 0)
/-- The step of a run has filled: its pass has begun, and the bytes have passed (R144). -/
def State.stepFull (s : State) (r : CalRun) : Bool := r.began && decide (s.stepBytes ≤ r.bytes)
/-- CAL_RUN_STEP (R144): a step has filled; the next pass begins at an idle point, and the last step ends the run. -/
def execCalRunStep (lane : Fin 128) (mism : List Nat) (withWrite : Bool) (s : State) : Out :=
  let g := lane.val
  match (s.lane g).cal with
  | some r =>
    if s.awake ∧ s.laneUp g ∧ s.stepFull r then
      let r1 := r.take mism
      done s (if r1.step < 256 then (s.modLane g (fun l => { l with cal := some r1 })).calPoint g else s.endRun g r1 withWrite)
    else idle s
  | none => idle s
/-- CAL_STEP_WAIT_EXPIRY (R146): the step has not filled in time: from now on the lane inserts a ROM read-training stroke
to its lowest present target at each idle point, this one included. -/
def execCalStepWaitExpiry (lane : Fin 128) (s : State) : Out :=
  let g := lane.val
  if s.awake ∧ s.laneUp g ∧ (s.lane g).cal.isSome then
    done s ((s.modLane g (fun l => { l with cal := l.cal.map (fun r => { r with insert := true }) })).calInsert g)
  else idle s

/-! ### Retraining (R148) -/

/-- Every target that takes part is ready: no LUN of it is busy, and its erases are suspended. -/
def State.lunsReady (s : State) (g : Nat) : Bool :=
  (s.laneDies g).all (fun d => let u := (s.lane g).lun d; !u.busy && decide (u.state = .idle ∨ u.state = .suspended ∨ u.state = .cacheRead))
/-- The Scribe suspends every erase that runs on the lane; MIN_RUN_US is waived (R182). -/
def State.retrainSuspend (s : State) (g : Nat) : State :=
  ((s.laneDies g).filter (fun d => decide (((s.lane g).lun d).state = .eraseBusy))).foldl (fun t d =>
    (t.commit g 0x014 [BitVec.ofNat 32 (lunBits d), 0, 0, 0, 0, 0, 0, 0] true true).1) s
/-- A program whose data-in has begun, or an erase whose LUN runs it, has gone to the die. -/
def State.began (s : State) (x : Cmd) : Bool :=
  x.begun || (s.lane x.lane).luns.any (fun e => match e.2.erase with | some k => s.cmd? (x.lane / 8) k = some x | none => false)
/-- One command of a lost lane ends ABORTED with DETAIL LANE_LOST, with the claims that it holds. -/
def State.lostCmd (s : State) (c h : Nat) : State :=
  match s.cmd? c h with
  | none => s
  | some x =>
    if x.stage = .ready then s
    else if x.claimed ∧ ¬ x.verifying then
      if x.pkt.opcode = 3 ∨ x.begun then (s.resultApplied c h stAborted (s.began x) .clean).finish c h stAborted 0x15
      else
        let r := s.cancelClaims c h .clean
        r.2.foldl (fun t e => t.finish e.1 e.2 stAborted 0x15) (r.1.finish c h stAborted 0x15)
    else s.abort c h stAborted 0x15
/-- The lane is lost: its bit in GLB_LANE_FAIL, the R50 state, its queued commands, and a record of class LANE_LOST. -/
def State.loseLane (s : State) (g : Nat) : State :=
  let s1 := ((s.cmdsOn g).foldl (fun t e => t.lostCmd e.1 e.2.1) s).seqLost g
  ((s1.failLane g).modLane g (fun l =>
    { l with strokes := [], run := none, waiting := none, bus := [], source := [], luns := [], mpOpen := none, ceLow := none, cal := none,
             forced := false })).blot
      (lnA g 0) 0x04 none [BitVec.ofNat 32 g]
/-- The candidates of a retrain: all, or the current one and those below it, the list rebuilt from the current caps. -/
def State.retrainList (s : State) (g : Nat) (first : Bool) : List Nat :=
  let l := s.candList g
  let cur := fld (s.regAt (lnA g Reg.LN_SIG_STAT)) 13 0
  if first then l else cur :: l.filter (candAfter cur)
/-- A candidate that fails returns every target to SDR timing mode 0 by its reset sequence (R141), which aborts a suspended erase and
voids what the registers hold, as a RESET does (R437). -/
def State.trainReset (s : State) (g : Nat) : State :=
  (s.laneDies g).foldl (fun t d => (t.dieReset g d []).modLun g d (fun u => { u with state := .idle, busy := false })) s
/-- The lane retrains over a candidate list, with the trials in order. -/
def State.retrainNow (s : State) (g : Nat) (first : Bool) (trials : List Trial) : State :=
  let s0 := if s.castPending g then s.castle g else s
  let s1 := (s0.dropRun g).modLane g (fun l => { l with retrainReq := none, retrainWait := false })
  let l := (s1.retrainList g first).zip trials
  let cur := fld (s1.regAt (lnA g Reg.LN_SIG_STAT)) 13 0
  let s1 := (if (s1.tried l).length ≤ 1 then s1 else s1.trainReset g).drive g (cpWalk s1.cpAddr (s1.targetCount g) cur (s1.tried l))
  let s2 := match s1.walkTrials l with
    | some (c, t) =>
      let v := trialValues (s1.regAt (lnA g Reg.LN_RX_SEL)) t
      (((s1.laneTrained g c v).keepEyes g t).lastTrain g 1).retrainResume g
    | none => s1.loseLane g
  s2.raise (lnA g 0) 2
/-- RETRAIN_RUN (R148): at an idle point the lane commits nothing more and its erases are suspended; once every target is
ready, the Scribe retrains it. A calibration run is abandoned when the retrain starts (R146). -/
def execRetrainRun (lane : Fin 128) (trials : List Trial) (s : State) : Out :=
  let g := lane.val
  match (s.lane g).retrainReq with
  | some first =>
    if s.working ∧ s.laneUp g ∧ s.scribeUp ∧ s.idlePoint g then
      looked s (if s.lunsReady g then s.retrainNow g first trials
        else ((s.dropRun g).modLane g (fun l => { l with retrainWait := true })).retrainSuspend g)
    else idle s
  | none => idle s
/-- RETRAIN_READY_TIMEOUT (R148): the targets have not become ready within 50 ms: the retrain is abandoned. -/
def execRetrainReadyTimeout (lane : Fin 128) (s : State) : Out :=
  let g := lane.val
  if s.working ∧ s.laneUp g ∧ (s.lane g).retrainWait ∧ ¬ s.lunsReady g then
    done s ((s.modLane g (fun l => { l with retrainReq := none, retrainWait := false, retrainLater := l.retrainReq })).retrainResume g)
  else idle s
/-- RETRAIN_REREQUEST (R148): 10 ms after an abandoned retrain it is requested again. -/
def execRetrainRerequest (lane : Fin 128) (s : State) : Out :=
  let g := lane.val
  match (s.lane g).retrainLater with
  | some first => if s.working ∧ s.laneUp g then done s (s.askRetrain g first) else idle s
  | none => idle s

end Sys2Proof.Machine
end

