-- ==== Sys2Proof/Machine/Signals.lean ====
section
/-! DEFINITION. The commands of the Signal Unit (R371, R376 to R378, R381, R441). -/
namespace Sys2Proof.Machine
open Sys2Proof

/-- A write of a vector's SG_VT_CTL, from whichever register it comes: its fields; clearing EN or setting MASK withdraws
messages not yet presented, clearing EN closes the window, clearing MASK while PEND stays 1 issues one message, unless the write clears
EN too (log entry 82), and a window that meets the new threshold delivers (R375, R376, R378, R380, R441). -/
def State.vecCtlPut (s : State) (v : Nat) (data : Word) : State :=
  let old := s.vecCtl v
  let s1 := (s.writeRow (vtA v 0) false data).modVec v (fun x => { x with bad := x.bad.filter (· ≠ 0) })
  let new := s1.vecCtl v
  let off := bit old 0 ∧ ¬ bit new 0
  let s2 := if off then (s1.vecShut v).vecWithdraw v else s1
  let s3 := if ¬ bit old 1 ∧ bit new 1 then s2.vecWithdraw v else s2
  let s4 := if bit old 1 ∧ ¬ bit new 1 ∧ bit new 3 ∧ ¬ off then s3.vecArrange v else s3
  s4.vecCheck v
/-- VECTOR_CTL_WRITE (R375, R376, R441). -/
def execVectorCtlWrite (vec : Fin 4096) (a : RpAcc) (s : State) : Out :=
  done s (s.portWrite (vtA vec.val 0) a (fun _ s => s.vecCtlPut vec.val a.data))
/-- A write of a doorbell page is discarded in FALLBACK, page 511 apart (R93, R189). -/
def State.pageDead (s : State) (page : Nat) : Bool := s.glb.mode = .fallback ∧ page ≠ 511
/-- DB_VEC_MASK_WRITE (R378): MASK of the eight vectors of the page's instance, as eight writes of SG_VT_CTL. -/
def execDbVecMaskWrite (page : Fin 512) (a : RpAcc) (s : State) : Out :=
  let t := page.val
  done s (s.portWrite (dbA t Reg.DB_VEC_MASK) a (fun _ s =>
    if s.pageDead t then s
    else (List.range 8).foldl (fun u k =>
      u.vecCtlPut (8 * t + k) (putFld (putFld (u.vecCtl (8 * t + k)) 3 3 0) 1 1 (fld a.data k k))) s))

/-- WINDOW_EXPIRY (R376, R76): an open window whose expiry cycle has come delivers, waking a dozed block. -/
def execWindowExpiry (vec : Fin 4096) (bad : Option (Fin 5)) (s : State) : Out :=
  let v := vec.val
  if s.alive ∧ ¬ s.pins.warmLow ∧ s.glb.mode ≠ .reset ∧ s.vecPassed v then
    done s ((s.wakeBlock.vecFind v bad).vecExpire v (s.vec v).expiry)
  else idle s
/-- The next message write of a vector is presented on its port and counted as sent (R377). -/
def State.vecSend (s : State) (v port : Nat) : State :=
  let s1 := s.modVec v (fun x => { x with msgs := x.msgs.drop 1 })
  if s.vecAligned v then
    ((s1.hpPush port (oneBeat (s.vecAddr v) (s.vecBytes v) 1 (.vector v))).count (vtA v 0x18)).count Reg.SG_VEC_SENT
  else s1
/-- VECTOR_MESSAGE_WRITE (R377): the vector's next message write, once the statuses that it awaits have returned. -/
def execVectorMessageWrite (vec : Fin 4096) (s : State) : Out :=
  match (s.vec vec.val).msgs with
  | (port, []) :: _ => if s.awake ∧ s.glb.mode ≠ .endgame then done s (s.vecSend vec.val port) else idle s
  | _ => idle s

/-- The latched bits of the sources of an SG_SENSE register whose mode leaves or enters LEVEL are discarded (R371). -/
def State.senseChange (s : State) (n : Nat) (old new : Word) : State :=
  let m : BitVec 128 := (List.range 16).foldl (fun m k =>
    let a := fld old (2 * k + 1) (2 * k)
    let b := fld new (2 * k + 1) (2 * k)
    if (a = 0) ≠ (b = 0) then m ||| BitVec.ofNat 128 (2 ^ (16 * n + k)) else m) 0
  s.modSignal (fun g => { g with latched := g.latched &&& ~~~ m })
/-- SENSE_MODE_WRITE (R371): a write of SG_SENSEn. -/
def execSenseModeWrite (n : Fin 8) (a : RpAcc) (s : State) : Out :=
  let ad := Reg.SG_SENSE + 4 * n.val
  done s (s.portWrite ad a (fun locked s =>
    let s1 := s.writeRow ad locked a.data
    s1.senseChange n.val (s.regAt ad) (s1.regAt ad)))
/-- A source is neither reserved nor absent from the build (R368). -/
def State.sourceHere (s : State) (n : Nat) : Bool :=
  decide (n < 16 ∨ (16 ≤ n ∧ n < min 32 (16 + s.nClusters)) ∨ (32 ≤ n ∧ n < 32 + s.nRegions) ∨ (34 ≤ n ∧ n < 42) ∨ (48 ≤ n ∧ n < 54))
/-- An edge in a direction can occur on a source from its level as it stands, and the source's mode senses it; a pulse shows both (R371). -/
def State.senses (s : State) (n : Nat) (rising : Bool) : Bool :=
  if 48 ≤ n then decide (s.sense n ≠ 0)
  else s.source n != rising && (decide (s.sense n = 3) || decide (s.sense n = (if rising then 1 else 2)))
/-- EDGE_CATCH (R381): while the block dozes, an edge of a source in its sensed direction is held, and wakes the block; rising is the edge's
direction (log entry 141). -/
def execEdgeCatch (src : Fin 128) (s : State) (rising : Bool := true) : Out :=
  let n := src.val
  if s.alive ∧ ¬ s.pins.warmLow ∧ s.signal.blockDozed ∧ s.sourceHere n ∧ s.senses n rising then
    done s ((s.modSignal (fun g => { g with caught := g.caught ||| BitVec.ofNat 128 (2 ^ n) })).wakeBlock)
  else idle s

end Sys2Proof.Machine
end

