-- ==== Sys2Proof/Machine/Opening.lean ====
section
/-! DEFINITION. OPENING (R79 to R95): the load window and its measurement (R88 to R90), the start of the cores (R162, R165
to R167), TRAIN (R140 to R142), SEAL (R92, R341, R342, R346), DEFECT (R130, R131), the entry to SERVICE, failures and
restarts (R85, R87), FALLBACK (R93, R94), and the reload of the Scribe (R431, R432). -/
namespace Sys2Proof.Machine
open Sys2Proof

/-! ### The image store (R88, R90) -/

/-- Byte i of the image store; the Quill area begins at 0, the Scribe area at 0x20000, the stroke tables at 0x60000. -/
def State.imgByte (s : State) (i : Nat) : Nat := (Tab.getD (fun _ => (0 : Byte)) s.images i).toNat
/-- n bytes of the image store from an offset on. -/
def State.imgBytes (s : State) (off n : Nat) : List Nat := (List.range n).map (fun k => s.imgByte (off + k))
/-- n bytes of the image store as a little-endian number. -/
def State.imgNat (s : State) (off n : Nat) : Nat := bytesNat (s.imgBytes off n)
/-- The lengths of MS_IMG_LEN in bytes: Quill, Scribe, stroke tables. -/
def State.imgLens (s : State) : Nat × Nat × Nat :=
  let w := s.regAt Reg.MS_IMG_LEN
  (fld w 9 0 * 256, fld w 20 10 * 256, fld w 31 21 * 256)
/-- The lengths are valid (R88). -/
def State.lensOk (s : State) : Bool :=
  let l := s.imgLens
  decide (1 ≤ l.1 ∧ l.1 ≤ 512 * 256 ∧ 1 ≤ l.2.1 ∧ l.2.1 ≤ 1024 * 256 ∧ l.2.2 ≤ 1024 * 256)
/-- A write to the load window has effect (R88). -/
def State.windowOpen (s : State) (off : Nat) : Bool :=
  decide (s.glb.mode = .opening ∧ s.glb.phase = .awaitImages ∧ off < 0xA0000) || (s.glb.scrArmed && decide (0x20000 ≤ off ∧ off < 0x60000))
/-- LOAD_WINDOW_WRITE (R88, R90): the four bytes of the word are stored. -/
def execLoadWindowWrite (addr : BitVec 23) (a : RpAcc) (s : State) : Out :=
  let ad := addr.toNat
  done s (s.portWrite ad a (fun _ s =>
    let off := ad % 0x200000
    if 0x600000 ≤ ad ∧ s.windowOpen off then
      { s with images := (List.range 4).foldl (fun t k => Tab.setD (fun _ => (0 : Byte)) t (off + k) (byteAt a.data k)) s.images }
    else s))

/-! ### Measurement (R89, R438) -/

/-- GLB_RELEASE (R2). -/
def State.release (s : State) : Word := BitVec.ofNat 32 (0x00030100 + s.build.patch.toNat)
/-- The byte string of R89. -/
def State.measured (s : State) : List Nat :=
  let l := s.imgLens
  s.imgBytes 0 l.1 ++ s.imgBytes 0x20000 l.2.1 ++ s.imgBytes 0x60000 l.2.2 ++
    natBytes 4 (s.regAt Reg.MS_IMG_LEN).toNat ++ natBytes 4 s.release.toNat
/-- The twelve words of a digest, MS_DIGEST0 the upper half of H0, and the new MS_LOAD_COUNT become visible together. -/
def State.publish (s : State) (d : List Nat) : State :=
  ((List.range 12).foldl (fun t k => t.setReg (Reg.MS_DIGEST + 4 * k) (BitVec.ofNat 32 (d.getD k 0))) s).modReg
    Reg.MS_LOAD_COUNT (· + 1)
/-- The digest equals MS_EXPECT0 to MS_EXPECT11. -/
def State.digestEq (s : State) : Bool :=
  (List.range 12).all (fun k => s.regAt (Reg.MS_DIGEST + 4 * k) == s.regAt (Reg.MS_EXPECT + 4 * k))
/-- ENFORCE refuses the digest (R438). -/
def State.digestBad (s : State) : Bool := bit (s.regAt Reg.MS_CTL) 0 && !s.digestEq

/-- GO (R85, R88, R89): AWAIT_IMAGES ends and MEASURE begins with the check of the lengths; a time-out in the same cycle
wins. -/
def execGo (a : RpAcc) (withTimeout : Bool) (s : State) : Out :=
  done s (s.portWrite Reg.GLB_OPEN_CTL a (fun k s =>
    let s1 := s.writeRow Reg.GLB_OPEN_CTL k a.data
    if bit a.data 0 ∧ s.glb.mode = .opening ∧ s.glb.phase = .awaitImages then
      if withTimeout ∧ fld (s.regAt Reg.GLB_OPEN_TIMEOUT) 15 0 ≠ 0 then s1.openFail .imageTimeout
      else
        let s2 := s1.toPhase .measure
        if s2.lensOk then s2.modGlb (fun g => { g with measureBusy := true }) else s2.openFail .imageFormat
    else s1))

/-! ### Headers and the stroke table (R162, R165 to R167) -/

/-- The check of an image's header: 0 it passes, 1 the header is wrong, 2 ENTRY is not below CODE_WORDS (R162). -/
def State.headerErr (s : State) (off magic len : Nat) : Nat :=
  let words := s.imgNat (off + 12) 4
  if s.imgNat off 4 ≠ magic ∨ s.imgNat (off + 4) 2 ≠ 1 ∨ s.imgNat (off + 6) 2 ≠ 0 ∨ s.imgNat (off + 16) 16 ≠ 0 ∨ len < words * 4 then 1
  else if words ≤ s.imgNat (off + 8) 4 then 2
  else 0
/-- An element word is valid (R166). -/
def elemOk (w : Nat) : Bool :=
  let op := w % 2 ^ 28
  match w / 2 ^ 28 with
  | 0 => decide (op < 8)
  | 1 => decide (op < 256)
  | 2 => decide (op < 64)
  | 3 => decide (op < 65536 ∧ op / 4 % 64 = 0 ∧ (op % 4 = 3 ∨ op < 4))
  | 4 => decide (op < 65536) && (if op / 16 % 2 = 1 then decide (op % 16 = 0 ∧ 1 ≤ op / 32 ∧ op / 32 ≤ 1024) else decide (op ≤ 8))
  | 5 => decide (op ≤ 8)
  | 6 => decide (op = 0)
  | 7 => decide (op < 2 ^ 21) &&
      (let n := op % 65536
       let k := op / 65536 % 16
       decide ((n ≠ 0 ∧ k = 0) ∨ (n = 0 ∧ 1 ≤ k ∧ k ≤ 4)))
  | 8 => decide (op = 0)
  | 9 => decide (op < 2)
  | _ => false
/-- A directory entry is in range, its elements from the body on within the area of t bytes (R165, R167). -/
def dirOk (d body t : Nat) : Bool :=
  let len := d / 2 ^ 48 % 256
  decide (d % 65536 < 2048 ∧ d / 2 ^ 21 % 8 = 0 ∧ d / 2 ^ 24 % 16 ≤ 10 ∧ d / 2 ^ 31 % 2 = 0 ∧ 1 ≤ len ∧ d / 2 ^ 56 = 0 ∧
    body + 4 * (d / 2 ^ 32 % 65536 + len) ≤ t)
/-- The elements of an entry are valid, the last one END. -/
def entryOk (e : Entry) : Bool :=
  e.elems.all (fun w => elemOk w.toNat) && decide (((e.elems.getLastD 0xFFFFFFFF#32).toNat) / 2 ^ 28 = 0)
/-- The check of the loaded table: 0 it passes, else the START_ERR of R167; T_LEN 0 loads no table. -/
def State.tableErr (s : State) : Nat :=
  let t := s.imgLens.2.2
  let n := s.tableNat 6 2
  let dir := s.tableNat 8 4
  let body := s.tableNat 12 4
  let len := s.tableNat 16 4
  let ds := (List.range n).map s.dirEntry
  if t = 0 then 0
  else if s.tableNat 0 4 ≠ 0x0054534B ∨ s.tableNat 4 2 ≠ 1 ∨ s.tableNat 24 40 ≠ 0 ∨ n = 0 ∨ 2048 < n ∨ dir % 8 ≠ 0 ∨ dir < 64 ∨
      body % 4 ≠ 0 ∨ len % 4 ≠ 0 ∨ t < dir + 8 * n ∨ t < body + len then 3
  else if crc32c ((List.range (body + len - 64)).map (fun k => s.tableByte (64 + k))) ≠ s.tableNat 20 4 then 4
  else if ds.any (fun d => !dirOk d body t) then 5
  else if ds.any (fun d => !entryOk (s.dirStroke d)) then 6
  else 0
/-- The words of an area of the image store. -/
def State.imgWords (s : State) (off len : Nat) : Tab Word :=
  (s.images.filter (fun e => decide (off ≤ e.1 ∧ e.1 < off + len))).foldl (fun t e =>
    let i := e.1 - off
    Tab.setD (fun _ => (0 : Word)) t (i / 4) (Tab.getD (fun _ => (0 : Word)) t (i / 4) ||| BitVec.ofNat 32 (e.2.toNat <<< (8 * (i % 4))))) []
/-- A core whose image is in its IRAM starts at ENTRY with Q1 to Q15 zero (R162). -/
def State.startCore (s : State) (c off len : Nat) : State :=
  s.modCore c (fun _ =>
    { Core.init with state := .starting, pc := s.imgNat (off + 8) 4 % 65536, iram := s.imgWords off len, kick := s.time.toNat })
/-- The Scribe starts from the store. -/
def State.startScribe (s : State) : State := s.startCore 16 0x20000 0x40000
/-- A check holds every Quill with a reason. -/
def State.startErrs (s : State) (e : Nat) : State :=
  s.clusterList.foldl (fun t c => t.modCore c (fun k => { k with startErr := e })) s
/-- START_PHASE (R85, R162, R167, R323): the SRAMs are initialised, every check is decided, and the cores start. -/
def execStartPhase (sramErr : Bool) (s : State) : Out :=
  if s.awake ∧ s.glb.phase = .start ∧ s.scribe.state = .held then
    if sramErr then done s (s.openFail .sramInit)
    else
      let s1 := s.modCache (fun c => { c with invalDone := true })
      let l := s1.imgLens
      let se := s1.headerErr 0x20000 0x0053494D l.2.1
      let qh := s1.headerErr 0 0x0051494D l.1
      let qe := if qh ≠ 0 then qh else s1.tableErr
      let s2 := s1.startErrs qe
      done s (if se ≠ 0 then s2.openFail .scribeStart
        else if qe ≠ 0 then s2.openFail .quillStart
        else (s2.clusterList.foldl (fun t c => t.startCore c 0 0x20000) s2).startScribe)
  else idle s

/-! ### The end of a measurement -/

/-- A reload that ends without its start: the Scribe is LOST again (R432). -/
def State.reloadFails (s : State) (r : Nat) : State := (s.modCore 16 (fun k => { k with state := .lost })).reloadEnd r
/-- MEASURE_DONE (R85, R89, R90, R431, R432, R438): the words of the store that hashing corrects, given by their rows, count in
bucket group 6 (R354), and the
digest is published; MEASURE goes on to START, a reload to the check
of the header and the start of the Scribe. -/
def execMeasureDone (uncorr : Bool) (s : State) (corrected : List (Fin 2560) := []) : Out :=
  if s.awake ∧ s.glb.measureBusy then
    let s1 := corrected.foldl (fun t r => t.corrected 0x1A0 r.val) (s.modGlb (fun g => { g with measureBusy := false }))
    if s.glb.phase = .measure then
      if uncorr then done s (s1.openFail .sramInit)
      else
        let s2 := s1.publish (sha384 s1.measured)
        done s (if s2.digestBad then s2.openFail .digestMismatch else s2.toPhase .start)
    else if uncorr then done s (s1.reloadFails 5)
    else
      let s2 := s1.publish (sha384 s1.measured)
      done s (if s2.digestBad then s2.reloadFails 3
        else if s2.headerErr 0x20000 0x0053494D s2.imgLens.2.1 ≠ 0 then s2.reloadFails 2
        else s2.startScribe)
  else idle s

/-! ### TRAIN (R119, R140 to R142, R153) -/

/-- A seal lane has failed. -/
def State.sealLaneFailed (s : State) : Bool := s.sealLanes.any s.laneFailed
/-- TRAIN ends: RESTORED clears, and SEAL begins, or OPENING fails with TRAIN_SEAL_LANE. -/
def State.trainEnd (s : State) : State :=
  let s1 := s.trainHeld
  if s1.sealLaneFailed then s1.openFail .trainSealLane else s1.clearRestored.toPhase .seal
/-- The lanes below a limit take their trims, and those of a list that the build has are discovered in order (R140 steps 1 to 5). -/
def State.discoverAll (s : State) (found : List LaneFound) (limit : Nat) : State :=
  (found.filter (fun f => decide (f.lane.val < limit))).foldl State.discover ((List.range limit).foldl State.laneTrims s)
/-- TRAIN_PHASE (R85, R140, R142): every lane runs steps 1 to 5, and goes on unless TRAIN_HOLD holds it. -/
def execTrainPhase (found : List LaneFound) (s : State) : Out :=
  if s.awake ∧ s.glb.phase = .train ∧ ¬ s.glb.walked then
    let s1 := (s.modGlb (fun g => { g with walked := true })).discoverAll found s.build.lanes
    done s (if (found.filter (fun f => decide (f.lane.val < s.build.lanes))).all (fun f => f.targets.isEmpty) then s1.openFail .noLanes
      else if bit (s1.regAt Reg.CAL_CTL) 0 then s1
      else s1.trainEnd)
  else idle s
/-- RESUME (R142): the hold that the lanes stand in ends, and they go on. -/
def execResume (a : RpAcc) (s : State) : Out :=
  done s (s.portWrite Reg.CAL_CTL a (fun k s =>
    let s1 := s.writeRow Reg.CAL_CTL k a.data
    if bit a.data 1 ∧ s1.glb.phase = .train ∧ s1.glb.walked then s1.trainEnd else s1))

/-! ### SEAL (R92, R336, R341, R342, R346) -/

/-- What a VALID copy says: its level, the target of a sanitize, and GEN. -/
structure SealRec where
  level : Fin 3
  sanit : Option (Fin 3)
  gen   : Word
  deriving DecidableEq, Repr
/-- The class of a copy (R92). -/
inductive CopyClass where
  | valid (r : SealRec) | blank | bad
  deriving DecidableEq, Repr
/-- The record in a frame's user bytes, where it meets every entry of the table of R342. -/
def sealRecord (user : BitVec 32768) : Option SealRec :=
  let b (i n : Nat) : Nat := (user.toNat >>> (8 * i)) % 2 ^ (8 * n)
  let lv := b 6 1
  let st := b 7 1
  let tg := b 8 1
  if b 0 4 = 0x4C53584E ∧ b 4 2 = 1 ∧ lv < 3 ∧ (st = 0 ∧ tg = lv ∨ st = 1 ∧ tg < lv) ∧ b 9 3 = 0 ∧ b 24 36 = 0 ∧
      crc32c (natBytes 60 (b 0 60)) = b 60 4 then
    some { level := Fin.ofNat 3 lv, sanit := if st = 1 then some (Fin.ofNat 3 tg) else none, gen := BitVec.ofNat 32 (b 12 4) }
  else none
/-- The record of raw frame f of region r's copy: it decodes by hard decoding with re-feed and passes outlet steps 1, 2, 3
and 5 without decryption (R342). -/
def State.sealFrame (s : State) (r f : Nat) (raw : Frame) : Option SealRec :=
  let d1 := hdeDecode false (s.iter1 (64 * r)) raw
  let d := if d1.ok then d1 else hdeDecode true 20 raw
  let plain := randomise (frameSeed (4096 * r) f 0 0) (BitVec.ofNat 37376 d.bits)
  let side := frameSide plain
  let user := frameUser plain
  if d.ok ∧ sideTag side = tagOf 511 0 ∧ sideEcho side = echoOf (mkMaw (4096 * r) 0 0 0 0) f ∧
      crc32c (natBytes 4096 user.toNat) = sideCrc side then sealRecord user
  else none
/-- The class of region r's copy. -/
def State.sealClass (s : State) (copies : List SealCopy) (r : Nat) : CopyClass :=
  match (copies.find? (fun c => c.region.val = r)).map (fun c => c.frames.take (s.geo (64 * r)).frames), s.sealDie r with
  | some (f :: l), true =>
    match ((f :: l).zipIdx).findSome? (fun e => s.sealFrame r e.2 e.1) with
    | some x => .valid x
    | none => if (s.blankClass ((f :: l).map ones)).1 = 0 then .blank else .bad
  | _, _ => .bad
/-- The record that wins among VALID copies: the higher level, and on equal levels the one whose STATE is SANITIZING. -/
def sealWins (a b : SealRec) : SealRec :=
  if a.level.val < b.level.val ∨ (a.level = b.level ∧ a.sanit.isNone) then b else a
/-- The level of the present copies is latched, and the copies to be rewritten under R92 are begun; false where no usable copy is found. -/
def State.sealLatch (s : State) (regions : List Nat) (copies : List SealCopy) : State × Bool :=
  let cls := regions.map (fun r => (r, s.sealClass copies r))
  let valid := cls.filterMap (fun e => match e.2 with | .valid x => some x | _ => none)
  match valid with
  | x :: l =>
    let w := l.foldl sealWins x
    let gen := valid.foldl (fun a y => if a.toNat < y.gen.toNat then y.gen else a) 0
    let s1 := (s.latchLevel w.level).modKeys (fun k => { k with gen := gen, again := w.sanit })
    let todo := (cls.filter (fun e => match e.2 with
      | .valid y => decide (y.level ≠ w.level ∨ y.sanit ≠ w.sanit)
      | _ => true)).map Prod.fst
    (s1.sealBegin .rewrite w.level (w.sanit.getD w.level) todo, true)
  | [] =>
    if cls.all (fun e => e.2 = .blank) ∧ bit (s.regAt Reg.GLB_OPEN_CTL) 1 then
      ((s.latchLevel 0).sealBegin .rewrite 0 0 regions, true)
    else (s, false)
/-- SEAL_PHASE (R85, R92, R336): the copies are classified and the level is latched; the phase ends now, or with the last copy that is
rewritten. -/
def execSealPhase (copies : List SealCopy) (s : State) : Out :=
  if s.awake ∧ s.glb.phase = .seal ∧ s.keys.job.isNone then
    let r := s.sealLatch s.regionList copies
    done s (if ¬ r.2 then r.1.openFail .sealRecord
      else if r.1.keys.job.isSome ∨ r.1.glb.phase ≠ .seal ∨ r.1.glb.mode ≠ .opening then r.1
      else r.1.sealPhaseEnd)
  else idle s

/-! ### DEFECT (R130, R131) -/

/-- The dies of the block that are present, ascending. -/
def State.presentDies (s : State) : List Nat :=
  s.laneList.flatMap (fun g => ((List.range 64).map (· + 64 * g)).filter s.diePresent)
/-- The number of entries of a line of bitmap that are not GOOD, among its first n. -/
def badIn : Nat → Nat → Nat
  | 0, _ => 0
  | n + 1, v => (if v % 4 = 0 then 0 else 1) + badIn n (v / 4)
/-- One die's bitmap is read line by line with streaming insertion; its entries that are not GOOD, or nothing where a fill
fails. Lines that hold only entries beyond PLANES × BLOCKS (R126) are not read, which is the model's choice (log entry 133). -/
def State.defectCount (s : State) (die : Nat) (cc : CcFault) : State × Option Nat :=
  let n := s.dieBlocks (die / 64)
  (List.range ((n + 511) / 512)).foldl (fun a k =>
    match a.2 with
    | none => a
    | some c =>
      let r := a.1.lookup (s.dfOff die (512 * k)) { loadQ unitOpening 128 with streaming := true } cc
      (r.1, r.2.map (fun b => c + badIn (min 512 (n - 512 * k)) b.toNat))) (s, some 0)
/-- The bitmap of one die is loaded and judged against BAD_MAX. -/
def State.defectDie (a : State × Bool) (die : Nat) (cc : CcFault) : State × Bool :=
  if ¬ a.2 then a
  else
    let r := a.1.defectCount die cc
    match r.2 with
    | none => (r.1, false)
    | some c =>
      let s1 := r.1.setReg Reg.DF_SCAN_STAT (BitVec.ofNat 32 die)
      (if fld (s1.regAt (lnA (die / 64) Reg.LN_GEOM_STAT)) 15 0 < c then (s1.count Reg.DF_OVER_LIMIT).raise 0xE000 3 else s1, true)
/-- The pages that DF_CTL.MARKER_PAGES selects among the n pages of a block: the first, and by its value the second and the last. -/
def State.markerPage (s : State) (n page : Nat) : Bool :=
  let m := fld (s.regAt Reg.DF_CTL) 2 1
  decide (page = 0 ∨ (page = 1 ∧ (m = 1 ∨ m = 3)) ∨ (page + 1 = n ∧ 2 ≤ m))
/-- A byte that the scan reads: any value but 0xFF on a selected page makes the entry FACTORY, whatever it was; the seal plane-blocks are
skipped (R131, R341). -/
def State.factoryMark (a : State × Bool) (m : FactoryMark) (cc : CcFault) : State × Bool :=
  let d := m.die.val
  if a.2 ∧ a.1.diePresent d ∧ m.entry.val < a.1.dieBlocks (d / 64) ∧ ¬ (d % 4096 = 0 ∧ m.entry.val = 0) ∧
      a.1.markerPage (a.1.geo (d / 64)).pages m.page.val ∧ m.byte ≠ 0xFF#8 then
    a.1.dfSet unitOpening d m.entry.val 3 cc
  else a
/-- DEFECT_PHASE (R130): the scan where FACTORY_SCAN is 1, then every present die's bitmap. -/
def execDefectPhase (markers : List FactoryMark) (cc : CcFault) (s : State) : Out :=
  if s.awake ∧ s.glb.phase = .defect ∧ ¬ bit (s.regAt Reg.DF_SCAN_STAT) 31 then
    if ¬ s.dfAssigned then looked s (s.openFail .defectStore)
    else
      let r := if bit (s.regAt Reg.DF_CTL) 0 then markers.foldl (fun a m => State.factoryMark a m cc) (s, true) else (s, true)
      let q := s.presentDies.foldl (fun a d => State.defectDie a d cc) r
      looked s (if q.2 then q.1.orReg Reg.DF_SCAN_STAT (flag true 31) else q.1.openFail .defectStore)
  else idle s

/-! ### The entry to SERVICE and to FALLBACK -/

/-- The accounts of the Ledger start from zero (R396). -/
def State.ledgerRestart (s : State) : State :=
  let t : State := s.regionList.foldl (fun u r => u.modRegion r (fun q => { q with used := 0 })) s
  t.modLedger (fun l => { l with credit := 0, reserve := 0, use := [], energy := 0, msCharge := 0, debtMs := 0, clearMs := 0 })
/-- A summary held at the entry to SERVICE or FALLBACK sets EG_SUMMARY (R419). -/
def State.summaryHeld (s : State) : State := if bit (s.regAt Reg.GLB_EG_SUM) 31 then s.raise 0 2 else s
/-- SERVICE_ENTRY (R79, R87, R293, R346, R396, R419): every phase is complete; COUNT clears, the Ledger restarts, MV_CFG applies,
and a sanitize that a copy reports begins again; upset is what the Ledger's check finds as its first copy is charged. -/
def execServiceEntry (upset : Upset) (s : State) : Out :=
  if s.awake ∧ s.glb.mode = .opening ∧ s.glb.phase = .defect ∧ bit (s.regAt Reg.DF_SCAN_STAT) 31 then
    let s1 := (s.modGlb (fun g =>
      { g with bootCount := 0, phase := .none, doneShown := true, mvCfg := s.regAt Reg.MV_CFG })).toMode .service
    let s2 := s1.ledgerRestart.summaryHeld
    done s (match s2.keys.again with
      | some l => (s2.modKeys (fun k => { k with again := none })).sanitBegin l upset
      | none => s2)
  else idle s
/-- FALLBACK is entered (R79, R87, R93, R94): cluster 0's Quill runs its ROM program, global lanes 0 to 7 train, the level
is latched from region 0's copy or is 2, and the Ledger restarts. -/
def State.enterFallback (s : State) (found : List LaneFound) (copies : List SealCopy) : State :=
  let s1 := ((s.modGlb (fun g => { g with restartWait := false, resetCounted := false, phase := .none })).toMode .fallback).presentFail
  let s2 := s1.ledgerRestart.summaryHeld.modCore 0 (fun k => { k with state := .rom, pc := 0 })
  let s3 := (s2.discoverAll found 8).trainHeld
  let r := s3.sealLatch [0] copies
  (if r.2 then r.1 else r.1.latchLevel 2).modKeys (fun k => { k with again := none })
/-- OPENING or, at COUNT 3, FALLBACK. -/
def State.restart (s : State) (found : List LaneFound) (copies : List SealCopy) : State :=
  if s.glb.bootCount < 3 then s.enterOpening else s.enterFallback found copies
/-- OPENING_RESTART (R87 step 3). -/
def execOpeningRestart (found : List LaneFound) (copies : List SealCopy) (s : State) : Out :=
  if s.alive ∧ ¬ s.pins.warmLow ∧ s.glb.restartWait ∧ s.glb.mode = .reset then done s (s.restart found copies) else idle s
/-- WARM_RESET_RELEASE (R71, R87): RST_WARM_N is seen high; steps 3 and 4 of R69 follow without a fuse reload, and lead to
FALLBACK where a failed OPENING was counted and COUNT is 3. A deferred warm reset whose input rose during ENDGAME has been
released by then (R73). -/
def execWarmResetRelease (found : List LaneFound) (copies : List SealCopy) (s : State) : Out :=
  if s.pins.warmLow ∨ s.glb.warmDeferred then
    let s1 := s.modPins (fun p => { p with warmLow := false })
    if s1.alive ∧ s1.glb.mode = .reset ∧ s1.fuse.done then
      let s2 := (s1.modGlb (fun g => { g with warmDeferred := false })).presets
      done s (if s2.glb.resetCounted then s2.restart found copies else s2.enterOpening)
    else .next s1
  else idle s
/-- CLEAR (R94): in FALLBACK, COUNT returns to 0. -/
def execClear (a : RpAcc) (s : State) : Out :=
  done s (s.portWrite Reg.GLB_BOOT_ATTEMPT a (fun _ s =>
    if bit a.data 31 ∧ s.glb.mode = .fallback then s.modGlb (fun g => { g with bootCount := 0 }) else s))

/-! ### Limits (R85) -/

/-- The limit of AWAIT_IMAGES that GLB_OPEN_TIMEOUT.MS gives has passed (R85). -/
def State.imagesLate (s : State) : Bool :=
  let ms := fld (s.regAt Reg.GLB_OPEN_TIMEOUT) 15 0
  decide (s.glb.mode = .opening ∧ s.glb.phase = .awaitImages ∧ ms ≠ 0 ∧ ms * 100000 ≤ s.since s.glb.phaseAt)
/-- AWAIT_IMAGES_TIMEOUT (R85). -/
def execAwaitImagesTimeout (s : State) : Out :=
  if s.awake ∧ s.imagesLate then done s (s.openFail .imageTimeout) else idle s
/-- The limit of a phase in cycles of CLK_AON (R85). -/
def phaseLimit : Phase → Nat
  | .charCheck => 100 | .measure => 100000 | .start => 1000000 | .train => 50000000 | .seal => 5000000 | .defect => 6000000000
  | .none | .awaitImages => 0
/-- A core that has not executed READY when START's limit passes fails OPENING; a late Quill keeps its reason (R162). -/
def State.startLate (s : State) : State :=
  let s1 := s.clusterList.foldl (fun t c =>
    if (s.cluster c).quill.ready then t else t.modCore c (fun k => { k with startErr := 7 })) s
  if ¬ s.scribe.ready then s1.openFail .scribeStart
  else s1.openFail .quillStart
/-- PHASE_TIMEOUT (R85, R162, R417): a phase passes its limit; seal copies that still wait to be written then count as failed rewrites. -/
def execPhaseTimeout (s : State) : Out :=
  if s.awake ∧ s.glb.mode = .opening ∧ phaseLimit s.glb.phase ≤ s.since s.glb.phaseAt then
    match s.glb.phase with
    | .seal =>
      done s (if (s.keys.job.map (fun j => !j.runs)).getD false then s.sealExpired else s.openFail .phaseTimeout)
    | .charCheck | .measure | .train => done s (s.openFail .phaseTimeout)
    | .start => done s s.startLate
    | .defect => if bit (s.regAt Reg.DF_SCAN_STAT) 31 then idle s else done s (s.openFail .phaseTimeout)
    | .none | .awaitImages => idle s
  else idle s

/-! ### The reload of the Scribe (R431, R432) -/

/-- A write of GLB_SCR_CTL: ARM, then GO (R431). -/
def State.scrCtl (s : State) (data : Word) : State :=
  let s1 := if bit data 0 ∧ s.scribe.state = .lost then s.modGlb (fun g => { g with scrArmed := true }) else s
  if bit data 1 ∧ s1.glb.scrArmed then
    (s1.modGlb (fun g => { g with scrArmed := false, measureBusy := true })).modCore 16 (fun k => { k with state := .reloading, goAt := s.time.toNat })
  else s1
/-- ARM (R431). -/
def execArm (a : RpAcc) (s : State) : Out :=
  done s (s.portWrite Reg.GLB_SCR_CTL a (fun _ s => if bit a.data 0 then s.scrCtl a.data else s))
/-- SCRIBE_RELOAD_GO (R431). -/
def execScribeReloadGo (a : RpAcc) (s : State) : Out :=
  done s (s.portWrite Reg.GLB_SCR_CTL a (fun _ s => if bit a.data 1 then s.scrCtl a.data else s))
/-- The LUNs that wait for RESET_LUN are passed to the Scribe (R432). -/
def State.passResets (s : State) : State :=
  s.laneList.foldl (fun t g => ((s.lane g).luns.filter (fun e => e.2.awaitReset)).foldl (fun u e => u.toScribe g 3 (lunBits e.1)) t) s
/-- SCRIBE_RELOAD (R432): a reload ends with READY within 10 ms of GO, with an uncorrectable word in the initialisation, or, once the 10 ms
have passed, without READY, which noReady looks for. -/
def execScribeReload (sramErr noReady : Bool) (s : State) : Out :=
  if s.awake ∧ s.glb.mode ≠ .opening ∧ s.scribe.state = .starting then
    if s.readyInTime then
      done s (((s.modCore 16 (fun k => { k with state := .running, kick := s.time.toNat })).reloadEnd 1).passResets)
    else if sramErr then done s (s.reloadFails 5)
    else if (noReady ∨ s.scribe.ready) ∧ 1000000 < s.since s.scribe.goAt then done s (s.reloadFails 4)
    else idle s
  else idle s

end Sys2Proof.Machine
end

