-- ==== Sys2Proof/Machine/Doze.lean ====
section
/-! DEFINITION. Doze of clusters, SDE regions and the block, and their wakes (R68, R74 to R76, R151, R153, R323, R359, R381,
R424, R434). -/
namespace Sys2Proof.Machine
open Sys2Proof

/-! ### Clusters (R74, R75) -/

/-- A cluster may doze: its bit of CL_DOZE_EN, or THRIFT with LG_CTL.THRIFT_DOZE (R74, R406); never in FALLBACK (R93). -/
def State.mayDoze (s : State) (c : Nat) : Bool :=
  decide (s.glb.mode ≠ .fallback) &&
    (bit (s.regAt Reg.CLK_DOZE_CTL) c || (decide (s.glb.mode = .thrift) && bit (s.regAt Reg.LG_CTL) 3))
/-- The opening sequencer works on the lanes of a cluster: from its release to the end of TRAIN, and on the seal lanes in SEAL
(R85). -/
def State.opensOn (s : State) (lanes : List Nat) : Bool :=
  decide (s.glb.mode = .opening) && (decide (s.glb.phase.code < 6) || (decide (s.glb.phase = .seal) && lanes.any s.sealLanes.contains))
/-- The lane is at an idle point with no die operation outstanding. -/
def State.laneStill (s : State) (g : Nat) : Bool := s.idlePoint g && (s.lane g).luns.all (fun e => decide (e.2.state = .idle) && !e.2.busy)
/-- A slab of the bank of cluster c. -/
def inBank (c n : Nat) : Bool := decide (512 * c ≤ n ∧ n < 512 * c + 512)
/-- A Mover channel moves data of the bank of cluster c. -/
def Channel.touches (q : Channel) (c : Nat) : Bool :=
  (match q.cmd with | some (k, _, _) => decide (k = c) | none => false) || q.chain.any (fun d => inBank c d.slab)
/-- Work that needs cluster c: a packet routed to it, a command that it holds or a COPY to it, a retrain of one of its lanes,
the work of the opening sequencer on its lanes, or no permission to doze (R74). -/
def State.wakeDemand (s : State) (c : Nat) : Bool :=
  let lanes := (List.range 8).map (· + 8 * c)
  !s.mayDoze c || s.fetching.any (fun e => decide (e.route = some c)) || !(s.cmdsOf c).isEmpty ||
    s.cmdList.any (fun e => decide (e.2.2.pkt.opcode = 4 ∧ mawCluster e.2.2.pkt.maw1 = c)) ||
    lanes.any (fun g => (s.lane g).retrainReq.isSome) || s.opensOn lanes ||
    (s.keys.job.isSome && lanes.any s.sealLanes.contains) ||
    (s.keys.sanit.isSome && lanes.any (fun g => !(s.sanitDies g).isEmpty))
/-- What R74 asks of a cluster that dozes, and that nothing needs it. -/
def State.clusterIdle (s : State) (c : Nat) : Bool :=
  let q := s.cluster c
  q.bulk.words.isEmpty && q.urgent.words.isEmpty && (List.range 8).all (fun l => s.laneStill (8 * c + l)) &&
    s.slabs.all (fun e => !inBank c e.1 || decide (e.2.st ≠ .held)) && s.channels.all (fun e => !e.2.touches c) &&
    q.hde0.isEmpty && q.hde1.isEmpty && q.cipher0.isNone && q.cipher1.isNone && q.decipher.isEmpty && q.encipher.isEmpty
/-- The eight active words of a lane (R153). -/
def State.calWords (s : State) (g : Nat) : List Word :=
  [s.regAt (lnA g Reg.LN_SIG_STAT) &&& 0x3FFF#32, s.regAt (lnA g Reg.LN_CAL_TEMP)] ++ (s.lane g).active
/-- The registers that a test of the key's page and offset names return to their reset values; PAGE_CTL.EXPERT and PAGE_LOCK
clear with nothing but what R107 and R108 name. -/
def State.lose (s : State) (lost : Nat → Nat → Bool) : State :=
  { s with regs := s.regs.filter (fun e =>
      !(lost (e.1 % 0x800000 / 0x1000) (e.1 % 0x1000) && decide (e.1 % 0x1000 ≠ 0x008 ∧ e.1 % 0x1000 ≠ 0xFF0))) }
/-- A register of a lane page that OPENING leaves and a doze keeps (log entry 38): the geometry, targets, frames and levels that
discovery has found (R118 to R120), and with the saved words (R153) the shadows and the signalling state they belong to. -/
def laneFound (o : Nat) : Bool :=
  decide ((Reg.LN_GEOM0 ≤ o ∧ o ≤ Reg.LN_GEOM_STAT) ∨ o = Reg.LN_SIG_STAT ∨ o = Reg.LN_CAL_TEMP ∨
    (Reg.LN_RX_SEL ≤ o ∧ o ≤ Reg.LN_TX_DQS) ∨ o = Reg.LN_FRAME_STAT ∨ o = Reg.LN_RL_GEOM)
/-- An offset that R381 saves: IRQ_RAW, IRQ_EN and ERR_CAPT0 to ERR_CAPT7. -/
def irqSaved (o : Nat) : Bool := decide (o = 0x10 ∨ o = 0x14 ∨ (0x20 ≤ o ∧ o < 0x40))
/-- What the registers of cluster c's pages lose at its doze: all but what R381 saves and what OPENING has found on the lanes (R68). -/
def State.clusterLose (s : State) (c : Nat) : State :=
  s.lose (fun p o => !irqSaved o &&
    ((decide (0x20 + 8 * c ≤ p ∧ p < 0x28 + 8 * c) && !laneFound o) || decide (p = 0x10 + c ∨ p = 0xE0 + 2 * c ∨ p = 0xE1 + 2 * c)))
/-- A lane of a cluster that dozes: the pending shadow is castled, a calibration run is abandoned, the eight words are saved,
and the lane takes the R50 state. The lane engine keeps nothing else but what discovery and training found, its Nib's trims
(R156), the eyes (R144) and the candidates among it (R68; log entry 38): its LUNs' records, its active table and its virtual
clock are lost. -/
def State.laneDoze (s : State) (g : Nat) : State :=
  let s1 := (if s.castPending g then s.castle g else s).dropRun g
  (s1.modLane g (fun l =>
    { Lane.init with
      enabled := l.enabled, candidates := l.candidates, active := l.active, trims := l.trims, widths := l.widths,
      trainEyes := l.trainEyes, forced := l.forced, retrainReq := l.retrainReq,
      retrainLater := l.retrainLater, saved := if l.enabled then some (s1.calWords g) else none })).pxResetPage (lnA g 0)
/-- CLUSTER_DOZE (R68, R74, R381, R434): an idle cluster is gated, its interrupt state and calibration saved. -/
def execClusterDoze (cl : Fin 16) (s : State) : Out :=
  let c := cl.val
  if s.awake ∧ s.clusterUp c ∧ ¬ s.wakeDemand c ∧ s.clusterIdle c then
    let s1 := ((List.range 8).map (· + 8 * c)).foldl State.laneDoze s
    let s2 := ((s1.pxResetPage (clA c 0)).pxResetPage (deA (2 * c) 0)).pxResetPage (deA (2 * c + 1) 0)
    done s ((s2.clusterLose c).modCluster c (fun q => { q with dozed := true }))
  else idle s
/-- A lane of a cluster that wakes: the saved words go into the active set, and recalibration starts when the temperature has
moved by more than CAL_TEMP_DELTA since (R75, R153). WP_N stays low in ENDGAME, which parks the lanes (R413). -/
def State.laneWake (s : State) (g : Nat) : State :=
  match (s.lane g).saved with
  | some ws => (s.modLane g (fun l => { l with active := ws.drop 2, saved := none, wpHigh := decide (s.glb.mode ≠ .endgame) })).tempTrigger g
  | none => s
/-- The bank of a cluster is zero-filled. -/
def State.zeroBank (s : State) (c : Nat) : State :=
  let t := (s.slabs.filter (fun e => inBank c e.1)).map Prod.fst
  t.foldl (fun u n => u.modSlab n (fun x => { Slab.init with retired := x.retired })) s
/-- The Quill restarts at its image's entry point; a faulted one stays halted (R75, R161). -/
def State.quillRestart (s : State) (c : Nat) : State :=
  if (s.cluster c).quill.state = .fault then s
  else s.modCore c (fun k =>
    { k with state := .running, regs := [], pc := s.imgNat 8 4 % 65536, events := [], timers := [] })
/-- A dozed cluster wakes. -/
def State.clusterWake (s : State) (c : Nat) : State :=
  let s1 := (((s.modCluster c (fun q => { q with dozed := false })).zeroBank c).quillRestart c).allocPrograms.slabRoom
  ((List.range 8).map (· + 8 * c)).foldl State.laneWake s1
/-- CLUSTER_WAKE (R74, R75): a demand wakes a dozed cluster. -/
def execClusterWake (cl : Fin 16) (s : State) : Out :=
  let c := cl.val
  if s.awake ∧ c < s.nClusters ∧ (s.cluster c).dozed ∧ s.wakeDemand c then done s (s.clusterWake c) else idle s

/-! ### SDE regions (R76) -/

/-- An SDE region is idle: no context in use and no request. -/
def Region.still (r : Region) : Bool := r.ctx.all (fun e => e.2.isNone) && r.waiting.isEmpty
/-- The pages of a region's SDEs return to their reset values: the region loses all state (R68). -/
def State.regionLose (s : State) (r : Nat) : State :=
  s.lose (fun p _ => decide (0x100 + 8 * r ≤ p ∧ p < 0x108 + 8 * r))
/-- SDE_REGION_DOZE (R68, R76): in every mode in which the region is released (R85), but never in FALLBACK (R93). -/
def execSdeRegionDoze (reg : Fin 2) (s : State) : Out :=
  let r := reg.val
  if s.awake ∧ s.glb.mode ≠ .fallback ∧ (s.glb.mode = .opening → 5 ≤ s.glb.phase.code) ∧ r < s.nRegions ∧ ¬ (s.region r).dozed ∧ bit (s.regAt Reg.CLK_DOZE_CTL) (16 + r) ∧ (s.region r).still then
    done s ((s.regionLose r).modRegion r (fun q => { q with dozed := true, ctx := [] }))
  else idle s
/-- SDE_REGION_WAKE (R76, R250): a soft-decode request wakes the region. -/
def execSdeRegionWake (reg : Fin 2) (s : State) : Out :=
  let r := reg.val
  if s.awake ∧ r < s.nRegions ∧ (s.region r).dozed ∧ ¬ (s.region r).waiting.isEmpty then
    done s (s.modRegion r (fun q => { q with dozed := false }))
  else idle s

/-! ### The block (R76) -/

/-- The Context Cache lets the block doze: no operation, lookup or write status is waited for, no write-back has failed and no line is
poisoned (R328, R329). -/
def Cache.still (c : Cache) : Bool :=
  c.job.isNone && c.held.isEmpty && c.served.isEmpty && c.stuck.isEmpty && c.miss.all (fun e => e.2.isNone) &&
    c.victims.all (fun v => !v.writing && !v.failed && !v.line.poison) &&
    c.ways.all (fun e => match e.2 with | some l => !l.poison | none => true)
/-- No line is dirty. -/
def Cache.clean (c : Cache) : Bool :=
  c.victims.all (fun v => !v.line.dirty) && c.ways.all (fun e => match e.2 with | some l => !l.dirty | none => true)
/-- The Blotter lets the block doze: no record waits, and none of the main log is later than BL_ACK (R424). -/
def State.blotterStill (s : State) : Bool :=
  s.blotter.queue.isEmpty && s.blotter.main.all (fun e => decide (((e.2.getD 0 0) - s.regAt Reg.BL_ACK).toInt ≤ 0))
/-- The central units are idle: Ring Fetcher, Mover, completions, the sequences of the Manager, and those of OPENING and ENDGAME.
Sweep is idle between two
rows and Patrol between two samples, each of which is one command, and a sample that is issued is a command in flight. -/
def State.centralStill (s : State) : Bool :=
  s.fetching.isEmpty && s.cmdList.isEmpty && s.ready.isEmpty && s.lateQ.isEmpty && s.posted.isEmpty &&
    s.glb.doorbells.isEmpty && s.glb.owed.isEmpty && s.channels.all (fun e => decide (e.2.st = .idle ∨ e.2.st = .halted)) &&
    s.ports.all (fun e => e.2.queue.isEmpty && e.2.reads.all (fun t => t.2.isNone) && e.2.writes.all (fun t => t.2.isNone)) &&
    s.keys.load.isNone && s.keys.job.isNone && s.keys.sanit.isNone && s.tenants.resetOf.isNone && !s.glb.measureBusy &&
    decide (s.glb.mode ≠ .opening) && (decide (s.glb.mode ≠ .endgame) || s.endgame.ended)
/-- The write-back of every dirty line is issued, as far as the victim cache has room (R76, R318). -/
def State.cacheClean (s : State) : State := s.cache.tags.foldl (fun t tag => t.visit 7 tag) s
/-- The cache is invalidated (R76, R323). -/
def State.cacheFlush (s : State) : State := s.modCache (fun _ => { Cache.init with invalDone := true })
/-- The Scribe's clock is gated: its IRAM is kept, its registers, events and timers are lost, and it begins again at its image's entry
point (R68; log entry 40). -/
def State.scribeLose (s : State) : State :=
  if s.scribe.state = .running then
    s.modCore 16 (fun k => { k with regs := [], pc := s.imgNat 0x20008 4 % 65536, events := [], timers := [] })
  else s
/-- BLOCK_DOZE (R68, R76, R323, R359, R381, R424, R427): the central domain is gated, in no mode but FALLBACK excluded (R93); the main
log and the Scribe's registers are lost, the escalation windows close, and Sweep's pass ends. While a line is dirty, the entry issues its
write-back, and the block dozes once every one has been answered OK. -/
def execBlockDoze (s : State) : Out :=
  if s.awake ∧ s.glb.mode ≠ .fallback ∧ bit (s.regAt Reg.CLK_DOZE_CTL) 18 ∧ s.clusterList.all (fun c => (s.cluster c).dozed) ∧
      s.regionList.all (fun r => (s.region r).dozed) ∧ s.centralStill ∧ s.cache.still ∧ s.blotterStill then
    if ¬ s.cache.clean then done s s.cacheClean
    else
      let s1 := (s.cacheFlush.scribeLose.modBlotter (fun b => { b with main := [], windows := [] })).modScrub (fun x => { x with row := 0 })
      done s (s1.modSignal (fun g => { g with blockDozed := true, restoring := false, heldN := s.irqN, heldF := s.irqF }))
  else idle s
/-- A cause of R76 wakes the block: a caught edge, an open window whose expiry has passed, or a reading of 105 °C or more. An
access, a doorbell and a power-fail warning wake it within their own commands. -/
def State.wakeCause (s : State) : Bool :=
  decide (s.signal.caught ≠ 0) || (s.signal.vecs.map Prod.fst).any s.vecPassed ||
    decide (580 ≤ s.pins.therm0.toNat) || (decide (s.nRegions = 2) && decide (580 ≤ s.pins.therm1.toNat))
/-- BLOCK_WAKE (R76, R381). -/
def execBlockWake (s : State) : Out :=
  if s.alive ∧ ¬ s.pins.warmLow ∧ s.signal.blockDozed ∧ s.wakeCause then done s s.wakeBlock else idle s

end Sys2Proof.Machine
end

