-- ==== Sys2Proof/Machine/Manager.lean ====
section
/-! DEFINITION. The Manager's commands on the GLB, BL and PB pages: ownership (R83, R84), the expert unlock (R106, R107), page
locks and error captures (R108, R109), the retained log (R425), and the perturbation area (R433 to R435). -/
namespace Sys2Proof.Machine
open Sys2Proof

/-! ### Ownership (R83) -/

/-- The recorded owner changes, which closes the expert unlock (R106). -/
def State.setOwner (s : State) (o : Option (BitVec 8)) : State :=
  (s.modGlb (fun g => { g with owner := o, successor := 0, succEn := false })).expertDrop
/-- A claim: the first owner keeps SUCCESSOR and SUCC_EN as they are; the successor clears them. -/
def State.claimBy (s : State) (id : BitVec 8) : State :=
  match s.glb.owner with
  | none => (s.modGlb (fun g => { g with owner := some id })).expertDrop
  | some _ => if s.glb.succEn ∧ id = s.glb.successor then s.setOwner (some id) else s
/-- MGR_OWNER_CLAIM (R83): CLAIM 1, RELEASE 0. -/
def execMgrOwnerClaim (a : RpAcc) (s : State) : Out :=
  done s (s.portWrite Reg.GLB_MGR_OWNER a (fun _ s => if bit a.data 30 ∧ ¬ bit a.data 29 then s.claimBy a.id else s))
/-- MGR_OWNER_RELEASE (R83): RELEASE 1, CLAIM 0, from the owner. -/
def execMgrOwnerRelease (a : RpAcc) (s : State) : Out :=
  done s (s.portWrite Reg.GLB_MGR_OWNER a (fun _ s =>
    if bit a.data 29 ∧ ¬ bit a.data 30 ∧ s.isOwner a.id then s.setOwner none else s))
/-- MGR_SUCCESSOR_SET (R83): CLAIM 0, RELEASE 0, from the owner. -/
def execMgrSuccessorSet (a : RpAcc) (s : State) : Out :=
  done s (s.portWrite Reg.GLB_MGR_OWNER a (fun _ s =>
    if ¬ bit a.data 29 ∧ ¬ bit a.data 30 ∧ s.isOwner a.id then
      s.modGlb (fun g => { g with successor := BitVec.ofNat 8 (fld a.data 15 8), succEn := bit a.data 16 })
    else s))

/-! ### The expert unlock (R106) -/

/-- The latched level lets the expert level or the perturbation area open: 0 or 1. -/
def State.levelLow (s : State) : Bool :=
  match s.glb.level with
  | some l => decide (l.val < 2)
  | none => false
/-- EXPERT_ARM (R106): KEY 0x4E58 arms a CLOSED unlock, or is refused by the seal state. SEAL_REFUSED falls with a successful arming, which is
the model's choice (log entry 131). -/
def execExpertArm (a : RpAcc) (s : State) : Out :=
  let closed := s.glb.unlock = .closed
  done s (s.portWrite Reg.GLB_EXPERT_UNLOCK a (fun _ s =>
    if closed ∧ fld a.data 31 16 = 0x4E58 then
      if s.levelLow then s.modGlb (fun g => { g with unlock := .armed, sealRefused := false })
      else s.modGlb (fun g => { g with sealRefused := true })
    else s))
/-- EXPERT_OPEN (R106): the owner's next write is KEY 0xB1A7. -/
def execExpertOpen (a : RpAcc) (s : State) : Out :=
  done s (s.portWrite Reg.GLB_EXPERT_UNLOCK a (fun _ s =>
    if s.glb.unlock = .armed ∧ fld a.data 31 16 = 0xB1A7 then
      (s.modGlb (fun g => { g with unlock := .open, sealRefused := false })).blot 0 0x29 none [a.id.setWidth 32]
    else s))
/-- EXPERT_CLOSE (R106, R107): KEY 0x0000 closes an OPEN unlock. -/
def execExpertClose (a : RpAcc) (s : State) : Out :=
  done s (s.portWrite Reg.GLB_EXPERT_UNLOCK a (fun _ s =>
    if s.glb.unlock = .open ∧ fld a.data 31 16 = 0 then s.expertShut else s))

/-! ### Locks, captures and the retained log -/

/-- PAGE_LOCK (R108): LOCK of a page becomes 1; doorbell pages and plain arrays have none. -/
def execPageLock (page : Fin 2048) (a : RpAcc) (s : State) : Out :=
  let ad := 0x1000 * page.val + 0xFF0
  done s (s.portWrite ad a (fun k s => if inPage ad then s.writeRow ad k a.data else s))
/-- ERR_CAPT_CLEAR (R109): a 1 written to VALID clears the captured record. -/
def execErrCaptClear (page : Fin 2048) (a : RpAcc) (s : State) : Out :=
  let ad := 0x1000 * page.val + 0x020
  done s (s.portWrite ad a (fun _ s =>
    if inPage ad ∧ bit a.data 31 then (List.range 8).foldl (fun t k => t.setReg (ad + 4 * k) 0) s else s))
/-- RET_CLEAR (R425): the retained log is emptied; ESC_WIN_MS of the same write acts. -/
def execRetClear (a : RpAcc) (s : State) : Out :=
  done s (s.portWrite Reg.BL_CFG a (fun k s =>
    let s1 := s.writeRow Reg.BL_CFG k a.data
    if bit a.data 31 then
      (s1.modBlotter (fun b => { b with retained := [], retNext := 0 })).modReg Reg.BL_STAT (fun w => w &&& 0xFFFF0000#32)
    else s1))

/-! ### The perturbation area (R433 to R435) -/

/-- A write without effect counts in PB_CTL.DROP (R433, R434). -/
def State.pxDrop (s : State) : State := s.countField Reg.PB_CTL 15 8 1
/-- PB_OPEN (R433): KEY 0x7E57 while the expert level is active on the PB page and the level is 0 or 1. -/
def execPbOpen (a : RpAcc) (s : State) : Out :=
  done s (s.portWrite Reg.PB_CTL a (fun _ s =>
    if fld a.data 31 16 = 0x7E57 ∧ s.expertActive 0xF000 ∧ s.levelLow ∧ ¬ s.glb.pbOpen then
      (s.modGlb (fun g => { g with pbOpen := true })).blot 0xF000 0x2B none [a.id.setWidth 32]
    else s))
/-- PB_CLOSE (R433): KEY 0x0000 closes the area and resets every slot. -/
def execPbClose (a : RpAcc) (s : State) : Out :=
  done s (s.portWrite Reg.PB_CTL a (fun _ s => if fld a.data 31 16 = 0 ∧ s.glb.pbOpen then s.pbClose else s))
/-- The address is that of a PX_CTL of a page that R435 names. -/
def isPxCtl (k : Nat) : Bool := hasPerturb (pageKind k) && decide (0xF00 ≤ k % 0x1000 ∧ k % 0x1000 < 0xF20 ∧ k % 8 = 0)
/-- A slot's generator is seeded. -/
def State.pxReseed (s : State) (k : Nat) : State := { s with draws := Tab.setD (fun _ => 0) s.draws k (s.pxSeed k) }
/-- PB_SEED_WRITE (R435): the seed is written and the generator of every armed slot is seeded with it. -/
def execPbSeedWrite (a : RpAcc) (s : State) : Out :=
  done s (s.portWrite Reg.PB_SEED a (fun k s =>
    if k then s
    else
      let s1 := s.writeRow Reg.PB_SEED k a.data
      ((s1.regs.filter (fun e => isPxCtl e.1 && bit e.2 0)).map Prod.fst).foldl State.pxReseed s1))
/-- The latched level allows a kind: fault kinds at level 0 only (R434). -/
def State.kindAllowed (s : State) (kind : Nat) : Bool := decide (kind < 8) || decide (s.glb.level = some 0)
/-- PX_CTL_WRITE (R433 to R435): while the area is OPEN a slot is written; one that may not arm keeps EN at 0. -/
def execPxCtlWrite (page : Fin 2048) (slot : Fin 4) (a : RpAcc) (s : State) : Out :=
  let ad := 0x1000 * page.val + 0xF00 + 8 * slot.val
  done s (s.portWrite ad a (fun _ s =>
    match pageKind ad with
    | .doorbell _ | .vector _ | .window | .reserved => s
    | k =>
      if ¬ s.glb.pbOpen then s.pxDrop
      else if ¬ hasPerturb k then s
      else
        let was := bit (s.regAt ad) 0
        let s1 := s.writeRow ad false a.data
        if ¬ bit a.data 0 then s1
        else if pxRow k (fld a.data 12 8) (fld a.data 7 4) ∧ s.kindAllowed (fld a.data 7 4) then (if was then s1 else s1.pxReseed ad)
        else (s1.modReg ad (fun w => w &&& 0xFFFFFFFE#32)).pxDrop))

end Sys2Proof.Machine
end

