-- ==== Sys2Proof/Machine/Scrub.lean ====
section
/-! DEFINITION. Sweep (R359 to R361), the leak of the buckets (R354), a repair that the Manager adds (R358), and Patrol's
walk (R362, R363, R367). -/
namespace Sys2Proof.Machine
open Sys2Proof

/-! ### Sweep (R359, R360) -/

/-- The macro groups that Sweep walks, in order, with their rows. -/
def State.sweepGroups (s : State) : List (Nat × Nat) :=
  (List.range (8 * s.nClusters)).map (fun g => (g, 2080)) ++ (List.range 32).map (fun k => (0x80 + k, 1024)) ++
    s.clusterList.flatMap (fun c => [(0x180 + 2 * c, 1536), (0x181 + 2 * c, 2048)]) ++ [(0x1A0, 2560), (0x1A1, 1024)]
/-- Bit of SW_CTL.ARRAYS of a group's array. -/
def arrayOf (g : Nat) : Nat :=
  if g < 0x80 then 0 else if g < 0xA0 then 1 else if g < 0x1A0 then (if g % 2 = 0 then 2 else 3) else if g = 0x1A0 then 4 else 5
/-- A group is skipped: its array is not enabled in the pass, or its cluster is dozed. -/
def State.sweepSkips (s : State) (g : Nat) : Bool :=
  !s.scrub.arrays.testBit (arrayOf g) ||
    (if g < 0x80 then (s.cluster (g / 8)).dozed else if 0x180 ≤ g ∧ g < 0x1A0 then (s.cluster ((g - 0x180) / 2)).dozed else false)
/-- The first row at or after a position of the walk: its position, group and row. -/
def sweepAt (skip : Nat → Bool) : List (Nat × Nat) → Nat → Nat → Option (Nat × Nat × Nat)
  | [], _, _ => none
  | (g, n) :: t, pos, base =>
    if pos < n then (if skip g then sweepAt skip t 0 (base + n) else some (base + pos, g, pos))
    else sweepAt skip t (pos - n) (base + n)
/-- An uncorrectable word that Sweep finds in a row is handled where it stands (R360); half says which half of the row holds
it. -/
def State.sweepHandle (s : State) (g row : Nat) (half : Bool) : State :=
  let h := if half then 1 else 0
  if g < 0x80 then
    let n := 512 * (g / 8) + g % 8 * 64
    if row < 2048 then s.slabUncorr (n + row / 32) (row % 32 * 128) else s.slabUncorr (n + (row - 2048) * 2 + h) 4096
  else if g < 0xA0 then
    let k := ((g - 0x80) % 8 * 256 + row / 16 * 4 + (g - 0x80) / 8) * 16 + row % 16
    if (s.cache.way k).isSome then s.wayUncorr k else s.uncorrRow g row
  else if g < 0x1A0 then
    let c := (g - 0x180) / 2
    let t := if g % 2 = 0 ∧ (s.cluster c).quill.state ≠ .fault then s.quillFault c 2 else s
    t.uncorrRow g row
  else if g = 0x1A0 then (if s.scribe.executes then s.coreFault 16 .iram else s).uncorrRow g row
  else (s.setKey (2 * row + h) none).uncorrRow g row
/-- The victim entry that Sweep reads with a row of the Context Cache: one whose line belongs to a set of the group (R348, R360; log
entry 118). -/
def State.sweepVictim (s : State) (g : Nat) (victim : Option (Fin 32)) : Option (Nat × Nat) :=
  victim.bind (fun i => (s.cache.victims[i.val]?).bind (fun v =>
    if (ccRow (v.line.tag % 2048) 0).1 = g then some (i.val, v.line.tag) else none))
/-- What Sweep does with the row that it reads, or with a victim entry beside it. shared says that a functional read has found the same word
in the same cycle: the correction counts once (R361). -/
def State.sweepRead (s : State) (g row : Nat) (found : Ecc) (half shared : Bool) (victim : Option (Fin 32)) : State :=
  let v := s.sweepVictim g victim
  match found with
  | .clean => s
  | .corrected => if shared then s else if v.isSome then s.bucketAdd 1 g else s.corrected g row
  | .uncorrectable =>
    let s1 := ((s.count Reg.SW_UNCORR).raise 0x7000 2).blot 0x7000 0x0A none [BitVec.ofNat 32 g, BitVec.ofNat 32 row]
    match v with
    | some e => s1.victimUncorr e.1 e.2
    | none => s1.sweepHandle g row half
/-- A pass begins at the first row: the trackers are cleared and ARRAYS is taken (R356, R361). -/
def State.sweepBegin (s : State) : State :=
  if s.scrub.row = 0 then s.modScrub (fun x => { x with tracker := [], arrays := fld (s.regAt Reg.SW_CTL) 9 4 }) else s
/-- A pass has ended: a remap of its last cycle is made, and the trackers are then cleared (R361). -/
def State.sweepPassed (s : State) : State :=
  (s.modScrub (fun x => { x with row := 0, tracker := [] })).modReg Reg.SW_STAT (fun w => putFld w 15 0 ((fld w 15 0 + 1) % 65536))
/-- SWEEP_ROW (R359, R360): Sweep reads the next row of its walk. -/
def execSweepRow (found : Ecc) (half : Bool) (s : State) (shared : Bool := false) (victim : Option (Fin 32) := none) : Out :=
  if s.awake ∧ s.serving ∧ bit (s.regAt Reg.SW_CTL) 0 then
    let s1 := s.sweepBegin
    match sweepAt s1.sweepSkips s1.sweepGroups s1.scrub.row 0 with
    | none => looked s (if s1.scrub.row = 0 then s1 else s1.sweepPassed)
    | some (pos, g, row) =>
      let s2 := (s1.modReg Reg.SW_STAT (fun w => putFld w 26 16 g)).modScrub (fun x => { x with row := pos + 1 })
      let s3 := s2.sweepRead g row found half shared victim
      looked s (if (sweepAt s3.sweepSkips s3.sweepGroups s3.scrub.row 0).isNone then s3.sweepPassed else s3)
  else idle s

/-- LEAK (R354): LEVEL of a bucket group falls by one unless it is 0. adds are the corrections of the same cycle in the group, by macro
group and row: they and the leak are one net change. -/
def execLeak (g : Fin 8) (s : State) (adds : List (Fin 512 × Fin 4096) := []) : Out :=
  if s.awake then
    let l := adds.filter (fun e => bucketOf e.1.val = g.val && decide (e.2.val < s.groupRows e.1.val))
    let s1 := l.foldl (fun t _ => t.count (winKey Reg.SW_BKT_CORR g.val)) s
    let s2 := s1.bucketSet g.val ((l.getLast?.map (fun e => e.1.val)).getD 0) (s.bucketLevel g.val + l.length - 1)
    done s (l.foldl (fun t e => t.trackAt e.1.val e.2.val) (if l.isEmpty then
      s.modReg (winKey Reg.SW_BKT_STAT g.val) (fun w => putFld w 15 0 (fld w 15 0 - 1)) else s2))
  else idle s

/-- REPAIR_ADD (R356 to R358): GO remaps ROW of GROUP; it reads 0 once the remap has ended. -/
def execRepairAdd (a : RpAcc) (s : State) : Out :=
  done s (s.portWrite Reg.SW_REP_ADD a (fun locked s =>
    if locked then s
    else
      let s1 := (s.writeRow Reg.SW_REP_ADD false a.data).modReg Reg.SW_REP_ADD (fun w => w &&& 0x7FFFFFFF#32)
      if bit a.data 31 ∧ fld a.data 19 0 < s.groupRows (fld a.data 30 20) then s1.remapRow (fld a.data 30 20) (fld a.data 19 0)
      else s1))

/-! ### Patrol (R362, R363) -/

/-- PT_CURSOR of a plane-block index and a die. -/
def cursorWord (i die : Nat) : Word := BitVec.ofNat 32 (2 ^ 16 * i + die)
/-- The pages of a plane-block that Patrol samples, with its OPEN record where it has one (R362). -/
def State.patrolPages (s : State) (die : Nat) (r : Option FrRec) : List Nat :=
  let stride := atLeast1 (fld (s.regAt Reg.PT_CFG) 12 0)
  let p0 := (s.regAt Reg.PT_PASS).toNat % stride
  ((List.range 4096).map (fun j => p0 + j * stride)).filter (fun p =>
    decide (p < (s.geo (die / 64)).pages) && (match r with | some x => decide (x.base ≤ p ∧ p < x.done) | none => true))
/-- Patrol may not wake the die's cluster (R363). -/
def State.patrolAsleep (s : State) (die : Nat) : Bool := bit (s.regAt Reg.PT_CTL) 1 && (s.cluster (die / 512)).dozed
/-- The visit of a plane-block: its pages to sample, or none because it is skipped (R362). -/
def State.patrolVisit (s : State) (die i : Nat) (cc : CcFault) : State × Option (List Nat) :=
  if (die % 4096 = 0 ∧ i = 0) ∨ s.patrolAsleep die then (s, none)
  else
    let a := s.dfCode unitPatrol die i cc
    if a.2 ≠ some 0 then (a.1, none)
    else
      let b := a.1.frSlots unitPatrol die cc
      match b.2 with
      | none => (b.1, none)
      | some l =>
        match (frFind l i).map (fun n => l.getD n frFree) with
        | none => (b.1, some (b.1.patrolPages die none))
        | some r => if r.st ≠ 1 ∨ r.done = r.base then (b.1, none) else (b.1, some (b.1.patrolPages die (some r)))
/-- The dies of a list are visited at index i until one has pages to sample. -/
def State.patrolDies (cc : CcFault) (i : Nat) : List Nat → State → State × Option (Nat × List Nat)
  | [], s => (s, none)
  | d :: ds, s =>
    if s.dieBlocks (d / 64) ≤ i then State.patrolDies cc i ds s
    else
      let v := (s.setReg Reg.PT_CURSOR (cursorWord i d)).patrolVisit d i cc
      match v.2 with
      | none => State.patrolDies cc i ds (v.1.count Reg.PT_SKIPPED)
      | some [] => State.patrolDies cc i ds v.1
      | some l => (v.1, some (d, l))
/-- The walk from a die on to the end of the pass: the next plane-block's die and its pages to sample, with the cursor left there. n counts
the plane-block indexes left. -/
def State.patrolWalk (dies : List Nat) (cc : CcFault) : Nat → Nat → State → State × Option (Nat × List Nat)
  | 0, _, s => (s, none)
  | n + 1, d0, s =>
    let r := State.patrolDies cc (8191 - n) (dies.filter (fun d => decide (d0 ≤ d))) s
    match r.2 with
    | some e => (r.1, some e)
    | none => State.patrolWalk dies cc n 0 r.1
/-- The plane-block that Patrol samples next: the one at the cursor, while pages chosen at its visit are left, else the next that the walk
finds (R362, R367). One whose die has gone, or whose cluster dozes and may not be woken, is left. -/
def State.patrolNext (s : State) (cc : CcFault) : State × Option (Nat × List Nat) :=
  let w := s.regAt Reg.PT_CURSOR
  let die := fld w 12 0
  let walk (t : State) (d : Nat) : State × Option (Nat × List Nat) := State.patrolWalk t.presentDies cc (8192 - fld w 28 16) d t
  match s.scrub.patPages with
  | none => walk s die
  | some [] => walk s (die + 1)
  | some l =>
    if ¬ s.presentDies.contains die then walk s (die + 1)
    else if s.patrolAsleep die then walk (s.count Reg.PT_SKIPPED) (die + 1)
    else (s, some (die, l))
/-- A pass of Patrol ends. -/
def State.patrolPassed (s : State) : State :=
  (((s.setReg Reg.PT_CURSOR 0).modScrub (fun x => { x with patPages := none })).count Reg.PT_PASS).raise 0x8000 3
/-- The packet of a sample: a single-plane PATROL_SAMPLE of every frame; ARG keeps the pass in which it was issued, and above it the
WARN_BITS of that moment (R367). -/
def State.samplePacket (s : State) (maw : BitVec 64) : Packet :=
  { opcode := 0x0D, tag := 0xFFFF, flags := 0, maw0 := maw, maw1 := 0,
    deadline := 1000 * atLeast1 (fld (s.regAt Reg.PT_SCHED) 15 0), mask := 0, keySlot := 0, fcount := 0, buf := 0, metaAddr := 0,
    arg := BitVec.ofNat 64 (2 ^ 32 * fld (s.regAt Reg.PT_CFG) 31 16 + (s.regAt Reg.PT_PASS).toNat), maws := [maw], metaBytes := [] }
/-- A sample of a plane page takes a handle of its cluster and enters the pending set (R363). -/
def State.sampleIssue (s : State) (die i page h : Nat) : State :=
  let g := die / 64
  let q := s.geo g
  let p := s.samplePacket (mkMaw die (i / q.planes) page (i % q.planes) 0)
  let w : IntakeWord := { bits := 0, ring := 0, owner := 511, prio := 0, sqHead := 0, first := true, last := true, packet := 0,
                          seen := s.time.toNat / 100 }
  let x := s.newCmd (die / 512) w p g q.frames
  ((s.takeHandle (die / 512) h { x with patrol := true, cplRing := 0 }).count Reg.PT_SAMPLES).tableSync g
/-- PATROL_ISSUE (R362, R363): Patrol walks to the next page to sample and issues its sample, unless the lane has one pending
or the cluster has no free handle; it then waits there. -/
def execPatrolIssue (cc : CcFault) (s : State) : Out :=
  if s.awake ∧ s.serving ∧ bit (s.regAt Reg.PT_CTL) 0 ∧ s.keys.sanit.isNone then
    let r := s.patrolNext cc
    match r.2 with
    | none => looked s r.1.patrolPassed
    | some (die, l) =>
      let s1 := r.1.modScrub (fun x => { x with patPages := some l })
      let waiting := (s1.cmdsOf (die / 512)).any (fun e => e.2.patrol && decide (e.2.lane = die / 64 ∧ e.2.stage = .pending))
      match waiting, s1.lowHandle (die / 512), l with
      | false, some h, page :: rest =>
        looked s ((s1.sampleIssue die (fld (s1.regAt Reg.PT_CURSOR) 28 16) page h).modScrub (fun x => { x with patPages := some rest }))
      | _, _, _ => looked s s1
  else idle s

end Sys2Proof.Machine
end

