-- ==== Sys2Proof/Machine/Endgame.lean ====
section
/-! DEFINITION. ENDGAME (R410 to R419): the entry on a registered power-fail warning, the end of the sequence or of its
budget, and the summary's header and clearing. How a LUN is handled is in Machine/Strokes.lean. -/
namespace Sys2Proof.Machine
open Sys2Proof

/-! ### The entry (R410, R411, R414) -/

/-- A new summary begins: cleared, VALID, with the mode left, the budget's kind, GEN and the time of registration (R413,
R414). -/
def State.egBegin (s : State) (from_ : Mode) : State :=
  let gen := fld (s.regAt Reg.GLB_EG_SUM) 23 16 + 1
  let sum := flag true 31 ||| flag (!s.pins.holdup) 28 ||| BitVec.ofNat 32 (2 ^ 24 * from_.code + 2 ^ 16 * (gen % 256))
  let s1 := s.modEndgame (fun _ => { start := s.time.toNat, ended := false, entries := [], hostOut := 0, headerOut := false })
  ((s1.setReg Reg.GLB_EG_SUM sum).setReg Reg.GLB_EG_DROP 0).setReg Reg.GLB_EG_AT_LO (s.time.setWidth 32)
/-- A port issues nothing more: what it does not present yet is withdrawn (R410). -/
def Port.stop (q : Port) : Port := { q with queue := q.queue.take q.shown, ask := false }
/-- What the central units give up (R410, R146, R148, R432): packets being fetched, pending commands, calibration runs,
retrains and Gambit walks, a reload, and work of the Manager that has not begun. -/
def State.egStop (s : State) : State :=
  let s1 : State := { s with fetching := [] }
  let s2 := (s1.cmdList.filter (fun e => e.2.2.stage = .pending)).foldl (fun t e => t.retire e.1 e.2.1) s1
  let s3 : State := s2.laneList.foldl (fun t g => t.modLane g (fun l =>
    { l with cal := none, retrainReq := none, retrainLater := none, retrainWait := false, forced := false, gambit := [],
             gambitRun := none })) s2
  let s4 := if s3.scribe.state = .reloading ∨ (s3.scribe.state = .starting ∧ s3.glb.phase = .none) then
      s3.modCore 16 (fun k => { k with state := .lost })
    else s3
  let s5 := (List.range 4).foldl (fun t p => t.modPort p Port.stop) s4
  (s5.modKeys (fun k => { k with job := k.job.filter SealJob.runs })).modGlb (fun g =>
    { g with phase := .none, measureBusy := false, scrArmed := false })
/-- A program that is admitted and whose data-in has not begun, or a blank check (R411). -/
def Cmd.notBegun (x : Cmd) : Bool :=
  x.result.isNone && (x.verifying || (x.claimed && !x.begun && decide (x.pkt.opcode ≠ 3)))
/-- An erase that is admitted and whose last stroke neither has reached its END nor runs. -/
def State.neverSent (s : State) (h : Nat) (x : Cmd) : Bool :=
  let l := s.lane x.lane
  decide (x.pkt.opcode = 3) && x.claimed && x.result.isNone && !l.luns.any (fun e => e.2.erase = some h) &&
    !(l.run.toList ++ l.waiting.toList).any (fun r => r.stroke.of h && !r.cont)
/-- The commands of a lane that have not begun are cancelled, each with its entry: programs under R273 and blank checks
under R440 as PROG_CANCELLED; an erase that was never sent keeps its records (log entry 36). -/
def State.egCancel (s : State) (g : Nat) : State :=
  let l := s.cmdList.filter (fun e => decide (e.2.2.lane = g) && (e.2.2.notBegun || s.neverSent e.2.1 e.2.2))
  l.foldl (fun t e =>
    let x := e.2.2
    let u := t.egCmd x (if x.pkt.opcode = 3 then 7 else 3)
    let v := if x.pkt.opcode = 3 then u
      else if x.verifying then (u.unverify e.1 e.2.1 .clean).1
      else if ((u.cmd? e.1 e.2.1).map (·.claimed)).getD false then (u.cancelClaims e.1 e.2.1 .clean).1
      else u
    (v.modCmd e.1 e.2.1 (fun y => { y with claimed := false, units := 0 })).releaseUnits (g / 64) (((v.cmd? e.1 e.2.1).map (·.units)).getD 0)) s
/-- The plane of a command's programmed pages that a stroke's row names. -/
def State.strokePlane (s : State) (g : Nat) (x : Cmd) (p : List Word) : Option Nat :=
  (s.frameIndex g { x with destPart := true } p 0).map (· / (x.frames.length / x.frMaws.length))
/-- A stroke belongs to a program whose data-in has begun (R411). -/
def State.ofBegun (s : State) (g : Nat) (k : Stroke) : Bool :=
  !k.byBlock && (match s.cmd? (g / 8) (pHandle k.params) with
    | some x => x.claimed && x.begun && x.result.isNone && decide (x.pkt.opcode ≠ 3)
    | none => false)
/-- The plane strokes that a begun program still needs and that no Quill has committed: CONT strokes, and the one with its
confirm last (R411, R169). -/
def State.restOf (s : State) (g h : Nat) (x : Cmd) : List Stroke :=
  let l := s.lane g
  let mine := l.committed.filter (fun k => k.of h)
  let seen := x.sent ++ mine.filterMap (fun k => s.strokePlane g x k.params)
  let left := (List.range x.frMaws.length).filter (fun i => !seen.contains i)
  left.map (fun i =>
    let m := x.frMaws.getD i 0
    { id := if left.getLast? = some i then 0x00F else 0x010,
      params := [BitVec.ofNat 32 (lunBits (mawLd m)), BitVec.ofNat 32 ((s.geo g).row m), 0, BitVec.ofNat 32 h, 0, 0,
                 BitVec.ofNat 32 (x.frames.length / x.frMaws.length), 0],
      byBlock := false, rom := true, fill := s.regAt (lnA g Reg.LN_FRAME_CFG) })
/-- The opening sequencer takes a lane over (R410 to R412): the strokes of begun programs stay and are made complete, every
other committed stroke is discarded, a program's stroke whose data-in has not begun ends, and each LUN gets its action. -/
def State.egLane (s : State) (g : Nat) : State :=
  let l := s.lane g
  let stops (r : Running) : Bool := decide (r.cls = 4) && !s.ofBegun g r.stroke && !(r.stroke.seq && decide (0 < r.moved))
  let cut := l.run.any stops
  let keep := l.strokes.filter (s.ofBegun g)
  let s1 := s.modLane g (fun l =>
    { l with strokes := keep, run := if cut then none else l.run, waiting := l.waiting.filter (fun r => !stops r), ceLow := if cut then none else l.ceLow,
             mpOpen := if cut ∨ (keep.isEmpty ∧ l.noRun ∧ l.mpOpen.map Prod.snd ≠ some 4) then none else l.mpOpen,
             luns := l.luns.map (fun e => (e.1, if e.2.awaitReset then { e.2 with awaitReset := false, busy := e.2.state ≠ .idle } else e.2)) })
  let rest := (s1.cmdList.filter (fun e => decide (e.2.2.lane = g ∧ e.2.2.claimed ∧ e.2.2.begun ∧ e.2.2.pkt.opcode ≠ 3) &&
    e.2.2.result.isNone)).flatMap (fun e => s1.restOf g e.2.1 e.2.2)
  let s2 := s1.modLane g (fun l => { l with strokes := l.strokes ++ rest })
  (l.luns.map Prod.fst).foldl (fun t d => t.egAct g d) s2
/-- A command inserted into a list by the order in which results were applied. -/
def byResult (x : Cmd) : List Cmd → List Cmd
  | [] => [x]
  | y :: l => if x.resultNo < y.resultNo then x :: y :: l else y :: byResult x l
/-- The commands whose result has been applied and whose completion is not presented, in the order of the results (R414). -/
def State.knownResults (s : State) : List Cmd :=
  (s.cmdList.filter (fun e => e.2.2.result.isSome)).foldl (fun l e => byResult e.2.2 l) []
/-- ENDGAME is entered (R79, R410 to R414): the mode, the summary with the results already applied, and the takeover. -/
def State.enterEndgame (s : State) : State :=
  let s1 := (s.toMode .endgame).egBegin s.glb.mode
  let s2 := s1.knownResults.foldl State.egKnown s1
  let s3 := s2.laneList.foldl (fun t g => (t.egCancel g).egOwnCancel g) s2.egStop
  s3.laneList.foldl State.egLane s3
/-- PF_WARN_REGISTERED (R53, R79 to R81, R410): a registered power-fail warning wakes a dozed block and leads to ENDGAME from
every mode but RESET and ENDGAME itself; an OPENING failure detected in the same cycle is counted, without a restart. That it does not
set the always-on OPEN_FAIL latch is the model's choice (log entry 102). -/
def execPfWarnRegistered (failure : Option OpenCause) (s : State) : Out :=
  if s.alive ∧ (s.glb.mode = Mode.opening ∨ s.running) then
    let s1 : State := match failure with
      | some c => if s.glb.mode = Mode.opening then s.countFailure c else s
      | none => s
    done s s1.wakeBlock.enterEndgame
  else idle s

/-! ### The end of the sequence (R413, R416) -/

/-- A lane has nothing left to do: no stroke, and every LUN ready with its action done. -/
def Lane.egDone (l : Lane) : Bool :=
  l.noRun && l.strokes.isEmpty && l.luns.all (fun e => !e.2.busy)
/-- ENDGAME_END (R413, R416): every LUN is ready with its action done. The lanes park; the block moves to RESET, at once
where no host copy is written or it has failed, else with the header's status. -/
def execEndgameEnd (s : State) : Out :=
  if s.awake ∧ s.glb.mode = .endgame ∧ ¬ s.endgame.ended ∧ s.laneList.all (fun g => (s.lane g).egDone) then
    let s1 := s.egPark
    done s (if s1.egHost ∧ ¬ s1.egFailed then s1 else s1.egReset)
  else idle s
/-- EG_HEADER_WRITE (R416): the sequence has ended and every entry's status has returned OK: the header is written. -/
def execEgHeaderWrite (s : State) : Out :=
  if s.awake ∧ s.glb.mode = .endgame ∧ s.endgame.ended ∧ s.egHost ∧ ¬ s.egFailed ∧ s.endgame.hostOut = 0 ∧ ¬ s.endgame.headerOut then
    let ws := [s.regAt Reg.GLB_EG_SUM, s.regAt Reg.GLB_EG_DROP, s.regAt Reg.GLB_EG_DUR, s.regAt Reg.GLB_EG_AT_LO]
    done s ((s.modEndgame (fun e => { e with headerOut := true })).hpPush 0 (oneBeat s.egAddr (leBytes 32 (leWords ws)) 1 .egHeader))
  else idle s
/-- The budget in CLK_AON cycles (R413). -/
def State.egBudget (s : State) : Nat :=
  let c := s.regAt Reg.GLB_EG_CTL
  atLeast1 (if bit (s.regAt Reg.GLB_EG_SUM) 28 then fld c 15 8 else fld c 31 16) * 100
/-- What is cut on a lane at expiry: every program that has begun and every erase that has been sent, in the order of its
LUNs, and the block's own operations. -/
def State.egCutLane (s : State) (g : Nat) : State :=
  let c := g / 8
  let progs := s.cmdList.filter (fun e => decide (e.2.2.lane = g ∧ e.2.2.claimed ∧ e.2.2.begun ∧ e.2.2.pkt.opcode ≠ 3) && e.2.2.result.isNone)
  let erases := s.cmdList.filter (fun e => decide (e.2.2.lane = g ∧ e.2.2.claimed ∧ e.2.2.pkt.opcode = 3) && e.2.2.result.isNone &&
    !s.neverSent e.2.1 e.2.2 && decide (e.1 = c))
  (List.range 64).foldl (fun t ld =>
    let on (e : Nat × Nat × Cmd) : Bool := decide (mawLd (e.2.2.frMaws.headD 0) = ld)
    let t1 := (progs.filter on).foldl (fun u e => u.egCmd e.2.2 4) t
    let t2 := (erases.filter on).foldl (fun u e => u.egCmd e.2.2 8) t1
    t2.egOwnEnd g ld (if ((t2.lane g).lun ld).state = .progBusy then 4 else 8)) s
/-- ENDGAME_BUDGET_EXPIRY (R413, R416): busy LUNs are abandoned and cut; a host copy that is not finished has failed. -/
def execEndgameBudgetExpiry (s : State) : Out :=
  if s.awake ∧ s.glb.mode = .endgame ∧ s.egBudget ≤ s.since s.endgame.start then
    let s1 := if s.endgame.ended then s
      else ((s.laneList.foldl State.egCutLane s).orReg Reg.GLB_EG_SUM (flag true 29)).egPark
    done s ((if s1.egHost then s1.egHostErr else s1).egReset)
  else idle s

/-! ### EG_SUMMARY_CLEAR (R419) -/

/-- The retained summary is cleared: VALID, COUNT, OVF and the flags; ENTRY_MODE and GEN stay. -/
def State.egClear (s : State) : State :=
  ((s.modEndgame (fun e => { e with entries := [] })).modReg Reg.GLB_EG_SUM (fun w => w &&& 0x07FF0000#32)).setReg Reg.GLB_EG_DROP 0
/-- EG_SUMMARY_CLEAR (R419): a 1 written to GLB_EG_SUM.VALID. -/
def execEgSummaryClear (a : RpAcc) (s : State) : Out :=
  done s (s.portWrite Reg.GLB_EG_SUM a (fun _ s => if bit a.data 31 then s.egClear else s))

end Sys2Proof.Machine
end

