-- ==== Sys2Proof/Machine/Pending.lean ====
section
/-! DEFINITION. The operations that wait for lines of the Context Cache, as they go on (R316, R317), and the commands that bring them
their lines: CC_FILL, and the write statuses and time-outs of the host ports. -/
namespace Sys2Proof.Machine
open Sys2Proof

/-- An operation that waits, as it is made. -/
def State.heldRun (s : State) (h : Held) (cc : CcFault) : State :=
  match h with
  | .ringCmd op n => s.ringOp op n cc
  | .mark op => s.markOp op cc
  | .frontier op data => s.frOp op data cc
  | .doorbell page data residue => s.doorbell page data cc residue
  | .ring n u => s.ringApply n u cc
  | .sample c m d sensed ok x => s.sample (unitCluster c) m d sensed ok x cc
  | .grow die block plane cause => s.growMark die block plane cause cc
  | .sealLower l => s.sealLower l .none cc
  | .unfence t => s.unfence t cc
  | .tnReset t keep => (s.tnResetBegin t keep cc).tnResult 0
/-- Every operation that waits is made again, in order; one whose line is not there yet goes on waiting. -/
def State.resume (s : State) : State :=
  s.cache.held.foldl (fun t h => t.begins h .clean (fun cc u => u.heldRun h cc)) (s.modCache (fun c => { c with held := [] }))

/-- CC_FILL (R316, R327): the beat of a register's fill has arrived. -/
def execCcFill (reg : Fin 17) (s : State) : Out :=
  if ¬ s.awake then idle s
  else match Tab.getD (fun _ => (none : Option Miss)) s.cache.miss reg.val with
    | some m =>
      match m.reply with
      | some (resp, b) => done s (s.fillDone reg.val m resp b).resume
      | none => idle s
    | none => idle s

/-! ### HP_WRITE_STATUS (R36 to R39) -/

/-- HP_WRITE_STATUS (R36 to R39): the block accepts a write's status; the bytes of a CACHE-class write answered OK are then
in host memory (R41). -/
def execHpWriteStatus (port : Fin 4) (tag : Fin 512) (resp : BitVec 2) (s : State) : Out :=
  let p := port.val
  let t := tag.val
  if ¬ s.portsUp then idle s
  else
    let o := s.opportunity 0xF000 (4 + p)
    let r := match fired o.2 10 with | some a => fld a 1 0 | none => resp.toNat
    match (o.1.port p).outOn true t with
    | none =>
      let s2 := o.1.modPort p (fun q => { q with qWrites := Tab.setD (fun _ => false) q.qWrites t false }.present)
      done s (s2.hpProtocol p t 1)
    | some x =>
      let s1 := (o.1.modPort p (fun q => (q.setOut true t none).present)).lessOut x.req.issuer
      let s2 := if r = 0 ∧ x.req.cls = 2 then
          x.req.beats.zipIdx.foldl (fun u e => u.hostPut (x.req.addr.toNat + 128 * e.2) e.1.data e.1.strb) s1
        else s1
      done s ((s2.writeAnswer p x.req r false).issuerCheck x.req.issuer).resume

/-! ### HP_TIMEOUT (R39) -/

/-- The limit of GLB_HP_TIMEOUT in CLK_AON cycles: values below 64 µs act as 64. -/
def State.hpLimit (s : State) : Nat := max 64 (fld (s.regAt Reg.GLB_HP_TIMEOUT) 15 0) * 100
/-- HP_TIMEOUT (R39): a transaction has been outstanding for longer than the limit: it is retired as though every missing
beat or status carried ERR_TARGET, and its tag is in quarantine until the host has returned them. -/
def execHpTimeout (port : Fin 4) (wr : Bool) (tag : Fin 512) (s : State) : Out :=
  let p := port.val
  let t := tag.val
  if ¬ s.portsUp then idle s
  else match (s.port p).outOn wr t with
    | none => idle s
    | some x =>
      if s.since x.at_ ≤ s.hpLimit then idle s
      else
        let s1 := (s.modPort p (fun q =>
          let q1 := q.setOut wr t none
          if wr then { q1 with qWrites := Tab.setD (fun _ => false) q1.qWrites t true }
          else { q1 with qReads := Tab.setD (fun _ => 0) q1.qReads t (x.req.len - x.got) })).lessOut x.req.issuer
        let s2 := s1.blot 0 0x11 none [BitVec.ofNat 32 p, BitVec.ofNat 32 t, if wr then 1 else 0]
        let s3 := if wr then s2.writeAnswer p x.req 1 true
          else (List.range (x.req.len - x.got)).foldl (fun u k => u.readAnswer x.req (x.got + k) 1 true 0) s2
        done s (s3.issuerCheck x.req.issuer).resume

end Sys2Proof.Machine
end

