-- ==== Sys2Proof/Machine/Registers.lean ====
section
/-! DEFINITION. Register reads (R9, R11, R104) and the writes of registers whose writes are no command of their own (R101,
R102). A register that other state gives is computed from that state; the rest read as they are held. -/
namespace Sys2Proof.Machine
open Sys2Proof

/-! ### Values read -/

/-- A word of the low bit of each of 32 conditions. -/
def word32 (f : Nat → Bool) : Word := (List.range 32).foldl (fun w i => w ||| flag (f i) i) 0
/-- The code of a core's state in CL_QUILL_STAT.STATE. -/
def CoreState.code : CoreState → Nat
  | .held => 0 | .starting => 1 | .running => 2 | .rom => 3 | .fault => 4 | .lost => 4 | .reloading => 1
/-- GLB_SCR_STATE.STATE: what a start outside OPENING belongs to is a reload (R431, R432). -/
def State.scribeCode (s : State) : Nat :=
  match s.scribe.state with
  | .held | .rom => 0
  | .starting => if s.glb.mode = .opening then 1 else 4
  | .running => 2
  | .lost | .fault => 3
  | .reloading => 4
/-- The code of a channel's state (R308). -/
def ChState.code : ChState → Nat
  | .idle => 0 | .fetch => 1 | .trigWait => 2 | .active => 3 | .drain => 4 | .halted => 5 | .stopping => 6
/-- The code of an instance's state (R383). -/
def TnState.code : TnState → Nat
  | .free => 0 | .active => 1 | .resetting => 2 | .fenced => 3
/-- A stroke table is loaded and in use (R164). -/
def State.tableUsed (s : State) : Bool :=
  s.hasTable && (s.serving || decide (s.glb.mode = .endgame ∨ 5 ≤ s.glb.phase.code))

/-- The registers common to every page (R99, R105, R108 to R110). -/
def State.readCommon (s : State) (a : Nat) : Word :=
  let p := pageBase a
  match a % 0x1000 with
  | 0x000 => s.pageId a
  | 0x004 => 0x00030100#32
  | 0x00C => 4#32 ||| flag (s.pageLocked a) 1 ||| flag (s.expertActive p) 0
  | 0x010 => s.irqRaw p
  | 0x018 => s.irqPend p
  | _ => s.regAt a
/-- The registers of the GLB page (R2, R3, R82 to R95, R106, R111, R414, R428 to R432). -/
def State.readGlb (s : State) (a : Nat) : Word :=
  let g := s.glb
  let n (v : Nat) : Word := BitVec.ofNat 32 v
  if a = Reg.GLB_RELEASE then s.release
  else if a = Reg.GLB_BUILD then n (65536 * s.nRegions + s.nClusters * 256 + s.build.lanes)
  else if a = Reg.GLB_TIME_LO then s.time.setWidth 32
  else if a = Reg.GLB_TIME_HI then (s.time >>> 32).setWidth 32
  else if a = Reg.GLB_EXPERT_UNLOCK then
    flag g.sealRefused 2 ||| n (match g.unlock with | .closed => 0 | .armed => 1 | .open => 2)
  else if a = Reg.GLB_MODE then n (g.prevMode.code * 16 + g.mode.code)
  else if a = Reg.GLB_MGR_OWNER then
    flag g.owner.isSome 31 ||| flag g.succEn 16 ||| n (g.successor.toNat * 256 + (g.owner.getD 0).toNat)
  else if a = Reg.GLB_OPEN_STAT then
    flag g.sealDegraded 16 ||| n (g.trained % 256 * 256 + (if g.mode = .opening then g.phase.code else if g.doneShown then 8 else 0))
  else if a = Reg.GLB_BOOT_ATTEMPT then
    n (2 ^ 24 * g.causeC.toNat + 65536 * g.causeB.toNat + g.causeA.toNat * 256 + g.bootCount)
  else if a = Reg.GLB_FALLBACK_CAUSE then (if g.mode = .fallback then n (256 + g.fallCause.toNat) else 0)
  else if a = Reg.GLB_SCR_STAT then
    let w := s.regAt a ||| flag g.scrArmed 4
    if s.scribe.state = .running then putFld w 31 16 (s.scribe.pc % 65536) else w
  else if a = Reg.GLB_SCR_STATE then n s.scribeCode
  else if Reg.GLB_EG_DATA ≤ a ∧ a < Reg.GLB_EG_DATA + 16 then
    wordAt (s.endgame.entries.getD (fld (s.regAt Reg.GLB_EG_SEL) 11 0) 0) ((a - Reg.GLB_EG_DATA) / 4)
  else s.regAt a
/-- The registers of the other single pages that hold the clocks, the images, the Ledger, calibration, the Signal Unit and
the Blotter. -/
def State.readUpper (s : State) (a : Nat) : Word :=
  let n (v : Nat) : Word := BitVec.ofNat 32 v
  if a = Reg.CLK_DOMAIN_STAT then
    word32 (fun i => if i < 16 then decide (s.nClusters ≤ i) || (s.cluster i).dozed
      else decide (i < 18) && (decide (s.nRegions ≤ i - 16) || (s.region (i - 16)).dozed))
  else if a = Reg.MS_STAT then flag s.glb.measureBusy 0 ||| flag (s.regAt Reg.MS_LOAD_COUNT ≠ 0 && s.digestEq) 1
  else if a = Reg.CAL_STAT then flag (s.glb.phase = .train && s.laneList.any (fun g => (s.lane g).held.isSome)) 0
  else if a = Reg.LG_STAT then
    flag (s.glb.mode = .thrift) 31 ||| flag s.ledger.critStop 30 ||| n (65536 * (s.ledger.causes % 8) + s.ledger.effAllow % 65536)
  else if a = Reg.LG_CREDIT then BitVec.ofInt 32 s.ledger.credit
  else if a = Reg.LG_RESERVE then BitVec.ofInt 32 (s.ledger.reserve.tdiv 1000)
  else if a = Reg.LG_ENERGY_LO then n (s.ledger.energy / 1000)
  else if a = Reg.LG_ENERGY_HI then n (s.ledger.energy / 1000 / 2 ^ 32)
  else if a = Reg.LG_TN_USE then satWord (Tab.getD (fun _ => 0) s.ledger.use (fld (s.regAt Reg.LG_TN_SEL) 8 0))
  else if Reg.SG_PEND ≤ a ∧ a < Reg.SG_PEND + 16 then
    word32 (fun i => let k := 8 * (a - Reg.SG_PEND) + i; decide (k < 54) && !s.fast k && s.pendBit k)
  else if Reg.SG_FPEND ≤ a ∧ a < Reg.SG_FPEND + 16 then
    word32 (fun i => let k := 8 * (a - Reg.SG_FPEND) + i; decide (k < 54) && s.fast k && s.pendBit k)
  else if Reg.SG_LANE_PEND ≤ a ∧ a < Reg.SG_LANE_PEND + 16 then
    word32 (fun i => s.pageLevel (lnA (8 * (a - Reg.SG_LANE_PEND) + i) 0))
  else if Reg.SG_DE_PEND ≤ a ∧ a < Reg.SG_DE_PEND + 8 then word32 (fun i => s.pageLevel (deA (8 * (a - Reg.SG_DE_PEND) + i) 0))
  else if Reg.SG_CH_PEND ≤ a ∧ a < Reg.SG_CH_PEND + 8 then word32 (fun i => s.pageLevel (mvA (8 * (a - Reg.SG_CH_PEND) + i) 0))
  else if a = Reg.SG_STAT then flag s.signal.restoring 31 ||| n s.signal.restored
  else if a = Reg.BL_SEQ then s.blotter.seq
  else if Reg.BL_REC ≤ a ∧ a < Reg.BL_REC + 48 then
    let sel := s.regAt Reg.BL_SEL
    let r := if bit sel 31 then Tab.find? s.blotter.retained (fld sel 21 16) else Tab.find? s.blotter.main (fld sel 25 16)
    (r.getD []).getD ((a - Reg.BL_REC) / 4) 0
  else s.regAt (s.keyOf a)
/-- The registers of the other single pages that hold repair, the Context Cache, Inkwell, the Mover, tenants, keys, the
defect map and perturbation. -/
def State.readLower (s : State) (a : Nat) : Word :=
  let n (v : Nat) : Word := BitVec.ofNat 32 v
  if a = Reg.SW_REP_ENTRY then
    let sel := s.regAt Reg.SW_REP_SEL
    match (s.remapsOf (fld sel 26 16))[fld sel 2 0]? with
    | some (row, preset) => flag true 31 ||| flag preset 30 ||| n row
    | none => 0
  else if a = Reg.CC_CTL then flag ((s.cache.st = .enabled && !s.cache.drainPend) || s.cache.st = .draining) 0
  else if a = Reg.CC_STAT then
    s.regAt a ||| flag s.cache.invalDone 3 ||| n (65536 * ((s.cache.victims.filter (·.failed)).length) +
      (match s.cache.st with | .disabled => 0 | .enabled => 1 | .draining => 2))
  else if a = Reg.CC_MAINT_STAT then
    s.regAt a ||| flag (match s.cache.job with | some j => decide (j.op ≠ 7) | none => false) 31
  else if a = Reg.CC_MISS_STAT then
    let busy (r : Nat) : Bool := (Tab.getD (fun _ => none) s.cache.miss r).isSome
    n (65536 * ((s.cache.ways.filter (fun e => match e.2 with | some l => l.lock | none => false)).length) +
      ((List.range 16).filter busy).length) ||| flag (busy 16) 5
  else if a = Reg.IW_STAT then n (65536 * s.reserve + s.freeSlabs)
  else if a = Reg.IW_TN_HELD then
    let t := fld (s.regAt Reg.IW_TN_SEL) 8 0
    n (65536 * (s.leased t) + s.held t)
  else if a = Reg.IW_SLAB_STATE then
    let y := s.slab (fld (s.regAt Reg.IW_SLAB_SEL) 12 0)
    let h := y.st = .held
    flag h 31 ||| flag (y.st = .zeroing) 30 ||| flag y.poison 29 ||| flag y.lease 28 ||| flag y.head 27 ||| flag y.fetching 26 |||
      flag y.last 25 ||| flag y.retired 24 ||| n (4096 * (if h then y.owner % 512 else 0) + (if y.last ∨ ¬ y.lease then 0 else y.next % 512))
  else if a = Reg.MV_QUEUED then
    n ((List.range 4).foldl (fun v p => v + min 255 (s.port p).moverQ.length * 2 ^ (8 * p)) 0)
  else if a = Reg.TN_STAT then
    s.regAt a ||| n ((s.tnState (fld (s.regAt Reg.TN_SEL) 8 0)).code * 256)
  else if a = Reg.TN_RES then
    let t := fld (s.regAt Reg.TN_SEL) 8 0
    putFld (s.regAt (s.keyOf a)) 31 16 (s.ringsOf t).length
  else if a = Reg.TN_RST_STAT then putFld (s.regAt a) 7 0 (min 255 (s.ready.filter Ready.isSummary).length)
  else if a = Reg.KY_STAT then
    flag s.fuse.kek.isSome 31 ||| flag s.glb.level.isSome 18 ||| n (65536 * s.levelNo + (s.keys.slots.filter (·.2.isSome)).length)
  else if a = Reg.KY_SLOT_STATE then
    let k := s.keySel
    flag (s.keyLoaded k) 31 ||| n (Tab.getD (fun _ => 0) s.keys.refs k)
  else if Reg.KY_WRAP ≤ a ∧ a < Reg.KY_WRAP + 72 then 0
  else if a = Reg.DF_PAIR_DATA then s.pairOf (fld (s.regAt Reg.DF_PAIR_ADDR) 11 0)
  else if a = Reg.PB_CTL then s.regAt a ||| flag s.glb.pbOpen 0
  else s.regAt (s.keyOf a)
/-- The registers of a cluster page. -/
def State.readCluster (s : State) (c a : Nat) : Word :=
  let n (v : Nat) : Word := BitVec.ofNat 32 v
  let k := s.cluster c
  let o := a % 0x1000
  if o = Reg.CL_QUILL_STAT then n (2 ^ 28 * k.quill.faultCode + 2 ^ 24 * k.quill.startErr + k.quill.state.code)
  else if o = Reg.CL_QUILL_PC then n (k.quill.pc % 65536)
  else if o = Reg.CL_STK_INFO then (if s.tableUsed then n (s.tableNat 6 2 % 4096) else 0x80000000#32)
  else if o = Reg.CL_BULK_LEVEL then
    let vis := k.bulk.words.filter (fun w => k.bulk.words.any (fun v => v.packet = w.packet && v.last))
    n (65536 * k.bulk.words.length + vis.length)
  else if o = Reg.CL_URG_LEVEL then
    n (65536 * (((k.urgent.words.map (·.packet)).dedup).length) + (k.urgent.words.filter (·.last)).length)
  else if o = Reg.CL_INTAKE_STAT then flag k.urgent.skip 1 ||| flag k.bulk.skip 0
  else if o = Reg.CL_HANDLES then n (s.freeHandles c)
  else s.regAt a
/-- The registers of a lane page. -/
def State.readLane (s : State) (g a : Nat) : Word :=
  let n (v : Nat) : Word := BitVec.ofNat 32 v
  let l := s.lane g
  let o := a % 0x1000
  if o = Reg.LN_SIG_STAT then (s.regAt a &&& 0x3FFF#32) ||| flag (s.rbInUse g) 16
  else if o = Reg.LN_CAL_STAT then
    s.regAt a ||| flag l.cal.isSome 1 ||| flag l.retrainWait 2 ||| flag (l.retrainReq.isSome && !s.scribeUp) 3
  else if o = Reg.LN_EYE_DATA then
    let w := s.regAt (lnA g Reg.LN_EYE_SEL)
    Tab.getD (fun _ => 0) (if bit w 8 then l.trainEyes else l.widths) (4 * fld w 2 0 + fld w 5 4)
  else if o = Reg.LN_LUN_STATE then
    let d := fld (s.regAt (lnA g Reg.LN_LUN_SEL)) 5 0
    let u := l.lun d
    n (u.suspCount % 256 * 256 + u.state.code) ||| flag u.pendData 4 ||| flag (l.mpOpen.map Prod.fst = some d) 5
  else if o = Reg.LN_SCHED_STAT then
    let on := s.cmdsOn g
    let waits := on.filter (fun e => e.2.2.stage = .pending)
    n (2 ^ 20 * (min 4095 on.length) + l.table.length) |||
      flag (waits.any (fun e => l.table.all (fun t => t.tenant ≠ e.2.2.owner))) 10 |||
      flag (l.mediaWait && waits.any (fun e => e.2.2.isWrite)) 9 ||| flag l.blockWait 8
  else if o = Reg.LN_FIFO_STAT then
    n (65536 * l.freeSlots) ||| flag (Tab.find? l.slots 14).isSome 1 ||| flag (Tab.find? l.slots 15).isSome 0
  else s.regAt (s.keyOf a)
/-- The registers of a Mover channel page. -/
def State.readChannel (s : State) (ch a : Nat) : Word :=
  let n (v : Nat) : Word := BitVec.ofNat 32 v
  let x := s.channel ch
  let o := a % 0x1000
  if o = Reg.MV_CH_STAT then
    (s.regAt a &&& 0x700#32) ||| n (65536 * (x.trigPend % 256) + x.cause % 16 * 16 + x.st.code) ||| flag (s.isPool ch) 3
  else if o = Reg.MV_CH_CNT then n ((x.chain.head?.map (·.len)).getD 0 - x.issued)
  else if o = Reg.MV_CH_CUR_LO then
    (if s.isPool ch then (match x.cmd with | some (c, h, _) => n (4096 * c + h) | none => 0) else x.cur.setWidth 32)
  else if o = Reg.MV_CH_CUR_HI then (if s.isPool ch then 0 else (x.cur >>> 32).setWidth 32)
  else s.regAt a
/-- The registers of a decoder page. -/
def State.readDecoder (s : State) (e a : Nat) : Word :=
  if a % 0x1000 = Reg.DE_CTX_STAT then
    let k := s.cluster (e / 2)
    BitVec.ofNat 32 (if e < 32 then (if e % 2 = 0 then k.hde0.length else k.hde1.length)
      else (((List.range 4).filter (fun i =>
        (Tab.getD (fun _ => none) (s.region ((e - 32) / 8)).ctx ((e - 32) % 8 * 4 + i)).isSome)).length))
  else s.regAt a
/-- The registers of a region page. -/
def State.readRegion (s : State) (r a : Nat) : Word :=
  let n (v : Nat) : Word := BitVec.ofNat 32 v
  let x := s.region r
  let o := a % 0x1000
  if o = Reg.RG_SDE_STAT then
    n (65536 * (min 65535 x.waiting.length) + (32 - ((List.range 32).filter (fun i => (Tab.getD (fun _ => none) x.ctx i).isSome)).length))
  else if o = Reg.RG_MEDIA_STAT then
    flag x.blocked 31 ||| n (x.used % 65536) |||
      flag (s.cmdList.any (fun e => decide (e.2.2.lane / 64 = r ∧ e.2.2.stage = .pending) && e.2.2.isWrite && (s.lane e.2.2.lane).mediaWait)) 16
  else s.regAt a
/-- The registers of a doorbell page (R91, R378, R383). -/
def State.readDoorbell (s : State) (t a : Nat) : Word :=
  let o := a % 0x1000
  let bits (k : Nat) : Word := (List.range 8).foldl (fun w i => w ||| flag (bit (s.vecCtl (8 * t + i)) k) i) 0
  if o = Reg.DB_STAT then s.regAt a ||| flag (s.tnState t = .resetting || s.tnState t = .fenced) 8
  else if o = Reg.DB_VEC_PEND then bits 3
  else if o = Reg.DB_VEC_MASK then bits 1
  else if 0x380 ≤ o ∧ o < 0x3B0 then s.regAt (Reg.MS_DIGEST + (o - 0x380))
  else if o = 0x3B0 then s.regAt Reg.MS_LOAD_COUNT
  else if o = 0x3B4 then BitVec.ofNat 32 (s.levelNo * 256 + s.glb.mode.code)
  else if o = 0x3B8 then s.release
  else s.regAt a
/-- The words of a vector's entry (R375). -/
def State.readVector (s : State) (v a : Nat) : Word :=
  if a % 64 = 0x14 then
    let x := s.vec v
    match x.opened with
    | some t => flag true 31 ||| BitVec.ofNat 32 (min 65535 (s.since t / 100) * 256 + min 255 x.count)
    | none => BitVec.ofNat 32 (min 255 x.count)
  else s.regAt a
/-- What a register reads as. -/
def State.regRead (s : State) (a : Nat) : Word :=
  match pageKind a with
  | .vector v => s.readVector v a
  | .window | .reserved => 0
  | k =>
    if a % 0x1000 < 0x40 ∨ 0xFF0 ≤ a % 0x1000 then s.readCommon a
    else match k with
      | .single 0 => s.readGlb a
      | .single n => if n < 7 then s.readUpper a else s.readLower a
      | .cluster c => s.readCluster c a
      | .lane g => s.readLane g a
      | .channel ch => s.readChannel ch a
      | .decoder e => s.readDecoder e a
      | .region r => s.readRegion r a
      | .doorbell t => s.readDoorbell t a
      | _ => 0

/-- The next entry of the pairing table, with AUTO_INC. -/
def State.pairNext (s : State) : State :=
  s.modReg Reg.DF_PAIR_ADDR (fun w => if bit w 31 then putFld w 11 0 ((fld w 11 0 + 1) % 4096) else w)
/-- What a read does: its RC fields clear (R9), and PAGE of DF_PAIR_ADDR advances with AUTO_INC after a read of the pairing
data. -/
def State.readClear (s : State) (a : Nat) : State :=
  let s1 := match regRow a with
    | some r => if r.rc = 0 then s else s.modReg (s.keyOf a) (fun w => w &&& ~~~ r.rc)
    | none => s
  if a = Reg.DF_PAIR_DATA then s1.pairNext else s1
/-- RC_READ (R9, R11, R44): a read of a register of the aperture. -/
def execRcRead (addr : BitVec 23) (id : BitVec 8) (s : State) : Out :=
  let a := addr.toNat
  done s (s.portRead a id (fun s => s.regRead a) (fun s => s.readClear a))

/-! ### Writes that are no command of their own (R101, R102) -/

/-- Registers of single pages of which every write is a command of its own. -/
def ownSingles : List Nat :=
  [Reg.GLB_MGR_OWNER, Reg.GLB_BOOT_ATTEMPT, Reg.GLB_EXPERT_UNLOCK, Reg.GLB_SCR_CTL, Reg.GLB_EG_SUM, Reg.DF_MARK_CMD, Reg.DF_FR_CMD,
   Reg.TN_RING_CMD, Reg.TN_CMD, Reg.KY_CMD, Reg.KY_SEAL_CMD, Reg.CC_MAINT, Reg.CC_CTL, Reg.CAL_GB_SCMD, Reg.LG_TN_SHARE,
   Reg.IW_TN_QUOTA, Reg.SW_REP_ADD, Reg.PB_CTL, Reg.PB_SEED]
/-- The write of a value to an address is a command of its own. -/
def ownWrite (a : Nat) (data : Word) : Bool :=
  let o := a % 0x1000
  match pageKind a with
  | .window => true
  | .reserved => false
  | .vector _ => decide (a % 64 = 0)
  | k =>
    if o = 0x020 then bit data 31
    else if o = 0xFF0 ∨ (0xF00 ≤ o ∧ o < 0xF20 ∧ o % 8 = 0) then true
    else match k with
      | .single _ =>
        ownSingles.contains a || (decide (a = Reg.GLB_OPEN_CTL) && bit data 0) || (decide (a = Reg.CAL_CTL) && bit data 1) ||
          (decide (a = Reg.BL_CFG) && bit data 31) || (decide (a = Reg.PT_HIST_SEL) && bit data 31) ||
          decide ((Reg.SG_SENSE ≤ a ∧ a < Reg.SG_SENSE + 32) ∨ (Reg.MV_TMR ≤ a ∧ a < Reg.MV_TMR + 32))
      | .cluster _ => decide (o = Reg.CL_INTAKE_FLUSH)
      | .lane _ =>
        (decide (o = Reg.LN_CAL_CTL) && (bit data 8 || bit data 9)) || (decide (o = Reg.LN_LAT_SEL ∨ o = Reg.LN_GB_SEL) && bit data 31) ||
          decide (shadowOff 0 ≤ o ∧ o ≤ shadowOff 5)
      | .channel _ => decide (o = Reg.MV_CH_CMD ∨ o = Reg.MV_CH_CFG)
      | .doorbell _ => decide (o = Reg.DB_RING ∨ o = Reg.DB_VEC_MASK)
      | _ => false
/-- DF_CTL, DF_BASE and DF_FR_BASE may be written: OPENING before phase DEFECT, or FALLBACK. -/
def State.areaOpen (s : State) : Bool :=
  (decide (s.glb.mode = .opening) && decide (s.glb.phase.code < 7)) || decide (s.glb.mode = .fallback)
/-- A write of a register has no effect in the state of the block (R88, R93, R276, R293, R312, and the descriptions of the
registers). -/
def State.writeShut (s : State) (a : Nat) : Bool :=
  if a = Reg.MS_IMG_LEN then s.glb.phase ≠ .awaitImages
  else if a = Reg.DF_CTL ∨ a = Reg.DF_BASE ∨ a = Reg.DF_FR_BASE then !s.areaOpen
  else if a = Reg.CC_BASE_LO ∨ a = Reg.CC_BASE_HI ∨ a = Reg.CC_SIZE then s.cache.st ≠ .disabled
  else if a = Reg.CAL_RL_BASE then bit (s.regAt Reg.CAL_RL_CTL) 0
  else if a = Reg.TN_RING_BASE then !s.rings.isEmpty
  else if a = Reg.MV_CFG then
    !(s.glb.mode = .opening || (s.glb.mode = .fallback && !s.glb.fetchedInFallback))
  else if 0xC040 ≤ a ∧ a < 0xC200 then s.glb.mode = .fallback
  else false
/-- The write of the pairing data (R276): while EN is 0 it sets the entry and ends its parity error. -/
def State.pairWrite (s : State) (locked : Bool) (data : Word) : State :=
  let p := fld (s.regAt Reg.DF_PAIR_ADDR) 11 0
  let s1 := if locked ∨ bit (s.regAt Reg.DF_PAIR_CTL) 0 then s
    else { s with pairing := Tab.setD (fun _ => 0) s.pairing p (data &&& 0x3FFF#32) }.modScrub (fun x =>
      { x with pairBad := x.pairBad.filter (· ≠ p) })
  s1.pairNext
/-- A 1 written to pending bits of a bank clears the latched bits of sources in an edge mode that belong to it (R370, R371). -/
def State.pendWrite (s : State) (n : Nat) (fastBank : Bool) (data : Word) : State :=
  let m : BitVec 128 := (List.range 32).foldl (fun m i =>
    if bit data i && s.fast (32 * n + i) == fastBank && s.sense (32 * n + i) ≠ 0 then m ||| BitVec.ofNat 128 (2 ^ (32 * n + i)) else m) 0
  s.modSignal (fun g => { g with latched := g.latched &&& ~~~ m })
/-- PEND of vectors cleared through DB_VEC_PEND, as writes of SG_VT_CTL (R378). -/
def State.vecPendWrite (s : State) (t : Nat) (data : Word) : State :=
  if s.pageDead t then s
  else (List.range 8).foldl (fun u k =>
    if bit data k then u.vecCtlPut (8 * t + k) (u.vecCtl (8 * t + k) ||| flag true 3) else u) s
/-- What a write of some registers does beside their fields: a limit of AWAIT_IMAGES that has passed fails the phase, parity errors end, the cap, RB_N and the watchdog are looked at
again, the frontier and bitmap areas of FALLBACK become assigned, and Sweep's pass ends (R85, R154, R155, R268, R293, R361, R380,
R395, R428, R433, R439). -/
def State.afterWrite (s : State) (old : State) (a : Nat) : State :=
  let fb := decide (s.glb.mode = .fallback)
  if a = Reg.GLB_OPEN_TIMEOUT then (if s.imagesLate then s.openFail .imageTimeout else s)
  else if a = Reg.DF_BASE then s.modGlb (fun g => { g with dfBaseSet := g.dfBaseSet || fb })
  else if a = Reg.DF_FR_BASE then s.modGlb (fun g => { g with frBaseSet := g.frBaseSet || fb })
  else if a = Reg.MV_CFG then (if fb then s.modGlb (fun g => { g with mvCfg := s.regAt a }) else s)
  else if a = Reg.CAL_RATE then s.laneList.foldl State.capCheck s
  else if a = Reg.CAL_GB_DATA0 ∨ a = Reg.CAL_GB_DATA1 then
    s.modScrub (fun x => { x with gbBad := x.gbBad.filter (· ≠ fld (s.regAt Reg.CAL_GB_ADDR) 9 0) })
  else if Reg.LG_COST_SENSE ≤ a ∧ a ≤ Reg.LG_COST_MEDIA then
    s.modLedger (fun l => { l with costBad := l.costBad.filter (· ≠ s.keyOf a) })
  else if a = Reg.SW_CTL then (if bit (s.regAt a) 0 then s else s.modScrub (fun x => { x with row := 0 }))
  else if a = Reg.GLB_SCR_WDOG then
    (if s.regAt a = old.regAt a then s else s.modCore 16 (fun k => { k with kick := s.time.toNat }))
  else if a = 0xF008 then (if s.glb.pbOpen ∧ ¬ bit (s.regAt a) 0 then s.pbClose else s)
  else match pageKind a with
    | .lane g => if a % 0x1000 = Reg.LN_SIG_CTL then (s.rbSync g).capCheck g else s
    | .vector v => if a % 64 < 0x14 then s.modVec v (fun x => { x with bad := x.bad.filter (· ≠ a % 64 / 4) }) else s
    | _ => s
/-- The effect of a write that is accepted (R9, R101). -/
def State.regWrite (s : State) (a : Nat) (locked : Bool) (data : Word) : State :=
  let o := a % 0x1000
  if ownWrite a data ∨ s.writeShut a then s
  else if inPage a ∧ 0xF00 ≤ o ∧ o < 0xFF0 then
    match pageKind a with
    | .doorbell _ => s
    | _ => if s.glb.pbOpen then s.writeRow a false data else s.pxDrop
  else if a = Reg.DF_PAIR_DATA then s.pairWrite locked data
  else if Reg.KY_WRAP ≤ a ∧ a < Reg.KY_WRAP + 72 then s.setReg a data
  else if Reg.SG_PEND ≤ a ∧ a < Reg.SG_PEND + 16 then s.pendWrite ((a - Reg.SG_PEND) / 4) false data
  else if Reg.SG_FPEND ≤ a ∧ a < Reg.SG_FPEND + 16 then s.pendWrite ((a - Reg.SG_FPEND) / 4) true data
  else match pageKind a with
    | .doorbell t => if o = Reg.DB_VEC_PEND then s.vecPendWrite t data else if s.pageDead t then s else s.writeRow a locked data
    | _ => if locked then s.writeRow a true data else (s.writeRow a false data).afterWrite s a
/-- REGISTER_WRITE (R102): a write of a register that has no row of its own. -/
def execRegisterWrite (addr : BitVec 23) (a : RpAcc) (s : State) : Out :=
  let ad := addr.toNat
  done s (s.portWrite ad a (fun locked s => s.regWrite ad locked a.data))

end Sys2Proof.Machine
end

