-- ==== Sys2Proof/Machine/Dispatch.lean ====
section
/-! DEFINITION. The effect of every command on everything but the queue: one arm for each row of the opcode table. -/
namespace Sys2Proof.Machine
open Sys2Proof

/-- The command's effect on everything but the queue of commands. -/
def exec (i : Instr) (s : State) : Host.Outcome State Fault Refusal :=
  match i with
  | .coldResetAssert => Sys2Proof.Machine.execColdResetAssert s
  | .coldResetRelease => Sys2Proof.Machine.execColdResetRelease s
  | .fuseAck data par => Sys2Proof.Machine.execFuseAck data par s
  | .fuseAckTimeout => Sys2Proof.Machine.execFuseAckTimeout s
  | .centralRelease => Sys2Proof.Machine.execCentralRelease s
  | .warmResetAssert withWarning => Sys2Proof.Machine.execWarmResetAssert withWarning s
  | .warmResetRelease found copies => Sys2Proof.Machine.execWarmResetRelease found copies s
  | .kekSample data par => Sys2Proof.Machine.execKekSample data par s
  | .pfWarnRegistered failure => Sys2Proof.Machine.execPfWarnRegistered failure s
  | .holdupOkChange level => Sys2Proof.Machine.execHoldupOkChange level s
  | .millisecondEdge meas cap => Sys2Proof.Machine.execMillisecondEdge meas cap s
  | .thermCodeUpdate code0 code1 => Sys2Proof.Machine.execThermCodeUpdate code0 code1 s
  | .scanModeRise => Sys2Proof.Machine.execScanModeRise s
  | .scanModeFall => Sys2Proof.Machine.execScanModeFall s
  | .extest pins shifted => Sys2Proof.Machine.execExtest pins shifted s
  | .idcode => Sys2Proof.Machine.execIdcode s
  | .samplePreload pins shifted => Sys2Proof.Machine.execSamplePreload pins shifted s
  | .clamp => Sys2Proof.Machine.execClamp s
  | .highz => Sys2Proof.Machine.execHighz s
  | .bypass code => Sys2Proof.Machine.execBypass s code
  | .hpRequestAccept port => Sys2Proof.Machine.execHpRequestAccept port s
  | .hpWriteBeat port => Sys2Proof.Machine.execHpWriteBeat port s
  | .hpReadBeat port tag data par resp => Sys2Proof.Machine.execHpReadBeat port tag data par resp s
  | .hpWriteStatus port tag resp => Sys2Proof.Machine.execHpWriteStatus port tag resp s
  | .hpTimeout port wr tag => Sys2Proof.Machine.execHpTimeout port wr tag s
  | .registerWrite addr a => Sys2Proof.Machine.execRegisterWrite addr a s
  | .rcRead addr id => Sys2Proof.Machine.execRcRead addr id s
  | .mgrOwnerClaim a => Sys2Proof.Machine.execMgrOwnerClaim a s
  | .mgrOwnerRelease a => Sys2Proof.Machine.execMgrOwnerRelease a s
  | .mgrSuccessorSet a => Sys2Proof.Machine.execMgrSuccessorSet a s
  | .expertArm a => Sys2Proof.Machine.execExpertArm a s
  | .expertOpen a => Sys2Proof.Machine.execExpertOpen a s
  | .expertClose a => Sys2Proof.Machine.execExpertClose a s
  | .pageLock page a => Sys2Proof.Machine.execPageLock page a s
  | .errCaptClear page a => Sys2Proof.Machine.execErrCaptClear page a s
  | .go a withTimeout => Sys2Proof.Machine.execGo a withTimeout s
  | .clear a => Sys2Proof.Machine.execClear a s
  | .loadWindowWrite addr a => Sys2Proof.Machine.execLoadWindowWrite addr a s
  | .resume a => Sys2Proof.Machine.execResume a s
  | .recal lane a => Sys2Proof.Machine.execRecal lane a s
  | .retrain lane a => Sys2Proof.Machine.execRetrain lane a s
  | .laneShadowWrite lane which a handOver => Sys2Proof.Machine.execLaneShadowWrite lane which a handOver s
  | .markQuery a cc => Sys2Proof.Machine.execMarkQuery a cc s
  | .markGrownHost a cc => Sys2Proof.Machine.execMarkGrownHost a cc s
  | .markClear a cc => Sys2Proof.Machine.execMarkClear a cc s
  | .ringCmdRead a cc => Sys2Proof.Machine.execRingCmdRead a cc s
  | .ringCmdWrite a cc => Sys2Proof.Machine.execRingCmdWrite a cc s
  | .disable a cc => Sys2Proof.Machine.execDisable a cc s
  | .resetRing a cc => Sys2Proof.Machine.execResetRing a cc s
  | .doorbellSubProd page a cc residue => Sys2Proof.Machine.execDoorbellSubProd page a cc residue s
  | .doorbellCplCons page a cc residue => Sys2Proof.Machine.execDoorbellCplCons page a cc s residue
  | .intakeFlushBulk cl a => Sys2Proof.Machine.execIntakeFlushBulk cl a s
  | .intakeFlushUrgent cl a => Sys2Proof.Machine.execIntakeFlushUrgent cl a s
  | .latHistClear lane a => Sys2Proof.Machine.execLatHistClear lane a s
  | .gbHistClear lane a => Sys2Proof.Machine.execGbHistClear lane a s
  | .ptHistClear a => Sys2Proof.Machine.execPtHistClear a s
  | .rewalk a => Sys2Proof.Machine.execRewalk a s
  | .gbFail a cc => Sys2Proof.Machine.execGbFail a s cc
  | .frQuery a cc => Sys2Proof.Machine.execFrQuery a cc s
  | .frClose a cc => Sys2Proof.Machine.execFrClose a cc s
  | .frOpen a cc => Sys2Proof.Machine.execFrOpen a cc s
  | .ccClean a => Sys2Proof.Machine.execCcClean a s
  | .ccInvalidate a => Sys2Proof.Machine.execCcInvalidate a s
  | .ccCleanInvalidate a => Sys2Proof.Machine.execCcCleanInvalidate a s
  | .preloadLock a bad => Sys2Proof.Machine.execPreloadLock a bad s
  | .unlock a => Sys2Proof.Machine.execUnlock a s
  | .invalAll a => Sys2Proof.Machine.execInvalAll a s
  | .ccEnable a => Sys2Proof.Machine.execCcEnable a s
  | .ccDisable a => Sys2Proof.Machine.execCcDisable a s
  | .load a => Sys2Proof.Machine.execLoad a s
  | .zeroise a => Sys2Proof.Machine.execZeroise a s
  | .zeroiseInst a => Sys2Proof.Machine.execZeroiseInst a s
  | .sealRaise a => Sys2Proof.Machine.execSealRaise a s
  | .sealLower a cc upset => Sys2Proof.Machine.execSealLower a cc upset s
  | .start ch a => Sys2Proof.Machine.execStart ch a s
  | .stop ch a => Sys2Proof.Machine.execStop ch a s
  | .mvClear ch a => Sys2Proof.Machine.execMvClear ch a s
  | .mvTimerWrite n a => Sys2Proof.Machine.execMvTimerWrite n a s
  | .mvCfgShadowWrite ch a handOver => Sys2Proof.Machine.execMvCfgShadowWrite ch a handOver s
  | .create a => Sys2Proof.Machine.execCreate a s
  | .tnReset a cc => Sys2Proof.Machine.execTnReset a cc s
  | .unfence a cc => Sys2Proof.Machine.execUnfence a cc s
  | .destroy a => Sys2Proof.Machine.execDestroy a s
  | .repairAdd a => Sys2Proof.Machine.execRepairAdd a s
  | .vectorCtlWrite vec a => Sys2Proof.Machine.execVectorCtlWrite vec a s
  | .dbVecMaskWrite page a => Sys2Proof.Machine.execDbVecMaskWrite page a s
  | .senseModeWrite n a => Sys2Proof.Machine.execSenseModeWrite n a s
  | .retClear a => Sys2Proof.Machine.execRetClear a s
  | .arm a => Sys2Proof.Machine.execArm a s
  | .scribeReloadGo a => Sys2Proof.Machine.execScribeReloadGo a s
  | .pbOpen a => Sys2Proof.Machine.execPbOpen a s
  | .pbClose a => Sys2Proof.Machine.execPbClose a s
  | .pbSeedWrite a => Sys2Proof.Machine.execPbSeedWrite a s
  | .pxCtlWrite page slot a => Sys2Proof.Machine.execPxCtlWrite page slot a s
  | .egSummaryClear a => Sys2Proof.Machine.execEgSummaryClear a s
  | .quotaWrite a => Sys2Proof.Machine.execQuotaWrite a s
  | .shareWrite a => Sys2Proof.Machine.execShareWrite a s
  | .awaitImagesTimeout => Sys2Proof.Machine.execAwaitImagesTimeout s
  | .phaseTimeout => Sys2Proof.Machine.execPhaseTimeout s
  | .measureDone uncorr corrected => Sys2Proof.Machine.execMeasureDone uncorr s corrected
  | .startPhase sramErr => Sys2Proof.Machine.execStartPhase sramErr s
  | .trainPhase found => Sys2Proof.Machine.execTrainPhase found s
  | .sealPhase copies => Sys2Proof.Machine.execSealPhase copies s
  | .defectPhase markers cc => Sys2Proof.Machine.execDefectPhase markers cc s
  | .serviceEntry upset => Sys2Proof.Machine.execServiceEntry upset s
  | .openingRestart found copies => Sys2Proof.Machine.execOpeningRestart found copies s
  | .calRunStep lane mism withWrite => Sys2Proof.Machine.execCalRunStep lane mism withWrite s
  | .calStepWaitExpiry lane => Sys2Proof.Machine.execCalStepWaitExpiry lane s
  | .castling lane => Sys2Proof.Machine.execCastling lane s
  | .forcedIdle lane => Sys2Proof.Machine.execForcedIdle lane s
  | .retrainRun lane trials => Sys2Proof.Machine.execRetrainRun lane trials s
  | .retrainReadyTimeout lane => Sys2Proof.Machine.execRetrainReadyTimeout lane s
  | .retrainRerequest lane => Sys2Proof.Machine.execRetrainRerequest lane s
  | .rbReady lane die status cc => Sys2Proof.Machine.execRbReady lane die status cc s
  | .qAdd core => Sys2Proof.Machine.execQAdd core s
  | .qAddi core => Sys2Proof.Machine.execQAddi core s
  | .qSub core => Sys2Proof.Machine.execQSub core s
  | .qAnd core => Sys2Proof.Machine.execQAnd core s
  | .qOr core => Sys2Proof.Machine.execQOr core s
  | .qXor core => Sys2Proof.Machine.execQXor core s
  | .qShli core => Sys2Proof.Machine.execQShli core s
  | .qShri core => Sys2Proof.Machine.execQShri core s
  | .qLui core => Sys2Proof.Machine.execQLui core s
  | .qLd core => Sys2Proof.Machine.execQLd core s
  | .qSt core => Sys2Proof.Machine.execQSt core s
  | .qBeq core => Sys2Proof.Machine.execQBeq core s
  | .qBne core => Sys2Proof.Machine.execQBne core s
  | .qBltu core => Sys2Proof.Machine.execQBltu core s
  | .qJal core => Sys2Proof.Machine.execQJal core s
  | .qJr core => Sys2Proof.Machine.execQJr core s
  | .qWaitev core => Sys2Proof.Machine.execQWaitev core s
  | .qCmdrd core => Sys2Proof.Machine.execQCmdrd core s
  | .qMawrow core => Sys2Proof.Machine.execQMawrow core s
  | .qPset core => Sys2Proof.Machine.execQPset core s
  | .qStrk core => Sys2Proof.Machine.execQStrk core s
  | .qDone core => Sys2Proof.Machine.execQDone core s
  | .qDefer core => Sys2Proof.Machine.execQDefer core s
  | .qCsrr core => Sys2Proof.Machine.execQCsrr core s
  | .qCsrw core => Sys2Proof.Machine.execQCsrw core s
  | .qReady core => Sys2Proof.Machine.execQReady core s
  | .quillTimer core n => Sys2Proof.Machine.execQuillTimer core n s
  | .strokeStart lane ecc => Sys2Proof.Machine.execStrokeStart lane ecc s
  | .elEnd lane => Sys2Proof.Machine.execElEnd lane s
  | .elCmd lane => Sys2Proof.Machine.execElCmd lane s
  | .elCmdp lane => Sys2Proof.Machine.execElCmdp lane s
  | .elAddr lane => Sys2Proof.Machine.execElAddr lane s
  | .elDout lane frames raw ecc byte => Sys2Proof.Machine.execElDout lane frames raw s ecc byte
  | .elDin lane ecc => Sys2Proof.Machine.execElDin lane s ecc
  | .elFeat lane => Sys2Proof.Machine.execElFeat lane s
  | .elWait lane => Sys2Proof.Machine.execElWait lane s
  | .elStat lane status => Sys2Proof.Machine.execElStat lane status s
  | .elCe lane => Sys2Proof.Machine.execElCe lane s
  | .busyPoll lane die status cc => Sys2Proof.Machine.execBusyPoll lane die status cc s
  | .suspOverrun lane die => Sys2Proof.Machine.execSuspOverrun lane die s
  | .ringFetch ring cc residue mawResidue => Sys2Proof.Machine.execRingFetch ring cc residue mawResidue s
  | .intakePush cl urgent ecc => Sys2Proof.Machine.execIntakePush cl urgent ecc s
  | .intakePop cl ecc => Sys2Proof.Machine.execIntakePop cl ecc s
  | .opRead cl h => Sys2Proof.Machine.execOpRead cl h s
  | .opProgram cl h cc => Sys2Proof.Machine.execOpProgram cl h s cc
  | .opErase cl h => Sys2Proof.Machine.execOpErase cl h s
  | .opCopy cl h => Sys2Proof.Machine.execOpCopy cl h s
  | .opBlankCheck cl h => Sys2Proof.Machine.execOpBlankCheck cl h s
  | .opFetch cl h => Sys2Proof.Machine.execOpFetch cl h s
  | .opRelease cl h => Sys2Proof.Machine.execOpRelease cl h s
  | .opGetFeature cl h => Sys2Proof.Machine.execOpGetFeature cl h s
  | .opSetFeature cl h => Sys2Proof.Machine.execOpSetFeature cl h s
  | .opIdentify cl h => Sys2Proof.Machine.execOpIdentify cl h s
  | .opResetDie cl h => Sys2Proof.Machine.execOpResetDie cl h s
  | .opRawRead cl h => Sys2Proof.Machine.execOpRawRead cl h s
  | .opPatrolSample cl h => Sys2Proof.Machine.execOpPatrolSample cl h s
  | .opFence ring cc => Sys2Proof.Machine.execOpFence ring cc s
  | .selection lane cc upset => Sys2Proof.Machine.execSelection lane cc upset s
  | .ledgerRefill upset => Sys2Proof.Machine.execLedgerRefill upset s
  | .hdePass cl k ecc cc byte => Sys2Proof.Machine.execHdePass cl k ecc s cc byte
  | .hdeDone cl k h frame cc ecc => Sys2Proof.Machine.execHdeDone cl k h frame cc s ecc
  | .sdeContextGrant reg ecc cc byte => Sys2Proof.Machine.execSdeContextGrant reg ecc s cc byte
  | .softSensingArrival lane ecc cc byte => Sys2Proof.Machine.execSoftSensingArrival lane s ecc cc byte
  | .sdeDone reg ctx cc => Sys2Proof.Machine.execSdeDone reg ctx cc s
  | .gambitStep lane parity cc => Sys2Proof.Machine.execGambitStep lane parity cc s
  | .cipherUnit cl k ecc cc => Sys2Proof.Machine.execCipherUnit cl k s ecc cc
  | .cipherUnitDone cl k ecc cc => Sys2Proof.Machine.execCipherUnitDone cl k s ecc cc
  | .zeroFillDone slab tag => Sys2Proof.Machine.execZeroFillDone slab s tag
  | .channelTake => Sys2Proof.Machine.execChannelTake s
  | .moverRequest ch ecc residue tag => Sys2Proof.Machine.execMoverRequest ch ecc residue tag s
  | .descriptorFetch ch => Sys2Proof.Machine.execDescriptorFetch ch s
  | .triggerTick n => Sys2Proof.Machine.execTriggerTick n s
  | .mvCastling ch => Sys2Proof.Machine.execMvCastling ch s
  | .completionWrite port cc bad pair residue => Sys2Proof.Machine.execCompletionWrite port cc bad pair s residue
  | .lateErr cc residue => Sys2Proof.Machine.execLateErr cc s residue
  | .windowExpiry vec bad => Sys2Proof.Machine.execWindowExpiry vec bad s
  | .vectorMessageWrite vec => Sys2Proof.Machine.execVectorMessageWrite vec s
  | .edgeCatch src rising => Sys2Proof.Machine.execEdgeCatch src s rising
  | .ccLookup off l err => Sys2Proof.Machine.execCcLookup off l err s
  | .ccFill reg => Sys2Proof.Machine.execCcFill reg s
  | .ccWritebackStatus slot => Sys2Proof.Machine.execCcWritebackStatus slot s
  | .ccRetry cc => Sys2Proof.Machine.execCcRetry cc s
  | .clusterDoze cl => Sys2Proof.Machine.execClusterDoze cl s
  | .clusterWake cl => Sys2Proof.Machine.execClusterWake cl s
  | .sdeRegionDoze reg => Sys2Proof.Machine.execSdeRegionDoze reg s
  | .sdeRegionWake reg => Sys2Proof.Machine.execSdeRegionWake reg s
  | .blockDoze => Sys2Proof.Machine.execBlockDoze s
  | .blockWake => Sys2Proof.Machine.execBlockWake s
  | .leak g adds => Sys2Proof.Machine.execLeak g s adds
  | .sweepRow found half shared victim => Sys2Proof.Machine.execSweepRow found half s shared victim
  | .patrolIssue cc => Sys2Proof.Machine.execPatrolIssue cc s
  | .resetDone cc => Sys2Proof.Machine.execResetDone cc s
  | .sanitizeErase lane die cc => Sys2Proof.Machine.execSanitizeErase lane die cc s
  | .sanitizeDone upset => Sys2Proof.Machine.execSanitizeDone upset s
  | .keyLoadDone => Sys2Proof.Machine.execKeyLoadDone s
  | .endgameEnd => Sys2Proof.Machine.execEndgameEnd s
  | .endgameBudgetExpiry => Sys2Proof.Machine.execEndgameBudgetExpiry s
  | .egHeaderWrite => Sys2Proof.Machine.execEgHeaderWrite s
  | .watchdogExpiry => Sys2Proof.Machine.execWatchdogExpiry s
  | .scribeReload sramErr noReady => Sys2Proof.Machine.execScribeReload sramErr noReady s
  | .illegalInstruction core why => Sys2Proof.Machine.execIllegalInstruction core why s
  | .rbBusyTimeout lane die cc => Sys2Proof.Machine.execRbBusyTimeout lane die cc s
  | .maintDone => Sys2Proof.Machine.execMaintDone s
  | .drainDone => Sys2Proof.Machine.execDrainDone s

end Sys2Proof.Machine
end

