-- ==== Sys2Proof/Machine/Time.lean ====
section
/-! DEFINITION. What one cycle of CLK_AON does when no command waits (log entry 2): GLB_TIME counts (R111) and the
Blotter moves records from its queue into the logs (R423). The Scribe's watchdog does not count while the Scribe waits (R428). -/
namespace Sys2Proof.Machine

/-- One more vector entry is restored after a block wake, until all are (R381). -/
def State.restoreOne (s : State) : State :=
  if s.signal.restoring then
    s.modSignal (fun g => { g with restored := g.restored + 1, restoring := decide (g.restored + 1 < 4096) })
  else s
/-- The core waits in WAITEV on an empty queue (R158). -/
def Core.waits (k : Core) : Bool := k.state = .running && k.events.isEmpty && decide (fld k.word 31 26 = 0x10)
/-- The instant that the watchdog counts from moves on through a cycle in which the Scribe waits, so that the cycle is not
counted (R428). -/
def Core.held (k : Core) : Core := if k.waits then { k with kick := k.kick + 1 } else k
/-- The temperatures of a cycle: THM_MAX, and the CRIT stop, evaluated in every cycle (R404). -/
def State.heat (s : State) : State := if s.glb.mode = .reset then s else s.keepMax.evalCrit
/-- One cycle of CLK_AON: the register port's outputs return to zero (R44), GLB_TIME counts from the release of cold reset (R111), and up to 16 queued records enter the
Blotter's logs (R423) and a vector entry is restored (R381), unless the central domain is held or gated. The edges that the cycle makes are
latched (R371). -/
def State.tick (s : State) : State :=
  if s.alive then
    let s1 : State := { s with
      time := s.time + 1, rp := { ack := false, err := false, data := some 0 }, glb := { s.glb with doneShown := false }, scribe := s.scribe.held }
    if s.awake then settle s (State.blotterDrain 16 s1).restoreOne.heat else s1
  else s

end Sys2Proof.Machine
end

