-- ==== Sys2Proof/Machine/Step.lean ====
section
/-! DEFINITION. One step of the block: the command at the front of the queue, or one CLK_AON cycle when none waits. -/
namespace Sys2Proof.Machine
open Sys2Proof

/-- One step. With a command at the front of the queue, its effect on the state whose queue is the rest. With an empty
queue, one cycle of CLK_AON passes (log entry 2). -/
def step (s : State) : Host.Outcome State Fault Refusal :=
  match s.pending with
  | [] => .next s.tick
  | c :: q => exec c { s with pending := q }

/-- The state with the command that a table word spells at the front of its queue; the table spells none. -/
def State.withFetchWord (s : State) (nbits w : Nat) : State :=
  match decodeTableWord nbits w with
  | some c => { s with pending := c :: s.pending }
  | none => s

end Sys2Proof.Machine
end

