-- ==== Sys2Proof/Safety.lean ====
section
/-! DEFINITION. What the claims about the block are said in: the canonical form of the state's tables, what an access of
the register port needs to be accepted, and the state that a command's effect comes to. -/
namespace Sys2Proof.Machine
open Sys2Proof

/-! ### The canonical form -/

/-- Every table of the state is in its canonical form: keys strictly rising, no entry equal to what an unlisted key
reads as. -/
def State.canon (s : State) : Bool :=
  Tab.wf regReset s.regs && Tab.wf (fun _ => (0 : Byte)) s.images && Tab.wf (fun _ => (0 : Byte)) s.store &&
  Tab.wf (fun _ => Cluster.init) s.clusters && Tab.wf (fun _ => Lane.init) s.lanes && Tab.wf (fun _ => Region.init) s.regions &&
  Tab.wf (fun _ => (none : Option Cmd)) s.cmds && Tab.wf (fun _ => Slab.init) s.slabs && Tab.wf (fun _ => Port.init) s.ports &&
  Tab.wf (fun _ => Channel.init) s.channels && Tab.wf (fun _ => 0) s.ticks && Tab.wf (fun _ => (0 : Word)) s.draws &&
  Tab.wf (fun _ => (0 : Word)) s.rings && Tab.wf (fun _ => (0 : Word)) s.pairing

/-! ### What a command does -/

/-- The state t that the effect u of a command on s comes to: the latched bits are those of u with the edges that the level sources show
from s to u, and no others (R371), and the cycle in which a page's first error could still give way to another has ended (R109); or nothing
has happened. -/
def Alike (s t u : State) : Prop := t = settle s u ∨ (u = s ∧ t = s)
/-- A command completes on s with the effect u: its answer is the next state that this effect comes to. -/
def Yields (c : Instr) (s u : State) : Prop := ∃ t, exec c s = .next t ∧ Alike s t u

/-! ### An accepted write of the register port -/

/-- The state that a write finds: a doze ended, the access counted as an opportunity of the PB page, and an armed unlock
closed where R106 says so. -/
def State.accepting (s : State) (a : Nat) (acc : RpAcc) : State := (s.portBegin a).disarm a acc
/-- A write has its effect: mission operation out of reset, no fault of R46, and none of orders 2 to 4 of R102. -/
def State.accepts (s : State) (a : Nat) (acc : RpAcc) : Bool :=
  decide (s.pins.scan = .mission) && !s.pins.pwrLow && !s.portReset && ((s.portBegin a).portFault a true acc).isNone &&
  !(s.accepting a acc).absent a && !(s.accepting a acc).dozedPage a && !(s.accepting a acc).lockApplies a &&
  !(s.accepting a acc).expertApplies a
/-- A register-port write completes: accepted, it has the given effect on the state it finds and is acknowledged without
an error (R44, R102). -/
def Writes (c : Instr) (s : State) (a : Nat) (acc : RpAcc) (u : State) : Prop :=
  s.accepts a acc = true → Yields c s (u.answer false none)

/-! ### Operations on lines of the Context Cache -/

/-- A command completes with an effect whose lookups are all answered at once: none is open before it, and none in its effect
(R316; an operation that wants a line waits for it, LookupsWait). -/
def Found (c : Instr) (s u : State) : Prop := s.cache.wanted = none → u.cache.wanted = none → Yields c s u
/-- The same of an accepted write of the register port. -/
def Finds (c : Instr) (s : State) (a : Nat) (acc : RpAcc) (u : State) : Prop :=
  s.cache.wanted = none → u.cache.wanted = none → Writes c s a acc u

/-! ### The writes of the register port -/

/-- The commands that are a write of the register port, with the byte address and what the requester drives. -/
def writeOf : Instr → Option (Nat × RpAcc)
  | .registerWrite ad a => some (ad.toNat, a)
  | .mgrOwnerClaim a => some (Reg.GLB_MGR_OWNER, a)
  | .mgrOwnerRelease a => some (Reg.GLB_MGR_OWNER, a)
  | .mgrSuccessorSet a => some (Reg.GLB_MGR_OWNER, a)
  | .expertArm a => some (Reg.GLB_EXPERT_UNLOCK, a)
  | .expertOpen a => some (Reg.GLB_EXPERT_UNLOCK, a)
  | .expertClose a => some (Reg.GLB_EXPERT_UNLOCK, a)
  | .pageLock p a => some (0x1000 * p.val + 0xFF0, a)
  | .errCaptClear p a => some (0x1000 * p.val + 0x020, a)
  | .go a _ => some (Reg.GLB_OPEN_CTL, a)
  | .clear a => some (Reg.GLB_BOOT_ATTEMPT, a)
  | .loadWindowWrite ad a => some (ad.toNat, a)
  | .resume a => some (Reg.CAL_CTL, a)
  | .recal g a => some (lnA g.val Reg.LN_CAL_CTL, a)
  | .retrain g a => some (lnA g.val Reg.LN_CAL_CTL, a)
  | .laneShadowWrite g n a _ => some (lnA g.val (shadowOff n.val), a)
  | .markQuery a _ => some (Reg.DF_MARK_CMD, a)
  | .markGrownHost a _ => some (Reg.DF_MARK_CMD, a)
  | .markClear a _ => some (Reg.DF_MARK_CMD, a)
  | .ringCmdRead a _ => some (Reg.TN_RING_CMD, a)
  | .ringCmdWrite a _ => some (Reg.TN_RING_CMD, a)
  | .disable a _ => some (Reg.TN_RING_CMD, a)
  | .resetRing a _ => some (Reg.TN_RING_CMD, a)
  | .doorbellSubProd p a _ _ => some (dbA p.val Reg.DB_RING, a)
  | .doorbellCplCons p a _ _ => some (dbA p.val Reg.DB_RING, a)
  | .intakeFlushBulk c a => some (clA c.val Reg.CL_INTAKE_FLUSH, a)
  | .intakeFlushUrgent c a => some (clA c.val Reg.CL_INTAKE_FLUSH, a)
  | .latHistClear g a => some (lnA g.val Reg.LN_LAT_SEL, a)
  | .gbHistClear g a => some (lnA g.val Reg.LN_GB_SEL, a)
  | .ptHistClear a => some (Reg.PT_HIST_SEL, a)
  | .rewalk a => some (Reg.CAL_GB_SCMD, a)
  | .gbFail a _ => some (Reg.CAL_GB_SCMD, a)
  | .frQuery a _ => some (Reg.DF_FR_CMD, a)
  | .frClose a _ => some (Reg.DF_FR_CMD, a)
  | .frOpen a _ => some (Reg.DF_FR_CMD, a)
  | .ccClean a => some (Reg.CC_MAINT, a)
  | .ccInvalidate a => some (Reg.CC_MAINT, a)
  | .ccCleanInvalidate a => some (Reg.CC_MAINT, a)
  | .preloadLock a _ => some (Reg.CC_MAINT, a)
  | .unlock a => some (Reg.CC_MAINT, a)
  | .invalAll a => some (Reg.CC_MAINT, a)
  | .ccEnable a => some (Reg.CC_CTL, a)
  | .ccDisable a => some (Reg.CC_CTL, a)
  | .load a => some (Reg.KY_CMD, a)
  | .zeroise a => some (Reg.KY_CMD, a)
  | .zeroiseInst a => some (Reg.KY_CMD, a)
  | .sealRaise a => some (Reg.KY_SEAL_CMD, a)
  | .sealLower a _ _ => some (Reg.KY_SEAL_CMD, a)
  | .start c a => some (mvA c.val Reg.MV_CH_CMD, a)
  | .stop c a => some (mvA c.val Reg.MV_CH_CMD, a)
  | .mvClear c a => some (mvA c.val Reg.MV_CH_CMD, a)
  | .mvTimerWrite n a => some (Reg.MV_TMR + 4 * n.val, a)
  | .mvCfgShadowWrite c a _ => some (mvA c.val Reg.MV_CH_CFG, a)
  | .create a => some (Reg.TN_CMD, a)
  | .tnReset a _ => some (Reg.TN_CMD, a)
  | .unfence a _ => some (Reg.TN_CMD, a)
  | .destroy a => some (Reg.TN_CMD, a)
  | .repairAdd a => some (Reg.SW_REP_ADD, a)
  | .vectorCtlWrite v a => some (vtA v.val 0, a)
  | .dbVecMaskWrite p a => some (dbA p.val Reg.DB_VEC_MASK, a)
  | .senseModeWrite n a => some (Reg.SG_SENSE + 4 * n.val, a)
  | .retClear a => some (Reg.BL_CFG, a)
  | .arm a => some (Reg.GLB_SCR_CTL, a)
  | .scribeReloadGo a => some (Reg.GLB_SCR_CTL, a)
  | .pbOpen a => some (Reg.PB_CTL, a)
  | .pbClose a => some (Reg.PB_CTL, a)
  | .pbSeedWrite a => some (Reg.PB_SEED, a)
  | .pxCtlWrite p k a => some (0x1000 * p.val + 0xF00 + 8 * k.val, a)
  | .egSummaryClear a => some (Reg.GLB_EG_SUM, a)
  | .quotaWrite a => some (Reg.IW_TN_QUOTA, a)
  | .shareWrite a => some (Reg.LG_TN_SHARE, a)
  | _ => none

/-- A write that does nothing beside its register's fields: no row of its own, no perturbation slot, no vector entry or doorbell
page, and none of the registers whose write has a further effect (R85, R154, R155, R268, R276, R293, R333, R361, R371, R395, R428,
R433, R439). -/
def plainWrite (a : Nat) (data : Word) : Bool :=
  !ownWrite a data && inPage a && decide (a % 0x1000 < 0xF00) &&
  (match pageKind a with
   | .doorbell _ => false
   | .lane _ => decide (a % 0x1000 ≠ Reg.LN_SIG_CTL)
   | _ => true) &&
  !([Reg.GLB_OPEN_TIMEOUT, Reg.DF_BASE, Reg.DF_FR_BASE, Reg.DF_PAIR_DATA, Reg.MV_CFG, Reg.CAL_RATE, Reg.CAL_GB_DATA0, Reg.CAL_GB_DATA1,
     Reg.SW_CTL, Reg.GLB_SCR_WDOG, 0xF008].contains a) &&
  !decide (Reg.LG_COST_SENSE ≤ a ∧ a ≤ Reg.LG_COST_MEDIA) && !decide (Reg.KY_WRAP ≤ a ∧ a < Reg.KY_WRAP + 72) &&
  !decide (Reg.SG_PEND ≤ a ∧ a < Reg.SG_PEND + 16) && !decide (Reg.SG_FPEND ≤ a ∧ a < Reg.SG_FPEND + 16)

end Sys2Proof.Machine
end

