-- ==== Sys2Proof/Certificates/Slice0/Obligations.lean ====
section
/-! DEFINITION. The statements about the block, for the provers. Each docstring says which rules of spec/ it formalises. -/
section
open Sys2Proof Sys2Proof.Machine

/-! ### The step -/

/-- A step with a command at the front of the queue is that command's meaning on the state whose queue is the rest. -/
def Obligations.StepRunsFront : Prop :=
  ∀ (s : State) (c : Instr) (q : List Instr), s.pending = c :: q → step s = exec c { s with pending := q }

/-- The model's choice of log entry 2: a step on an empty queue is one cycle of CLK_AON, which leaves the queue empty and the
pins, the fuses and the test port alone; GLB_TIME counts it unless the supply reset is low or the block is in or after scan
(R111). -/
def Obligations.StepIdleTicks : Prop :=
  ∀ s : State, s.canon = true → s.pending = [] →
    ∃ t, step s = .next t ∧ t.pending = [] ∧ t.pins = s.pins ∧ t.fuse = s.fuse ∧ t.tap = s.tap ∧ t.glb.mode = s.glb.mode ∧
      t.time = if s.alive then s.time + 1 else s.time

/-- The state right after reset: mode RESET with the fuse load asked for, no owner, no key, the expert unlock closed, no
boot attempt counted, nothing waiting, every register at its reset value, and every table in its canonical form.
Where the rules leave room, the readings are the model's (log entries 6, 32, 96 and 97). -/
def Obligations.ResetState : Prop :=
  State.reset.canon = true ∧ State.reset.pending = [] ∧ State.reset.glb.mode = .reset ∧ State.reset.glb.owner = none ∧
  State.reset.glb.unlock = .closed ∧ State.reset.glb.bootCount = 0 ∧ State.reset.glb.level = none ∧ State.reset.fuse.kek = none ∧
  State.reset.fuse.request = true ∧ State.reset.fuse.done = false ∧ State.reset.time = 0 ∧
  (∀ k, State.reset.regAt k = regReset k) ∧ (∀ k, State.reset.keyLoaded k = false) ∧
  State.reset.regAt Reg.CLK_RESET_CAUSE = 1

/-- The tables of the state stay in their canonical form: an invariant of every step. -/
def Obligations.StepKeepsCanon : Prop :=
  ∀ s t : State, s.canon = true → step s = .next t → t.canon = true

/-- No command stops the block: every step answers a next state, in which the front command has gone from the queue, the rest
of the queue is as it was, and the build is the same; and so does every command, of whatever form, on every state with its tables in
their canonical form, with the queue as it was.
Where the rules leave room, the readings are the model's (log entry 1). -/
def Obligations.StepNeverStops : Prop :=
  (∀ s : State, s.canon = true → ∃ t, step s = .next t ∧ t.pending = s.pending.tail ∧ t.build = s.build) ∧
  (∀ (c : Instr) (s : State), s.canon = true → ∃ t, exec c s = .next t ∧ t.pending = s.pending ∧ t.build = s.build)

/-- The latched key changes with nothing but the reset that clears it, a key sample and the rise of SCAN_MODE (R59, R62): in
particular a warm reset keeps it, and once taken it is not sampled again. -/
def Obligations.KekKept : Prop :=
  ∀ s t : State, s.canon = true → step s = .next t → t.fuse.kek ≠ s.fuse.kek →
    ∃ q, s.pending = .coldResetAssert :: q ∨ s.pending = .scanModeRise :: q ∨
      (s.fuse.kek = none ∧ ∃ d p, s.pending = .kekSample d p :: q ∧ t.fuse.kek = some d)

/-- GLB_TIME and the test port change with nothing but their own: the time with the reset that clears it and the cycles of an
empty queue, the test port with the same reset and the six TAP instructions (R61, R111). -/
def Obligations.TimeAndTapKept : Prop :=
  ∀ s t : State, s.canon = true → step s = .next t →
    (t.time ≠ s.time → s.pending = [] ∨ ∃ q, s.pending = .coldResetAssert :: q) ∧
    (t.tap ≠ s.tap → ∃ c q, s.pending = c :: q ∧ (c = .coldResetAssert ∨ c = .idcode ∨ c = .clamp ∨ c = .highz ∨
      (∃ k, c = .bypass k) ∨ (∃ p x, c = .extest p x) ∨ ∃ p x, c = .samplePreload p x))

/-! ### The register port -/

/-- R70: while GLB_MODE.MODE is RESET every access is acknowledged with RP_ERR = 0. A write has no effect. A read returns zero
except of GLB_RELEASE, GLB_BUILD, GLB_MODE and the CLK page, whose read-clear fields it may clear; neither a misaligned
address nor parity nor ownership is judged, and no record is written. While RST_WARM_N is low outside RESET an access is answered so too (R45). -/
def Obligations.AccessInReset : Prop :=
  ∀ s : State, s.pins.scan = .mission → s.pins.pwrLow = false → (s.glb.mode = .reset ∨ s.pins.warmLow = true) →
    (∀ c a acc, writeOf c = some (a, acc) →
      ∃ t, exec c s = .next t ∧ Alike s t { s with rp := { ack := true, err := false, data := none } }) ∧
    (∀ (ad : BitVec 23) (id : BitVec 8), ∃ t, exec (.rcRead ad id) s = .next t ∧
      ∃ v, t.rp = { ack := true, err := false, data := some v } ∧
        (¬ (ad.toNat = Reg.GLB_RELEASE ∨ ad.toNat = Reg.GLB_BUILD ∨ ad.toNat = Reg.GLB_MODE ∨
            (ad.toNat / 0x1000 = 1 ∧ ad.toNat % 4 = 0)) → v = 0 ∧ Alike s t { s with rp := t.rp }) ∧
        (ad.toNat = Reg.GLB_RELEASE ∨ ad.toNat = Reg.GLB_BUILD ∨ ad.toNat = Reg.GLB_MODE ∨
            (ad.toNat / 0x1000 = 1 ∧ ad.toNat % 4 = 0) → v = s.regRead ad.toNat) ∧
        t.blotter = s.rest.blotter)

/-- R46: outside RESET an access with RP_ADDR[1:0] not zero, a write with a wrong parity, and an access that the ownership
table refuses complete with RP_ERR = 1, RP_RDATA = 0 and no effect but a Blotter record of class RP_FAULT (0x26); the
access still counts as one that wakes the block. In every other case RP_ERR is 0, and in RESET no fault is judged. -/
def Obligations.AccessFaults : Prop :=
  ∀ s : State, s.pins.scan = .mission → s.pins.pwrLow = false →
    (s.glb.mode = .reset → (∀ c a acc, writeOf c = some (a, acc) → ∃ t, exec c s = .next t ∧ t.rp = { ack := true, err := false, data := none }) ∧
      ∀ (ad : BitVec 23) (id : BitVec 8), ∃ t, exec (.rcRead ad id) s = .next t ∧ t.rp.ack = true ∧ t.rp.err = false) ∧
    (s.portReset = false →
    (∀ c a acc, writeOf c = some (a, acc) →
      let u := s.portBegin a
      let bad := a % 4 ≠ 0 ∨ wordPar acc.data ≠ acc.par ∨ u.mayWrite a acc.id = false
      ∃ t, exec c s = .next t ∧ (bad → ∃ code, Alike s t ((u.blot 0 0x26 none [BitVec.ofNat 32 a, acc.id.setWidth 32, code]).answer true (some 0))) ∧
        (¬ bad → t.rp.ack = true ∧ t.rp.err = false)) ∧
    (∀ (ad : BitVec 23) (id : BitVec 8),
      let u := s.portBegin ad.toNat
      let bad := ad.toNat % 4 ≠ 0 ∨ u.mayRead ad.toNat id = false
      ∃ t, exec (.rcRead ad id) s = .next t ∧
        (bad → ∃ code, Alike s t ((u.blot 0 0x26 none [ad.setWidth 32, id.setWidth 32, code]).answer true (some 0))) ∧
        (¬ bad → t.rp.ack = true ∧ t.rp.err = false)))

/-- R102, orders 2 and 4, for every write of the port: a page that the build does not have ignores it; one of a dozed domain
counts it in CLK_DOZED_ACCESS; an offset of the expert area without the expert level drops it, counted with reason EXPERT
and the address. None of them has another effect, and none raises RP_ERR. -/
def Obligations.WriteOrders : Prop :=
  ∀ (s : State) (c : Instr) (a : Nat) (acc : RpAcc), writeOf c = some (a, acc) → s.pins.scan = .mission → s.pins.pwrLow = false →
    s.portReset = false → (s.portBegin a).portFault a true acc = none →
    let u := s.accepting a acc
    let present := u.absent a = false ∨ pageKind a = .reserved
    (¬ present → Yields c s (u.answer false none)) ∧
    (present → u.dozedPage a = true → Yields c s ((u.countField Reg.CLK_DOZED_ACCESS 15 0 1).answer false none)) ∧
    (present → u.dozedPage a = false → u.lockApplies a = false → u.expertApplies a = true →
      Yields c s ((u.countDrop 2 a).answer false none))

/-- R9 and R102 on a register without effects of its own: a write replaces the RW bits, clears the W1C bits and sets the W1S
bits where it has a 1, and leaves the rest; on a locked page the RW bits stay and the write is counted with reason LOCK;
an address without a register ignores it.
Where the rules leave room, the readings are the model's (log entry 94). -/
def Obligations.RegisterWritePlain : Prop :=
  ∀ (s : State) (addr : BitVec 23) (acc : RpAcc), let a := addr.toNat
    let u := s.accepting a acc
    let v := u.countDrop 1 a
    plainWrite a acc.data = true → u.writeShut a = false →
    (s.accepts a acc = true → Yields (.registerWrite addr acc) s
      ((match regRow a with
        | some r => u.setReg (u.keyOf a)
            (applyRow { r with rw := r.rw &&& ~~~ roBits (u.keyOf a) } false (u.regAt (u.keyOf a)) acc.data)
        | none => u).answer false none)) ∧
    (s.pins.scan = .mission → s.pins.pwrLow = false → s.portReset = false → (s.portBegin a).portFault a true acc = none →
      u.absent a = false → u.dozedPage a = false → u.lockApplies a = true → v.writeShut a = false →
      Yields (.registerWrite addr acc) s
        ((match regRow a with
          | some r => v.setReg (v.keyOf a)
              (applyRow { r with rw := r.rw &&& ~~~ roBits (v.keyOf a) } true (v.regAt (v.keyOf a)) acc.data)
          | none => v).answer false none))

/-- Writes of registers that act beside their fields, or not at all: a write that another command stands for, that the state of
the block shuts out, or of a reserved page (R98) changes nothing; a wrapped-key word is held; a 1 in SG_PEND or SG_FPEND clears the latched bits
of the bank's sources in an edge mode, beside what the write's own edges latch (R371); a word of a perturbation slot is set while PB_CTL.OPEN is 1
and else counted as dropped; a time-out written to GLB_OPEN_TIMEOUT that has passed already fails AWAIT_IMAGES (R85); the area bases written in
FALLBACK count as assigned (R268); the pairing data sets its entry while EN is 0 and steps on (R276); MV_CFG applies at once in FALLBACK (R293);
a rate checks the lanes' caps (R154); a Gambit entry, a cost and a vector word written lose their parity error (R352, R380, R395); SW_CTL ends
the pass (R361); the watchdog starts anew at a new limit (R428); EXPERT cleared on the PB page closes it (R433); signalling words act on their
lane (R154, R155); in FALLBACK a doorbell page but the Manager's ignores writes (R93), and DB_VEC_PEND clears pending bits (R378). On a locked page only the
fields that R108 leaves are written.
Where the rules leave room, the readings are the model's (log entries 94 and 130). -/
def Obligations.RegisterWriteSpecial : Prop :=
  ∀ (s : State) (addr : BitVec 23) (acc : RpAcc), let a := addr.toNat
    let u := s.accepting a acc
    let row (v : State) (locked : Bool) : State := match regRow a with
      | some r => v.setReg (v.keyOf a) (applyRow { r with rw := r.rw &&& ~~~ roBits (v.keyOf a) } locked (v.regAt (v.keyOf a)) acc.data)
      | none => v
    let w := row u false
    let does (t : State) : Prop := Yields (.registerWrite addr acc) s (t.answer false none)
    let acting : Prop := [Reg.GLB_OPEN_TIMEOUT, Reg.DF_BASE, Reg.DF_FR_BASE, Reg.MV_CFG, Reg.CAL_RATE, Reg.CAL_GB_DATA0, Reg.CAL_GB_DATA1, Reg.SW_CTL,
      Reg.GLB_SCR_WDOG, 0xF008].contains a = true ∨ (Reg.LG_COST_SENSE ≤ a ∧ a ≤ Reg.LG_COST_MEDIA) ∨
      (∃ g, pageKind a = .lane g ∧ a % 0x1000 = Reg.LN_SIG_CTL) ∨ ∃ v, pageKind a = .vector v ∧ a % 64 ≠ 0
    (pageKind a = .reserved → s.pins.scan = .mission → s.pins.pwrLow = false → s.portReset = false → (s.portBegin a).portFault a true acc = none →
      does u) ∧
    (s.pins.scan = .mission → s.pins.pwrLow = false → s.portReset = false → (s.portBegin a).portFault a true acc = none →
      u.absent a = false → u.dozedPage a = false → u.lockApplies a = true → let v := u.countDrop 1 a
      (acting → v.writeShut a = false → does (row v true)) ∧ (a = Reg.DF_PAIR_DATA → does v.pairNext)) ∧
    (s.accepts a acc = true →
    (u.writeShut a = false →
      (a = Reg.DF_BASE → does (w.modGlb (fun g => { g with dfBaseSet := g.dfBaseSet || decide (u.glb.mode = .fallback) }))) ∧
      (a = Reg.DF_FR_BASE → does (w.modGlb (fun g => { g with frBaseSet := g.frBaseSet || decide (u.glb.mode = .fallback) }))) ∧
      (a = Reg.MV_CFG → does (if u.glb.mode = .fallback then w.modGlb (fun g => { g with mvCfg := w.regAt a }) else w))) ∧
    (a = Reg.DF_PAIR_DATA → let p := fld (u.regAt Reg.DF_PAIR_ADDR) 11 0
      (bit (u.regAt Reg.DF_PAIR_CTL) 0 = true → does u.pairNext) ∧
      (bit (u.regAt Reg.DF_PAIR_CTL) 0 = false → does (({ u with pairing := Tab.setD (fun _ => 0) u.pairing p (acc.data &&& 0x3FFF#32) }.modScrub (fun x =>
        { x with pairBad := x.pairBad.filter (· ≠ p) })).pairNext))) ∧
    (a = Reg.CAL_RATE → does (w.laneList.foldl State.capCheck w)) ∧
    (a = Reg.CAL_GB_DATA0 ∨ a = Reg.CAL_GB_DATA1 → does (w.modScrub (fun x => { x with gbBad := x.gbBad.filter (· ≠ fld (w.regAt Reg.CAL_GB_ADDR) 9 0) }))) ∧
    (Reg.LG_COST_SENSE ≤ a ∧ a ≤ Reg.LG_COST_MEDIA → does (w.modLedger (fun l => { l with costBad := l.costBad.filter (· ≠ w.keyOf a) }))) ∧
    (a = Reg.SW_CTL → does (if bit (w.regAt a) 0 then w else w.modScrub (fun x => { x with row := 0 }))) ∧
    (a = Reg.GLB_SCR_WDOG → does (if w.regAt a = u.regAt a then w else w.modCore 16 (fun k => { k with kick := u.time.toNat }))) ∧
    (a = 0xF008 → does (if u.glb.pbOpen ∧ bit (w.regAt a) 0 = false then w.pbClose else w)) ∧
    (∀ g, pageKind a = .lane g → a % 0x1000 = Reg.LN_SIG_CTL → does ((w.rbSync g).capCheck g)) ∧
    (∀ v, pageKind a = .vector v → a % 64 ≠ 0 →
      does (if a % 64 < 0x14 then w.modVec v (fun x => { x with bad := x.bad.filter (· ≠ a % 64 / 4) }) else w)) ∧
    (∀ t, pageKind a = .doorbell t → let o := a % 0x1000
      (o = Reg.DB_VEC_PEND → does (u.vecPendWrite t acc.data)) ∧
      (ownWrite a acc.data = false → o ≠ Reg.DB_VEC_PEND → (o < 0xF00 ∨ 0xFF0 ≤ o) → does (if u.pageDead t then u else w)) ∧
      (0xF00 ≤ o → o < 0xFF0 → does u)) ∧
    (ownWrite a acc.data = true ∨ u.writeShut a = true → Yields (.registerWrite addr acc) s (u.answer false none)) ∧
    (∀ n, n < 18 → a = Reg.KY_WRAP + 4 * n → Yields (.registerWrite addr acc) s ((u.setReg a acc.data).answer false none)) ∧
    (∀ n, n < 4 → a = Reg.SG_PEND + 4 * n → Yields (.registerWrite addr acc) s ((u.pendWrite n false acc.data).answer false none)) ∧
    (∀ n, n < 4 → a = Reg.SG_FPEND + 4 * n → Yields (.registerWrite addr acc) s ((u.pendWrite n true acc.data).answer false none)) ∧
    (a = Reg.GLB_OPEN_TIMEOUT → u.lockApplies a = false → let w := u.writeRow a false acc.data
      Yields (.registerWrite addr acc) s ((if w.imagesLate then w.openFail .imageTimeout else w).answer false none)) ∧
    (hasPerturb (pageKind a) = true → 0xF00 ≤ a % 0x1000 → a % 0x1000 < 0xF20 → a % 8 = 4 → Yields (.registerWrite addr acc) s
      ((if u.glb.pbOpen then u.setReg a acc.data else u.pxDrop).answer false none)))

/-- R11 and R104: a read that the page answers returns the register's value, and its read-clear fields clear after it; a page
that the build does not have reads zero and clears nothing.
Where the rules leave room, the readings are the model's (log entry 94). -/
def Obligations.RcRead : Prop :=
  ∀ (s : State) (ad : BitVec 23) (id : BitVec 8), let a := ad.toNat
    let u := s.portBegin a
    s.pins.scan = .mission → s.pins.pwrLow = false → s.portReset = false → a % 4 = 0 → u.mayRead a id = true →
    (u.absent a = true → Yields (.rcRead ad id) s (u.answer false (some 0))) ∧
    (u.absent a = false → u.dozedPage a = true → Yields (.rcRead ad id) s (u.answer false (some
      (if a % 0x1000 = 0 then u.pageId a else if a % 0x1000 = 4 then 0x00030100#32 else 0)))) ∧
    (u.absent a = false → u.dozedPage a = false →
      Yields (.rcRead ad id) s ((u.readClear a).answer false (some (u.regRead a))))

/-! ### Pins, resets and the test port -/

/-- R69: the assertion of RST_PWR_N resets every flop, of the registers and of every unit, keeping the build and host memory alone (with the
model's own queue and free values, and the limit of the Manager's instance at the build's slab count); with it high again the
always-on side is released, CLK_RESET_CAUSE reads 0x0000_0001 and the fuse load begins; when the load is done the mode moves
from RESET to OPENING, which waits for its images, or fails with cause FUSE_LOAD (1) or CHAR_ROW (2) (R87, R113).
Where the rules leave room, the readings are the model's (log entries 33 and 97). -/
def Obligations.ColdReset : Prop :=
  ∀ s : State,
    (∃ t, exec .coldResetAssert s = .next t ∧
      t = { State.reset with build := s.build, store := s.store, freeCtr := s.freeCtr, pending := s.pending, regs := t.regs, pins := t.pins,
                             fuse := { State.reset.fuse with request := false } } ∧
      t.pins.pwrLow = true ∧ t.pins.warmLow = s.pins.warmLow ∧
      t.regAt (winKey Reg.IW_TN_QUOTA 511) = BitVec.ofNat 32 (65536 * s.nSlabs) ∧ (∀ k, k ≠ winKey Reg.IW_TN_QUOTA 511 → t.regAt k = regReset k) ∧
      (∀ g, t.lane g = Lane.init) ∧ (∀ c, t.cluster c = Cluster.init) ∧ (∀ r, t.region r = Region.init) ∧ (∀ c h, t.cmd? c h = none) ∧
      (∀ n, t.slab n = Slab.init) ∧ (∀ p, t.port p = Port.init) ∧ (∀ c, t.channel c = Channel.init) ∧ (∀ v, t.vec v = Vec.init) ∧
      t.cache = Cache.init ∧ t.scribe = Core.init ∧ t.ledger = Ledger.init ∧ t.glb = Glb.init ∧ (∀ k, t.keyLoaded k = false) ∧ t.time = 0) ∧
    (s.pins.pwrLow = true → s.pins.scan = .mission →
      exec .coldResetRelease s = .next { s with
        pins := { s.pins with pwrLow := false }, fuse := { s.fuse with request := true, addr := 0, tries := 0 },
        regs := Tab.setD regReset s.regs Reg.CLK_RESET_CAUSE 1 }) ∧
    (¬ (s.pins.pwrLow = true ∧ s.pins.scan = .mission) → exec .coldResetRelease s = .next s) ∧
    (s.alive = true → s.pins.warmLow = false → s.fuse.done = true → s.glb.mode = .reset → s.glb.prevMode = .reset →
      ∃ t, exec .centralRelease s = .next t ∧
        (s.fuse.failed = false → s.charRowOk = true → t.glb.mode = .opening ∧ t.glb.prevMode = .reset ∧ t.glb.phase = .awaitImages) ∧
        (s.fuse.failed = true ∨ s.charRowOk = false →
          t.glb.mode = .reset ∧ t.glb.restartWait = true ∧ t.glb.bootCount = min 3 (s.glb.bootCount + 1) ∧
          t.glb.causeA = (if s.fuse.failed then 1 else 2) ∧ t.glb.causeB = s.glb.causeA ∧ t.glb.causeC = s.glb.causeB))

/-- R58: a fuse word with correct parity is stored in CHAR_ROWk and the next address is asked for, the 64th ending the load;
after a parity error, or without FUSE_ACK, the word is read again, and its third failed attempt ends the load as failed.
Where the rules leave room, the readings are the model's (log entries 15 and 16). -/
def Obligations.FuseLoad : Prop :=
  ∀ (s : State) (data : Word) (par : BitVec 4), s.alive = true → s.fuse.request = true →
    (wordPar data = par → ∃ t, exec (.fuseAck data par) s = .next t ∧
      t.fuse.row = Tab.setD (fun _ => 0) s.fuse.row s.fuse.addr data ∧ t.fuse.addr = s.fuse.addr + 1 ∧ t.fuse.tries = 0 ∧
      (s.fuse.addr ≠ 63 → t = { s with fuse := t.fuse, regs := Tab.setD regReset s.regs (Reg.CHAR_ROW + 4 * s.fuse.addr) data } ∧
        t.fuse.request = true) ∧
      (s.fuse.addr = 63 → t.fuse.request = false ∧ t.fuse.done = true ∧ t.fuse.failed = false)) ∧
    (∀ c, (c = .fuseAckTimeout ∨ (c = .fuseAck data par ∧ wordPar data ≠ par)) → ∃ t, exec c s = .next t ∧
      (s.fuse.tries < 2 → t = { s with fuse := { s.fuse with tries := s.fuse.tries + 1 } }) ∧
      (2 ≤ s.fuse.tries → t.fuse = { s.fuse with request := false, done := true, failed := true }))

/-- R71, R73, R87: a warm reset completes in every mode. One of a running block leaves it in RESET with the Characterization Row, the key, the boot-attempt
counter and its causes, the retained records, the Endgame summary and host memory kept, and the owner, the key slots, the
slabs and the latched level cleared, with CLK_RESET_CAUSE.WARM set. In ENDGAME, or with a warning of the same cycle, it waits.
In OPENING it is a failure with cause RESET_IN_OPENING (13); in RESET it takes the place of the restart that waits there, which its
end makes. While the supply reset or scan holds the block, the pin is taken alone. Its end, with the fuses loaded, applies the presets
again and leads to OPENING, or, where it ends a counted failure with COUNT at 3, to FALLBACK; before the fuses are loaded, or outside
RESET, the pin rises and nothing else changes.
Where the rules leave room, the readings are the model's (log entries 8, 17 and 92). -/
def Obligations.WarmReset : Prop :=
  ∀ (s : State) (w : Bool),
    (s.alive = false → exec (.warmResetAssert w) s = .next { s with pins := { s.pins with warmLow := true } }) ∧
    (s.alive = true → s.glb.mode = .endgame ∨ (w = true ∧ s.glb.mode ≠ .reset) →
      exec (.warmResetAssert w) s = .next { s with pins := { s.pins with warmLow := true }, glb := { s.glb with warmWait := true } }) ∧
    (s.canon = true → s.alive = true → s.running = true → w = false → ∃ t, exec (.warmResetAssert w) s = .next t ∧
      t.glb.mode = .reset ∧ t.glb.owner = none ∧ t.glb.level = none ∧ t.glb.bootCount = s.glb.bootCount ∧ t.glb.causeA = s.glb.causeA ∧
      t.keys = State.reset.keys ∧ t.slabs = [] ∧ t.fuse = s.fuse ∧ t.store = s.store ∧ t.pins = { s.pins with warmLow := true } ∧
      t.endgame.entries = s.endgame.entries ∧ bit (t.regAt Reg.CLK_RESET_CAUSE) 1 = true ∧
      ∀ k, k < 64 → t.regAt (Reg.CHAR_ROW + 4 * k) = s.regAt (Reg.CHAR_ROW + 4 * k)) ∧
    (s.alive = true → s.glb.mode = .opening → w = false → ∃ t, exec (.warmResetAssert w) s = .next t ∧
      t.glb.mode = .reset ∧ t.glb.causeA = 13 ∧ t.glb.bootCount = min 3 (s.glb.bootCount + 1) ∧ t.glb.restartWait = false ∧
      t.glb.resetCounted = true) ∧
    (s.alive = true → s.glb.mode = .reset → ∃ t, exec (.warmResetAssert w) s = .next t ∧
      t.glb.mode = .reset ∧ t.glb.restartWait = false ∧ t.glb.resetCounted = (s.glb.resetCounted || s.glb.restartWait) ∧
      t.glb.bootCount = s.glb.bootCount ∧ t.pins = { s.pins with warmLow := true } ∧ t.fuse = s.fuse ∧ t.store = s.store) ∧
    (∀ found copies, s.pins.warmLow = true ∨ s.glb.warmDeferred = true →
      let u : State := { s with pins := { s.pins with warmLow := false } }
      (¬ (s.alive = true ∧ s.glb.mode = .reset ∧ s.fuse.done = true) → exec (.warmResetRelease found copies) s = .next u) ∧
      (s.alive = true → s.glb.mode = .reset → s.fuse.done = true →
        let v := ({ u with glb := { u.glb with warmDeferred := false } } : State).presets
        (s.glb.resetCounted = true → s.glb.bootCount = 3 → Yields (.warmResetRelease found copies) s (v.enterFallback found copies)) ∧
        (s.glb.resetCounted = false ∨ s.glb.bootCount < 3 → Yields (.warmResetRelease found copies) s v.enterOpening))) ∧
    (∀ found copies, s.pins.warmLow = true → s.pins.pwrLow = false → s.pins.scan = .mission → s.glb.mode = .reset → s.fuse.done = true →
      s.fuse.failed = false → s.charRowOk = true → s.glb.resetCounted = false →
      (∀ k, 36 ≤ k → k < 60 → bit (s.regAt (Reg.CHAR_ROW + 4 * k)) 31 = false) →
      ∃ t, exec (.warmResetRelease found copies) s = .next t ∧ t.glb.mode = .opening ∧ t.glb.phase = .awaitImages ∧
        t.pins = { s.pins with warmLow := false })

/-- R59, R62: the key is taken at the first sample with correct parity and no later one; a rise of SCAN_MODE zeroises the key store, the
latched key and every slab and enters RESET; after its fall the block stays there until a cold reset. R61: each code of the test access port's
4-bit instruction register selects its register and whether the pins are driven from the boundary register, and every code outside the table
acts as BYPASS; none of them touches anything of the block behind the port.
Where the rules leave room, the readings are the model's (log entries 3 and 18). -/
def Obligations.KeyScanAndTestPort : Prop :=
  (∀ (s : State) (d : BitVec 256) (p : BitVec 32),
     (s.alive = true → s.fuse.kek = none → parOk 32 d p = true →
       exec (.kekSample d p) s = .next { s with fuse := { s.fuse with kek := some d } }) ∧
     (s.fuse.kek ≠ none ∨ parOk 32 d p = false → exec (.kekSample d p) s = .next s) ∧
     (s.pins.scan = .mission → ∃ t, exec .scanModeRise s = .next t ∧ t.glb.mode = .reset ∧ t.fuse = { s.fuse with kek := none } ∧
       (∀ k, t.keyLoaded k = false) ∧ (∀ n, t.slab n = Slab.init) ∧ t.pins = { s.pins with scan := .shifting }) ∧
     (s.pins.scan = .shifting → exec .scanModeFall s = .next { s with pins := { s.pins with scan := .spoiled } })) ∧
  (∀ (s : State) (p x : List Bool), s.pins.scan = .mission →
     exec (.extest p x) s = .next { s with tap := { ir := 0b0000#4, captured := p, update := x, drive := some true, dr := s.tap.dr } } ∧
     exec (.samplePreload p x) s = .next { s with tap := { ir := 0b0010#4, captured := p, update := x, drive := none, dr := s.tap.dr } } ∧
     exec .idcode s = .next { s with tap := { s.tap with ir := 0b0001#4, drive := none, dr := s.build.idcode } } ∧
     exec .clamp s = .next { s with tap := { s.tap with ir := 0b0100#4, drive := some true, dr := 0 } } ∧
     exec .highz s = .next { s with tap := { s.tap with ir := 0b0101#4, drive := some false, dr := 0 } } ∧
     ∀ code : BitVec 4, code.toNat ≠ 0 → code.toNat ≠ 1 → code.toNat ≠ 2 → code.toNat ≠ 4 → code.toNat ≠ 5 →
       exec (.bypass code) s = .next { s with tap := { s.tap with ir := code, drive := none, dr := 0 } })

/-- R53, R54, R80, R417: a registered power-fail warning leads from OPENING and the running modes to ENDGAME, and does nothing in RESET
and in ENDGAME; an OPENING failure of the same cycle is counted before. A change of HOLDUP_OK is taken as sampled, and a rise lets the
lanes whose commands wait for media admission have them as candidates again, and a copy of the seal record that waits go on. With the supply reset low, or in scan, neither input is
sampled.
Where the rules leave room, the readings are the model's (log entry 102). -/
def Obligations.PowerPins : Prop :=
  ∀ s : State,
    (s.alive = true →
      (s.glb.mode = .opening ∨ s.running = true → Yields (.pfWarnRegistered none) s s.wakeBlock.enterEndgame) ∧
      (s.glb.mode = .opening → ∀ c, Yields (.pfWarnRegistered (some c)) s (s.countFailure c).wakeBlock.enterEndgame) ∧
      (s.running = true → ∀ c, Yields (.pfWarnRegistered (some c)) s s.wakeBlock.enterEndgame) ∧
      (s.glb.mode = .reset ∨ s.glb.mode = .endgame → ∀ f, Yields (.pfWarnRegistered f) s s) ∧
      Yields (.holdupOkChange false) s { s with pins := { s.pins with holdup := false } } ∧
      Yields (.holdupOkChange true) s (({ s with pins := { s.pins with holdup := true } } : State).mediaRoom (fun _ => true)).sealKick ∧
      (s.canon = true → s.keys.job = none → ∃ t, exec (.holdupOkChange true) s = .next t ∧ t.pins = { s.pins with holdup := true } ∧ t.cmds = s.cmds ∧
        ∀ g, (t.lane g).mediaWait = false)) ∧
    (s.alive = false → (∀ f, Yields (.pfWarnRegistered f) s s) ∧ ∀ l, Yields (.holdupOkChange l) s s)

/-- R55, R57, R402, R404: THERM_CODE is taken as sampled; at CRIT the admission stops with THM's CRIT bit set, and it resumes
below CRIT less the hysteresis. A millisecond edge takes PWR_CAP_REQ and the codes of the edge; it then reconciles the reserve with PWR_MEAS
and judges WARN and TRIP, in SERVICE and THRIFT the causes of THRIFT (R405), and in OPENING and the running modes each lane's
drift (R145, R147). -/
def Obligations.ThermalAndMillisecond : Prop :=
  ∀ (s : State) (c0 c1 : BitVec 10) (meas cap : BitVec 16), s.awake = true → s.pins.warmLow = false →
    (let u : State := ({ s with pins := { s.pins with therm0 := c0, therm1 := c1 } } : State).keepMax
     (u.atCrit = true → Yields (.thermCodeUpdate c0 c1) s (({ u with ledger := { u.ledger with critStop := true } } : State).raise 0x4000 3)) ∧
     (u.atCrit = false → u.codes.all (fun c => decide (c < u.critCode - u.thmHyst)) = true →
       Yields (.thermCodeUpdate c0 c1) s { u with ledger := { u.ledger with critStop := false } }) ∧
     (u.atCrit = false → u.codes.all (fun c => decide (c < u.critCode - u.thmHyst)) = false → Yields (.thermCodeUpdate c0 c1) s u)) ∧
    (let u := (({ s with pins := { s.pins with capReq := cap, edge0 := s.pins.therm0, edge1 := s.pins.therm1 } } : State).reconcile meas).evalWarn
     (s.serving = true → Yields (.millisecondEdge meas cap) s (u.thriftEdge.laneList.foldl State.tempTrigger u.thriftEdge)) ∧
     (s.glb.mode = .fallback ∨ s.glb.mode = .opening → Yields (.millisecondEdge meas cap) s (u.laneList.foldl State.tempTrigger u)) ∧
     (s.glb.mode = .endgame → Yields (.millisecondEdge meas cap) s u)) ∧
    (s.canon = true → ∃ t, exec (.millisecondEdge meas cap) s = .next t ∧
      t.pins = { s.pins with capReq := cap, edge0 := s.pins.therm0, edge1 := s.pins.therm1 })

/-! ### The host ports -/

/-- R30 to R33, R295: the request that a port presents becomes outstanding on the tag presented with it, a write's beats join those to be
sent, and the channel presents the next request; the next write beat leaves in request order. The unit that issued the transaction then
looks at its end. R34, R36, R39: with no
perturbation in the way, a read beat goes to its issuer, one with wrong parity as ERR_POISON with a record, and the last one frees the tag; a write
status frees its tag, reaches its issuer, and one that is OK of a write of the CACHE class leaves its bytes in host memory; a beat or a status of
no transaction makes HP_PROTOCOL; a transaction past its limit is retired as if what is missing carried ERR_TARGET, its tag quarantined; and
operations that wait for lines of the Context Cache go on (R316).
Where the rules leave room, the readings are the model's (log entries 7, 31, 77 and 119). -/
def Obligations.HostPortTransfers : Prop :=
  (∀ (s : State) (p : Fin 4), s.portsUp = true →
     (∀ r rest tag, (s.port p.val).queue = r :: rest → (s.port p.val).rqTag = some tag →
       Yields (.hpRequestAccept p) s ((s.modPort p.val (fun q =>
         let q1 := ({ q with queue := q.queue.drop 1, rqTag := none } : Port).setOut r.wr tag
           (some { req := r, got := 0, at_ := s.time.toNat, err := false })
         (if r.wr then { q1 with wdata := q1.wdata ++ [(tag, r.beats)] } else q1).present)).issuerCheck r.issuer)) ∧
     ((s.port p.val).rqTag = none → Yields (.hpRequestAccept p) s s) ∧
     (∀ tag b b' bs rest, (s.port p.val).wdata = (tag, b :: b' :: bs) :: rest →
       Yields (.hpWriteBeat p) s (s.modPort p.val (fun q => { q with wdata := (tag, b' :: bs) :: rest }))) ∧
     (∀ tag b rest o, (s.port p.val).wdata = (tag, [b]) :: rest → (s.port p.val).outOn true tag = some o →
       Yields (.hpWriteBeat p) s ((s.modPort p.val (fun q => { q with wdata := rest })).issuerCheck o.req.issuer))) ∧
  (∀ (s : State) (p : Fin 4) (tag : Fin 512), s.portsUp = true →
     (∀ (d : Beat) (par : BitVec 128) (resp : BitVec 2), s.opportunity 0xF000 p.val = (s, []) → (s.port p.val).rdHeld = none →
       let u := if parOk 128 d par then s else s.blot 0 0x0F none [BitVec.ofNat 32 p.val, BitVec.ofNat 32 tag.val]
       let r := if parOk 128 d par then resp.toNat else 3
       ((u.port p.val).outOn false tag.val = none → Yields (.hpReadBeat p tag d par resp) s ((u.modPort p.val (fun q =>
         { q with qReads := Tab.setD (fun _ => 0) q.qReads tag.val (Tab.getD (fun _ => 0) q.qReads tag.val - 1) }.present)).hpProtocol p.val tag.val 0)) ∧
       (∀ x : HpOut, (u.port p.val).outOn false tag.val = some x → x.got + 1 = x.req.len → Yields (.hpReadBeat p tag d par resp) s
         ((((u.modPort p.val (fun q => (q.setOut false tag.val none).present)).lessOut x.req.issuer).readAnswer x.req x.got r false d).issuerCheck
           x.req.issuer)) ∧
       (∀ x : HpOut, (u.port p.val).outOn false tag.val = some x → x.got + 1 ≠ x.req.len → Yields (.hpReadBeat p tag d par resp) s
         ((u.modPort p.val (fun q => (q.setOut false tag.val (some { x with got := x.got + 1, err := x.err || decide (r ≠ 0) })).present)).readAnswer
           x.req x.got r false d))) ∧
     (∀ (x : HpOut) (resp : BitVec 2), s.opportunity 0xF000 (4 + p.val) = (s, []) → (s.port p.val).outOn true tag.val = some x →
       let u := (s.modPort p.val (fun q => (q.setOut true tag.val none).present)).lessOut x.req.issuer
       let v := if resp = 0 ∧ x.req.cls = 2 then
           x.req.beats.zipIdx.foldl (fun w e => w.hostPut (x.req.addr.toNat + 128 * e.2) e.1.data e.1.strb) u
         else u
       Yields (.hpWriteStatus p tag resp) s ((v.writeAnswer p.val x.req resp.toNat false).issuerCheck x.req.issuer).resume) ∧
     (∀ resp, s.opportunity 0xF000 (4 + p.val) = (s, []) → (s.port p.val).outOn true tag.val = none →
       Yields (.hpWriteStatus p tag resp) s
         ((s.modPort p.val (fun q =>
           { q with qWrites := Tab.setD (fun _ => false) q.qWrites tag.val false }.present)).hpProtocol p.val tag.val 1)) ∧
     (∀ (wr : Bool) (x : HpOut), (s.port p.val).outOn wr tag.val = some x → s.since x.at_ ≤ s.hpLimit → Yields (.hpTimeout p wr tag) s s) ∧
     (∀ x : HpOut, (s.port p.val).outOn true tag.val = some x → s.hpLimit < s.since x.at_ →
       Yields (.hpTimeout p true tag) s
         ((((s.modPort p.val (fun q =>
             { q.setOut true tag.val none with qWrites := Tab.setD (fun _ => false) (q.setOut true tag.val none).qWrites tag.val true })).lessOut
               x.req.issuer).blot 0 0x11 none [BitVec.ofNat 32 p.val, BitVec.ofNat 32 tag.val, 1]).writeAnswer p.val x.req 1 true
           |>.issuerCheck x.req.issuer).resume) ∧
     (∀ x : HpOut, (s.port p.val).outOn false tag.val = some x → s.hpLimit < s.since x.at_ →
       let u := ((s.modPort p.val (fun q =>
           { q.setOut false tag.val none with qReads := Tab.setD (fun _ => 0) (q.setOut false tag.val none).qReads tag.val (x.req.len - x.got) })).lessOut
             x.req.issuer).blot 0 0x11 none [BitVec.ofNat 32 p.val, BitVec.ofNat 32 tag.val, 0]
       Yields (.hpTimeout p false tag) s
         (((List.range (x.req.len - x.got)).foldl (fun w k => w.readAnswer x.req (x.got + k) 1 true 0) u).issuerCheck x.req.issuer).resume))

/-! ### The Manager's registers -/

/-- R83, R106: a claim while nobody owns the block makes the requester its owner; one from the successor, with SUCC_EN, hands over
and clears SUCCESSOR and SUCC_EN; a release from the owner clears all of them; a change of owner closes the expert unlock. From
the owner, with CLAIM and RELEASE 0, SUCCESSOR and SUCC_EN are replaced. Any other such write changes nothing. -/
def Obligations.Ownership : Prop :=
  ∀ (s : State) (a : RpAcc), let u := s.accepting Reg.GLB_MGR_OWNER a
    let claim := bit a.data 30
    let release := bit a.data 29
    (claim = true → release = false →
      (u.glb.owner = none → Writes (.mgrOwnerClaim a) s Reg.GLB_MGR_OWNER a
        ({ u with glb := { u.glb with owner := some a.id } } : State).expertDrop) ∧
      (∀ o, u.glb.owner = some o → u.glb.succEn = true → a.id = u.glb.successor → Writes (.mgrOwnerClaim a) s Reg.GLB_MGR_OWNER a
        ({ u with glb := { u.glb with owner := some a.id, successor := 0, succEn := false } } : State).expertDrop) ∧
      (∀ o, u.glb.owner = some o → ¬ (u.glb.succEn = true ∧ a.id = u.glb.successor) →
        Writes (.mgrOwnerClaim a) s Reg.GLB_MGR_OWNER a u)) ∧
    (release = true → claim = false → u.glb.owner = some a.id → Writes (.mgrOwnerRelease a) s Reg.GLB_MGR_OWNER a
      ({ u with glb := { u.glb with owner := none, successor := 0, succEn := false } } : State).expertDrop) ∧
    (claim = false → release = false → u.glb.owner = some a.id → Writes (.mgrSuccessorSet a) s Reg.GLB_MGR_OWNER a
      { u with glb := { u.glb with successor := BitVec.ofNat 8 (fld a.data 15 8), succEn := bit a.data 16 } }) ∧
    (u.glb.owner ≠ some a.id → Writes (.mgrOwnerRelease a) s Reg.GLB_MGR_OWNER a u ∧ Writes (.mgrSuccessorSet a) s Reg.GLB_MGR_OWNER a u) ∧
    (claim = true → release = true → Writes (.mgrOwnerClaim a) s Reg.GLB_MGR_OWNER a u ∧ Writes (.mgrOwnerRelease a) s Reg.GLB_MGR_OWNER a u)

/-- R106, R107: KEY 0x4E58 arms a closed unlock at a latched level of 0 or 1 and is refused at level 2 or with no level; the owner's
next write opens an armed one with KEY 0xB1A7, with a record of class EXPERT_OPEN (0x29), and closes it with anything else; KEY
0x0000 closes an open one.
Where the rules leave room, the readings are the model's (log entries 12 and 131). -/
def Obligations.ExpertUnlock : Prop :=
  ∀ (s : State) (a : RpAcc), let u := s.accepting Reg.GLB_EXPERT_UNLOCK a
    let key := fld a.data 31 16
    (s.glb.unlock = .closed → key = 0x4E58 →
      (∀ l : Fin 3, u.glb.level = some l → l.val < 2 → Writes (.expertArm a) s Reg.GLB_EXPERT_UNLOCK a
        { u with glb := { u.glb with unlock := .armed, sealRefused := false } }) ∧
      (u.glb.level = none ∨ u.glb.level = some 2 → Writes (.expertArm a) s Reg.GLB_EXPERT_UNLOCK a
        { u with glb := { u.glb with sealRefused := true } })) ∧
    (u.glb.unlock = .armed → key = 0xB1A7 → Writes (.expertOpen a) s Reg.GLB_EXPERT_UNLOCK a
      (({ u with glb := { u.glb with unlock := .open, sealRefused := false } } : State).blot 0 0x29 none [a.id.setWidth 32])) ∧
    (u.glb.unlock = .open → key = 0 → Writes (.expertClose a) s Reg.GLB_EXPERT_UNLOCK a u.expertShut) ∧
    u.expertShut.glb.unlock = .closed ∧
    (∀ b, (s.portBegin b).glb.unlock = .armed → (s.portBegin b).glb.owner = some a.id →
      ¬ (b = Reg.GLB_EXPERT_UNLOCK ∧ key = 0xB1A7) → (s.accepting b a).glb.unlock = .closed)

/-- R108, R109, R425, R419: a write of PAGE_LOCK.LOCK locks the page for good; a 1 in ERR_CAPT0.VALID clears the eight words of the
captured record; RET_CLEAR empties the retained log; CLEAR of GLB_EG_SUM clears the Endgame summary.
Where the rules leave room, the readings are the model's (log entry 86). -/
def Obligations.LocksAndClears : Prop :=
  ∀ (s : State) (a : RpAcc),
    (∀ p : Fin 2048, let ad := 0x1000 * p.val + 0xFF0
      let u := s.accepting ad a
      inPage ad = true → Writes (.pageLock p a) s ad a (u.writeRow ad false a.data) ∧
      (u.canon = true → (∀ n, pageKind ad ≠ .doorbell n) → bit (u.regAt ad) 0 = true ∨ bit a.data 0 = true →
        bit ((u.writeRow ad false a.data).regAt ad) 0 = true)) ∧
    (∀ p : Fin 2048, let ad := 0x1000 * p.val + 0x020
      let u := s.accepting ad a
      inPage ad = true → bit a.data 31 = true → ∃ v : State, Writes (.errCaptClear p a) s ad a v ∧
        (u.canon = true → ∀ k, v.regAt k = if ad ≤ k ∧ k < ad + 32 ∧ k % 4 = 0 then 0 else u.regAt k)) ∧
    (let u := s.accepting Reg.BL_CFG a
     let w := u.writeRow Reg.BL_CFG false a.data
     bit a.data 31 = true → Writes (.retClear a) s Reg.BL_CFG a
      (({ w with blotter := { w.blotter with retained := [], retNext := 0 } } : State).setReg Reg.BL_STAT
        (w.regAt Reg.BL_STAT &&& 0xFFFF0000#32))) ∧
    (let u := s.accepting Reg.GLB_EG_SUM a
     bit a.data 31 = true → Writes (.egSummaryClear a) s Reg.GLB_EG_SUM a u.egClear ∧ u.egClear.endgame.entries = [])

/-- R433 to R435: KEY 0x7E57, with the expert level active on the PB page and a level of 0 or 1, opens the perturbation area with a
record of class PERTURB_OPEN (0x2B); KEY 0x0000 closes it and resets every slot; a slot's PX_CTL is written while it is open, its
generator seeded as EN rises, and EN stays 0 where the page has no such row or the level does not allow the kind. A write of
PB_SEED seeds the generators of all armed slots.
Where the rules leave room, the readings are the model's (log entries 22 and 86). -/
def Obligations.PerturbationArea : Prop :=
  ∀ (s : State) (a : RpAcc),
    (let u := s.accepting Reg.PB_CTL a
     (fld a.data 31 16 = 0x7E57 → u.expertActive 0xF000 = true → u.levelLow = true → u.glb.pbOpen = false →
       Writes (.pbOpen a) s Reg.PB_CTL a (({ u with glb := { u.glb with pbOpen := true } } : State).blot 0xF000 0x2B none [a.id.setWidth 32])) ∧
     (fld a.data 31 16 = 0 → u.glb.pbOpen = true → Writes (.pbClose a) s Reg.PB_CTL a u.pbClose)) ∧
    (let u := s.accepting Reg.PB_SEED a
     let w := u.writeRow Reg.PB_SEED false a.data
     Writes (.pbSeedWrite a) s Reg.PB_SEED a
       (((w.regs.filter (fun e => isPxCtl e.1 && bit e.2 0)).map Prod.fst).foldl (fun v k =>
         { v with draws := Tab.setD (fun _ => 0) v.draws k (v.pxSeed k) }) w)) ∧
    (∀ (p : Fin 2048) (k : Fin 4), let ad := 0x1000 * p.val + 0xF00 + 8 * k.val
     let u := s.accepting ad a
     let w := u.writeRow ad false a.data
     let row := pxRow (pageKind ad) (fld a.data 12 8) (fld a.data 7 4) = true ∧ (fld a.data 7 4 < 8 ∨ u.glb.level = some 0)
     hasPerturb (pageKind ad) = true →
     (u.glb.pbOpen = false → Writes (.pxCtlWrite p k a) s ad a (u.countField Reg.PB_CTL 15 8 1)) ∧
     (u.glb.pbOpen = true → bit a.data 0 = false → Writes (.pxCtlWrite p k a) s ad a w) ∧
     (u.glb.pbOpen = true → bit a.data 0 = true → row → bit (u.regAt ad) 0 = false → Writes (.pxCtlWrite p k a) s ad a
       { w with draws := Tab.setD (fun _ => 0) w.draws ad (w.pxSeed ad) }) ∧
     (u.glb.pbOpen = true → bit a.data 0 = true → row → bit (u.regAt ad) 0 = true → Writes (.pxCtlWrite p k a) s ad a w) ∧
     (u.glb.pbOpen = true → bit a.data 0 = true → ¬ row → Writes (.pxCtlWrite p k a) s ad a
       ((w.setReg ad (w.regAt ad &&& 0xFFFFFFFE#32)).countField Reg.PB_CTL 15 8 1)))

/-! ### OPENING -/

/-- R85, R87: an OPENING failure counts, with its cause first and the older ones behind it, and leaves the block in RESET waiting for
the restart; a phase that passes its limit (1 µs, 1 ms, 10 ms, 500 ms, 50 ms and 60 s), or AWAIT_IMAGES its time-out, is such a failure,
START with a core that is not ready one of the cores', the Scribe's first, and SEAL with copies that still wait to be written ends with these counted as failed (R417); before its limit a phase
goes on. The restart enters OPENING while COUNT is below 3. In FALLBACK a write of CLEAR returns COUNT to 0 (R94).
Where the rules leave room, the readings are the model's (log entry 101). -/
def Obligations.OpeningFailure : Prop :=
  (∀ (u : State) (c : OpenCause), (u.openFail c).glb.mode = .reset ∧ (u.openFail c).glb.restartWait = true ∧
    (u.openFail c).glb.bootCount = min 3 (u.glb.bootCount + 1) ∧ (u.openFail c).glb.causeA = causeCode c ∧
    (u.openFail c).glb.causeB = u.glb.causeA ∧ (u.openFail c).glb.causeC = u.glb.causeB ∧
    (u.openFail c).slabs = [] ∧ (u.openFail c).images = []) ∧
  (∀ s : State, s.awake = true → s.glb.mode = .opening →
    let past := s.since s.glb.phaseAt
    let ms := fld (s.regAt Reg.GLB_OPEN_TIMEOUT) 15 0
    (s.glb.phase = .awaitImages → ms ≠ 0 → ms * 100000 ≤ past → Yields .awaitImagesTimeout s (s.openFail .imageTimeout)) ∧
    (s.glb.phase = .awaitImages → ms = 0 ∨ past < ms * 100000 → Yields .awaitImagesTimeout s s) ∧
    (s.glb.phase = .charCheck ∧ 100 ≤ past ∨ s.glb.phase = .measure ∧ 100000 ≤ past ∨ s.glb.phase = .train ∧ 50000000 ≤ past ∨
        s.glb.phase = .seal ∧ 5000000 ≤ past ∧ (∀ j, s.keys.job = some j → j.runs = true) ∨
        s.glb.phase = .defect ∧ 6000000000 ≤ past ∧ bit (s.regAt Reg.DF_SCAN_STAT) 31 = false →
      Yields .phaseTimeout s (s.openFail .phaseTimeout)) ∧
    (s.glb.phase = .seal → 5000000 ≤ past → ∀ j, s.keys.job = some j → j.runs = false → Yields .phaseTimeout s s.sealExpired) ∧
    (s.glb.phase = .start → 1000000 ≤ past →
      (s.scribe.ready = false → ∃ u : State, Yields .phaseTimeout s (u.openFail .scribeStart) ∧ u.glb = s.glb) ∧
      (s.scribe.ready = true → ∃ u : State, Yields .phaseTimeout s (u.openFail .quillStart) ∧ u.glb = s.glb)) ∧
    (past < phaseLimit s.glb.phase → Yields .phaseTimeout s s)) ∧
  (∀ (s : State) (found : List LaneFound) (copies : List SealCopy), s.alive = true → s.pins.warmLow = false →
    s.glb.restartWait = true → s.glb.mode = .reset →
    (s.glb.bootCount < 3 → Yields (.openingRestart found copies) s s.enterOpening) ∧
    (s.glb.bootCount = 3 → Yields (.openingRestart found copies) s (s.enterFallback found copies))) ∧
  (∀ (s : State) (a : RpAcc), let u := s.accepting Reg.GLB_BOOT_ATTEMPT a
    (u.glb.mode = .fallback → bit a.data 31 = true → Writes (.clear a) s Reg.GLB_BOOT_ATTEMPT a { u with glb := { u.glb with bootCount := 0 } }) ∧
    (u.glb.mode ≠ .fallback → Writes (.clear a) s Reg.GLB_BOOT_ATTEMPT a u))

/-- R88, R90: a write to the load window stores its four bytes, the lowest at the lowest address, in AWAIT_IMAGES below the end of the
stroke tables, or in the Scribe area while a reload is armed; every other write of the window changes nothing. R89, R85, R438: GO in
AWAIT_IMAGES begins the measurement if the lengths are valid and else fails with IMAGE_FORMAT, and with a time-out of the same cycle with
IMAGE_TIMEOUT. The measurement counts the words that hashing corrects in bucket group 6 (R354), publishes the SHA-384 digest of R89's
string and one load more, and MEASURE goes on to START unless ENFORCE refuses the digest; an uncorrectable word fails it.
Where the rules leave room, the readings are the model's (log entry 83). -/
def Obligations.LoadAndMeasure : Prop :=
  (∀ (s : State) (addr : BitVec 23) (a : RpAcc), let ad := addr.toNat
     let u := s.accepting ad a
     let off := ad - 0x600000
     let takes := (u.glb.mode = .opening ∧ u.glb.phase = .awaitImages ∧ off < 0xA0000) ∨
       (u.glb.scrArmed = true ∧ 0x20000 ≤ off ∧ off < 0x60000)
     0x600000 ≤ ad →
     (takes → ∃ v : State, Writes (.loadWindowWrite addr a) s ad a v ∧ v = { u with images := v.images } ∧
       (u.canon = true → ∀ i, Tab.getD (fun _ => (0 : Byte)) v.images i =
         if off ≤ i ∧ i < off + 4 then byteAt a.data (i - off) else Tab.getD (fun _ => (0 : Byte)) u.images i)) ∧
     (¬ takes → Writes (.loadWindowWrite addr a) s ad a u)) ∧
  ((∀ (s : State) (a : RpAcc) (w : Bool), let u := (s.accepting Reg.GLB_OPEN_CTL a).writeRow Reg.GLB_OPEN_CTL false a.data
     let v := s.accepting Reg.GLB_OPEN_CTL a
     v.glb.mode = .opening → v.glb.phase = .awaitImages → bit a.data 0 = true →
     (w = true → fld (v.regAt Reg.GLB_OPEN_TIMEOUT) 15 0 ≠ 0 → Writes (.go a w) s Reg.GLB_OPEN_CTL a (u.openFail .imageTimeout)) ∧
     (w = false ∨ fld (v.regAt Reg.GLB_OPEN_TIMEOUT) 15 0 = 0 →
       (u.lensOk = true → Writes (.go a w) s Reg.GLB_OPEN_CTL a
         { u.toPhase .measure with glb := { (u.toPhase .measure).glb with measureBusy := true } }) ∧
       (u.lensOk = false → Writes (.go a w) s Reg.GLB_OPEN_CTL a
         ((u.toPhase .measure).openFail .imageFormat)))) ∧
   (∀ (s : State) (rows : List (Fin 2560)), s.awake = true → s.glb.measureBusy = true →
     let v : State := rows.foldl (fun t r => t.corrected 0x1A0 r.val) { s with glb := { s.glb with measureBusy := false } }
     let u := v.publish (sha384 v.measured)
     (u.canon = true → v.canon = true → u.regAt Reg.MS_LOAD_COUNT = v.regAt Reg.MS_LOAD_COUNT + 1 ∧
       ∀ k, k < 12 → u.regAt (Reg.MS_DIGEST + 4 * k) = BitVec.ofNat 32 ((sha384 v.measured).getD k 0)) ∧
     (s.canon = true → v.measured = s.measured) ∧
     (s.glb.phase = .measure →
       Yields (.measureDone true rows) s (v.openFail .sramInit) ∧
       (u.digestBad = true → Yields (.measureDone false rows) s (u.openFail .digestMismatch)) ∧
       (u.digestBad = false → Yields (.measureDone false rows) s (u.toPhase .start))) ∧
     (s.glb.phase ≠ .measure →
       Yields (.measureDone true rows) s (v.reloadFails 5) ∧
       (u.digestBad = true → Yields (.measureDone false rows) s (u.reloadFails 3)) ∧
       (u.digestBad = false → u.headerErr 0x20000 0x0053494D u.imgLens.2.1 ≠ 0 → Yields (.measureDone false rows) s (u.reloadFails 2)) ∧
       (u.digestBad = false → u.headerErr 0x20000 0x0053494D u.imgLens.2.1 = 0 → Yields (.measureDone false rows) s u.startScribe))))

/-- R85, R162, R142, R119: START releases every Quill and the Scribe at their entry points when both headers and the table pass, and
fails where a check does not; with every core READY, TRAIN begins with no calibration record saved. It discovers the lanes, fails with
NO_LANES where no target answers, and holds while TRAIN_HOLD is 1; RESUME ends the hold that the lanes stand in; TRAIN ends in SEAL unless a seal lane failed. R92, R336, R130, R79: SEAL latches a level from the present copies, ending with the
last copy that it rewrites, or fails with SEAL_RECORD, and with KEK_MISSING when the level is above 0 without a key; DEFECT reads every present die's bitmap or fails with DEFECT_STORE; then
SERVICE is entered with COUNT 0 and MV_CFG applied.
Where the rules leave room, the readings are the model's (log entry 84). -/
def Obligations.OpeningPhases : Prop :=
  ((∀ s : State, s.awake = true → s.glb.phase = .start →
     (s.scribe.state = .held → Yields (.startPhase true) s (s.openFail .sramInit) ∧
       (let u : State := { s with cache := { s.cache with invalDone := true } }
        u.headerErr 0x20000 0x0053494D u.imgLens.2.1 = 0 → u.headerErr 0 0x0051494D u.imgLens.1 = 0 → u.tableErr = 0 →
        Yields (.startPhase false) s
          (((u.startErrs 0).clusterList.foldl (fun t c => t.startCore c 0 0x20000) (u.startErrs 0)).startCore 16 0x20000 0x40000)) ∧
       (let u : State := { s with cache := { s.cache with invalDone := true } }
        let q := if u.headerErr 0 0x0051494D u.imgLens.1 ≠ 0 then u.headerErr 0 0x0051494D u.imgLens.1 else u.tableErr
        (u.headerErr 0x20000 0x0053494D u.imgLens.2.1 ≠ 0 → Yields (.startPhase false) s ((u.startErrs q).openFail .scribeStart)) ∧
        (u.headerErr 0x20000 0x0053494D u.imgLens.2.1 = 0 → q ≠ 0 → Yields (.startPhase false) s ((u.startErrs q).openFail .quillStart)))) ∧
     (s.coresReady = true →
       s.startEnd = ({ s with glb := { s.glb with phase := .train, phaseAt := s.time.toNat, walked := false } } : State).dropSaved)) ∧
   (∀ s : State, s.awake = true → s.glb.phase = .train → s.glb.walked = false →
     (∀ found : List LaneFound,
       let u := ({ s with glb := { s.glb with walked := true } } : State).discoverAll found s.build.lanes
       let none := (found.filter (fun f => decide (f.lane.val < s.build.lanes))).all (fun f => f.targets.isEmpty)
       (none = true → Yields (.trainPhase found) s (u.openFail .noLanes)) ∧
       (none = false → bit (u.regAt Reg.CAL_CTL) 0 = true → Yields (.trainPhase found) s u) ∧
       (none = false → bit (u.regAt Reg.CAL_CTL) 0 = false → Yields (.trainPhase found) s u.trainEnd))) ∧
   (∀ (s : State) (a : RpAcc), let u := (s.accepting Reg.CAL_CTL a).writeRow Reg.CAL_CTL false a.data
     (u.glb.phase = .train → u.glb.walked = true → bit a.data 1 = true → Writes (.resume a) s Reg.CAL_CTL a u.trainEnd) ∧
     (u.glb.phase ≠ .train ∨ u.glb.walked = false ∨ bit a.data 1 = false → Writes (.resume a) s Reg.CAL_CTL a u)) ∧
   (∀ u : State, u.trainEnd = if u.trainHeld.sealLaneFailed then u.trainHeld.openFail .trainSealLane
     else u.trainHeld.clearRestored.toPhase .seal)) ∧
  ((∀ (s : State) (copies : List SealCopy), s.awake = true → s.glb.phase = .seal → s.keys.job = none →
     let r := s.sealLatch s.regionList copies
     (r.2 = false → Yields (.sealPhase copies) s (r.1.openFail .sealRecord)) ∧
     (r.2 = true → r.1.keys.job ≠ none ∨ r.1.glb.phase ≠ .seal ∨ r.1.glb.mode ≠ .opening → Yields (.sealPhase copies) s r.1) ∧
     (r.2 = true → r.1.keys.job = none → r.1.glb.phase = .seal → r.1.glb.mode = .opening → Yields (.sealPhase copies) s
       (if r.1.fuse.kek = none ∧ 1 ≤ r.1.levelNo then r.1.openFail .kekMissing else r.1.toPhase .defect))) ∧
   (∀ (s : State) (markers : List FactoryMark) (e : CcFault), s.awake = true → s.glb.phase = .defect → bit (s.regAt Reg.DF_SCAN_STAT) 31 = false →
     (s.dfAssigned = false → Found (.defectPhase markers e) s (s.openFail .defectStore)) ∧
     (s.dfAssigned = true → bit (s.regAt Reg.DF_CTL) 0 = false →
       let q := s.presentDies.foldl (fun a d => State.defectDie a d e) (s, true)
       (q.2 = true → Found (.defectPhase markers e) s (q.1.setReg Reg.DF_SCAN_STAT (q.1.regAt Reg.DF_SCAN_STAT ||| flag true 31))) ∧
       (q.2 = false → Found (.defectPhase markers e) s (q.1.openFail .defectStore))) ∧
     (s.dfAssigned = true → bit (s.regAt Reg.DF_CTL) 0 = true →
       let q := s.presentDies.foldl (fun a d => State.defectDie a d e) (markers.foldl (fun a m => State.factoryMark a m e) (s, true))
       (q.2 = true → Found (.defectPhase markers e) s (q.1.setReg Reg.DF_SCAN_STAT (q.1.regAt Reg.DF_SCAN_STAT ||| flag true 31))) ∧
       (q.2 = false → Found (.defectPhase markers e) s (q.1.openFail .defectStore)))) ∧
   (∀ (s : State) (f : Upset), s.awake = true → s.glb.mode = .opening → s.glb.phase = .defect → bit (s.regAt Reg.DF_SCAN_STAT) 31 = true →
     s.keys.again = none → ∃ t, exec (.serviceEntry f) s = .next t ∧ t.glb.mode = .service ∧ t.glb.prevMode = .opening ∧
       t.glb.bootCount = 0 ∧ t.glb.mvCfg = s.regAt Reg.MV_CFG ∧ t.glb.causeA = s.glb.causeA ∧ t.ledger.credit = 0 ∧ t.ledger.reserve = 0))

/-- R428, R431, R432: a watchdog that passes its limit without a KICK loses the Scribe; ARM on a lost Scribe admits writes to its area
and GO begins the measurement; a reload ends DONE when the Scribe executes READY within 10 ms of GO, or LOST again.
Where the rules leave room, the readings are the model's (log entry 85). -/
def Obligations.ScribeReload : Prop :=
  (∀ s : State, s.awake = true → s.glb.mode ≠ .fallback → s.glb.mode ≠ .endgame → s.glb.mode ≠ .opening → s.scribe.state = .running →
    fld (s.regAt Reg.GLB_SCR_WDOG) 15 0 ≠ 0 → fld (s.regAt Reg.GLB_SCR_WDOG) 15 0 * 100 ≤ s.since s.scribe.kick →
    Found .watchdogExpiry s (s.loseScribe 1)) ∧
  (∀ (s : State) (a : RpAcc), let u := s.accepting Reg.GLB_SCR_CTL a
    (bit a.data 0 = true → bit a.data 1 = false → u.scribe.state = .lost → Writes (.arm a) s Reg.GLB_SCR_CTL a
      { u with glb := { u.glb with scrArmed := true } }) ∧
    (bit a.data 0 = true → bit a.data 1 = false → u.scribe.state ≠ .lost → Writes (.arm a) s Reg.GLB_SCR_CTL a u) ∧
    (bit a.data 1 = true → bit a.data 0 = false → u.glb.scrArmed = true → Writes (.scribeReloadGo a) s Reg.GLB_SCR_CTL a
      { u with glb := { u.glb with scrArmed := false, measureBusy := true }, scribe := { u.scribe with state := .reloading, goAt := u.time.toNat } }) ∧
    (bit a.data 1 = true → bit a.data 0 = false → u.glb.scrArmed = false → Writes (.scribeReloadGo a) s Reg.GLB_SCR_CTL a u)) ∧
  (∀ (s : State) (e n : Bool), s.awake = true → s.glb.mode ≠ .opening → s.scribe.state = .starting →
    let intime := s.scribe.ready = true ∧ s.scribe.kick ≤ s.scribe.goAt + 1000000
    let late := 1000000 < s.since s.scribe.goAt
    (intime → Yields (.scribeReload e n) s
      (({ s with scribe := { s.scribe with state := .running, kick := s.time.toNat } } : State).reloadEnd 1).passResets) ∧
    (¬ intime → Yields (.scribeReload true n) s (({ s with scribe := { s.scribe with state := .lost } } : State).reloadEnd 5)) ∧
    (¬ intime → late → s.scribe.ready = true ∨ n = true →
      Yields (.scribeReload false n) s (({ s with scribe := { s.scribe with state := .lost } } : State).reloadEnd 4)) ∧
    (¬ intime → ¬ late → Yields (.scribeReload false n) s s))

/-! ### Lanes and calibration -/

/-- R146, R148, R149: a write of LN_CAL_CTL with RECAL starts a calibration run where none is active, from step 0, whose first pass begins
at an idle point, this one included, and one with RETRAIN
asks for a retrain from the first candidate; a write of one of the six timing registers lands in its shadow and sets PENDING, and
in a hand-over cycle the active set takes the shadows as they stood before it. -/
def Obligations.CalibrationWrites : Prop :=
  ∀ (s : State) (g : Fin 128) (a : RpAcc), let ad := lnA g.val Reg.LN_CAL_CTL
    let u := s.accepting ad a
    let w := u.writeRow ad false a.data
    (bit a.data 8 = true → bit a.data 9 = false →
      ((w.lane g.val).cal.isSome = true ∨ (w.lane g.val).enabled = false → Writes (.recal g a) s ad a w) ∧
      ((w.lane g.val).cal = none → (w.lane g.val).enabled = true → Writes (.recal g a) s ad a
        ((w.modLane g.val (fun l =>
          { l with cal := some { step := 0, began := false, bytes := 0, alt := (w.lane g.val).alts, mism := [], insert := false } })).calPoint g.val))) ∧
    (bit a.data 8 = false → bit a.data 9 = true → Writes (.retrain g a) s ad a
      (w.askRetrain g.val true)) ∧
    (∀ n : Fin 6, let b := lnA g.val (shadowOff n.val)
      let v := s.accepting b a
      let x := v.writeRow b false a.data
      Writes (.laneShadowWrite g n a false) s b a (x.setReg (lnA g.val Reg.LN_CAL_STAT) (x.regAt (lnA g.val Reg.LN_CAL_STAT) ||| 1)) ∧
      (v.castPending g.val = true → v.idlePoint g.val = true → 
        let y := (v.castle g.val).writeRow b false a.data
        Writes (.laneShadowWrite g n a true) s b a
          (((y.setPending g.val).orReg (lnA g.val Reg.LN_CAL_STAT) (flag true 8)).raise (lnA g.val 0) 3) ∧
        (v.canon = true → ((v.castle g.val).lane g.val).active = v.shadows g.val)))

/-- R149, R151: at an idle point with PENDING set the active values become the shadows and PENDING clears, a forced idle being recorded; the
forced idle itself stops new strokes of the lane until then; a read-training stroke that waited for the hand-over follows it. R144, R146: a step of a calibration run has filled once its pass has begun and
CAL_RUN.STEP_KIB of read data have passed; it takes one mismatch count a bit and goes on to the next tap, a pass beginning at an idle point;
the run's last step ends it with its results; a step that does not fill in time makes the lane insert a ROM read-training stroke at its idle
points.
Where the rules leave room, the readings are the model's (log entries 20, 81 and 105). -/
def Obligations.LaneCalibration : Prop :=
  (∀ (s : State) (g : Fin 128), s.awake = true → s.castPending g.val = true →
     (g.val < s.build.lanes → s.clusterUp (g.val / 8) = true → s.idlePoint g.val = true → let u := s.castle g.val
       Yields (.castling g) s (u.calInsert g.val) ∧
       (s.canon = true → (u.lane g.val).active = s.shadows g.val ∧ (u.lane g.val).forced = false ∧ u.castPending g.val = false ∧
         ((s.lane g.val).forced = true → bit (u.regAt (lnA g.val Reg.LN_CAL_STAT)) 10 = true))) ∧
     (s.laneUp g.val = true → Yields (.forcedIdle g) s (s.modLane g.val (fun l => { l with forced := true })))) ∧
  (∀ (s : State) (g : Fin 128) (r : CalRun), s.awake = true → s.laneUp g.val = true → (s.lane g.val).cal = some r →
     (∀ mism w, r.began = false ∨ r.bytes < s.stepBytes → Yields (.calRunStep g mism w) s s) ∧
     (∀ mism : List Nat, r.began = true → s.stepBytes ≤ r.bytes →
       (∀ w, r.step + 1 < 256 →
         Yields (.calRunStep g mism w) s ((s.modLane g.val (fun l => { l with cal := some (r.take mism) })).calPoint g.val)) ∧
       (∀ w, 256 ≤ r.step + 1 → Yields (.calRunStep g mism w) s (s.endRun g.val (r.take mism) w))) ∧
     (∀ mism : List Nat, (r.take mism).step = r.step + 1 ∧ (r.take mism).alt = r.alt ∧ (r.take mism).bytes = 0 ∧
       ((r.take mism).began = true ↔ (r.step + 1) % 64 ≠ 0) ∧
       (Tab.rising r.mism = true → r.step < 256 → ∀ b k, b < 8 → k < 256 → Tab.getD (fun _ => 0) (r.take mism).mism (b * 256 + k) =
         if k = r.step then mism.getD b 0 else Tab.getD (fun _ => 0) r.mism (b * 256 + k))) ∧
     (let u := s.modLane g.val (fun l => { l with cal := some { r with insert := true } })
      Yields (.calStepWaitExpiry g) s (u.calInsert g.val)))

/-- R148: a retrain that is asked for runs at an idle point once every target is ready, over the candidates that its request names,
and until then the lane commits nothing more while its erases are suspended, a calibration run being abandoned (R146); one whose targets are not ready in time is given up and
asked for again later.
Where the rules leave room, the readings are the model's (log entry 81). -/
def Obligations.Retraining : Prop :=
  ∀ (s : State) (g : Fin 128) (first : Bool), s.working = true → s.laneUp g.val = true →
    (∀ trials : List Trial, (s.lane g.val).retrainReq = some first → s.scribeUp = true → s.idlePoint g.val = true →
      (s.lunsReady g.val = true → Found (.retrainRun g trials) s (s.retrainNow g.val first trials)) ∧
      (s.lunsReady g.val = false → Found (.retrainRun g trials) s
        (((s.dropRun g.val).modLane g.val (fun l => { l with retrainWait := true })).retrainSuspend g.val))) ∧
    ((s.lane g.val).retrainWait = true → s.lunsReady g.val = false → Yields (.retrainReadyTimeout g) s
      ((s.modLane g.val (fun l => { l with retrainReq := none, retrainWait := false, retrainLater := l.retrainReq })).retrainResume g.val)) ∧
    ((s.lane g.val).retrainLater = some first → Yields (.retrainRerequest g) s
      (s.modLane g.val (fun l => { l with retrainReq := some (first || l.retrainReq.getD false), retrainLater := none, retrainWait := false })))

/-! ### The defect map and the frontier -/

/-- R127: on the entry that DF_MARK_ADDR names, a query shows its code; a mark turns GOOD into GROWN_HOST and leaves any other code with
ALREADY (1); a clear turns a GROWN code into GOOD and leaves FACTORY with result FACTORY (2); an address that the build does not have is
refused with 3, and a backing-store error with 4. Each sets MARK_DONE. R281: on the plane-block that DF_FR_ADDR names, QUERY shows its
record or answers NONE (1); CLOSE frees it unless a command holds it, then IN_FLIGHT (4); OPEN creates an OPEN record of the command's owner
at its page, unless one exists, then ALREADY (2), or no slot is free, then FULL (3). A backing-store error answers STORE_ERR (6). Each sets FR_DONE. A write while BUSY is 1 has
no effect. That
a clear of a GOOD entry answers DONE, and that CODE reads 0 where there is no entry, are choices of the model (log entries 104 and 132).
Where the rules leave room, the readings are the model's (log entry 49). -/
def Obligations.DefectsAndFrontier : Prop :=
  (∀ (s : State) (a : RpAcc) (f : CcFault), let A := Reg.DF_MARK_CMD
     let u := s.accepting A a
     let w := u.regAt Reg.DF_MARK_ADDR
     let ends (v : State) (result code : Nat) : State := (v.setReg Reg.DF_MARK_STAT (BitVec.ofNat 32 (code * 16 + result))).raise 0xE000 4
     let e := fld w 31 16 * (u.geo (fld w 12 0 / 64)).planes + fld w 14 13
     let r := u.dfCode unitDfCmd (fld w 12 0) e f
     let set (code : Nat) := r.1.dfSet unitDfCmd (fld w 12 0) e code f
     let present := u.blockPresent (fld w 12 0) (fld w 31 16) (fld w 14 13) = true
     let busy := bit (u.regAt Reg.DF_MARK_STAT) 31
     (busy = true → ∀ c, c = .markQuery a f ∨ c = .markGrownHost a f ∨ c = .markClear a f → Writes c s A a u) ∧
     (busy = false → ¬ present → (fld a.data 1 0 = 1 → Finds (.markQuery a f) s A a (ends u 3 0)) ∧
       (fld a.data 1 0 = 2 → Finds (.markGrownHost a f) s A a (ends u 3 0)) ∧ (fld a.data 1 0 = 3 → Finds (.markClear a f) s A a (ends u 3 0))) ∧
     (busy = false → present → r.2 = none → (fld a.data 1 0 = 1 → Finds (.markQuery a f) s A a (ends r.1 4 0)) ∧
       (fld a.data 1 0 = 2 → Finds (.markGrownHost a f) s A a (ends r.1 4 0)) ∧
       (fld a.data 1 0 = 3 → Finds (.markClear a f) s A a (ends r.1 4 0))) ∧
     (busy = false → present → ∀ c, r.2 = some c →
       (fld a.data 1 0 = 1 → Finds (.markQuery a f) s A a (ends r.1 0 c)) ∧
       (fld a.data 1 0 = 2 →
         (c ≠ 0 → Finds (.markGrownHost a f) s A a (ends r.1 1 c)) ∧
         (c = 0 → (set 2).2 = true → Finds (.markGrownHost a f) s A a (ends (set 2).1 0 2)) ∧
         (c = 0 → (set 2).2 = false → Finds (.markGrownHost a f) s A a (ends (set 2).1 4 0))) ∧
       (fld a.data 1 0 = 3 →
         (c = 3 → Finds (.markClear a f) s A a (ends r.1 2 3)) ∧
         (c = 0 → Finds (.markClear a f) s A a (ends r.1 0 0)) ∧
         (c = 1 ∨ c = 2 → (set 0).2 = true → Finds (.markClear a f) s A a (ends (set 0).1 0 0)) ∧
         (c = 1 ∨ c = 2 → (set 0).2 = false → Finds (.markClear a f) s A a (ends (set 0).1 4 c))))) ∧
  (∀ (s : State) (a : RpAcc) (f : CcFault), let A := Reg.DF_FR_CMD
     let u := s.accepting A a
     let w := u.regAt Reg.DF_FR_ADDR
     let die := fld w 12 0
     let blk := fld w 31 16 * (u.geo (die / 64)).planes + fld w 14 13
     let ends (v : State) (result : Nat) (r : FrRec) : State := ((v.setReg Reg.DF_FR_STAT (BitVec.ofNat 32 (65536 * r.next + r.st * 16 + result))).setReg
       Reg.DF_FR_INFO (BitVec.ofNat 32 (65536 * r.done + r.owner))).raise 0xE000 5
     let q := u.frSlots unitDfCmd die f
     let busy := bit (u.regAt Reg.DF_FR_STAT) 31
     (busy = true → ∀ c, c = .frQuery a f ∨ c = .frClose a f ∨ c = .frOpen a f → Writes c s A a u) ∧
     (busy = false → u.blockPresent die (fld w 31 16) (fld w 14 13) = false → (fld a.data 1 0 = 1 → Finds (.frQuery a f) s A a (ends u 5 frFree)) ∧
       (fld a.data 1 0 = 2 → Finds (.frClose a f) s A a (ends u 5 frFree)) ∧ (fld a.data 1 0 = 3 → Finds (.frOpen a f) s A a (ends u 5 frFree))) ∧
     (busy = false → u.blockPresent die (fld w 31 16) (fld w 14 13) = true → q.2 = none → (fld a.data 1 0 = 1 → Finds (.frQuery a f) s A a (ends q.1 6 frFree)) ∧
       (fld a.data 1 0 = 2 → Finds (.frClose a f) s A a (ends q.1 6 frFree)) ∧ (fld a.data 1 0 = 3 → Finds (.frOpen a f) s A a (ends q.1 6 frFree))) ∧
     (busy = false → u.blockPresent die (fld w 31 16) (fld w 14 13) = true → ∀ l, q.2 = some l →
       (∀ i, frFind l blk = some i → let r := l.getD i frFree
         let t := q.1.frPut unitDfCmd die i frFree f
         (fld a.data 1 0 = 1 → Finds (.frQuery a f) s A a (ends q.1 0 r)) ∧
         (fld a.data 1 0 = 3 → Finds (.frOpen a f) s A a (ends q.1 2 r)) ∧
         (fld a.data 1 0 = 2 → (r.st = 1 ∧ r.next ≠ r.done) ∨ (r.st ≠ 1 ∧ u.frHeld die blk = true) → Finds (.frClose a f) s A a (ends q.1 4 r)) ∧
         (fld a.data 1 0 = 2 → (r.st = 1 ∧ r.next = r.done) ∨ (r.st ≠ 1 ∧ u.frHeld die blk = false) →
           Finds (.frClose a f) s A a (ends t.1 (if t.2 then 0 else 6) frFree))) ∧
       (frFind l blk = none →
         (fld a.data 1 0 = 1 → Finds (.frQuery a f) s A a (ends q.1 1 frFree)) ∧
         (fld a.data 1 0 = 2 → Finds (.frClose a f) s A a (ends q.1 1 frFree)) ∧
         (fld a.data 1 0 = 3 → frFreeSlot l = none → Finds (.frOpen a f) s A a (ends q.1 3 frFree)) ∧
         (fld a.data 1 0 = 3 → ∀ i, frFreeSlot l = some i →
           let r : FrRec := { blk := blk, st := 1, blank := true, owner := fld a.data 18 10, next := fld a.data 31 20, done := fld a.data 31 20,
                              base := fld a.data 31 20, time := u.us.toNat, seq := 0 }
           let t := q.1.frPut unitDfCmd die i r f
           Finds (.frOpen a f) s A a (if t.2 then ends t.1 0 r else ends t.1 6 frFree)))))
/-! ### Rings and doorbells -/

/-- R186: READ copies the context to the window; WRITE installs the window, its indices, PASS and words 7 to 9 zero, where the ring is
OFF (else NOT_OFF, 1) and every field is in range (else BAD_CONTEXT, 2); DISABLE turns a ring OFF without outstanding commands
(else OUTSTANDING, 3), a CPL ring only if no SUB ring names it (else NAMED, 6); RESET_RING makes a FENCED or ERROR ring
(else STATE, 4) ACTIVE with indices, PASS and ERR_CAUSE zero. A context that cannot be reached answers STORE_ERR, 5. A write
while BUSY is 1 has no effect.
Where the rules leave room, the readings are the model's (log entries 50 and 51). -/
def Obligations.RingCommands : Prop :=
  ∀ (s : State) (a : RpAcc) (f : CcFault), let A := Reg.TN_RING_CMD
    let u := s.accepting A a
    let n := fld a.data 14 0
    let r := u.ringLoad unitRingCmd n f
    let w := u.window
    let ends (v : State) (k : Nat) : State := v.setReg Reg.TN_RING_STAT (BitVec.ofNat 32 k)
    let op := fld a.data 18 16
    let busy := bit (u.regAt Reg.TN_RING_STAT) 31
    (busy = true → ∀ c, c = .ringCmdRead a f ∨ c = .ringCmdWrite a f ∨ c = .disable a f ∨ c = .resetRing a f → Writes c s A a u) ∧
    (busy = false → r.2 = none →
      (op = 1 → Finds (.ringCmdRead a f) s A a (ends r.1 5)) ∧ (op = 2 → Finds (.ringCmdWrite a f) s A a (ends r.1 5)) ∧
      (op = 3 → Finds (.disable a f) s A a (ends r.1 5)) ∧ (op = 4 → Finds (.resetRing a f) s A a (ends r.1 5))) ∧
    (busy = false → ∀ x, r.2 = some x →
      (op = 1 → Finds (.ringCmdRead a f) s A a
        (ends ((List.range 16).foldl (fun t k => t.setReg (Reg.TN_RING_WIN + 4 * k) (cw x k)) r.1) 0)) ∧
      (op = 2 →
        (x.kind ≠ 0 → Finds (.ringCmdWrite a f) s A a (ends r.1 1)) ∧
        (x.kind = 0 → r.1.ctxInRange w = false → Finds (.ringCmdWrite a f) s A a (ends r.1 2)) ∧
        (x.kind = 0 → r.1.ctxInRange w = true → w.kind = 2 → let t := r.1.ringStore unitRingCmd n w.fresh f
          (t.2 = true → Finds (.ringCmdWrite a f) s A a (ends (t.1.setNote n (ringNote w)) 0)) ∧
          (t.2 = false → Finds (.ringCmdWrite a f) s A a (ends t.1 5))) ∧
        (x.kind = 0 → r.1.ctxInRange w = true → w.kind = 1 → let c := (r.1.ringLoad unitRingCmd w.cplRing f).1
          ((r.1.ringLoad unitRingCmd w.cplRing f).2 = none → Finds (.ringCmdWrite a f) s A a (ends c 5)) ∧
          (∀ y, (r.1.ringLoad unitRingCmd w.cplRing f).2 = some y → let t := c.ringStore unitRingCmd n w.fresh f
            (y.kind ≠ 2 ∨ y.owner ≠ w.owner → Finds (.ringCmdWrite a f) s A a (ends c 2)) ∧
            (y.kind = 2 → y.owner = w.owner → t.2 = true → Finds (.ringCmdWrite a f) s A a (ends (t.1.setNote n (ringNote w)) 0)) ∧
            (y.kind = 2 → y.owner = w.owner → t.2 = false → Finds (.ringCmdWrite a f) s A a (ends t.1 5))))) ∧
      (op = 3 →
        let t := r.1.ringStore unitRingCmd n (x.setW 0 (putFld (cw x 0) 1 0 0)) f
        (x.out ≠ 0 → Finds (.disable a f) s A a (ends r.1 3)) ∧
        (x.out = 0 → x.kind = 2 → u.naming n ≠ [] → Finds (.disable a f) s A a (ends r.1 6)) ∧
        (x.out = 0 → x.kind ≠ 2 ∨ u.naming n = [] → t.2 = true → Finds (.disable a f) s A a (ends (t.1.setNote n 0) 0)) ∧
        (x.out = 0 → x.kind ≠ 2 ∨ u.naming n = [] → t.2 = false → Finds (.disable a f) s A a (ends t.1 5))) ∧
      (op = 4 →
        (x.kind = 0 ∨ x.state = 0 → Finds (.resetRing a f) s A a (ends r.1 4)) ∧
        (x.kind ≠ 0 → x.state ≠ 0 → x.out ≠ 0 → Finds (.resetRing a f) s A a (ends r.1 3)) ∧
        (x.kind ≠ 0 → x.state ≠ 0 → x.out = 0 →
          let y := (((x.setW 6 (putFld (cw x 6) 16 16 0)).setProd 0).setCons 0).setState 0
          let t := r.1.ringStore unitRingCmd n (y.setW 7 (putFld (cw y 7) 7 0 0)) f
          Finds (.resetRing a f) s A a (ends t.1 (if t.2 then 0 else 5)))))

/-- R187, R189, R93: a doorbell write of the page's own ring, of its kind and ACTIVE, with an INDEX in range, sets PROD or CONS with
RESULT OK (0); a ring of another instance is refused with NOT_OWNER (1) and a record of class DB_NOT_OWNER (0x25), one OFF or
of the other kind with RING_OFF (2), a FENCED one with 3, one in ERROR with 4, a wrong INDEX (out of range; a CONS outside CONS to PROD) with 5, each counted. A residue error found in the SUB
ring's indices ends it in ERROR with cause 3 (R211). A write whose lookup meets a store error is held until a retry (R327). In FALLBACK a write to a page but 511 changes nothing.
Where the rules leave room, the readings are the model's (log entry 135). -/
def Obligations.DoorbellWrites : Prop :=
  ∀ (s : State) (p : Fin 512) (a : RpAcc) (f : CcFault), let A := dbA p.val Reg.DB_RING
    let u := s.accepting A a
    let n := fld a.data 30 16
    let idx := fld a.data 15 0
    let r := u.ringLoad unitDoorbell n f
    let sub := Instr.doorbellSubProd p a f false
    let cpl := Instr.doorbellCplCons p a f
    let ends (v : State) (k : Nat) : State := v.modReg (dbA p.val Reg.DB_STAT) (fun w => putFld w 2 0 k)
    let refuse (v : State) (k : Nat) : State := (ends v k).countField (dbA p.val Reg.DB_ERR_COUNT) 15 0 1
    let waits := u.cache.held.any (Held.doorbell p.val a.data false).after
    (u.glb.mode = .fallback → p.val ≠ 511 → Writes sub s A a u ∧ Writes cpl s A a u) ∧
    (u.glb.mode ≠ .fallback ∨ p.val = 511 → waits = true →
      (bit a.data 31 = false → Writes sub s A a (u.hold (.doorbell p.val a.data false))) ∧
      (bit a.data 31 = true → Writes cpl s A a (u.hold (.doorbell p.val a.data false)))) ∧
    (u.glb.mode ≠ .fallback ∨ p.val = 511 → waits = false → r.2 = none →
      (bit a.data 31 = false → Finds sub s A a (r.1.holdDoorbell p.val a.data)) ∧
      (bit a.data 31 = true → Finds cpl s A a (r.1.holdDoorbell p.val a.data))) ∧
    (u.glb.mode ≠ .fallback ∨ p.val = 511 → waits = false → ∀ x, r.2 = some x → ∀ c k, (c = sub ∧ k = 1 ∧ bit a.data 31 = false) ∨ (c = cpl ∧ k = 2 ∧ bit a.data 31 = true) →
      (x.owner ≠ p.val → Finds c s A a ((refuse r.1 1).blot 0xC000 0x25 (some p.val) [BitVec.ofNat 32 n])) ∧
      (x.owner = p.val → x.kind ≠ k → Finds c s A a (refuse r.1 2)) ∧
      (x.owner = p.val → x.kind = k → x.state = 1 → Finds c s A a (refuse r.1 3)) ∧
      (x.owner = p.val → x.kind = k → x.state = 2 → Finds c s A a (refuse r.1 4)) ∧
      (x.owner = p.val → x.kind = k → x.state ≠ 1 → x.state ≠ 2 → x.sound = true → x.size ≤ idx → Finds c s A a (refuse r.1 5))) ∧
    (u.glb.mode ≠ .fallback ∨ p.val = 511 → waits = false → ∀ x, r.2 = some x → x.owner = p.val → x.state = 0 →
      let P := r.1.ringStore unitDoorbell n (x.setProd idx) f
      let C := r.1.ringStore unitDoorbell n (x.setCons idx) f
      let order := idx = x.cons ∨ (idx + x.size - x.cons % x.size) % x.size ≤ (x.prod + x.size - x.cons % x.size) % x.size
      (x.kind = 1 → bit a.data 31 = false →
        Finds (.doorbellSubProd p a f true) s A a (refuse (r.1.ringError n 3) 4) ∧
        (x.sound = false → Finds sub s A a (refuse (r.1.ringError n 3) 4))) ∧
      (x.kind = 2 → bit a.data 31 = true →
        Finds (.doorbellCplCons p a f true) s A a (refuse (r.1.ringError n 3) 4) ∧
        (x.sound = false → Finds cpl s A a (refuse (r.1.ringError n 3) 4))) ∧
      (x.kind = 1 → x.sound = true → bit a.data 31 = false →
        (idx < x.size → u.tnState p.val ≠ .active → Finds sub s A a (refuse r.1 3)) ∧
        (idx < x.size → u.tnState p.val = .active → P.2 = true → Finds sub s A a (ends P.1 0)) ∧
        (idx < x.size → u.tnState p.val = .active → P.2 = false → Finds sub s A a (P.1.holdDoorbell p.val a.data))) ∧
      (x.kind = 2 → x.sound = true → bit a.data 31 = true → idx < x.size →
        (¬ order → Finds cpl s A a (refuse r.1 5)) ∧
        (order → u.tnState p.val ≠ .active → Finds cpl s A a (refuse r.1 3)) ∧
        (order → u.tnState p.val = .active → C.2 = true → Finds cpl s A a (ends C.1 0)) ∧
        (order → u.tnState p.val = .active → C.2 = false → Finds cpl s A a (C.1.holdDoorbell p.val a.data))))

/-! ### Fetching and the intakes -/

/-- R195: a packet of an ACTIVE SUB ring with slots offered, whose CPL ring is ACTIVE with a slot to reserve, is begun: OUTSTANDING of
both rings is one more, and its first beat is asked for at the slot of CONS; a residue error of the ring ends it in ERROR with cause
RESIDUE (3); a context that cannot be reached is looked up again at the next retry (R327). A FENCE is completed once the ring's OUTSTANDING
is 1, and no change of it waits.
Where the rules leave room, the readings are the model's (log entries 69, 70, 71 and 117). -/
def Obligations.PacketFetch : Prop :=
  (∀ (s : State) (n : Fin 32768) (f : CcFault) (m : Option (Fin 5)), s.working = true → s.note n.val ≠ 0 → s.fetchOf n.val = none →
    s.cache.stuck.contains (false, n.val) = false → s.ringWaits n.val = false →
    let r := s.ringLoad unitFetcher n.val f
    (r.2 = none → Found (.ringFetch n f false m) s (r.1.stick false n.val)) ∧
    (∀ x, r.2 = some x → x.kind = 1 → x.state = 0 → s.fetches x.owner = true →
      Found (.ringFetch n f true m) s (r.1.ringError n.val 3) ∧
      (x.sound = false → Found (.ringFetch n f false m) s (r.1.ringError n.val 3)) ∧
      (x.sound = true → x.prod = x.cons ∨ s.ringWaits x.cplRing = true → Found (.ringFetch n f false m) s r.1) ∧
      (x.sound = true → x.prod ≠ x.cons → s.ringWaits x.cplRing = false → let q := r.1.ringLoad unitFetcher x.cplRing f
        ∀ y, q.2 = some y →
        (y.kind ≠ 2 ∨ y.state ≠ 0 → Found (.ringFetch n f false m) s q.1) ∧
        (y.kind = 2 → y.state = 0 → y.sound = false → Found (.ringFetch n f false m) s (q.1.ringError x.cplRing 3)) ∧
        (y.kind = 2 → y.state = 0 → y.sound = true → y.freeSlots ≤ y.out → Found (.ringFetch n f false m) s q.1) ∧
        (y.kind = 2 → y.state = 0 → y.sound = true → y.out < y.freeSlots →
          let t1 := q.1.ringStore unitFetcher n.val (x.setOut (x.out + 1)) f
          let t2 := t1.1.ringStore unitFetcher x.cplRing (y.setOut (y.out + 1)) f
          let s2 := t2.1
          let e : Fetching := { ring := n.val, owner := x.owner, slot := x.cons, size := x.size, base := x.base, home := x.home, prio := x.prio,
                                urgent := x.urgent, words := [], mawBad := m.map Fin.val, done := false, route := none, pushed := 0, packet := s2.serial }
          (t1.2 = false ∨ t2.2 = false → Found (.ringFetch n f false m) s ((s.backTo t2.1).stick false n.val)) ∧
          (t1.2 = true → t2.2 = true → Found (.ringFetch n f false m) s
            (({ s2 with fetching := s2.fetching ++ [e], serial := s2.serial + 1 } : State).fetchAsk e)))))) ∧
  (∀ (s : State) (n : Fin 32768) (f : CcFault) (e : Fetching), s.working = true → s.fetchOf n.val = some e → e.done = true →
    hdrOp (e.words.headD 0) = 0x0E → s.cache.stuck.contains (false, n.val) = false → let r := s.ringLoad unitFetcher n.val f
    (r.2 = none → Found (.opFence n f) s (r.1.stick false n.val)) ∧
    (∀ x, r.2 = some x →
      (x.out = 1 → s.ringWaits n.val = false → Found (.opFence n f) s (r.1.fetchEnds e stOk 0 false)) ∧
      (x.out ≠ 1 ∨ s.ringWaits n.val = true → Found (.opFence n f) s r.1)))

/-- R198 to R200, R212: with no perturbation in the way, the next word of the packet offered to an intake is committed, the last one
making the packet visible; an intake without room refuses it, and an uncorrectable word rewinds the packet. The dispatcher takes
the next visible packet and the lowest free handle, its words leaving the intake.
Where the rules leave room, the readings are the model's (log entries 28, 31 and 71). -/
def Obligations.IntakeMoves : Prop :=
  ∀ (s : State) (c : Fin 16) (urgent : Bool), s.working = true → s.clusterUp c.val = true →
    (∀ e, s.offered c.val urgent = some e → s.opportunity (clA c.val 0) 0 = (s, []) → (s.cluster c.val).quillDead = false →
      let k := (s.cluster c.val).intake urgent
      let s1 := s.modIntake c.val urgent (fun k => { k with skip := false })
      (k.room urgent (decide (e.pushed = 0)) = false → Found (.intakePush c urgent .clean) s s) ∧
      (k.room urgent (decide (e.pushed = 0)) = true → (k.skip = false ∨ e.pushed = 0) → s.orphan c.val urgent e = false →
        Found (.intakePush c urgent .clean) s (s1.intakeCommit c.val urgent e) ∧
        Found (.intakePush c urgent .uncorrectable) s
          ((s1.intakeUncorr c.val urgent k.words.length).intakeRewind c.val urgent e)) ∧
      (k.room urgent (decide (e.pushed = 0)) = true → k.skip = true → e.pushed ≠ 0 →
        Found (.intakePush c urgent .clean) s (s.intakeSkip c.val e))) ∧
    (∀ w h, s.popNext c.val = some (urgent, w) → s.lowHandle c.val = some h →
      let ws := (((s.cluster c.val).intake urgent).words.filter (fun v => v.packet = w.packet)).map (·.bits)
      let s1 := s.modIntake c.val urgent (fun k => { k with words := k.words.filter (fun v => v.packet ≠ w.packet) })
      Found (.intakePop c .clean) s (s1.dispatchPacket c.val h w ws) ∧
      Found (.intakePop c .uncorrectable) s ((s1.intakeUncorr c.val urgent 0).refusePacket c.val h w (packetOf ws) 0x13)) ∧
    (s.popNext c.val = none ∨ s.lowHandle c.val = none → Yields (.intakePop c .clean) s s)

/-- R201, R227, R262, R364: a write of CL_INTAKE_FLUSH.BULK or URGENT discards the packets of that intake, one write with both bits those of
both; a CLEAR of a histogram's select register zeroes each of its buckets. -/
def Obligations.FlushAndClear : Prop :=
  ∀ (s : State) (a : RpAcc),
    (∀ c : Fin 16, let A := clA c.val Reg.CL_INTAKE_FLUSH
      let u := s.accepting A a
      (bit a.data 0 = true → bit a.data 1 = false → Writes (.intakeFlushBulk c a) s A a (u.flush c.val false none)) ∧
      (bit a.data 0 = false → bit a.data 1 = true → Writes (.intakeFlushUrgent c a) s A a (u.flush c.val true none)) ∧
      (bit a.data 0 = true → bit a.data 1 = true → let v := (u.flush c.val false none).flush c.val true none
        Writes (.intakeFlushBulk c a) s A a v ∧ Writes (.intakeFlushUrgent c a) s A a v) ∧
      (bit a.data 0 = false → Writes (.intakeFlushBulk c a) s A a u) ∧ (bit a.data 1 = false → Writes (.intakeFlushUrgent c a) s A a u)) ∧
    (bit a.data 31 = true → ∀ c A B n,
      ((∃ g : Fin 128, c = .latHistClear g a ∧ A = lnA g.val Reg.LN_LAT_SEL ∧ B = lnA g.val Reg.LN_LAT_HIST ∧ n = 16) ∨
       (∃ g : Fin 128, c = .gbHistClear g a ∧ A = lnA g.val Reg.LN_GB_SEL ∧ B = lnA g.val Reg.LN_GB_HIST ∧ n = 32) ∨
       (c = .ptHistClear a ∧ A = Reg.PT_HIST_SEL ∧ B = Reg.PT_HIST ∧ n = 16)) →
      ∃ u : State, Writes c s A a u ∧ ((s.accepting A a).canon = true → ∀ i, i < n → u.regAt (winKey B i) = 0))

/-! ### The Context Cache -/

/-- R320: a maintenance write is refused with BUSY (1) while another runs or the cache drains, and INVAL_ALL also while it is enabled;
a range past the store is refused with RANGE (2); else it is under way until MAINT_DONE, and visits each cached line of its range
(each line of the cache for INVAL_ALL) but those that a miss register is filling, for which it waits (R321); PRELOAD_LOCK waits for every line
of its range and begins with those that need no fill or find a free register, after a way of their sets that its lookups find in parity
error has been dropped (R330).
Where the rules leave room, the readings are the model's (log entries 47 and 124). -/
def Obligations.CacheMaintenance : Prop :=
  ∀ (s : State) (a : RpAcc) (c : Instr) (op : Nat) (bad : Option (Fin 32768)), let A := Reg.CC_MAINT
    let u := s.accepting A a
    let r := u.ccRange
    let all := op = 6
    let inR (t : Nat) : Bool := decide (all ∨ (r.1 ≤ t ∧ t < r.1 + r.2))
    let waits := if op = 4 then (List.range r.2).map (· + r.1) else u.cache.filling.filter inR
    let p := if op = 4 then u.preloadFind bad else u
    let v : State := { (p.setReg Reg.CC_MAINT_STAT 0) with cache := { p.cache with job := some { op := op, asked := [], waits := waits } } }
    let busy := u.cache.job.isSome = true ∨ u.cache.st = .draining ∨ (all ∧ u.cache.st = .enabled)
    ((c = .ccClean a ∧ op = 1) ∨ (c = .ccInvalidate a ∧ op = 2) ∨ (c = .ccCleanInvalidate a ∧ op = 3) ∨ (c = .preloadLock a bad ∧ op = 4) ∨
      (c = .unlock a ∧ op = 5) ∨ (c = .invalAll a ∧ op = 6)) → fld a.data 2 0 = op →
    (busy → Writes c s A a (u.modReg Reg.CC_MAINT_STAT (fun w => putFld w 1 0 1))) ∧
    (¬ busy → ¬ all → u.ccSize < (r.1 + r.2) * 128 → Writes c s A a (u.modReg Reg.CC_MAINT_STAT (fun w => putFld w 1 0 2))) ∧
    (¬ busy → (all ∨ (r.1 + r.2) * 128 ≤ u.ccSize) →
      (op = 4 → Writes c s A a v.jobWaits) ∧
      (op ≠ 4 → Writes c s A a (((v.cache.tags.filter inR).filter (fun t => !waits.contains t)).foldl (fun t tag => t.visit op tag) v)))

/-- R323 to R325: EN = 1 enables a disabled cache after a completed INVAL_ALL and else sets NEED_INVAL, and withdraws a drain that is
pending; EN = 0 drains an enabled cache, or leaves the drain pending while an operation runs. MAINT_DONE ends the operation once every line
is visited and every status is in, with source 5 of the page, INVAL_ALL setting INVAL_DONE; DRAIN_DONE disables the cache and clears
INVAL_DONE. R316, R318, R327, R328: an arrived fill is applied to its register, a returned status to its victim entry; once RETRY_US has
passed, a retry issues every failed write-back but a poisoned line's (R329), every held doorbell lookup and every held update of a ring again;
without an answer, and before RETRY_US, nothing changes.
Where the rules leave room, the readings are the model's (log entries 10 and 47). -/
def Obligations.CacheWork : Prop :=
  ((∀ (s : State) (a : RpAcc), let A := Reg.CC_CTL
     let u := s.accepting A a
     (bit a.data 0 = true →
       (u.cache.st = .disabled → u.cache.invalDone = true → Writes (.ccEnable a) s A a { u with cache := { u.cache with st := .enabled } }) ∧
       (u.cache.st = .disabled → u.cache.invalDone = false → Writes (.ccEnable a) s A a
         (u.setReg Reg.CC_STAT (u.regAt Reg.CC_STAT ||| 0x10#32))) ∧
       (u.cache.st = .draining → Writes (.ccEnable a) s A a (u.setReg Reg.CC_STAT (u.regAt Reg.CC_STAT ||| 0x10#32))) ∧
       (u.cache.st = .enabled → Writes (.ccEnable a) s A a { u with cache := { u.cache with drainPend := false } })) ∧
     (bit a.data 0 = false →
       (u.cache.st = .enabled → u.cache.job.isSome = true → Writes (.ccDisable a) s A a { u with cache := { u.cache with drainPend := true } }) ∧
       (u.cache.st = .enabled → u.cache.job = none → Writes (.ccDisable a) s A a u.drain) ∧
       (u.cache.st ≠ .enabled → Writes (.ccDisable a) s A a u))) ∧
   (∀ (s : State) (j : CcJob), s.awake = true → s.cache.job = some j → j.waits = [] →
     (j.op ≠ 7 → j.writes = [] →
       let u := ({ s with cache := { s.cache with job := none, invalDone := s.cache.invalDone || decide (j.op = 6) } } : State).raise 0x9000 5
       (s.cache.drainPend = false → Yields .maintDone s u) ∧ (s.cache.drainPend = true → Yields .maintDone s u.drain)) ∧
     (j.op = 7 → s.cache.quiet = true → Yields .drainDone s
       (({ s with cache := { s.cache with job := none, st := .disabled, invalDone := false } } : State).raise 0x9000 6)))) ∧
  (∀ s : State, s.awake = true →
     (∀ (r : Fin 17) (m : Miss), Tab.getD (fun _ => (none : Option Miss)) s.cache.miss r.val = some m →
       (∀ x b, m.reply = some (x, b) → Yields (.ccFill r) s (s.fillDone r.val m x b).resume) ∧ (m.reply = none → Yields (.ccFill r) s s)) ∧
     (∀ (i : Fin 32) (v : Victim), s.cache.victims[i.val]? = some v → v.writing = true →
       (∀ x, v.reply = some x → Yields (.ccWritebackStatus i) s (s.wbStatus i.val v x)) ∧ (v.reply = none → Yields (.ccWritebackStatus i) s s)) ∧
     (s.glb.mode ≠ .endgame → ∀ f, let w := atLeast1 (fld (s.regAt Reg.CC_CFG) 31 16) * 100
       let u : State := { s.retryWb with
         glb := { s.retryWb.glb with doorbells := [], owed := [] }, cache := { s.retryWb.cache with retryAt := s.time.toNat, stuck := [] } }
       (s.since s.cache.retryAt < w → Yields (.ccRetry f) s s) ∧
       (w ≤ s.since s.cache.retryAt → Yields (.ccRetry f) s
         (s.glb.owed.foldl (fun t e => t.ringPut e.1 e.2)
           (s.glb.doorbells.zipIdx.foldl (fun t e => t.doorbellTake e.1.1 e.1.2 (if e.2 = 0 then f else .clean) false) u))) ∧
       (∀ (i : Nat) (v : Victim), s.cache.victims[i]? = some v → v.line.poison = true → s.retryWb.cache.victims[i]? = some v)))

/-- R316, R317: an operation whose lookup misses makes that lookup and no more, and waits for its line, one of the register port with its BUSY
at 1; a lookup that can take no register is made again later, and the fill that brings a line lets the operations that wait go on. A
step leaves no lookup half made.
Where the rules leave room, the readings are the model's (log entry 10). -/
def Obligations.LookupsWait : Prop :=
  (∀ s t : State, s.cache.wanted = none → step s = .next t → t.cache.wanted = none) ∧
  (∀ (s : State) (h : Held) (cc : CcFault) (f : CcFault → State → State), s.cache.wanted = none → s.cache.held.any h.after = false →
     ∀ w, (f cc s).cache.wanted = some w →
     (s.ccLook w.1 w.2.1 w.2.2 true = none → s.begins h cc f = s.hold h) ∧
     (∀ u, s.ccLook w.1 w.2.1 w.2.2 true = some u → u.cache.wanted = none → u.cache.served.length ≤ s.cache.served.length →
       s.begins h cc f = u.hold h)) ∧
  (∀ (s : State) (h : Held), (s.hold h).cache.held = s.cache.held ++ [h] ∧
     (s.canon = true → ∀ k, h.busy = some k → bit ((s.hold h).regAt k) 31 = true)) ∧
  (∀ (s : State) (a : RpAcc) (f : CcFault), let A := Reg.DF_MARK_CMD
     let u := s.accepting A a
     s.cache.wanted = none → fld a.data 1 0 = 1 → bit (u.regAt Reg.DF_MARK_STAT) 31 = false →
     ∀ w, (u.markOp 1 f).cache.wanted = some w → u.ccLook w.1 w.2.1 w.2.2 true = none →
       Writes (.markQuery a f) s A a (u.hold (.mark 1))) ∧
  (∀ (s : State) (n : Fin 32768) (f : CcFault) (x : Bool) (m : Option (Fin 5)), s.working = true → s.note n.val ≠ 0 →
     s.fetchOf n.val = none → s.cache.stuck.contains (false, n.val) = false → s.ringWaits n.val = false →
     ∀ w, (s.ringLoad unitFetcher n.val f).2 = none → ((s.ringLoad unitFetcher n.val f).1.stick false n.val).cache.wanted = some w →
       Yields (.ringFetch n f x m) s ((s.ccLook w.1 w.2.1 w.2.2 true).getD s)) ∧
  (∀ (u : State) (h : Held), u.cache.held = [h] →
     u.resume = ({ u with cache := { u.cache with held := [] } } : State).begins h .clean (fun cc v => v.heldRun h cc))

/-- R312, R314 to R319, R326: a lookup past the store is refused with a record; one of a line that a register holds joins it while that
has taken fewer than eight others; else it is served by the way or victim entry that holds the line, or takes a free register, the class
MANAGER only register 16, and asks for the line or, for a store that does not allocate, writes it around; with no register free its unit
waits. A store moves its unit's detector of sequential stores.
Where the rules leave room, the readings are the model's (log entries 10, 47 and 118). -/
def Obligations.CacheLookup : Prop :=
  ∀ (s : State) (off : BitVec 30) (q : CcLookup) (e : CcFault), s.awake = true → s.glb.mode ≠ .endgame →
    s.glb.mode ≠ .opening ∨ 4 ≤ s.glb.phase.code →
    let tag := off.toNat / 128
    let o := off.toNat % 128
    let op : MissOp := { q := q, off := o, inner := false }
    let s0 := if q.bytes = [] then s else s.seqStore q.unit.val tag
    (s.inStore off.toNat 1 = false → Yields (.ccLookup off q e) s (s.blot 0x9000 0x22 none [BitVec.ofNat 32 off.toNat])) ∧
    (s.inStore off.toNat 1 = true → ∀ r m, s.cache.missOf tag = some r → Tab.getD (fun _ => none) s.cache.miss r = some m →
      (m.merges < 8 → Yields (.ccLookup off q e) s
        ((s0.setMiss r (some { m with merged := m.merged ++ [op], stream := m.stream && q.streaming, merges := m.merges + 1 })).count
          Reg.CC_MERGED)) ∧
      (8 ≤ m.merges → Yields (.ccLookup off q e) s s)) ∧
    (s.inStore off.toNat 1 = true → s.cache.missOf tag = none →
      let found := s0.ccFind tag o q.len e
      let t := found.touch tag o q
      let free := s.cache.freeMiss q.manager
      (t.2 ≠ .miss → Yields (.ccLookup off q e) s t.1) ∧
      (t.2 = .miss → free = none → e = .clean → Yields (.ccLookup off q e) s s) ∧
      (∀ k, t.2 = .miss → free = some k → let v := t.1.count Reg.CC_MISSES
        (q.bytes ≠ [] → v.around q.unit.val = true → Yields (.ccLookup off q e) s
          (((v.setMiss k (some { tag := tag, around := true, filling := false, install := false, stream := false, merged := [op],
                                          reply := none, merges := 0 })).hpPush
              (v.linePort tag) (oneBeat (v.lineAddr tag + o) q.bytes 2 (.ccAround k))).count Reg.CC_WRITE_AROUND)) ∧
        (q.bytes = [] ∨ v.around q.unit.val = false → Yields (.ccLookup off q e) s
          ((v.setMiss k (some { tag := tag, around := false, filling := true, install := decide (v.cache.st = .enabled), stream := q.streaming,
                                          merged := [op], reply := none, merges := 0 })).hpPush
            (v.linePort tag) { wr := false, addr := BitVec.ofNat 52 (v.lineAddr tag), len := 1, cls := 2, issuer := .ccFill k, beats := [],
                               dest := 0, off := 0, count := 128 }))))

/-! ### Keys and the seal level -/

/-- R333, R334: LOAD takes the selected slot and the wrapped words, judging orders 1 to 4 at once; its end loads the key that unwraps, or
refuses it with the RESULT of its order, clears KY_WRAP0 to KY_WRAP17 and BUSY; ZEROISE empties the selected slot and
ZEROISE_INST its instance's four. While BUSY is 1 a write of KY_CMD changes nothing.
Where the rules leave room, the readings are the model's (log entry 79). -/
def Obligations.KeyCommands : Prop :=
  (∀ (s : State) (a : RpAcc), let A := Reg.KY_CMD
    let u := s.accepting A a
    let k := u.keySel
    let refuse := if u.keys.sanit.isSome then 1 else if u.fuse.kek.isNone then 2 else if u.keyLoaded k then 3
      else if Tab.getD (fun _ => 0) u.keys.refs k ≠ 0 then 4 else 0
    (bit (u.regAt Reg.KY_RESULT) 31 = true → Writes (.load a) s A a u ∧ Writes (.zeroise a) s A a u ∧ Writes (.zeroiseInst a) s A a u) ∧
    (bit (u.regAt Reg.KY_RESULT) 31 = false →
      (fld a.data 1 0 = 1 → let v := u.setReg Reg.KY_RESULT (u.regAt Reg.KY_RESULT ||| flag true 31)
        Writes (.load a) s A a { v with
          keys := { v.keys with load := some { slot := k, wrap := (List.range 18).map (fun i => u.regAt (Reg.KY_WRAP + 4 * i)), refuse := refuse } } }) ∧
      (fld a.data 1 0 = 2 → Writes (.zeroise a) s A a (u.setKey k none)) ∧
      (fld a.data 1 0 = 3 → ∃ v : State, Writes (.zeroiseInst a) s A a v ∧
        (Tab.rising u.keys.slots = true → ∀ j, v.keyLoaded j = (!decide (j / 4 = k / 4) && u.keyLoaded j))))) ∧
  (∀ (s : State) (l : KeyLoad), s.awake = true → s.keys.load = some l → ∃ t, exec .keyLoadDone s = .next t ∧ t.keys.load = none ∧
    (s.canon = true → l.refuse < 5 → bit (t.regAt Reg.KY_RESULT) 31 = false ∧ (∀ i, i < 18 → t.regAt (Reg.KY_WRAP + 4 * i) = 0) ∧
      (l.refuse ≠ 0 → t.regAt Reg.KY_RESULT = BitVec.ofNat 32 l.refuse ∧ t.keys.slots = s.keys.slots) ∧
      (∀ kek, l.refuse = 0 → s.fuse.kek = some kek →
        t.regAt Reg.KY_RESULT = BitVec.ofNat 32 (unwrapKey kek l.wrap).1 ∧
        t.keys.slots = (match (unwrapKey kek l.wrap).2 with
          | some v => Tab.setD (fun _ => none) s.keys.slots l.slot (some v)
          | none => s.keys.slots))))

/-- R343, R344: a write of KY_SEAL_CMD without the key 0x5EA1, outside SERVICE and THRIFT, or with a sanitize or a raise running, is
REFUSED (1); one of the latched level answers SAME (2); one above it begins a raise with BUSY; one below it begins the sanitize
where every tenant ring is fenced and no command is held, else it answers BUSY (3). Copies that are still being written keep the unit BUSY.
Where the rules leave room, the readings are the model's (log entries 44 and 45). -/
def Obligations.SealRequests : Prop :=
  ∀ (s : State) (a : RpAcc) (f : CcFault) (up : Upset), let A := Reg.KY_SEAL_CMD
    let u := s.accepting A a
    let l := fld a.data 1 0
    let both (v : State) : Prop := Writes (.sealRaise a) s A a v ∧ Writes (.sealLower a f up) s A a v
    let answer (v : State) (r : Nat) : State := v.modReg Reg.KY_SEAL_STAT (fun w => putFld w 10 8 r)
    let free := fld a.data 31 16 = 0x5EA1 ∧ u.serving = true ∧ u.keys.sanit = none ∧ u.keys.job = none ∧
      bit (u.regAt Reg.KY_SEAL_STAT) 31 = false ∧ l < 3
    let w := u.modReg Reg.KY_SEAL_STAT (fun w => putFld w 1 0 l)
    (¬ free → both (answer u 1)) ∧
    (free → l = u.levelNo → both (answer w 2)) ∧
    (∀ h : l < 3, free → u.levelNo < l → Writes (.sealRaise a) s A a (w.sealRaise ⟨l, h⟩) ∧ Writes (.sealLower a f up) s A a w) ∧
    (∀ h : l < 3, free → l < u.levelNo → Writes (.sealRaise a) s A a w ∧
      (let r := w.tenantsFenced f
       ((r.2 = true ∧ w.cmds.all (fun e => e.2.isNone) = true) → Finds (.sealLower a f up) s A a (r.1.sanitBegin ⟨l, h⟩ up)) ∧
       (¬ (r.2 = true ∧ w.cmds.all (fun e => e.2.isNone) = true) → Finds (.sealLower a f up) s A a
         (answer (r.1.modReg Reg.KY_SEAL_STAT (fun w => putFld w 31 31 0)) 3))))

/-- R344, R345: on a lane at an idle point and with no copy being written, the sanitize's next erase of an idle die goes to it as strokes
0x013 and 0x012 of the ROM, one for each of its plane-blocks, when the Ledger
admits it, its cursor past them and KY_SAN_ERASES one more; with every die finished and no erase running the copies are written
again with the lower level; their end latches that level and ends the sanitize with SAN_DONE.
Where the rules leave room, the readings are the model's (log entries 46, 127 and 128). -/
def Obligations.SanitizeRuns : Prop :=
  ∀ (s : State) (z : Sanitize), s.working = true → s.keys.sanit = some z → s.keys.job = none →
    (∀ (g : Fin 128) (d : Fin 64) (f : CcFault), let die := g.val * 64 + d.val
      let r := State.sanitNext die f (s.geo g.val).blocks (Tab.getD (fun _ => 0) z.cursor die) s
      let units := s.unitsOf (s.costTable g.val) .erase
      s.laneUp g.val = true → die ∈ s.sanitDies g.val → s.seqFree g.val d.val = true →
      Tab.getD (fun _ => 0) z.cursor die < s.dieBlocks g.val →
      (r.2 = none → Found (.sanitizeErase g d f) s r.1) ∧
      (r.2 = some [] → Found (.sanitizeErase g d f) s ((r.1.sanitCursor die (s.dieBlocks g.val)).sanitCount die)) ∧
      (∀ b bs, r.2 = some (b :: bs) →
        let q := r.1.ask (s.chargeOf (s.costTable g.val) .erase (bs.length + 1) 0) units 511 (g.val / 64) true
        (q.2 = .admitted → Found (.sanitizeErase g d f) s
          (((q.1.sanitCursor die ((b :: bs).getLastD b + 1)).count Reg.KY_SAN_ERASES).sanStroke die
            { units := units, blocks := b :: bs, left := b :: bs })) ∧
        (q.2 ≠ .admitted → Found (.sanitizeErase g d f) s q.1))) ∧
    (∀ up : Upset, z.running = [] →
      (∀ g ∈ s.laneList, ∀ d ∈ s.sanitDies g, s.dieBlocks (d / 64) ≤ Tab.getD (fun _ => 0) z.cursor d) →
      let w := s.regAt Reg.KY_SAN_PROG
      let u := s.modReg Reg.KY_SAN_SKIP (fun v => satWord (v.toNat + (fld w 13 0 - fld w 29 16)))
      Yields (.sanitizeDone up) s ((u.upset up (u.costTable 0)).sealBegin .after z.target z.target s.regionList)) ∧
    (∀ (u : State) (j : SealJob), j.why = .after → let v := u.sealEnd j
      v.keys.sanit = none ∧ v.keys.job = none ∧ v.glb.level = some j.level ∧
      (u.canon = true → bit (v.regAt 0xD010) 3 = true ∧ fld (v.regAt Reg.KY_SEAL_STAT) 10 8 = 0 ∧ fld (v.regAt Reg.KY_SEAL_STAT) 31 30 = 0))

/-! ### Tenants -/

/-- R383, R384: CREATE turns a FREE instance FENCED; UNFENCE turns a FENCED one without a fenced ring ACTIVE; DESTROY a FENCED one
without rings, held slabs or loaded keys FREE; RESET begins the reset of one that is not FREE while no other is under reset. Each
answers its RESULT with source 2 of the page: DONE 0, BUSY 1, STATE 2, RINGS 3, SLABS 4, KEYS 5. Instance 511 refuses with STATE,
one under reset with BUSY, and in FALLBACK the write changes nothing (R93).
Where the rules leave room, the readings are the model's (log entries 80 and 122). -/
def Obligations.InstanceCommands : Prop :=
  ∀ (s : State) (a : RpAcc) (f : CcFault), let A := Reg.TN_CMD
    let u := s.accepting A a
    let t := fld (u.regAt Reg.TN_SEL) 8 0
    let op := fld a.data 2 0
    let ends (v : State) (r : Nat) : State := (v.setReg Reg.TN_STAT (BitVec.ofNat 32 r)).raise 0xC000 2
    let each (v : State) : Prop := (op = 1 → Writes (.create a) s A a v) ∧ (op = 2 → Writes (.tnReset a f) s A a v) ∧
      (op = 3 → Writes (.unfence a f) s A a v) ∧ (op = 4 → Writes (.destroy a) s A a v)
    let busy := bit (u.regAt Reg.TN_STAT) 31
    (u.glb.mode = .fallback ∨ busy = true → each u) ∧
    (u.glb.mode ≠ .fallback → busy = false → t = 511 → each (ends u 2)) ∧
    (u.glb.mode ≠ .fallback → busy = false → t ≠ 511 → u.tnState t = .resetting → each (ends u 1)) ∧
    (u.glb.mode ≠ .fallback → busy = false → t ≠ 511 → u.tnState t ≠ .resetting →
      (op = 1 → (u.tnState t = .free → Writes (.create a) s A a (ends (u.setTn t .fenced) 0)) ∧
        (u.tnState t ≠ .free → Writes (.create a) s A a (ends u 2))) ∧
      (op = 2 → (u.tenants.resetOf.isSome = true → Writes (.tnReset a f) s A a (ends u 1)) ∧
        (u.tenants.resetOf = none → u.tnState t = .free → Writes (.tnReset a f) s A a (ends u 2)) ∧
        (u.tenants.resetOf = none → u.tnState t ≠ .free → Finds (.tnReset a f) s A a (ends (u.tnResetBegin t (bit a.data 8) f) 0))) ∧
      (op = 3 → (u.tnState t ≠ .fenced → Writes (.unfence a f) s A a (ends u 2)) ∧
        (u.tnState t = .fenced → (u.anyFenced t f).2 = true → Finds (.unfence a f) s A a (ends (u.anyFenced t f).1 3)) ∧
        (u.tnState t = .fenced → (u.anyFenced t f).2 = false → Finds (.unfence a f) s A a (ends ((u.anyFenced t f).1.setTn t .active) 0))) ∧
      (op = 4 → (u.tnState t ≠ .fenced → Writes (.destroy a) s A a (ends u 2)) ∧
        (u.tnState t = .fenced → u.ringsOf t ≠ [] → Writes (.destroy a) s A a (ends u 3)) ∧
        (u.tnState t = .fenced → u.ringsOf t = [] → u.held t ≠ 0 → Writes (.destroy a) s A a (ends u 4)) ∧
        (u.tnState t = .fenced → u.ringsOf t = [] → u.held t = 0 → (∃ k, k < 4 ∧ u.keyLoaded (4 * t + k) = true) → Writes (.destroy a) s A a (ends u 5)) ∧
        (u.tnState t = .fenced → u.ringsOf t = [] → u.held t = 0 → (∀ k, k < 4 → u.keyLoaded (4 * t + k) = false) →
          Writes (.destroy a) s A a (ends (u.destroyed t) 0))))

/-- R390, R391: with every command of the instance under reset ended and no change of its rings waiting, its keys are emptied unless KEEP_KEYS
was set, and the final record is dropped where no event ring is enabled: counted in DROPPED and logged with class TN_SUMMARY (0x27), the
instance becoming FENCED with BUSY at 0 and RESET_DONE set. Where one is enabled the record joins those that wait, is written at once where it
is the next of its port, and its end ends the reset. While a command of the instance is held nothing happens.
Where the rules leave room, the readings are the model's (log entries 80, 122 and 139). -/
def Obligations.ResetEnds : Prop :=
  (∀ (s : State) (t : Nat) (f : CcFault), s.working = true → s.tenants.resetOf = some t →
    let waits := s.cmdsFor t ≠ [] ∨ (s.ringsOf t).any s.ringWaits = true
    let z := if s.tenants.keepKeys then s else s.zeroiseInst t
    (waits → Yields (.resetDone f) s s) ∧
    (¬ waits → s.tenants.closing = false → bit (s.tnCpl 511) 31 = false →
      let u := (z.dropRecord 0xFFFF).resetEnd
      Yields (.resetDone f) s u ∧ u.tenants.resetOf = none ∧ u.tenants.dropped = s.tenants.dropped + 1 ∧
      (Tab.rising s.tenants.st = true → t ≠ 511 → u.tnState t = .fenced) ∧
      (s.canon = true → bit (u.regAt 0xC010) 1 = true ∧ bit (u.regAt Reg.TN_RST_STAT) 31 = false ∧
        fld (u.regAt Reg.TN_RST_STAT) 15 8 = min 255 (fld (s.regAt Reg.TN_RST_STAT) 15 8 + 1)) ∧
      (Tab.rising s.keys.slots = true → ∀ j, u.keyLoaded j = (s.keyLoaded j && (s.tenants.keepKeys || !decide (j / 4 = t))))) ∧
    (¬ waits → s.tenants.closing = false → bit (s.tnCpl 511) 31 = true →
      let r : Ready := { cplRing := fld (s.tnCpl 511) 30 16, subRing := some 0xFFFD, handle := none, port := 0,
                         words := finalWords t s.tenants.written s.tenants.dropped (s.regAt Reg.TN_RST_SEQ).toNat, reserved := false, seen := none }
      let u : State := { z with tenants := { z.tenants with closing := true }, ready := s.ready ++ [r] }
      (u.nextReady 0 = some r → (u.port 0).notifyFree = true → (u.writeReady r f false none).cache.wanted = none →
        Yields (.resetDone f) s (u.writeReady r f false none)) ∧
      ((∀ q, u.nextReady 0 = some q → q.subRing ≠ some 0xFFFD) ∨ (u.port 0).notifyFree = false → s.cache.wanted = none → Yields (.resetDone f) s u)) ∧
    (¬ waits → s.tenants.closing = true → Found (.resetDone f) s (s.finalNow f))) ∧
  (∀ (s : State) (r : Ready), r.subRing = some 0xFFFD → r.handle = none → r.reserved = false →
    s.afterRecord r = { s.resetEnd with ready := s.resetEnd.ready.erase r })

/-! ### The Mover -/

/-- R293, R294, R307 to R310: START makes an IDLE Manager channel fetch the descriptor at MV_CH_DESC, at once where fewer than MAX_OUT
requests are outstanding, STOP stops one that runs, withdrawing its requests that no port presents yet, CLEAR makes
an IDLE or HALTED one IDLE with CAUSE and TRIG_PEND zero, and none of them acts on a pool channel; a write of MV_TMRn restarts its
timer; a write of MV_CH_CFG lands in the shadow and sets PENDING, and one in the cycle of a hand-over, at a boundary or
with a descriptor's fetch, lands after it with SHADOW_LATE.
Where the rules leave room, the readings are the model's (log entry 75). -/
def Obligations.ChannelCommands : Prop :=
  ∀ (s : State) (ch : Fin 64) (a : RpAcc), let n := ch.val
    let A := mvA n Reg.MV_CH_CMD
    let u := s.accepting A a
    let x := u.channel n
    let op := fld a.data 2 0
    (u.isPool n = true → Writes (.start ch a) s A a u ∧ Writes (.stop ch a) s A a u ∧ Writes (.mvClear ch a) s A a u) ∧
    (u.isPool n = false → op = 1 →
      (x.st ≠ .idle ∨ u.glb.mode = .endgame → Writes (.start ch a) s A a u) ∧
      (x.st = .idle → u.glb.mode ≠ .endgame → ∃ v : State, Writes (.start ch a) s A a v ∧ (u.canon = true →
        (let d := BitVec.ofNat 64 ((u.regAt (mvA n Reg.MV_CH_DESC_LO)).toNat + 2 ^ 32 * (u.regAt (mvA n Reg.MV_CH_DESC_HI)).toNat)
         (v.channel n).st = .fetch ∧ (v.channel n).cur = d ∧
         (v.channel n).active = (if u.cfgPending n then u.regAt (mvA n Reg.MV_CH_CFG) else x.active) ∧ v.cfgPending n = false ∧
         (∀ m, m ≠ n → v.channel m = u.channel m) ∧
         (x.out < (v.channel n).maxOut → (v.channel n).out = x.out + 1 ∧ (v.channel n).got = 0 ∧
           v.port (v.channel n).port = ({ u.port (v.channel n).port with
             queue := (u.port (v.channel n).port).queue ++ [hpRead d.toNat 32 (.descriptor n) 0 0] } : Port).present) ∧
         ((v.channel n).maxOut ≤ x.out → (v.channel n).out = x.out ∧ (v.channel n).got = 4 ∧ v.ports = u.ports))))) ∧
    (u.isPool n = false → op = 2 →
      ((x.st = .idle ∨ x.st = .halted ∨ x.st = .stopping) → Writes (.stop ch a) s A a u) ∧
      (x.st ≠ .idle → x.st ≠ .halted → x.st ≠ .stopping → ∃ v : State, Writes (.stop ch a) s A a v ∧ (u.canon = true →
        (let y := ((u.modChannel n (fun z => { z with stop := true })).withdraw (fun r => ofChannel n r.issuer)).channel n
         (y.out ≠ 0 → v.channel n = { y with st := .stopping }) ∧
         (y.out = 0 → v.channel n = { y with st := .idle, cause := 7, stop := false, chain := [], buffer := [], issued := 0 })) ∧
        (∀ p, p < 4 → ∀ r ∈ (v.port p).queue.drop (v.port p).shown, ofChannel n r.issuer = false)))) ∧
    (u.isPool n = false → op = 4 →
      ((x.st = .idle ∨ x.st = .halted) →
        Writes (.mvClear ch a) s A a (u.modChannel n (fun y => { y with st := .idle, cause := 0, trigPend := 0 }))) ∧
      (x.st ≠ .idle → x.st ≠ .halted → Writes (.mvClear ch a) s A a u)) ∧
    (∀ k : Fin 8, let B := Reg.MV_TMR + 4 * k.val
      let v := (s.accepting B a).writeRow B false a.data
      Writes (.mvTimerWrite k a) s B a { v with ticks := Tab.setD (fun _ => 0) v.ticks k.val v.time.toNat }) ∧
    (let C := mvA n Reg.MV_CH_CFG
     let S := mvA n Reg.MV_CH_STAT
     let v := s.accepting C a
     let w := v.writeRow C false a.data
     Writes (.mvCfgShadowWrite ch a false) s C a (w.setReg S (w.regAt S ||| 0x100)) ∧
     (v.cfgPending n = true → v.atBoundary n = true → ∃ y : State, Writes (.mvCfgShadowWrite ch a true) s C a y ∧
       (v.canon = true → (y.channel n).active = v.regAt C ∧ bit (y.regAt S) 8 = true ∧ bit (y.regAt S) 9 = true)) ∧
     ((v.channel n).handAt = some v.time.toNat → ∃ y : State, Writes (.mvCfgShadowWrite ch a true) s C a y ∧
       (v.canon = true → bit (y.regAt S) 8 = true ∧ bit (y.regAt S) 9 = true)))

/-- R294 to R301, R307 to R310: the lowest free pool channel takes the oldest command of a port with a channel to spare; a channel
issues its next request, a descriptor's fetch included, while fewer than MAX_OUT are outstanding; an arrived descriptor is checked and runs, waits for its trigger
or halts its channel; a timer's tick is counted on the channels that choose it; a channel at a boundary takes its shadow
configuration.
Where the rules leave room, the readings are the model's (log entries 75 and 76). -/
def Obligations.ChannelWork : Prop :=
  (∀ (s : State) (ch p c h k : Nat) (x : Cmd), s.working = true → (List.range 64).find? (fun ch => s.isPool ch && (s.channel ch).cmd.isNone) = some ch →
    s.takePort = some (p, c, h, k) → let u := (s.modPort p (fun q => { q with moverQ := q.moverQ.drop 1 })).castleCh ch
    u.cmd? c h = some x →
    Yields .channelTake s ((u.modCmd c h (fun y => if y.pkt.opcode = 2
        then { y with counts := List.replicate y.frames.length (4096 + if x.pkt.metaAddr = 0 then 0 else 40) } else { y with stage := .moving })).modChannel ch
      (fun q => { q with st := .active, cmd := some (c, h, x.serial), port := p, chain := x.descs, issued := 0, stop := false }))) ∧
  (∀ (s : State) (ch : Fin 64) (poison : Ecc) (tag : Bool), let x := s.channel ch.val
    s.awake = true → s.glb.mode ≠ .endgame → x.stop = false → x.st = .active ∨ (x.st = .fetch ∧ x.got = 4) → x.out < x.maxOut → (x.cmd = none ∨ s.running = true) →
    (let o := s.opportunity (mvA ch.val 0) 0
     Yields (.moverRequest ch poison true tag) s (o.1.mvResidue ch.val) ∧
     (fired o.2 11 = none →
       (x.cmd = none → x.st = .fetch → Yields (.moverRequest ch poison false tag) s (o.1.descPush ch.val)) ∧
       (x.cmd = none → x.st = .active → Yields (.moverRequest ch poison false tag) s (o.1.chanRequest ch.val)) ∧
       (∀ c h ser, x.cmd = some (c, h, ser) → Yields (.moverRequest ch poison false tag) s (o.1.poolRequest ch.val c h ser poison tag))))) ∧
  (∀ (s : State) (ch : Fin 64), let x := s.channel ch.val
    s.awake = true → s.glb.mode ≠ .endgame → x.st = .fetch → x.stop = false →
    (x.got = 2 → Yields (.descriptorFetch ch) s (s.chanHalt ch.val 1)) ∧ (x.got ≠ 1 → x.got ≠ 2 → Yields (.descriptorFetch ch) s s) ∧
    (x.got = 1 → descBad x.descNat (fld x.active 19 16) = true → Yields (.descriptorFetch ch) s (s.chanHalt ch.val 2)) ∧
    (x.got = 1 → descBad x.descNat (fld x.active 19 16) = false → ∃ v : State, Yields (.descriptorFetch ch) s v ∧ (s.canon = true →
      (let d := descOf x.descNat
       (v.channel ch.val).chain = [d] ∧ (v.channel ch.val).issued = 0 ∧
       (d.trig = false → (v.channel ch.val).st = .active ∧ (v.channel ch.val).trigPend = x.trigPend) ∧
       (d.trig = true → x.trigPend = 0 → (v.channel ch.val).st = .trigWait) ∧
       (d.trig = true → 0 < x.trigPend → (v.channel ch.val).st = .active ∧ (v.channel ch.val).trigPend = x.trigPend - 1))))) ∧
  (∀ (s : State) (n : Fin 8), let w := s.regAt (Reg.MV_TMR + 4 * n.val)
    let due := Tab.getD (fun _ => 0) s.ticks n.val + atLeast1 (fld w 19 0) * 100
    s.awake = true → s.glb.mode ≠ .endgame → bit w 31 = true → due ≤ s.time.toNat →
    Yields (.triggerTick n) s (({ s with ticks := Tab.setD (fun _ => 0) s.ticks n.val due } : State).triggerAll (fun v => decide (fld v 19 16 = n.val + 1)))) ∧
  (∀ (s : State) (ch : Fin 64), s.awake = true → s.atBoundary ch.val = true →
    (s.cfgPending ch.val = false → Yields (.mvCastling ch) s s) ∧
    (s.cfgPending ch.val = true → ∃ v : State, Yields (.mvCastling ch) s v ∧ (s.canon = true →
      (v.channel ch.val).active = s.regAt (mvA ch.val Reg.MV_CH_CFG) ∧ v.cfgPending ch.val = false ∧ ∀ m, m ≠ ch.val → v.channel m = s.channel m)))

/-! ### Signals and vectors -/

/-- R371, R375 to R378, R441: a write of SG_VT_CTL has its fields, and clearing EN closes the window and withdraws the messages not yet
presented, setting MASK withdraws them, and clearing MASK with PEND and EN set arranges one; DB_VEC_MASK does the same to the masks
of an instance's eight vectors; a write of SG_SENSEn discards the latched bits of the sources that enter or leave LEVEL, and no
other; a window whose expiry cycle has come delivers, and no other; a message is presented once no status is awaited; an edge that a present
source shows in its sensed direction wakes the block, and no other. A raise in the cycle of a delivery joins it; one into an open
window counts, and delivers at the threshold. A command's effect latches the edges that it makes on the level sources in their sensed
directions, and no others.
Where the rules leave room, the readings are the model's (log entries 82 and 141). -/
def Obligations.VectorCommands : Prop :=
  (∀ (s : State) (v : Fin 4096) (a : RpAcc), let A := vtA v.val 0
    let u := s.accepting A a
    let old := u.vecCtl v.val
    let new := ((old &&& 0x000000F8#32) ||| (a.data &&& 0xFFFFFF07#32)) &&& ~~~ (a.data &&& 8#32)
    let w := (u.setReg A new).modVec v.val (fun x => { x with bad := x.bad.filter (· ≠ 0) })
    let shut := bit old 0 && !bit new 0
    let mask := !bit old 1 && bit new 1
    let again := bit old 1 && !bit new 1 && bit new 3 && !shut
    let p := if shut then (w.vecShut v.val).vecWithdraw v.val else w
    let q := if mask then p.vecWithdraw v.val else p
    let r := if again then q.vecArrange v.val else q
    s.accepts A a = true →
      ((r.vec v.val).opened = none ∨ (r.vec v.val).count < r.vecThreshold v.val →
        exec (.vectorCtlWrite v a) s = .next (settle s (r.answer false none))) ∧
      ((r.vec v.val).opened ≠ none → r.vecThreshold v.val ≤ (r.vec v.val).count →
        exec (.vectorCtlWrite v a) s = .next (settle s ((r.vecDeliver v.val r.time.toNat).answer false none))) ∧
      (u.canon = true → Tab.rising u.signal.vecs = true →
        r.vecCtl v.val = new ∧ (r.vec v.val).opened = (if shut then none else (u.vec v.val).opened) ∧
        (r.vec v.val).msgs = (if shut || mask then [] else (u.vec v.val).msgs) ++
          (if again && r.vecAligned v.val then [((u.vec v.val).msgPort, (u.vec v.val).msgWaits)] else []) ∧
        (shut || mask → ∀ k, k < 4 → ∀ m ∈ (r.port k).queue.drop (r.port k).shown, m.issuer ≠ .vector v.val))) ∧
  (∀ (s : State) (p : Fin 512) (a : RpAcc), let A := dbA p.val Reg.DB_VEC_MASK
    let u := s.accepting A a
    s.accepts A a = true →
      (u.pageDead p.val = true → exec (.dbVecMaskWrite p a) s = .next (settle s (u.answer false none))) ∧
      (u.pageDead p.val = false → exec (.dbVecMaskWrite p a) s = .next (settle s (((List.range 8).foldl (fun w k =>
        w.vecCtlPut (8 * p.val + k) (putFld (putFld (w.vecCtl (8 * p.val + k)) 3 3 0) 1 1 (fld a.data k k))) u).answer false none)))) ∧
  (∀ (s : State) (n : Fin 8) (a : RpAcc), let A := Reg.SG_SENSE + 4 * n.val
    let u := s.accepting A a
    let w := u.writeRow A false a.data
    s.accepts A a = true → ∃ m : BitVec 128,
      exec (.senseModeWrite n a) s =
        .next (settle s ((w.modSignal (fun g => { g with latched := g.latched &&& ~~~ m })).answer false none)) ∧
      ∀ i, i < 128 → m.getLsbD i = (decide (i / 16 = n.val) &&
        ((decide (fld (u.regAt A) (2 * (i % 16) + 1) (2 * (i % 16)) = 0)) != decide (fld (w.regAt A) (2 * (i % 16) + 1) (2 * (i % 16)) = 0)))) ∧
  (∀ (s : State) (v : Fin 4096) (bad : Option (Fin 5)), s.alive = true → s.pins.warmLow = false → s.glb.mode ≠ .reset → (s.vec v.val).opened.isSome = true →
    (s.vec v.val).expiry ≤ s.time.toNat →
    Yields (.windowExpiry v bad) s ((s.wakeBlock.vecFind v.val bad).vecExpire v.val (s.vec v.val).expiry)) ∧
  (∀ (s : State) (v : Fin 4096), ((s.vec v.val).opened = none ∨ s.time.toNat < (s.vec v.val).expiry) → exec (.windowExpiry v none) s = .next s) ∧
  (∀ (s : State) (v : Fin 4096) (p : Nat) (l : List (Nat × List (Nat × Nat))), s.awake = true → s.glb.mode ≠ .endgame →
    (s.vec v.val).msgs = (p, []) :: l → let u := s.modVec v.val (fun x => { x with msgs := l })
    (s.vecAligned v.val = false → Yields (.vectorMessageWrite v) s u) ∧
    (s.vecAligned v.val = true → Yields (.vectorMessageWrite v) s
      (((u.modPort p (fun q =>
        { q with queue := q.queue ++ [oneBeat (s.vecAddr v.val) (s.vecBytes v.val) 1 (.vector v.val)] }.present)).count (vtA v.val 0x18)).count Reg.SG_VEC_SENT))) ∧
  (∀ (s : State) (n : Fin 128) (up : Bool), s.alive = true → s.pins.warmLow = false → s.signal.blockDozed = true →
    (s.sourceHere n.val = true → s.senses n.val up = true →
      ∃ t : State, Yields (.edgeCatch n up) s t ∧ t.signal.blockDozed = false ∧ t.signal.latched.getLsbD n.val = true) ∧
    (s.sourceHere n.val = false ∨ s.senses n.val up = false → exec (.edgeCatch n up) s = .next s) ∧
    (42 ≤ n.val → n.val < 48 ∨ 54 ≤ n.val → s.sourceHere n.val = false)) ∧
  (∀ (s : State) (v port : Nat) (w : Option (Nat × Nat)), s.vecOn v = true →
    ((s.vec v).opened = none → ∀ all, (s.vec v).closing = some (s.time.toNat, all) →
      s.vecRaise v port w = s.modVec v (fun x => x.joined port s.time.toNat (all ++ w.toList))) ∧
    (∀ t, (s.vec v).opened = some t → s.time.toNat ≤ (s.vec v).expiry → s.vecRaise v port w =
      (let r := s.modVec v (fun x => x.raised port s.time.toNat w)
       if (r.vec v).opened.isSome ∧ r.vecThreshold v ≤ (r.vec v).count then r.vecDeliver v r.time.toNat else r))) ∧
  (∀ (s u : State) (n : Nat), n < 42 → u.glb.mode ≠ .reset → u.signal.blockDozed = false →
    ¬ (s.regs = u.regs ∧ s.pins.holdup = u.pins.holdup) → let rise := !s.source n && u.source n
    let fall := s.source n && !u.source n
    (settle s u).signal.latched.getLsbD n = (u.signal.latched.getLsbD n || (rise && decide (u.sense n = 1 ∨ u.sense n = 3)) ||
      (fall && decide (u.sense n = 2 ∨ u.sense n = 3))))

/-! ### Settings of instances, and repairs -/

/-- R287, R358: a quota that breaks MIN ≤ MAX, exceeds the slabs, or makes the sum of every MIN exceed them is refused with the
page's bit; any other takes effect.
A repair's GO remaps the row that the write names, where its group has it.
Where the rules leave room, the readings are the model's (log entry 87). -/
def Obligations.SettingsWrites : Prop :=
  ∀ (s : State) (a : RpAcc),
    (let u := s.accepting Reg.IW_TN_QUOTA a
     let t := fld (u.regAt Reg.IW_TN_SEL) 8 0
     let low := fld a.data 13 0
     let high := fld a.data 29 16
     let sum := (List.range 512).foldl (fun n i => n + if i = t then low else u.quotaMin i) 0
     ((high < low ∨ u.nSlabs < high ∨ u.nSlabs < sum) → Writes (.quotaWrite a) s Reg.IW_TN_QUOTA a (u.raise 0xA000 4)) ∧
     (low ≤ high → high ≤ u.nSlabs → sum ≤ u.nSlabs →
       Writes (.quotaWrite a) s Reg.IW_TN_QUOTA a (((u.writeRow Reg.IW_TN_QUOTA false a.data).allocPrograms).slabRoom))) ∧
    (let u := s.accepting Reg.SW_REP_ADD a
     let g := fld a.data 30 20
     let r := fld a.data 19 0
     let w := u.writeRow Reg.SW_REP_ADD false a.data
     let v := w.setReg Reg.SW_REP_ADD (w.regAt Reg.SW_REP_ADD &&& 0x7FFFFFFF)
     ((bit a.data 31 = false ∨ v.groupRows g ≤ r) → Writes (.repairAdd a) s Reg.SW_REP_ADD a v) ∧
     (bit a.data 31 = true → r < v.groupRows g → Writes (.repairAdd a) s Reg.SW_REP_ADD a (v.remapRow g r)))

/-! ### The Ledger, selections and completions -/

/-- R397: at a refill unspent credit is banked, the credit is (a − s) × t with a shortfall taken from the reserve, which stays above
−res_max, each instance but the Manager's gets its limit and the limits come off the uses; between refills a write of LG_TN_SHARE
sets that instance's limit from the new share and the last refill's operating credit, and leaves every use. The commands that
waited for the refill are candidates again, and those that wait for MEDIA wait on (R217). -/
def Obligations.LedgerRefills : Prop :=
  (∀ s : State, s.working = true →
    let w := s.regAt Reg.LG_PERIOD
    let a : Int := (s.effAllowance : Nat)
    let standing : Int := (fld w 15 0 : Nat)
    let period : Int := (atLeast1 (fld w 23 16) : Nat)
    let oper := (max 0 (a - standing) * period).toNat
    let banked := min s.resMax (s.ledger.reserve + max 0 s.ledger.credit)
    ∃ t : State, Yields (.ledgerRefill .none) s t ∧
      t.ledger.credit = max 0 ((a - standing) * period) ∧
      t.ledger.reserve = max (if a < standing then banked + (a - standing) * period else banked) (-s.resMax) ∧
      t.ledger.lastRate = oper ∧ (∀ i, i < 511 → t.limOf i = s.share i * oper / 1024) ∧
      (Tab.rising s.ledger.use = true → t.useOf 511 = s.useOf 511 ∧ ∀ i, i < 511 → t.useOf i = s.useOf i - t.limOf i) ∧
      (s.canon = true → ∀ g, (t.lane g).blockWait = false ∧ (t.lane g).tenantWait = [] ∧ (t.lane g).mediaWait = (s.lane g).mediaWait) ∧
      t.cmds = s.cmds ∧ t.regs = s.regs) ∧
  (∀ (s : State) (a : RpAcc), let u := s.accepting Reg.LG_TN_SHARE a
    let t := fld (u.regAt Reg.LG_TN_SEL) 8 0
    let w := u.writeRow Reg.LG_TN_SHARE false a.data
    (t = 511 → Writes (.shareWrite a) s Reg.LG_TN_SHARE a u) ∧
    (t ≠ 511 → ∃ v : State, Writes (.shareWrite a) s Reg.LG_TN_SHARE a v ∧ v.regs = w.regs ∧ v.ledger.use = u.ledger.use ∧
      (Tab.rising u.ledger.lim = true → v.limOf t = w.share t * u.ledger.lastRate / 1024 ∧ ∀ i, i ≠ t → v.limOf i = u.limOf i)))

/-- R204 to R208, R215, R217, R288: a selection tries the lane's choice and ends with an admission, with no candidate left or when the
BLOCK account makes it wait; a zero-filled slab is FREE, and one whose state word fails its parity is retired; a port's next record is
written to its ring, what a command's completion carries being fixed as it is presented (R302), or dropped where the ring does not take it,
and a residue error ends the ring in ERROR (R185); it waits for its port's request channel; the oldest late error whose ring has room is
written in the same way.
Where the rules leave room, the readings are the model's (log entries 54, 64, 66, 120, 121 and 137). -/
def Obligations.SelectAndComplete : Prop :=
  (∀ (s : State) (lane : Fin 128) (f : CcFault) (upset : Upset), let g := lane.val
    s.working = true → s.laneUp g = true → let u := ((s.sealNext g).deferWaiting g).lanePolicy g
    ((u.lane g).blockWait = true → Found (.selection lane f upset) s u) ∧
    ((u.lane g).blockWait = false →
      (u.choose g (u.laneCands g (u.cmdsOn g)) = none → Found (.selection lane f upset) s u) ∧
      (∀ e late n, u.choose g (u.laneCands g (u.cmdsOn g)) = some (e, late) → (u.cmdsOn g).length = n + 1 →
        (let p := u.pickChecks e.1 e.2.2 f
         let r := u.tryPick g e late f upset
         (r.2 = true → Found (.selection lane f upset) s r.1) ∧
         (r.2 = false → Found (.selection lane f upset) s (State.selectLoop g f n .none r.1)) ∧
         (∀ why, p.2.1 = some why → r = (p.1.refuse e.1 e.2.1 e.2.2 why, false)))))) ∧
  (∀ (s : State) (n : Fin 8192), s.awake = true → n.val < s.nSlabs → (s.slab n.val).st = .zeroing →
    Yields (.zeroFillDone n false) s ((s.modSlab n.val (fun x => { Slab.init with retired := x.retired })).allocPrograms.slabRoom)) ∧
  (∀ (s : State) (n : Fin 8192), s.awake = true → n.val < s.nSlabs → (s.cluster (n.val / 512)).dozed = false →
    Yields (.zeroFillDone n true) s (s.slabRetire n.val)) ∧
  (∀ (s : State) (p : Fin 4) (f : CcFault) (res : Bool) (bad : Option (Fin 5)), s.working = true →
    let asks (v : State) (x : Bool) : State := v.modPort p.val (fun q => ({ q with ask := x } : Port).present)
    let writes (res : Bool) (v : State) : Prop := s.cache.wanted = none → v.cache.wanted = none →
      Yields (.completionWrite p f bad none res) s (asks v false)
    (s.nextReady p.val = none → Yields (.completionWrite p f bad none res) s (asks s false)) ∧
    (∀ r, s.nextReady p.val = some r → (s.port p.val).notifyFree = false →
      Yields (.completionWrite p f bad none res) s (asks s true)) ∧
    (∀ r, s.nextReady p.val = some r → (s.port p.val).notifyFree = true → let q := s.ringLoad unitNotify r.cplRing f
      (q.2 = none → writes res (q.1.stick true r.cplRing)) ∧
      (∀ x, q.2 = some x → let taken := x.kind = 2 ∧ (if r.reserved then x.state ≠ 2 else x.state = 0) ∧ (r.subRing = some 0xFFFF → x.out < x.freeSlots)
        (¬ taken → writes res (q.1.dropReady r x)) ∧
        (taken → x.state ≠ 2 → writes true (q.1.ringError r.cplRing 3)) ∧
        (taken → x.state ≠ 2 → x.sound = false → writes false (q.1.ringError r.cplRing 3)) ∧
        (taken → x.sound = true → let u := match r.reserved, r.handle with
            | true, some k => q.1.present (k / 2048) (k % 2048)
            | _, _ => q.1
          let t := u.writeSlot r x (u.readyWords r) f bad
          (t.2 = false → writes false ((s.backTo t.1).stick true r.cplRing)) ∧
          (t.2 = true → r.isSummary = false → r.reserved = false ∨ u.readyCmd r = none → writes false (t.1.afterRecord r)) ∧
          (t.2 = true → r.isSummary = true → r.reserved = false → writes false
            (({ t.1 with tenants := { t.1.tenants with written := t.1.tenants.written + 1 } } : State).afterRecord r)) ∧
          (∀ c, t.2 = true → r.isSummary = false → r.reserved = true → u.readyCmd r = some c →
            writes false ((t.1.countLatency c (u.latency c.seenAt)).afterRecord r)))))) ∧
  (∀ (s : State) (r : Ready) (x : Ctx) (w : BitVec 256) (f : CcFault), x.vecEn = false → (s.writeSlot r x w f none).2 = true →
    ∃ y : Ctx, (∀ k, k < 2 → cw y k = cw x k) ∧ (let u := (s.ringStore unitNotify r.cplRing y f).1
      u.canon = true →
        ((s.writeSlot r x w f none).1).port r.port = (u.port r.port).notify (oneBeat (x.base + 32 * x.prod)
          (leBytes 32 (w.toNat + (if x.pass then 0 else 2 ^ 24))) 1 (.completion r.subRing r.cplRing x.prod)))) ∧
  (∀ (s : State) (f : CcFault) (res : Bool), s.working = true →
    let may (r : Ready) : Bool := s.lateMay r.cplRing && !s.readyWaits r && !s.cache.stuck.contains (true, r.cplRing)
    (s.lateQ.find? may = none → exec (.lateErr f res) s = .next s) ∧
    (∀ r, s.lateQ.find? may = some r →
      let asks (v : State) (x : Bool) : State := v.modPort r.port (fun q => ({ q with ask := x } : Port).present)
      let writes (res : Bool) (v : State) : Prop := s.cache.wanted = none → v.cache.wanted = none → Yields (.lateErr f res) s (asks v false)
      let q := s.ringLoad unitNotify r.cplRing f
      ((s.port r.port).notifyFree = false → Yields (.lateErr f res) s (asks s true)) ∧
      ((s.port r.port).notifyFree = true →
        (q.2 = none → writes res (q.1.stick true r.cplRing)) ∧
        (∀ x, q.2 = some x →
          (x.kind ≠ 2 → writes res (q.1.lateGone r)) ∧
          (x.kind = 2 → x.state = 2 → writes res ((q.1.ringPut r.cplRing (.drop false)).lateGone r)) ∧
          (x.kind = 2 → x.state ≠ 2 → writes true (q.1.ringError r.cplRing 3)) ∧
          (x.kind = 2 → x.state ≠ 2 → x.sound = true → let t := q.1.writeSlot r x r.words f none
            (t.2 = true → writes false (t.1.lateGone r)) ∧ (t.2 = false → writes false ((s.backTo t.1).stick true r.cplRing)))))))

/-! ### Quill programs -/

/-- R157, R158: ADD, ADDI, SUB, AND, OR, XOR, SHLI, SHRI, LUI, LD, JAL and WAITEV write D (Q0 stays zero) and nothing else of the
core's registers; ST writes one data word; the program counter goes to the next word, or to the branch's target; LD and ST outside
the data area fault the core, and WAITEV on an empty queue leaves it where it stands. On a core that does not execute, or whose next word
holds another opcode, none of them does anything; and a perturbation of the Scribe's word or residue faults it in their place (R435, R429).
Where the rules leave room, the readings are the model's (log entries 27, 59 and 107). -/
def Obligations.QuillArithmetic : Prop :=
  ∀ (s : State) (core : Fin 17), s.cache.wanted = none → let c := core.val
    let k := s.core c
    let w := k.word
    let a := k.q (fld w 21 18)
    let b := k.q (fld w 17 14)
    let imm := fld w 13 0
    let simm : Word := BitVec.ofInt 32 (signed 14 imm)
    let next := (k.pc + 1) % 65536
    let target := (BitVec.ofNat 32 k.pc + simm).toNat % 65536
    let p := (s.scribePoint c).1
    let up := s.coreUp c = true ∧ k.executes = true
    let all : List (Instr × Nat) := [(.qAdd core, 0x00), (.qAddi core, 0x01), (.qSub core, 0x02), (.qAnd core, 0x03), (.qOr core, 0x04),
      (.qXor core, 0x05), (.qShli core, 0x06), (.qShri core, 0x07), (.qLui core, 0x08), (.qLd core, 0x09), (.qSt core, 0x0A), (.qBeq core, 0x0B),
      (.qBne core, 0x0C), (.qBltu core, 0x0D), (.qJal core, 0x0E), (.qJr core, 0x0F), (.qWaitev core, 0x10)]
    let leaves (i : Instr) (op : Nat) (u : State) (pc : Nat) (l : List Word) (m : Tab Word) (f : Nat → Word) : Prop :=
      fld w 31 26 = op → ∃ t : State, exec i s = .next t ∧ Alike s t (u.modCore c (fun q => { q with pc := pc })) ∧
        (s.canon = true → Tab.rising k.regs = true → (t.core c).pc = pc ∧ (t.core c).iram = m ∧ (t.core c).events = l ∧
          (∀ n, (t.core c).q n = f n) ∧ (∀ g, g < 128 → t.lane g = s.lane g) ∧ (t.core c).state = k.state)
    let goes (i : Instr) (op : Nat) (pc : Nat) : Prop := leaves i op p pc k.events k.iram k.q
    let sets (i : Instr) (op : Nat) (v : Word) (pc : Nat) : Prop :=
      leaves i op (p.modCore c (fun q => q.setQ (fld w 25 22) v)) pc k.events k.iram (fun n => if n = fld w 25 22 ∧ n ≠ 0 then v else k.q n)
    (∀ e ∈ all, (¬ (up ∧ fld w 31 26 = e.2) → exec e.1 s = .next s) ∧
      (∀ why, up → fld w 31 26 = e.2 → (s.scribePoint c).2 = some why → Found e.1 s (p.coreMeets c why))) ∧
    (up → (s.scribePoint c).2 = none →
      sets (.qAdd core) 0x00 (a + b) next ∧ sets (.qAddi core) 0x01 (a + simm) next ∧ sets (.qSub core) 0x02 (a - b) next ∧
      sets (.qAnd core) 0x03 (a &&& b) next ∧ sets (.qOr core) 0x04 (a ||| b) next ∧ sets (.qXor core) 0x05 (a ^^^ b) next ∧
      sets (.qShli core) 0x06 (a <<< (imm % 32)) next ∧ sets (.qShri core) 0x07 (a >>> (imm % 32)) next ∧
      sets (.qLui core) 0x08 (BitVec.ofNat 32 imm <<< 18) next ∧
      (∀ j, dataWord c (a + simm) = some j →
        sets (.qLd core) 0x09 (Tab.getD (fun _ => 0) k.iram j) next ∧
        leaves (.qSt core) 0x0A (p.modCore c (fun x => { x with iram := Tab.setD (fun _ => 0) x.iram j b })) next k.events
          (Tab.setD (fun _ => 0) k.iram j b) k.q) ∧
      (dataWord c (a + simm) = none →
        (fld w 31 26 = 0x09 → Found (.qLd core) s (p.coreFault c .dataAddress)) ∧
        (fld w 31 26 = 0x0A → Found (.qSt core) s (p.coreFault c .dataAddress))) ∧
      goes (.qBeq core) 0x0B (if a = b then target else next) ∧ goes (.qBne core) 0x0C (if a = b then next else target) ∧
      goes (.qBltu core) 0x0D (if a.toNat < b.toNat then target else next) ∧
      sets (.qJal core) 0x0E (BitVec.ofNat 32 (k.pc + 1)) target ∧ goes (.qJr core) 0x0F (a.toNat % 65536) ∧
      (fld w 31 26 = 0x10 → k.events = [] → Yields (.qWaitev core) s p) ∧
      (∀ e l, k.events = e :: l → leaves (.qWaitev core) 0x10 ((p.modCore c (fun x => { x with events := l })).modCore c
        (fun q => q.setQ (fld w 25 22) e)) next l k.iram (fun n => if n = fld w 25 22 ∧ n ≠ 0 then e else k.q n)))

/-- R159 to R161, R168, R428, R429: CMDRD and MAWROW read the handle's command, zero where there is none; PSET writes a parameter word of
the lane; STRK commits the lane's parameter block and answers the result; DONE, with a status of R205, and DEFER end or pass on a command;
CSRR and CSRW act on the control registers; READY ends the start, the last one START (R85), or is what a reload of the Scribe waits for (R432);
a timer's event enters the queue; an illegal opcode, a data address outside the data area or another cause of R161 or R429 faults the core, a
Quill with the code of its cause; a corrected word of its IRAM counts on its row, and an uncorrectable one qualifies it (R348, R356).
Where the rules leave room, the readings are the model's (log entries 53, 57, 62, 106, 108, 109, 115 and 134). -/
def Obligations.QuillControl : Prop :=
  ∀ (s : State) (core : Fin 17), let c := core.val
    let k := s.core c
    let w := k.word
    let a := k.q (fld w 21 18)
    let b := k.q (fld w 17 14)
    let imm := fld w 13 0
    let p := (s.scribePoint c).1
    let step (u : State) : State := u.modCore c (fun q => { q with pc := (k.pc + 1) % 65536 })
    let ends (i : Instr) (op : Nat) (u : State) : Prop := fld w 31 26 = op → Found i s (step u)
    let sets (v : Word) (u : State) : State := u.modCore c (fun q => q.setQ (fld w 25 22) v)
    let h := handleOf c a
    let g := laneOf c a
    s.coreUp c = true → k.executes = true →
    ((s.scribePoint c).2 = none →
      (p.cmd? h.1 h.2 = none → ends (.qCmdrd core) 0x11 (sets 0 p) ∧ ends (.qMawrow core) 0x12 (sets 0 p) ∧ ends (.qDone core) 0x15 p ∧
        ends (.qDefer core) 0x16 p) ∧
      (∀ x, p.cmd? h.1 h.2 = some x → let m := x.rowMaw (imm % 4)
        ends (.qCmdrd core) 0x11 (sets (p.cmdField x imm) p) ∧
        ends (.qMawrow core) 0x12 (sets (BitVec.ofNat 32 (if imm / 4 % 2 = 1 then (p.geo (mawLane m)).column m else (p.geo (mawLane m)).row m)) p) ∧
        (x.inService = true → statusCodes.contains (fld b 7 0) = true →
          ends (.qDone core) 0x15 ((p.modCmd h.1 h.2 (fun y => { y with quill := some (fld b 7 0), deferred := false })).tableSync x.lane)) ∧
        (statusCodes.contains (fld b 7 0) = false → ends (.qDone core) 0x15 p) ∧
        (x.inService = false → c = 16 → x.stage = .pending → statusCodes.contains (fld b 7 0) = true →
          ends (.qDone core) 0x15 (p.overrunDone h.1 h.2 (fld b 7 0) x)) ∧
        (x.inService = true → p.scribeUp = true → ends (.qDefer core) 0x16
          ((p.modCmd h.1 h.2 (fun y => { y with deferred := true })).toScribe x.lane 1 (h.2 + 2 ^ 11 * (imm % 256)))) ∧
        (x.inService = true → p.scribeUp = false → ends (.qDefer core) 0x16 (p.endOrHold h.1 h.2 stDeferred 0)) ∧
        (x.inService = false → c ≠ 16 ∨ x.stage ≠ .pending → ends (.qDone core) 0x15 p) ∧ (x.inService = false → ends (.qDefer core) 0x16 p)) ∧
      ends (.qPset core) 0x13 (p.modLane g (fun l => { l with params := Tab.setD (fun _ => 0) l.params (imm % 16) b })) ∧
      (let ps := (List.range 16).map (fun n => Tab.getD (fun _ => (0 : Word)) (p.lane g).params n)
       let r := p.strk c g (fld b 10 0) ps
       let q := p.commit g (fld b 10 0) ps false (decide (c = 16))
       ends (.qStrk core) 0x14 (sets (BitVec.ofNat 32 r.2) r.1) ∧ (q.2 ≠ 0 → q.1 = p.castleDue g) ∧
       ((p.core c).state = .rom → p.notOfRom g (fld b 10 0) ps = true → r = (p, 2)) ∧
       ((p.core c).state ≠ .rom ∨ p.notOfRom g (fld b 10 0) ps = false → r = q)) ∧
      (imm % 32 = 1 → ends (.qCsrr core) 0x17 (sets (p.time.setWidth 32) p)) ∧
      (imm % 32 = 4 → ends (.qCsrr core) 0x17 (sets (BitVec.ofNat 32 (min 64 (p.core c).events.length)) p)) ∧
      (4 < imm % 32 → ends (.qCsrr core) 0x17 (sets 0 p)) ∧
      (8 ≤ imm % 32 → imm % 32 ≤ 11 → a ≠ 0 → a.toNat ≤ 65535 → ends (.qCsrw core) 0x18
        (p.modCore c (fun q => { q with timers := Tab.put q.timers (imm % 32 - 8) (p.time.toNat + a.toNat * 100) }))) ∧
      (8 ≤ imm % 32 → imm % 32 ≤ 11 → a = 0 → ends (.qCsrw core) 0x18 (p.modCore c (fun q => { q with timers := Tab.erase q.timers (imm % 32 - 8) }))) ∧
      (c = 16 → imm % 32 = 13 → p.kickBlocked = false → ends (.qCsrw core) 0x18 (p.modCore 16 (fun q => { q with kick := p.time.toNat }))) ∧
      (fld w 31 26 = 0x19 → Found (.qReady core) s (step (p.modCore c (fun q =>
        { q with ready := true, kick := if q.state = .starting then p.time.toNat else q.kick,
                 state := if q.state = .starting ∧ ¬ (c = 16 ∧ p.glb.mode ≠ .opening) then .running else q.state }))).startEnd)) ∧
    (∀ (n : Fin 4) t, Tab.find? k.timers n.val = some t → t ≤ s.time.toNat → Yields (.quillTimer core n) s
      ((s.modCore c (fun q => { q with timers := Tab.erase q.timers n.val })).postTo c (eventWord 5 0 n.val))) ∧
    (∀ why, s.faultMet c why = true → Found (.illegalInstruction core why) s (s.coreMeets c why)) ∧
    (0x1A ≤ fld w 31 26 → s.faultMet c .illegal = true) ∧ (∀ op, op = 9 ∨ op = 10 → fld w 31 26 = op →
      dataWord c (a + BitVec.ofInt 32 (signed 14 imm)) = none → s.faultMet c .dataAddress = true) ∧
    (∀ why, why = .illegal ∨ why = .dataAddress ∨ why = .regParity ∨ why = .residue → s.coreMeets c why = s.coreFault c why) ∧
    s.coreMeets c .iram = (s.coreFault c .iram).uncorrRow (coreGroup c) (k.pc / 32) ∧
    s.coreMeets c (.corrected false) = s.corrected (coreGroup c) (k.pc / 32) ∧
    (c ≠ 16 → s.coreFault c .illegal = s.quillFault c 1 ∧ s.coreFault c .iram = s.quillFault c 2 ∧ s.coreFault c .regParity = s.quillFault c 3 ∧
      s.coreFault c .dataAddress = s.quillFault c 4)

/-! ### Strokes -/

/-- R166, R168, R172, R175: the stroke at the head of a lane's queue runs, waits for room or for the stroke that waits with its CE_N
released, or is dropped where it does not exist, the stroke store's word is uncorrectable (R167), its parameters name no die, its LUN does not
accept it, its command bars it (R271) or another sequence holds the lane, behind which the engine's own reset waits (R177); each element of the stroke that runs, or else of the one that waits, is taken in turn: CMD, CMDP, ADDR, FEAT and DIN drive their
cycles on the bus, a WAIT of at least 50 ns with REL raises CE_N and lets other targets' strokes run, STAT keeps the status byte, CE
selects the target, DOUT takes frames or raw bytes, and END releases the lane and starts the LUN's busy time where it says so.
Data in are the command's encoded frames with the tail of each plane page (R231, R233), or the seal copy's (R341).
Where the rules leave room, the readings are the model's (log entries 5, 55, 56, 78, 109, 112, 113, 114 and 125). -/
def Obligations.StrokeRuns : Prop :=
  (∀ (s : State) (lane : Fin 128) (st : Stroke) (l : List Stroke) (ecc : Ecc), let g := lane.val
    s.laneWork = true → s.laneUp g = true → (s.lane g).run = none → (s.lane g).strokes = st :: l → s.cache.wanted = none →
    let u0 := (s.opportunity (lnA g 0) 0).1
    let u := (u0.strokeFetch g st ecc).1
    let gives (t : State) : Prop := t.cache.wanted = none → exec (.strokeStart lane ecc) s = .next (settle s t)
    let drops := gives (u.dropStroke g st)
    (∀ row, u0.strokeRow g st = some row → let m := 0x181 + 2 * (g / 8)
      u0.strokeFetch g st .corrected = (u0.corrected m row, false) ∧ u0.strokeFetch g st .uncorrectable =
        ((u0.blot (clA (g / 8) 0) 0x18 none [BitVec.ofNat 32 (g / 8), BitVec.ofNat 32 st.id]).uncorrRow m row, true)) ∧
    u0.strokeFetch g st .clean = (u0, false) ∧
    ((u0.strokeFetch g st ecc).2 = true → drops) ∧
    ((u0.strokeFetch g st ecc).2 = false → (u.strokeEntry g st = none → drops) ∧
      (∀ e, u.strokeEntry g st = some e → let accepts := u.classOk g (pDie st.params) e.cls true
        let fits := u.paramOk g st.params = true ∧ accepts = true
        let open_ := (s.lane g).mpAdmits (pDie st.params) e.cls = false
        let refused := st.byBlock = false ∧ u.barred g (some e) st.params = true
        ((s.lane g).besides st e = false → exec (.strokeStart lane ecc) s = .next s) ∧
        ((s.lane g).besides st e = true → s.glb.mode = .endgame → accepts = false → exec (.strokeStart lane ecc) s = .next s) ∧
        ((s.lane g).besides st e = true → s.glb.mode ≠ .endgame →
          (¬ fits ∨ refused → drops) ∧
          (fits → ¬ refused → open_ → ¬ (st.byBlock = true ∧ e.cls = 8) → drops) ∧
          (fits → st.byBlock = true → e.cls = 8 → open_ → gives (s.modLane g (fun q => { q with strokes := l ++ [st] }))) ∧
          (fits → ¬ refused → ¬ open_ → u.roomFor g st e = true → gives (u.beginStroke g st e) ∧
            (e.cls ≠ 8 → u.cache.wanted = none → (u.beginStroke g st e).cache.wanted = none)) ∧
          (fits → ¬ refused → ¬ open_ → u.roomFor g st e = false → exec (.strokeStart lane ecc) s = .next s))))) ∧
  (∀ (s : State) (lane : Fin 128) (r : Running) (w : Word) (l : List Word), let g := lane.val
    s.laneWork = true → s.laneUp g = true → r.elems = w :: l →
    ((s.lane g).run = some r ∨ ((s.lane g).run = none ∧ (s.lane g).waiting = some r)) →
    let p := r.stroke.params
    let u := s.modLane g (fun q =>
      { q with run := some { r with elems := l }, waiting := if q.run.isSome then q.waiting else none,
               ceLow := if q.run.isSome then q.ceLow else some (fld (pw p 0) 3 0) })
    let gives (i : Instr) (t : State) : Prop := exec i s = .next (settle s t)
    let drives (t : State) (cycles : List BusCycle) : State := t.modLane g (fun q => { q with bus := q.bus ++ cycles })
    (fld w 31 28 = 1 → gives (.elCmd lane) (drives u [.cmd (byteAt w 0)])) ∧
    (fld w 31 28 = 2 → gives (.elCmdp lane) (drives u [.cmd (byteAt (pw p (fld w 3 0)) (fld w 5 4))])) ∧
    (fld w 31 28 = 3 → (fld w 1 0 = 0 → gives (.elAddr lane) (drives u ((leBytes (u.geo g).colC (pw p 2).toNat).map .addr))) ∧
      (fld w 1 0 = 1 → gives (.elAddr lane) (drives u ((leBytes (u.geo g).rowC (pw p 1).toNat).map .addr))) ∧
      (fld w 1 0 = 2 → gives (.elAddr lane) (drives u [.addr (byteAt (pw p 5) 0)])) ∧
      (fld w 1 0 = 3 → gives (.elAddr lane) (drives u [.addr (byteAt w 1)]))) ∧
    (fld w 31 28 = 6 → let t := drives u ((leBytes 4 (pw p 4).toNat).map .dataIn)
      (fld (pw p 5) 7 0 = fld (s.regAt (lnA g Reg.LN_RL_FEAT)) 7 0 → gives (.elFeat lane) (t.modLun g (pDie p) (fun v => { v with featNew := some (pw p 4) }))) ∧
      (fld (pw p 5) 7 0 ≠ fld (s.regAt (lnA g Reg.LN_RL_FEAT)) 7 0 → gives (.elFeat lane) t)) ∧
    (fld w 31 28 = 7 → let released := bit w 20 && decide (fld w 19 16 ≠ 0 ∨ 50 ≤ fld w 15 0) && (u.lane g).waiting.isNone
      (released = true → gives (.elWait lane) (u.modLane g (fun q => { q with waiting := q.run, run := none, ceLow := none }))) ∧
      (released = false → gives (.elWait lane) u)) ∧
    (∀ b, fld w 31 28 = 8 → gives (.elStat lane b) ((drives u [.dataOut b]).modLane g (fun q => { q with run := q.run.map (fun k => { k with status := b }) }))) ∧
    (fld w 31 28 = 9 → gives (.elCe lane) (u.modLane g (fun q => { q with ceLow := if bit w 0 then some (fld (pw p 0) 3 0) else none }))) ∧
    (∀ fs raw ecc byte, fld w 31 28 = 4 →
      (bit w 4 = true → gives (.elDout lane fs raw ecc byte) ((drives (u.takeRaw g (pHandle p) (fld w 15 5) raw)
        ((rawBytes (fld w 15 5) raw).map .dataOut)).calBytes g (fld w 15 5))) ∧
      (bit w 4 = false → gives (.elDout lane fs raw ecc byte) (u.frameBurst g r (elemFrames w p) fs ecc byte.val)) ∧
      (∀ f, bit w 4 = false → elemFrames w p = 1 → (r.cls = 3 → u.lastAsked g p (r.moved + 1) = false) →
        gives (.elDout lane [f] raw ecc byte)
          (((drives (u.takeFrame g (pHandle p) p r.moved f (ecc.getD 0 .clean) byte.val) ((leBytes 4672 f.toNat).map .dataOut)).modLane g
            (fun q => { q with run := q.run.map (fun k => { k with moved := k.moved + 1 }) })).calBytes g 4672))) ∧
    (∀ ecc, fld w 31 28 = 5 → let h := pHandle p
      let n := elemFrames w p
      let more (t : State) : State := t.modLane g (fun q => { q with run := q.run.map (fun k => { k with moved := k.moved + n }) })
      (r.stroke.seq = true → gives (.elDin lane ecc) (more (drives u ((u.copyBytes g n r.stroke.fill).map .dataIn)))) ∧
      (r.stroke.seq = false → u.cmd? (g / 8) h = none → gives (.elDin lane ecc) u) ∧
      (r.stroke.seq = false → ∀ y, u.cmd? (g / 8) h = some y →
        let ks := (List.range n).filterMap (fun i => u.frameIndex g { y with destPart := true } p (r.moved + i))
        let v := ks.zipIdx.foldl (fun (x : State) e => x.slabRead (y.slabs.getD e.1 0) 0 4160 (ecc.getD e.2 .clean)) u
        let t := more (u.sendFrames g h y r.stroke.fill ks ecc)
        gives (.elDin lane ecc) t ∧
        (s.canon = true → (∃ z, t.cmd? (g / 8) h = some z ∧ z.begun = true ∧ z.pkt = y.pkt) ∧
          (t.lane g).bus = (s.lane g).bus ++
            (ks.flatMap (fun k => leBytes 4672 (v.sentFrame g y k).toNat ++ v.tailBytes g y r.stroke.fill k)).map .dataIn ∧
          ∃ k, (t.lane g).run = some k ∧ k.moved = r.moved + n ∧ k.elems = l))) ∧
    (fld w 31 28 = 0 → ∃ t : State, exec (.elEnd lane) s = .next t ∧ (s.canon = true → Tab.rising (s.lane g).luns = true → s.glb.mode ≠ .endgame → (s.glb.mode = .opening → s.keys.job = none) →
      (t.lane g).run = none ∧ (t.lane g).ceLow = none ∧ ((t.lane g).lun (pDie p)).busy = (bit w 0 || ((s.lane g).lun (pDie p)).busy) ∧
      (bit w 0 = true → ((t.lane g).lun (pDie p)).busyClass = fld w 2 1 ∧ ((t.lane g).lun (pDie p)).busyAt = s.time.toNat ∧
        (r.cls = 5 → r.cont = false → ((t.lane g).lun (pDie p)).state = .eraseBusy)))))

/-- R155, R176, R177, R181: a status byte of a busy LUN, by a poll or once by RB_N, driven by STATUS or STATUS_ENH with the LUN's row, makes it ready or not; a read that became ready
leaves the LUN idle with data pending; a LUN still busy at its class's limit is given up with TIMEOUT; one that stays in SUSPENDING
past its limit raises the page's bit and record, once, and is passed to the Scribe.
Where the rules leave room, the readings are the model's (log entries 56, 63 and 126). -/
def Obligations.BusyLuns : Prop :=
  ∀ (s : State) (lane : Fin 128) (die : Fin 64) (f : CcFault), let g := lane.val
    let u := (s.lane g).lun die.val
    s.working = true → s.laneUp g = true →
    (∀ status : Byte, s.laneWork = true → (s.lane g).run = none → (s.lane g).waiting = none → u.busy = true → let b := s.pollByte g status
      let q := s.geo g
      let read := b.1.modLane g (fun l => { l with bus := (if q.luns = 1 then [.cmd 0x70] else
        .cmd 0x78 :: (leBytes q.rowC ((die.val % 4) <<< (q.pb + q.bb))).map .addr) ++ [.dataOut b.2] })
      (s.rbInUse g = false → Found (.busyPoll lane die status f) s ((read.lunStatus g die.val b.2 f true).calInsert g)) ∧
      (s.rbInUse g = true → Found (.rbReady lane die status f) s ((read.lunStatus g die.val b.2 f false).calInsert g)) ∧
      (∀ timed, s.glb.mode ≠ .endgame → s.canon = true → Tab.rising (s.lane g).luns = true → u.state = .readBusy → u.overrun = false →
        readyStatus u.busyClass b.2 = true → s.seqOwns g die.val = false → let v := ((read.lunStatus g die.val b.2 f timed).lane g).lun die.val
        v.state = .idle ∧ v.pendData = true ∧ v.busy = false)) ∧
    (u.busy = true → s.rbInUse g = true → s.busyLimit g u.busyClass ≤ s.since u.busyAt → Found (.rbBusyTimeout lane die f) s (s.busyTimeout g die.val f)) ∧
    (u.state = .suspending → u.overrun = false → 1000 * atLeast1 (fld (s.suspCtl g) 15 8) < s.since u.suspAt →
      let v := ((s.raise (lnA g 0) 5).blot (lnA g 0) 0x1A none [BitVec.ofNat 32 g, BitVec.ofNat 32 die.val]).modLun g die.val (fun q => { q with overrun := true })
      (s.scribeUp = true → Yields (.suspOverrun lane die) s (v.toScribe g 7 (lunBits die.val))) ∧
      (s.scribeUp = false → Yields (.suspOverrun lane die) s v)) ∧
    (u.overrun = true → exec (.suspOverrun lane die) s = .next s)

/-! ### The ends of commands -/

/-- R160, R192, R244, R249, R271 to R279, R290, R291, R302: a command whose Quill's part has not ended stays; with a status other than OK it ends with that
once nothing of it is left; otherwise a read ends with its data path's status, a blank check with its class, a program or an erase
with its media result, a copy goes to its destination, and any other with the status of its Quill. The check of a program before its claim
goes on until every frame of it has been counted (R440).
Where the rules leave room, the readings are the model's (log entries 29, 30, 42, 52 and 140). -/
def Obligations.CommandEnds : Prop :=
  ∀ (s : State) (cl : Fin 16) (h : Fin 2048) (x : Cmd) (f : CcFault), let c := cl.val
    let n := h.val
    s.cmd? c n = some x → s.working = true → s.clusterUp c = true → x.stage ≠ .ready → x.discard = false →
    let op := x.pkt.opcode
    let reads (u : State) : Prop := (op = 1 → Found (.opRead cl h) s u) ∧ (op = 0x0C → Found (.opRawRead cl h) s u)
    let plain (u : State) : Prop := (op = 8 → Found (.opGetFeature cl h) s u) ∧ (op = 9 → Found (.opSetFeature cl h) s u) ∧
      (op = 0x0B → Found (.opResetDie cl h) s u)
    let writes (u : State) : Prop := (op = 2 → x.stage ≠ .pending → x.verifying = false → Found (.opProgram cl h f) s u) ∧
      (op = 3 → x.stage ≠ .pending → Found (.opErase cl h) s u) ∧ (op = 4 → x.stage ≠ .pending → x.destPart = true → Found (.opCopy cl h) s u)
    (x.quill = none → reads s ∧ plain s ∧ writes s ∧ (op = 0x0D → Found (.opPatrolSample cl h) s s) ∧ (op = 5 → Found (.opBlankCheck cl h) s s) ∧
      (op = 0x0A → Found (.opIdentify cl h) s s) ∧ (op = 4 → x.destPart = false → Found (.opCopy cl h) s s)) ∧
    (∀ st, x.quill = some st → plain (s.finish c n st x.detail.toNat)) ∧
    (∀ st, x.quill = some st → st ≠ stOk →
      (op = 0x0A → Found (.opIdentify cl h) s (s.complete c n st x.detail.toNat)) ∧ (op = 5 → Found (.opBlankCheck cl h) s (s.finish c n st x.detail.toNat)) ∧
      (x.framesStill = true → s.onLane x.lane n = false → x.stage ≠ .moving → x.stage ≠ .staged →
        reads (s.complete c n st x.detail.toNat) ∧ (op = 0x0D → Found (.opPatrolSample cl h) s (s.finish c n st x.detail.toNat)) ∧
        (op = 4 → x.stage ≠ .pending → x.destPart = false → Found (.opCopy cl h) s (s.finish c n st x.detail.toNat))) ∧
      (∀ r, x.result = some r → writes (s.finish c n st x.detail.toNat)) ∧
      (x.result = none → s.onLane x.lane n = true → writes s)) ∧
    (x.quill = some stOk →
      (x.allEnded = true → s.dataMoved c x = true →
        (s.anyPoison x = true → reads (s.complete c n stPoison 0)) ∧
        (s.anyPoison x = false → x.frames.any FrameSt.bad = true → reads (s.complete c n stEcc x.eccDetail)) ∧
        (s.anyPoison x = false → x.frames.any FrameSt.bad = false → reads (s.complete c n stOk 0))) ∧
      (x.allEnded = true → x.patrol = false → op = 0x0D →
        (x.frames.any FrameSt.bad = true → Found (.opPatrolSample cl h) s (s.finish c n stEcc x.eccDetail)) ∧
        (x.frames.any FrameSt.bad = false → Found (.opPatrolSample cl h) s (s.finish c n stOk 0))) ∧
      (op = 0x0A → x.stage = .service → s.anyPoison x = false → Found (.opIdentify cl h) s ((s.modCmd c n (fun y => { y with stage := .staged })).toMover c n c)) ∧
      (op = 5 → (s.geo x.lane).frames ≤ (x.planeCounts (mawPlane x.pkt.maw0)).length → let k := s.blankClass (x.planeCounts (mawPlane x.pkt.maw0))
        let u := if k.1 = 1 then s.count (lnA x.lane Reg.LN_BLANK_PARTIAL) else s
        Found (.opBlankCheck cl h) s ((u.modCmd c n (fun y => { y with data := BitVec.ofNat 32 (k.1 + 65536 * k.2) })).finish c n stOk 0)) ∧
      (∀ r, x.result = some r → (op = 3 ∨ r ≠ stOk ∨ s.anyPoison x = false → writes (s.finish c n r (if r = stTimeout then 1 else 0))) ∧
        (op ≠ 3 → r = stOk → s.anyPoison x = true → writes (s.finish c n stPoison 0))) ∧
      (op = 4 → x.stage ≠ .pending → x.destPart = false → x.allEnded = true →
        (s.anyPoison x = true → Found (.opCopy cl h) s (s.finish c n stPoison 0)) ∧
        (s.anyPoison x = false → x.frames.any FrameSt.bad = true → Found (.opCopy cl h) s (s.finish c n stEcc x.eccDetail)) ∧
        (s.anyPoison x = false → x.frames.any FrameSt.bad = false → Found (.opCopy cl h) s (s.toDestination c n x)))) ∧
    (op = 2 → x.stage = .pending → (∀ e, x.dataErr = some e → Found (.opProgram cl h f) s (s.finish c n e.1 e.2)) ∧ (x.dataErr = none → Found (.opProgram cl h f) s s)) ∧
    (op = 2 → x.stage ≠ .pending → x.verifying = true → (x.quill = none → Found (.opProgram cl h f) s s) ∧
      (∀ st, x.quill = some st → st ≠ stOk → Found (.opProgram cl h f) s (s.abort c n st x.detail.toNat)) ∧
      (x.quill = some stOk → Found (.opProgram cl h f) s (s.verifyEnd c n x f)) ∧ (s.verifyCounted x = false → s.verifyEnd c n x f = s)) ∧
    (op = 6 → s.dataMoved c x = true → x.dataErr = none → Found (.opFetch cl h) s (s.finish c n (if s.anyPoison x then stPoison else stOk) 0)) ∧
    (op = 7 → Found (.opRelease cl h) s (s.finish c n (x.quill.getD stOk) 0))

/-! ### Frames -/

/-- R236 to R250, R262, R263, R335, R338: an engine takes the oldest frame that waits for it, an erased frame ends there; a hard decode that fails goes to
soft decoding where SOFT_EN is 1, else to the Gambit walk; a context takes the oldest request and its sensings, under the settings that stand when it decodes; a step of the walk takes its
fields when it starts; a unit is
deciphered or enciphered under its slot's key, or ends with SEALED, also where the read of the slot finds it lost (a COPY's frame from a Manager ring
names its own slot, and fails at the outlet); a frame that its command does not read ends at the HDE (R179); the Scribe's verdict walks a frame
again or fails it.
Where the rules leave room, the readings are the model's (log entries 26, 31, 61, 111, 114 and 129). -/
def Obligations.FrameFlow : Prop :=
  (∀ (s : State) (cl : Fin 16) (k : Fin 2) (ecc : Ecc) (cc : CcFault) (byte : Fin 4672), let c := cl.val
    s.working = true → s.clusterUp c = true → ((s.cluster c).hde k.val).length < 4 →
    let last := if k.val = 0 then (s.cluster c).served0 else (s.cluster c).served1
    let does (u : State) : Prop := Found (.hdePass cl k ecc cc byte) s u
    (s.hdeNext c last = none → exec (.hdePass cl k ecc cc byte) s = .next s) ∧
    (∀ g i sl, s.hdeNext c last = some (g, i, sl) → let u := (s.modCluster c (fun q => q.serve k.val (g % 8))).fifoRead g i ecc byte.val
      let d := u.1.loadFrame (2 * c + k.val) sl.frame
      (u.2 = true → sl.foreign = false → does (u.1.fifoUncorr g sl.handle sl.index cc)) ∧
      (u.2 = true → sl.foreign = true → does (u.1.modLane g (fun l => { l with slots := Tab.erase l.slots i }))) ∧
      (u.2 = false → sl.foreign = true → does (d.1.foreignFrame g i (2 * c + k.val) sl d.2)) ∧
      (u.2 = false → sl.foreign = false →
        ∀ f, d.1.frame? c sl.handle sl.index = some f →
        let limit := fld (s.regAt (rgA (g / 64) Reg.RG_DEC_ERASED)) 15 0
        let enters (v : State) (n : Nat) (again step : Bool) : State :=
          v.modCluster c (fun q => q.setHde k.val (q.hde k.val ++ [⟨g, sl.handle, sl.index, d.2, n, again, step, none⟩]))
        let taken (v : State) : State := (v.modLane g (fun l => { l with slots := Tab.put l.slots i { sl with loaded := true } })).modFrame
          c sl.handle sl.index (fun f => { f with flow := .inHde, pass := f.pass + 1 })
        (f.flow = .inSlot → f.pass = 0 → f.ones = none → let v := d.1.modFrame c sl.handle sl.index (fun f => { f with ones := some (ones sl.frame) })
          (limit ≤ ones sl.frame → does
            ((((v.freeSlot g sl.handle sl.index).modFrame c sl.handle sl.index (fun f => { f with flow := .erased })).count (lnA g Reg.LN_DEC_ERASED)).frameEnd c sl.handle sl.index false .clean)) ∧
          (ones sl.frame < limit → does (taken (enters v (s.iter1 g) false false)))) ∧
        (f.flow = .inSlot → f.pass = 0 → f.ones ≠ none → does (taken (enters d.1 (s.iter1 g) false false))) ∧
        (f.flow = .inSlot → f.pass = 1 → does (taken (enters (d.1.chargeFrame g sl.handle) 20 true false))) ∧
        (f.flow = .gambitSense → does ((enters (d.1.chargeFrame g sl.handle) 20 true true).freeSlot g sl.handle sl.index))))) ∧
  (∀ (s : State) (cl : Fin 16) (k : Fin 2) (h : Fin 2048) (j : Fin 32) (cc : CcFault) (ecc : Ecc) (e : Engine), let c := cl.val
    s.working = true → s.clusterUp c = true → List.find? (fun e => e.handle = h.val && e.frame = j.val) ((s.cluster c).hde k.val) = some e →
    let d := hdeDecode e.refeed e.limit e.bits
    let out : Frame := BitVec.ofNat 37376 d.bits
    let u := (s.modCluster c (fun q => q.setHde k.val ((q.hde k.val).erase e))).decoded (2 * c + k.val) d (ones (out ^^^ e.bits))
    let v := u.outletSlab c e.handle e.frame ecc
    let does (t : State) : Prop := Found (.hdeDone cl k h j cc ecc) s t
    (d.ok = true → e.gambit = false → does (v.outlet e.lane e.handle e.frame out e.bits cc)) ∧
    (d.ok = true → e.gambit = true → does (v.stepDecoded e.lane e.handle e.frame out e.bits cc)) ∧
    (d.ok = false → e.gambit = true → does (u.stepFailed e.lane e.handle e.frame cc)) ∧
    (d.ok = false → e.gambit = false → (e.refeed = true ∨ bit (s.decCtl e.lane) 8 = false) → does (u.hardFailed e.lane e.handle e.frame cc)) ∧
    (∀ i sl, d.ok = false → e.gambit = false → e.refeed = false → bit (s.decCtl e.lane) 8 = true →
      (u.lane e.lane).slotOf e.handle e.frame = some (i, sl) →
      does ((u.modLane e.lane (fun l => { l with slots := Tab.put l.slots i { sl with loaded := false } })).modFrame c e.handle e.frame
        (fun f => { f with flow := .inSlot, redecoded := true })))) ∧
  (∀ (s : State) (g h k : Nat) (cc : CcFault), (s.softEn g = false → s.hardFailed g h k cc = s.toGambit g h k cc) ∧
    (s.softEn g = true → s.hardFailed g h k cc =
      (s.modFrame (g / 8) h k (fun f => { f with flow := .waitSde })).modRegion (g / 64) (fun r => { r with waiting := r.waiting ++ [(g, h, k)] }))) ∧
  (∀ (s : State) (r : Fin 2) (ecc : Ecc) (cc : CcFault) (byte : Fin 4672) (g h k : Nat) (rest : List (Nat × Nat × Nat)) (i n : Nat) (sl : Slot),
    s.working = true → r.val < s.nRegions →
    (s.region r.val).dozed = false → (s.region r.val).waiting = (g, h, k) :: rest → s.freeCtx r.val = some i → (s.lane g).slotOf h k = some (n, sl) →
    let u := (s.modRegion r.val (fun y => { y with waiting := rest })).fifoRead g n ecc byte.val
    let does (t : State) : Prop := Found (.sdeContextGrant r ecc cc byte) s t
    (u.2 = true → does (u.1.fifoUncorr g h k cc)) ∧
    (u.2 = false → n ≠ 14 → let d := u.1.loadFrame (32 + 8 * r.val + i / 4) sl.frame
      let v := ((d.1.setCtx r.val i (some { cluster := g / 8, lane := g, handle := h, frame := k, hard := d.2, soft := [], want := s.softSenses g, gambit := false, ctl := s.decCtl g })).freeSlot g h k).modFrame (g / 8) h k (fun f => { f with flow := .inSde })
      (s.softSenses g = 0 → does v) ∧ (s.softSenses g ≠ 0 → does (v.senseReq g h k 1 0))) ∧
    (u.2 = false → n = 14 → let d := u.1.loadFrame (32 + 8 * r.val + i / 4) sl.frame
      does ((d.1.setCtx r.val i (some
        { cluster := g / 8, lane := g, handle := h, frame := k, hard := d.2, soft := [], want := 0, gambit := true, ctl := s.decCtl g })).freeSlot g h k))) ∧
  (∀ (s : State) (lane : Fin 128) (ecc : Ecc) (cc : CcFault) (byte : Fin 4672) (sl : Slot), let g := lane.val
    s.working = true → s.laneUp g = true → Tab.find? (s.lane g).slots 15 = some sl →
    let rd := s.fifoRead g 15 ecc byte.val
    let u := rd.1.modLane g (fun l => { l with slots := Tab.erase l.slots 15 })
    let does (t : State) : Prop := Found (.softSensingArrival lane ecc cc byte) s t
    (rd.2 = true → does (u.softUncorr g sl cc)) ∧
    (rd.2 = false → (u.region (g / 64)).ctx = [] → does u) ∧
    (∀ i x, rd.2 = false → (u.region (g / 64)).ctx = [(i, some x)] → x.lane = g → x.handle = sl.handle → x.frame = sl.index →
      let v := u.setCtx (g / 64) i (some { x with soft := x.soft ++ [sl.frame], ctl := u.decCtl g })
      (x.soft.length + 1 < x.want → does (v.senseReq g sl.handle sl.index 1 0)) ∧
      (x.want ≤ x.soft.length + 1 → does v))) ∧
  (∀ (s : State) (r : Fin 2) (i : Fin 32) (cc : CcFault) (x : SdeCtx), s.working = true → r.val < s.nRegions →
    Tab.getD (fun _ => none) (s.region r.val).ctx i.val = some x → x.want ≤ x.soft.length →
    let d := sdeDecode x.hard x.soft (atLeast1 (fld x.ctl 29 28)) (fld x.ctl 25 24) (min 50 (atLeast1 (fld x.ctl 21 16)))
    let out : Frame := BitVec.ofNat 37376 d.bits
    let u := (((s.chargeFrame x.lane x.handle).setCtx r.val i.val none).decoded (32 + 8 * r.val + i.val / 4) d (ones (out ^^^ x.hard))).modFrame x.cluster x.handle x.frame (fun f => { f with soft := true })
    (x.gambit = false → Found (.sdeDone r i cc) s
      (if d.ok then u.outlet x.lane x.handle x.frame out x.hard cc else u.toGambit x.lane x.handle x.frame cc)) ∧
    (x.gambit = true → Found (.sdeDone r i cc) s
      (if d.ok then u.stepDecoded x.lane x.handle x.frame out x.hard cc else u.stepFailed x.lane x.handle x.frame cc))) ∧
  (∀ (s : State) (lane : Fin 128) (p : Bool) (cc : CcFault) (h k : Nat) (l : List (Nat × Nat)) (x : Cmd), let g := lane.val
    s.working = true → s.laneUp g = true → (s.lane g).gambitRun = none → (s.lane g).gambit = (h, k) :: l → s.cmd? (g / 8) h = some x →
    let st := ((x.frames[k]?).map (·.pass)).getD 0
    let ty := s.frameType x
    let s0 := if p then s.stepParity ty st else s
    let o := s0.gbOffsets ty st x.field9
    let u := if st = 0 then s0.count (lnA g Reg.LN_GB_WALKS) else s0
    (s0.stepValid ty st = false → Found (.gambitStep lane p cc) s (s0.walkExhausted g h k cc)) ∧
    (s0.stepValid ty st = true → Found (.gambitStep lane p cc) s
      (((((u.modLane g (fun l => { l with gambitRun := some { handle := h, frame := k, ofs := o, flags := s0.gbData1 ty st, gone := false } })).modFrame
        (g / 8) h k (fun f => { f with flow := .gambitSense, steps := f.steps + 1 })).modCore (g / 8)
        (fun q => { q with iram := Tab.setD (fun _ => 0) q.iram ((0x2E000 + 1024 * (g % 8) + 1020) / 4) o }))).senseReq g h k 2 st))) ∧
  (∀ (s : State) (lane : Fin 128) (p : Bool) (cc : CcFault) (r : GambitRun) (sl : Slot), let g := lane.val
    s.working = true → s.laneUp g = true → (s.lane g).gambitRun = some r → r.gone = false → (s.lane g).slotOf r.handle r.frame = some (14, sl) →
    (bit r.flags 2 = true → sl.loaded = false → Found (.gambitStep lane p cc) s
      ((s.modLane g (fun l => { l with slots := Tab.put l.slots 14 { sl with loaded := true } })).modRegion (g / 64)
        (fun q => { q with waiting := q.waiting ++ [(g, r.handle, r.frame)] }))) ∧
    ((bit r.flags 2 = false ∨ sl.loaded = true) → exec (.gambitStep lane p cc) s = .next s)) ∧
  (∀ (s : State) (cl : Fin 16) (k : Fin 2) (ecc : Ecc) (cc : CcFault) (h j : Nat) (l : List (Nat × Nat)) (x : Cmd) (f : FrameSt), let c := cl.val
    s.working = true → s.clusterUp c = true → (s.cluster c).cipher k.val = none → s.cmd? c h = some x → x.frames[j]? = some f →
    let take (u : State) (dec : Bool) (n : Nat) : Prop :=
      let shut (t : State) : State := if dec ∧ x.managerCopy then t.outletFail x.lane h j 3 cc else t.abort c h stSealed 0
      let runs (t : State) (key : BitVec 512) : State := (t.modFrame c h j (fun f => { f with flow := .inCipher })).modCluster c (fun y =>
        y.setCipher k.val (some { lane := x.lane, handle := h, frame := j, bits := f.out, limit := 0, refeed := !dec, gambit := false, key := some key }))
      (s.keyAt n = none → Found (.cipherUnit cl k ecc cc) s (shut u)) ∧
      (∀ key, s.keyAt n = some key → Tab.rising s.keys.slots = true → Found (.cipherUnit cl k .uncorrectable cc) s
        (shut (((u.modKeys (fun y => { y with slots := Tab.setD (fun _ => none) y.slots n none })).blot 0xD000 0x05 (some (n / 4)) [BitVec.ofNat 32 n]).uncorrRow
          0x1A1 (n / 2)))) ∧
      (∀ key, s.keyAt n = some key → Found (.cipherUnit cl k .clean cc) s (runs u key) ∧
        Found (.cipherUnit cl k .corrected cc) s (runs (u.corrected 0x1A1 (n / 2)) key))
    let slot (tag : Nat) : Nat := tag % 512 * 4 + tag / 2 ^ 16 % 4
    ((s.cluster c).decipher = (h, j) :: l → take (s.modCluster c (fun y => { y with decipher := l })) true
      (if x.managerCopy then slot (sideTag (frameSide f.out)) else x.keyNo)) ∧
    ((s.cluster c).decipher = [] → (s.cluster c).encipher = (h, j) :: l →
      take (s.modCluster c (fun y => { y with encipher := l })) false
        (slot (if x.managerCopy then sideTag (frameSide f.out) else tagOf x.owner x.pkt.keySlot)))) ∧
  (∀ (s : State) (cl : Fin 16) (k : Fin 2) (ecc : Ecc) (cc : CcFault) (e : Engine) (key : BitVec 512) (x : Cmd), let c := cl.val
    s.working = true → s.clusterUp c = true → (s.cluster c).cipher k.val = some e → e.key = some key → s.cmd? c e.handle = some x →
    let u := s.modCluster c (fun q => q.setCipher k.val none)
    let v := u.outletSlab c e.handle e.frame ecc
    let side := frameSide e.bits
    let plain := xts false key (sideEcho side) (natBytes 4096 (frameUser e.bits).toNat)
    (e.refeed = true → Found (.cipherUnitDone cl k ecc cc) s ((u.slabRead (x.slabFor e.frame) 0 4160 ecc).encipherDone c e key x)) ∧
    (e.refeed = false → Found (.cipherUnitDone cl k ecc cc) s (if crc32c plain = sideCrc side then
      (((v.modSlab (x.slabFor e.frame) (fun y => { y with payload := BitVec.ofNat 32768 (bytesNat plain), side := side })).modFrame
        c e.handle e.frame (fun f => { f with flow := .done })).frameEnd c e.handle e.frame true cc)
      else v.outletFail e.lane e.handle e.frame 3 cc))) ∧
  (∀ (s : State) (a : RpAcc) (cc : CcFault), let u := s.accepting Reg.CAL_GB_SCMD a
    let g := fld a.data 29 23
    let h := fld a.data 10 0
    let k := fld a.data 22 18
    let op := fld a.data 31 30
    let holds := (u.frame? (g / 8) h k).map FrameSt.flow = some Flow.scribe ∧
      ∃ x, u.cmd? (g / 8) h = some x ∧ x.lane = g ∧ x.stage ≠ .ready ∧ x.discard = false
    (holds → (op = 1 → Writes (.rewalk a) s Reg.CAL_GB_SCMD a
        ((u.modFrame (g / 8) h k (fun f => { f with flow := .gambitQueue, pass := 0, rewalked := true })).modLane g (fun l => { l with gambit := l.gambit ++ [(h, k)] }))) ∧
      (op = 2 → Writes (.gbFail a cc) s Reg.CAL_GB_SCMD a (u.frameFail (g / 8) g h k cc))) ∧
    (¬ holds → Writes (.rewalk a) s Reg.CAL_GB_SCMD a u ∧ Writes (.gbFail a cc) s Reg.CAL_GB_SCMD a u))

/-! ### Doze -/

/-- R68, R74 to R76, R153, R323, R381: an idle cluster without work is gated with each trained lane's eight words saved, and one that is asked for
wakes with its bank zero and its Quill at the image's entry; an idle region dozes, which loses the state of its SDEs, and a request wakes it; the block dozes with no
cache line left, wakes for a cause alone, and its wake latches what was caught; while a line is dirty, the entry issues its write-back in place of dozing.
Where the rules leave room, the readings are the model's (log entries 38, 39 and 40). -/
def Obligations.Dozing : Prop :=
  (∀ (s : State) (cl : Fin 16), let c := cl.val
    s.awake = true → s.clusterUp c = true →
    ((s.wakeDemand c = true ∨ s.clusterIdle c = false) → exec (.clusterDoze cl) s = .next s) ∧
    (s.wakeDemand c = false → s.clusterIdle c = true → ∃ u : State, Yields (.clusterDoze cl) s u ∧ (s.canon = true →
      (u.cluster c).dozed = true ∧ (∀ k, k ≠ c → u.cluster k = s.cluster k) ∧
      (∀ g, g / 8 = c → (u.lane g).ceLow = none ∧ (u.lane g).wpHigh = false ∧ (u.lane g).luns = [] ∧
        ((s.lane g).enabled = true → s.castPending g = false → (u.lane g).saved = some (s.calWords g)) ∧
        ((s.lane g).enabled = false → (u.lane g).saved = none)) ∧
      (∀ g, g / 8 ≠ c → u.lane g = s.lane g)))) ∧
  (∀ (s : State) (cl : Fin 16), let c := cl.val
    s.awake = true → c < s.nClusters → (s.cluster c).dozed = true → s.wakeDemand c = true → (s.cluster c).quill.state ≠ .fault →
    (∀ h x, s.cmd? c h = some x → x.wantsSlabs = false) →
    ∃ u : State, Yields (.clusterWake cl) s u ∧ (s.canon = true → (u.cluster c).dozed = false ∧ (u.cluster c).quill.state = .running ∧
      (u.cluster c).quill.pc = s.imgNat 8 4 % 65536 ∧ (u.cluster c).quill.events = [] ∧
      (∀ n, n / 512 = c → u.slab n = { Slab.init with retired := (s.slab n).retired }) ∧
      (∀ g ws, g / 8 = c → (s.lane g).saved = some ws → (u.lane g).active = ws.drop 2 ∧ (u.lane g).saved = none))) ∧
  (∀ (s : State) (r : Fin 2), s.awake = true → r.val < s.nRegions →
    (s.glb.mode ≠ .fallback → (s.glb.mode = .opening → 5 ≤ s.glb.phase.code) → (s.region r.val).dozed = false → bit (s.regAt Reg.CLK_DOZE_CTL) (16 + r.val) = true → (s.region r.val).still = true →
      ∃ u : State, Yields (.sdeRegionDoze r) s u ∧ (s.canon = true → u.region r.val = { s.region r.val with dozed := true, ctx := [] } ∧
        (∀ k, k ≠ r.val → u.region k = s.region k) ∧ u.clusters = s.clusters ∧ u.lanes = s.lanes ∧
        ∀ k, let page := k % 0x800000 / 0x1000
          let o := k % 0x1000
          u.regAt k = if 0x100 + 8 * r.val ≤ page ∧ page < 0x108 + 8 * r.val ∧ o ≠ 0x008 ∧ o ≠ 0xFF0 then regReset k else s.regAt k)) ∧
    ((s.region r.val).still = false → exec (.sdeRegionDoze r) s = .next s) ∧
    ((s.region r.val).dozed = true → (s.region r.val).waiting ≠ [] → Yields (.sdeRegionWake r) s (s.modRegion r.val (fun q => { q with dozed := false })))) ∧
  (∀ s : State, s.awake = true → s.glb.mode ≠ .fallback → bit (s.regAt Reg.CLK_DOZE_CTL) 18 = true → (∀ c ∈ s.clusterList, (s.cluster c).dozed = true) →
    (∀ r ∈ s.regionList, (s.region r).dozed = true) → s.centralStill = true → s.cache.still = true → s.blotterStill = true →
    (s.cache.clean = false → Yields .blockDoze s s.cacheClean) ∧
    (s.cache.clean = true → ∃ u : State, Yields .blockDoze s u ∧ u.signal = { s.signal with blockDozed := true, restoring := false, heldN := s.irqN, heldF := s.irqF } ∧
      u.cache = { Cache.init with invalDone := true } ∧ u.blotter = { s.blotter with main := [], windows := [] } ∧ u.scrub = { s.scrub with row := 0 } ∧
      (s.scribe.state = .running → u.scribe = { s.scribe with regs := [], pc := s.imgNat 0x20008 4 % 65536, events := [], timers := [] }) ∧
      (s.scribe.state ≠ .running → u.scribe = s.scribe) ∧ u.lanes = s.lanes ∧ u.clusters = s.clusters ∧ u.regs = s.regs ∧ u.store = s.store ∧ u.glb = s.glb)) ∧
  (∀ s : State, s.alive = true → s.pins.warmLow = false → s.signal.blockDozed = true → (∀ e ∈ s.signal.vecs, e.2.opened = none) →
    (s.signal.caught = 0 → s.pins.therm0.toNat < 580 → s.pins.therm1.toNat < 580 → exec .blockWake s = .next s) ∧
    ((s.signal.caught ≠ 0 ∨ 580 ≤ s.pins.therm0.toNat ∨ (s.nRegions = 2 ∧ 580 ≤ s.pins.therm1.toNat)) →
    ∃ u : State, Yields .blockWake s u ∧ u.signal.blockDozed = false ∧ u.signal.latched = s.signal.latched ||| s.signal.caught ∧ u.signal.caught = 0 ∧
      (s.canon = true → u.regAt Reg.BL_ACK = s.blotter.seq - 1)))

/-! ### Sweep, Patrol and the end -/

/-- R354, R359 to R363, R367: a bucket group's LEVEL leaks by one, as one net change with the corrections of its cycle; Sweep reads the next
row of its walk, passing only rows of enabled arrays, and handles what it finds; Patrol samples the pages chosen at the cursor's visit, one by
one, walks on to the next plane-block, or ends its pass. R413, R416: the sequence of ENDGAME ends once every lane is
done, with the host copy's header after it where it is written, and at the latest with its budget.
Where the rules leave room, the readings are the model's (log entries 87, 88, 90 and 91). -/
def Obligations.ScrubAndEndgame : Prop :=
  (∀ (s : State) (g : Fin 8), s.awake = true → s.canon = true → let K := winKey Reg.SW_BKT_STAT g.val
    ∃ u : State, Yields (.leak g) s u ∧ fld (u.regAt K) 15 0 = fld (s.regAt K) 15 0 - 1 ∧ fld (u.regAt K) 31 16 = fld (s.regAt K) 31 16 ∧
      ∀ k, k ≠ K → u.regAt k = s.regAt k) ∧
  (∀ (s : State) (g : Fin 8) (adds l : List (Fin 512 × Fin 4096)) (e : Fin 512 × Fin 4096), s.awake = true →
    adds.filter (fun e => decide (bucketOf e.1.val = g.val) && decide (e.2.val < s.groupRows e.1.val)) = l ++ [e] →
    Yields (.leak g adds) s ((l ++ [e]).foldl (fun t e => t.trackAt e.1.val e.2.val)
      (((l ++ [e]).foldl (fun t _ => t.count (winKey Reg.SW_BKT_CORR g.val)) s).bucketSet g.val e.1.val (s.bucketLevel g.val + l.length)))) ∧
  (∀ (s : State) (half shared : Bool) (victim : Option (Fin 32)), s.awake = true → s.serving = true → bit (s.regAt Reg.SW_CTL) 0 = true →
    let u := s.sweepBegin
    (sweepAt u.sweepSkips u.sweepGroups u.scrub.row 0 = none → Found (.sweepRow .clean half shared victim) s (if u.scrub.row = 0 then u else u.sweepPassed)) ∧
    (∀ pos g row, sweepAt u.sweepSkips u.sweepGroups u.scrub.row 0 = some (pos, g, row) → u.sweepSkips g = false ∧ u.scrub.row ≤ pos ∧
      (let v := (u.modReg Reg.SW_STAT (fun w => putFld w 26 16 g)).modScrub (fun x => { x with row := pos + 1 })
       v.sweepRead g row .clean half shared victim = v ∧ v.sweepRead g row .corrected half true victim = v ∧
       v.sweepRead g row .corrected half false none = v.corrected g row ∧
       v.sweepRead g row .uncorrectable half shared none =
         (((v.count Reg.SW_UNCORR).raise 0x7000 2).blot 0x7000 0x0A none [BitVec.ofNat 32 g, BitVec.ofNat 32 row]).sweepHandle g row half ∧
       ∀ found, let t := v.sweepRead g row found half shared victim
        ((sweepAt t.sweepSkips t.sweepGroups t.scrub.row 0).isNone = true → Found (.sweepRow found half shared victim) s t.sweepPassed) ∧
        ((sweepAt t.sweepSkips t.sweepGroups t.scrub.row 0).isNone = false → Found (.sweepRow found half shared victim) s t)))) ∧
  (∀ (s : State) (cc : CcFault), s.awake = true → s.serving = true → bit (s.regAt Reg.PT_CTL) 0 = true → s.keys.sanit = none →
    let w := s.regAt Reg.PT_CURSOR
    let r := s.patrolNext cc
    (s.scrub.patPages = none → r = State.patrolWalk s.presentDies cc (8192 - fld w 28 16) (fld w 12 0) s) ∧
    (∀ p l, s.scrub.patPages = some (p :: l) → s.presentDies.contains (fld w 12 0) = true → s.patrolAsleep (fld w 12 0) = false →
      r = (s, some (fld w 12 0, p :: l))) ∧
    (r.2 = none → Found (.patrolIssue cc) s r.1.patrolPassed) ∧
    (∀ die page l, r.2 = some (die, page :: l) → let u := r.1.modScrub (fun x => { x with patPages := some (page :: l) })
      let waiting := (u.cmdsOf (die / 512)).any (fun e => e.2.patrol && decide (e.2.lane = die / 64 ∧ e.2.stage = .pending))
      ((waiting = true ∨ u.lowHandle (die / 512) = none) → Found (.patrolIssue cc) s u) ∧
      (∀ h, waiting = false → u.lowHandle (die / 512) = some h → Found (.patrolIssue cc) s
        ((u.sampleIssue die (fld (u.regAt Reg.PT_CURSOR) 28 16) page h).modScrub (fun x => { x with patPages := some l }))))) ∧
  (∀ s : State, s.awake = true → s.glb.mode = .endgame →
    (s.endgame.ended = false → (∀ g ∈ s.laneList, (s.lane g).egDone = true) → let u := s.egPark
      (u.egHost = true → u.egFailed = false → Yields .endgameEnd s u) ∧
      ((u.egHost = false ∨ u.egFailed = true) → Yields .endgameEnd s u.egReset)) ∧
    ((∃ g ∈ s.laneList, (s.lane g).egDone = false) → exec .endgameEnd s = .next s) ∧
    (s.endgame.ended = true → s.egHost = true → s.egFailed = false → s.endgame.hostOut = 0 → s.endgame.headerOut = false →
      ∃ u : State, Yields .egHeaderWrite s u ∧ u.endgame.headerOut = true ∧ (s.canon = true → u.port 0 = ({ s.port 0 with queue := (s.port 0).queue ++
        [oneBeat s.egAddr (leBytes 32 (leWords [s.regAt Reg.GLB_EG_SUM, s.regAt Reg.GLB_EG_DROP, s.regAt Reg.GLB_EG_DUR, s.regAt Reg.GLB_EG_AT_LO])) 1 .egHeader] }
        : Port).present)) ∧
    (s.egBudget ≤ s.since s.endgame.start → ∃ u : State, Yields .endgameBudgetExpiry s u ∧ u.glb.mode = .reset) ∧
    (s.since s.endgame.start < s.egBudget → exec .endgameBudgetExpiry s = .next s))

end
end

