-- ==== Sys2Proof/Laws/Tab.lean ====
section
/-! SUPPORT. The laws of a sparse table: what a read gives after a write, and that every operation keeps the canonical
form. -/
namespace Sys2Proof.Machine.Tab
variable {α : Type}

@[simp] theorem find?_nil (k : Nat) : find? ([] : Tab α) k = none := rfl
@[simp] theorem getD_nil (d : Nat → α) (k : Nat) : getD d [] k = d k := rfl

/-- A key that lies below every key of a table is not listed. -/
theorem find?_of_above {b : Nat} : ∀ {t : Tab α}, above b t = true → ∀ {k : Nat}, k ≤ b → find? t k = none
  | [], _, _, _ => rfl
  | (j, v) :: t, h, k, hk => by
    simp only [above, Bool.and_eq_true, decide_eq_true_eq] at h
    have hne : k ≠ j := by omega
    simp only [find?, hne, if_false]
    exact find?_of_above h.2 (by omega)

/-- A read of the key just put gives the value. -/
@[simp] theorem find?_put_self (t : Tab α) (k : Nat) (v : α) : find? (put t k v) k = some v := by
  induction t with
  | nil => simp [put, find?]
  | cons e t ih =>
    obtain ⟨j, w⟩ := e
    simp only [put]
    split_ifs with h1 h2
    · simp [find?]
    · simp [find?]
    · simp [find?, h2, ih]

/-- A put leaves every other key alone. -/
theorem find?_put_ne {t : Tab α} {k l : Nat} (h : l ≠ k) (v : α) : find? (put t k v) l = find? t l := by
  induction t with
  | nil => simp [put, find?, h]
  | cons e t ih =>
    obtain ⟨j, w⟩ := e
    simp only [put]
    split_ifs with h1 h2
    · simp [find?, h]
    · subst h2; simp [find?, h]
    · simp only [find?]; split_ifs <;> simp_all

/-- An erase leaves every other key alone. -/
theorem find?_erase_ne {t : Tab α} {k l : Nat} (h : l ≠ k) : find? (erase t k) l = find? t l := by
  induction t with
  | nil => simp [erase]
  | cons e t ih =>
    obtain ⟨j, w⟩ := e
    simp only [erase]
    split_ifs with h1
    · subst h1; simp [find?, h]
    · simp only [find?]; split_ifs <;> simp_all

/-- An erased key of a table with rising keys is not listed. -/
theorem find?_erase_self {t : Tab α} (hr : rising t = true) (k : Nat) : find? (erase t k) k = none := by
  suffices ∀ (t : Tab α) (b : Nat), above b t = true → find? (erase t k) k = none by
    cases t with
    | nil => rfl
    | cons e t =>
      obtain ⟨j, w⟩ := e
      simp only [rising] at hr
      simp only [erase]
      split_ifs with h
      · subst h; exact find?_of_above hr (Nat.le_refl _)
      · simp only [find?, h, if_false]; exact this t j hr
  intro t
  induction t with
  | nil => intro b _; rfl
  | cons e t ih =>
    intro b hb
    obtain ⟨j, w⟩ := e
    simp only [above, Bool.and_eq_true, decide_eq_true_eq] at hb
    simp only [erase]
    split_ifs with h
    · subst h; exact find?_of_above hb.2 (Nat.le_refl _)
    · simp only [find?, h, if_false]; exact ih j hb.2

/-- A write leaves every other key alone. -/
theorem getD_setD_ne [DecidableEq α] (d : Nat → α) {t : Tab α} {k l : Nat} (h : l ≠ k) (v : α) :
    getD d (setD d t k v) l = getD d t l := by
  unfold setD getD
  split_ifs
  · rw [find?_erase_ne h]
  · rw [find?_put_ne h]

/-- A read after a write gives the value written. -/
theorem getD_setD_self [DecidableEq α] (d : Nat → α) {t : Tab α} (hr : rising t = true) (k : Nat) (v : α) :
    getD d (setD d t k v) k = v := by
  unfold setD getD
  split_ifs with h
  · rw [find?_erase_self hr]; simp [h]
  · simp

theorem above_weaken {a b : Nat} (h : a ≤ b) : ∀ {t : Tab α}, above b t = true → above a t = true
  | [], _ => rfl
  | (j, v) :: t, ht => by
    simp only [above, Bool.and_eq_true, decide_eq_true_eq] at ht ⊢
    exact ⟨by omega, ht.2⟩

theorem above_put {b k : Nat} (hb : b < k) (v : α) : ∀ {t : Tab α}, above b t = true → above b (put t k v) = true
  | [], _ => by simp [put, above, hb]
  | (j, w) :: t, h => by
    simp only [above, Bool.and_eq_true, decide_eq_true_eq] at h
    simp only [put]
    split_ifs with h1 h2
    · simp [above, hb, h1, h.2]
    · subst h2; simp [above, hb, h.2]
    · simp only [above, Bool.and_eq_true, decide_eq_true_eq]
      exact ⟨h.1, above_put (by omega) v h.2⟩

theorem above_erase {b k : Nat} : ∀ {t : Tab α}, above b t = true → above b (erase t k) = true
  | [], _ => rfl
  | (j, w) :: t, h => by
    simp only [above, Bool.and_eq_true, decide_eq_true_eq] at h
    simp only [erase]
    split_ifs with h1
    · exact above_weaken (by omega) h.2
    · simp only [above, Bool.and_eq_true, decide_eq_true_eq]
      exact ⟨h.1, above_erase h.2⟩

theorem above_filter {b : Nat} (p : Nat × α → Bool) : ∀ {t : Tab α}, above b t = true → above b (t.filter p) = true
  | [], _ => rfl
  | (j, w) :: t, h => by
    simp only [above, Bool.and_eq_true, decide_eq_true_eq] at h
    rw [List.filter_cons]
    split_ifs
    · simp only [above, Bool.and_eq_true, decide_eq_true_eq]; exact ⟨h.1, above_filter p h.2⟩
    · exact above_weaken (by omega) (above_filter p h.2)

theorem rising_put {t : Tab α} (h : rising t = true) (k : Nat) (v : α) : rising (put t k v) = true := by
  cases t with
  | nil => simp [put, rising, above]
  | cons e t =>
    obtain ⟨j, w⟩ := e
    simp only [rising] at h
    simp only [put]
    split_ifs with h1 h2
    · simp [rising, above, h1, h]
    · subst h2; simpa [rising] using h
    · simp only [rising]; exact above_put (by omega) v h

theorem rising_of_above {b : Nat} : ∀ {t : Tab α}, above b t = true → rising t = true
  | [], _ => rfl
  | (j, w) :: t, h => by simp only [above, Bool.and_eq_true] at h; simpa [rising] using h.2

theorem rising_erase {t : Tab α} (h : rising t = true) (k : Nat) : rising (erase t k) = true := by
  cases t with
  | nil => rfl
  | cons e t =>
    obtain ⟨j, w⟩ := e
    simp only [rising] at h
    simp only [erase]
    split_ifs with h1
    · exact rising_of_above h
    · simp only [rising]; exact above_erase h

theorem rising_filter {t : Tab α} (h : rising t = true) (p : Nat × α → Bool) : rising (t.filter p) = true := by
  cases t with
  | nil => rfl
  | cons e t =>
    obtain ⟨j, w⟩ := e
    simp only [rising] at h
    rw [List.filter_cons]
    split_ifs
    · simp only [rising]; exact above_filter p h
    · exact rising_of_above (above_filter p h)

theorem all_put {p : Nat × α → Bool} {k : Nat} {v : α} (hv : p (k, v) = true) :
    ∀ {t : Tab α}, t.all p = true → (put t k v).all p = true
  | [], _ => by simp [put, hv]
  | (j, w) :: t, h => by
    simp only [List.all_cons, Bool.and_eq_true] at h
    simp only [put]
    split_ifs
    · simp only [List.all_cons, hv, h.1, h.2, Bool.and_self]
    · simp only [List.all_cons, hv, h.2, Bool.and_self]
    · simp only [List.all_cons, h.1, all_put hv h.2, Bool.and_self]

theorem all_erase {p : Nat × α → Bool} {k : Nat} : ∀ {t : Tab α}, t.all p = true → (erase t k).all p = true
  | [], _ => rfl
  | (j, w) :: t, h => by
    simp only [List.all_cons, Bool.and_eq_true] at h
    simp only [erase]
    split_ifs
    · exact h.2
    · simp only [List.all_cons, h.1, all_erase h.2, Bool.and_self]

theorem wf_nil [DecidableEq α] (d : Nat → α) : wf d ([] : Tab α) = true := rfl

/-- A write keeps the canonical form. -/
theorem wf_setD [DecidableEq α] {d : Nat → α} {t : Tab α} (h : wf d t = true) (k : Nat) (v : α) :
    wf d (setD d t k v) = true := by
  simp only [wf, Bool.and_eq_true] at h ⊢
  unfold setD
  split_ifs with hv
  · exact ⟨rising_erase h.1 k, all_erase h.2⟩
  · exact ⟨rising_put h.1 k v, all_put (by simpa using hv) h.2⟩

/-- Dropping entries keeps the canonical form. -/
theorem wf_filter [DecidableEq α] {d : Nat → α} {t : Tab α} (h : wf d t = true) (p : Nat × α → Bool) :
    wf d (t.filter p) = true := by
  simp only [wf, Bool.and_eq_true] at h ⊢
  refine ⟨rising_filter h.1 p, ?_⟩
  rw [List.all_eq_true] at h ⊢
  exact fun e he => h.2 e (List.mem_filter.mp he).1

theorem rising_of_wf [DecidableEq α] {d : Nat → α} {t : Tab α} (h : wf d t = true) : rising t = true := by
  simp only [wf, Bool.and_eq_true] at h; exact h.1

/-- A chain of writes keeps the canonical form. -/
theorem wf_foldl_setD [DecidableEq α] {β : Type} {d : Nat → α} (key : β → Nat) (val : β → α) (l : List β) {t : Tab α}
    (h : wf d t = true) : wf d (l.foldl (fun u b => setD d u (key b) (val b)) t) = true := by
  induction l generalizing t with
  | nil => exact h
  | cons b l ih => exact ih (wf_setD h _ _)

/-- A filter by key keeps the listed keys that pass. -/
theorem getD_filter_key (d : Nat → α) (q : Nat → Bool) (t : Tab α) (k : Nat) :
    getD d (t.filter (fun e => q e.1)) k = if q k then getD d t k else d k := by
  induction t with
  | nil => simp
  | cons e t ih =>
    obtain ⟨j, v⟩ := e
    simp only [getD] at ih ⊢
    by_cases hj : q j
    · simp only [List.filter_cons_of_pos, hj, find?]
      by_cases h : k = j
      · subst h; simp [hj]
      · simp only [h, if_false]; exact ih
    · simp only [List.filter_cons_of_neg, hj, find?, Bool.false_eq_true, not_false_eq_true]
      by_cases h : k = j
      · subst h; rw [ih]; simp [hj]
      · simp only [h, if_false]; exact ih

end Sys2Proof.Machine.Tab
end

