-- ==== Sys2Proof/Laws/Ok.lean ====
section
/-! SUPPORT. What the plain updates of the state leave alone: the build, the queue, the pins, the fuses, the test port and
the time; and that they keep the canonical form of every table. The files Laws/Ok<Module>.lean say the same of every
operation over the state. -/
namespace Sys2Proof.Machine
open Sys2Proof

/-- The state has the build, queue, pins, fuses, test port and time of another, and its tables are canonical. -/
def State.Ok (s b : State) : Prop :=
  (s.build = b.build ∧ s.pending = b.pending ∧ s.pins = b.pins ∧ s.fuse = b.fuse ∧ s.tap = b.tap ∧ s.time = b.time) ∧
    s.canon = true

theorem State.ok_self {s : State} (h : s.canon = true) : s.Ok s := ⟨⟨rfl, rfl, rfl, rfl, rfl, rfl⟩, h⟩

/-- A fold of an operation that keeps `Ok` keeps it. -/
theorem State.foldl_ok {α : Type} {b : State} {g : State → α → State} {s : State} (l : List α)
    (h : s.Ok b) (hg : ∀ t a, t.Ok b → (g t a).Ok b) : (l.foldl g s).Ok b := by
  induction l generalizing s with
  | nil => exact h
  | cons a l ih => exact ih (hg s a h)

/-- The state that an operation answers beside a result is `Ok`. -/
def State.POk {α : Type} (b : State) (p : State × α) : Prop := p.1.Ok b
theorem State.mk_pok {α : Type} {b : State} (s : State) (x : α) (h : s.Ok b) : State.POk b (s, x) := h
theorem State.fst_of {α : Type} {b : State} {p : State × α} (h : State.POk b p) : p.1.Ok b := h
theorem State.ite_ok {b s t : State} {p : Prop} [Decidable p] (h : s.Ok b) (k : t.Ok b) : (if p then s else t).Ok b := by
  split <;> assumption
theorem State.ite_pok {α : Type} {b : State} {s t : State × α} {p : Prop} [Decidable p] (h : State.POk b s) (k : State.POk b t) :
    State.POk b (if p then s else t) := by split <;> assumption

/-- A command runs: it answers a next state, which is `Ok`. -/
def Runs (b : State) (o : Out) : Prop := ∃ t, o = .next t ∧ t.Ok b
theorem runs_next {b : State} (s : State) (h : s.Ok b) : Runs b (.next s) := ⟨s, rfl, h⟩
theorem runs_idle {b : State} (s : State) (h : s.Ok b) : Runs b (idle s) := ⟨s, rfl, h⟩
theorem runs_ite {b : State} {s t : Out} {p : Prop} [Decidable p] (h : Runs b s) (k : Runs b t) : Runs b (if p then s else t) := by
  split <;> assumption

/-- A fold that carries more than the state keeps it. -/
theorem State.foldl_pok {α β : Type} {b : State} {g : State × β → α → State × β} {p : State × β} (l : List α)
    (h : State.POk b p) (hg : ∀ q a, State.POk b q → State.POk b (g q a)) : State.POk b (l.foldl g p) := by
  induction l generalizing p with
  | nil => exact h
  | cons a l ih => exact ih (hg p a h)

theorem State.modGlb_ok {b : State} (s : State) (f : Glb → Glb) (h : s.Ok b) : (s.modGlb f).Ok b := h
theorem State.modBlotter_ok {b : State} (s : State) (f : Blotter → Blotter) (h : s.Ok b) : (s.modBlotter f).Ok b := h
theorem State.modSignal_ok {b : State} (s : State) (f : Signal → Signal) (h : s.Ok b) : (s.modSignal f).Ok b := h
theorem State.modKeys_ok {b : State} (s : State) (f : Keys → Keys) (h : s.Ok b) : (s.modKeys f).Ok b := h
theorem State.modTenants_ok {b : State} (s : State) (f : Tenants → Tenants) (h : s.Ok b) : (s.modTenants f).Ok b := h
theorem State.modLedger_ok {b : State} (s : State) (f : Ledger → Ledger) (h : s.Ok b) : (s.modLedger f).Ok b := h
theorem State.modEndgame_ok {b : State} (s : State) (f : Endgame → Endgame) (h : s.Ok b) : (s.modEndgame f).Ok b := h
theorem State.modScrub_ok {b : State} (s : State) (f : Scrub → Scrub) (h : s.Ok b) : (s.modScrub f).Ok b := h
theorem State.modCache_ok {b : State} (s : State) (f : Cache → Cache) (h : s.Ok b) : (s.modCache f).Ok b := h

theorem State.setReg_ok {b : State} (s : State) (k : Nat) (v : Word) (h : s.Ok b) : (s.setReg k v).Ok b := by
  refine ⟨h.1, ?_⟩
  have hc := h.2
  simp only [State.canon, State.setReg, Bool.and_eq_true] at hc ⊢
  simp only [hc, Tab.wf_setD, and_self]
theorem State.modLane_ok {b : State} (s : State) (k : Nat) (f : Lane → Lane) (h : s.Ok b) : (s.modLane k f).Ok b := by
  refine ⟨h.1, ?_⟩
  have hc := h.2
  simp only [State.canon, State.modLane, Bool.and_eq_true] at hc ⊢
  simp only [hc, Tab.wf_setD, and_self]
theorem State.modCluster_ok {b : State} (s : State) (k : Nat) (f : Cluster → Cluster) (h : s.Ok b) : (s.modCluster k f).Ok b := by
  refine ⟨h.1, ?_⟩
  have hc := h.2
  simp only [State.canon, State.modCluster, Bool.and_eq_true] at hc ⊢
  simp only [hc, Tab.wf_setD, and_self]
theorem State.modRegion_ok {b : State} (s : State) (k : Nat) (f : Region → Region) (h : s.Ok b) : (s.modRegion k f).Ok b := by
  refine ⟨h.1, ?_⟩
  have hc := h.2
  simp only [State.canon, State.modRegion, Bool.and_eq_true] at hc ⊢
  simp only [hc, Tab.wf_setD, and_self]
theorem State.modSlab_ok {b : State} (s : State) (k : Nat) (f : Slab → Slab) (h : s.Ok b) : (s.modSlab k f).Ok b := by
  refine ⟨h.1, ?_⟩
  have hc := h.2
  simp only [State.canon, State.modSlab, Bool.and_eq_true] at hc ⊢
  simp only [hc, Tab.wf_setD, and_self]
theorem State.modPort_ok {b : State} (s : State) (k : Nat) (f : Port → Port) (h : s.Ok b) : (s.modPort k f).Ok b := by
  refine ⟨h.1, ?_⟩
  have hc := h.2
  simp only [State.canon, State.modPort, Bool.and_eq_true] at hc ⊢
  simp only [hc, Tab.wf_setD, and_self]
theorem State.modChannel_ok {b : State} (s : State) (k : Nat) (f : Channel → Channel) (h : s.Ok b) : (s.modChannel k f).Ok b := by
  refine ⟨h.1, ?_⟩
  have hc := h.2
  simp only [State.canon, State.modChannel, Bool.and_eq_true] at hc ⊢
  simp only [hc, Tab.wf_setD, and_self]
theorem State.setCmd_ok {b : State} (s : State) (c k : Nat) (v : Option Cmd) (h : s.Ok b) : (s.setCmd c k v).Ok b := by
  refine ⟨h.1, ?_⟩
  have hc := h.2
  simp only [State.canon, State.setCmd, Bool.and_eq_true] at hc ⊢
  simp only [hc, Tab.wf_setD, and_self]

/-- The state with any fields but those named by `Ok` replaced, the tables by canonical ones. -/
theorem State.mk_ok {b : State} (s : State) (glb : Glb) (rp : RpOut) (scribe : Core) (fetching : List Fetching) (ready : List Ready) (lateQ : List Ready) (posted : List Posted) (serial : Nat) (cache : Cache) (keys : Keys) (tenants : Tenants) (ledger : Ledger) (signal : Signal) (blotter : Blotter) (endgame : Endgame) (scrub : Scrub) (freeCtr : Nat) (regs : Tab Word) (images : Tab Byte) (store : Tab Byte) (clusters : Tab Cluster) (lanes : Tab Lane) (regions : Tab Region) (cmds : Tab (Option Cmd)) (slabs : Tab Slab) (ports : Tab Port) (channels : Tab Channel) (ticks : Tab Nat) (draws : Tab Word) (rings : Tab Word) (pairing : Tab Word)
    (h : s.Ok b)
    (hregs : Tab.wf regReset s.regs = true → Tab.wf regReset regs = true)
    (himages : Tab.wf (fun _ => (0 : Byte)) s.images = true → Tab.wf (fun _ => (0 : Byte)) images = true)
    (hstore : Tab.wf (fun _ => (0 : Byte)) s.store = true → Tab.wf (fun _ => (0 : Byte)) store = true)
    (hclusters : Tab.wf (fun _ => Cluster.init) s.clusters = true → Tab.wf (fun _ => Cluster.init) clusters = true)
    (hlanes : Tab.wf (fun _ => Lane.init) s.lanes = true → Tab.wf (fun _ => Lane.init) lanes = true)
    (hregions : Tab.wf (fun _ => Region.init) s.regions = true → Tab.wf (fun _ => Region.init) regions = true)
    (hcmds : Tab.wf (fun _ => (none : Option Cmd)) s.cmds = true → Tab.wf (fun _ => (none : Option Cmd)) cmds = true)
    (hslabs : Tab.wf (fun _ => Slab.init) s.slabs = true → Tab.wf (fun _ => Slab.init) slabs = true)
    (hports : Tab.wf (fun _ => Port.init) s.ports = true → Tab.wf (fun _ => Port.init) ports = true)
    (hchannels : Tab.wf (fun _ => Channel.init) s.channels = true → Tab.wf (fun _ => Channel.init) channels = true)
    (hticks : Tab.wf (fun _ => 0) s.ticks = true → Tab.wf (fun _ => 0) ticks = true)
    (hdraws : Tab.wf (fun _ => (0 : Word)) s.draws = true → Tab.wf (fun _ => (0 : Word)) draws = true)
    (hrings : Tab.wf (fun _ => (0 : Word)) s.rings = true → Tab.wf (fun _ => (0 : Word)) rings = true)
    (hpairing : Tab.wf (fun _ => (0 : Word)) s.pairing = true → Tab.wf (fun _ => (0 : Word)) pairing = true) :
    State.Ok { s with glb := glb, rp := rp, scribe := scribe, fetching := fetching, ready := ready, lateQ := lateQ, posted := posted, serial := serial, cache := cache, keys := keys, tenants := tenants, ledger := ledger, signal := signal, blotter := blotter, endgame := endgame, scrub := scrub, freeCtr := freeCtr, regs := regs, images := images, store := store, clusters := clusters, lanes := lanes, regions := regions, cmds := cmds, slabs := slabs, ports := ports, channels := channels, ticks := ticks, draws := draws, rings := rings, pairing := pairing } b := by
  refine ⟨h.1, ?_⟩
  have hc := h.2
  simp only [State.canon, Bool.and_eq_true] at hc ⊢
  obtain ⟨⟨⟨⟨⟨⟨⟨⟨⟨⟨⟨⟨⟨c0, c1⟩, c2⟩, c3⟩, c4⟩, c5⟩, c6⟩, c7⟩, c8⟩, c9⟩, c10⟩, c11⟩, c12⟩, c13⟩ := hc
  exact ⟨⟨⟨⟨⟨⟨⟨⟨⟨⟨⟨⟨⟨hregs c0, himages c1⟩, hstore c2⟩, hclusters c3⟩, hlanes c4⟩, hregions c5⟩, hcmds c6⟩, hslabs c7⟩, hports c8⟩, hchannels c9⟩, hticks c10⟩, hdraws c11⟩, hrings c12⟩, hpairing c13⟩


/-- A table of commands stays canonical under a change of the commands it holds. -/
theorem Tab.above_map {α β : Type} (f : Nat × α → β) : ∀ {t : Tab α} {b : Nat}, Tab.above b t = true →
    Tab.above b (t.map (fun e => (e.1, f e))) = true
  | [], _, _ => rfl
  | (j, w) :: t, b, h => by
    simp only [Tab.above, Bool.and_eq_true, List.map_cons] at h ⊢
    exact ⟨h.1, Tab.above_map f h.2⟩
theorem Tab.rising_map {α β : Type} (f : Nat × α → β) {t : Tab α} (h : Tab.rising t = true) :
    Tab.rising (t.map (fun e => (e.1, f e))) = true := by
  cases t with
  | nil => rfl
  | cons e t => obtain ⟨j, w⟩ := e; simp only [Tab.rising, List.map_cons] at h ⊢; exact Tab.above_map f h
theorem Tab.wf_mapCmds (f : Nat × Option Cmd → Cmd → Cmd) {t : Tab (Option Cmd)}
    (h : Tab.wf (fun _ => (none : Option Cmd)) t = true) :
    Tab.wf (fun _ => (none : Option Cmd)) (t.map (fun e => (e.1, e.2.map (f e)))) = true := by
  simp only [Tab.wf, Bool.and_eq_true] at h ⊢
  refine ⟨Tab.rising_map (fun e => e.2.map (f e)) h.1, ?_⟩
  rw [List.all_eq_true] at *
  intro e he
  obtain ⟨x, hx, rfl⟩ := List.mem_map.mp he
  have := h.2 x hx
  simp only [decide_eq_true_eq] at this ⊢
  cases hq : x.2 with
  | none => exact absurd hq this
  | some y => simp

end Sys2Proof.Machine
end

