-- ==== Sys2Proof/Laws/OkOps.lean ====
section
/-! SUPPORT. The operations of Machine/Ops.lean keep the canonical form of the tables and leave the build, the queue,
the pins, the fuses, the test port and the time alone. -/
namespace Sys2Proof.Machine
open Sys2Proof
set_option linter.unusedTactic false
set_option linter.unreachableTactic false
set_option linter.unusedVariables false

theorem State.modReg_ok {b₀ : State} (s : State) (k : Nat) (f : Word → Word) (hs : s.Ok b₀) : (State.modReg s k f).Ok b₀ := by
  unfold State.modReg; try dsimp -proj only
  repeat' (first | with_reducible assumption | intro _ | with_reducible apply State.foldl_ok | with_reducible apply State.foldl_pok | with_reducible apply State.setReg_ok | with_reducible apply State.ite_ok | with_reducible apply State.fst_of | split | with_reducible apply State.mk_pok)

theorem State.countField_ok {b₀ : State} (s : State) (k hi lo n : Nat) (hs : s.Ok b₀) : (State.countField s k hi lo n).Ok b₀ := by
  unfold State.countField; try dsimp -proj only
  repeat' (first | with_reducible assumption | intro _ | with_reducible apply State.foldl_ok | with_reducible apply State.foldl_pok | with_reducible apply State.modReg_ok | with_reducible apply State.ite_ok | with_reducible apply State.fst_of | split | with_reducible apply State.mk_pok)

theorem State.count_ok {b₀ : State} (s : State) (k : Nat) (hs : s.Ok b₀) : (State.count s k).Ok b₀ := by
  unfold State.count; try dsimp -proj only
  repeat' (first | with_reducible assumption | intro _ | with_reducible apply State.foldl_ok | with_reducible apply State.foldl_pok | with_reducible apply State.modReg_ok | with_reducible apply State.ite_ok | with_reducible apply State.fst_of | split | with_reducible apply State.mk_pok)

theorem State.orReg_ok {b₀ : State} (s : State) (k : Nat) (m : Word) (hs : s.Ok b₀) : (State.orReg s k m).Ok b₀ := by
  unfold State.orReg; try dsimp -proj only
  repeat' (first | with_reducible assumption | intro _ | with_reducible apply State.foldl_ok | with_reducible apply State.foldl_pok | with_reducible apply State.modReg_ok | with_reducible apply State.ite_ok | with_reducible apply State.fst_of | split | with_reducible apply State.mk_pok)

theorem State.modLun_ok {b₀ : State} (s : State) (g d : Nat) (f : Lun → Lun) (hs : s.Ok b₀) : (State.modLun s g d f).Ok b₀ := by
  unfold State.modLun; try dsimp -proj only
  repeat' (first | with_reducible assumption | intro _ | with_reducible apply State.foldl_ok | with_reducible apply State.foldl_pok | with_reducible apply State.modLane_ok | with_reducible apply State.ite_ok | with_reducible apply State.fst_of | split | with_reducible apply State.mk_pok)

theorem State.modVec_ok {b₀ : State} (s : State) (v : Nat) (f : Vec → Vec) (hs : s.Ok b₀) : (State.modVec s v f).Ok b₀ := by
  unfold State.modVec; try dsimp -proj only
  repeat' (first | with_reducible assumption | with_reducible exact fun h => h | with_reducible exact fun h => Tab.wf_setD h _ _ | with_reducible exact fun h => Tab.wf_filter h _ | with_reducible exact fun _ => Tab.wf_nil _ | with_reducible exact fun h => Tab.wf_mapCmds _ h | with_reducible exact fun h => Tab.wf_foldl_setD _ _ _ h | intro _ | with_reducible apply State.foldl_ok | with_reducible apply State.foldl_pok | with_reducible apply State.modSignal_ok | with_reducible apply State.ite_ok | with_reducible apply State.fst_of | split | with_reducible apply State.mk_pok | with_reducible apply State.mk_ok)

theorem State.modCore_ok {b₀ : State} (s : State) (c : Nat) (f : Core → Core) (hs : s.Ok b₀) : (State.modCore s c f).Ok b₀ := by
  unfold State.modCore; split
  · exact hs
  · exact State.modCluster_ok _ _ _ hs

theorem State.modCmd_ok {b₀ : State} (s : State) (c h : Nat) (f : Cmd → Cmd) (hs : s.Ok b₀) : (State.modCmd s c h f).Ok b₀ := by
  unfold State.modCmd; try dsimp -proj only
  repeat' (first | with_reducible assumption | intro _ | with_reducible apply State.foldl_ok | with_reducible apply State.foldl_pok | with_reducible apply State.setCmd_ok | with_reducible apply State.ite_ok | with_reducible apply State.fst_of | split | with_reducible apply State.mk_pok)

end Sys2Proof.Machine
end

