-- ==== Sys2Proof/Laws/OkFlags.lean ====
section
/-! SUPPORT. The operations of Machine/Flags.lean keep the canonical form of the tables and leave the build, the queue,
the pins, the fuses, the test port and the time alone. -/
namespace Sys2Proof.Machine
open Sys2Proof
set_option linter.unusedTactic false
set_option linter.unreachableTactic false
set_option linter.unusedVariables false

theorem State.raise_ok {b₀ : State} (s : State) (page b : Nat) (hs : s.Ok b₀) : (State.raise s page b).Ok b₀ := by
  unfold State.raise; try dsimp -proj only
  repeat' (first | with_reducible assumption | intro _ | with_reducible apply State.foldl_ok | with_reducible apply State.foldl_pok | with_reducible apply State.orReg_ok | with_reducible apply State.ite_ok | with_reducible apply State.fst_of | split | with_reducible apply State.mk_pok)

theorem State.latch_ok {b₀ : State} (s : State) (m : BitVec 128) (hs : s.Ok b₀) : (State.latch s m).Ok b₀ := by
  unfold State.latch; try dsimp -proj only
  repeat' (first | with_reducible assumption | with_reducible exact fun h => h | with_reducible exact fun h => Tab.wf_setD h _ _ | with_reducible exact fun h => Tab.wf_filter h _ | with_reducible exact fun _ => Tab.wf_nil _ | with_reducible exact fun h => Tab.wf_mapCmds _ h | with_reducible exact fun h => Tab.wf_foldl_setD _ _ _ h | intro _ | with_reducible apply State.foldl_ok | with_reducible apply State.foldl_pok | with_reducible apply State.modSignal_ok | with_reducible apply State.ite_ok | with_reducible apply State.fst_of | split | with_reducible apply State.mk_pok | with_reducible apply State.mk_ok)

theorem State.pulse_ok {b₀ : State} (s : State) (n : Nat) (hs : s.Ok b₀) : (State.pulse s n).Ok b₀ := by
  unfold State.pulse; try dsimp -proj only
  repeat' (first | with_reducible assumption | intro _ | with_reducible apply State.foldl_ok | with_reducible apply State.foldl_pok | with_reducible apply State.latch_ok | with_reducible apply State.ite_ok | with_reducible apply State.fst_of | split | with_reducible apply State.mk_pok)

theorem State.rest_ok {b₀ : State} (s : State) (hs : s.Ok b₀) : (State.rest s).Ok b₀ := by
  unfold State.rest; try dsimp -proj only
  repeat' (first | with_reducible assumption | with_reducible exact fun h => h | with_reducible exact fun h => Tab.wf_setD h _ _ | with_reducible exact fun h => Tab.wf_filter h _ | with_reducible exact fun _ => Tab.wf_nil _ | with_reducible exact fun h => Tab.wf_mapCmds _ h | with_reducible exact fun h => Tab.wf_foldl_setD _ _ _ h | intro _ | with_reducible apply State.foldl_ok | with_reducible apply State.foldl_pok | with_reducible apply State.modCache_ok | with_reducible apply State.modBlotter_ok | with_reducible apply State.ite_ok | with_reducible apply State.fst_of | split | with_reducible apply State.mk_pok | with_reducible apply State.mk_ok)

theorem settle_ok {b₀ : State} (old new : State) (hold : old.Ok b₀) (hnew : new.Ok b₀) : (settle old new).Ok b₀ := by
  unfold settle; try dsimp -proj only
  repeat' (first | with_reducible assumption | intro _ | with_reducible apply State.foldl_ok | with_reducible apply State.foldl_pok | with_reducible apply State.rest_ok | with_reducible apply State.latch_ok | with_reducible apply State.ite_ok | with_reducible apply State.fst_of | split | with_reducible apply State.mk_pok)

theorem State.capture_ok {b₀ : State} (s : State) (page cls : Nat) (seq : Word) (d : List Word) (hs : s.Ok b₀) : (State.capture s page cls seq d).Ok b₀ := by
  unfold State.capture; try dsimp -proj only
  repeat' (first | with_reducible assumption | with_reducible exact fun h => h | with_reducible exact fun h => Tab.wf_setD h _ _ | with_reducible exact fun h => Tab.wf_filter h _ | with_reducible exact fun _ => Tab.wf_nil _ | with_reducible exact fun h => Tab.wf_mapCmds _ h | with_reducible exact fun h => Tab.wf_foldl_setD _ _ _ h | intro _ | with_reducible apply State.foldl_ok | with_reducible apply State.foldl_pok | with_reducible apply State.setReg_ok | with_reducible apply State.modBlotter_ok | with_reducible apply State.ite_ok | with_reducible apply State.fst_of | split | with_reducible apply State.mk_pok | with_reducible apply State.mk_ok)

theorem State.retain_ok {b₀ : State} (s : State) (r : List Word) (hs : s.Ok b₀) : (State.retain s r).Ok b₀ := by
  unfold State.retain; try dsimp -proj only
  repeat' (first | with_reducible assumption | with_reducible exact fun h => h | with_reducible exact fun h => Tab.wf_setD h _ _ | with_reducible exact fun h => Tab.wf_filter h _ | with_reducible exact fun _ => Tab.wf_nil _ | with_reducible exact fun h => Tab.wf_mapCmds _ h | with_reducible exact fun h => Tab.wf_foldl_setD _ _ _ h | intro _ | with_reducible apply State.foldl_ok | with_reducible apply State.foldl_pok | with_reducible apply State.modBlotter_ok | with_reducible apply State.countField_ok | with_reducible apply State.ite_ok | with_reducible apply State.fst_of | split | with_reducible apply State.mk_pok | with_reducible apply State.mk_ok)

theorem State.shiftCaptures_ok {b₀ : State} (s : State) (seq : Word) (n : Nat) (hs : s.Ok b₀) : (State.shiftCaptures s seq n).Ok b₀ := by
  unfold State.shiftCaptures; try dsimp -proj only
  repeat' (first | with_reducible assumption | intro _ | with_reducible apply State.foldl_ok | with_reducible apply State.foldl_pok | with_reducible apply State.modReg_ok | with_reducible apply State.ite_ok | with_reducible apply State.fst_of | split | with_reducible apply State.mk_pok)

theorem State.enqueue_ok {b₀ : State} (s : State) (sev : Nat) (r : List Word) (hs : s.Ok b₀) : (State.enqueue s sev r).Ok b₀ := by
  unfold State.enqueue; try dsimp -proj only
  repeat' (first | with_reducible assumption | with_reducible exact fun h => h | with_reducible exact fun h => Tab.wf_setD h _ _ | with_reducible exact fun h => Tab.wf_filter h _ | with_reducible exact fun _ => Tab.wf_nil _ | with_reducible exact fun h => Tab.wf_mapCmds _ h | with_reducible exact fun h => Tab.wf_foldl_setD _ _ _ h | intro _ | with_reducible apply State.foldl_ok | with_reducible apply State.foldl_pok | with_reducible apply State.raise_ok | with_reducible apply State.countField_ok | with_reducible apply State.modBlotter_ok | with_reducible apply State.ite_ok | with_reducible apply State.fst_of | split | with_reducible apply State.mk_pok | with_reducible apply State.mk_ok)

theorem State.blot_ok {b₀ : State} (s : State) (page cls : Nat) (inst : Option Nat) (d : List Word) (hs : s.Ok b₀) : (State.blot s page cls inst d).Ok b₀ := by
  unfold State.blot; try dsimp -proj only
  repeat' (first | with_reducible assumption | with_reducible exact fun h => h | with_reducible exact fun h => Tab.wf_setD h _ _ | with_reducible exact fun h => Tab.wf_filter h _ | with_reducible exact fun _ => Tab.wf_nil _ | with_reducible exact fun h => Tab.wf_mapCmds _ h | with_reducible exact fun h => Tab.wf_foldl_setD _ _ _ h | intro _ | with_reducible apply State.foldl_ok | with_reducible apply State.foldl_pok | with_reducible apply State.countField_ok | with_reducible apply State.shiftCaptures_ok | with_reducible apply State.modBlotter_ok | with_reducible apply State.capture_ok | with_reducible apply State.enqueue_ok | with_reducible apply State.ite_ok | with_reducible apply State.fst_of | split | with_reducible apply State.mk_pok | with_reducible apply State.mk_ok)

theorem State.blotterTake_ok {b₀ : State} (s : State) (hs : s.Ok b₀) : (State.blotterTake s).Ok b₀ := by
  unfold State.blotterTake; try dsimp -proj only
  repeat' (first | with_reducible assumption | with_reducible exact fun h => h | with_reducible exact fun h => Tab.wf_setD h _ _ | with_reducible exact fun h => Tab.wf_filter h _ | with_reducible exact fun _ => Tab.wf_nil _ | with_reducible exact fun h => Tab.wf_mapCmds _ h | with_reducible exact fun h => Tab.wf_foldl_setD _ _ _ h | intro _ | with_reducible apply State.foldl_ok | with_reducible apply State.foldl_pok | with_reducible apply State.modBlotter_ok | with_reducible apply State.retain_ok | with_reducible apply State.ite_ok | with_reducible apply State.fst_of | split | with_reducible apply State.mk_pok | with_reducible apply State.mk_ok)

theorem State.blotterDrain_ok {b₀ : State} (n : Nat) (s : State) (hs : s.Ok b₀) : (State.blotterDrain n s).Ok b₀ := by
  induction n generalizing s with
  | zero => exact hs
  | succ n ih => exact ih _ (State.blotterTake_ok s hs)

theorem runs_done {b : State} (s t : State) (hs : s.Ok b) (ht : t.Ok b) : Runs b (done s t) := ⟨_, rfl, settle_ok s t hs ht⟩

end Sys2Proof.Machine
end

