-- ==== Sys2Proof/Laws/OkDraw.lean ====
section
/-! SUPPORT. The operations of Machine/Draw.lean keep the canonical form of the tables and leave the build, the queue,
the pins, the fuses, the test port and the time alone. -/
namespace Sys2Proof.Machine
open Sys2Proof
set_option linter.unusedTactic false
set_option linter.unreachableTactic false
set_option linter.unusedVariables false

theorem State.pxSlot_ok {b₀ : State} (s : State) (page point k : Nat) (hs : s.Ok b₀) : State.POk b₀ (State.pxSlot s page point k) := by
  unfold State.pxSlot; try dsimp -proj only
  repeat' (first | with_reducible assumption | with_reducible exact fun h => h | with_reducible exact fun h => Tab.wf_setD h _ _ | with_reducible exact fun h => Tab.wf_filter h _ | with_reducible exact fun _ => Tab.wf_nil _ | with_reducible exact fun h => Tab.wf_mapCmds _ h | with_reducible exact fun h => Tab.wf_foldl_setD _ _ _ h | intro _ | with_reducible apply State.foldl_ok | with_reducible apply State.foldl_pok | with_reducible apply State.setReg_ok | with_reducible apply State.blot_ok | with_reducible apply State.ite_ok | with_reducible apply State.ite_pok | with_reducible apply State.fst_of | split | with_reducible apply State.mk_pok | with_reducible apply State.mk_ok)

theorem State.opportunity_ok {b₀ : State} (s : State) (page point : Nat) (hs : s.Ok b₀) : State.POk b₀ (State.opportunity s page point) := by
  unfold State.opportunity; try dsimp -proj only
  repeat' (first | with_reducible assumption | intro _ | with_reducible apply State.foldl_ok | with_reducible apply State.foldl_pok | with_reducible apply State.pxSlot_ok | with_reducible apply State.ite_ok | with_reducible apply State.ite_pok | with_reducible apply State.fst_of | split | with_reducible apply State.mk_pok)

theorem State.opportunities_ok {b₀ : State} (s : State) (page point n : Nat) (hs : s.Ok b₀) : State.POk b₀ (State.opportunities s page point n) := by
  unfold State.opportunities; try dsimp -proj only
  repeat' (first | with_reducible assumption | intro _ | with_reducible apply State.foldl_ok | with_reducible apply State.foldl_pok | with_reducible apply State.opportunity_ok | with_reducible apply State.ite_ok | with_reducible apply State.ite_pok | with_reducible apply State.fst_of | split | with_reducible apply State.mk_pok)

theorem State.pxResetAll_ok {b₀ : State} (s : State) (hs : s.Ok b₀) : (State.pxResetAll s).Ok b₀ := by
  unfold State.pxResetAll; try dsimp -proj only
  repeat' (first | with_reducible assumption | with_reducible exact fun h => h | with_reducible exact fun h => Tab.wf_setD h _ _ | with_reducible exact fun h => Tab.wf_filter h _ | with_reducible exact fun _ => Tab.wf_nil _ | with_reducible exact fun h => Tab.wf_mapCmds _ h | with_reducible exact fun h => Tab.wf_foldl_setD _ _ _ h | intro _ | with_reducible apply State.foldl_ok | with_reducible apply State.foldl_pok | with_reducible apply State.ite_ok | with_reducible apply State.fst_of | split | with_reducible apply State.mk_pok | with_reducible apply State.mk_ok)

theorem State.pxResetPage_ok {b₀ : State} (s : State) (page : Nat) (hs : s.Ok b₀) : (State.pxResetPage s page).Ok b₀ := by
  unfold State.pxResetPage; try dsimp -proj only
  repeat' (first | with_reducible assumption | with_reducible exact fun h => h | with_reducible exact fun h => Tab.wf_setD h _ _ | with_reducible exact fun h => Tab.wf_filter h _ | with_reducible exact fun _ => Tab.wf_nil _ | with_reducible exact fun h => Tab.wf_mapCmds _ h | with_reducible exact fun h => Tab.wf_foldl_setD _ _ _ h | intro _ | with_reducible apply State.foldl_ok | with_reducible apply State.foldl_pok | with_reducible apply State.ite_ok | with_reducible apply State.fst_of | split | with_reducible apply State.mk_pok | with_reducible apply State.mk_ok)

theorem State.pxDropFaults_ok {b₀ : State} (s : State) (hs : s.Ok b₀) : (State.pxDropFaults s).Ok b₀ := by
  unfold State.pxDropFaults; try dsimp -proj only
  repeat' (first | with_reducible assumption | with_reducible exact fun h => h | with_reducible exact fun h => Tab.wf_setD h _ _ | with_reducible exact fun h => Tab.wf_filter h _ | with_reducible exact fun _ => Tab.wf_nil _ | with_reducible exact fun h => Tab.wf_mapCmds _ h | with_reducible exact fun h => Tab.wf_foldl_setD _ _ _ h | intro _ | with_reducible apply State.foldl_ok | with_reducible apply State.foldl_pok | with_reducible apply State.ite_ok | with_reducible apply State.fst_of | split | with_reducible apply State.mk_pok | with_reducible apply State.mk_ok)

theorem State.pbClose_ok {b₀ : State} (s : State) (hs : s.Ok b₀) : (State.pbClose s).Ok b₀ := by
  unfold State.pbClose; try dsimp -proj only
  repeat' (first | with_reducible assumption | with_reducible exact fun h => h | with_reducible exact fun h => Tab.wf_setD h _ _ | with_reducible exact fun h => Tab.wf_filter h _ | with_reducible exact fun _ => Tab.wf_nil _ | with_reducible exact fun h => Tab.wf_mapCmds _ h | with_reducible exact fun h => Tab.wf_foldl_setD _ _ _ h | intro _ | with_reducible apply State.foldl_ok | with_reducible apply State.foldl_pok | with_reducible apply State.modGlb_ok | with_reducible apply State.pxResetAll_ok | with_reducible apply State.ite_ok | with_reducible apply State.fst_of | split | with_reducible apply State.mk_pok | with_reducible apply State.mk_ok)

theorem State.expertShut_ok {b₀ : State} (s : State) (hs : s.Ok b₀) : (State.expertShut s).Ok b₀ := by
  unfold State.expertShut; try dsimp -proj only
  repeat' (first | with_reducible assumption | with_reducible exact fun h => h | with_reducible exact fun h => Tab.wf_setD h _ _ | with_reducible exact fun h => Tab.wf_filter h _ | with_reducible exact fun _ => Tab.wf_nil _ | with_reducible exact fun h => Tab.wf_mapCmds _ h | with_reducible exact fun h => Tab.wf_foldl_setD _ _ _ h | intro _ | with_reducible apply State.foldl_ok | with_reducible apply State.foldl_pok | with_reducible apply State.modGlb_ok | with_reducible apply State.pbClose_ok | with_reducible apply State.ite_ok | with_reducible apply State.fst_of | split | with_reducible apply State.mk_pok | with_reducible apply State.mk_ok)

theorem State.expertDrop_ok {b₀ : State} (s : State) (hs : s.Ok b₀) : (State.expertDrop s).Ok b₀ := by
  unfold State.expertDrop; try dsimp -proj only
  repeat' (first | with_reducible assumption | intro _ | with_reducible apply State.foldl_ok | with_reducible apply State.foldl_pok | with_reducible apply State.expertShut_ok | with_reducible apply State.ite_ok | with_reducible apply State.fst_of | split | with_reducible apply State.mk_pok)

theorem State.toMode_ok {b₀ : State} (s : State) (m : Mode) (hs : s.Ok b₀) : (State.toMode s m).Ok b₀ := by
  unfold State.toMode; try dsimp -proj only
  repeat' (first | with_reducible assumption | with_reducible exact fun h => h | with_reducible exact fun h => Tab.wf_setD h _ _ | with_reducible exact fun h => Tab.wf_filter h _ | with_reducible exact fun _ => Tab.wf_nil _ | with_reducible exact fun h => Tab.wf_mapCmds _ h | with_reducible exact fun h => Tab.wf_foldl_setD _ _ _ h | intro _ | with_reducible apply State.foldl_ok | with_reducible apply State.foldl_pok | with_reducible apply State.modGlb_ok | with_reducible apply State.expertDrop_ok | with_reducible apply State.pulse_ok | with_reducible apply State.ite_ok | with_reducible apply State.fst_of | split | with_reducible apply State.mk_pok | with_reducible apply State.mk_ok)

end Sys2Proof.Machine
end

