-- ==== Sys2Proof/Laws/OkVectors.lean ====
section
/-! SUPPORT. The operations of Machine/Vectors.lean keep the canonical form of the tables and leave the build, the queue,
the pins, the fuses, the test port and the time alone. -/
namespace Sys2Proof.Machine
open Sys2Proof
set_option linter.unusedTactic false
set_option linter.unreachableTactic false
set_option linter.unusedVariables false

theorem State.hpPush_ok {b₀ : State} (s : State) (p : Nat) (r : HpReq) (hs : s.Ok b₀) : (State.hpPush s p r).Ok b₀ := by
  unfold State.hpPush; try dsimp -proj only
  repeat' (first | with_reducible assumption | with_reducible exact fun h => h | with_reducible exact fun h => Tab.wf_setD h _ _ | with_reducible exact fun h => Tab.wf_filter h _ | with_reducible exact fun _ => Tab.wf_nil _ | with_reducible exact fun h => Tab.wf_mapCmds _ h | with_reducible exact fun h => Tab.wf_foldl_setD _ _ _ h | intro _ | with_reducible apply State.foldl_ok | with_reducible apply State.foldl_pok | with_reducible apply State.modPort_ok | with_reducible apply State.present_ok | with_reducible apply State.ite_ok | with_reducible apply State.fst_of | split | with_reducible apply State.mk_pok | with_reducible apply State.mk_ok)

theorem State.vecShut_ok {b₀ : State} (s : State) (v : Nat) (hs : s.Ok b₀) : (State.vecShut s v).Ok b₀ := by
  unfold State.vecShut; try dsimp -proj only
  repeat' (first | with_reducible assumption | with_reducible exact fun h => h | with_reducible exact fun h => Tab.wf_setD h _ _ | with_reducible exact fun h => Tab.wf_filter h _ | with_reducible exact fun _ => Tab.wf_nil _ | with_reducible exact fun h => Tab.wf_mapCmds _ h | with_reducible exact fun h => Tab.wf_foldl_setD _ _ _ h | intro _ | with_reducible apply State.foldl_ok | with_reducible apply State.foldl_pok | with_reducible apply State.modVec_ok | with_reducible apply State.count_ok | with_reducible apply State.ite_ok | with_reducible apply State.fst_of | split | with_reducible apply State.mk_pok | with_reducible apply State.mk_ok)

theorem State.vecWithdraw_ok {b₀ : State} (s : State) (v : Nat) (hs : s.Ok b₀) : (State.vecWithdraw s v).Ok b₀ := by
  unfold State.vecWithdraw; try dsimp -proj only
  repeat' (first | with_reducible assumption | intro _ | with_reducible apply State.foldl_ok | with_reducible apply State.foldl_pok | with_reducible apply State.modPort_ok | with_reducible apply State.modVec_ok | with_reducible apply State.ite_ok | with_reducible apply State.fst_of | split | with_reducible apply State.mk_pok)

theorem State.vecArrange_ok {b₀ : State} (s : State) (v : Nat) (hs : s.Ok b₀) : (State.vecArrange s v).Ok b₀ := by
  unfold State.vecArrange; try dsimp -proj only
  repeat' (first | with_reducible assumption | with_reducible exact fun h => h | with_reducible exact fun h => Tab.wf_setD h _ _ | with_reducible exact fun h => Tab.wf_filter h _ | with_reducible exact fun _ => Tab.wf_nil _ | with_reducible exact fun h => Tab.wf_mapCmds _ h | with_reducible exact fun h => Tab.wf_foldl_setD _ _ _ h | intro _ | with_reducible apply State.foldl_ok | with_reducible apply State.foldl_pok | with_reducible apply State.modVec_ok | with_reducible apply State.ite_ok | with_reducible apply State.fst_of | split | with_reducible apply State.mk_pok | with_reducible apply State.mk_ok)

theorem State.vecDeliver_ok {b₀ : State} (s : State) (v t : Nat) (hs : s.Ok b₀) : (State.vecDeliver s v t).Ok b₀ := by
  unfold State.vecDeliver; try dsimp -proj only
  repeat' (first | with_reducible assumption | with_reducible exact fun h => h | with_reducible exact fun h => Tab.wf_setD h _ _ | with_reducible exact fun h => Tab.wf_filter h _ | with_reducible exact fun _ => Tab.wf_nil _ | with_reducible exact fun h => Tab.wf_mapCmds _ h | with_reducible exact fun h => Tab.wf_foldl_setD _ _ _ h | intro _ | with_reducible apply State.foldl_ok | with_reducible apply State.foldl_pok | with_reducible apply State.opportunity_ok | with_reducible apply State.modVec_ok | with_reducible apply State.count_ok | with_reducible apply State.orReg_ok | with_reducible apply State.vecArrange_ok | with_reducible apply State.countField_ok | with_reducible apply State.ite_ok | with_reducible apply State.fst_of | split | with_reducible apply State.mk_pok | with_reducible apply State.mk_ok)

theorem State.vecCheck_ok {b₀ : State} (s : State) (v : Nat) (hs : s.Ok b₀) : (State.vecCheck s v).Ok b₀ := by
  unfold State.vecCheck; try dsimp -proj only
  repeat' (first | with_reducible assumption | intro _ | with_reducible apply State.foldl_ok | with_reducible apply State.foldl_pok | with_reducible apply State.count_ok | with_reducible apply State.vecDeliver_ok | with_reducible apply State.ite_ok | with_reducible apply State.fst_of | split | with_reducible apply State.mk_pok)

theorem State.vecOpen_ok {b₀ : State} (s : State) (v : Nat) (hs : s.Ok b₀) : (State.vecOpen s v).Ok b₀ := by
  unfold State.vecOpen; try dsimp -proj only
  repeat' (first | with_reducible assumption | with_reducible exact fun h => h | with_reducible exact fun h => Tab.wf_setD h _ _ | with_reducible exact fun h => Tab.wf_filter h _ | with_reducible exact fun _ => Tab.wf_nil _ | with_reducible exact fun h => Tab.wf_mapCmds _ h | with_reducible exact fun h => Tab.wf_foldl_setD _ _ _ h | intro _ | with_reducible apply State.foldl_ok | with_reducible apply State.foldl_pok | with_reducible apply State.modVec_ok | with_reducible apply State.count_ok | with_reducible apply State.ite_ok | with_reducible apply State.fst_of | split | with_reducible apply State.mk_pok | with_reducible apply State.mk_ok)

theorem State.vecCount_ok {b₀ : State} (s : State) (v port : Nat) (w : Option (Nat × Nat)) (hs : s.Ok b₀) : (State.vecCount s v port w).Ok b₀ := by
  unfold State.vecCount; try dsimp -proj only
  repeat' (first | with_reducible assumption | intro _ | with_reducible apply State.foldl_ok | with_reducible apply State.foldl_pok | with_reducible apply State.modVec_ok | with_reducible apply State.vecCheck_ok | with_reducible apply State.ite_ok | with_reducible apply State.fst_of | split | with_reducible apply State.mk_pok)

theorem State.vecRaise_ok {b₀ : State} (s : State) (v port : Nat) (w : Option (Nat × Nat)) (hs : s.Ok b₀) : (State.vecRaise s v port w).Ok b₀ := by
  unfold State.vecRaise; try dsimp -proj only
  repeat' (first | with_reducible assumption | intro _ | with_reducible apply State.foldl_ok | with_reducible apply State.foldl_pok | with_reducible apply State.vecDeliver_ok | with_reducible apply State.modVec_ok | with_reducible apply State.vecOpen_ok | with_reducible apply State.vecCount_ok | with_reducible apply State.ite_ok | with_reducible apply State.fst_of | split | with_reducible apply State.mk_pok)

theorem State.vecAnswered_ok {b₀ : State} (s : State) (w : Nat × Nat) (hs : s.Ok b₀) : (State.vecAnswered s w).Ok b₀ := by
  unfold State.vecAnswered; try dsimp -proj only
  repeat' (first | with_reducible assumption | with_reducible exact fun h => h | with_reducible exact fun h => Tab.wf_setD h _ _ | with_reducible exact fun h => Tab.wf_filter h _ | with_reducible exact fun _ => Tab.wf_nil _ | with_reducible exact fun h => Tab.wf_mapCmds _ h | with_reducible exact fun h => Tab.wf_foldl_setD _ _ _ h | intro _ | with_reducible apply State.foldl_ok | with_reducible apply State.foldl_pok | with_reducible apply State.modSignal_ok | with_reducible apply State.ite_ok | with_reducible apply State.fst_of | split | with_reducible apply State.mk_pok | with_reducible apply State.mk_ok)

theorem State.vecParity_ok {b₀ : State} (s : State) (v word : Nat) (hs : s.Ok b₀) : (State.vecParity s v word).Ok b₀ := by
  unfold State.vecParity; try dsimp -proj only
  repeat' (first | with_reducible assumption | with_reducible exact fun h => h | with_reducible exact fun h => Tab.wf_setD h _ _ | with_reducible exact fun h => Tab.wf_filter h _ | with_reducible exact fun _ => Tab.wf_nil _ | with_reducible exact fun h => Tab.wf_mapCmds _ h | with_reducible exact fun h => Tab.wf_foldl_setD _ _ _ h | intro _ | with_reducible apply State.foldl_ok | with_reducible apply State.foldl_pok | with_reducible apply State.orReg_ok | with_reducible apply State.raise_ok | with_reducible apply State.blot_ok | with_reducible apply State.vecShut_ok | with_reducible apply State.vecWithdraw_ok | with_reducible apply State.modVec_ok | with_reducible apply State.ite_ok | with_reducible apply State.fst_of | split | with_reducible apply State.mk_pok | with_reducible apply State.mk_ok)

theorem State.vecFind_ok {b₀ : State} (s : State) (v : Nat) (bad : Option (Fin 5)) (hs : s.Ok b₀) : (State.vecFind s v bad).Ok b₀ := by
  unfold State.vecFind; try dsimp -proj only
  repeat' (first | with_reducible assumption | intro _ | with_reducible apply State.foldl_ok | with_reducible apply State.foldl_pok | with_reducible apply State.vecParity_ok | with_reducible apply State.ite_ok | with_reducible apply State.fst_of | split | with_reducible apply State.mk_pok)

theorem State.vecExpire_ok {b₀ : State} (s : State) (v t : Nat) (hs : s.Ok b₀) : (State.vecExpire s v t).Ok b₀ := by
  unfold State.vecExpire; try dsimp -proj only
  repeat' (first | with_reducible assumption | intro _ | with_reducible apply State.foldl_ok | with_reducible apply State.foldl_pok | with_reducible apply State.vecDeliver_ok | with_reducible apply State.ite_ok | with_reducible apply State.fst_of | split | with_reducible apply State.mk_pok)

theorem State.wakeBlock_ok {b₀ : State} (s : State) (hs : s.Ok b₀) : (State.wakeBlock s).Ok b₀ := by
  unfold State.wakeBlock; try dsimp -proj only
  repeat' (first | with_reducible assumption | with_reducible exact fun h => h | with_reducible exact fun h => Tab.wf_setD h _ _ | with_reducible exact fun h => Tab.wf_filter h _ | with_reducible exact fun _ => Tab.wf_nil _ | with_reducible exact fun h => Tab.wf_mapCmds _ h | with_reducible exact fun h => Tab.wf_foldl_setD _ _ _ h | intro _ | with_reducible apply State.foldl_ok | with_reducible apply State.foldl_pok | with_reducible apply State.modSignal_ok | with_reducible apply State.setReg_ok | with_reducible apply State.vecExpire_ok | with_reducible apply State.ite_ok | with_reducible apply State.fst_of | split | with_reducible apply State.mk_pok | with_reducible apply State.mk_ok)

end Sys2Proof.Machine
end

