-- ==== Sys2Proof/Laws/OkOperands.lean ====
section
/-! SUPPORT. The operations of Machine/Operands.lean keep the canonical form of the tables and leave the build, the queue,
the pins, the fuses, the test port and the time alone. -/
namespace Sys2Proof.Machine
open Sys2Proof
set_option linter.unusedTactic false
set_option linter.unreachableTactic false
set_option linter.unusedVariables false

theorem State.countDrop_ok {b₀ : State} (s : State) (reason a : Nat) (hs : s.Ok b₀) : (State.countDrop s reason a).Ok b₀ := by
  unfold State.countDrop; try dsimp -proj only
  repeat' (first | with_reducible assumption | intro _ | with_reducible apply State.foldl_ok | with_reducible apply State.foldl_pok | with_reducible apply State.countField_ok | with_reducible apply State.setReg_ok | with_reducible apply State.ite_ok | with_reducible apply State.fst_of | split | with_reducible apply State.mk_pok)

theorem State.answer_ok {b₀ : State} (s : State) (err : Bool) (d : Option Word) (hs : s.Ok b₀) : (State.answer s err d).Ok b₀ := by
  unfold State.answer; try dsimp -proj only
  repeat' (first | with_reducible assumption | with_reducible exact fun h => h | with_reducible exact fun h => Tab.wf_setD h _ _ | with_reducible exact fun h => Tab.wf_filter h _ | with_reducible exact fun _ => Tab.wf_nil _ | with_reducible exact fun h => Tab.wf_mapCmds _ h | with_reducible exact fun h => Tab.wf_foldl_setD _ _ _ h | intro _ | with_reducible apply State.foldl_ok | with_reducible apply State.foldl_pok | with_reducible apply State.ite_ok | with_reducible apply State.fst_of | split | with_reducible apply State.mk_pok | with_reducible apply State.mk_ok)

theorem State.scanAnswer_ok {b₀ : State} (s : State) (hs : s.Ok b₀) : (State.scanAnswer s).Ok b₀ := by
  unfold State.scanAnswer; try dsimp -proj only
  repeat' (first | with_reducible assumption | with_reducible exact fun h => h | with_reducible exact fun h => Tab.wf_setD h _ _ | with_reducible exact fun h => Tab.wf_filter h _ | with_reducible exact fun _ => Tab.wf_nil _ | with_reducible exact fun h => Tab.wf_mapCmds _ h | with_reducible exact fun h => Tab.wf_foldl_setD _ _ _ h | intro _ | with_reducible apply State.foldl_ok | with_reducible apply State.foldl_pok | with_reducible apply State.ite_ok | with_reducible apply State.fst_of | split | with_reducible apply State.mk_pok | with_reducible apply State.mk_ok)

theorem State.rpFault_ok {b₀ : State} (s : State) (a : Nat) (id : BitVec 8) (code : Nat) (hs : s.Ok b₀) : (State.rpFault s a id code).Ok b₀ := by
  unfold State.rpFault; try dsimp -proj only
  repeat' (first | with_reducible assumption | intro _ | with_reducible apply State.foldl_ok | with_reducible apply State.foldl_pok | with_reducible apply State.blot_ok | with_reducible apply State.answer_ok | with_reducible apply State.ite_ok | with_reducible apply State.fst_of | split | with_reducible apply State.mk_pok)

theorem State.portBegin_ok {b₀ : State} (s : State) (a : Nat) (hs : s.Ok b₀) : (State.portBegin s a).Ok b₀ := by
  unfold State.portBegin; try dsimp -proj only
  repeat' (first | with_reducible assumption | intro _ | with_reducible apply State.foldl_ok | with_reducible apply State.foldl_pok | with_reducible apply State.wakeBlock_ok | with_reducible apply State.opportunity_ok | with_reducible apply State.ite_ok | with_reducible apply State.fst_of | split | with_reducible apply State.mk_pok)

theorem State.disarm_ok {b₀ : State} (s : State) (a : Nat) (acc : RpAcc) (hs : s.Ok b₀) : (State.disarm s a acc).Ok b₀ := by
  unfold State.disarm; try dsimp -proj only
  repeat' (first | with_reducible assumption | intro _ | with_reducible apply State.foldl_ok | with_reducible apply State.foldl_pok | with_reducible apply State.expertShut_ok | with_reducible apply State.ite_ok | with_reducible apply State.fst_of | split | with_reducible apply State.mk_pok)

theorem State.decideWrite_ok {b₀ : State} (s : State) (a : Nat) (eff : Bool → State → State) (hs : s.Ok b₀) (heff : ∀ k t, t.Ok b₀ → (eff k t).Ok b₀) : (State.decideWrite s a eff).Ok b₀ := by
  unfold State.decideWrite; try dsimp -proj only
  repeat' (first | with_reducible assumption | intro _ | with_reducible apply State.foldl_ok | with_reducible apply State.foldl_pok | with_reducible apply State.countField_ok | with_reducible apply State.countDrop_ok | with_reducible apply heff | with_reducible apply State.ite_ok | with_reducible apply State.fst_of | split | with_reducible apply State.mk_pok)

theorem State.portWrite_ok {b₀ : State} (s : State) (a : Nat) (acc : RpAcc) (eff : Bool → State → State) (hs : s.Ok b₀) (heff : ∀ k t, t.Ok b₀ → (eff k t).Ok b₀) : (State.portWrite s a acc eff).Ok b₀ := by
  unfold State.portWrite; try dsimp -proj only
  repeat' (first | with_reducible assumption | intro _ | with_reducible apply State.foldl_ok | with_reducible apply State.foldl_pok | with_reducible apply State.scanAnswer_ok | with_reducible apply State.answer_ok | with_reducible apply State.portBegin_ok | with_reducible apply State.rpFault_ok | with_reducible apply State.disarm_ok | with_reducible apply State.decideWrite_ok | with_reducible apply heff | with_reducible apply State.ite_ok | with_reducible apply State.fst_of | split | with_reducible apply State.mk_pok)

theorem State.portRead_ok {b₀ : State} (s : State) (a : Nat) (id : BitVec 8) (value : State → Word) (clear : State → State) (hs : s.Ok b₀) (hclear : ∀ t, t.Ok b₀ → (clear t).Ok b₀) : (State.portRead s a id value clear).Ok b₀ := by
  unfold State.portRead; try dsimp -proj only
  repeat' (first | with_reducible assumption | intro _ | with_reducible apply State.foldl_ok | with_reducible apply State.foldl_pok | with_reducible apply State.scanAnswer_ok | with_reducible apply State.answer_ok | with_reducible apply State.portBegin_ok | with_reducible apply State.rpFault_ok | with_reducible apply hclear | with_reducible apply State.ite_ok | with_reducible apply State.fst_of | split | with_reducible apply State.mk_pok)

theorem State.writeRow_ok {b₀ : State} (s : State) (a : Nat) (locked : Bool) (data : Word) (hs : s.Ok b₀) : (State.writeRow s a locked data).Ok b₀ := by
  unfold State.writeRow; try dsimp -proj only
  repeat' (first | with_reducible assumption | with_reducible exact fun h => h | with_reducible exact fun h => Tab.wf_setD h _ _ | with_reducible exact fun h => Tab.wf_filter h _ | with_reducible exact fun _ => Tab.wf_nil _ | with_reducible exact fun h => Tab.wf_mapCmds _ h | with_reducible exact fun h => Tab.wf_foldl_setD _ _ _ h | intro _ | with_reducible apply State.foldl_ok | with_reducible apply State.foldl_pok | with_reducible apply State.modReg_ok | with_reducible apply State.ite_ok | with_reducible apply State.fst_of | split | with_reducible apply State.mk_pok | with_reducible apply State.mk_ok)

end Sys2Proof.Machine
end

