-- ==== Sys2Proof/Laws/OkRepair.lean ====
section
/-! SUPPORT. The operations of Machine/Repair.lean keep the canonical form of the tables and leave the build, the queue,
the pins, the fuses, the test port and the time alone. -/
namespace Sys2Proof.Machine
open Sys2Proof
set_option linter.unusedTactic false
set_option linter.unreachableTactic false
set_option linter.unusedVariables false

theorem State.bucketSet_ok {b₀ : State} (s1 : State) (b g level : Nat) (hs1 : s1.Ok b₀) : (State.bucketSet s1 b g level).Ok b₀ := by
  unfold State.bucketSet; try dsimp -proj only
  repeat' (first | with_reducible assumption | intro _ | with_reducible apply State.foldl_ok | with_reducible apply State.foldl_pok | with_reducible apply State.modReg_ok | with_reducible apply State.countField_ok | with_reducible apply State.raise_ok | with_reducible apply State.blot_ok | with_reducible apply State.ite_ok | with_reducible apply State.fst_of | split | with_reducible apply State.mk_pok)

theorem State.bucketAdd_ok {b₀ : State} (s : State) (b g : Nat) (hs : s.Ok b₀) : (State.bucketAdd s b g).Ok b₀ := by
  unfold State.bucketAdd; try dsimp -proj only
  repeat' (first | with_reducible assumption | intro _ | with_reducible apply State.foldl_ok | with_reducible apply State.foldl_pok | with_reducible apply State.count_ok | with_reducible apply State.bucketSet_ok | with_reducible apply State.ite_ok | with_reducible apply State.fst_of | split | with_reducible apply State.mk_pok)

theorem State.setTracker_ok {b₀ : State} (s : State) (g : Nat) (t : List (Nat × Nat)) (hs : s.Ok b₀) : (State.setTracker s g t).Ok b₀ := by
  unfold State.setTracker; try dsimp -proj only
  repeat' (first | with_reducible assumption | with_reducible exact fun h => h | with_reducible exact fun h => Tab.wf_setD h _ _ | with_reducible exact fun h => Tab.wf_filter h _ | with_reducible exact fun _ => Tab.wf_nil _ | with_reducible exact fun h => Tab.wf_mapCmds _ h | with_reducible exact fun h => Tab.wf_foldl_setD _ _ _ h | intro _ | with_reducible apply State.foldl_ok | with_reducible apply State.foldl_pok | with_reducible apply State.modScrub_ok | with_reducible apply State.ite_ok | with_reducible apply State.fst_of | split | with_reducible apply State.mk_pok | with_reducible apply State.mk_ok)

theorem State.addRemap_ok {b₀ : State} (s : State) (g row : Nat) (preset : Bool) (hs : s.Ok b₀) : (State.addRemap s g row preset).Ok b₀ := by
  unfold State.addRemap; try dsimp -proj only
  repeat' (first | with_reducible assumption | with_reducible exact fun h => h | with_reducible exact fun h => Tab.wf_setD h _ _ | with_reducible exact fun h => Tab.wf_filter h _ | with_reducible exact fun _ => Tab.wf_nil _ | with_reducible exact fun h => Tab.wf_mapCmds _ h | with_reducible exact fun h => Tab.wf_foldl_setD _ _ _ h | intro _ | with_reducible apply State.foldl_ok | with_reducible apply State.foldl_pok | with_reducible apply State.modScrub_ok | with_reducible apply State.preset_ok | with_reducible apply State.setTracker_ok | with_reducible apply State.countField_ok | with_reducible apply State.ite_ok | with_reducible apply State.fst_of | split | with_reducible apply State.mk_pok | with_reducible apply State.mk_ok)

theorem State.remapRow_ok {b₀ : State} (s : State) (g row : Nat) (hs : s.Ok b₀) : (State.remapRow s g row).Ok b₀ := by
  unfold State.remapRow; try dsimp -proj only
  repeat' (first | with_reducible assumption | intro _ | with_reducible apply State.foldl_ok | with_reducible apply State.foldl_pok | with_reducible apply State.countField_ok | with_reducible apply State.raise_ok | with_reducible apply State.blot_ok | with_reducible apply State.addRemap_ok | with_reducible apply State.ite_ok | with_reducible apply State.fst_of | split | with_reducible apply State.mk_pok)

theorem State.trackAt_ok {b₀ : State} (s1 : State) (g row : Nat) (hs1 : s1.Ok b₀) : (State.trackAt s1 g row).Ok b₀ := by
  unfold State.trackAt; try dsimp -proj only
  repeat' (first | with_reducible assumption | intro _ | with_reducible apply State.foldl_ok | with_reducible apply State.foldl_pok | with_reducible apply State.setTracker_ok | with_reducible apply State.remapRow_ok | with_reducible apply State.ite_ok | with_reducible apply State.fst_of | split | with_reducible apply State.mk_pok)

theorem State.corrected_ok {b₀ : State} (s : State) (g row : Nat) (hs : s.Ok b₀) : (State.corrected s g row).Ok b₀ := by
  unfold State.corrected; try dsimp -proj only
  repeat' (first | with_reducible assumption | intro _ | with_reducible apply State.foldl_ok | with_reducible apply State.foldl_pok | with_reducible apply State.bucketAdd_ok | with_reducible apply State.trackAt_ok | with_reducible apply State.ite_ok | with_reducible apply State.fst_of | split | with_reducible apply State.mk_pok)

theorem State.uncorrRow_ok {b₀ : State} (s : State) (g row : Nat) (hs : s.Ok b₀) : (State.uncorrRow s g row).Ok b₀ := by
  unfold State.uncorrRow; try dsimp -proj only
  repeat' (first | with_reducible assumption | intro _ | with_reducible apply State.foldl_ok | with_reducible apply State.foldl_pok | with_reducible apply State.remapRow_ok | with_reducible apply State.ite_ok | with_reducible apply State.fst_of | split | with_reducible apply State.mk_pok)

theorem State.preset_ok {b₀ : State} (s : State) (w : Word) (hs : s.Ok b₀) : (State.preset s w).Ok b₀ := by
  unfold State.preset; try dsimp -proj only
  repeat' (first | with_reducible assumption | intro _ | with_reducible apply State.foldl_ok | with_reducible apply State.foldl_pok | with_reducible apply State.addRemap_ok | with_reducible apply State.countField_ok | with_reducible apply State.ite_ok | with_reducible apply State.fst_of | split | with_reducible apply State.mk_pok)


end Sys2Proof.Machine
end

