-- ==== Sys2Proof/Laws/OkResets.lean ====
section
/-! SUPPORT. The operations of Machine/Resets.lean keep the canonical form of the tables and leave the build, the queue,
the pins, the fuses, the test port and the time alone. -/
namespace Sys2Proof.Machine
open Sys2Proof
set_option linter.unusedTactic false
set_option linter.unreachableTactic false
set_option linter.unusedVariables false

theorem State.initQuota_ok {b₀ : State} (s : State) (hs : s.Ok b₀) : (State.initQuota s).Ok b₀ := by
  unfold State.initQuota; try dsimp -proj only
  repeat' (first | with_reducible assumption | intro _ | with_reducible apply State.foldl_ok | with_reducible apply State.foldl_pok | with_reducible apply State.setReg_ok | with_reducible apply State.ite_ok | with_reducible apply State.fst_of | split | with_reducible apply State.mk_pok)

theorem State.warmScope_ok {b₀ : State} (s : State) (hs : s.Ok b₀) : (State.warmScope s).Ok b₀ := by
  unfold State.warmScope
  apply State.setReg_ok
  apply State.setReg_ok
  apply State.initQuota_ok
  refine ⟨hs.1, ?_⟩
  have hc := hs.2
  simp only [State.canon, Bool.and_eq_true] at hc ⊢
  obtain ⟨⟨⟨⟨⟨⟨⟨⟨⟨⟨⟨⟨⟨c0, c1⟩, c2⟩, c3⟩, c4⟩, c5⟩, c6⟩, c7⟩, c8⟩, c9⟩, c10⟩, c11⟩, c12⟩, c13⟩ := hc
  exact ⟨⟨⟨⟨⟨⟨⟨⟨⟨⟨⟨⟨⟨Tab.wf_filter c0 _, rfl⟩, c2⟩, rfl⟩, rfl⟩, rfl⟩, rfl⟩, rfl⟩, rfl⟩, rfl⟩, rfl⟩, rfl⟩, rfl⟩, rfl⟩


theorem State.applyWarm_ok {b₀ : State} (s : State) (hs : s.Ok b₀) : (State.applyWarm s).Ok b₀ := by
  unfold State.applyWarm; try dsimp -proj only
  repeat' (first | with_reducible assumption | intro _ | with_reducible apply State.foldl_ok | with_reducible apply State.foldl_pok | with_reducible apply State.blotterDrain_ok | with_reducible apply State.toMode_ok | with_reducible apply State.warmScope_ok | with_reducible apply State.orReg_ok | with_reducible apply State.ite_ok | with_reducible apply State.fst_of | split | with_reducible apply State.mk_pok)

theorem State.countFailure_ok {b₀ : State} (s : State) (c : OpenCause) (hs : s.Ok b₀) : (State.countFailure s c).Ok b₀ := by
  unfold State.countFailure; try dsimp -proj only
  repeat' (first | with_reducible assumption | with_reducible exact fun h => h | with_reducible exact fun h => Tab.wf_setD h _ _ | with_reducible exact fun h => Tab.wf_filter h _ | with_reducible exact fun _ => Tab.wf_nil _ | with_reducible exact fun h => Tab.wf_mapCmds _ h | with_reducible exact fun h => Tab.wf_foldl_setD _ _ _ h | intro _ | with_reducible apply State.foldl_ok | with_reducible apply State.foldl_pok | with_reducible apply State.modGlb_ok | with_reducible apply State.blot_ok | with_reducible apply State.ite_ok | with_reducible apply State.fst_of | split | with_reducible apply State.mk_pok | with_reducible apply State.mk_ok)

theorem State.failReset_ok {b₀ : State} (s : State) (hs : s.Ok b₀) : (State.failReset s).Ok b₀ := by
  unfold State.failReset; try dsimp -proj only
  repeat' (first | with_reducible assumption | with_reducible exact fun h => h | with_reducible exact fun h => Tab.wf_setD h _ _ | with_reducible exact fun h => Tab.wf_filter h _ | with_reducible exact fun _ => Tab.wf_nil _ | with_reducible exact fun h => Tab.wf_mapCmds _ h | with_reducible exact fun h => Tab.wf_foldl_setD _ _ _ h | intro _ | with_reducible apply State.foldl_ok | with_reducible apply State.foldl_pok | with_reducible apply State.blotterDrain_ok | with_reducible apply State.toMode_ok | with_reducible apply State.warmScope_ok | with_reducible apply State.modGlb_ok | with_reducible apply State.ite_ok | with_reducible apply State.fst_of | split | with_reducible apply State.mk_pok | with_reducible apply State.mk_ok)

theorem State.openFail_ok {b₀ : State} (s : State) (c : OpenCause) (hs : s.Ok b₀) : (State.openFail s c).Ok b₀ := by
  unfold State.openFail; try dsimp -proj only
  repeat' (first | with_reducible assumption | with_reducible exact fun h => h | with_reducible exact fun h => Tab.wf_setD h _ _ | with_reducible exact fun h => Tab.wf_filter h _ | with_reducible exact fun _ => Tab.wf_nil _ | with_reducible exact fun h => Tab.wf_mapCmds _ h | with_reducible exact fun h => Tab.wf_foldl_setD _ _ _ h | intro _ | with_reducible apply State.foldl_ok | with_reducible apply State.foldl_pok | with_reducible apply State.countFailure_ok | with_reducible apply State.failReset_ok | with_reducible apply State.modGlb_ok | with_reducible apply State.ite_ok | with_reducible apply State.fst_of | split | with_reducible apply State.mk_pok | with_reducible apply State.mk_ok)

theorem State.toPhase_ok {b₀ : State} (s : State) (p : Phase) (hs : s.Ok b₀) : (State.toPhase s p).Ok b₀ := by
  unfold State.toPhase; try dsimp -proj only
  repeat' (first | with_reducible assumption | with_reducible exact fun h => h | with_reducible exact fun h => Tab.wf_setD h _ _ | with_reducible exact fun h => Tab.wf_filter h _ | with_reducible exact fun _ => Tab.wf_nil _ | with_reducible exact fun h => Tab.wf_mapCmds _ h | with_reducible exact fun h => Tab.wf_foldl_setD _ _ _ h | intro _ | with_reducible apply State.foldl_ok | with_reducible apply State.foldl_pok | with_reducible apply State.modGlb_ok | with_reducible apply State.ite_ok | with_reducible apply State.fst_of | split | with_reducible apply State.mk_pok | with_reducible apply State.mk_ok)

theorem State.presentFail_ok {b₀ : State} (s : State) (hs : s.Ok b₀) : (State.presentFail s).Ok b₀ := by
  unfold State.presentFail; try dsimp -proj only
  repeat' (first | with_reducible assumption | with_reducible exact fun h => h | with_reducible exact fun h => Tab.wf_setD h _ _ | with_reducible exact fun h => Tab.wf_filter h _ | with_reducible exact fun _ => Tab.wf_nil _ | with_reducible exact fun h => Tab.wf_mapCmds _ h | with_reducible exact fun h => Tab.wf_foldl_setD _ _ _ h | intro _ | with_reducible apply State.foldl_ok | with_reducible apply State.foldl_pok | with_reducible apply State.modGlb_ok | with_reducible apply State.pulse_ok | with_reducible apply State.ite_ok | with_reducible apply State.fst_of | split | with_reducible apply State.mk_pok | with_reducible apply State.mk_ok)

theorem State.enterOpening_ok {b₀ : State} (s : State) (hs : s.Ok b₀) : (State.enterOpening s).Ok b₀ := by
  unfold State.enterOpening; try dsimp -proj only
  repeat' (first | with_reducible assumption | with_reducible exact fun h => h | with_reducible exact fun h => Tab.wf_setD h _ _ | with_reducible exact fun h => Tab.wf_filter h _ | with_reducible exact fun _ => Tab.wf_nil _ | with_reducible exact fun h => Tab.wf_mapCmds _ h | with_reducible exact fun h => Tab.wf_foldl_setD _ _ _ h | intro _ | with_reducible apply State.foldl_ok | with_reducible apply State.foldl_pok | with_reducible apply State.modGlb_ok | with_reducible apply State.toMode_ok | with_reducible apply State.presentFail_ok | with_reducible apply State.toPhase_ok | with_reducible apply State.openFail_ok | with_reducible apply State.ite_ok | with_reducible apply State.fst_of | split | with_reducible apply State.mk_pok | with_reducible apply State.mk_ok)

end Sys2Proof.Machine
end

