-- ==== Sys2Proof/Laws/State.lean ====
section
/-! SUPPORT. One lemma for each field of the state under each named update, true by unfolding, so that no later proof
unfolds a record update; and the updates that split on what the state holds. -/
namespace Sys2Proof.Machine

@[simp] theorem State.modGlb_build (s : State) (f : Glb → Glb) : (s.modGlb f).build = s.build := rfl
@[simp] theorem State.modGlb_pins (s : State) (f : Glb → Glb) : (s.modGlb f).pins = s.pins := rfl
@[simp] theorem State.modGlb_fuse (s : State) (f : Glb → Glb) : (s.modGlb f).fuse = s.fuse := rfl
@[simp] theorem State.modGlb_tap (s : State) (f : Glb → Glb) : (s.modGlb f).tap = s.tap := rfl
@[simp] theorem State.modGlb_time (s : State) (f : Glb → Glb) : (s.modGlb f).time = s.time := rfl
@[simp] theorem State.modGlb_glb (s : State) (f : Glb → Glb) : (s.modGlb f).glb = f s.glb := rfl
@[simp] theorem State.modGlb_rp (s : State) (f : Glb → Glb) : (s.modGlb f).rp = s.rp := rfl
@[simp] theorem State.modGlb_regs (s : State) (f : Glb → Glb) : (s.modGlb f).regs = s.regs := rfl
@[simp] theorem State.modGlb_images (s : State) (f : Glb → Glb) : (s.modGlb f).images = s.images := rfl
@[simp] theorem State.modGlb_scribe (s : State) (f : Glb → Glb) : (s.modGlb f).scribe = s.scribe := rfl
@[simp] theorem State.modGlb_clusters (s : State) (f : Glb → Glb) : (s.modGlb f).clusters = s.clusters := rfl
@[simp] theorem State.modGlb_lanes (s : State) (f : Glb → Glb) : (s.modGlb f).lanes = s.lanes := rfl
@[simp] theorem State.modGlb_regions (s : State) (f : Glb → Glb) : (s.modGlb f).regions = s.regions := rfl
@[simp] theorem State.modGlb_fetching (s : State) (f : Glb → Glb) : (s.modGlb f).fetching = s.fetching := rfl
@[simp] theorem State.modGlb_cmds (s : State) (f : Glb → Glb) : (s.modGlb f).cmds = s.cmds := rfl
@[simp] theorem State.modGlb_ready (s : State) (f : Glb → Glb) : (s.modGlb f).ready = s.ready := rfl
@[simp] theorem State.modGlb_lateQ (s : State) (f : Glb → Glb) : (s.modGlb f).lateQ = s.lateQ := rfl
@[simp] theorem State.modGlb_posted (s : State) (f : Glb → Glb) : (s.modGlb f).posted = s.posted := rfl
@[simp] theorem State.modGlb_serial (s : State) (f : Glb → Glb) : (s.modGlb f).serial = s.serial := rfl
@[simp] theorem State.modGlb_slabs (s : State) (f : Glb → Glb) : (s.modGlb f).slabs = s.slabs := rfl
@[simp] theorem State.modGlb_ports (s : State) (f : Glb → Glb) : (s.modGlb f).ports = s.ports := rfl
@[simp] theorem State.modGlb_channels (s : State) (f : Glb → Glb) : (s.modGlb f).channels = s.channels := rfl
@[simp] theorem State.modGlb_ticks (s : State) (f : Glb → Glb) : (s.modGlb f).ticks = s.ticks := rfl
@[simp] theorem State.modGlb_cache (s : State) (f : Glb → Glb) : (s.modGlb f).cache = s.cache := rfl
@[simp] theorem State.modGlb_store (s : State) (f : Glb → Glb) : (s.modGlb f).store = s.store := rfl
@[simp] theorem State.modGlb_keys (s : State) (f : Glb → Glb) : (s.modGlb f).keys = s.keys := rfl
@[simp] theorem State.modGlb_tenants (s : State) (f : Glb → Glb) : (s.modGlb f).tenants = s.tenants := rfl
@[simp] theorem State.modGlb_ledger (s : State) (f : Glb → Glb) : (s.modGlb f).ledger = s.ledger := rfl
@[simp] theorem State.modGlb_signal (s : State) (f : Glb → Glb) : (s.modGlb f).signal = s.signal := rfl
@[simp] theorem State.modGlb_blotter (s : State) (f : Glb → Glb) : (s.modGlb f).blotter = s.blotter := rfl
@[simp] theorem State.modGlb_endgame (s : State) (f : Glb → Glb) : (s.modGlb f).endgame = s.endgame := rfl
@[simp] theorem State.modGlb_scrub (s : State) (f : Glb → Glb) : (s.modGlb f).scrub = s.scrub := rfl
@[simp] theorem State.modGlb_draws (s : State) (f : Glb → Glb) : (s.modGlb f).draws = s.draws := rfl
@[simp] theorem State.modGlb_rings (s : State) (f : Glb → Glb) : (s.modGlb f).rings = s.rings := rfl
@[simp] theorem State.modGlb_pairing (s : State) (f : Glb → Glb) : (s.modGlb f).pairing = s.pairing := rfl
@[simp] theorem State.modGlb_freeCtr (s : State) (f : Glb → Glb) : (s.modGlb f).freeCtr = s.freeCtr := rfl
@[simp] theorem State.modGlb_pending (s : State) (f : Glb → Glb) : (s.modGlb f).pending = s.pending := rfl

@[simp] theorem State.modPins_build (s : State) (f : Pins → Pins) : (s.modPins f).build = s.build := rfl
@[simp] theorem State.modPins_pins (s : State) (f : Pins → Pins) : (s.modPins f).pins = f s.pins := rfl
@[simp] theorem State.modPins_fuse (s : State) (f : Pins → Pins) : (s.modPins f).fuse = s.fuse := rfl
@[simp] theorem State.modPins_tap (s : State) (f : Pins → Pins) : (s.modPins f).tap = s.tap := rfl
@[simp] theorem State.modPins_time (s : State) (f : Pins → Pins) : (s.modPins f).time = s.time := rfl
@[simp] theorem State.modPins_glb (s : State) (f : Pins → Pins) : (s.modPins f).glb = s.glb := rfl
@[simp] theorem State.modPins_rp (s : State) (f : Pins → Pins) : (s.modPins f).rp = s.rp := rfl
@[simp] theorem State.modPins_regs (s : State) (f : Pins → Pins) : (s.modPins f).regs = s.regs := rfl
@[simp] theorem State.modPins_images (s : State) (f : Pins → Pins) : (s.modPins f).images = s.images := rfl
@[simp] theorem State.modPins_scribe (s : State) (f : Pins → Pins) : (s.modPins f).scribe = s.scribe := rfl
@[simp] theorem State.modPins_clusters (s : State) (f : Pins → Pins) : (s.modPins f).clusters = s.clusters := rfl
@[simp] theorem State.modPins_lanes (s : State) (f : Pins → Pins) : (s.modPins f).lanes = s.lanes := rfl
@[simp] theorem State.modPins_regions (s : State) (f : Pins → Pins) : (s.modPins f).regions = s.regions := rfl
@[simp] theorem State.modPins_fetching (s : State) (f : Pins → Pins) : (s.modPins f).fetching = s.fetching := rfl
@[simp] theorem State.modPins_cmds (s : State) (f : Pins → Pins) : (s.modPins f).cmds = s.cmds := rfl
@[simp] theorem State.modPins_ready (s : State) (f : Pins → Pins) : (s.modPins f).ready = s.ready := rfl
@[simp] theorem State.modPins_lateQ (s : State) (f : Pins → Pins) : (s.modPins f).lateQ = s.lateQ := rfl
@[simp] theorem State.modPins_posted (s : State) (f : Pins → Pins) : (s.modPins f).posted = s.posted := rfl
@[simp] theorem State.modPins_serial (s : State) (f : Pins → Pins) : (s.modPins f).serial = s.serial := rfl
@[simp] theorem State.modPins_slabs (s : State) (f : Pins → Pins) : (s.modPins f).slabs = s.slabs := rfl
@[simp] theorem State.modPins_ports (s : State) (f : Pins → Pins) : (s.modPins f).ports = s.ports := rfl
@[simp] theorem State.modPins_channels (s : State) (f : Pins → Pins) : (s.modPins f).channels = s.channels := rfl
@[simp] theorem State.modPins_ticks (s : State) (f : Pins → Pins) : (s.modPins f).ticks = s.ticks := rfl
@[simp] theorem State.modPins_cache (s : State) (f : Pins → Pins) : (s.modPins f).cache = s.cache := rfl
@[simp] theorem State.modPins_store (s : State) (f : Pins → Pins) : (s.modPins f).store = s.store := rfl
@[simp] theorem State.modPins_keys (s : State) (f : Pins → Pins) : (s.modPins f).keys = s.keys := rfl
@[simp] theorem State.modPins_tenants (s : State) (f : Pins → Pins) : (s.modPins f).tenants = s.tenants := rfl
@[simp] theorem State.modPins_ledger (s : State) (f : Pins → Pins) : (s.modPins f).ledger = s.ledger := rfl
@[simp] theorem State.modPins_signal (s : State) (f : Pins → Pins) : (s.modPins f).signal = s.signal := rfl
@[simp] theorem State.modPins_blotter (s : State) (f : Pins → Pins) : (s.modPins f).blotter = s.blotter := rfl
@[simp] theorem State.modPins_endgame (s : State) (f : Pins → Pins) : (s.modPins f).endgame = s.endgame := rfl
@[simp] theorem State.modPins_scrub (s : State) (f : Pins → Pins) : (s.modPins f).scrub = s.scrub := rfl
@[simp] theorem State.modPins_draws (s : State) (f : Pins → Pins) : (s.modPins f).draws = s.draws := rfl
@[simp] theorem State.modPins_rings (s : State) (f : Pins → Pins) : (s.modPins f).rings = s.rings := rfl
@[simp] theorem State.modPins_pairing (s : State) (f : Pins → Pins) : (s.modPins f).pairing = s.pairing := rfl
@[simp] theorem State.modPins_freeCtr (s : State) (f : Pins → Pins) : (s.modPins f).freeCtr = s.freeCtr := rfl
@[simp] theorem State.modPins_pending (s : State) (f : Pins → Pins) : (s.modPins f).pending = s.pending := rfl

@[simp] theorem State.modFuse_build (s : State) (f : Fuse → Fuse) : (s.modFuse f).build = s.build := rfl
@[simp] theorem State.modFuse_pins (s : State) (f : Fuse → Fuse) : (s.modFuse f).pins = s.pins := rfl
@[simp] theorem State.modFuse_fuse (s : State) (f : Fuse → Fuse) : (s.modFuse f).fuse = f s.fuse := rfl
@[simp] theorem State.modFuse_tap (s : State) (f : Fuse → Fuse) : (s.modFuse f).tap = s.tap := rfl
@[simp] theorem State.modFuse_time (s : State) (f : Fuse → Fuse) : (s.modFuse f).time = s.time := rfl
@[simp] theorem State.modFuse_glb (s : State) (f : Fuse → Fuse) : (s.modFuse f).glb = s.glb := rfl
@[simp] theorem State.modFuse_rp (s : State) (f : Fuse → Fuse) : (s.modFuse f).rp = s.rp := rfl
@[simp] theorem State.modFuse_regs (s : State) (f : Fuse → Fuse) : (s.modFuse f).regs = s.regs := rfl
@[simp] theorem State.modFuse_images (s : State) (f : Fuse → Fuse) : (s.modFuse f).images = s.images := rfl
@[simp] theorem State.modFuse_scribe (s : State) (f : Fuse → Fuse) : (s.modFuse f).scribe = s.scribe := rfl
@[simp] theorem State.modFuse_clusters (s : State) (f : Fuse → Fuse) : (s.modFuse f).clusters = s.clusters := rfl
@[simp] theorem State.modFuse_lanes (s : State) (f : Fuse → Fuse) : (s.modFuse f).lanes = s.lanes := rfl
@[simp] theorem State.modFuse_regions (s : State) (f : Fuse → Fuse) : (s.modFuse f).regions = s.regions := rfl
@[simp] theorem State.modFuse_fetching (s : State) (f : Fuse → Fuse) : (s.modFuse f).fetching = s.fetching := rfl
@[simp] theorem State.modFuse_cmds (s : State) (f : Fuse → Fuse) : (s.modFuse f).cmds = s.cmds := rfl
@[simp] theorem State.modFuse_ready (s : State) (f : Fuse → Fuse) : (s.modFuse f).ready = s.ready := rfl
@[simp] theorem State.modFuse_lateQ (s : State) (f : Fuse → Fuse) : (s.modFuse f).lateQ = s.lateQ := rfl
@[simp] theorem State.modFuse_posted (s : State) (f : Fuse → Fuse) : (s.modFuse f).posted = s.posted := rfl
@[simp] theorem State.modFuse_serial (s : State) (f : Fuse → Fuse) : (s.modFuse f).serial = s.serial := rfl
@[simp] theorem State.modFuse_slabs (s : State) (f : Fuse → Fuse) : (s.modFuse f).slabs = s.slabs := rfl
@[simp] theorem State.modFuse_ports (s : State) (f : Fuse → Fuse) : (s.modFuse f).ports = s.ports := rfl
@[simp] theorem State.modFuse_channels (s : State) (f : Fuse → Fuse) : (s.modFuse f).channels = s.channels := rfl
@[simp] theorem State.modFuse_ticks (s : State) (f : Fuse → Fuse) : (s.modFuse f).ticks = s.ticks := rfl
@[simp] theorem State.modFuse_cache (s : State) (f : Fuse → Fuse) : (s.modFuse f).cache = s.cache := rfl
@[simp] theorem State.modFuse_store (s : State) (f : Fuse → Fuse) : (s.modFuse f).store = s.store := rfl
@[simp] theorem State.modFuse_keys (s : State) (f : Fuse → Fuse) : (s.modFuse f).keys = s.keys := rfl
@[simp] theorem State.modFuse_tenants (s : State) (f : Fuse → Fuse) : (s.modFuse f).tenants = s.tenants := rfl
@[simp] theorem State.modFuse_ledger (s : State) (f : Fuse → Fuse) : (s.modFuse f).ledger = s.ledger := rfl
@[simp] theorem State.modFuse_signal (s : State) (f : Fuse → Fuse) : (s.modFuse f).signal = s.signal := rfl
@[simp] theorem State.modFuse_blotter (s : State) (f : Fuse → Fuse) : (s.modFuse f).blotter = s.blotter := rfl
@[simp] theorem State.modFuse_endgame (s : State) (f : Fuse → Fuse) : (s.modFuse f).endgame = s.endgame := rfl
@[simp] theorem State.modFuse_scrub (s : State) (f : Fuse → Fuse) : (s.modFuse f).scrub = s.scrub := rfl
@[simp] theorem State.modFuse_draws (s : State) (f : Fuse → Fuse) : (s.modFuse f).draws = s.draws := rfl
@[simp] theorem State.modFuse_rings (s : State) (f : Fuse → Fuse) : (s.modFuse f).rings = s.rings := rfl
@[simp] theorem State.modFuse_pairing (s : State) (f : Fuse → Fuse) : (s.modFuse f).pairing = s.pairing := rfl
@[simp] theorem State.modFuse_freeCtr (s : State) (f : Fuse → Fuse) : (s.modFuse f).freeCtr = s.freeCtr := rfl
@[simp] theorem State.modFuse_pending (s : State) (f : Fuse → Fuse) : (s.modFuse f).pending = s.pending := rfl

@[simp] theorem State.modBlotter_build (s : State) (f : Blotter → Blotter) : (s.modBlotter f).build = s.build := rfl
@[simp] theorem State.modBlotter_pins (s : State) (f : Blotter → Blotter) : (s.modBlotter f).pins = s.pins := rfl
@[simp] theorem State.modBlotter_fuse (s : State) (f : Blotter → Blotter) : (s.modBlotter f).fuse = s.fuse := rfl
@[simp] theorem State.modBlotter_tap (s : State) (f : Blotter → Blotter) : (s.modBlotter f).tap = s.tap := rfl
@[simp] theorem State.modBlotter_time (s : State) (f : Blotter → Blotter) : (s.modBlotter f).time = s.time := rfl
@[simp] theorem State.modBlotter_glb (s : State) (f : Blotter → Blotter) : (s.modBlotter f).glb = s.glb := rfl
@[simp] theorem State.modBlotter_rp (s : State) (f : Blotter → Blotter) : (s.modBlotter f).rp = s.rp := rfl
@[simp] theorem State.modBlotter_regs (s : State) (f : Blotter → Blotter) : (s.modBlotter f).regs = s.regs := rfl
@[simp] theorem State.modBlotter_images (s : State) (f : Blotter → Blotter) : (s.modBlotter f).images = s.images := rfl
@[simp] theorem State.modBlotter_scribe (s : State) (f : Blotter → Blotter) : (s.modBlotter f).scribe = s.scribe := rfl
@[simp] theorem State.modBlotter_clusters (s : State) (f : Blotter → Blotter) : (s.modBlotter f).clusters = s.clusters := rfl
@[simp] theorem State.modBlotter_lanes (s : State) (f : Blotter → Blotter) : (s.modBlotter f).lanes = s.lanes := rfl
@[simp] theorem State.modBlotter_regions (s : State) (f : Blotter → Blotter) : (s.modBlotter f).regions = s.regions := rfl
@[simp] theorem State.modBlotter_fetching (s : State) (f : Blotter → Blotter) : (s.modBlotter f).fetching = s.fetching := rfl
@[simp] theorem State.modBlotter_cmds (s : State) (f : Blotter → Blotter) : (s.modBlotter f).cmds = s.cmds := rfl
@[simp] theorem State.modBlotter_ready (s : State) (f : Blotter → Blotter) : (s.modBlotter f).ready = s.ready := rfl
@[simp] theorem State.modBlotter_lateQ (s : State) (f : Blotter → Blotter) : (s.modBlotter f).lateQ = s.lateQ := rfl
@[simp] theorem State.modBlotter_posted (s : State) (f : Blotter → Blotter) : (s.modBlotter f).posted = s.posted := rfl
@[simp] theorem State.modBlotter_serial (s : State) (f : Blotter → Blotter) : (s.modBlotter f).serial = s.serial := rfl
@[simp] theorem State.modBlotter_slabs (s : State) (f : Blotter → Blotter) : (s.modBlotter f).slabs = s.slabs := rfl
@[simp] theorem State.modBlotter_ports (s : State) (f : Blotter → Blotter) : (s.modBlotter f).ports = s.ports := rfl
@[simp] theorem State.modBlotter_channels (s : State) (f : Blotter → Blotter) : (s.modBlotter f).channels = s.channels := rfl
@[simp] theorem State.modBlotter_ticks (s : State) (f : Blotter → Blotter) : (s.modBlotter f).ticks = s.ticks := rfl
@[simp] theorem State.modBlotter_cache (s : State) (f : Blotter → Blotter) : (s.modBlotter f).cache = s.cache := rfl
@[simp] theorem State.modBlotter_store (s : State) (f : Blotter → Blotter) : (s.modBlotter f).store = s.store := rfl
@[simp] theorem State.modBlotter_keys (s : State) (f : Blotter → Blotter) : (s.modBlotter f).keys = s.keys := rfl
@[simp] theorem State.modBlotter_tenants (s : State) (f : Blotter → Blotter) : (s.modBlotter f).tenants = s.tenants := rfl
@[simp] theorem State.modBlotter_ledger (s : State) (f : Blotter → Blotter) : (s.modBlotter f).ledger = s.ledger := rfl
@[simp] theorem State.modBlotter_signal (s : State) (f : Blotter → Blotter) : (s.modBlotter f).signal = s.signal := rfl
@[simp] theorem State.modBlotter_blotter (s : State) (f : Blotter → Blotter) : (s.modBlotter f).blotter = f s.blotter := rfl
@[simp] theorem State.modBlotter_endgame (s : State) (f : Blotter → Blotter) : (s.modBlotter f).endgame = s.endgame := rfl
@[simp] theorem State.modBlotter_scrub (s : State) (f : Blotter → Blotter) : (s.modBlotter f).scrub = s.scrub := rfl
@[simp] theorem State.modBlotter_draws (s : State) (f : Blotter → Blotter) : (s.modBlotter f).draws = s.draws := rfl
@[simp] theorem State.modBlotter_rings (s : State) (f : Blotter → Blotter) : (s.modBlotter f).rings = s.rings := rfl
@[simp] theorem State.modBlotter_pairing (s : State) (f : Blotter → Blotter) : (s.modBlotter f).pairing = s.pairing := rfl
@[simp] theorem State.modBlotter_freeCtr (s : State) (f : Blotter → Blotter) : (s.modBlotter f).freeCtr = s.freeCtr := rfl
@[simp] theorem State.modBlotter_pending (s : State) (f : Blotter → Blotter) : (s.modBlotter f).pending = s.pending := rfl

@[simp] theorem State.modSignal_build (s : State) (f : Signal → Signal) : (s.modSignal f).build = s.build := rfl
@[simp] theorem State.modSignal_pins (s : State) (f : Signal → Signal) : (s.modSignal f).pins = s.pins := rfl
@[simp] theorem State.modSignal_fuse (s : State) (f : Signal → Signal) : (s.modSignal f).fuse = s.fuse := rfl
@[simp] theorem State.modSignal_tap (s : State) (f : Signal → Signal) : (s.modSignal f).tap = s.tap := rfl
@[simp] theorem State.modSignal_time (s : State) (f : Signal → Signal) : (s.modSignal f).time = s.time := rfl
@[simp] theorem State.modSignal_glb (s : State) (f : Signal → Signal) : (s.modSignal f).glb = s.glb := rfl
@[simp] theorem State.modSignal_rp (s : State) (f : Signal → Signal) : (s.modSignal f).rp = s.rp := rfl
@[simp] theorem State.modSignal_regs (s : State) (f : Signal → Signal) : (s.modSignal f).regs = s.regs := rfl
@[simp] theorem State.modSignal_images (s : State) (f : Signal → Signal) : (s.modSignal f).images = s.images := rfl
@[simp] theorem State.modSignal_scribe (s : State) (f : Signal → Signal) : (s.modSignal f).scribe = s.scribe := rfl
@[simp] theorem State.modSignal_clusters (s : State) (f : Signal → Signal) : (s.modSignal f).clusters = s.clusters := rfl
@[simp] theorem State.modSignal_lanes (s : State) (f : Signal → Signal) : (s.modSignal f).lanes = s.lanes := rfl
@[simp] theorem State.modSignal_regions (s : State) (f : Signal → Signal) : (s.modSignal f).regions = s.regions := rfl
@[simp] theorem State.modSignal_fetching (s : State) (f : Signal → Signal) : (s.modSignal f).fetching = s.fetching := rfl
@[simp] theorem State.modSignal_cmds (s : State) (f : Signal → Signal) : (s.modSignal f).cmds = s.cmds := rfl
@[simp] theorem State.modSignal_ready (s : State) (f : Signal → Signal) : (s.modSignal f).ready = s.ready := rfl
@[simp] theorem State.modSignal_lateQ (s : State) (f : Signal → Signal) : (s.modSignal f).lateQ = s.lateQ := rfl
@[simp] theorem State.modSignal_posted (s : State) (f : Signal → Signal) : (s.modSignal f).posted = s.posted := rfl
@[simp] theorem State.modSignal_serial (s : State) (f : Signal → Signal) : (s.modSignal f).serial = s.serial := rfl
@[simp] theorem State.modSignal_slabs (s : State) (f : Signal → Signal) : (s.modSignal f).slabs = s.slabs := rfl
@[simp] theorem State.modSignal_ports (s : State) (f : Signal → Signal) : (s.modSignal f).ports = s.ports := rfl
@[simp] theorem State.modSignal_channels (s : State) (f : Signal → Signal) : (s.modSignal f).channels = s.channels := rfl
@[simp] theorem State.modSignal_ticks (s : State) (f : Signal → Signal) : (s.modSignal f).ticks = s.ticks := rfl
@[simp] theorem State.modSignal_cache (s : State) (f : Signal → Signal) : (s.modSignal f).cache = s.cache := rfl
@[simp] theorem State.modSignal_store (s : State) (f : Signal → Signal) : (s.modSignal f).store = s.store := rfl
@[simp] theorem State.modSignal_keys (s : State) (f : Signal → Signal) : (s.modSignal f).keys = s.keys := rfl
@[simp] theorem State.modSignal_tenants (s : State) (f : Signal → Signal) : (s.modSignal f).tenants = s.tenants := rfl
@[simp] theorem State.modSignal_ledger (s : State) (f : Signal → Signal) : (s.modSignal f).ledger = s.ledger := rfl
@[simp] theorem State.modSignal_signal (s : State) (f : Signal → Signal) : (s.modSignal f).signal = f s.signal := rfl
@[simp] theorem State.modSignal_blotter (s : State) (f : Signal → Signal) : (s.modSignal f).blotter = s.blotter := rfl
@[simp] theorem State.modSignal_endgame (s : State) (f : Signal → Signal) : (s.modSignal f).endgame = s.endgame := rfl
@[simp] theorem State.modSignal_scrub (s : State) (f : Signal → Signal) : (s.modSignal f).scrub = s.scrub := rfl
@[simp] theorem State.modSignal_draws (s : State) (f : Signal → Signal) : (s.modSignal f).draws = s.draws := rfl
@[simp] theorem State.modSignal_rings (s : State) (f : Signal → Signal) : (s.modSignal f).rings = s.rings := rfl
@[simp] theorem State.modSignal_pairing (s : State) (f : Signal → Signal) : (s.modSignal f).pairing = s.pairing := rfl
@[simp] theorem State.modSignal_freeCtr (s : State) (f : Signal → Signal) : (s.modSignal f).freeCtr = s.freeCtr := rfl
@[simp] theorem State.modSignal_pending (s : State) (f : Signal → Signal) : (s.modSignal f).pending = s.pending := rfl

@[simp] theorem State.modKeys_build (s : State) (f : Keys → Keys) : (s.modKeys f).build = s.build := rfl
@[simp] theorem State.modKeys_pins (s : State) (f : Keys → Keys) : (s.modKeys f).pins = s.pins := rfl
@[simp] theorem State.modKeys_fuse (s : State) (f : Keys → Keys) : (s.modKeys f).fuse = s.fuse := rfl
@[simp] theorem State.modKeys_tap (s : State) (f : Keys → Keys) : (s.modKeys f).tap = s.tap := rfl
@[simp] theorem State.modKeys_time (s : State) (f : Keys → Keys) : (s.modKeys f).time = s.time := rfl
@[simp] theorem State.modKeys_glb (s : State) (f : Keys → Keys) : (s.modKeys f).glb = s.glb := rfl
@[simp] theorem State.modKeys_rp (s : State) (f : Keys → Keys) : (s.modKeys f).rp = s.rp := rfl
@[simp] theorem State.modKeys_regs (s : State) (f : Keys → Keys) : (s.modKeys f).regs = s.regs := rfl
@[simp] theorem State.modKeys_images (s : State) (f : Keys → Keys) : (s.modKeys f).images = s.images := rfl
@[simp] theorem State.modKeys_scribe (s : State) (f : Keys → Keys) : (s.modKeys f).scribe = s.scribe := rfl
@[simp] theorem State.modKeys_clusters (s : State) (f : Keys → Keys) : (s.modKeys f).clusters = s.clusters := rfl
@[simp] theorem State.modKeys_lanes (s : State) (f : Keys → Keys) : (s.modKeys f).lanes = s.lanes := rfl
@[simp] theorem State.modKeys_regions (s : State) (f : Keys → Keys) : (s.modKeys f).regions = s.regions := rfl
@[simp] theorem State.modKeys_fetching (s : State) (f : Keys → Keys) : (s.modKeys f).fetching = s.fetching := rfl
@[simp] theorem State.modKeys_cmds (s : State) (f : Keys → Keys) : (s.modKeys f).cmds = s.cmds := rfl
@[simp] theorem State.modKeys_ready (s : State) (f : Keys → Keys) : (s.modKeys f).ready = s.ready := rfl
@[simp] theorem State.modKeys_lateQ (s : State) (f : Keys → Keys) : (s.modKeys f).lateQ = s.lateQ := rfl
@[simp] theorem State.modKeys_posted (s : State) (f : Keys → Keys) : (s.modKeys f).posted = s.posted := rfl
@[simp] theorem State.modKeys_serial (s : State) (f : Keys → Keys) : (s.modKeys f).serial = s.serial := rfl
@[simp] theorem State.modKeys_slabs (s : State) (f : Keys → Keys) : (s.modKeys f).slabs = s.slabs := rfl
@[simp] theorem State.modKeys_ports (s : State) (f : Keys → Keys) : (s.modKeys f).ports = s.ports := rfl
@[simp] theorem State.modKeys_channels (s : State) (f : Keys → Keys) : (s.modKeys f).channels = s.channels := rfl
@[simp] theorem State.modKeys_ticks (s : State) (f : Keys → Keys) : (s.modKeys f).ticks = s.ticks := rfl
@[simp] theorem State.modKeys_cache (s : State) (f : Keys → Keys) : (s.modKeys f).cache = s.cache := rfl
@[simp] theorem State.modKeys_store (s : State) (f : Keys → Keys) : (s.modKeys f).store = s.store := rfl
@[simp] theorem State.modKeys_keys (s : State) (f : Keys → Keys) : (s.modKeys f).keys = f s.keys := rfl
@[simp] theorem State.modKeys_tenants (s : State) (f : Keys → Keys) : (s.modKeys f).tenants = s.tenants := rfl
@[simp] theorem State.modKeys_ledger (s : State) (f : Keys → Keys) : (s.modKeys f).ledger = s.ledger := rfl
@[simp] theorem State.modKeys_signal (s : State) (f : Keys → Keys) : (s.modKeys f).signal = s.signal := rfl
@[simp] theorem State.modKeys_blotter (s : State) (f : Keys → Keys) : (s.modKeys f).blotter = s.blotter := rfl
@[simp] theorem State.modKeys_endgame (s : State) (f : Keys → Keys) : (s.modKeys f).endgame = s.endgame := rfl
@[simp] theorem State.modKeys_scrub (s : State) (f : Keys → Keys) : (s.modKeys f).scrub = s.scrub := rfl
@[simp] theorem State.modKeys_draws (s : State) (f : Keys → Keys) : (s.modKeys f).draws = s.draws := rfl
@[simp] theorem State.modKeys_rings (s : State) (f : Keys → Keys) : (s.modKeys f).rings = s.rings := rfl
@[simp] theorem State.modKeys_pairing (s : State) (f : Keys → Keys) : (s.modKeys f).pairing = s.pairing := rfl
@[simp] theorem State.modKeys_freeCtr (s : State) (f : Keys → Keys) : (s.modKeys f).freeCtr = s.freeCtr := rfl
@[simp] theorem State.modKeys_pending (s : State) (f : Keys → Keys) : (s.modKeys f).pending = s.pending := rfl

@[simp] theorem State.modTenants_build (s : State) (f : Tenants → Tenants) : (s.modTenants f).build = s.build := rfl
@[simp] theorem State.modTenants_pins (s : State) (f : Tenants → Tenants) : (s.modTenants f).pins = s.pins := rfl
@[simp] theorem State.modTenants_fuse (s : State) (f : Tenants → Tenants) : (s.modTenants f).fuse = s.fuse := rfl
@[simp] theorem State.modTenants_tap (s : State) (f : Tenants → Tenants) : (s.modTenants f).tap = s.tap := rfl
@[simp] theorem State.modTenants_time (s : State) (f : Tenants → Tenants) : (s.modTenants f).time = s.time := rfl
@[simp] theorem State.modTenants_glb (s : State) (f : Tenants → Tenants) : (s.modTenants f).glb = s.glb := rfl
@[simp] theorem State.modTenants_rp (s : State) (f : Tenants → Tenants) : (s.modTenants f).rp = s.rp := rfl
@[simp] theorem State.modTenants_regs (s : State) (f : Tenants → Tenants) : (s.modTenants f).regs = s.regs := rfl
@[simp] theorem State.modTenants_images (s : State) (f : Tenants → Tenants) : (s.modTenants f).images = s.images := rfl
@[simp] theorem State.modTenants_scribe (s : State) (f : Tenants → Tenants) : (s.modTenants f).scribe = s.scribe := rfl
@[simp] theorem State.modTenants_clusters (s : State) (f : Tenants → Tenants) : (s.modTenants f).clusters = s.clusters := rfl
@[simp] theorem State.modTenants_lanes (s : State) (f : Tenants → Tenants) : (s.modTenants f).lanes = s.lanes := rfl
@[simp] theorem State.modTenants_regions (s : State) (f : Tenants → Tenants) : (s.modTenants f).regions = s.regions := rfl
@[simp] theorem State.modTenants_fetching (s : State) (f : Tenants → Tenants) : (s.modTenants f).fetching = s.fetching := rfl
@[simp] theorem State.modTenants_cmds (s : State) (f : Tenants → Tenants) : (s.modTenants f).cmds = s.cmds := rfl
@[simp] theorem State.modTenants_ready (s : State) (f : Tenants → Tenants) : (s.modTenants f).ready = s.ready := rfl
@[simp] theorem State.modTenants_lateQ (s : State) (f : Tenants → Tenants) : (s.modTenants f).lateQ = s.lateQ := rfl
@[simp] theorem State.modTenants_posted (s : State) (f : Tenants → Tenants) : (s.modTenants f).posted = s.posted := rfl
@[simp] theorem State.modTenants_serial (s : State) (f : Tenants → Tenants) : (s.modTenants f).serial = s.serial := rfl
@[simp] theorem State.modTenants_slabs (s : State) (f : Tenants → Tenants) : (s.modTenants f).slabs = s.slabs := rfl
@[simp] theorem State.modTenants_ports (s : State) (f : Tenants → Tenants) : (s.modTenants f).ports = s.ports := rfl
@[simp] theorem State.modTenants_channels (s : State) (f : Tenants → Tenants) : (s.modTenants f).channels = s.channels := rfl
@[simp] theorem State.modTenants_ticks (s : State) (f : Tenants → Tenants) : (s.modTenants f).ticks = s.ticks := rfl
@[simp] theorem State.modTenants_cache (s : State) (f : Tenants → Tenants) : (s.modTenants f).cache = s.cache := rfl
@[simp] theorem State.modTenants_store (s : State) (f : Tenants → Tenants) : (s.modTenants f).store = s.store := rfl
@[simp] theorem State.modTenants_keys (s : State) (f : Tenants → Tenants) : (s.modTenants f).keys = s.keys := rfl
@[simp] theorem State.modTenants_tenants (s : State) (f : Tenants → Tenants) : (s.modTenants f).tenants = f s.tenants := rfl
@[simp] theorem State.modTenants_ledger (s : State) (f : Tenants → Tenants) : (s.modTenants f).ledger = s.ledger := rfl
@[simp] theorem State.modTenants_signal (s : State) (f : Tenants → Tenants) : (s.modTenants f).signal = s.signal := rfl
@[simp] theorem State.modTenants_blotter (s : State) (f : Tenants → Tenants) : (s.modTenants f).blotter = s.blotter := rfl
@[simp] theorem State.modTenants_endgame (s : State) (f : Tenants → Tenants) : (s.modTenants f).endgame = s.endgame := rfl
@[simp] theorem State.modTenants_scrub (s : State) (f : Tenants → Tenants) : (s.modTenants f).scrub = s.scrub := rfl
@[simp] theorem State.modTenants_draws (s : State) (f : Tenants → Tenants) : (s.modTenants f).draws = s.draws := rfl
@[simp] theorem State.modTenants_rings (s : State) (f : Tenants → Tenants) : (s.modTenants f).rings = s.rings := rfl
@[simp] theorem State.modTenants_pairing (s : State) (f : Tenants → Tenants) : (s.modTenants f).pairing = s.pairing := rfl
@[simp] theorem State.modTenants_freeCtr (s : State) (f : Tenants → Tenants) : (s.modTenants f).freeCtr = s.freeCtr := rfl
@[simp] theorem State.modTenants_pending (s : State) (f : Tenants → Tenants) : (s.modTenants f).pending = s.pending := rfl

@[simp] theorem State.modLedger_build (s : State) (f : Ledger → Ledger) : (s.modLedger f).build = s.build := rfl
@[simp] theorem State.modLedger_pins (s : State) (f : Ledger → Ledger) : (s.modLedger f).pins = s.pins := rfl
@[simp] theorem State.modLedger_fuse (s : State) (f : Ledger → Ledger) : (s.modLedger f).fuse = s.fuse := rfl
@[simp] theorem State.modLedger_tap (s : State) (f : Ledger → Ledger) : (s.modLedger f).tap = s.tap := rfl
@[simp] theorem State.modLedger_time (s : State) (f : Ledger → Ledger) : (s.modLedger f).time = s.time := rfl
@[simp] theorem State.modLedger_glb (s : State) (f : Ledger → Ledger) : (s.modLedger f).glb = s.glb := rfl
@[simp] theorem State.modLedger_rp (s : State) (f : Ledger → Ledger) : (s.modLedger f).rp = s.rp := rfl
@[simp] theorem State.modLedger_regs (s : State) (f : Ledger → Ledger) : (s.modLedger f).regs = s.regs := rfl
@[simp] theorem State.modLedger_images (s : State) (f : Ledger → Ledger) : (s.modLedger f).images = s.images := rfl
@[simp] theorem State.modLedger_scribe (s : State) (f : Ledger → Ledger) : (s.modLedger f).scribe = s.scribe := rfl
@[simp] theorem State.modLedger_clusters (s : State) (f : Ledger → Ledger) : (s.modLedger f).clusters = s.clusters := rfl
@[simp] theorem State.modLedger_lanes (s : State) (f : Ledger → Ledger) : (s.modLedger f).lanes = s.lanes := rfl
@[simp] theorem State.modLedger_regions (s : State) (f : Ledger → Ledger) : (s.modLedger f).regions = s.regions := rfl
@[simp] theorem State.modLedger_fetching (s : State) (f : Ledger → Ledger) : (s.modLedger f).fetching = s.fetching := rfl
@[simp] theorem State.modLedger_cmds (s : State) (f : Ledger → Ledger) : (s.modLedger f).cmds = s.cmds := rfl
@[simp] theorem State.modLedger_ready (s : State) (f : Ledger → Ledger) : (s.modLedger f).ready = s.ready := rfl
@[simp] theorem State.modLedger_lateQ (s : State) (f : Ledger → Ledger) : (s.modLedger f).lateQ = s.lateQ := rfl
@[simp] theorem State.modLedger_posted (s : State) (f : Ledger → Ledger) : (s.modLedger f).posted = s.posted := rfl
@[simp] theorem State.modLedger_serial (s : State) (f : Ledger → Ledger) : (s.modLedger f).serial = s.serial := rfl
@[simp] theorem State.modLedger_slabs (s : State) (f : Ledger → Ledger) : (s.modLedger f).slabs = s.slabs := rfl
@[simp] theorem State.modLedger_ports (s : State) (f : Ledger → Ledger) : (s.modLedger f).ports = s.ports := rfl
@[simp] theorem State.modLedger_channels (s : State) (f : Ledger → Ledger) : (s.modLedger f).channels = s.channels := rfl
@[simp] theorem State.modLedger_ticks (s : State) (f : Ledger → Ledger) : (s.modLedger f).ticks = s.ticks := rfl
@[simp] theorem State.modLedger_cache (s : State) (f : Ledger → Ledger) : (s.modLedger f).cache = s.cache := rfl
@[simp] theorem State.modLedger_store (s : State) (f : Ledger → Ledger) : (s.modLedger f).store = s.store := rfl
@[simp] theorem State.modLedger_keys (s : State) (f : Ledger → Ledger) : (s.modLedger f).keys = s.keys := rfl
@[simp] theorem State.modLedger_tenants (s : State) (f : Ledger → Ledger) : (s.modLedger f).tenants = s.tenants := rfl
@[simp] theorem State.modLedger_ledger (s : State) (f : Ledger → Ledger) : (s.modLedger f).ledger = f s.ledger := rfl
@[simp] theorem State.modLedger_signal (s : State) (f : Ledger → Ledger) : (s.modLedger f).signal = s.signal := rfl
@[simp] theorem State.modLedger_blotter (s : State) (f : Ledger → Ledger) : (s.modLedger f).blotter = s.blotter := rfl
@[simp] theorem State.modLedger_endgame (s : State) (f : Ledger → Ledger) : (s.modLedger f).endgame = s.endgame := rfl
@[simp] theorem State.modLedger_scrub (s : State) (f : Ledger → Ledger) : (s.modLedger f).scrub = s.scrub := rfl
@[simp] theorem State.modLedger_draws (s : State) (f : Ledger → Ledger) : (s.modLedger f).draws = s.draws := rfl
@[simp] theorem State.modLedger_rings (s : State) (f : Ledger → Ledger) : (s.modLedger f).rings = s.rings := rfl
@[simp] theorem State.modLedger_pairing (s : State) (f : Ledger → Ledger) : (s.modLedger f).pairing = s.pairing := rfl
@[simp] theorem State.modLedger_freeCtr (s : State) (f : Ledger → Ledger) : (s.modLedger f).freeCtr = s.freeCtr := rfl
@[simp] theorem State.modLedger_pending (s : State) (f : Ledger → Ledger) : (s.modLedger f).pending = s.pending := rfl

@[simp] theorem State.modEndgame_build (s : State) (f : Endgame → Endgame) : (s.modEndgame f).build = s.build := rfl
@[simp] theorem State.modEndgame_pins (s : State) (f : Endgame → Endgame) : (s.modEndgame f).pins = s.pins := rfl
@[simp] theorem State.modEndgame_fuse (s : State) (f : Endgame → Endgame) : (s.modEndgame f).fuse = s.fuse := rfl
@[simp] theorem State.modEndgame_tap (s : State) (f : Endgame → Endgame) : (s.modEndgame f).tap = s.tap := rfl
@[simp] theorem State.modEndgame_time (s : State) (f : Endgame → Endgame) : (s.modEndgame f).time = s.time := rfl
@[simp] theorem State.modEndgame_glb (s : State) (f : Endgame → Endgame) : (s.modEndgame f).glb = s.glb := rfl
@[simp] theorem State.modEndgame_rp (s : State) (f : Endgame → Endgame) : (s.modEndgame f).rp = s.rp := rfl
@[simp] theorem State.modEndgame_regs (s : State) (f : Endgame → Endgame) : (s.modEndgame f).regs = s.regs := rfl
@[simp] theorem State.modEndgame_images (s : State) (f : Endgame → Endgame) : (s.modEndgame f).images = s.images := rfl
@[simp] theorem State.modEndgame_scribe (s : State) (f : Endgame → Endgame) : (s.modEndgame f).scribe = s.scribe := rfl
@[simp] theorem State.modEndgame_clusters (s : State) (f : Endgame → Endgame) : (s.modEndgame f).clusters = s.clusters := rfl
@[simp] theorem State.modEndgame_lanes (s : State) (f : Endgame → Endgame) : (s.modEndgame f).lanes = s.lanes := rfl
@[simp] theorem State.modEndgame_regions (s : State) (f : Endgame → Endgame) : (s.modEndgame f).regions = s.regions := rfl
@[simp] theorem State.modEndgame_fetching (s : State) (f : Endgame → Endgame) : (s.modEndgame f).fetching = s.fetching := rfl
@[simp] theorem State.modEndgame_cmds (s : State) (f : Endgame → Endgame) : (s.modEndgame f).cmds = s.cmds := rfl
@[simp] theorem State.modEndgame_ready (s : State) (f : Endgame → Endgame) : (s.modEndgame f).ready = s.ready := rfl
@[simp] theorem State.modEndgame_lateQ (s : State) (f : Endgame → Endgame) : (s.modEndgame f).lateQ = s.lateQ := rfl
@[simp] theorem State.modEndgame_posted (s : State) (f : Endgame → Endgame) : (s.modEndgame f).posted = s.posted := rfl
@[simp] theorem State.modEndgame_serial (s : State) (f : Endgame → Endgame) : (s.modEndgame f).serial = s.serial := rfl
@[simp] theorem State.modEndgame_slabs (s : State) (f : Endgame → Endgame) : (s.modEndgame f).slabs = s.slabs := rfl
@[simp] theorem State.modEndgame_ports (s : State) (f : Endgame → Endgame) : (s.modEndgame f).ports = s.ports := rfl
@[simp] theorem State.modEndgame_channels (s : State) (f : Endgame → Endgame) : (s.modEndgame f).channels = s.channels := rfl
@[simp] theorem State.modEndgame_ticks (s : State) (f : Endgame → Endgame) : (s.modEndgame f).ticks = s.ticks := rfl
@[simp] theorem State.modEndgame_cache (s : State) (f : Endgame → Endgame) : (s.modEndgame f).cache = s.cache := rfl
@[simp] theorem State.modEndgame_store (s : State) (f : Endgame → Endgame) : (s.modEndgame f).store = s.store := rfl
@[simp] theorem State.modEndgame_keys (s : State) (f : Endgame → Endgame) : (s.modEndgame f).keys = s.keys := rfl
@[simp] theorem State.modEndgame_tenants (s : State) (f : Endgame → Endgame) : (s.modEndgame f).tenants = s.tenants := rfl
@[simp] theorem State.modEndgame_ledger (s : State) (f : Endgame → Endgame) : (s.modEndgame f).ledger = s.ledger := rfl
@[simp] theorem State.modEndgame_signal (s : State) (f : Endgame → Endgame) : (s.modEndgame f).signal = s.signal := rfl
@[simp] theorem State.modEndgame_blotter (s : State) (f : Endgame → Endgame) : (s.modEndgame f).blotter = s.blotter := rfl
@[simp] theorem State.modEndgame_endgame (s : State) (f : Endgame → Endgame) : (s.modEndgame f).endgame = f s.endgame := rfl
@[simp] theorem State.modEndgame_scrub (s : State) (f : Endgame → Endgame) : (s.modEndgame f).scrub = s.scrub := rfl
@[simp] theorem State.modEndgame_draws (s : State) (f : Endgame → Endgame) : (s.modEndgame f).draws = s.draws := rfl
@[simp] theorem State.modEndgame_rings (s : State) (f : Endgame → Endgame) : (s.modEndgame f).rings = s.rings := rfl
@[simp] theorem State.modEndgame_pairing (s : State) (f : Endgame → Endgame) : (s.modEndgame f).pairing = s.pairing := rfl
@[simp] theorem State.modEndgame_freeCtr (s : State) (f : Endgame → Endgame) : (s.modEndgame f).freeCtr = s.freeCtr := rfl
@[simp] theorem State.modEndgame_pending (s : State) (f : Endgame → Endgame) : (s.modEndgame f).pending = s.pending := rfl

@[simp] theorem State.modScrub_build (s : State) (f : Scrub → Scrub) : (s.modScrub f).build = s.build := rfl
@[simp] theorem State.modScrub_pins (s : State) (f : Scrub → Scrub) : (s.modScrub f).pins = s.pins := rfl
@[simp] theorem State.modScrub_fuse (s : State) (f : Scrub → Scrub) : (s.modScrub f).fuse = s.fuse := rfl
@[simp] theorem State.modScrub_tap (s : State) (f : Scrub → Scrub) : (s.modScrub f).tap = s.tap := rfl
@[simp] theorem State.modScrub_time (s : State) (f : Scrub → Scrub) : (s.modScrub f).time = s.time := rfl
@[simp] theorem State.modScrub_glb (s : State) (f : Scrub → Scrub) : (s.modScrub f).glb = s.glb := rfl
@[simp] theorem State.modScrub_rp (s : State) (f : Scrub → Scrub) : (s.modScrub f).rp = s.rp := rfl
@[simp] theorem State.modScrub_regs (s : State) (f : Scrub → Scrub) : (s.modScrub f).regs = s.regs := rfl
@[simp] theorem State.modScrub_images (s : State) (f : Scrub → Scrub) : (s.modScrub f).images = s.images := rfl
@[simp] theorem State.modScrub_scribe (s : State) (f : Scrub → Scrub) : (s.modScrub f).scribe = s.scribe := rfl
@[simp] theorem State.modScrub_clusters (s : State) (f : Scrub → Scrub) : (s.modScrub f).clusters = s.clusters := rfl
@[simp] theorem State.modScrub_lanes (s : State) (f : Scrub → Scrub) : (s.modScrub f).lanes = s.lanes := rfl
@[simp] theorem State.modScrub_regions (s : State) (f : Scrub → Scrub) : (s.modScrub f).regions = s.regions := rfl
@[simp] theorem State.modScrub_fetching (s : State) (f : Scrub → Scrub) : (s.modScrub f).fetching = s.fetching := rfl
@[simp] theorem State.modScrub_cmds (s : State) (f : Scrub → Scrub) : (s.modScrub f).cmds = s.cmds := rfl
@[simp] theorem State.modScrub_ready (s : State) (f : Scrub → Scrub) : (s.modScrub f).ready = s.ready := rfl
@[simp] theorem State.modScrub_lateQ (s : State) (f : Scrub → Scrub) : (s.modScrub f).lateQ = s.lateQ := rfl
@[simp] theorem State.modScrub_posted (s : State) (f : Scrub → Scrub) : (s.modScrub f).posted = s.posted := rfl
@[simp] theorem State.modScrub_serial (s : State) (f : Scrub → Scrub) : (s.modScrub f).serial = s.serial := rfl
@[simp] theorem State.modScrub_slabs (s : State) (f : Scrub → Scrub) : (s.modScrub f).slabs = s.slabs := rfl
@[simp] theorem State.modScrub_ports (s : State) (f : Scrub → Scrub) : (s.modScrub f).ports = s.ports := rfl
@[simp] theorem State.modScrub_channels (s : State) (f : Scrub → Scrub) : (s.modScrub f).channels = s.channels := rfl
@[simp] theorem State.modScrub_ticks (s : State) (f : Scrub → Scrub) : (s.modScrub f).ticks = s.ticks := rfl
@[simp] theorem State.modScrub_cache (s : State) (f : Scrub → Scrub) : (s.modScrub f).cache = s.cache := rfl
@[simp] theorem State.modScrub_store (s : State) (f : Scrub → Scrub) : (s.modScrub f).store = s.store := rfl
@[simp] theorem State.modScrub_keys (s : State) (f : Scrub → Scrub) : (s.modScrub f).keys = s.keys := rfl
@[simp] theorem State.modScrub_tenants (s : State) (f : Scrub → Scrub) : (s.modScrub f).tenants = s.tenants := rfl
@[simp] theorem State.modScrub_ledger (s : State) (f : Scrub → Scrub) : (s.modScrub f).ledger = s.ledger := rfl
@[simp] theorem State.modScrub_signal (s : State) (f : Scrub → Scrub) : (s.modScrub f).signal = s.signal := rfl
@[simp] theorem State.modScrub_blotter (s : State) (f : Scrub → Scrub) : (s.modScrub f).blotter = s.blotter := rfl
@[simp] theorem State.modScrub_endgame (s : State) (f : Scrub → Scrub) : (s.modScrub f).endgame = s.endgame := rfl
@[simp] theorem State.modScrub_scrub (s : State) (f : Scrub → Scrub) : (s.modScrub f).scrub = f s.scrub := rfl
@[simp] theorem State.modScrub_draws (s : State) (f : Scrub → Scrub) : (s.modScrub f).draws = s.draws := rfl
@[simp] theorem State.modScrub_rings (s : State) (f : Scrub → Scrub) : (s.modScrub f).rings = s.rings := rfl
@[simp] theorem State.modScrub_pairing (s : State) (f : Scrub → Scrub) : (s.modScrub f).pairing = s.pairing := rfl
@[simp] theorem State.modScrub_freeCtr (s : State) (f : Scrub → Scrub) : (s.modScrub f).freeCtr = s.freeCtr := rfl
@[simp] theorem State.modScrub_pending (s : State) (f : Scrub → Scrub) : (s.modScrub f).pending = s.pending := rfl

@[simp] theorem State.modCache_build (s : State) (f : Cache → Cache) : (s.modCache f).build = s.build := rfl
@[simp] theorem State.modCache_pins (s : State) (f : Cache → Cache) : (s.modCache f).pins = s.pins := rfl
@[simp] theorem State.modCache_fuse (s : State) (f : Cache → Cache) : (s.modCache f).fuse = s.fuse := rfl
@[simp] theorem State.modCache_tap (s : State) (f : Cache → Cache) : (s.modCache f).tap = s.tap := rfl
@[simp] theorem State.modCache_time (s : State) (f : Cache → Cache) : (s.modCache f).time = s.time := rfl
@[simp] theorem State.modCache_glb (s : State) (f : Cache → Cache) : (s.modCache f).glb = s.glb := rfl
@[simp] theorem State.modCache_rp (s : State) (f : Cache → Cache) : (s.modCache f).rp = s.rp := rfl
@[simp] theorem State.modCache_regs (s : State) (f : Cache → Cache) : (s.modCache f).regs = s.regs := rfl
@[simp] theorem State.modCache_images (s : State) (f : Cache → Cache) : (s.modCache f).images = s.images := rfl
@[simp] theorem State.modCache_scribe (s : State) (f : Cache → Cache) : (s.modCache f).scribe = s.scribe := rfl
@[simp] theorem State.modCache_clusters (s : State) (f : Cache → Cache) : (s.modCache f).clusters = s.clusters := rfl
@[simp] theorem State.modCache_lanes (s : State) (f : Cache → Cache) : (s.modCache f).lanes = s.lanes := rfl
@[simp] theorem State.modCache_regions (s : State) (f : Cache → Cache) : (s.modCache f).regions = s.regions := rfl
@[simp] theorem State.modCache_fetching (s : State) (f : Cache → Cache) : (s.modCache f).fetching = s.fetching := rfl
@[simp] theorem State.modCache_cmds (s : State) (f : Cache → Cache) : (s.modCache f).cmds = s.cmds := rfl
@[simp] theorem State.modCache_ready (s : State) (f : Cache → Cache) : (s.modCache f).ready = s.ready := rfl
@[simp] theorem State.modCache_lateQ (s : State) (f : Cache → Cache) : (s.modCache f).lateQ = s.lateQ := rfl
@[simp] theorem State.modCache_posted (s : State) (f : Cache → Cache) : (s.modCache f).posted = s.posted := rfl
@[simp] theorem State.modCache_serial (s : State) (f : Cache → Cache) : (s.modCache f).serial = s.serial := rfl
@[simp] theorem State.modCache_slabs (s : State) (f : Cache → Cache) : (s.modCache f).slabs = s.slabs := rfl
@[simp] theorem State.modCache_ports (s : State) (f : Cache → Cache) : (s.modCache f).ports = s.ports := rfl
@[simp] theorem State.modCache_channels (s : State) (f : Cache → Cache) : (s.modCache f).channels = s.channels := rfl
@[simp] theorem State.modCache_ticks (s : State) (f : Cache → Cache) : (s.modCache f).ticks = s.ticks := rfl
@[simp] theorem State.modCache_cache (s : State) (f : Cache → Cache) : (s.modCache f).cache = f s.cache := rfl
@[simp] theorem State.modCache_store (s : State) (f : Cache → Cache) : (s.modCache f).store = s.store := rfl
@[simp] theorem State.modCache_keys (s : State) (f : Cache → Cache) : (s.modCache f).keys = s.keys := rfl
@[simp] theorem State.modCache_tenants (s : State) (f : Cache → Cache) : (s.modCache f).tenants = s.tenants := rfl
@[simp] theorem State.modCache_ledger (s : State) (f : Cache → Cache) : (s.modCache f).ledger = s.ledger := rfl
@[simp] theorem State.modCache_signal (s : State) (f : Cache → Cache) : (s.modCache f).signal = s.signal := rfl
@[simp] theorem State.modCache_blotter (s : State) (f : Cache → Cache) : (s.modCache f).blotter = s.blotter := rfl
@[simp] theorem State.modCache_endgame (s : State) (f : Cache → Cache) : (s.modCache f).endgame = s.endgame := rfl
@[simp] theorem State.modCache_scrub (s : State) (f : Cache → Cache) : (s.modCache f).scrub = s.scrub := rfl
@[simp] theorem State.modCache_draws (s : State) (f : Cache → Cache) : (s.modCache f).draws = s.draws := rfl
@[simp] theorem State.modCache_rings (s : State) (f : Cache → Cache) : (s.modCache f).rings = s.rings := rfl
@[simp] theorem State.modCache_pairing (s : State) (f : Cache → Cache) : (s.modCache f).pairing = s.pairing := rfl
@[simp] theorem State.modCache_freeCtr (s : State) (f : Cache → Cache) : (s.modCache f).freeCtr = s.freeCtr := rfl
@[simp] theorem State.modCache_pending (s : State) (f : Cache → Cache) : (s.modCache f).pending = s.pending := rfl

@[simp] theorem State.setReg_build (s : State) (k : Nat) (v : Word) : (s.setReg k v).build = s.build := rfl
@[simp] theorem State.setReg_pins (s : State) (k : Nat) (v : Word) : (s.setReg k v).pins = s.pins := rfl
@[simp] theorem State.setReg_fuse (s : State) (k : Nat) (v : Word) : (s.setReg k v).fuse = s.fuse := rfl
@[simp] theorem State.setReg_tap (s : State) (k : Nat) (v : Word) : (s.setReg k v).tap = s.tap := rfl
@[simp] theorem State.setReg_time (s : State) (k : Nat) (v : Word) : (s.setReg k v).time = s.time := rfl
@[simp] theorem State.setReg_glb (s : State) (k : Nat) (v : Word) : (s.setReg k v).glb = s.glb := rfl
@[simp] theorem State.setReg_rp (s : State) (k : Nat) (v : Word) : (s.setReg k v).rp = s.rp := rfl
@[simp] theorem State.setReg_regs (s : State) (k : Nat) (v : Word) : (s.setReg k v).regs = Tab.setD regReset s.regs k v := rfl
@[simp] theorem State.setReg_images (s : State) (k : Nat) (v : Word) : (s.setReg k v).images = s.images := rfl
@[simp] theorem State.setReg_scribe (s : State) (k : Nat) (v : Word) : (s.setReg k v).scribe = s.scribe := rfl
@[simp] theorem State.setReg_clusters (s : State) (k : Nat) (v : Word) : (s.setReg k v).clusters = s.clusters := rfl
@[simp] theorem State.setReg_lanes (s : State) (k : Nat) (v : Word) : (s.setReg k v).lanes = s.lanes := rfl
@[simp] theorem State.setReg_regions (s : State) (k : Nat) (v : Word) : (s.setReg k v).regions = s.regions := rfl
@[simp] theorem State.setReg_fetching (s : State) (k : Nat) (v : Word) : (s.setReg k v).fetching = s.fetching := rfl
@[simp] theorem State.setReg_cmds (s : State) (k : Nat) (v : Word) : (s.setReg k v).cmds = s.cmds := rfl
@[simp] theorem State.setReg_ready (s : State) (k : Nat) (v : Word) : (s.setReg k v).ready = s.ready := rfl
@[simp] theorem State.setReg_lateQ (s : State) (k : Nat) (v : Word) : (s.setReg k v).lateQ = s.lateQ := rfl
@[simp] theorem State.setReg_posted (s : State) (k : Nat) (v : Word) : (s.setReg k v).posted = s.posted := rfl
@[simp] theorem State.setReg_serial (s : State) (k : Nat) (v : Word) : (s.setReg k v).serial = s.serial := rfl
@[simp] theorem State.setReg_slabs (s : State) (k : Nat) (v : Word) : (s.setReg k v).slabs = s.slabs := rfl
@[simp] theorem State.setReg_ports (s : State) (k : Nat) (v : Word) : (s.setReg k v).ports = s.ports := rfl
@[simp] theorem State.setReg_channels (s : State) (k : Nat) (v : Word) : (s.setReg k v).channels = s.channels := rfl
@[simp] theorem State.setReg_ticks (s : State) (k : Nat) (v : Word) : (s.setReg k v).ticks = s.ticks := rfl
@[simp] theorem State.setReg_cache (s : State) (k : Nat) (v : Word) : (s.setReg k v).cache = s.cache := rfl
@[simp] theorem State.setReg_store (s : State) (k : Nat) (v : Word) : (s.setReg k v).store = s.store := rfl
@[simp] theorem State.setReg_keys (s : State) (k : Nat) (v : Word) : (s.setReg k v).keys = s.keys := rfl
@[simp] theorem State.setReg_tenants (s : State) (k : Nat) (v : Word) : (s.setReg k v).tenants = s.tenants := rfl
@[simp] theorem State.setReg_ledger (s : State) (k : Nat) (v : Word) : (s.setReg k v).ledger = s.ledger := rfl
@[simp] theorem State.setReg_signal (s : State) (k : Nat) (v : Word) : (s.setReg k v).signal = s.signal := rfl
@[simp] theorem State.setReg_blotter (s : State) (k : Nat) (v : Word) : (s.setReg k v).blotter = s.blotter := rfl
@[simp] theorem State.setReg_endgame (s : State) (k : Nat) (v : Word) : (s.setReg k v).endgame = s.endgame := rfl
@[simp] theorem State.setReg_scrub (s : State) (k : Nat) (v : Word) : (s.setReg k v).scrub = s.scrub := rfl
@[simp] theorem State.setReg_draws (s : State) (k : Nat) (v : Word) : (s.setReg k v).draws = s.draws := rfl
@[simp] theorem State.setReg_rings (s : State) (k : Nat) (v : Word) : (s.setReg k v).rings = s.rings := rfl
@[simp] theorem State.setReg_pairing (s : State) (k : Nat) (v : Word) : (s.setReg k v).pairing = s.pairing := rfl
@[simp] theorem State.setReg_freeCtr (s : State) (k : Nat) (v : Word) : (s.setReg k v).freeCtr = s.freeCtr := rfl
@[simp] theorem State.setReg_pending (s : State) (k : Nat) (v : Word) : (s.setReg k v).pending = s.pending := rfl

@[simp] theorem State.modReg_build (s : State) (k : Nat) (f : Word → Word) : (s.modReg k f).build = s.build := rfl
@[simp] theorem State.modReg_pins (s : State) (k : Nat) (f : Word → Word) : (s.modReg k f).pins = s.pins := rfl
@[simp] theorem State.modReg_fuse (s : State) (k : Nat) (f : Word → Word) : (s.modReg k f).fuse = s.fuse := rfl
@[simp] theorem State.modReg_tap (s : State) (k : Nat) (f : Word → Word) : (s.modReg k f).tap = s.tap := rfl
@[simp] theorem State.modReg_time (s : State) (k : Nat) (f : Word → Word) : (s.modReg k f).time = s.time := rfl
@[simp] theorem State.modReg_glb (s : State) (k : Nat) (f : Word → Word) : (s.modReg k f).glb = s.glb := rfl
@[simp] theorem State.modReg_rp (s : State) (k : Nat) (f : Word → Word) : (s.modReg k f).rp = s.rp := rfl
@[simp] theorem State.modReg_regs (s : State) (k : Nat) (f : Word → Word) : (s.modReg k f).regs = Tab.setD regReset s.regs k (f (s.regAt k)) := rfl
@[simp] theorem State.modReg_images (s : State) (k : Nat) (f : Word → Word) : (s.modReg k f).images = s.images := rfl
@[simp] theorem State.modReg_scribe (s : State) (k : Nat) (f : Word → Word) : (s.modReg k f).scribe = s.scribe := rfl
@[simp] theorem State.modReg_clusters (s : State) (k : Nat) (f : Word → Word) : (s.modReg k f).clusters = s.clusters := rfl
@[simp] theorem State.modReg_lanes (s : State) (k : Nat) (f : Word → Word) : (s.modReg k f).lanes = s.lanes := rfl
@[simp] theorem State.modReg_regions (s : State) (k : Nat) (f : Word → Word) : (s.modReg k f).regions = s.regions := rfl
@[simp] theorem State.modReg_fetching (s : State) (k : Nat) (f : Word → Word) : (s.modReg k f).fetching = s.fetching := rfl
@[simp] theorem State.modReg_cmds (s : State) (k : Nat) (f : Word → Word) : (s.modReg k f).cmds = s.cmds := rfl
@[simp] theorem State.modReg_ready (s : State) (k : Nat) (f : Word → Word) : (s.modReg k f).ready = s.ready := rfl
@[simp] theorem State.modReg_lateQ (s : State) (k : Nat) (f : Word → Word) : (s.modReg k f).lateQ = s.lateQ := rfl
@[simp] theorem State.modReg_posted (s : State) (k : Nat) (f : Word → Word) : (s.modReg k f).posted = s.posted := rfl
@[simp] theorem State.modReg_serial (s : State) (k : Nat) (f : Word → Word) : (s.modReg k f).serial = s.serial := rfl
@[simp] theorem State.modReg_slabs (s : State) (k : Nat) (f : Word → Word) : (s.modReg k f).slabs = s.slabs := rfl
@[simp] theorem State.modReg_ports (s : State) (k : Nat) (f : Word → Word) : (s.modReg k f).ports = s.ports := rfl
@[simp] theorem State.modReg_channels (s : State) (k : Nat) (f : Word → Word) : (s.modReg k f).channels = s.channels := rfl
@[simp] theorem State.modReg_ticks (s : State) (k : Nat) (f : Word → Word) : (s.modReg k f).ticks = s.ticks := rfl
@[simp] theorem State.modReg_cache (s : State) (k : Nat) (f : Word → Word) : (s.modReg k f).cache = s.cache := rfl
@[simp] theorem State.modReg_store (s : State) (k : Nat) (f : Word → Word) : (s.modReg k f).store = s.store := rfl
@[simp] theorem State.modReg_keys (s : State) (k : Nat) (f : Word → Word) : (s.modReg k f).keys = s.keys := rfl
@[simp] theorem State.modReg_tenants (s : State) (k : Nat) (f : Word → Word) : (s.modReg k f).tenants = s.tenants := rfl
@[simp] theorem State.modReg_ledger (s : State) (k : Nat) (f : Word → Word) : (s.modReg k f).ledger = s.ledger := rfl
@[simp] theorem State.modReg_signal (s : State) (k : Nat) (f : Word → Word) : (s.modReg k f).signal = s.signal := rfl
@[simp] theorem State.modReg_blotter (s : State) (k : Nat) (f : Word → Word) : (s.modReg k f).blotter = s.blotter := rfl
@[simp] theorem State.modReg_endgame (s : State) (k : Nat) (f : Word → Word) : (s.modReg k f).endgame = s.endgame := rfl
@[simp] theorem State.modReg_scrub (s : State) (k : Nat) (f : Word → Word) : (s.modReg k f).scrub = s.scrub := rfl
@[simp] theorem State.modReg_draws (s : State) (k : Nat) (f : Word → Word) : (s.modReg k f).draws = s.draws := rfl
@[simp] theorem State.modReg_rings (s : State) (k : Nat) (f : Word → Word) : (s.modReg k f).rings = s.rings := rfl
@[simp] theorem State.modReg_pairing (s : State) (k : Nat) (f : Word → Word) : (s.modReg k f).pairing = s.pairing := rfl
@[simp] theorem State.modReg_freeCtr (s : State) (k : Nat) (f : Word → Word) : (s.modReg k f).freeCtr = s.freeCtr := rfl
@[simp] theorem State.modReg_pending (s : State) (k : Nat) (f : Word → Word) : (s.modReg k f).pending = s.pending := rfl

@[simp] theorem State.orReg_build (s : State) (k : Nat) (m : Word) : (s.orReg k m).build = s.build := rfl
@[simp] theorem State.orReg_pins (s : State) (k : Nat) (m : Word) : (s.orReg k m).pins = s.pins := rfl
@[simp] theorem State.orReg_fuse (s : State) (k : Nat) (m : Word) : (s.orReg k m).fuse = s.fuse := rfl
@[simp] theorem State.orReg_tap (s : State) (k : Nat) (m : Word) : (s.orReg k m).tap = s.tap := rfl
@[simp] theorem State.orReg_time (s : State) (k : Nat) (m : Word) : (s.orReg k m).time = s.time := rfl
@[simp] theorem State.orReg_glb (s : State) (k : Nat) (m : Word) : (s.orReg k m).glb = s.glb := rfl
@[simp] theorem State.orReg_rp (s : State) (k : Nat) (m : Word) : (s.orReg k m).rp = s.rp := rfl
@[simp] theorem State.orReg_images (s : State) (k : Nat) (m : Word) : (s.orReg k m).images = s.images := rfl
@[simp] theorem State.orReg_scribe (s : State) (k : Nat) (m : Word) : (s.orReg k m).scribe = s.scribe := rfl
@[simp] theorem State.orReg_clusters (s : State) (k : Nat) (m : Word) : (s.orReg k m).clusters = s.clusters := rfl
@[simp] theorem State.orReg_lanes (s : State) (k : Nat) (m : Word) : (s.orReg k m).lanes = s.lanes := rfl
@[simp] theorem State.orReg_regions (s : State) (k : Nat) (m : Word) : (s.orReg k m).regions = s.regions := rfl
@[simp] theorem State.orReg_fetching (s : State) (k : Nat) (m : Word) : (s.orReg k m).fetching = s.fetching := rfl
@[simp] theorem State.orReg_cmds (s : State) (k : Nat) (m : Word) : (s.orReg k m).cmds = s.cmds := rfl
@[simp] theorem State.orReg_ready (s : State) (k : Nat) (m : Word) : (s.orReg k m).ready = s.ready := rfl
@[simp] theorem State.orReg_lateQ (s : State) (k : Nat) (m : Word) : (s.orReg k m).lateQ = s.lateQ := rfl
@[simp] theorem State.orReg_posted (s : State) (k : Nat) (m : Word) : (s.orReg k m).posted = s.posted := rfl
@[simp] theorem State.orReg_serial (s : State) (k : Nat) (m : Word) : (s.orReg k m).serial = s.serial := rfl
@[simp] theorem State.orReg_slabs (s : State) (k : Nat) (m : Word) : (s.orReg k m).slabs = s.slabs := rfl
@[simp] theorem State.orReg_ports (s : State) (k : Nat) (m : Word) : (s.orReg k m).ports = s.ports := rfl
@[simp] theorem State.orReg_channels (s : State) (k : Nat) (m : Word) : (s.orReg k m).channels = s.channels := rfl
@[simp] theorem State.orReg_ticks (s : State) (k : Nat) (m : Word) : (s.orReg k m).ticks = s.ticks := rfl
@[simp] theorem State.orReg_cache (s : State) (k : Nat) (m : Word) : (s.orReg k m).cache = s.cache := rfl
@[simp] theorem State.orReg_store (s : State) (k : Nat) (m : Word) : (s.orReg k m).store = s.store := rfl
@[simp] theorem State.orReg_keys (s : State) (k : Nat) (m : Word) : (s.orReg k m).keys = s.keys := rfl
@[simp] theorem State.orReg_tenants (s : State) (k : Nat) (m : Word) : (s.orReg k m).tenants = s.tenants := rfl
@[simp] theorem State.orReg_ledger (s : State) (k : Nat) (m : Word) : (s.orReg k m).ledger = s.ledger := rfl
@[simp] theorem State.orReg_signal (s : State) (k : Nat) (m : Word) : (s.orReg k m).signal = s.signal := rfl
@[simp] theorem State.orReg_blotter (s : State) (k : Nat) (m : Word) : (s.orReg k m).blotter = s.blotter := rfl
@[simp] theorem State.orReg_endgame (s : State) (k : Nat) (m : Word) : (s.orReg k m).endgame = s.endgame := rfl
@[simp] theorem State.orReg_scrub (s : State) (k : Nat) (m : Word) : (s.orReg k m).scrub = s.scrub := rfl
@[simp] theorem State.orReg_draws (s : State) (k : Nat) (m : Word) : (s.orReg k m).draws = s.draws := rfl
@[simp] theorem State.orReg_rings (s : State) (k : Nat) (m : Word) : (s.orReg k m).rings = s.rings := rfl
@[simp] theorem State.orReg_pairing (s : State) (k : Nat) (m : Word) : (s.orReg k m).pairing = s.pairing := rfl
@[simp] theorem State.orReg_freeCtr (s : State) (k : Nat) (m : Word) : (s.orReg k m).freeCtr = s.freeCtr := rfl
@[simp] theorem State.orReg_pending (s : State) (k : Nat) (m : Word) : (s.orReg k m).pending = s.pending := rfl

@[simp] theorem State.count_build (s : State) (k : Nat) : (s.count k).build = s.build := rfl
@[simp] theorem State.count_pins (s : State) (k : Nat) : (s.count k).pins = s.pins := rfl
@[simp] theorem State.count_fuse (s : State) (k : Nat) : (s.count k).fuse = s.fuse := rfl
@[simp] theorem State.count_tap (s : State) (k : Nat) : (s.count k).tap = s.tap := rfl
@[simp] theorem State.count_time (s : State) (k : Nat) : (s.count k).time = s.time := rfl
@[simp] theorem State.count_glb (s : State) (k : Nat) : (s.count k).glb = s.glb := rfl
@[simp] theorem State.count_rp (s : State) (k : Nat) : (s.count k).rp = s.rp := rfl
@[simp] theorem State.count_images (s : State) (k : Nat) : (s.count k).images = s.images := rfl
@[simp] theorem State.count_scribe (s : State) (k : Nat) : (s.count k).scribe = s.scribe := rfl
@[simp] theorem State.count_clusters (s : State) (k : Nat) : (s.count k).clusters = s.clusters := rfl
@[simp] theorem State.count_lanes (s : State) (k : Nat) : (s.count k).lanes = s.lanes := rfl
@[simp] theorem State.count_regions (s : State) (k : Nat) : (s.count k).regions = s.regions := rfl
@[simp] theorem State.count_fetching (s : State) (k : Nat) : (s.count k).fetching = s.fetching := rfl
@[simp] theorem State.count_cmds (s : State) (k : Nat) : (s.count k).cmds = s.cmds := rfl
@[simp] theorem State.count_ready (s : State) (k : Nat) : (s.count k).ready = s.ready := rfl
@[simp] theorem State.count_lateQ (s : State) (k : Nat) : (s.count k).lateQ = s.lateQ := rfl
@[simp] theorem State.count_posted (s : State) (k : Nat) : (s.count k).posted = s.posted := rfl
@[simp] theorem State.count_serial (s : State) (k : Nat) : (s.count k).serial = s.serial := rfl
@[simp] theorem State.count_slabs (s : State) (k : Nat) : (s.count k).slabs = s.slabs := rfl
@[simp] theorem State.count_ports (s : State) (k : Nat) : (s.count k).ports = s.ports := rfl
@[simp] theorem State.count_channels (s : State) (k : Nat) : (s.count k).channels = s.channels := rfl
@[simp] theorem State.count_ticks (s : State) (k : Nat) : (s.count k).ticks = s.ticks := rfl
@[simp] theorem State.count_cache (s : State) (k : Nat) : (s.count k).cache = s.cache := rfl
@[simp] theorem State.count_store (s : State) (k : Nat) : (s.count k).store = s.store := rfl
@[simp] theorem State.count_keys (s : State) (k : Nat) : (s.count k).keys = s.keys := rfl
@[simp] theorem State.count_tenants (s : State) (k : Nat) : (s.count k).tenants = s.tenants := rfl
@[simp] theorem State.count_ledger (s : State) (k : Nat) : (s.count k).ledger = s.ledger := rfl
@[simp] theorem State.count_signal (s : State) (k : Nat) : (s.count k).signal = s.signal := rfl
@[simp] theorem State.count_blotter (s : State) (k : Nat) : (s.count k).blotter = s.blotter := rfl
@[simp] theorem State.count_endgame (s : State) (k : Nat) : (s.count k).endgame = s.endgame := rfl
@[simp] theorem State.count_scrub (s : State) (k : Nat) : (s.count k).scrub = s.scrub := rfl
@[simp] theorem State.count_draws (s : State) (k : Nat) : (s.count k).draws = s.draws := rfl
@[simp] theorem State.count_rings (s : State) (k : Nat) : (s.count k).rings = s.rings := rfl
@[simp] theorem State.count_pairing (s : State) (k : Nat) : (s.count k).pairing = s.pairing := rfl
@[simp] theorem State.count_freeCtr (s : State) (k : Nat) : (s.count k).freeCtr = s.freeCtr := rfl
@[simp] theorem State.count_pending (s : State) (k : Nat) : (s.count k).pending = s.pending := rfl

@[simp] theorem State.countField_build (s : State) (k hi lo n : Nat) : (s.countField k hi lo n).build = s.build := rfl
@[simp] theorem State.countField_pins (s : State) (k hi lo n : Nat) : (s.countField k hi lo n).pins = s.pins := rfl
@[simp] theorem State.countField_fuse (s : State) (k hi lo n : Nat) : (s.countField k hi lo n).fuse = s.fuse := rfl
@[simp] theorem State.countField_tap (s : State) (k hi lo n : Nat) : (s.countField k hi lo n).tap = s.tap := rfl
@[simp] theorem State.countField_time (s : State) (k hi lo n : Nat) : (s.countField k hi lo n).time = s.time := rfl
@[simp] theorem State.countField_glb (s : State) (k hi lo n : Nat) : (s.countField k hi lo n).glb = s.glb := rfl
@[simp] theorem State.countField_rp (s : State) (k hi lo n : Nat) : (s.countField k hi lo n).rp = s.rp := rfl
@[simp] theorem State.countField_images (s : State) (k hi lo n : Nat) : (s.countField k hi lo n).images = s.images := rfl
@[simp] theorem State.countField_scribe (s : State) (k hi lo n : Nat) : (s.countField k hi lo n).scribe = s.scribe := rfl
@[simp] theorem State.countField_clusters (s : State) (k hi lo n : Nat) : (s.countField k hi lo n).clusters = s.clusters := rfl
@[simp] theorem State.countField_lanes (s : State) (k hi lo n : Nat) : (s.countField k hi lo n).lanes = s.lanes := rfl
@[simp] theorem State.countField_regions (s : State) (k hi lo n : Nat) : (s.countField k hi lo n).regions = s.regions := rfl
@[simp] theorem State.countField_fetching (s : State) (k hi lo n : Nat) : (s.countField k hi lo n).fetching = s.fetching := rfl
@[simp] theorem State.countField_cmds (s : State) (k hi lo n : Nat) : (s.countField k hi lo n).cmds = s.cmds := rfl
@[simp] theorem State.countField_ready (s : State) (k hi lo n : Nat) : (s.countField k hi lo n).ready = s.ready := rfl
@[simp] theorem State.countField_lateQ (s : State) (k hi lo n : Nat) : (s.countField k hi lo n).lateQ = s.lateQ := rfl
@[simp] theorem State.countField_posted (s : State) (k hi lo n : Nat) : (s.countField k hi lo n).posted = s.posted := rfl
@[simp] theorem State.countField_serial (s : State) (k hi lo n : Nat) : (s.countField k hi lo n).serial = s.serial := rfl
@[simp] theorem State.countField_slabs (s : State) (k hi lo n : Nat) : (s.countField k hi lo n).slabs = s.slabs := rfl
@[simp] theorem State.countField_ports (s : State) (k hi lo n : Nat) : (s.countField k hi lo n).ports = s.ports := rfl
@[simp] theorem State.countField_channels (s : State) (k hi lo n : Nat) : (s.countField k hi lo n).channels = s.channels := rfl
@[simp] theorem State.countField_ticks (s : State) (k hi lo n : Nat) : (s.countField k hi lo n).ticks = s.ticks := rfl
@[simp] theorem State.countField_cache (s : State) (k hi lo n : Nat) : (s.countField k hi lo n).cache = s.cache := rfl
@[simp] theorem State.countField_store (s : State) (k hi lo n : Nat) : (s.countField k hi lo n).store = s.store := rfl
@[simp] theorem State.countField_keys (s : State) (k hi lo n : Nat) : (s.countField k hi lo n).keys = s.keys := rfl
@[simp] theorem State.countField_tenants (s : State) (k hi lo n : Nat) : (s.countField k hi lo n).tenants = s.tenants := rfl
@[simp] theorem State.countField_ledger (s : State) (k hi lo n : Nat) : (s.countField k hi lo n).ledger = s.ledger := rfl
@[simp] theorem State.countField_signal (s : State) (k hi lo n : Nat) : (s.countField k hi lo n).signal = s.signal := rfl
@[simp] theorem State.countField_blotter (s : State) (k hi lo n : Nat) : (s.countField k hi lo n).blotter = s.blotter := rfl
@[simp] theorem State.countField_endgame (s : State) (k hi lo n : Nat) : (s.countField k hi lo n).endgame = s.endgame := rfl
@[simp] theorem State.countField_scrub (s : State) (k hi lo n : Nat) : (s.countField k hi lo n).scrub = s.scrub := rfl
@[simp] theorem State.countField_draws (s : State) (k hi lo n : Nat) : (s.countField k hi lo n).draws = s.draws := rfl
@[simp] theorem State.countField_rings (s : State) (k hi lo n : Nat) : (s.countField k hi lo n).rings = s.rings := rfl
@[simp] theorem State.countField_pairing (s : State) (k hi lo n : Nat) : (s.countField k hi lo n).pairing = s.pairing := rfl
@[simp] theorem State.countField_freeCtr (s : State) (k hi lo n : Nat) : (s.countField k hi lo n).freeCtr = s.freeCtr := rfl
@[simp] theorem State.countField_pending (s : State) (k hi lo n : Nat) : (s.countField k hi lo n).pending = s.pending := rfl

@[simp] theorem State.raise_build (s : State) (page b : Nat) : (s.raise page b).build = s.build := rfl
@[simp] theorem State.raise_pins (s : State) (page b : Nat) : (s.raise page b).pins = s.pins := rfl
@[simp] theorem State.raise_fuse (s : State) (page b : Nat) : (s.raise page b).fuse = s.fuse := rfl
@[simp] theorem State.raise_tap (s : State) (page b : Nat) : (s.raise page b).tap = s.tap := rfl
@[simp] theorem State.raise_time (s : State) (page b : Nat) : (s.raise page b).time = s.time := rfl
@[simp] theorem State.raise_glb (s : State) (page b : Nat) : (s.raise page b).glb = s.glb := rfl
@[simp] theorem State.raise_rp (s : State) (page b : Nat) : (s.raise page b).rp = s.rp := rfl
@[simp] theorem State.raise_images (s : State) (page b : Nat) : (s.raise page b).images = s.images := rfl
@[simp] theorem State.raise_scribe (s : State) (page b : Nat) : (s.raise page b).scribe = s.scribe := rfl
@[simp] theorem State.raise_clusters (s : State) (page b : Nat) : (s.raise page b).clusters = s.clusters := rfl
@[simp] theorem State.raise_lanes (s : State) (page b : Nat) : (s.raise page b).lanes = s.lanes := rfl
@[simp] theorem State.raise_regions (s : State) (page b : Nat) : (s.raise page b).regions = s.regions := rfl
@[simp] theorem State.raise_fetching (s : State) (page b : Nat) : (s.raise page b).fetching = s.fetching := rfl
@[simp] theorem State.raise_cmds (s : State) (page b : Nat) : (s.raise page b).cmds = s.cmds := rfl
@[simp] theorem State.raise_ready (s : State) (page b : Nat) : (s.raise page b).ready = s.ready := rfl
@[simp] theorem State.raise_lateQ (s : State) (page b : Nat) : (s.raise page b).lateQ = s.lateQ := rfl
@[simp] theorem State.raise_posted (s : State) (page b : Nat) : (s.raise page b).posted = s.posted := rfl
@[simp] theorem State.raise_serial (s : State) (page b : Nat) : (s.raise page b).serial = s.serial := rfl
@[simp] theorem State.raise_slabs (s : State) (page b : Nat) : (s.raise page b).slabs = s.slabs := rfl
@[simp] theorem State.raise_ports (s : State) (page b : Nat) : (s.raise page b).ports = s.ports := rfl
@[simp] theorem State.raise_channels (s : State) (page b : Nat) : (s.raise page b).channels = s.channels := rfl
@[simp] theorem State.raise_ticks (s : State) (page b : Nat) : (s.raise page b).ticks = s.ticks := rfl
@[simp] theorem State.raise_cache (s : State) (page b : Nat) : (s.raise page b).cache = s.cache := rfl
@[simp] theorem State.raise_store (s : State) (page b : Nat) : (s.raise page b).store = s.store := rfl
@[simp] theorem State.raise_keys (s : State) (page b : Nat) : (s.raise page b).keys = s.keys := rfl
@[simp] theorem State.raise_tenants (s : State) (page b : Nat) : (s.raise page b).tenants = s.tenants := rfl
@[simp] theorem State.raise_ledger (s : State) (page b : Nat) : (s.raise page b).ledger = s.ledger := rfl
@[simp] theorem State.raise_signal (s : State) (page b : Nat) : (s.raise page b).signal = s.signal := rfl
@[simp] theorem State.raise_blotter (s : State) (page b : Nat) : (s.raise page b).blotter = s.blotter := rfl
@[simp] theorem State.raise_endgame (s : State) (page b : Nat) : (s.raise page b).endgame = s.endgame := rfl
@[simp] theorem State.raise_scrub (s : State) (page b : Nat) : (s.raise page b).scrub = s.scrub := rfl
@[simp] theorem State.raise_draws (s : State) (page b : Nat) : (s.raise page b).draws = s.draws := rfl
@[simp] theorem State.raise_rings (s : State) (page b : Nat) : (s.raise page b).rings = s.rings := rfl
@[simp] theorem State.raise_pairing (s : State) (page b : Nat) : (s.raise page b).pairing = s.pairing := rfl
@[simp] theorem State.raise_freeCtr (s : State) (page b : Nat) : (s.raise page b).freeCtr = s.freeCtr := rfl
@[simp] theorem State.raise_pending (s : State) (page b : Nat) : (s.raise page b).pending = s.pending := rfl

@[simp] theorem State.modLane_build (s : State) (g : Nat) (f : Lane → Lane) : (s.modLane g f).build = s.build := rfl
@[simp] theorem State.modLane_pins (s : State) (g : Nat) (f : Lane → Lane) : (s.modLane g f).pins = s.pins := rfl
@[simp] theorem State.modLane_fuse (s : State) (g : Nat) (f : Lane → Lane) : (s.modLane g f).fuse = s.fuse := rfl
@[simp] theorem State.modLane_tap (s : State) (g : Nat) (f : Lane → Lane) : (s.modLane g f).tap = s.tap := rfl
@[simp] theorem State.modLane_time (s : State) (g : Nat) (f : Lane → Lane) : (s.modLane g f).time = s.time := rfl
@[simp] theorem State.modLane_glb (s : State) (g : Nat) (f : Lane → Lane) : (s.modLane g f).glb = s.glb := rfl
@[simp] theorem State.modLane_rp (s : State) (g : Nat) (f : Lane → Lane) : (s.modLane g f).rp = s.rp := rfl
@[simp] theorem State.modLane_regs (s : State) (g : Nat) (f : Lane → Lane) : (s.modLane g f).regs = s.regs := rfl
@[simp] theorem State.modLane_images (s : State) (g : Nat) (f : Lane → Lane) : (s.modLane g f).images = s.images := rfl
@[simp] theorem State.modLane_scribe (s : State) (g : Nat) (f : Lane → Lane) : (s.modLane g f).scribe = s.scribe := rfl
@[simp] theorem State.modLane_clusters (s : State) (g : Nat) (f : Lane → Lane) : (s.modLane g f).clusters = s.clusters := rfl
@[simp] theorem State.modLane_lanes (s : State) (g : Nat) (f : Lane → Lane) : (s.modLane g f).lanes = Tab.setD (fun _ => Lane.init) s.lanes g (f (s.lane g)) := rfl
@[simp] theorem State.modLane_regions (s : State) (g : Nat) (f : Lane → Lane) : (s.modLane g f).regions = s.regions := rfl
@[simp] theorem State.modLane_fetching (s : State) (g : Nat) (f : Lane → Lane) : (s.modLane g f).fetching = s.fetching := rfl
@[simp] theorem State.modLane_cmds (s : State) (g : Nat) (f : Lane → Lane) : (s.modLane g f).cmds = s.cmds := rfl
@[simp] theorem State.modLane_ready (s : State) (g : Nat) (f : Lane → Lane) : (s.modLane g f).ready = s.ready := rfl
@[simp] theorem State.modLane_lateQ (s : State) (g : Nat) (f : Lane → Lane) : (s.modLane g f).lateQ = s.lateQ := rfl
@[simp] theorem State.modLane_posted (s : State) (g : Nat) (f : Lane → Lane) : (s.modLane g f).posted = s.posted := rfl
@[simp] theorem State.modLane_serial (s : State) (g : Nat) (f : Lane → Lane) : (s.modLane g f).serial = s.serial := rfl
@[simp] theorem State.modLane_slabs (s : State) (g : Nat) (f : Lane → Lane) : (s.modLane g f).slabs = s.slabs := rfl
@[simp] theorem State.modLane_ports (s : State) (g : Nat) (f : Lane → Lane) : (s.modLane g f).ports = s.ports := rfl
@[simp] theorem State.modLane_channels (s : State) (g : Nat) (f : Lane → Lane) : (s.modLane g f).channels = s.channels := rfl
@[simp] theorem State.modLane_ticks (s : State) (g : Nat) (f : Lane → Lane) : (s.modLane g f).ticks = s.ticks := rfl
@[simp] theorem State.modLane_cache (s : State) (g : Nat) (f : Lane → Lane) : (s.modLane g f).cache = s.cache := rfl
@[simp] theorem State.modLane_store (s : State) (g : Nat) (f : Lane → Lane) : (s.modLane g f).store = s.store := rfl
@[simp] theorem State.modLane_keys (s : State) (g : Nat) (f : Lane → Lane) : (s.modLane g f).keys = s.keys := rfl
@[simp] theorem State.modLane_tenants (s : State) (g : Nat) (f : Lane → Lane) : (s.modLane g f).tenants = s.tenants := rfl
@[simp] theorem State.modLane_ledger (s : State) (g : Nat) (f : Lane → Lane) : (s.modLane g f).ledger = s.ledger := rfl
@[simp] theorem State.modLane_signal (s : State) (g : Nat) (f : Lane → Lane) : (s.modLane g f).signal = s.signal := rfl
@[simp] theorem State.modLane_blotter (s : State) (g : Nat) (f : Lane → Lane) : (s.modLane g f).blotter = s.blotter := rfl
@[simp] theorem State.modLane_endgame (s : State) (g : Nat) (f : Lane → Lane) : (s.modLane g f).endgame = s.endgame := rfl
@[simp] theorem State.modLane_scrub (s : State) (g : Nat) (f : Lane → Lane) : (s.modLane g f).scrub = s.scrub := rfl
@[simp] theorem State.modLane_draws (s : State) (g : Nat) (f : Lane → Lane) : (s.modLane g f).draws = s.draws := rfl
@[simp] theorem State.modLane_rings (s : State) (g : Nat) (f : Lane → Lane) : (s.modLane g f).rings = s.rings := rfl
@[simp] theorem State.modLane_pairing (s : State) (g : Nat) (f : Lane → Lane) : (s.modLane g f).pairing = s.pairing := rfl
@[simp] theorem State.modLane_freeCtr (s : State) (g : Nat) (f : Lane → Lane) : (s.modLane g f).freeCtr = s.freeCtr := rfl
@[simp] theorem State.modLane_pending (s : State) (g : Nat) (f : Lane → Lane) : (s.modLane g f).pending = s.pending := rfl

@[simp] theorem State.modLun_build (s : State) (g d : Nat) (f : Lun → Lun) : (s.modLun g d f).build = s.build := rfl
@[simp] theorem State.modLun_pins (s : State) (g d : Nat) (f : Lun → Lun) : (s.modLun g d f).pins = s.pins := rfl
@[simp] theorem State.modLun_fuse (s : State) (g d : Nat) (f : Lun → Lun) : (s.modLun g d f).fuse = s.fuse := rfl
@[simp] theorem State.modLun_tap (s : State) (g d : Nat) (f : Lun → Lun) : (s.modLun g d f).tap = s.tap := rfl
@[simp] theorem State.modLun_time (s : State) (g d : Nat) (f : Lun → Lun) : (s.modLun g d f).time = s.time := rfl
@[simp] theorem State.modLun_glb (s : State) (g d : Nat) (f : Lun → Lun) : (s.modLun g d f).glb = s.glb := rfl
@[simp] theorem State.modLun_rp (s : State) (g d : Nat) (f : Lun → Lun) : (s.modLun g d f).rp = s.rp := rfl
@[simp] theorem State.modLun_regs (s : State) (g d : Nat) (f : Lun → Lun) : (s.modLun g d f).regs = s.regs := rfl
@[simp] theorem State.modLun_images (s : State) (g d : Nat) (f : Lun → Lun) : (s.modLun g d f).images = s.images := rfl
@[simp] theorem State.modLun_scribe (s : State) (g d : Nat) (f : Lun → Lun) : (s.modLun g d f).scribe = s.scribe := rfl
@[simp] theorem State.modLun_clusters (s : State) (g d : Nat) (f : Lun → Lun) : (s.modLun g d f).clusters = s.clusters := rfl
@[simp] theorem State.modLun_regions (s : State) (g d : Nat) (f : Lun → Lun) : (s.modLun g d f).regions = s.regions := rfl
@[simp] theorem State.modLun_fetching (s : State) (g d : Nat) (f : Lun → Lun) : (s.modLun g d f).fetching = s.fetching := rfl
@[simp] theorem State.modLun_cmds (s : State) (g d : Nat) (f : Lun → Lun) : (s.modLun g d f).cmds = s.cmds := rfl
@[simp] theorem State.modLun_ready (s : State) (g d : Nat) (f : Lun → Lun) : (s.modLun g d f).ready = s.ready := rfl
@[simp] theorem State.modLun_lateQ (s : State) (g d : Nat) (f : Lun → Lun) : (s.modLun g d f).lateQ = s.lateQ := rfl
@[simp] theorem State.modLun_posted (s : State) (g d : Nat) (f : Lun → Lun) : (s.modLun g d f).posted = s.posted := rfl
@[simp] theorem State.modLun_serial (s : State) (g d : Nat) (f : Lun → Lun) : (s.modLun g d f).serial = s.serial := rfl
@[simp] theorem State.modLun_slabs (s : State) (g d : Nat) (f : Lun → Lun) : (s.modLun g d f).slabs = s.slabs := rfl
@[simp] theorem State.modLun_ports (s : State) (g d : Nat) (f : Lun → Lun) : (s.modLun g d f).ports = s.ports := rfl
@[simp] theorem State.modLun_channels (s : State) (g d : Nat) (f : Lun → Lun) : (s.modLun g d f).channels = s.channels := rfl
@[simp] theorem State.modLun_ticks (s : State) (g d : Nat) (f : Lun → Lun) : (s.modLun g d f).ticks = s.ticks := rfl
@[simp] theorem State.modLun_cache (s : State) (g d : Nat) (f : Lun → Lun) : (s.modLun g d f).cache = s.cache := rfl
@[simp] theorem State.modLun_store (s : State) (g d : Nat) (f : Lun → Lun) : (s.modLun g d f).store = s.store := rfl
@[simp] theorem State.modLun_keys (s : State) (g d : Nat) (f : Lun → Lun) : (s.modLun g d f).keys = s.keys := rfl
@[simp] theorem State.modLun_tenants (s : State) (g d : Nat) (f : Lun → Lun) : (s.modLun g d f).tenants = s.tenants := rfl
@[simp] theorem State.modLun_ledger (s : State) (g d : Nat) (f : Lun → Lun) : (s.modLun g d f).ledger = s.ledger := rfl
@[simp] theorem State.modLun_signal (s : State) (g d : Nat) (f : Lun → Lun) : (s.modLun g d f).signal = s.signal := rfl
@[simp] theorem State.modLun_blotter (s : State) (g d : Nat) (f : Lun → Lun) : (s.modLun g d f).blotter = s.blotter := rfl
@[simp] theorem State.modLun_endgame (s : State) (g d : Nat) (f : Lun → Lun) : (s.modLun g d f).endgame = s.endgame := rfl
@[simp] theorem State.modLun_scrub (s : State) (g d : Nat) (f : Lun → Lun) : (s.modLun g d f).scrub = s.scrub := rfl
@[simp] theorem State.modLun_draws (s : State) (g d : Nat) (f : Lun → Lun) : (s.modLun g d f).draws = s.draws := rfl
@[simp] theorem State.modLun_rings (s : State) (g d : Nat) (f : Lun → Lun) : (s.modLun g d f).rings = s.rings := rfl
@[simp] theorem State.modLun_pairing (s : State) (g d : Nat) (f : Lun → Lun) : (s.modLun g d f).pairing = s.pairing := rfl
@[simp] theorem State.modLun_freeCtr (s : State) (g d : Nat) (f : Lun → Lun) : (s.modLun g d f).freeCtr = s.freeCtr := rfl
@[simp] theorem State.modLun_pending (s : State) (g d : Nat) (f : Lun → Lun) : (s.modLun g d f).pending = s.pending := rfl

@[simp] theorem State.modCluster_build (s : State) (c : Nat) (f : Cluster → Cluster) : (s.modCluster c f).build = s.build := rfl
@[simp] theorem State.modCluster_pins (s : State) (c : Nat) (f : Cluster → Cluster) : (s.modCluster c f).pins = s.pins := rfl
@[simp] theorem State.modCluster_fuse (s : State) (c : Nat) (f : Cluster → Cluster) : (s.modCluster c f).fuse = s.fuse := rfl
@[simp] theorem State.modCluster_tap (s : State) (c : Nat) (f : Cluster → Cluster) : (s.modCluster c f).tap = s.tap := rfl
@[simp] theorem State.modCluster_time (s : State) (c : Nat) (f : Cluster → Cluster) : (s.modCluster c f).time = s.time := rfl
@[simp] theorem State.modCluster_glb (s : State) (c : Nat) (f : Cluster → Cluster) : (s.modCluster c f).glb = s.glb := rfl
@[simp] theorem State.modCluster_rp (s : State) (c : Nat) (f : Cluster → Cluster) : (s.modCluster c f).rp = s.rp := rfl
@[simp] theorem State.modCluster_regs (s : State) (c : Nat) (f : Cluster → Cluster) : (s.modCluster c f).regs = s.regs := rfl
@[simp] theorem State.modCluster_images (s : State) (c : Nat) (f : Cluster → Cluster) : (s.modCluster c f).images = s.images := rfl
@[simp] theorem State.modCluster_scribe (s : State) (c : Nat) (f : Cluster → Cluster) : (s.modCluster c f).scribe = s.scribe := rfl
@[simp] theorem State.modCluster_clusters (s : State) (c : Nat) (f : Cluster → Cluster) : (s.modCluster c f).clusters = Tab.setD (fun _ => Cluster.init) s.clusters c (f (s.cluster c)) := rfl
@[simp] theorem State.modCluster_lanes (s : State) (c : Nat) (f : Cluster → Cluster) : (s.modCluster c f).lanes = s.lanes := rfl
@[simp] theorem State.modCluster_regions (s : State) (c : Nat) (f : Cluster → Cluster) : (s.modCluster c f).regions = s.regions := rfl
@[simp] theorem State.modCluster_fetching (s : State) (c : Nat) (f : Cluster → Cluster) : (s.modCluster c f).fetching = s.fetching := rfl
@[simp] theorem State.modCluster_cmds (s : State) (c : Nat) (f : Cluster → Cluster) : (s.modCluster c f).cmds = s.cmds := rfl
@[simp] theorem State.modCluster_ready (s : State) (c : Nat) (f : Cluster → Cluster) : (s.modCluster c f).ready = s.ready := rfl
@[simp] theorem State.modCluster_lateQ (s : State) (c : Nat) (f : Cluster → Cluster) : (s.modCluster c f).lateQ = s.lateQ := rfl
@[simp] theorem State.modCluster_posted (s : State) (c : Nat) (f : Cluster → Cluster) : (s.modCluster c f).posted = s.posted := rfl
@[simp] theorem State.modCluster_serial (s : State) (c : Nat) (f : Cluster → Cluster) : (s.modCluster c f).serial = s.serial := rfl
@[simp] theorem State.modCluster_slabs (s : State) (c : Nat) (f : Cluster → Cluster) : (s.modCluster c f).slabs = s.slabs := rfl
@[simp] theorem State.modCluster_ports (s : State) (c : Nat) (f : Cluster → Cluster) : (s.modCluster c f).ports = s.ports := rfl
@[simp] theorem State.modCluster_channels (s : State) (c : Nat) (f : Cluster → Cluster) : (s.modCluster c f).channels = s.channels := rfl
@[simp] theorem State.modCluster_ticks (s : State) (c : Nat) (f : Cluster → Cluster) : (s.modCluster c f).ticks = s.ticks := rfl
@[simp] theorem State.modCluster_cache (s : State) (c : Nat) (f : Cluster → Cluster) : (s.modCluster c f).cache = s.cache := rfl
@[simp] theorem State.modCluster_store (s : State) (c : Nat) (f : Cluster → Cluster) : (s.modCluster c f).store = s.store := rfl
@[simp] theorem State.modCluster_keys (s : State) (c : Nat) (f : Cluster → Cluster) : (s.modCluster c f).keys = s.keys := rfl
@[simp] theorem State.modCluster_tenants (s : State) (c : Nat) (f : Cluster → Cluster) : (s.modCluster c f).tenants = s.tenants := rfl
@[simp] theorem State.modCluster_ledger (s : State) (c : Nat) (f : Cluster → Cluster) : (s.modCluster c f).ledger = s.ledger := rfl
@[simp] theorem State.modCluster_signal (s : State) (c : Nat) (f : Cluster → Cluster) : (s.modCluster c f).signal = s.signal := rfl
@[simp] theorem State.modCluster_blotter (s : State) (c : Nat) (f : Cluster → Cluster) : (s.modCluster c f).blotter = s.blotter := rfl
@[simp] theorem State.modCluster_endgame (s : State) (c : Nat) (f : Cluster → Cluster) : (s.modCluster c f).endgame = s.endgame := rfl
@[simp] theorem State.modCluster_scrub (s : State) (c : Nat) (f : Cluster → Cluster) : (s.modCluster c f).scrub = s.scrub := rfl
@[simp] theorem State.modCluster_draws (s : State) (c : Nat) (f : Cluster → Cluster) : (s.modCluster c f).draws = s.draws := rfl
@[simp] theorem State.modCluster_rings (s : State) (c : Nat) (f : Cluster → Cluster) : (s.modCluster c f).rings = s.rings := rfl
@[simp] theorem State.modCluster_pairing (s : State) (c : Nat) (f : Cluster → Cluster) : (s.modCluster c f).pairing = s.pairing := rfl
@[simp] theorem State.modCluster_freeCtr (s : State) (c : Nat) (f : Cluster → Cluster) : (s.modCluster c f).freeCtr = s.freeCtr := rfl
@[simp] theorem State.modCluster_pending (s : State) (c : Nat) (f : Cluster → Cluster) : (s.modCluster c f).pending = s.pending := rfl

@[simp] theorem State.modRegion_build (s : State) (r : Nat) (f : Region → Region) : (s.modRegion r f).build = s.build := rfl
@[simp] theorem State.modRegion_pins (s : State) (r : Nat) (f : Region → Region) : (s.modRegion r f).pins = s.pins := rfl
@[simp] theorem State.modRegion_fuse (s : State) (r : Nat) (f : Region → Region) : (s.modRegion r f).fuse = s.fuse := rfl
@[simp] theorem State.modRegion_tap (s : State) (r : Nat) (f : Region → Region) : (s.modRegion r f).tap = s.tap := rfl
@[simp] theorem State.modRegion_time (s : State) (r : Nat) (f : Region → Region) : (s.modRegion r f).time = s.time := rfl
@[simp] theorem State.modRegion_glb (s : State) (r : Nat) (f : Region → Region) : (s.modRegion r f).glb = s.glb := rfl
@[simp] theorem State.modRegion_rp (s : State) (r : Nat) (f : Region → Region) : (s.modRegion r f).rp = s.rp := rfl
@[simp] theorem State.modRegion_regs (s : State) (r : Nat) (f : Region → Region) : (s.modRegion r f).regs = s.regs := rfl
@[simp] theorem State.modRegion_images (s : State) (r : Nat) (f : Region → Region) : (s.modRegion r f).images = s.images := rfl
@[simp] theorem State.modRegion_scribe (s : State) (r : Nat) (f : Region → Region) : (s.modRegion r f).scribe = s.scribe := rfl
@[simp] theorem State.modRegion_clusters (s : State) (r : Nat) (f : Region → Region) : (s.modRegion r f).clusters = s.clusters := rfl
@[simp] theorem State.modRegion_lanes (s : State) (r : Nat) (f : Region → Region) : (s.modRegion r f).lanes = s.lanes := rfl
@[simp] theorem State.modRegion_regions (s : State) (r : Nat) (f : Region → Region) : (s.modRegion r f).regions = Tab.setD (fun _ => Region.init) s.regions r (f (s.region r)) := rfl
@[simp] theorem State.modRegion_fetching (s : State) (r : Nat) (f : Region → Region) : (s.modRegion r f).fetching = s.fetching := rfl
@[simp] theorem State.modRegion_cmds (s : State) (r : Nat) (f : Region → Region) : (s.modRegion r f).cmds = s.cmds := rfl
@[simp] theorem State.modRegion_ready (s : State) (r : Nat) (f : Region → Region) : (s.modRegion r f).ready = s.ready := rfl
@[simp] theorem State.modRegion_lateQ (s : State) (r : Nat) (f : Region → Region) : (s.modRegion r f).lateQ = s.lateQ := rfl
@[simp] theorem State.modRegion_posted (s : State) (r : Nat) (f : Region → Region) : (s.modRegion r f).posted = s.posted := rfl
@[simp] theorem State.modRegion_serial (s : State) (r : Nat) (f : Region → Region) : (s.modRegion r f).serial = s.serial := rfl
@[simp] theorem State.modRegion_slabs (s : State) (r : Nat) (f : Region → Region) : (s.modRegion r f).slabs = s.slabs := rfl
@[simp] theorem State.modRegion_ports (s : State) (r : Nat) (f : Region → Region) : (s.modRegion r f).ports = s.ports := rfl
@[simp] theorem State.modRegion_channels (s : State) (r : Nat) (f : Region → Region) : (s.modRegion r f).channels = s.channels := rfl
@[simp] theorem State.modRegion_ticks (s : State) (r : Nat) (f : Region → Region) : (s.modRegion r f).ticks = s.ticks := rfl
@[simp] theorem State.modRegion_cache (s : State) (r : Nat) (f : Region → Region) : (s.modRegion r f).cache = s.cache := rfl
@[simp] theorem State.modRegion_store (s : State) (r : Nat) (f : Region → Region) : (s.modRegion r f).store = s.store := rfl
@[simp] theorem State.modRegion_keys (s : State) (r : Nat) (f : Region → Region) : (s.modRegion r f).keys = s.keys := rfl
@[simp] theorem State.modRegion_tenants (s : State) (r : Nat) (f : Region → Region) : (s.modRegion r f).tenants = s.tenants := rfl
@[simp] theorem State.modRegion_ledger (s : State) (r : Nat) (f : Region → Region) : (s.modRegion r f).ledger = s.ledger := rfl
@[simp] theorem State.modRegion_signal (s : State) (r : Nat) (f : Region → Region) : (s.modRegion r f).signal = s.signal := rfl
@[simp] theorem State.modRegion_blotter (s : State) (r : Nat) (f : Region → Region) : (s.modRegion r f).blotter = s.blotter := rfl
@[simp] theorem State.modRegion_endgame (s : State) (r : Nat) (f : Region → Region) : (s.modRegion r f).endgame = s.endgame := rfl
@[simp] theorem State.modRegion_scrub (s : State) (r : Nat) (f : Region → Region) : (s.modRegion r f).scrub = s.scrub := rfl
@[simp] theorem State.modRegion_draws (s : State) (r : Nat) (f : Region → Region) : (s.modRegion r f).draws = s.draws := rfl
@[simp] theorem State.modRegion_rings (s : State) (r : Nat) (f : Region → Region) : (s.modRegion r f).rings = s.rings := rfl
@[simp] theorem State.modRegion_pairing (s : State) (r : Nat) (f : Region → Region) : (s.modRegion r f).pairing = s.pairing := rfl
@[simp] theorem State.modRegion_freeCtr (s : State) (r : Nat) (f : Region → Region) : (s.modRegion r f).freeCtr = s.freeCtr := rfl
@[simp] theorem State.modRegion_pending (s : State) (r : Nat) (f : Region → Region) : (s.modRegion r f).pending = s.pending := rfl

@[simp] theorem State.modSlab_build (s : State) (n : Nat) (f : Slab → Slab) : (s.modSlab n f).build = s.build := rfl
@[simp] theorem State.modSlab_pins (s : State) (n : Nat) (f : Slab → Slab) : (s.modSlab n f).pins = s.pins := rfl
@[simp] theorem State.modSlab_fuse (s : State) (n : Nat) (f : Slab → Slab) : (s.modSlab n f).fuse = s.fuse := rfl
@[simp] theorem State.modSlab_tap (s : State) (n : Nat) (f : Slab → Slab) : (s.modSlab n f).tap = s.tap := rfl
@[simp] theorem State.modSlab_time (s : State) (n : Nat) (f : Slab → Slab) : (s.modSlab n f).time = s.time := rfl
@[simp] theorem State.modSlab_glb (s : State) (n : Nat) (f : Slab → Slab) : (s.modSlab n f).glb = s.glb := rfl
@[simp] theorem State.modSlab_rp (s : State) (n : Nat) (f : Slab → Slab) : (s.modSlab n f).rp = s.rp := rfl
@[simp] theorem State.modSlab_regs (s : State) (n : Nat) (f : Slab → Slab) : (s.modSlab n f).regs = s.regs := rfl
@[simp] theorem State.modSlab_images (s : State) (n : Nat) (f : Slab → Slab) : (s.modSlab n f).images = s.images := rfl
@[simp] theorem State.modSlab_scribe (s : State) (n : Nat) (f : Slab → Slab) : (s.modSlab n f).scribe = s.scribe := rfl
@[simp] theorem State.modSlab_clusters (s : State) (n : Nat) (f : Slab → Slab) : (s.modSlab n f).clusters = s.clusters := rfl
@[simp] theorem State.modSlab_lanes (s : State) (n : Nat) (f : Slab → Slab) : (s.modSlab n f).lanes = s.lanes := rfl
@[simp] theorem State.modSlab_regions (s : State) (n : Nat) (f : Slab → Slab) : (s.modSlab n f).regions = s.regions := rfl
@[simp] theorem State.modSlab_fetching (s : State) (n : Nat) (f : Slab → Slab) : (s.modSlab n f).fetching = s.fetching := rfl
@[simp] theorem State.modSlab_cmds (s : State) (n : Nat) (f : Slab → Slab) : (s.modSlab n f).cmds = s.cmds := rfl
@[simp] theorem State.modSlab_ready (s : State) (n : Nat) (f : Slab → Slab) : (s.modSlab n f).ready = s.ready := rfl
@[simp] theorem State.modSlab_lateQ (s : State) (n : Nat) (f : Slab → Slab) : (s.modSlab n f).lateQ = s.lateQ := rfl
@[simp] theorem State.modSlab_posted (s : State) (n : Nat) (f : Slab → Slab) : (s.modSlab n f).posted = s.posted := rfl
@[simp] theorem State.modSlab_serial (s : State) (n : Nat) (f : Slab → Slab) : (s.modSlab n f).serial = s.serial := rfl
@[simp] theorem State.modSlab_slabs (s : State) (n : Nat) (f : Slab → Slab) : (s.modSlab n f).slabs = Tab.setD (fun _ => Slab.init) s.slabs n (f (s.slab n)) := rfl
@[simp] theorem State.modSlab_ports (s : State) (n : Nat) (f : Slab → Slab) : (s.modSlab n f).ports = s.ports := rfl
@[simp] theorem State.modSlab_channels (s : State) (n : Nat) (f : Slab → Slab) : (s.modSlab n f).channels = s.channels := rfl
@[simp] theorem State.modSlab_ticks (s : State) (n : Nat) (f : Slab → Slab) : (s.modSlab n f).ticks = s.ticks := rfl
@[simp] theorem State.modSlab_cache (s : State) (n : Nat) (f : Slab → Slab) : (s.modSlab n f).cache = s.cache := rfl
@[simp] theorem State.modSlab_store (s : State) (n : Nat) (f : Slab → Slab) : (s.modSlab n f).store = s.store := rfl
@[simp] theorem State.modSlab_keys (s : State) (n : Nat) (f : Slab → Slab) : (s.modSlab n f).keys = s.keys := rfl
@[simp] theorem State.modSlab_tenants (s : State) (n : Nat) (f : Slab → Slab) : (s.modSlab n f).tenants = s.tenants := rfl
@[simp] theorem State.modSlab_ledger (s : State) (n : Nat) (f : Slab → Slab) : (s.modSlab n f).ledger = s.ledger := rfl
@[simp] theorem State.modSlab_signal (s : State) (n : Nat) (f : Slab → Slab) : (s.modSlab n f).signal = s.signal := rfl
@[simp] theorem State.modSlab_blotter (s : State) (n : Nat) (f : Slab → Slab) : (s.modSlab n f).blotter = s.blotter := rfl
@[simp] theorem State.modSlab_endgame (s : State) (n : Nat) (f : Slab → Slab) : (s.modSlab n f).endgame = s.endgame := rfl
@[simp] theorem State.modSlab_scrub (s : State) (n : Nat) (f : Slab → Slab) : (s.modSlab n f).scrub = s.scrub := rfl
@[simp] theorem State.modSlab_draws (s : State) (n : Nat) (f : Slab → Slab) : (s.modSlab n f).draws = s.draws := rfl
@[simp] theorem State.modSlab_rings (s : State) (n : Nat) (f : Slab → Slab) : (s.modSlab n f).rings = s.rings := rfl
@[simp] theorem State.modSlab_pairing (s : State) (n : Nat) (f : Slab → Slab) : (s.modSlab n f).pairing = s.pairing := rfl
@[simp] theorem State.modSlab_freeCtr (s : State) (n : Nat) (f : Slab → Slab) : (s.modSlab n f).freeCtr = s.freeCtr := rfl
@[simp] theorem State.modSlab_pending (s : State) (n : Nat) (f : Slab → Slab) : (s.modSlab n f).pending = s.pending := rfl

@[simp] theorem State.modPort_build (s : State) (p : Nat) (f : Port → Port) : (s.modPort p f).build = s.build := rfl
@[simp] theorem State.modPort_pins (s : State) (p : Nat) (f : Port → Port) : (s.modPort p f).pins = s.pins := rfl
@[simp] theorem State.modPort_fuse (s : State) (p : Nat) (f : Port → Port) : (s.modPort p f).fuse = s.fuse := rfl
@[simp] theorem State.modPort_tap (s : State) (p : Nat) (f : Port → Port) : (s.modPort p f).tap = s.tap := rfl
@[simp] theorem State.modPort_time (s : State) (p : Nat) (f : Port → Port) : (s.modPort p f).time = s.time := rfl
@[simp] theorem State.modPort_glb (s : State) (p : Nat) (f : Port → Port) : (s.modPort p f).glb = s.glb := rfl
@[simp] theorem State.modPort_rp (s : State) (p : Nat) (f : Port → Port) : (s.modPort p f).rp = s.rp := rfl
@[simp] theorem State.modPort_regs (s : State) (p : Nat) (f : Port → Port) : (s.modPort p f).regs = s.regs := rfl
@[simp] theorem State.modPort_images (s : State) (p : Nat) (f : Port → Port) : (s.modPort p f).images = s.images := rfl
@[simp] theorem State.modPort_scribe (s : State) (p : Nat) (f : Port → Port) : (s.modPort p f).scribe = s.scribe := rfl
@[simp] theorem State.modPort_clusters (s : State) (p : Nat) (f : Port → Port) : (s.modPort p f).clusters = s.clusters := rfl
@[simp] theorem State.modPort_lanes (s : State) (p : Nat) (f : Port → Port) : (s.modPort p f).lanes = s.lanes := rfl
@[simp] theorem State.modPort_regions (s : State) (p : Nat) (f : Port → Port) : (s.modPort p f).regions = s.regions := rfl
@[simp] theorem State.modPort_fetching (s : State) (p : Nat) (f : Port → Port) : (s.modPort p f).fetching = s.fetching := rfl
@[simp] theorem State.modPort_cmds (s : State) (p : Nat) (f : Port → Port) : (s.modPort p f).cmds = s.cmds := rfl
@[simp] theorem State.modPort_ready (s : State) (p : Nat) (f : Port → Port) : (s.modPort p f).ready = s.ready := rfl
@[simp] theorem State.modPort_lateQ (s : State) (p : Nat) (f : Port → Port) : (s.modPort p f).lateQ = s.lateQ := rfl
@[simp] theorem State.modPort_posted (s : State) (p : Nat) (f : Port → Port) : (s.modPort p f).posted = s.posted := rfl
@[simp] theorem State.modPort_serial (s : State) (p : Nat) (f : Port → Port) : (s.modPort p f).serial = s.serial := rfl
@[simp] theorem State.modPort_slabs (s : State) (p : Nat) (f : Port → Port) : (s.modPort p f).slabs = s.slabs := rfl
@[simp] theorem State.modPort_ports (s : State) (p : Nat) (f : Port → Port) : (s.modPort p f).ports = Tab.setD (fun _ => Port.init) s.ports p (f (s.port p)) := rfl
@[simp] theorem State.modPort_channels (s : State) (p : Nat) (f : Port → Port) : (s.modPort p f).channels = s.channels := rfl
@[simp] theorem State.modPort_ticks (s : State) (p : Nat) (f : Port → Port) : (s.modPort p f).ticks = s.ticks := rfl
@[simp] theorem State.modPort_cache (s : State) (p : Nat) (f : Port → Port) : (s.modPort p f).cache = s.cache := rfl
@[simp] theorem State.modPort_store (s : State) (p : Nat) (f : Port → Port) : (s.modPort p f).store = s.store := rfl
@[simp] theorem State.modPort_keys (s : State) (p : Nat) (f : Port → Port) : (s.modPort p f).keys = s.keys := rfl
@[simp] theorem State.modPort_tenants (s : State) (p : Nat) (f : Port → Port) : (s.modPort p f).tenants = s.tenants := rfl
@[simp] theorem State.modPort_ledger (s : State) (p : Nat) (f : Port → Port) : (s.modPort p f).ledger = s.ledger := rfl
@[simp] theorem State.modPort_signal (s : State) (p : Nat) (f : Port → Port) : (s.modPort p f).signal = s.signal := rfl
@[simp] theorem State.modPort_blotter (s : State) (p : Nat) (f : Port → Port) : (s.modPort p f).blotter = s.blotter := rfl
@[simp] theorem State.modPort_endgame (s : State) (p : Nat) (f : Port → Port) : (s.modPort p f).endgame = s.endgame := rfl
@[simp] theorem State.modPort_scrub (s : State) (p : Nat) (f : Port → Port) : (s.modPort p f).scrub = s.scrub := rfl
@[simp] theorem State.modPort_draws (s : State) (p : Nat) (f : Port → Port) : (s.modPort p f).draws = s.draws := rfl
@[simp] theorem State.modPort_rings (s : State) (p : Nat) (f : Port → Port) : (s.modPort p f).rings = s.rings := rfl
@[simp] theorem State.modPort_pairing (s : State) (p : Nat) (f : Port → Port) : (s.modPort p f).pairing = s.pairing := rfl
@[simp] theorem State.modPort_freeCtr (s : State) (p : Nat) (f : Port → Port) : (s.modPort p f).freeCtr = s.freeCtr := rfl
@[simp] theorem State.modPort_pending (s : State) (p : Nat) (f : Port → Port) : (s.modPort p f).pending = s.pending := rfl

@[simp] theorem State.modChannel_build (s : State) (ch : Nat) (f : Channel → Channel) : (s.modChannel ch f).build = s.build := rfl
@[simp] theorem State.modChannel_pins (s : State) (ch : Nat) (f : Channel → Channel) : (s.modChannel ch f).pins = s.pins := rfl
@[simp] theorem State.modChannel_fuse (s : State) (ch : Nat) (f : Channel → Channel) : (s.modChannel ch f).fuse = s.fuse := rfl
@[simp] theorem State.modChannel_tap (s : State) (ch : Nat) (f : Channel → Channel) : (s.modChannel ch f).tap = s.tap := rfl
@[simp] theorem State.modChannel_time (s : State) (ch : Nat) (f : Channel → Channel) : (s.modChannel ch f).time = s.time := rfl
@[simp] theorem State.modChannel_glb (s : State) (ch : Nat) (f : Channel → Channel) : (s.modChannel ch f).glb = s.glb := rfl
@[simp] theorem State.modChannel_rp (s : State) (ch : Nat) (f : Channel → Channel) : (s.modChannel ch f).rp = s.rp := rfl
@[simp] theorem State.modChannel_regs (s : State) (ch : Nat) (f : Channel → Channel) : (s.modChannel ch f).regs = s.regs := rfl
@[simp] theorem State.modChannel_images (s : State) (ch : Nat) (f : Channel → Channel) : (s.modChannel ch f).images = s.images := rfl
@[simp] theorem State.modChannel_scribe (s : State) (ch : Nat) (f : Channel → Channel) : (s.modChannel ch f).scribe = s.scribe := rfl
@[simp] theorem State.modChannel_clusters (s : State) (ch : Nat) (f : Channel → Channel) : (s.modChannel ch f).clusters = s.clusters := rfl
@[simp] theorem State.modChannel_lanes (s : State) (ch : Nat) (f : Channel → Channel) : (s.modChannel ch f).lanes = s.lanes := rfl
@[simp] theorem State.modChannel_regions (s : State) (ch : Nat) (f : Channel → Channel) : (s.modChannel ch f).regions = s.regions := rfl
@[simp] theorem State.modChannel_fetching (s : State) (ch : Nat) (f : Channel → Channel) : (s.modChannel ch f).fetching = s.fetching := rfl
@[simp] theorem State.modChannel_cmds (s : State) (ch : Nat) (f : Channel → Channel) : (s.modChannel ch f).cmds = s.cmds := rfl
@[simp] theorem State.modChannel_ready (s : State) (ch : Nat) (f : Channel → Channel) : (s.modChannel ch f).ready = s.ready := rfl
@[simp] theorem State.modChannel_lateQ (s : State) (ch : Nat) (f : Channel → Channel) : (s.modChannel ch f).lateQ = s.lateQ := rfl
@[simp] theorem State.modChannel_posted (s : State) (ch : Nat) (f : Channel → Channel) : (s.modChannel ch f).posted = s.posted := rfl
@[simp] theorem State.modChannel_serial (s : State) (ch : Nat) (f : Channel → Channel) : (s.modChannel ch f).serial = s.serial := rfl
@[simp] theorem State.modChannel_slabs (s : State) (ch : Nat) (f : Channel → Channel) : (s.modChannel ch f).slabs = s.slabs := rfl
@[simp] theorem State.modChannel_ports (s : State) (ch : Nat) (f : Channel → Channel) : (s.modChannel ch f).ports = s.ports := rfl
@[simp] theorem State.modChannel_channels (s : State) (ch : Nat) (f : Channel → Channel) : (s.modChannel ch f).channels = Tab.setD (fun _ => Channel.init) s.channels ch (f (s.channel ch)) := rfl
@[simp] theorem State.modChannel_ticks (s : State) (ch : Nat) (f : Channel → Channel) : (s.modChannel ch f).ticks = s.ticks := rfl
@[simp] theorem State.modChannel_cache (s : State) (ch : Nat) (f : Channel → Channel) : (s.modChannel ch f).cache = s.cache := rfl
@[simp] theorem State.modChannel_store (s : State) (ch : Nat) (f : Channel → Channel) : (s.modChannel ch f).store = s.store := rfl
@[simp] theorem State.modChannel_keys (s : State) (ch : Nat) (f : Channel → Channel) : (s.modChannel ch f).keys = s.keys := rfl
@[simp] theorem State.modChannel_tenants (s : State) (ch : Nat) (f : Channel → Channel) : (s.modChannel ch f).tenants = s.tenants := rfl
@[simp] theorem State.modChannel_ledger (s : State) (ch : Nat) (f : Channel → Channel) : (s.modChannel ch f).ledger = s.ledger := rfl
@[simp] theorem State.modChannel_signal (s : State) (ch : Nat) (f : Channel → Channel) : (s.modChannel ch f).signal = s.signal := rfl
@[simp] theorem State.modChannel_blotter (s : State) (ch : Nat) (f : Channel → Channel) : (s.modChannel ch f).blotter = s.blotter := rfl
@[simp] theorem State.modChannel_endgame (s : State) (ch : Nat) (f : Channel → Channel) : (s.modChannel ch f).endgame = s.endgame := rfl
@[simp] theorem State.modChannel_scrub (s : State) (ch : Nat) (f : Channel → Channel) : (s.modChannel ch f).scrub = s.scrub := rfl
@[simp] theorem State.modChannel_draws (s : State) (ch : Nat) (f : Channel → Channel) : (s.modChannel ch f).draws = s.draws := rfl
@[simp] theorem State.modChannel_rings (s : State) (ch : Nat) (f : Channel → Channel) : (s.modChannel ch f).rings = s.rings := rfl
@[simp] theorem State.modChannel_pairing (s : State) (ch : Nat) (f : Channel → Channel) : (s.modChannel ch f).pairing = s.pairing := rfl
@[simp] theorem State.modChannel_freeCtr (s : State) (ch : Nat) (f : Channel → Channel) : (s.modChannel ch f).freeCtr = s.freeCtr := rfl
@[simp] theorem State.modChannel_pending (s : State) (ch : Nat) (f : Channel → Channel) : (s.modChannel ch f).pending = s.pending := rfl

@[simp] theorem State.modVec_build (s : State) (v : Nat) (f : Vec → Vec) : (s.modVec v f).build = s.build := rfl
@[simp] theorem State.modVec_pins (s : State) (v : Nat) (f : Vec → Vec) : (s.modVec v f).pins = s.pins := rfl
@[simp] theorem State.modVec_fuse (s : State) (v : Nat) (f : Vec → Vec) : (s.modVec v f).fuse = s.fuse := rfl
@[simp] theorem State.modVec_tap (s : State) (v : Nat) (f : Vec → Vec) : (s.modVec v f).tap = s.tap := rfl
@[simp] theorem State.modVec_time (s : State) (v : Nat) (f : Vec → Vec) : (s.modVec v f).time = s.time := rfl
@[simp] theorem State.modVec_glb (s : State) (v : Nat) (f : Vec → Vec) : (s.modVec v f).glb = s.glb := rfl
@[simp] theorem State.modVec_rp (s : State) (v : Nat) (f : Vec → Vec) : (s.modVec v f).rp = s.rp := rfl
@[simp] theorem State.modVec_regs (s : State) (v : Nat) (f : Vec → Vec) : (s.modVec v f).regs = s.regs := rfl
@[simp] theorem State.modVec_images (s : State) (v : Nat) (f : Vec → Vec) : (s.modVec v f).images = s.images := rfl
@[simp] theorem State.modVec_scribe (s : State) (v : Nat) (f : Vec → Vec) : (s.modVec v f).scribe = s.scribe := rfl
@[simp] theorem State.modVec_clusters (s : State) (v : Nat) (f : Vec → Vec) : (s.modVec v f).clusters = s.clusters := rfl
@[simp] theorem State.modVec_lanes (s : State) (v : Nat) (f : Vec → Vec) : (s.modVec v f).lanes = s.lanes := rfl
@[simp] theorem State.modVec_regions (s : State) (v : Nat) (f : Vec → Vec) : (s.modVec v f).regions = s.regions := rfl
@[simp] theorem State.modVec_fetching (s : State) (v : Nat) (f : Vec → Vec) : (s.modVec v f).fetching = s.fetching := rfl
@[simp] theorem State.modVec_cmds (s : State) (v : Nat) (f : Vec → Vec) : (s.modVec v f).cmds = s.cmds := rfl
@[simp] theorem State.modVec_ready (s : State) (v : Nat) (f : Vec → Vec) : (s.modVec v f).ready = s.ready := rfl
@[simp] theorem State.modVec_lateQ (s : State) (v : Nat) (f : Vec → Vec) : (s.modVec v f).lateQ = s.lateQ := rfl
@[simp] theorem State.modVec_posted (s : State) (v : Nat) (f : Vec → Vec) : (s.modVec v f).posted = s.posted := rfl
@[simp] theorem State.modVec_serial (s : State) (v : Nat) (f : Vec → Vec) : (s.modVec v f).serial = s.serial := rfl
@[simp] theorem State.modVec_slabs (s : State) (v : Nat) (f : Vec → Vec) : (s.modVec v f).slabs = s.slabs := rfl
@[simp] theorem State.modVec_ports (s : State) (v : Nat) (f : Vec → Vec) : (s.modVec v f).ports = s.ports := rfl
@[simp] theorem State.modVec_channels (s : State) (v : Nat) (f : Vec → Vec) : (s.modVec v f).channels = s.channels := rfl
@[simp] theorem State.modVec_ticks (s : State) (v : Nat) (f : Vec → Vec) : (s.modVec v f).ticks = s.ticks := rfl
@[simp] theorem State.modVec_cache (s : State) (v : Nat) (f : Vec → Vec) : (s.modVec v f).cache = s.cache := rfl
@[simp] theorem State.modVec_store (s : State) (v : Nat) (f : Vec → Vec) : (s.modVec v f).store = s.store := rfl
@[simp] theorem State.modVec_keys (s : State) (v : Nat) (f : Vec → Vec) : (s.modVec v f).keys = s.keys := rfl
@[simp] theorem State.modVec_tenants (s : State) (v : Nat) (f : Vec → Vec) : (s.modVec v f).tenants = s.tenants := rfl
@[simp] theorem State.modVec_ledger (s : State) (v : Nat) (f : Vec → Vec) : (s.modVec v f).ledger = s.ledger := rfl
@[simp] theorem State.modVec_blotter (s : State) (v : Nat) (f : Vec → Vec) : (s.modVec v f).blotter = s.blotter := rfl
@[simp] theorem State.modVec_endgame (s : State) (v : Nat) (f : Vec → Vec) : (s.modVec v f).endgame = s.endgame := rfl
@[simp] theorem State.modVec_scrub (s : State) (v : Nat) (f : Vec → Vec) : (s.modVec v f).scrub = s.scrub := rfl
@[simp] theorem State.modVec_draws (s : State) (v : Nat) (f : Vec → Vec) : (s.modVec v f).draws = s.draws := rfl
@[simp] theorem State.modVec_rings (s : State) (v : Nat) (f : Vec → Vec) : (s.modVec v f).rings = s.rings := rfl
@[simp] theorem State.modVec_pairing (s : State) (v : Nat) (f : Vec → Vec) : (s.modVec v f).pairing = s.pairing := rfl
@[simp] theorem State.modVec_freeCtr (s : State) (v : Nat) (f : Vec → Vec) : (s.modVec v f).freeCtr = s.freeCtr := rfl
@[simp] theorem State.modVec_pending (s : State) (v : Nat) (f : Vec → Vec) : (s.modVec v f).pending = s.pending := rfl

@[simp] theorem State.setCmd_build (s : State) (c h : Nat) (x : Option Cmd) : (s.setCmd c h x).build = s.build := rfl
@[simp] theorem State.setCmd_pins (s : State) (c h : Nat) (x : Option Cmd) : (s.setCmd c h x).pins = s.pins := rfl
@[simp] theorem State.setCmd_fuse (s : State) (c h : Nat) (x : Option Cmd) : (s.setCmd c h x).fuse = s.fuse := rfl
@[simp] theorem State.setCmd_tap (s : State) (c h : Nat) (x : Option Cmd) : (s.setCmd c h x).tap = s.tap := rfl
@[simp] theorem State.setCmd_time (s : State) (c h : Nat) (x : Option Cmd) : (s.setCmd c h x).time = s.time := rfl
@[simp] theorem State.setCmd_glb (s : State) (c h : Nat) (x : Option Cmd) : (s.setCmd c h x).glb = s.glb := rfl
@[simp] theorem State.setCmd_rp (s : State) (c h : Nat) (x : Option Cmd) : (s.setCmd c h x).rp = s.rp := rfl
@[simp] theorem State.setCmd_regs (s : State) (c h : Nat) (x : Option Cmd) : (s.setCmd c h x).regs = s.regs := rfl
@[simp] theorem State.setCmd_images (s : State) (c h : Nat) (x : Option Cmd) : (s.setCmd c h x).images = s.images := rfl
@[simp] theorem State.setCmd_scribe (s : State) (c h : Nat) (x : Option Cmd) : (s.setCmd c h x).scribe = s.scribe := rfl
@[simp] theorem State.setCmd_clusters (s : State) (c h : Nat) (x : Option Cmd) : (s.setCmd c h x).clusters = s.clusters := rfl
@[simp] theorem State.setCmd_lanes (s : State) (c h : Nat) (x : Option Cmd) : (s.setCmd c h x).lanes = s.lanes := rfl
@[simp] theorem State.setCmd_regions (s : State) (c h : Nat) (x : Option Cmd) : (s.setCmd c h x).regions = s.regions := rfl
@[simp] theorem State.setCmd_fetching (s : State) (c h : Nat) (x : Option Cmd) : (s.setCmd c h x).fetching = s.fetching := rfl
@[simp] theorem State.setCmd_cmds (s : State) (c h : Nat) (x : Option Cmd) : (s.setCmd c h x).cmds = Tab.setD (fun _ => none) s.cmds (hKey c h) x := rfl
@[simp] theorem State.setCmd_ready (s : State) (c h : Nat) (x : Option Cmd) : (s.setCmd c h x).ready = s.ready := rfl
@[simp] theorem State.setCmd_lateQ (s : State) (c h : Nat) (x : Option Cmd) : (s.setCmd c h x).lateQ = s.lateQ := rfl
@[simp] theorem State.setCmd_posted (s : State) (c h : Nat) (x : Option Cmd) : (s.setCmd c h x).posted = s.posted := rfl
@[simp] theorem State.setCmd_serial (s : State) (c h : Nat) (x : Option Cmd) : (s.setCmd c h x).serial = s.serial := rfl
@[simp] theorem State.setCmd_slabs (s : State) (c h : Nat) (x : Option Cmd) : (s.setCmd c h x).slabs = s.slabs := rfl
@[simp] theorem State.setCmd_ports (s : State) (c h : Nat) (x : Option Cmd) : (s.setCmd c h x).ports = s.ports := rfl
@[simp] theorem State.setCmd_channels (s : State) (c h : Nat) (x : Option Cmd) : (s.setCmd c h x).channels = s.channels := rfl
@[simp] theorem State.setCmd_ticks (s : State) (c h : Nat) (x : Option Cmd) : (s.setCmd c h x).ticks = s.ticks := rfl
@[simp] theorem State.setCmd_cache (s : State) (c h : Nat) (x : Option Cmd) : (s.setCmd c h x).cache = s.cache := rfl
@[simp] theorem State.setCmd_store (s : State) (c h : Nat) (x : Option Cmd) : (s.setCmd c h x).store = s.store := rfl
@[simp] theorem State.setCmd_keys (s : State) (c h : Nat) (x : Option Cmd) : (s.setCmd c h x).keys = s.keys := rfl
@[simp] theorem State.setCmd_tenants (s : State) (c h : Nat) (x : Option Cmd) : (s.setCmd c h x).tenants = s.tenants := rfl
@[simp] theorem State.setCmd_ledger (s : State) (c h : Nat) (x : Option Cmd) : (s.setCmd c h x).ledger = s.ledger := rfl
@[simp] theorem State.setCmd_signal (s : State) (c h : Nat) (x : Option Cmd) : (s.setCmd c h x).signal = s.signal := rfl
@[simp] theorem State.setCmd_blotter (s : State) (c h : Nat) (x : Option Cmd) : (s.setCmd c h x).blotter = s.blotter := rfl
@[simp] theorem State.setCmd_endgame (s : State) (c h : Nat) (x : Option Cmd) : (s.setCmd c h x).endgame = s.endgame := rfl
@[simp] theorem State.setCmd_scrub (s : State) (c h : Nat) (x : Option Cmd) : (s.setCmd c h x).scrub = s.scrub := rfl
@[simp] theorem State.setCmd_draws (s : State) (c h : Nat) (x : Option Cmd) : (s.setCmd c h x).draws = s.draws := rfl
@[simp] theorem State.setCmd_rings (s : State) (c h : Nat) (x : Option Cmd) : (s.setCmd c h x).rings = s.rings := rfl
@[simp] theorem State.setCmd_pairing (s : State) (c h : Nat) (x : Option Cmd) : (s.setCmd c h x).pairing = s.pairing := rfl
@[simp] theorem State.setCmd_freeCtr (s : State) (c h : Nat) (x : Option Cmd) : (s.setCmd c h x).freeCtr = s.freeCtr := rfl
@[simp] theorem State.setCmd_pending (s : State) (c h : Nat) (x : Option Cmd) : (s.setCmd c h x).pending = s.pending := rfl

@[simp] theorem State.answer_build (s : State) (err : Bool) (d : Option Word) : (s.answer err d).build = s.build := rfl
@[simp] theorem State.answer_pins (s : State) (err : Bool) (d : Option Word) : (s.answer err d).pins = s.pins := rfl
@[simp] theorem State.answer_fuse (s : State) (err : Bool) (d : Option Word) : (s.answer err d).fuse = s.fuse := rfl
@[simp] theorem State.answer_tap (s : State) (err : Bool) (d : Option Word) : (s.answer err d).tap = s.tap := rfl
@[simp] theorem State.answer_time (s : State) (err : Bool) (d : Option Word) : (s.answer err d).time = s.time := rfl
@[simp] theorem State.answer_glb (s : State) (err : Bool) (d : Option Word) : (s.answer err d).glb = s.glb := rfl
@[simp] theorem State.answer_rp (s : State) (err : Bool) (d : Option Word) : (s.answer err d).rp = { ack := true, err := err, data := d } := rfl
@[simp] theorem State.answer_regs (s : State) (err : Bool) (d : Option Word) : (s.answer err d).regs = s.regs := rfl
@[simp] theorem State.answer_images (s : State) (err : Bool) (d : Option Word) : (s.answer err d).images = s.images := rfl
@[simp] theorem State.answer_scribe (s : State) (err : Bool) (d : Option Word) : (s.answer err d).scribe = s.scribe := rfl
@[simp] theorem State.answer_clusters (s : State) (err : Bool) (d : Option Word) : (s.answer err d).clusters = s.clusters := rfl
@[simp] theorem State.answer_lanes (s : State) (err : Bool) (d : Option Word) : (s.answer err d).lanes = s.lanes := rfl
@[simp] theorem State.answer_regions (s : State) (err : Bool) (d : Option Word) : (s.answer err d).regions = s.regions := rfl
@[simp] theorem State.answer_fetching (s : State) (err : Bool) (d : Option Word) : (s.answer err d).fetching = s.fetching := rfl
@[simp] theorem State.answer_cmds (s : State) (err : Bool) (d : Option Word) : (s.answer err d).cmds = s.cmds := rfl
@[simp] theorem State.answer_ready (s : State) (err : Bool) (d : Option Word) : (s.answer err d).ready = s.ready := rfl
@[simp] theorem State.answer_lateQ (s : State) (err : Bool) (d : Option Word) : (s.answer err d).lateQ = s.lateQ := rfl
@[simp] theorem State.answer_posted (s : State) (err : Bool) (d : Option Word) : (s.answer err d).posted = s.posted := rfl
@[simp] theorem State.answer_serial (s : State) (err : Bool) (d : Option Word) : (s.answer err d).serial = s.serial := rfl
@[simp] theorem State.answer_slabs (s : State) (err : Bool) (d : Option Word) : (s.answer err d).slabs = s.slabs := rfl
@[simp] theorem State.answer_ports (s : State) (err : Bool) (d : Option Word) : (s.answer err d).ports = s.ports := rfl
@[simp] theorem State.answer_channels (s : State) (err : Bool) (d : Option Word) : (s.answer err d).channels = s.channels := rfl
@[simp] theorem State.answer_ticks (s : State) (err : Bool) (d : Option Word) : (s.answer err d).ticks = s.ticks := rfl
@[simp] theorem State.answer_cache (s : State) (err : Bool) (d : Option Word) : (s.answer err d).cache = s.cache := rfl
@[simp] theorem State.answer_store (s : State) (err : Bool) (d : Option Word) : (s.answer err d).store = s.store := rfl
@[simp] theorem State.answer_keys (s : State) (err : Bool) (d : Option Word) : (s.answer err d).keys = s.keys := rfl
@[simp] theorem State.answer_tenants (s : State) (err : Bool) (d : Option Word) : (s.answer err d).tenants = s.tenants := rfl
@[simp] theorem State.answer_ledger (s : State) (err : Bool) (d : Option Word) : (s.answer err d).ledger = s.ledger := rfl
@[simp] theorem State.answer_signal (s : State) (err : Bool) (d : Option Word) : (s.answer err d).signal = s.signal := rfl
@[simp] theorem State.answer_blotter (s : State) (err : Bool) (d : Option Word) : (s.answer err d).blotter = s.blotter := rfl
@[simp] theorem State.answer_endgame (s : State) (err : Bool) (d : Option Word) : (s.answer err d).endgame = s.endgame := rfl
@[simp] theorem State.answer_scrub (s : State) (err : Bool) (d : Option Word) : (s.answer err d).scrub = s.scrub := rfl
@[simp] theorem State.answer_draws (s : State) (err : Bool) (d : Option Word) : (s.answer err d).draws = s.draws := rfl
@[simp] theorem State.answer_rings (s : State) (err : Bool) (d : Option Word) : (s.answer err d).rings = s.rings := rfl
@[simp] theorem State.answer_pairing (s : State) (err : Bool) (d : Option Word) : (s.answer err d).pairing = s.pairing := rfl
@[simp] theorem State.answer_freeCtr (s : State) (err : Bool) (d : Option Word) : (s.answer err d).freeCtr = s.freeCtr := rfl
@[simp] theorem State.answer_pending (s : State) (err : Bool) (d : Option Word) : (s.answer err d).pending = s.pending := rfl

@[simp] theorem State.latch_build (s : State) (m : BitVec 128) : (s.latch m).build = s.build := rfl
@[simp] theorem State.latch_pins (s : State) (m : BitVec 128) : (s.latch m).pins = s.pins := rfl
@[simp] theorem State.latch_fuse (s : State) (m : BitVec 128) : (s.latch m).fuse = s.fuse := rfl
@[simp] theorem State.latch_tap (s : State) (m : BitVec 128) : (s.latch m).tap = s.tap := rfl
@[simp] theorem State.latch_time (s : State) (m : BitVec 128) : (s.latch m).time = s.time := rfl
@[simp] theorem State.latch_glb (s : State) (m : BitVec 128) : (s.latch m).glb = s.glb := rfl
@[simp] theorem State.latch_rp (s : State) (m : BitVec 128) : (s.latch m).rp = s.rp := rfl
@[simp] theorem State.latch_regs (s : State) (m : BitVec 128) : (s.latch m).regs = s.regs := rfl
@[simp] theorem State.latch_images (s : State) (m : BitVec 128) : (s.latch m).images = s.images := rfl
@[simp] theorem State.latch_scribe (s : State) (m : BitVec 128) : (s.latch m).scribe = s.scribe := rfl
@[simp] theorem State.latch_clusters (s : State) (m : BitVec 128) : (s.latch m).clusters = s.clusters := rfl
@[simp] theorem State.latch_lanes (s : State) (m : BitVec 128) : (s.latch m).lanes = s.lanes := rfl
@[simp] theorem State.latch_regions (s : State) (m : BitVec 128) : (s.latch m).regions = s.regions := rfl
@[simp] theorem State.latch_fetching (s : State) (m : BitVec 128) : (s.latch m).fetching = s.fetching := rfl
@[simp] theorem State.latch_cmds (s : State) (m : BitVec 128) : (s.latch m).cmds = s.cmds := rfl
@[simp] theorem State.latch_ready (s : State) (m : BitVec 128) : (s.latch m).ready = s.ready := rfl
@[simp] theorem State.latch_lateQ (s : State) (m : BitVec 128) : (s.latch m).lateQ = s.lateQ := rfl
@[simp] theorem State.latch_posted (s : State) (m : BitVec 128) : (s.latch m).posted = s.posted := rfl
@[simp] theorem State.latch_serial (s : State) (m : BitVec 128) : (s.latch m).serial = s.serial := rfl
@[simp] theorem State.latch_slabs (s : State) (m : BitVec 128) : (s.latch m).slabs = s.slabs := rfl
@[simp] theorem State.latch_ports (s : State) (m : BitVec 128) : (s.latch m).ports = s.ports := rfl
@[simp] theorem State.latch_channels (s : State) (m : BitVec 128) : (s.latch m).channels = s.channels := rfl
@[simp] theorem State.latch_ticks (s : State) (m : BitVec 128) : (s.latch m).ticks = s.ticks := rfl
@[simp] theorem State.latch_cache (s : State) (m : BitVec 128) : (s.latch m).cache = s.cache := rfl
@[simp] theorem State.latch_store (s : State) (m : BitVec 128) : (s.latch m).store = s.store := rfl
@[simp] theorem State.latch_keys (s : State) (m : BitVec 128) : (s.latch m).keys = s.keys := rfl
@[simp] theorem State.latch_tenants (s : State) (m : BitVec 128) : (s.latch m).tenants = s.tenants := rfl
@[simp] theorem State.latch_ledger (s : State) (m : BitVec 128) : (s.latch m).ledger = s.ledger := rfl
@[simp] theorem State.latch_blotter (s : State) (m : BitVec 128) : (s.latch m).blotter = s.blotter := rfl
@[simp] theorem State.latch_endgame (s : State) (m : BitVec 128) : (s.latch m).endgame = s.endgame := rfl
@[simp] theorem State.latch_scrub (s : State) (m : BitVec 128) : (s.latch m).scrub = s.scrub := rfl
@[simp] theorem State.latch_draws (s : State) (m : BitVec 128) : (s.latch m).draws = s.draws := rfl
@[simp] theorem State.latch_rings (s : State) (m : BitVec 128) : (s.latch m).rings = s.rings := rfl
@[simp] theorem State.latch_pairing (s : State) (m : BitVec 128) : (s.latch m).pairing = s.pairing := rfl
@[simp] theorem State.latch_freeCtr (s : State) (m : BitVec 128) : (s.latch m).freeCtr = s.freeCtr := rfl
@[simp] theorem State.latch_pending (s : State) (m : BitVec 128) : (s.latch m).pending = s.pending := rfl

@[simp] theorem State.setNote_build (s : State) (n : Nat) (w : Word) : (s.setNote n w).build = s.build := rfl
@[simp] theorem State.setNote_pins (s : State) (n : Nat) (w : Word) : (s.setNote n w).pins = s.pins := rfl
@[simp] theorem State.setNote_fuse (s : State) (n : Nat) (w : Word) : (s.setNote n w).fuse = s.fuse := rfl
@[simp] theorem State.setNote_tap (s : State) (n : Nat) (w : Word) : (s.setNote n w).tap = s.tap := rfl
@[simp] theorem State.setNote_time (s : State) (n : Nat) (w : Word) : (s.setNote n w).time = s.time := rfl
@[simp] theorem State.setNote_glb (s : State) (n : Nat) (w : Word) : (s.setNote n w).glb = s.glb := rfl
@[simp] theorem State.setNote_rp (s : State) (n : Nat) (w : Word) : (s.setNote n w).rp = s.rp := rfl
@[simp] theorem State.setNote_regs (s : State) (n : Nat) (w : Word) : (s.setNote n w).regs = s.regs := rfl
@[simp] theorem State.setNote_images (s : State) (n : Nat) (w : Word) : (s.setNote n w).images = s.images := rfl
@[simp] theorem State.setNote_scribe (s : State) (n : Nat) (w : Word) : (s.setNote n w).scribe = s.scribe := rfl
@[simp] theorem State.setNote_clusters (s : State) (n : Nat) (w : Word) : (s.setNote n w).clusters = s.clusters := rfl
@[simp] theorem State.setNote_lanes (s : State) (n : Nat) (w : Word) : (s.setNote n w).lanes = s.lanes := rfl
@[simp] theorem State.setNote_regions (s : State) (n : Nat) (w : Word) : (s.setNote n w).regions = s.regions := rfl
@[simp] theorem State.setNote_fetching (s : State) (n : Nat) (w : Word) : (s.setNote n w).fetching = s.fetching := rfl
@[simp] theorem State.setNote_cmds (s : State) (n : Nat) (w : Word) : (s.setNote n w).cmds = s.cmds := rfl
@[simp] theorem State.setNote_ready (s : State) (n : Nat) (w : Word) : (s.setNote n w).ready = s.ready := rfl
@[simp] theorem State.setNote_lateQ (s : State) (n : Nat) (w : Word) : (s.setNote n w).lateQ = s.lateQ := rfl
@[simp] theorem State.setNote_posted (s : State) (n : Nat) (w : Word) : (s.setNote n w).posted = s.posted := rfl
@[simp] theorem State.setNote_serial (s : State) (n : Nat) (w : Word) : (s.setNote n w).serial = s.serial := rfl
@[simp] theorem State.setNote_slabs (s : State) (n : Nat) (w : Word) : (s.setNote n w).slabs = s.slabs := rfl
@[simp] theorem State.setNote_ports (s : State) (n : Nat) (w : Word) : (s.setNote n w).ports = s.ports := rfl
@[simp] theorem State.setNote_channels (s : State) (n : Nat) (w : Word) : (s.setNote n w).channels = s.channels := rfl
@[simp] theorem State.setNote_ticks (s : State) (n : Nat) (w : Word) : (s.setNote n w).ticks = s.ticks := rfl
@[simp] theorem State.setNote_cache (s : State) (n : Nat) (w : Word) : (s.setNote n w).cache = s.cache := rfl
@[simp] theorem State.setNote_store (s : State) (n : Nat) (w : Word) : (s.setNote n w).store = s.store := rfl
@[simp] theorem State.setNote_keys (s : State) (n : Nat) (w : Word) : (s.setNote n w).keys = s.keys := rfl
@[simp] theorem State.setNote_tenants (s : State) (n : Nat) (w : Word) : (s.setNote n w).tenants = s.tenants := rfl
@[simp] theorem State.setNote_ledger (s : State) (n : Nat) (w : Word) : (s.setNote n w).ledger = s.ledger := rfl
@[simp] theorem State.setNote_signal (s : State) (n : Nat) (w : Word) : (s.setNote n w).signal = s.signal := rfl
@[simp] theorem State.setNote_blotter (s : State) (n : Nat) (w : Word) : (s.setNote n w).blotter = s.blotter := rfl
@[simp] theorem State.setNote_endgame (s : State) (n : Nat) (w : Word) : (s.setNote n w).endgame = s.endgame := rfl
@[simp] theorem State.setNote_scrub (s : State) (n : Nat) (w : Word) : (s.setNote n w).scrub = s.scrub := rfl
@[simp] theorem State.setNote_draws (s : State) (n : Nat) (w : Word) : (s.setNote n w).draws = s.draws := rfl
@[simp] theorem State.setNote_pairing (s : State) (n : Nat) (w : Word) : (s.setNote n w).pairing = s.pairing := rfl
@[simp] theorem State.setNote_freeCtr (s : State) (n : Nat) (w : Word) : (s.setNote n w).freeCtr = s.freeCtr := rfl
@[simp] theorem State.setNote_pending (s : State) (n : Nat) (w : Word) : (s.setNote n w).pending = s.pending := rfl

@[simp] theorem State.modCmd_build (s : State) (c h : Nat) (f : Cmd → Cmd) : (s.modCmd c h f).build = s.build := by
  unfold State.modCmd; split <;> rfl
@[simp] theorem State.modCmd_pins (s : State) (c h : Nat) (f : Cmd → Cmd) : (s.modCmd c h f).pins = s.pins := by
  unfold State.modCmd; split <;> rfl
@[simp] theorem State.modCmd_fuse (s : State) (c h : Nat) (f : Cmd → Cmd) : (s.modCmd c h f).fuse = s.fuse := by
  unfold State.modCmd; split <;> rfl
@[simp] theorem State.modCmd_tap (s : State) (c h : Nat) (f : Cmd → Cmd) : (s.modCmd c h f).tap = s.tap := by
  unfold State.modCmd; split <;> rfl
@[simp] theorem State.modCmd_time (s : State) (c h : Nat) (f : Cmd → Cmd) : (s.modCmd c h f).time = s.time := by
  unfold State.modCmd; split <;> rfl
@[simp] theorem State.modCmd_glb (s : State) (c h : Nat) (f : Cmd → Cmd) : (s.modCmd c h f).glb = s.glb := by
  unfold State.modCmd; split <;> rfl
@[simp] theorem State.modCmd_rp (s : State) (c h : Nat) (f : Cmd → Cmd) : (s.modCmd c h f).rp = s.rp := by
  unfold State.modCmd; split <;> rfl
@[simp] theorem State.modCmd_regs (s : State) (c h : Nat) (f : Cmd → Cmd) : (s.modCmd c h f).regs = s.regs := by
  unfold State.modCmd; split <;> rfl
@[simp] theorem State.modCmd_images (s : State) (c h : Nat) (f : Cmd → Cmd) : (s.modCmd c h f).images = s.images := by
  unfold State.modCmd; split <;> rfl
@[simp] theorem State.modCmd_scribe (s : State) (c h : Nat) (f : Cmd → Cmd) : (s.modCmd c h f).scribe = s.scribe := by
  unfold State.modCmd; split <;> rfl
@[simp] theorem State.modCmd_clusters (s : State) (c h : Nat) (f : Cmd → Cmd) : (s.modCmd c h f).clusters = s.clusters := by
  unfold State.modCmd; split <;> rfl
@[simp] theorem State.modCmd_lanes (s : State) (c h : Nat) (f : Cmd → Cmd) : (s.modCmd c h f).lanes = s.lanes := by
  unfold State.modCmd; split <;> rfl
@[simp] theorem State.modCmd_regions (s : State) (c h : Nat) (f : Cmd → Cmd) : (s.modCmd c h f).regions = s.regions := by
  unfold State.modCmd; split <;> rfl
@[simp] theorem State.modCmd_fetching (s : State) (c h : Nat) (f : Cmd → Cmd) : (s.modCmd c h f).fetching = s.fetching := by
  unfold State.modCmd; split <;> rfl
@[simp] theorem State.modCmd_ready (s : State) (c h : Nat) (f : Cmd → Cmd) : (s.modCmd c h f).ready = s.ready := by
  unfold State.modCmd; split <;> rfl
@[simp] theorem State.modCmd_lateQ (s : State) (c h : Nat) (f : Cmd → Cmd) : (s.modCmd c h f).lateQ = s.lateQ := by
  unfold State.modCmd; split <;> rfl
@[simp] theorem State.modCmd_posted (s : State) (c h : Nat) (f : Cmd → Cmd) : (s.modCmd c h f).posted = s.posted := by
  unfold State.modCmd; split <;> rfl
@[simp] theorem State.modCmd_serial (s : State) (c h : Nat) (f : Cmd → Cmd) : (s.modCmd c h f).serial = s.serial := by
  unfold State.modCmd; split <;> rfl
@[simp] theorem State.modCmd_slabs (s : State) (c h : Nat) (f : Cmd → Cmd) : (s.modCmd c h f).slabs = s.slabs := by
  unfold State.modCmd; split <;> rfl
@[simp] theorem State.modCmd_ports (s : State) (c h : Nat) (f : Cmd → Cmd) : (s.modCmd c h f).ports = s.ports := by
  unfold State.modCmd; split <;> rfl
@[simp] theorem State.modCmd_channels (s : State) (c h : Nat) (f : Cmd → Cmd) : (s.modCmd c h f).channels = s.channels := by
  unfold State.modCmd; split <;> rfl
@[simp] theorem State.modCmd_ticks (s : State) (c h : Nat) (f : Cmd → Cmd) : (s.modCmd c h f).ticks = s.ticks := by
  unfold State.modCmd; split <;> rfl
@[simp] theorem State.modCmd_cache (s : State) (c h : Nat) (f : Cmd → Cmd) : (s.modCmd c h f).cache = s.cache := by
  unfold State.modCmd; split <;> rfl
@[simp] theorem State.modCmd_store (s : State) (c h : Nat) (f : Cmd → Cmd) : (s.modCmd c h f).store = s.store := by
  unfold State.modCmd; split <;> rfl
@[simp] theorem State.modCmd_keys (s : State) (c h : Nat) (f : Cmd → Cmd) : (s.modCmd c h f).keys = s.keys := by
  unfold State.modCmd; split <;> rfl
@[simp] theorem State.modCmd_tenants (s : State) (c h : Nat) (f : Cmd → Cmd) : (s.modCmd c h f).tenants = s.tenants := by
  unfold State.modCmd; split <;> rfl
@[simp] theorem State.modCmd_ledger (s : State) (c h : Nat) (f : Cmd → Cmd) : (s.modCmd c h f).ledger = s.ledger := by
  unfold State.modCmd; split <;> rfl
@[simp] theorem State.modCmd_signal (s : State) (c h : Nat) (f : Cmd → Cmd) : (s.modCmd c h f).signal = s.signal := by
  unfold State.modCmd; split <;> rfl
@[simp] theorem State.modCmd_blotter (s : State) (c h : Nat) (f : Cmd → Cmd) : (s.modCmd c h f).blotter = s.blotter := by
  unfold State.modCmd; split <;> rfl
@[simp] theorem State.modCmd_endgame (s : State) (c h : Nat) (f : Cmd → Cmd) : (s.modCmd c h f).endgame = s.endgame := by
  unfold State.modCmd; split <;> rfl
@[simp] theorem State.modCmd_scrub (s : State) (c h : Nat) (f : Cmd → Cmd) : (s.modCmd c h f).scrub = s.scrub := by
  unfold State.modCmd; split <;> rfl
@[simp] theorem State.modCmd_draws (s : State) (c h : Nat) (f : Cmd → Cmd) : (s.modCmd c h f).draws = s.draws := by
  unfold State.modCmd; split <;> rfl
@[simp] theorem State.modCmd_rings (s : State) (c h : Nat) (f : Cmd → Cmd) : (s.modCmd c h f).rings = s.rings := by
  unfold State.modCmd; split <;> rfl
@[simp] theorem State.modCmd_pairing (s : State) (c h : Nat) (f : Cmd → Cmd) : (s.modCmd c h f).pairing = s.pairing := by
  unfold State.modCmd; split <;> rfl
@[simp] theorem State.modCmd_freeCtr (s : State) (c h : Nat) (f : Cmd → Cmd) : (s.modCmd c h f).freeCtr = s.freeCtr := by
  unfold State.modCmd; split <;> rfl
@[simp] theorem State.modCmd_pending (s : State) (c h : Nat) (f : Cmd → Cmd) : (s.modCmd c h f).pending = s.pending := by
  unfold State.modCmd; split <;> rfl
@[simp] theorem State.modCore_build (s : State) (c : Nat) (f : Core → Core) : (s.modCore c f).build = s.build := by
  unfold State.modCore; split <;> rfl
@[simp] theorem State.modCore_pins (s : State) (c : Nat) (f : Core → Core) : (s.modCore c f).pins = s.pins := by
  unfold State.modCore; split <;> rfl
@[simp] theorem State.modCore_fuse (s : State) (c : Nat) (f : Core → Core) : (s.modCore c f).fuse = s.fuse := by
  unfold State.modCore; split <;> rfl
@[simp] theorem State.modCore_tap (s : State) (c : Nat) (f : Core → Core) : (s.modCore c f).tap = s.tap := by
  unfold State.modCore; split <;> rfl
@[simp] theorem State.modCore_time (s : State) (c : Nat) (f : Core → Core) : (s.modCore c f).time = s.time := by
  unfold State.modCore; split <;> rfl
@[simp] theorem State.modCore_glb (s : State) (c : Nat) (f : Core → Core) : (s.modCore c f).glb = s.glb := by
  unfold State.modCore; split <;> rfl
@[simp] theorem State.modCore_rp (s : State) (c : Nat) (f : Core → Core) : (s.modCore c f).rp = s.rp := by
  unfold State.modCore; split <;> rfl
@[simp] theorem State.modCore_regs (s : State) (c : Nat) (f : Core → Core) : (s.modCore c f).regs = s.regs := by
  unfold State.modCore; split <;> rfl
@[simp] theorem State.modCore_images (s : State) (c : Nat) (f : Core → Core) : (s.modCore c f).images = s.images := by
  unfold State.modCore; split <;> rfl
@[simp] theorem State.modCore_lanes (s : State) (c : Nat) (f : Core → Core) : (s.modCore c f).lanes = s.lanes := by
  unfold State.modCore; split <;> rfl
@[simp] theorem State.modCore_regions (s : State) (c : Nat) (f : Core → Core) : (s.modCore c f).regions = s.regions := by
  unfold State.modCore; split <;> rfl
@[simp] theorem State.modCore_fetching (s : State) (c : Nat) (f : Core → Core) : (s.modCore c f).fetching = s.fetching := by
  unfold State.modCore; split <;> rfl
@[simp] theorem State.modCore_cmds (s : State) (c : Nat) (f : Core → Core) : (s.modCore c f).cmds = s.cmds := by
  unfold State.modCore; split <;> rfl
@[simp] theorem State.modCore_ready (s : State) (c : Nat) (f : Core → Core) : (s.modCore c f).ready = s.ready := by
  unfold State.modCore; split <;> rfl
@[simp] theorem State.modCore_lateQ (s : State) (c : Nat) (f : Core → Core) : (s.modCore c f).lateQ = s.lateQ := by
  unfold State.modCore; split <;> rfl
@[simp] theorem State.modCore_posted (s : State) (c : Nat) (f : Core → Core) : (s.modCore c f).posted = s.posted := by
  unfold State.modCore; split <;> rfl
@[simp] theorem State.modCore_serial (s : State) (c : Nat) (f : Core → Core) : (s.modCore c f).serial = s.serial := by
  unfold State.modCore; split <;> rfl
@[simp] theorem State.modCore_slabs (s : State) (c : Nat) (f : Core → Core) : (s.modCore c f).slabs = s.slabs := by
  unfold State.modCore; split <;> rfl
@[simp] theorem State.modCore_ports (s : State) (c : Nat) (f : Core → Core) : (s.modCore c f).ports = s.ports := by
  unfold State.modCore; split <;> rfl
@[simp] theorem State.modCore_channels (s : State) (c : Nat) (f : Core → Core) : (s.modCore c f).channels = s.channels := by
  unfold State.modCore; split <;> rfl
@[simp] theorem State.modCore_ticks (s : State) (c : Nat) (f : Core → Core) : (s.modCore c f).ticks = s.ticks := by
  unfold State.modCore; split <;> rfl
@[simp] theorem State.modCore_cache (s : State) (c : Nat) (f : Core → Core) : (s.modCore c f).cache = s.cache := by
  unfold State.modCore; split <;> rfl
@[simp] theorem State.modCore_store (s : State) (c : Nat) (f : Core → Core) : (s.modCore c f).store = s.store := by
  unfold State.modCore; split <;> rfl
@[simp] theorem State.modCore_keys (s : State) (c : Nat) (f : Core → Core) : (s.modCore c f).keys = s.keys := by
  unfold State.modCore; split <;> rfl
@[simp] theorem State.modCore_tenants (s : State) (c : Nat) (f : Core → Core) : (s.modCore c f).tenants = s.tenants := by
  unfold State.modCore; split <;> rfl
@[simp] theorem State.modCore_ledger (s : State) (c : Nat) (f : Core → Core) : (s.modCore c f).ledger = s.ledger := by
  unfold State.modCore; split <;> rfl
@[simp] theorem State.modCore_signal (s : State) (c : Nat) (f : Core → Core) : (s.modCore c f).signal = s.signal := by
  unfold State.modCore; split <;> rfl
@[simp] theorem State.modCore_blotter (s : State) (c : Nat) (f : Core → Core) : (s.modCore c f).blotter = s.blotter := by
  unfold State.modCore; split <;> rfl
@[simp] theorem State.modCore_endgame (s : State) (c : Nat) (f : Core → Core) : (s.modCore c f).endgame = s.endgame := by
  unfold State.modCore; split <;> rfl
@[simp] theorem State.modCore_scrub (s : State) (c : Nat) (f : Core → Core) : (s.modCore c f).scrub = s.scrub := by
  unfold State.modCore; split <;> rfl
@[simp] theorem State.modCore_draws (s : State) (c : Nat) (f : Core → Core) : (s.modCore c f).draws = s.draws := by
  unfold State.modCore; split <;> rfl
@[simp] theorem State.modCore_rings (s : State) (c : Nat) (f : Core → Core) : (s.modCore c f).rings = s.rings := by
  unfold State.modCore; split <;> rfl
@[simp] theorem State.modCore_pairing (s : State) (c : Nat) (f : Core → Core) : (s.modCore c f).pairing = s.pairing := by
  unfold State.modCore; split <;> rfl
@[simp] theorem State.modCore_freeCtr (s : State) (c : Nat) (f : Core → Core) : (s.modCore c f).freeCtr = s.freeCtr := by
  unfold State.modCore; split <;> rfl
@[simp] theorem State.modCore_pending (s : State) (c : Nat) (f : Core → Core) : (s.modCore c f).pending = s.pending := by
  unfold State.modCore; split <;> rfl

end Sys2Proof.Machine
end

