-- ==== Sys2Proof/Laws/Port.lean ====
section
/-! SUPPORT. What an accepted write of the register port comes to, and the commands that complete with their effect. -/
namespace Sys2Proof.Machine
open Sys2Proof

theorem alike_settle (s u : State) : Alike s (settle s u) u := .inl rfl
theorem alike_refl (s : State) : Alike s s s := .inr ⟨rfl, rfl⟩

/-- A command whose meaning ends in `done` completes with its effect. -/
theorem yields_of_done {c : Instr} {s u : State} (h : exec c s = done s u) : Yields c s u := ⟨_, h, alike_settle s u⟩
/-- A command that finds nothing to do completes without an effect. -/
theorem yields_of_idle {c : Instr} {s : State} (h : exec c s = idle s) : Yields c s s := ⟨_, h, alike_refl s⟩

/-- A command whose meaning ends in `looked` completes with its effect where all its lookups are answered at once. -/
theorem found_of_looked {c : Instr} {s u : State} (h : exec c s = looked s u) : Found c s u := by
  intro _ hu
  refine yields_of_done (h.trans ?_)
  unfold looked State.waited
  rw [hu]
/-- An operation that finds every line it wants, with none of its unit before it, is made at once (R316). -/
theorem State.begins_found {s : State} {h : Held} {cc : CcFault} {f : CcFault → State → State} (h1 : s.cache.held.any h.after = false)
    (h2 : s.cache.wanted = none) (h3 : (f cc s).cache.wanted = none) : s.begins h cc f = f cc s := by
  have e : ∀ t : State, t.cache.wanted = none → t.modCache (fun c => { c with wanted := none }) = t := fun t h =>
    congrArg (fun c => { t with cache := c }) (show ({ t.cache with wanted := none } : Cache) = t.cache by rw [← h])
  unfold State.begins
  rw [if_neg (by simp [h1]), e s h2]
  unfold State.attempt
  simp only [h3, h2]
  exact e _ h3

/-- An accepted write has the effect of its register on the state that it finds. -/
theorem State.portWrite_accepted {s : State} {a : Nat} {acc : RpAcc} (h : s.accepts a acc = true) (eff : Bool → State → State) :
    s.portWrite a acc eff = (eff false (s.accepting a acc)).answer false none := by
  simp only [State.accepts, Bool.and_eq_true, decide_eq_true_eq, Bool.not_eq_true', Option.isNone_iff_eq_none] at h
  obtain ⟨⟨⟨⟨⟨⟨⟨h1, h2⟩, h3⟩, h4⟩, h5⟩, h6⟩, h7⟩, h8⟩ := h
  unfold State.portWrite
  rw [if_neg (not_not.mpr h1), if_neg (by simp [h2]), if_neg (by simp [h3])]
  simp only [h4]
  unfold State.decideWrite
  rw [show (s.portBegin a).disarm a acc = s.accepting a acc from rfl, if_neg (by simp [h5]), if_neg (by simp [h6]),
    if_neg (by simp [h7]), if_neg (by simp [h8])]

/-- A write command whose meaning is a settled write of the port completes with its effect. -/
theorem writes_of {c : Instr} {s : State} {a : Nat} {acc : RpAcc} {eff : Bool → State → State} {u : State}
    (h : exec c s = done s (s.portWrite a acc eff)) (hu : eff false (s.accepting a acc) = u) : Writes c s a acc u := by
  intro ha
  refine yields_of_done ?_
  rw [h, State.portWrite_accepted ha, hu]


/-! Each write command is a settled write of the port at its address. -/

theorem write_registerWrite (ad : BitVec 23) (a : RpAcc) (s : State) : ∃ eff : Bool → State → State, exec (.registerWrite ad a) s = done s (s.portWrite (ad.toNat) a eff) :=
  ⟨_, rfl⟩
theorem write_mgrOwnerClaim (a : RpAcc) (s : State) : ∃ eff : Bool → State → State, exec (.mgrOwnerClaim a) s = done s (s.portWrite (Reg.GLB_MGR_OWNER) a eff) :=
  ⟨_, rfl⟩
theorem write_mgrOwnerRelease (a : RpAcc) (s : State) : ∃ eff : Bool → State → State, exec (.mgrOwnerRelease a) s = done s (s.portWrite (Reg.GLB_MGR_OWNER) a eff) :=
  ⟨_, rfl⟩
theorem write_mgrSuccessorSet (a : RpAcc) (s : State) : ∃ eff : Bool → State → State, exec (.mgrSuccessorSet a) s = done s (s.portWrite (Reg.GLB_MGR_OWNER) a eff) :=
  ⟨_, rfl⟩
theorem write_expertArm (a : RpAcc) (s : State) : ∃ eff : Bool → State → State, exec (.expertArm a) s = done s (s.portWrite (Reg.GLB_EXPERT_UNLOCK) a eff) :=
  ⟨_, rfl⟩
theorem write_expertOpen (a : RpAcc) (s : State) : ∃ eff : Bool → State → State, exec (.expertOpen a) s = done s (s.portWrite (Reg.GLB_EXPERT_UNLOCK) a eff) :=
  ⟨_, rfl⟩
theorem write_expertClose (a : RpAcc) (s : State) : ∃ eff : Bool → State → State, exec (.expertClose a) s = done s (s.portWrite (Reg.GLB_EXPERT_UNLOCK) a eff) :=
  ⟨_, rfl⟩
theorem write_pageLock (p : Fin 2048) (a : RpAcc) (s : State) : ∃ eff : Bool → State → State, exec (.pageLock p a) s = done s (s.portWrite (0x1000 * p.val + 0xFF0) a eff) :=
  ⟨_, rfl⟩
theorem write_errCaptClear (p : Fin 2048) (a : RpAcc) (s : State) : ∃ eff : Bool → State → State, exec (.errCaptClear p a) s = done s (s.portWrite (0x1000 * p.val + 0x020) a eff) :=
  ⟨_, rfl⟩
theorem write_go (a : RpAcc) (x1 : Bool) (s : State) : ∃ eff : Bool → State → State, exec (.go a x1) s = done s (s.portWrite (Reg.GLB_OPEN_CTL) a eff) :=
  ⟨_, rfl⟩
theorem write_clear (a : RpAcc) (s : State) : ∃ eff : Bool → State → State, exec (.clear a) s = done s (s.portWrite (Reg.GLB_BOOT_ATTEMPT) a eff) :=
  ⟨_, rfl⟩
theorem write_loadWindowWrite (ad : BitVec 23) (a : RpAcc) (s : State) : ∃ eff : Bool → State → State, exec (.loadWindowWrite ad a) s = done s (s.portWrite (ad.toNat) a eff) :=
  ⟨_, rfl⟩
theorem write_resume (a : RpAcc) (s : State) : ∃ eff : Bool → State → State, exec (.resume a) s = done s (s.portWrite (Reg.CAL_CTL) a eff) :=
  ⟨_, rfl⟩
theorem write_recal (g : Fin 128) (a : RpAcc) (s : State) : ∃ eff : Bool → State → State, exec (.recal g a) s = done s (s.portWrite (lnA g.val Reg.LN_CAL_CTL) a eff) :=
  ⟨_, rfl⟩
theorem write_retrain (g : Fin 128) (a : RpAcc) (s : State) : ∃ eff : Bool → State → State, exec (.retrain g a) s = done s (s.portWrite (lnA g.val Reg.LN_CAL_CTL) a eff) :=
  ⟨_, rfl⟩
theorem write_laneShadowWrite (g : Fin 128) (n : Fin 6) (a : RpAcc) (x3 : Bool) (s : State) : ∃ eff : Bool → State → State, exec (.laneShadowWrite g n a x3) s = done s (s.portWrite (lnA g.val (shadowOff n.val)) a eff) :=
  ⟨_, rfl⟩
theorem write_markQuery (a : RpAcc) (x1 : CcFault) (s : State) : ∃ eff : Bool → State → State, exec (.markQuery a x1) s = done s (s.portWrite (Reg.DF_MARK_CMD) a eff) :=
  ⟨_, rfl⟩
theorem write_markGrownHost (a : RpAcc) (x1 : CcFault) (s : State) : ∃ eff : Bool → State → State, exec (.markGrownHost a x1) s = done s (s.portWrite (Reg.DF_MARK_CMD) a eff) :=
  ⟨_, rfl⟩
theorem write_markClear (a : RpAcc) (x1 : CcFault) (s : State) : ∃ eff : Bool → State → State, exec (.markClear a x1) s = done s (s.portWrite (Reg.DF_MARK_CMD) a eff) :=
  ⟨_, rfl⟩
theorem write_ringCmdRead (a : RpAcc) (x1 : CcFault) (s : State) : ∃ eff : Bool → State → State, exec (.ringCmdRead a x1) s = done s (s.portWrite (Reg.TN_RING_CMD) a eff) :=
  ⟨_, rfl⟩
theorem write_ringCmdWrite (a : RpAcc) (x1 : CcFault) (s : State) : ∃ eff : Bool → State → State, exec (.ringCmdWrite a x1) s = done s (s.portWrite (Reg.TN_RING_CMD) a eff) :=
  ⟨_, rfl⟩
theorem write_disable (a : RpAcc) (x1 : CcFault) (s : State) : ∃ eff : Bool → State → State, exec (.disable a x1) s = done s (s.portWrite (Reg.TN_RING_CMD) a eff) :=
  ⟨_, rfl⟩
theorem write_resetRing (a : RpAcc) (x1 : CcFault) (s : State) : ∃ eff : Bool → State → State, exec (.resetRing a x1) s = done s (s.portWrite (Reg.TN_RING_CMD) a eff) :=
  ⟨_, rfl⟩
theorem write_doorbellSubProd (p : Fin 512) (a : RpAcc) (x2 : CcFault) (x3 : Bool) (s : State) : ∃ eff : Bool → State → State, exec (.doorbellSubProd p a x2 x3) s = done s (s.portWrite (dbA p.val Reg.DB_RING) a eff) :=
  ⟨_, rfl⟩
theorem write_doorbellCplCons (p : Fin 512) (a : RpAcc) (x2 : CcFault) (x3 : Bool) (s : State) : ∃ eff : Bool → State → State, exec (.doorbellCplCons p a x2 x3) s = done s (s.portWrite (dbA p.val Reg.DB_RING) a eff) :=
  ⟨_, rfl⟩
theorem write_intakeFlushBulk (c : Fin 16) (a : RpAcc) (s : State) : ∃ eff : Bool → State → State, exec (.intakeFlushBulk c a) s = done s (s.portWrite (clA c.val Reg.CL_INTAKE_FLUSH) a eff) :=
  ⟨_, rfl⟩
theorem write_intakeFlushUrgent (c : Fin 16) (a : RpAcc) (s : State) : ∃ eff : Bool → State → State, exec (.intakeFlushUrgent c a) s = done s (s.portWrite (clA c.val Reg.CL_INTAKE_FLUSH) a eff) :=
  ⟨_, rfl⟩
theorem write_latHistClear (g : Fin 128) (a : RpAcc) (s : State) : ∃ eff : Bool → State → State, exec (.latHistClear g a) s = done s (s.portWrite (lnA g.val Reg.LN_LAT_SEL) a eff) :=
  ⟨_, rfl⟩
theorem write_gbHistClear (g : Fin 128) (a : RpAcc) (s : State) : ∃ eff : Bool → State → State, exec (.gbHistClear g a) s = done s (s.portWrite (lnA g.val Reg.LN_GB_SEL) a eff) :=
  ⟨_, rfl⟩
theorem write_ptHistClear (a : RpAcc) (s : State) : ∃ eff : Bool → State → State, exec (.ptHistClear a) s = done s (s.portWrite (Reg.PT_HIST_SEL) a eff) :=
  ⟨_, rfl⟩
theorem write_rewalk (a : RpAcc) (s : State) : ∃ eff : Bool → State → State, exec (.rewalk a) s = done s (s.portWrite (Reg.CAL_GB_SCMD) a eff) :=
  ⟨_, rfl⟩
theorem write_gbFail (a : RpAcc) (x1 : CcFault) (s : State) : ∃ eff : Bool → State → State, exec (.gbFail a x1) s = done s (s.portWrite (Reg.CAL_GB_SCMD) a eff) :=
  ⟨_, rfl⟩
theorem write_frQuery (a : RpAcc) (x1 : CcFault) (s : State) : ∃ eff : Bool → State → State, exec (.frQuery a x1) s = done s (s.portWrite (Reg.DF_FR_CMD) a eff) :=
  ⟨_, rfl⟩
theorem write_frClose (a : RpAcc) (x1 : CcFault) (s : State) : ∃ eff : Bool → State → State, exec (.frClose a x1) s = done s (s.portWrite (Reg.DF_FR_CMD) a eff) :=
  ⟨_, rfl⟩
theorem write_frOpen (a : RpAcc) (x1 : CcFault) (s : State) : ∃ eff : Bool → State → State, exec (.frOpen a x1) s = done s (s.portWrite (Reg.DF_FR_CMD) a eff) :=
  ⟨_, rfl⟩
theorem write_ccClean (a : RpAcc) (s : State) : ∃ eff : Bool → State → State, exec (.ccClean a) s = done s (s.portWrite (Reg.CC_MAINT) a eff) :=
  ⟨_, rfl⟩
theorem write_ccInvalidate (a : RpAcc) (s : State) : ∃ eff : Bool → State → State, exec (.ccInvalidate a) s = done s (s.portWrite (Reg.CC_MAINT) a eff) :=
  ⟨_, rfl⟩
theorem write_ccCleanInvalidate (a : RpAcc) (s : State) : ∃ eff : Bool → State → State, exec (.ccCleanInvalidate a) s = done s (s.portWrite (Reg.CC_MAINT) a eff) :=
  ⟨_, rfl⟩
theorem write_preloadLock (a : RpAcc) (x1 : Option (Fin 32768)) (s : State) : ∃ eff : Bool → State → State, exec (.preloadLock a x1) s = done s (s.portWrite (Reg.CC_MAINT) a eff) :=
  ⟨_, rfl⟩
theorem write_unlock (a : RpAcc) (s : State) : ∃ eff : Bool → State → State, exec (.unlock a) s = done s (s.portWrite (Reg.CC_MAINT) a eff) :=
  ⟨_, rfl⟩
theorem write_invalAll (a : RpAcc) (s : State) : ∃ eff : Bool → State → State, exec (.invalAll a) s = done s (s.portWrite (Reg.CC_MAINT) a eff) :=
  ⟨_, rfl⟩
theorem write_ccEnable (a : RpAcc) (s : State) : ∃ eff : Bool → State → State, exec (.ccEnable a) s = done s (s.portWrite (Reg.CC_CTL) a eff) :=
  ⟨_, rfl⟩
theorem write_ccDisable (a : RpAcc) (s : State) : ∃ eff : Bool → State → State, exec (.ccDisable a) s = done s (s.portWrite (Reg.CC_CTL) a eff) :=
  ⟨_, rfl⟩
theorem write_load (a : RpAcc) (s : State) : ∃ eff : Bool → State → State, exec (.load a) s = done s (s.portWrite (Reg.KY_CMD) a eff) :=
  ⟨_, rfl⟩
theorem write_zeroise (a : RpAcc) (s : State) : ∃ eff : Bool → State → State, exec (.zeroise a) s = done s (s.portWrite (Reg.KY_CMD) a eff) :=
  ⟨_, rfl⟩
theorem write_zeroiseInst (a : RpAcc) (s : State) : ∃ eff : Bool → State → State, exec (.zeroiseInst a) s = done s (s.portWrite (Reg.KY_CMD) a eff) :=
  ⟨_, rfl⟩
theorem write_sealRaise (a : RpAcc) (s : State) : ∃ eff : Bool → State → State, exec (.sealRaise a) s = done s (s.portWrite (Reg.KY_SEAL_CMD) a eff) :=
  ⟨_, rfl⟩
theorem write_sealLower (a : RpAcc) (x1 : CcFault) (x2 : Upset) (s : State) : ∃ eff : Bool → State → State, exec (.sealLower a x1 x2) s = done s (s.portWrite (Reg.KY_SEAL_CMD) a eff) :=
  ⟨_, rfl⟩
theorem write_start (c : Fin 64) (a : RpAcc) (s : State) : ∃ eff : Bool → State → State, exec (.start c a) s = done s (s.portWrite (mvA c.val Reg.MV_CH_CMD) a eff) :=
  ⟨_, rfl⟩
theorem write_stop (c : Fin 64) (a : RpAcc) (s : State) : ∃ eff : Bool → State → State, exec (.stop c a) s = done s (s.portWrite (mvA c.val Reg.MV_CH_CMD) a eff) :=
  ⟨_, rfl⟩
theorem write_mvClear (c : Fin 64) (a : RpAcc) (s : State) : ∃ eff : Bool → State → State, exec (.mvClear c a) s = done s (s.portWrite (mvA c.val Reg.MV_CH_CMD) a eff) :=
  ⟨_, rfl⟩
theorem write_mvTimerWrite (n : Fin 8) (a : RpAcc) (s : State) : ∃ eff : Bool → State → State, exec (.mvTimerWrite n a) s = done s (s.portWrite (Reg.MV_TMR + 4 * n.val) a eff) :=
  ⟨_, rfl⟩
theorem write_mvCfgShadowWrite (c : Fin 64) (a : RpAcc) (x2 : Bool) (s : State) : ∃ eff : Bool → State → State, exec (.mvCfgShadowWrite c a x2) s = done s (s.portWrite (mvA c.val Reg.MV_CH_CFG) a eff) :=
  ⟨_, rfl⟩
theorem write_create (a : RpAcc) (s : State) : ∃ eff : Bool → State → State, exec (.create a) s = done s (s.portWrite (Reg.TN_CMD) a eff) :=
  ⟨_, rfl⟩
theorem write_tnReset (a : RpAcc) (x1 : CcFault) (s : State) : ∃ eff : Bool → State → State, exec (.tnReset a x1) s = done s (s.portWrite (Reg.TN_CMD) a eff) :=
  ⟨_, rfl⟩
theorem write_unfence (a : RpAcc) (x1 : CcFault) (s : State) : ∃ eff : Bool → State → State, exec (.unfence a x1) s = done s (s.portWrite (Reg.TN_CMD) a eff) :=
  ⟨_, rfl⟩
theorem write_destroy (a : RpAcc) (s : State) : ∃ eff : Bool → State → State, exec (.destroy a) s = done s (s.portWrite (Reg.TN_CMD) a eff) :=
  ⟨_, rfl⟩
theorem write_repairAdd (a : RpAcc) (s : State) : ∃ eff : Bool → State → State, exec (.repairAdd a) s = done s (s.portWrite (Reg.SW_REP_ADD) a eff) :=
  ⟨_, rfl⟩
theorem write_vectorCtlWrite (v : Fin 4096) (a : RpAcc) (s : State) : ∃ eff : Bool → State → State, exec (.vectorCtlWrite v a) s = done s (s.portWrite (vtA v.val 0) a eff) :=
  ⟨_, rfl⟩
theorem write_dbVecMaskWrite (p : Fin 512) (a : RpAcc) (s : State) : ∃ eff : Bool → State → State, exec (.dbVecMaskWrite p a) s = done s (s.portWrite (dbA p.val Reg.DB_VEC_MASK) a eff) :=
  ⟨_, rfl⟩
theorem write_senseModeWrite (n : Fin 8) (a : RpAcc) (s : State) : ∃ eff : Bool → State → State, exec (.senseModeWrite n a) s = done s (s.portWrite (Reg.SG_SENSE + 4 * n.val) a eff) :=
  ⟨_, rfl⟩
theorem write_retClear (a : RpAcc) (s : State) : ∃ eff : Bool → State → State, exec (.retClear a) s = done s (s.portWrite (Reg.BL_CFG) a eff) :=
  ⟨_, rfl⟩
theorem write_arm (a : RpAcc) (s : State) : ∃ eff : Bool → State → State, exec (.arm a) s = done s (s.portWrite (Reg.GLB_SCR_CTL) a eff) :=
  ⟨_, rfl⟩
theorem write_scribeReloadGo (a : RpAcc) (s : State) : ∃ eff : Bool → State → State, exec (.scribeReloadGo a) s = done s (s.portWrite (Reg.GLB_SCR_CTL) a eff) :=
  ⟨_, rfl⟩
theorem write_pbOpen (a : RpAcc) (s : State) : ∃ eff : Bool → State → State, exec (.pbOpen a) s = done s (s.portWrite (Reg.PB_CTL) a eff) :=
  ⟨_, rfl⟩
theorem write_pbClose (a : RpAcc) (s : State) : ∃ eff : Bool → State → State, exec (.pbClose a) s = done s (s.portWrite (Reg.PB_CTL) a eff) :=
  ⟨_, rfl⟩
theorem write_pbSeedWrite (a : RpAcc) (s : State) : ∃ eff : Bool → State → State, exec (.pbSeedWrite a) s = done s (s.portWrite (Reg.PB_SEED) a eff) :=
  ⟨_, rfl⟩
theorem write_pxCtlWrite (p : Fin 2048) (k : Fin 4) (a : RpAcc) (s : State) : ∃ eff : Bool → State → State, exec (.pxCtlWrite p k a) s = done s (s.portWrite (0x1000 * p.val + 0xF00 + 8 * k.val) a eff) :=
  ⟨_, rfl⟩
theorem write_egSummaryClear (a : RpAcc) (s : State) : ∃ eff : Bool → State → State, exec (.egSummaryClear a) s = done s (s.portWrite (Reg.GLB_EG_SUM) a eff) :=
  ⟨_, rfl⟩
theorem write_quotaWrite (a : RpAcc) (s : State) : ∃ eff : Bool → State → State, exec (.quotaWrite a) s = done s (s.portWrite (Reg.IW_TN_QUOTA) a eff) :=
  ⟨_, rfl⟩
theorem write_shareWrite (a : RpAcc) (s : State) : ∃ eff : Bool → State → State, exec (.shareWrite a) s = done s (s.portWrite (Reg.LG_TN_SHARE) a eff) :=
  ⟨_, rfl⟩

/-- Every write command is a settled write of the port at its address. -/
theorem exec_write {c : Instr} {a : Nat} {acc : RpAcc} (h : writeOf c = some (a, acc)) (s : State) :
    ∃ eff : Bool → State → State, exec c s = done s (s.portWrite a acc eff) := by
  cases c <;> simp only [writeOf, reduceCtorEq] at h <;> cases h
  · exact write_registerWrite _ _ _
  · exact write_mgrOwnerClaim _ _
  · exact write_mgrOwnerRelease _ _
  · exact write_mgrSuccessorSet _ _
  · exact write_expertArm _ _
  · exact write_expertOpen _ _
  · exact write_expertClose _ _
  · exact write_pageLock _ _ _
  · exact write_errCaptClear _ _ _
  · exact write_go _ _ _
  · exact write_clear _ _
  · exact write_loadWindowWrite _ _ _
  · exact write_resume _ _
  · exact write_recal _ _ _
  · exact write_retrain _ _ _
  · exact write_laneShadowWrite _ _ _ _ _
  · exact write_markQuery _ _ _
  · exact write_markGrownHost _ _ _
  · exact write_markClear _ _ _
  · exact write_ringCmdRead _ _ _
  · exact write_ringCmdWrite _ _ _
  · exact write_disable _ _ _
  · exact write_resetRing _ _ _
  · exact write_doorbellSubProd _ _ _ _ _
  · exact write_doorbellCplCons _ _ _ _ _
  · exact write_intakeFlushBulk _ _ _
  · exact write_intakeFlushUrgent _ _ _
  · exact write_latHistClear _ _ _
  · exact write_gbHistClear _ _ _
  · exact write_ptHistClear _ _
  · exact write_rewalk _ _
  · exact write_gbFail _ _ _
  · exact write_frQuery _ _ _
  · exact write_frClose _ _ _
  · exact write_frOpen _ _ _
  · exact write_ccClean _ _
  · exact write_ccInvalidate _ _
  · exact write_ccCleanInvalidate _ _
  · exact write_preloadLock _ _ _
  · exact write_unlock _ _
  · exact write_invalAll _ _
  · exact write_ccEnable _ _
  · exact write_ccDisable _ _
  · exact write_load _ _
  · exact write_zeroise _ _
  · exact write_zeroiseInst _ _
  · exact write_sealRaise _ _
  · exact write_sealLower _ _ _ _
  · exact write_start _ _ _
  · exact write_stop _ _ _
  · exact write_mvClear _ _ _
  · exact write_mvTimerWrite _ _ _
  · exact write_mvCfgShadowWrite _ _ _ _
  · exact write_create _ _
  · exact write_tnReset _ _ _
  · exact write_unfence _ _ _
  · exact write_destroy _ _
  · exact write_repairAdd _ _
  · exact write_vectorCtlWrite _ _ _
  · exact write_dbVecMaskWrite _ _ _
  · exact write_senseModeWrite _ _ _
  · exact write_retClear _ _
  · exact write_arm _ _
  · exact write_scribeReloadGo _ _
  · exact write_pbOpen _ _
  · exact write_pbClose _ _
  · exact write_pbSeedWrite _ _
  · exact write_pxCtlWrite _ _ _ _
  · exact write_egSummaryClear _ _
  · exact write_quotaWrite _ _
  · exact write_shareWrite _ _

end Sys2Proof.Machine
end

