-- ==== Sys2Proof/Laws/Frame.lean ====
section
/-! SUPPORT. What the shared operations can change: the record of an event, a pulse, a move to a mode, an OPENING failure,
and the entry to OPENING. A proof cites these instead of unfolding the operations. -/
namespace Sys2Proof.Machine
open Sys2Proof

/-- A register reads as it was written, and the others as before. -/
theorem State.regAt_setReg_ne (s : State) {k l : Nat} (h : l ≠ k) (v : Word) : (s.setReg k v).regAt l = s.regAt l :=
  Tab.getD_setD_ne regReset h v
theorem State.regs_rising {s : State} (h : s.canon = true) : Tab.rising s.regs = true := by
  simp only [State.canon, Bool.and_eq_true] at h
  exact Tab.rising_of_wf h.1.1.1.1.1.1.1.1.1.1.1.1.1
theorem State.regAt_setReg_self {s : State} (h : s.canon = true) (k : Nat) (v : Word) : (s.setReg k v).regAt k = v :=
  Tab.getD_setD_self regReset (State.regs_rising h) k v

/-! What the update of one unit leaves of it and of the others. -/

theorem State.lane_self {s : State} (h : s.canon = true) (k : Nat) (f : Lane → Lane) : (s.modLane k f).lane k = f (s.lane k) := by
  have hc := h
  simp only [State.canon, Bool.and_eq_true] at hc
  exact Tab.getD_setD_self _ (Tab.rising_of_wf hc.1.1.1.1.1.1.1.1.1.2) _ _
theorem State.lane_ne (s : State) {k l : Nat} (h : l ≠ k) (f : Lane → Lane) : (s.modLane k f).lane l = s.lane l :=
  Tab.getD_setD_ne _ h _
theorem State.cluster_self {s : State} (h : s.canon = true) (k : Nat) (f : Cluster → Cluster) : (s.modCluster k f).cluster k = f (s.cluster k) := by
  have hc := h
  simp only [State.canon, Bool.and_eq_true] at hc
  exact Tab.getD_setD_self _ (Tab.rising_of_wf hc.1.1.1.1.1.1.1.1.1.1.2) _ _
theorem State.cluster_ne (s : State) {k l : Nat} (h : l ≠ k) (f : Cluster → Cluster) : (s.modCluster k f).cluster l = s.cluster l :=
  Tab.getD_setD_ne _ h _
theorem State.region_self {s : State} (h : s.canon = true) (k : Nat) (f : Region → Region) : (s.modRegion k f).region k = f (s.region k) := by
  have hc := h
  simp only [State.canon, Bool.and_eq_true] at hc
  exact Tab.getD_setD_self _ (Tab.rising_of_wf hc.1.1.1.1.1.1.1.1.2) _ _
theorem State.region_ne (s : State) {k l : Nat} (h : l ≠ k) (f : Region → Region) : (s.modRegion k f).region l = s.region l :=
  Tab.getD_setD_ne _ h _
theorem State.slab_self {s : State} (h : s.canon = true) (k : Nat) (f : Slab → Slab) : (s.modSlab k f).slab k = f (s.slab k) := by
  have hc := h
  simp only [State.canon, Bool.and_eq_true] at hc
  exact Tab.getD_setD_self _ (Tab.rising_of_wf hc.1.1.1.1.1.1.2) _ _
theorem State.slab_ne (s : State) {k l : Nat} (h : l ≠ k) (f : Slab → Slab) : (s.modSlab k f).slab l = s.slab l :=
  Tab.getD_setD_ne _ h _
theorem State.port_self {s : State} (h : s.canon = true) (k : Nat) (f : Port → Port) : (s.modPort k f).port k = f (s.port k) := by
  have hc := h
  simp only [State.canon, Bool.and_eq_true] at hc
  exact Tab.getD_setD_self _ (Tab.rising_of_wf hc.1.1.1.1.1.2) _ _
theorem State.port_ne (s : State) {k l : Nat} (h : l ≠ k) (f : Port → Port) : (s.modPort k f).port l = s.port l :=
  Tab.getD_setD_ne _ h _
theorem State.channel_self {s : State} (h : s.canon = true) (k : Nat) (f : Channel → Channel) : (s.modChannel k f).channel k = f (s.channel k) := by
  have hc := h
  simp only [State.canon, Bool.and_eq_true] at hc
  exact Tab.getD_setD_self _ (Tab.rising_of_wf hc.1.1.1.1.2) _ _
theorem State.channel_ne (s : State) {k l : Nat} (h : l ≠ k) (f : Channel → Channel) : (s.modChannel k f).channel l = s.channel l :=
  Tab.getD_setD_ne _ h _

/-- Writing registers in turn changes registers alone. -/
theorem State.setRegs_frame {α : Type} (k : α → Nat) (v : α → Word) (l : List α) (s : State) :
    ∃ r, l.foldl (fun t i => t.setReg (k i) (v i)) s = { s with regs := r } := by
  induction l generalizing s with
  | nil => exact ⟨s.regs, rfl⟩
  | cons a l ih => obtain ⟨r, hr⟩ := ih (s.setReg (k a) (v a)); exact ⟨r, hr⟩

theorem State.capture_frame (s : State) (page cls : Nat) (seq : Word) (d : List Word) :
    ∃ r b, s.capture page cls seq d = { s with regs := r, blotter := b } := by
  unfold State.capture; dsimp only
  split
  · exact ⟨_, s.blotter, rfl⟩
  · obtain ⟨r, hr⟩ := State.setRegs_frame (fun i => page + 0x24 + 4 * i) (fun i =>
      ([s.time.setWidth 32, (s.time >>> 32).setWidth 32] ++ (d ++ [0, 0, 0, 0, 0]).take 5).getD i 0) (List.range 7)
      ((s.modBlotter (fun b => { b with fresh := page :: b.fresh })).setReg (page + 0x20)
        (flag true 31 ||| flag (bit (s.regAt (page + 0x20)) 31) 30 ||| BitVec.ofNat 32 (cls <<< 16) ||| (seq &&& 0xFFFF#32)))
    exact ⟨r, _, hr⟩

theorem State.enqueue_frame (s : State) (sev : Nat) (r : List Word) :
    ∃ q b, s.enqueue sev r = { s with regs := q, blotter := b } := by
  unfold State.enqueue; dsimp only
  split <;> split <;> exact ⟨_, _, rfl⟩

/-- A state that differs from another in registers and the Blotter alone. -/
def Logs (s t : State) : Prop := ∃ r b, t = { s with regs := r, blotter := b }
theorem Logs.trans {s t u : State} (h : Logs s t) (k : Logs t u) : Logs s u := by
  obtain ⟨r, b, rfl⟩ := h; obtain ⟨r', b', rfl⟩ := k; exact ⟨r', b', rfl⟩
theorem logs_capture (s : State) (page cls : Nat) (seq : Word) (d : List Word) : Logs s (s.capture page cls seq d) := State.capture_frame s page cls seq d
theorem logs_enqueue (s : State) (sev : Nat) (r : List Word) : Logs s (s.enqueue sev r) := State.enqueue_frame s sev r
theorem logs_setReg (s : State) (k : Nat) (v : Word) : Logs s (s.setReg k v) := ⟨_, s.blotter, rfl⟩
theorem logs_modBlotter (s : State) (f : Blotter → Blotter) : Logs s (s.modBlotter f) := ⟨s.regs, _, rfl⟩
theorem logs_shiftCaptures (s : State) (seq : Word) (n : Nat) : Logs s (s.shiftCaptures seq n) := by
  unfold State.shiftCaptures
  split
  · exact ⟨s.regs, s.blotter, rfl⟩
  · generalize s.blotter.fresh = l
    induction l generalizing s with
    | nil => exact ⟨s.regs, s.blotter, rfl⟩
    | cons a l ih => exact (logs_setReg _ _ _).trans (ih _)
/-- A record of an event changes registers and the Blotter alone. -/
theorem State.blot_frame (s : State) (page cls : Nat) (i : Option Nat) (d : List Word) : Logs s (s.blot page cls i d) := by
  unfold State.blot; dsimp only
  split
  · exact logs_setReg _ _ _
  · exact ((logs_setReg _ _ _).trans (((logs_shiftCaptures _ _ _).trans (logs_modBlotter _ _)).trans (logs_capture _ _ _ _ _))).trans
      (logs_enqueue _ _ _)
theorem State.blotterTake_frame (s : State) : Logs s s.blotterTake := by
  unfold State.blotterTake
  split
  · exact ⟨_, _, rfl⟩
  · dsimp only; split
    · unfold State.retain; dsimp only; split <;> exact ⟨_, _, rfl⟩
    · exact ⟨_, _, rfl⟩
theorem State.blotterDrain_frame (n : Nat) (s : State) : Logs s (State.blotterDrain n s) := by
  induction n generalizing s with
  | zero => exact ⟨_, _, rfl⟩
  | succ n ih => exact (State.blotterTake_frame s).trans (ih _)

/-- Settling changes latched edges, the pages that capture and the cache's wanted lookup alone. -/
theorem settle_frame (s u : State) :
    ∃ g b, settle s u = { u with signal := g, blotter := b, cache := { u.cache with wanted := none } } := by
  unfold settle
  split
  · exact ⟨_, _, rfl⟩
  · exact ⟨_, _, rfl⟩
/-- A pulse changes latched edges alone. -/
theorem State.pulse_frame (s : State) (n : Nat) : ∃ g, s.pulse n = { s with signal := g } := by
  unfold State.pulse
  split
  · exact ⟨_, rfl⟩
  · exact ⟨_, rfl⟩

/-- The presets of the Characterization Row change registers and the remap tables alone. -/
theorem State.presets_frame (s : State) : ∃ r x, s.presets = { s with regs := r, scrub := x } := by
  unfold State.presets; dsimp only
  suffices key : ∀ (l : List Nat) (s : State), ∃ r x,
      l.foldl (fun (t : State) i => t.preset (t.regAt (Reg.CHAR_ROW + 4 * (36 + i)))) s = { s with regs := r, scrub := x } by
    obtain ⟨r, x, h⟩ := key (List.range 24) ((s.modScrub (fun x => { x with remaps := [] })).setReg Reg.SW_REP_STAT 0)
    exact ⟨r, x, h⟩
  intro l
  induction l with
  | nil => intro s; exact ⟨s.regs, s.scrub, rfl⟩
  | cons i l ih =>
    intro s
    have h : ∃ r x, s.preset (s.regAt (Reg.CHAR_ROW + 4 * (36 + i))) = { s with regs := r, scrub := x } := by
      unfold State.preset State.addRemap; dsimp only
      split
      · split
        · exact ⟨_, _, rfl⟩
        · exact ⟨_, s.scrub, rfl⟩
      · exact ⟨_, _, rfl⟩
    obtain ⟨r, x, hx⟩ := h
    rw [List.foldl_cons, hx]
    obtain ⟨r', x', h'⟩ := ih { s with regs := r, scrub := x }
    exact ⟨r', x', h'⟩
/-- A row without presets leaves empty tables. -/
theorem State.presets_none (s : State) (h : ∀ k, 36 ≤ k → k < 60 → bit (s.regAt (Reg.CHAR_ROW + 4 * k)) 31 = false) :
    s.presets = (s.modScrub (fun x => { x with remaps := [] })).setReg Reg.SW_REP_STAT 0 := by
  have h : ∀ k, 36 ≤ k → k < 60 →
      bit (((s.modScrub (fun x => { x with remaps := [] })).setReg Reg.SW_REP_STAT 0).regAt (Reg.CHAR_ROW + 4 * k)) 31 = false := by
    intro k h1 h2
    rw [State.regAt_setReg_ne _ (show Reg.CHAR_ROW + 4 * k ≠ Reg.SW_REP_STAT by simp only [Reg.CHAR_ROW, Reg.SW_REP_STAT]; omega)]
    exact h k h1 h2
  unfold State.presets; dsimp only
  generalize ((s.modScrub (fun x => { x with remaps := [] })).setReg Reg.SW_REP_STAT 0) = s at h ⊢
  have key : ∀ l : List Nat, (∀ i ∈ l, i < 24) →
      l.foldl (fun (t : State) i => t.preset (t.regAt (Reg.CHAR_ROW + 4 * (36 + i)))) s = s := by
    intro l
    induction l with
    | nil => intro _; rfl
    | cons i l ih =>
      intro hl
      have hi := hl i (by simp)
      rw [List.foldl_cons, show s.preset (s.regAt (Reg.CHAR_ROW + 4 * (36 + i))) = s from ?_]
      · exact ih (fun j hj => hl j (by simp [hj]))
      · unfold State.preset; rw [if_neg (by simp [h (36 + i) (by omega) (by omega)])]
  exact key _ (fun i hi => by simpa using hi)

/-- Closing the expert unlock changes registers, the perturbation generators and the two latches of the GLB page alone. -/
theorem State.expertDrop_frame (s : State) :
    ∃ r d u p, s.expertDrop = { s with regs := r, draws := d, glb := { s.glb with unlock := u, pbOpen := p } } := by
  unfold State.expertDrop
  split
  · exact ⟨s.regs, s.draws, s.glb.unlock, s.glb.pbOpen, rfl⟩
  · unfold State.expertShut State.pbClose State.pxResetAll
    exact ⟨_, _, _, _, rfl⟩
/-- A move to a mode sets MODE and PREV_MODE, and may close the unlock and latch edges. -/
theorem State.toMode_frame (s : State) (m : Mode) :
    ∃ r d u p g, s.toMode m = { s with regs := r, draws := d, signal := g,
                                       glb := { s.glb with mode := m, prevMode := s.glb.mode, unlock := u, pbOpen := p } } := by
  unfold State.toMode; dsimp only
  split
  · obtain ⟨r, d, u, p, h⟩ := State.expertDrop_frame (s.modGlb (fun g => { g with mode := m, prevMode := g.mode }))
    rw [h]
    obtain ⟨g, hg⟩ := State.pulse_frame _ 48
    rw [hg]; exact ⟨r, d, u, p, g, rfl⟩
  · obtain ⟨g, hg⟩ := State.pulse_frame (s.modGlb (fun g => { g with mode := m, prevMode := g.mode })) 48
    rw [hg]; exact ⟨s.regs, s.draws, s.glb.unlock, s.glb.pbOpen, g, rfl⟩

/-- The GLB state after an OPENING failure's reset, or another reset with the same scope (R71, R87). -/
theorem State.toReset_glb (n : Nat) (s : State) :
    ((State.blotterDrain n s).toMode .reset).glb.warm = ({ s.glb with mode := .reset, prevMode := s.glb.mode } : Glb).warm := by
  obtain ⟨r, b, h⟩ := State.blotterDrain_frame n s
  rw [h]
  obtain ⟨r', d, u, p, g, h'⟩ := State.toMode_frame ({ s with regs := r, blotter := b } : State) .reset
  rw [h']; rfl
theorem State.failReset_glb (s : State) :
    s.failReset.glb = { ({ s.glb with mode := .reset, prevMode := s.glb.mode } : Glb).warm with openFailed := true, phase := .none } := by
  rw [← State.toReset_glb 64 s]; rfl
/-- Step 1 of R87 counts the failure and shifts the causes. -/
theorem State.countFailure_glb (s : State) (c : OpenCause) : (s.countFailure c).glb =
    { s.glb with bootCount := min 3 (s.glb.bootCount + 1), causeC := s.glb.causeB, causeB := s.glb.causeA,
                 causeA := BitVec.ofNat 5 (causeCode c), fallCause := BitVec.ofNat 5 (causeCode c) } := by
  unfold State.countFailure; dsimp only
  obtain ⟨r, b, h⟩ := State.blot_frame (s.modGlb (fun g =>
    { g with bootCount := min 3 (g.bootCount + 1), causeC := g.causeB, causeB := g.causeA, causeA := BitVec.ofNat 5 (causeCode c),
             fallCause := BitVec.ofNat 5 (causeCode c) })) 0 0x03 none [BitVec.ofNat 32 (causeCode c), BitVec.ofNat 32 s.glb.phase.code]
  rw [h]; rfl
/-- An OPENING failure: RESET, the count, the causes and the wait (R87). -/
theorem State.openFail_glb (s : State) (c : OpenCause) :
    (s.openFail c).glb.mode = .reset ∧ (s.openFail c).glb.restartWait = true ∧ (s.openFail c).glb.bootCount = min 3 (s.glb.bootCount + 1) ∧
    (s.openFail c).glb.causeA = BitVec.ofNat 5 (causeCode c) ∧ (s.openFail c).glb.causeB = s.glb.causeA ∧
    (s.openFail c).glb.causeC = s.glb.causeB := by
  have h : (s.openFail c).glb = { (s.countFailure c).failReset.glb with restartWait := true } := rfl
  rw [h, State.failReset_glb, State.countFailure_glb]
  exact ⟨rfl, rfl, rfl, rfl, rfl, rfl⟩
/-- A move to a mode other than ENDGAME and RESET sets MODE and PREV_MODE and may latch edges. -/
theorem State.toMode_open (s : State) (m : Mode) (h1 : m ≠ .endgame) (h2 : m ≠ .reset) :
    ∃ g, s.toMode m = { s with signal := g, glb := { s.glb with mode := m, prevMode := s.glb.mode } } := by
  unfold State.toMode; dsimp only
  rw [if_neg (by simp [h1, h2])]
  obtain ⟨g, hg⟩ := State.pulse_frame (s.modGlb (fun g => { g with mode := m, prevMode := g.mode })) 48
  rw [hg]; exact ⟨g, rfl⟩
theorem State.presentFail_frame (s : State) :
    ∃ g f, s.presentFail = { s with signal := g, glb := { s.glb with openFailed := f } } := by
  unfold State.presentFail
  split
  · obtain ⟨g, hg⟩ := State.pulse_frame (s.modGlb (fun g => { g with openFailed := false })) 49
    rw [hg]; exact ⟨g, false, rfl⟩
  · exact ⟨s.signal, s.glb.openFailed, rfl⟩
/-- The entry to OPENING up to the row check: the mode and the phase are set, and the rest of what the check and a failure read is
as before. -/
theorem State.enterOpening_cases (s : State) : ∃ u : State, u.glb.mode = .opening ∧ u.glb.prevMode = s.glb.mode ∧ u.fuse = s.fuse ∧
    u.regs = s.regs ∧ u.glb.bootCount = s.glb.bootCount ∧ u.glb.causeA = s.glb.causeA ∧ u.glb.causeB = s.glb.causeB ∧ u.pins = s.pins ∧
    s.enterOpening = (if u.fuse.failed then u.openFail .fuseLoad else if !u.charRowOk then u.openFail .charRow else u.toPhase .awaitImages) := by
  obtain ⟨g, hg⟩ := State.toMode_open (s.modGlb (fun g => { g with restartWait := false, resetCounted := false })) .opening (by simp) (by simp)
  refine ⟨((s.modGlb (fun g => { g with restartWait := false, resetCounted := false })).toMode .opening).presentFail.toPhase .charCheck,
    ?_, ?_, ?_, ?_, ?_, ?_, ?_, ?_, rfl⟩
  all_goals
    rw [hg]
    obtain ⟨g', f, hf⟩ := State.presentFail_frame ({ s.modGlb (fun g => { g with restartWait := false, resetCounted := false }) with
      signal := g,
      glb := { (s.modGlb (fun g => { g with restartWait := false, resetCounted := false })).glb with
               mode := .opening, prevMode := (s.modGlb (fun g => { g with restartWait := false, resetCounted := false })).glb.mode } } : State)
    rw [hf]; rfl

/-! ### Registers that a reset keeps -/

theorem State.blotterDrain_regAt (n : Nat) (s : State) {k : Nat} (hk : k ≠ Reg.BL_STAT) :
    (State.blotterDrain n s).regAt k = s.regAt k := by
  induction n generalizing s with
  | zero => rfl
  | succ n ih =>
    rw [State.blotterDrain, ih]
    unfold State.blotterTake
    split
    · rfl
    · dsimp only; split
      · unfold State.retain; dsimp only
        split <;> exact State.regAt_setReg_ne _ hk _
      · rfl
theorem State.expertDrop_regAt (s : State) {k : Nat} (h1 : k % 0x1000 ≠ 8) (h2 : k % 0x1000 < 0xF00) :
    s.expertDrop.regAt k = s.regAt k := by
  unfold State.expertDrop
  split
  · rfl
  · unfold State.expertShut State.pbClose State.pxResetAll State.regAt State.modGlb; dsimp only
    rw [Tab.getD_filter_key regReset (fun a => decide (¬ (hasPerturb (pageKind a) = true ∧ 0xF00 ≤ a % 0x1000 ∧ a % 0x1000 < 0xF20))),
      if_pos (by simp; omega), Tab.getD_filter_key regReset (fun a => decide (¬ (a % 0x1000 = 0x008 ∧ ¬ (0x140000 ≤ a ∧ a < 0x180000)))),
      if_pos (by simp; omega)]
theorem State.toMode_regAt (s : State) (m : Mode) {k : Nat} (h1 : k % 0x1000 ≠ 8) (h2 : k % 0x1000 < 0xF00) :
    (s.toMode m).regAt k = s.regAt k := by
  unfold State.toMode; dsimp only
  split
  · obtain ⟨g, hg⟩ := State.pulse_frame (s.modGlb (fun g => { g with mode := m, prevMode := g.mode })).expertDrop 48
    rw [hg]; exact State.expertDrop_regAt (s.modGlb (fun g => { g with mode := m, prevMode := g.mode })) h1 h2
  · obtain ⟨g, hg⟩ := State.pulse_frame (s.modGlb (fun g => { g with mode := m, prevMode := g.mode })) 48
    rw [hg]; rfl
theorem State.warmScope_regAt (s : State) {k : Nat} (hk : keptReg k = true) : s.warmScope.regAt k = s.regAt k := by
  have h1 : k ≠ Reg.BL_ACK := by rintro rfl; revert hk; decide
  have h2 : k ≠ Reg.BL_STAT := by rintro rfl; revert hk; decide
  have h3 : k ≠ winKey Reg.IW_TN_QUOTA 511 := by rintro rfl; revert hk; decide
  unfold State.warmScope
  rw [State.regAt_setReg_ne _ h1, State.regAt_setReg_ne _ h2]
  unfold State.initQuota
  rw [State.regAt_setReg_ne _ h3]
  unfold State.regAt; dsimp only
  rw [Tab.getD_filter_key regReset keptReg, if_pos hk]
/-- What a warm reset keeps and clears (R71). -/
theorem State.applyWarm_form (s : State) (h : s.glb.mode ≠ .reset) :
    ∃ u : State, s.applyWarm = u.warmScope.orReg Reg.CLK_RESET_CAUSE (flag true 1 ||| flag (s.laneList.any s.laneBusy) 3) ∧
      u.build = s.build ∧ u.pins = s.pins ∧ u.fuse = s.fuse ∧ u.store = s.store ∧ u.endgame = s.endgame ∧
      u.glb.warm = ({ s.glb with mode := .reset, prevMode := s.glb.mode } : Glb).warm ∧ (s.canon = true → u.warmScope.canon = true) ∧
      ∀ k, k ≠ Reg.BL_STAT → k % 0x1000 ≠ 8 → k % 0x1000 < 0xF00 → u.regAt k = s.regAt k := by
  obtain ⟨r, b, hd⟩ := State.blotterDrain_frame 64 s
  refine ⟨(State.blotterDrain 64 s).toMode .reset, ?_, ?_, ?_, ?_, ?_, ?_, State.toReset_glb 64 s,
    fun hc => (State.warmScope_ok _ (State.toMode_ok _ _ (State.blotterDrain_ok _ _ (State.ok_self hc)))).2, fun k h1 h2 h3 => ?_⟩
  · unfold State.applyWarm; dsimp only
    rw [if_neg (by rw [hd]; exact h)]
  · rw [hd]; obtain ⟨_, _, _, _, _, h'⟩ := State.toMode_frame ({ s with regs := r, blotter := b } : State) .reset; rw [h']
  · rw [hd]; obtain ⟨_, _, _, _, _, h'⟩ := State.toMode_frame ({ s with regs := r, blotter := b } : State) .reset; rw [h']
  · rw [hd]; obtain ⟨_, _, _, _, _, h'⟩ := State.toMode_frame ({ s with regs := r, blotter := b } : State) .reset; rw [h']
  · rw [hd]; obtain ⟨_, _, _, _, _, h'⟩ := State.toMode_frame ({ s with regs := r, blotter := b } : State) .reset; rw [h']
  · rw [hd]; obtain ⟨_, _, _, _, _, h'⟩ := State.toMode_frame ({ s with regs := r, blotter := b } : State) .reset; rw [h']
  · rw [State.toMode_regAt _ _ h2 h3, State.blotterDrain_regAt _ _ h1]

end Sys2Proof.Machine
end

