-- ==== Sys2Proof/Laws/OkLanes.lean ====
section
/-! SUPPORT. The operations of Machine/Lanes.lean keep the canonical form of the tables and leave the build, the queue,
the pins, the fuses, the test port and the time alone. -/
namespace Sys2Proof.Machine
open Sys2Proof
set_option linter.unusedTactic false
set_option linter.unreachableTactic false
set_option linter.unusedVariables false

theorem State.drive_ok {b₀ : State} (s : State) (g : Nat) (cycles : List BusCycle) (hs : s.Ok b₀) : (State.drive s g cycles).Ok b₀ := by
  unfold State.drive; try dsimp -proj only
  repeat' (first | with_reducible assumption | with_reducible exact fun h => h | with_reducible exact fun h => Tab.wf_setD h _ _ | with_reducible exact fun h => Tab.wf_filter h _ | with_reducible exact fun _ => Tab.wf_nil _ | with_reducible exact fun h => Tab.wf_mapCmds _ h | with_reducible exact fun h => Tab.wf_foldl_setD _ _ _ h | intro _ | with_reducible apply State.foldl_ok | with_reducible apply State.foldl_pok | with_reducible apply State.modLane_ok | with_reducible apply State.ite_ok | with_reducible apply State.fst_of | split | with_reducible apply State.mk_pok | with_reducible apply State.mk_ok)

theorem State.setShadows_ok {b₀ : State} (s : State) (g : Nat) (ws : List Word) (hs : s.Ok b₀) : (State.setShadows s g ws).Ok b₀ := by
  unfold State.setShadows; try dsimp -proj only
  repeat' (first | with_reducible assumption | intro _ | with_reducible apply State.foldl_ok | with_reducible apply State.foldl_pok | with_reducible apply State.setReg_ok | with_reducible apply State.ite_ok | with_reducible apply State.fst_of | split | with_reducible apply State.mk_pok)

theorem State.takeTemp_ok {b₀ : State} (s : State) (g : Nat) (hs : s.Ok b₀) : (State.takeTemp s g).Ok b₀ := by
  unfold State.takeTemp; try dsimp -proj only
  repeat' (first | with_reducible assumption | intro _ | with_reducible apply State.foldl_ok | with_reducible apply State.foldl_pok | with_reducible apply State.setReg_ok | with_reducible apply State.ite_ok | with_reducible apply State.fst_of | split | with_reducible apply State.mk_pok)

theorem State.handOver_ok {b₀ : State} (s : State) (g : Nat) (hs : s.Ok b₀) : (State.handOver s g).Ok b₀ := by
  unfold State.handOver; try dsimp -proj only
  repeat' (first | with_reducible assumption | with_reducible exact fun h => h | with_reducible exact fun h => Tab.wf_setD h _ _ | with_reducible exact fun h => Tab.wf_filter h _ | with_reducible exact fun _ => Tab.wf_nil _ | with_reducible exact fun h => Tab.wf_mapCmds _ h | with_reducible exact fun h => Tab.wf_foldl_setD _ _ _ h | intro _ | with_reducible apply State.foldl_ok | with_reducible apply State.foldl_pok | with_reducible apply State.modLane_ok | with_reducible apply State.modReg_ok | with_reducible apply State.ite_ok | with_reducible apply State.fst_of | split | with_reducible apply State.mk_pok | with_reducible apply State.mk_ok)

theorem State.laneTrained_ok {b₀ : State} (s : State) (g c : Nat) (values : List Word) (hs : s.Ok b₀) : (State.laneTrained s g c values).Ok b₀ := by
  unfold State.laneTrained; try dsimp -proj only
  repeat' (first | with_reducible assumption | with_reducible exact fun h => h | with_reducible exact fun h => Tab.wf_setD h _ _ | with_reducible exact fun h => Tab.wf_filter h _ | with_reducible exact fun _ => Tab.wf_nil _ | with_reducible exact fun h => Tab.wf_mapCmds _ h | with_reducible exact fun h => Tab.wf_foldl_setD _ _ _ h | intro _ | with_reducible apply State.foldl_ok | with_reducible apply State.foldl_pok | with_reducible apply State.setShadows_ok | with_reducible apply State.handOver_ok | with_reducible apply State.modLane_ok | with_reducible apply State.modReg_ok | with_reducible apply State.takeTemp_ok | with_reducible apply State.ite_ok | with_reducible apply State.fst_of | split | with_reducible apply State.mk_pok | with_reducible apply State.mk_ok)

theorem State.keepEyes_ok {b₀ : State} (s : State) (g : Nat) (t : Trial) (hs : s.Ok b₀) : (State.keepEyes s g t).Ok b₀ := by
  unfold State.keepEyes; try dsimp -proj only
  repeat' (first | with_reducible assumption | with_reducible exact fun h => h | with_reducible exact fun h => Tab.wf_setD h _ _ | with_reducible exact fun h => Tab.wf_filter h _ | with_reducible exact fun _ => Tab.wf_nil _ | with_reducible exact fun h => Tab.wf_mapCmds _ h | with_reducible exact fun h => Tab.wf_foldl_setD _ _ _ h | intro _ | with_reducible apply State.foldl_ok | with_reducible apply State.foldl_pok | with_reducible apply State.modLane_ok | with_reducible apply State.ite_ok | with_reducible apply State.fst_of | split | with_reducible apply State.mk_pok | with_reducible apply State.mk_ok)

theorem State.failLane_ok {b₀ : State} (s : State) (g : Nat) (hs : s.Ok b₀) : (State.failLane s g).Ok b₀ := by
  unfold State.failLane; try dsimp -proj only
  repeat' (first | with_reducible assumption | with_reducible exact fun h => h | with_reducible exact fun h => Tab.wf_setD h _ _ | with_reducible exact fun h => Tab.wf_filter h _ | with_reducible exact fun _ => Tab.wf_nil _ | with_reducible exact fun h => Tab.wf_mapCmds _ h | with_reducible exact fun h => Tab.wf_foldl_setD _ _ _ h | intro _ | with_reducible apply State.foldl_ok | with_reducible apply State.foldl_pok | with_reducible apply State.orReg_ok | with_reducible apply State.modReg_ok | with_reducible apply State.modLane_ok | with_reducible apply State.ite_ok | with_reducible apply State.fst_of | split | with_reducible apply State.mk_pok | with_reducible apply State.mk_ok)

theorem State.lastTrain_ok {b₀ : State} (s : State) (g v : Nat) (hs : s.Ok b₀) : (State.lastTrain s g v).Ok b₀ := by
  unfold State.lastTrain; try dsimp -proj only
  repeat' (first | with_reducible assumption | intro _ | with_reducible apply State.foldl_ok | with_reducible apply State.foldl_pok | with_reducible apply State.modReg_ok | with_reducible apply State.ite_ok | with_reducible apply State.fst_of | split | with_reducible apply State.mk_pok)

theorem State.moreTrained_ok {b₀ : State} (s : State) (hs : s.Ok b₀) : (State.moreTrained s).Ok b₀ := by
  unfold State.moreTrained; try dsimp -proj only
  repeat' (first | with_reducible assumption | with_reducible exact fun h => h | with_reducible exact fun h => Tab.wf_setD h _ _ | with_reducible exact fun h => Tab.wf_filter h _ | with_reducible exact fun _ => Tab.wf_nil _ | with_reducible exact fun h => Tab.wf_mapCmds _ h | with_reducible exact fun h => Tab.wf_foldl_setD _ _ _ h | intro _ | with_reducible apply State.foldl_ok | with_reducible apply State.foldl_pok | with_reducible apply State.modGlb_ok | with_reducible apply State.ite_ok | with_reducible apply State.fst_of | split | with_reducible apply State.mk_pok | with_reducible apply State.mk_ok)

theorem State.fullTraining_ok {b₀ : State} (s0 : State) (g : Nat) (l : List (Nat × Trial)) (last : Nat) (hs0 : s0.Ok b₀) : (State.fullTraining s0 g l last).Ok b₀ := by
  unfold State.fullTraining; try dsimp -proj only
  repeat' (first | with_reducible assumption | intro _ | with_reducible apply State.foldl_ok | with_reducible apply State.foldl_pok | with_reducible apply State.drive_ok | with_reducible apply State.laneTrained_ok | with_reducible apply State.keepEyes_ok | with_reducible apply State.lastTrain_ok | with_reducible apply State.moreTrained_ok | with_reducible apply State.failLane_ok | with_reducible apply State.ite_ok | with_reducible apply State.fst_of | split | with_reducible apply State.mk_pok)

theorem State.finishTraining_ok {b₀ : State} (s : State) (g : Nat) (trials : List Trial) (restored : Option Trial) (hs : s.Ok b₀) : (State.finishTraining s g trials restored).Ok b₀ := by
  unfold State.finishTraining; try dsimp -proj only
  repeat' (first | with_reducible assumption | with_reducible exact fun h => h | with_reducible exact fun h => Tab.wf_setD h _ _ | with_reducible exact fun h => Tab.wf_filter h _ | with_reducible exact fun _ => Tab.wf_nil _ | with_reducible exact fun h => Tab.wf_mapCmds _ h | with_reducible exact fun h => Tab.wf_foldl_setD _ _ _ h | intro _ | with_reducible apply State.foldl_ok | with_reducible apply State.foldl_pok | with_reducible apply State.modLane_ok | with_reducible apply State.fullTraining_ok | with_reducible apply State.drive_ok | with_reducible apply State.laneTrained_ok | with_reducible apply State.lastTrain_ok | with_reducible apply State.moreTrained_ok | with_reducible apply State.ite_ok | with_reducible apply State.fst_of | split | with_reducible apply State.mk_pok | with_reducible apply State.mk_ok)

theorem State.laneTrims_ok {b₀ : State} (s : State) (g : Nat) (hs : s.Ok b₀) : (State.laneTrims s g).Ok b₀ := by
  unfold State.laneTrims; try dsimp -proj only
  repeat' (first | with_reducible assumption | with_reducible exact fun h => h | with_reducible exact fun h => Tab.wf_setD h _ _ | with_reducible exact fun h => Tab.wf_filter h _ | with_reducible exact fun _ => Tab.wf_nil _ | with_reducible exact fun h => Tab.wf_mapCmds _ h | with_reducible exact fun h => Tab.wf_foldl_setD _ _ _ h | intro _ | with_reducible apply State.foldl_ok | with_reducible apply State.foldl_pok | with_reducible apply State.setShadows_ok | with_reducible apply State.handOver_ok | with_reducible apply State.modLane_ok | with_reducible apply State.ite_ok | with_reducible apply State.fst_of | split | with_reducible apply State.mk_pok | with_reducible apply State.mk_ok)

theorem State.discover_ok {b₀ : State} (s : State) (f : LaneFound) (hs : s.Ok b₀) : (State.discover s f).Ok b₀ := by
  unfold State.discover; try dsimp -proj only
  repeat' (first | with_reducible assumption | with_reducible exact fun h => h | with_reducible exact fun h => Tab.wf_setD h _ _ | with_reducible exact fun h => Tab.wf_filter h _ | with_reducible exact fun _ => Tab.wf_nil _ | with_reducible exact fun h => Tab.wf_mapCmds _ h | with_reducible exact fun h => Tab.wf_foldl_setD _ _ _ h | intro _ | with_reducible apply State.foldl_ok | with_reducible apply State.foldl_pok | with_reducible apply State.setReg_ok | with_reducible apply State.drive_ok | with_reducible apply State.failLane_ok | with_reducible apply State.modLane_ok | with_reducible apply State.ite_ok | with_reducible apply State.fst_of | split | with_reducible apply State.mk_pok | with_reducible apply State.mk_ok)

theorem State.trainHeld_ok {b₀ : State} (s : State) (hs : s.Ok b₀) : (State.trainHeld s).Ok b₀ := by
  unfold State.trainHeld; try dsimp -proj only
  repeat' (first | with_reducible assumption | intro _ | with_reducible apply State.foldl_ok | with_reducible apply State.foldl_pok | with_reducible apply State.finishTraining_ok | with_reducible apply State.ite_ok | with_reducible apply State.fst_of | split | with_reducible apply State.mk_pok)

theorem State.clearRestored_ok {b₀ : State} (s : State) (hs : s.Ok b₀) : (State.clearRestored s).Ok b₀ := by
  unfold State.clearRestored; try dsimp -proj only
  repeat' (first | with_reducible assumption | intro _ | with_reducible apply State.foldl_ok | with_reducible apply State.foldl_pok | with_reducible apply State.modReg_ok | with_reducible apply State.ite_ok | with_reducible apply State.fst_of | split | with_reducible apply State.mk_pok)

theorem State.rbSync_ok {b₀ : State} (s : State) (g : Nat) (hs : s.Ok b₀) : (State.rbSync s g).Ok b₀ := by
  unfold State.rbSync; try dsimp -proj only
  repeat' (first | with_reducible assumption | intro _ | with_reducible apply State.foldl_ok | with_reducible apply State.foldl_pok | with_reducible apply State.modReg_ok | with_reducible apply State.ite_ok | with_reducible apply State.fst_of | split | with_reducible apply State.mk_pok)

theorem State.calPoint_ok {b₀ : State} (s : State) (g : Nat) (hs : s.Ok b₀) : (State.calPoint s g).Ok b₀ := by
  unfold State.calPoint; try dsimp -proj only
  repeat' (first | with_reducible assumption | with_reducible exact fun h => h | with_reducible exact fun h => Tab.wf_setD h _ _ | with_reducible exact fun h => Tab.wf_filter h _ | with_reducible exact fun _ => Tab.wf_nil _ | with_reducible exact fun h => Tab.wf_mapCmds _ h | with_reducible exact fun h => Tab.wf_foldl_setD _ _ _ h | intro _ | with_reducible apply State.foldl_ok | with_reducible apply State.foldl_pok | with_reducible apply State.modLane_ok | with_reducible apply State.ite_ok | with_reducible apply State.fst_of | split | with_reducible apply State.mk_pok | with_reducible apply State.mk_ok)

theorem State.idleSync_ok {b₀ : State} (s : State) (g : Nat) (hs : s.Ok b₀) : (State.idleSync s g).Ok b₀ := by
  unfold State.idleSync; try dsimp -proj only
  repeat' (first | with_reducible assumption | intro _ | with_reducible apply State.foldl_ok | with_reducible apply State.foldl_pok | with_reducible apply State.rbSync_ok | with_reducible apply State.calPoint_ok | with_reducible apply State.ite_ok | with_reducible apply State.fst_of | split | with_reducible apply State.mk_pok)

theorem State.setPending_ok {b₀ : State} (s : State) (g : Nat) (hs : s.Ok b₀) : (State.setPending s g).Ok b₀ := by
  unfold State.setPending; try dsimp -proj only
  repeat' (first | with_reducible assumption | intro _ | with_reducible apply State.foldl_ok | with_reducible apply State.foldl_pok | with_reducible apply State.orReg_ok | with_reducible apply State.ite_ok | with_reducible apply State.fst_of | split | with_reducible apply State.mk_pok)

theorem State.askRetrain_ok {b₀ : State} (s : State) (g : Nat) (first : Bool) (hs : s.Ok b₀) : (State.askRetrain s g first).Ok b₀ := by
  unfold State.askRetrain; try dsimp -proj only
  repeat' (first | with_reducible assumption | with_reducible exact fun h => h | with_reducible exact fun h => Tab.wf_setD h _ _ | with_reducible exact fun h => Tab.wf_filter h _ | with_reducible exact fun _ => Tab.wf_nil _ | with_reducible exact fun h => Tab.wf_mapCmds _ h | with_reducible exact fun h => Tab.wf_foldl_setD _ _ _ h | intro _ | with_reducible apply State.foldl_ok | with_reducible apply State.foldl_pok | with_reducible apply State.modLane_ok | with_reducible apply State.ite_ok | with_reducible apply State.fst_of | split | with_reducible apply State.mk_pok | with_reducible apply State.mk_ok)

theorem State.dropRun_ok {b₀ : State} (s : State) (g : Nat) (hs : s.Ok b₀) : (State.dropRun s g).Ok b₀ := by
  unfold State.dropRun; try dsimp -proj only
  repeat' (first | with_reducible assumption | with_reducible exact fun h => h | with_reducible exact fun h => Tab.wf_setD h _ _ | with_reducible exact fun h => Tab.wf_filter h _ | with_reducible exact fun _ => Tab.wf_nil _ | with_reducible exact fun h => Tab.wf_mapCmds _ h | with_reducible exact fun h => Tab.wf_foldl_setD _ _ _ h | intro _ | with_reducible apply State.foldl_ok | with_reducible apply State.foldl_pok | with_reducible apply State.modLane_ok | with_reducible apply State.calPoint_ok | with_reducible apply State.ite_ok | with_reducible apply State.fst_of | split | with_reducible apply State.mk_pok | with_reducible apply State.mk_ok)

theorem State.capCheck_ok {b₀ : State} (s : State) (g : Nat) (hs : s.Ok b₀) : (State.capCheck s g).Ok b₀ := by
  unfold State.capCheck; try dsimp -proj only
  repeat' (first | with_reducible assumption | intro _ | with_reducible apply State.foldl_ok | with_reducible apply State.foldl_pok | with_reducible apply State.askRetrain_ok | with_reducible apply State.ite_ok | with_reducible apply State.fst_of | split | with_reducible apply State.mk_pok)

theorem State.startRun_ok {b₀ : State} (s : State) (g : Nat) (hs : s.Ok b₀) : (State.startRun s g).Ok b₀ := by
  unfold State.startRun; try dsimp -proj only
  repeat' (first | with_reducible assumption | with_reducible exact fun h => h | with_reducible exact fun h => Tab.wf_setD h _ _ | with_reducible exact fun h => Tab.wf_filter h _ | with_reducible exact fun _ => Tab.wf_nil _ | with_reducible exact fun h => Tab.wf_mapCmds _ h | with_reducible exact fun h => Tab.wf_foldl_setD _ _ _ h | intro _ | with_reducible apply State.foldl_ok | with_reducible apply State.foldl_pok | with_reducible apply State.modLane_ok | with_reducible apply State.calPoint_ok | with_reducible apply State.ite_ok | with_reducible apply State.fst_of | split | with_reducible apply State.mk_pok | with_reducible apply State.mk_ok)

theorem State.endRun_ok {b₀ : State} (s : State) (g : Nat) (r : CalRun) (withWrite : Bool) (hs : s.Ok b₀) : (State.endRun s g r withWrite).Ok b₀ := by
  unfold State.endRun; try dsimp -proj only
  repeat' (first | with_reducible assumption | with_reducible exact fun h => h | with_reducible exact fun h => Tab.wf_setD h _ _ | with_reducible exact fun h => Tab.wf_filter h _ | with_reducible exact fun _ => Tab.wf_nil _ | with_reducible exact fun h => Tab.wf_mapCmds _ h | with_reducible exact fun h => Tab.wf_foldl_setD _ _ _ h | intro _ | with_reducible apply State.foldl_ok | with_reducible apply State.foldl_pok | with_reducible apply State.modLane_ok | with_reducible apply State.calPoint_ok | with_reducible apply State.askRetrain_ok | with_reducible apply State.orReg_ok | with_reducible apply State.setReg_ok | with_reducible apply State.setPending_ok | with_reducible apply State.takeTemp_ok | with_reducible apply State.count_ok | with_reducible apply State.raise_ok | with_reducible apply State.ite_ok | with_reducible apply State.fst_of | split | with_reducible apply State.mk_pok | with_reducible apply State.mk_ok)

end Sys2Proof.Machine
end

