-- ==== Sys2Proof/Laws/OkPower.lean ====
section
/-! SUPPORT. The operations of Machine/Power.lean keep the canonical form of the tables and leave the build, the queue,
the pins, the fuses, the test port and the time alone. -/
namespace Sys2Proof.Machine
open Sys2Proof
set_option linter.unusedTactic false
set_option linter.unreachableTactic false
set_option linter.unusedVariables false







theorem execCentralRelease_runs {b₀ : State} (s : State) (hs : s.Ok b₀) : Runs b₀ (execCentralRelease s) := by
  unfold execCentralRelease; try dsimp -proj only
  repeat' (first | with_reducible assumption | intro _ | with_reducible apply State.foldl_ok | with_reducible apply State.foldl_pok | with_reducible apply runs_done | with_reducible apply runs_idle | with_reducible apply runs_ite | with_reducible apply runs_next | with_reducible apply State.enterOpening_ok | with_reducible apply State.ite_ok | with_reducible apply State.ite_pok | with_reducible apply State.fst_of | split | with_reducible apply State.mk_pok)



theorem State.mediaRoom_ok {b₀ : State} (s : State) (f : Nat → Bool) (hs : s.Ok b₀) : (State.mediaRoom s f).Ok b₀ := by
  unfold State.mediaRoom; try dsimp -proj only
  repeat' (first | with_reducible assumption | with_reducible exact fun h => h | with_reducible exact fun h => Tab.wf_setD h _ _ | with_reducible exact fun h => Tab.wf_filter h _ | with_reducible exact fun _ => Tab.wf_nil _ | with_reducible exact fun h => Tab.wf_mapCmds _ h | with_reducible exact fun h => Tab.wf_foldl_setD _ _ _ h | intro _ | with_reducible apply State.foldl_ok | with_reducible apply State.foldl_pok | with_reducible apply State.modLane_ok | with_reducible apply State.ite_ok | with_reducible apply State.fst_of | split | with_reducible apply State.mk_pok | with_reducible apply State.mk_ok)




end Sys2Proof.Machine
end

