-- ==== Sys2Proof/Laws/OkLedger.lean ====
section
/-! SUPPORT. The operations of Machine/Ledger.lean keep the canonical form of the tables and leave the build, the queue,
the pins, the fuses, the test port and the time alone. -/
namespace Sys2Proof.Machine
open Sys2Proof
set_option linter.unusedTactic false
set_option linter.unreachableTactic false
set_option linter.unusedVariables false

theorem State.pay_ok {b₀ : State} (s : State) (e : Nat) (hs : s.Ok b₀) : (State.pay s e).Ok b₀ := by
  unfold State.pay; try dsimp -proj only
  repeat' (first | with_reducible assumption | with_reducible exact fun h => h | with_reducible exact fun h => Tab.wf_setD h _ _ | with_reducible exact fun h => Tab.wf_filter h _ | with_reducible exact fun _ => Tab.wf_nil _ | with_reducible exact fun h => Tab.wf_mapCmds _ h | with_reducible exact fun h => Tab.wf_foldl_setD _ _ _ h | intro _ | with_reducible apply State.foldl_ok | with_reducible apply State.foldl_pok | with_reducible apply State.modLedger_ok | with_reducible apply State.ite_ok | with_reducible apply State.fst_of | split | with_reducible apply State.mk_pok | with_reducible apply State.mk_ok)

theorem State.addUse_ok {b₀ : State} (s : State) (t e : Nat) (hs : s.Ok b₀) : (State.addUse s t e).Ok b₀ := by
  unfold State.addUse; try dsimp -proj only
  repeat' (first | with_reducible assumption | with_reducible exact fun h => h | with_reducible exact fun h => Tab.wf_setD h _ _ | with_reducible exact fun h => Tab.wf_filter h _ | with_reducible exact fun _ => Tab.wf_nil _ | with_reducible exact fun h => Tab.wf_mapCmds _ h | with_reducible exact fun h => Tab.wf_foldl_setD _ _ _ h | intro _ | with_reducible apply State.foldl_ok | with_reducible apply State.foldl_pok | with_reducible apply State.modLedger_ok | with_reducible apply State.ite_ok | with_reducible apply State.fst_of | split | with_reducible apply State.mk_pok | with_reducible apply State.mk_ok)

theorem State.lateCharge_ok {b₀ : State} (s : State) (inst : Option Nat) (e : Nat) (hs : s.Ok b₀) : (State.lateCharge s inst e).Ok b₀ := by
  unfold State.lateCharge; try dsimp -proj only
  repeat' (first | with_reducible assumption | intro _ | with_reducible apply State.foldl_ok | with_reducible apply State.foldl_pok | with_reducible apply State.pay_ok | with_reducible apply State.addUse_ok | with_reducible apply State.ite_ok | with_reducible apply State.fst_of | split | with_reducible apply State.mk_pok)

theorem State.chargeSense_ok {b₀ : State} (s : State) (g h : Nat) (hs : s.Ok b₀) : (State.chargeSense s g h).Ok b₀ := by
  unfold State.chargeSense; try dsimp -proj only
  repeat' (first | with_reducible assumption | intro _ | with_reducible apply State.foldl_ok | with_reducible apply State.foldl_pok | with_reducible apply State.lateCharge_ok | with_reducible apply State.ite_ok | with_reducible apply State.fst_of | split | with_reducible apply State.mk_pok)

theorem State.chargeFrame_ok {b₀ : State} (s : State) (g h : Nat) (hs : s.Ok b₀) : (State.chargeFrame s g h).Ok b₀ := by
  unfold State.chargeFrame; try dsimp -proj only
  repeat' (first | with_reducible assumption | intro _ | with_reducible apply State.foldl_ok | with_reducible apply State.foldl_pok | with_reducible apply State.lateCharge_ok | with_reducible apply State.ite_ok | with_reducible apply State.fst_of | split | with_reducible apply State.mk_pok)

theorem State.countWait_ok {b₀ : State} (s : State) (a : Answer) (t r : Nat) (hs : s.Ok b₀) : (State.countWait s a t r).Ok b₀ := by
  unfold State.countWait; try dsimp -proj only
  repeat' (first | with_reducible assumption | intro _ | with_reducible apply State.foldl_ok | with_reducible apply State.foldl_pok | with_reducible apply State.count_ok | with_reducible apply State.admitted_ok | with_reducible apply State.ite_ok | with_reducible apply State.fst_of | split | with_reducible apply State.mk_pok)

theorem State.creditResidue_ok {b₀ : State} (s : State) (hs : s.Ok b₀) : (State.creditResidue s).Ok b₀ := by
  unfold State.creditResidue; try dsimp -proj only
  repeat' (first | with_reducible assumption | with_reducible exact fun h => h | with_reducible exact fun h => Tab.wf_setD h _ _ | with_reducible exact fun h => Tab.wf_filter h _ | with_reducible exact fun _ => Tab.wf_nil _ | with_reducible exact fun h => Tab.wf_mapCmds _ h | with_reducible exact fun h => Tab.wf_foldl_setD _ _ _ h | intro _ | with_reducible apply State.foldl_ok | with_reducible apply State.foldl_pok | with_reducible apply State.modLedger_ok | with_reducible apply State.raise_ok | with_reducible apply State.blot_ok | with_reducible apply State.ite_ok | with_reducible apply State.fst_of | split | with_reducible apply State.mk_pok | with_reducible apply State.mk_ok)

theorem State.upset_ok {b₀ : State} (s : State) (u : Upset) (table : Nat) (hs : s.Ok b₀) : (State.upset s u table).Ok b₀ := by
  unfold State.upset; try dsimp -proj only
  repeat' (first | with_reducible assumption | with_reducible exact fun h => h | with_reducible exact fun h => Tab.wf_setD h _ _ | with_reducible exact fun h => Tab.wf_filter h _ | with_reducible exact fun _ => Tab.wf_nil _ | with_reducible exact fun h => Tab.wf_mapCmds _ h | with_reducible exact fun h => Tab.wf_foldl_setD _ _ _ h | intro _ | with_reducible apply State.foldl_ok | with_reducible apply State.foldl_pok | with_reducible apply State.creditResidue_ok | with_reducible apply State.modLedger_ok | with_reducible apply State.raise_ok | with_reducible apply State.blot_ok | with_reducible apply State.modRegion_ok | with_reducible apply State.ite_ok | with_reducible apply State.fst_of | split | with_reducible apply State.mk_pok | with_reducible apply State.mk_ok)

theorem State.ask_ok {b₀ : State} (s : State) (e u t r : Nat) (held : Bool) (hs : s.Ok b₀) : State.POk b₀ (State.ask s e u t r held) := by
  unfold State.ask; try dsimp -proj only
  repeat' (first | with_reducible assumption | with_reducible exact fun h => h | with_reducible exact fun h => Tab.wf_setD h _ _ | with_reducible exact fun h => Tab.wf_filter h _ | with_reducible exact fun _ => Tab.wf_nil _ | with_reducible exact fun h => Tab.wf_mapCmds _ h | with_reducible exact fun h => Tab.wf_foldl_setD _ _ _ h | intro _ | with_reducible apply State.foldl_ok | with_reducible apply State.foldl_pok | with_reducible apply State.opportunity_ok | with_reducible apply State.creditResidue_ok | with_reducible apply State.admitted_ok | with_reducible apply State.pay_ok | with_reducible apply State.addUse_ok | with_reducible apply State.modRegion_ok | with_reducible apply State.countWait_ok | with_reducible apply State.ite_ok | with_reducible apply State.ite_pok | with_reducible apply State.fst_of | split | with_reducible apply State.mk_pok | with_reducible apply State.mk_ok)

theorem State.releaseUnits_ok {b₀ : State} (s : State) (r u : Nat) (hs : s.Ok b₀) : (State.releaseUnits s r u).Ok b₀ := by
  unfold State.releaseUnits; try dsimp -proj only
  repeat' (first | with_reducible assumption | with_reducible exact fun h => h | with_reducible exact fun h => Tab.wf_setD h _ _ | with_reducible exact fun h => Tab.wf_filter h _ | with_reducible exact fun _ => Tab.wf_nil _ | with_reducible exact fun h => Tab.wf_mapCmds _ h | with_reducible exact fun h => Tab.wf_foldl_setD _ _ _ h | intro _ | with_reducible apply State.foldl_ok | with_reducible apply State.foldl_pok | with_reducible apply State.modRegion_ok | with_reducible apply State.mediaRoom_ok | with_reducible apply State.ite_ok | with_reducible apply State.fst_of | split | with_reducible apply State.mk_pok | with_reducible apply State.mk_ok)

theorem State.refill_ok {b₀ : State} (s : State) (hs : s.Ok b₀) : (State.refill s).Ok b₀ := by
  unfold State.refill; try dsimp -proj only
  repeat' (first | with_reducible assumption | with_reducible exact fun h => h | with_reducible exact fun h => Tab.wf_setD h _ _ | with_reducible exact fun h => Tab.wf_filter h _ | with_reducible exact fun _ => Tab.wf_nil _ | with_reducible exact fun h => Tab.wf_mapCmds _ h | with_reducible exact fun h => Tab.wf_foldl_setD _ _ _ h | intro _ | with_reducible apply State.foldl_ok | with_reducible apply State.foldl_pok | with_reducible apply State.modLedger_ok | with_reducible apply State.ite_ok | with_reducible apply State.fst_of | split | with_reducible apply State.mk_pok | with_reducible apply State.mk_ok)

theorem State.refillRoom_ok {b₀ : State} (s : State) (hs : s.Ok b₀) : (State.refillRoom s).Ok b₀ := by
  unfold State.refillRoom; try dsimp -proj only
  repeat' (first | with_reducible assumption | with_reducible exact fun h => h | with_reducible exact fun h => Tab.wf_setD h _ _ | with_reducible exact fun h => Tab.wf_filter h _ | with_reducible exact fun _ => Tab.wf_nil _ | with_reducible exact fun h => Tab.wf_mapCmds _ h | with_reducible exact fun h => Tab.wf_foldl_setD _ _ _ h | intro _ | with_reducible apply State.foldl_ok | with_reducible apply State.foldl_pok | with_reducible apply State.modLane_ok | with_reducible apply State.ite_ok | with_reducible apply State.fst_of | split | with_reducible apply State.mk_pok | with_reducible apply State.mk_ok)

theorem execLedgerRefill_runs {b₀ : State} (upset : Upset) (s : State) (hs : s.Ok b₀) : Runs b₀ (execLedgerRefill upset s) := by
  unfold execLedgerRefill; try dsimp -proj only
  repeat' (first | with_reducible assumption | intro _ | with_reducible apply State.foldl_ok | with_reducible apply State.foldl_pok | with_reducible apply runs_done | with_reducible apply runs_idle | with_reducible apply runs_ite | with_reducible apply runs_next | with_reducible apply State.upset_ok | with_reducible apply State.refill_ok | with_reducible apply State.refillRoom_ok | with_reducible apply State.ite_ok | with_reducible apply State.ite_pok | with_reducible apply State.fst_of | split | with_reducible apply State.mk_pok)

theorem execShareWrite_runs {b₀ : State} (a : RpAcc) (s : State) (hs : s.Ok b₀) : Runs b₀ (execShareWrite a s) := by
  unfold execShareWrite; try dsimp -proj only
  repeat' (first | with_reducible assumption | with_reducible exact fun h => h | with_reducible exact fun h => Tab.wf_setD h _ _ | with_reducible exact fun h => Tab.wf_filter h _ | with_reducible exact fun _ => Tab.wf_nil _ | with_reducible exact fun h => Tab.wf_mapCmds _ h | with_reducible exact fun h => Tab.wf_foldl_setD _ _ _ h | intro _ | with_reducible apply State.foldl_ok | with_reducible apply State.foldl_pok | with_reducible apply runs_done | with_reducible apply runs_idle | with_reducible apply runs_ite | with_reducible apply runs_next | with_reducible apply State.portWrite_ok | with_reducible apply State.writeRow_ok | with_reducible apply State.modLedger_ok | with_reducible apply State.ite_ok | with_reducible apply State.ite_pok | with_reducible apply State.fst_of | split | with_reducible apply State.mk_pok | with_reducible apply State.mk_ok)

theorem State.evalCrit_ok {b₀ : State} (s : State) (hs : s.Ok b₀) : (State.evalCrit s).Ok b₀ := by
  unfold State.evalCrit; try dsimp -proj only
  repeat' (first | with_reducible assumption | with_reducible exact fun h => h | with_reducible exact fun h => Tab.wf_setD h _ _ | with_reducible exact fun h => Tab.wf_filter h _ | with_reducible exact fun _ => Tab.wf_nil _ | with_reducible exact fun h => Tab.wf_mapCmds _ h | with_reducible exact fun h => Tab.wf_foldl_setD _ _ _ h | intro _ | with_reducible apply State.foldl_ok | with_reducible apply State.foldl_pok | with_reducible apply State.modLedger_ok | with_reducible apply State.raise_ok | with_reducible apply State.ite_ok | with_reducible apply State.fst_of | split | with_reducible apply State.mk_pok | with_reducible apply State.mk_ok)

theorem State.keepMax_ok {b₀ : State} (s : State) (hs : s.Ok b₀) : (State.keepMax s).Ok b₀ := by
  unfold State.keepMax; try dsimp -proj only
  repeat' (first | with_reducible assumption | intro _ | with_reducible apply State.foldl_ok | with_reducible apply State.foldl_pok | with_reducible apply State.modReg_ok | with_reducible apply State.ite_ok | with_reducible apply State.fst_of | split | with_reducible apply State.mk_pok)


theorem State.reconcile_ok {b₀ : State} (s : State) (meas : BitVec 16) (hs : s.Ok b₀) : (State.reconcile s meas).Ok b₀ := by
  unfold State.reconcile; try dsimp -proj only
  repeat' (first | with_reducible assumption | with_reducible exact fun h => h | with_reducible exact fun h => Tab.wf_setD h _ _ | with_reducible exact fun h => Tab.wf_filter h _ | with_reducible exact fun _ => Tab.wf_nil _ | with_reducible exact fun h => Tab.wf_mapCmds _ h | with_reducible exact fun h => Tab.wf_foldl_setD _ _ _ h | intro _ | with_reducible apply State.foldl_ok | with_reducible apply State.foldl_pok | with_reducible apply State.modLedger_ok | with_reducible apply State.setReg_ok | with_reducible apply State.ite_ok | with_reducible apply State.fst_of | split | with_reducible apply State.mk_pok | with_reducible apply State.mk_ok)

theorem State.countHot_ok {b₀ : State} (s : State) (hs : s.Ok b₀) : (State.countHot s).Ok b₀ := by
  unfold State.countHot; try dsimp -proj only
  repeat' (first | with_reducible assumption | intro _ | with_reducible apply State.foldl_ok | with_reducible apply State.foldl_pok | with_reducible apply State.count_ok | with_reducible apply State.ite_ok | with_reducible apply State.fst_of | split | with_reducible apply State.mk_pok)

theorem State.evalWarn_ok {b₀ : State} (s : State) (hs : s.Ok b₀) : (State.evalWarn s).Ok b₀ := by
  unfold State.evalWarn; try dsimp -proj only
  repeat' (first | with_reducible assumption | with_reducible exact fun h => h | with_reducible exact fun h => Tab.wf_setD h _ _ | with_reducible exact fun h => Tab.wf_filter h _ | with_reducible exact fun _ => Tab.wf_nil _ | with_reducible exact fun h => Tab.wf_mapCmds _ h | with_reducible exact fun h => Tab.wf_foldl_setD _ _ _ h | intro _ | with_reducible apply State.foldl_ok | with_reducible apply State.foldl_pok | with_reducible apply State.countHot_ok | with_reducible apply State.raise_ok | with_reducible apply State.modLedger_ok | with_reducible apply State.ite_ok | with_reducible apply State.fst_of | split | with_reducible apply State.mk_pok | with_reducible apply State.mk_ok)

theorem State.exitRetrain_ok {b₀ : State} (s : State) (g : Nat) (hs : s.Ok b₀) : (State.exitRetrain s g).Ok b₀ := by
  unfold State.exitRetrain; try dsimp -proj only
  repeat' (first | with_reducible assumption | intro _ | with_reducible apply State.foldl_ok | with_reducible apply State.foldl_pok | with_reducible apply State.askRetrain_ok | with_reducible apply State.ite_ok | with_reducible apply State.fst_of | split | with_reducible apply State.mk_pok)

theorem State.takeRate_ok {b₀ : State} (s : State) (hs : s.Ok b₀) : (State.takeRate s ).Ok b₀ := by
  unfold State.takeRate; try dsimp -proj only
  repeat' (first | with_reducible assumption | intro _ | with_reducible apply State.foldl_ok | with_reducible apply State.foldl_pok | with_reducible apply State.modLedger_ok | with_reducible apply State.capCheck_ok | with_reducible apply State.ite_ok | with_reducible apply State.fst_of | split | with_reducible apply State.mk_pok)

theorem State.thriftEdge_ok {b₀ : State} (s : State) (hs : s.Ok b₀) : (State.thriftEdge s).Ok b₀ := by
  unfold State.thriftEdge; try dsimp -proj only
  repeat' (first | with_reducible assumption | with_reducible exact fun h => h | with_reducible exact fun h => Tab.wf_setD h _ _ | with_reducible exact fun h => Tab.wf_filter h _ | with_reducible exact fun _ => Tab.wf_nil _ | with_reducible exact fun h => Tab.wf_mapCmds _ h | with_reducible exact fun h => Tab.wf_foldl_setD _ _ _ h | intro _ | with_reducible apply State.foldl_ok | with_reducible apply State.foldl_pok | with_reducible apply State.modLedger_ok | with_reducible apply State.takeRate_ok | with_reducible apply State.toMode_ok | with_reducible apply State.count_ok | with_reducible apply State.raise_ok | with_reducible apply State.capCheck_ok | with_reducible apply State.exitRetrain_ok | with_reducible apply State.ite_ok | with_reducible apply State.fst_of | split | with_reducible apply State.mk_pok | with_reducible apply State.mk_ok)

theorem State.tempTrigger_ok {b₀ : State} (s : State) (g : Nat) (hs : s.Ok b₀) : (State.tempTrigger s g).Ok b₀ := by
  unfold State.tempTrigger; try dsimp -proj only
  repeat' (first | with_reducible assumption | intro _ | with_reducible apply State.foldl_ok | with_reducible apply State.foldl_pok | with_reducible apply State.startRun_ok | with_reducible apply State.ite_ok | with_reducible apply State.fst_of | split | with_reducible apply State.mk_pok)


end Sys2Proof.Machine
end

