-- ==== Sys2Proof/Laws/OkCache.lean ====
section
/-! SUPPORT. The operations of Machine/Cache.lean keep the canonical form of the tables and leave the build, the queue,
the pins, the fuses, the test port and the time alone. -/
namespace Sys2Proof.Machine
open Sys2Proof
set_option linter.unusedTactic false
set_option linter.unreachableTactic false
set_option linter.unusedVariables false

theorem State.hostBytes_ok {b₀ : State} (s : State) (a : Nat) (bytes : List Byte) (hs : s.Ok b₀) : (State.hostBytes s a bytes).Ok b₀ := by
  unfold State.hostBytes
  have key : ∀ (l : List Byte) (p : Tab Byte × Nat), Tab.wf (fun _ => (0 : Byte)) p.1 = true →
      Tab.wf (fun _ => (0 : Byte)) (l.foldl (fun (t : Tab Byte × Nat) b => (Tab.setD (fun _ => 0) t.1 t.2 b, t.2 + 1)) p).1 = true := by
    intro l
    induction l with
    | nil => intro p h; exact h
    | cons c l ih => intro p h; exact ih _ (Tab.wf_setD h _ _)
  with_reducible apply State.mk_ok
  all_goals first | exact hs | exact fun h => h | exact fun h => key _ _ h

theorem State.hostPut_ok {b₀ : State} (s : State) (a : Nat) (b : Beat) (strb : BitVec 128) (hs : s.Ok b₀) : (State.hostPut s a b strb).Ok b₀ := by
  unfold State.hostPut
  have key : ∀ (l : List Nat) (p : Tab Byte), Tab.wf (fun _ => (0 : Byte)) p = true →
      Tab.wf (fun _ => (0 : Byte)) (l.foldl (fun t k => if strb.getLsbD k then Tab.setD (fun _ => 0) t (a + k) (byteAt b k) else t) p) = true := by
    intro l
    induction l with
    | nil => intro p h; exact h
    | cons c l ih => intro p h; refine ih _ ?_; dsimp only; split; exact Tab.wf_setD h _ _; exact h
  with_reducible apply State.mk_ok
  all_goals first | exact hs | exact fun h => h | exact fun h => key _ _ h

theorem State.issueWb_ok {b₀ : State} (s : State) (tag : Nat) (d : BitVec 1024) (hs : s.Ok b₀) : (State.issueWb s tag d).Ok b₀ := by
  unfold State.issueWb; try dsimp -proj only
  repeat' (first | with_reducible assumption | intro _ | with_reducible apply State.foldl_ok | with_reducible apply State.foldl_pok | with_reducible apply State.hpPush_ok | with_reducible apply State.count_ok | with_reducible apply State.ite_ok | with_reducible apply State.fst_of | split | with_reducible apply State.mk_pok)

theorem State.modVictim_ok {b₀ : State} (s : State) (i : Nat) (f : Victim → Victim) (hs : s.Ok b₀) : (State.modVictim s i f).Ok b₀ := by
  unfold State.modVictim; try dsimp -proj only
  repeat' (first | with_reducible assumption | with_reducible exact fun h => h | with_reducible exact fun h => Tab.wf_setD h _ _ | with_reducible exact fun h => Tab.wf_filter h _ | with_reducible exact fun _ => Tab.wf_nil _ | with_reducible exact fun h => Tab.wf_mapCmds _ h | with_reducible exact fun h => Tab.wf_foldl_setD _ _ _ h | intro _ | with_reducible apply State.foldl_ok | with_reducible apply State.foldl_pok | with_reducible apply State.modCache_ok | with_reducible apply State.ite_ok | with_reducible apply State.fst_of | split | with_reducible apply State.mk_pok | with_reducible apply State.mk_ok)

theorem State.startWb_ok {b₀ : State} (s : State) (i : Nat) (keep : Bool) (hs : s.Ok b₀) : (State.startWb s i keep).Ok b₀ := by
  unfold State.startWb; try dsimp -proj only
  repeat' (first | with_reducible assumption | with_reducible exact fun h => h | with_reducible exact fun h => Tab.wf_setD h _ _ | with_reducible exact fun h => Tab.wf_filter h _ | with_reducible exact fun _ => Tab.wf_nil _ | with_reducible exact fun h => Tab.wf_mapCmds _ h | with_reducible exact fun h => Tab.wf_foldl_setD _ _ _ h | intro _ | with_reducible apply State.foldl_ok | with_reducible apply State.foldl_pok | with_reducible apply State.modVictim_ok | with_reducible apply State.issueWb_ok | with_reducible apply State.ite_ok | with_reducible apply State.fst_of | split | with_reducible apply State.mk_pok | with_reducible apply State.mk_ok)

theorem State.victimRoom_ok {b₀ : State} (s : State) (hs : s.Ok b₀) : (State.victimRoom s).Ok b₀ := by
  unfold State.victimRoom; try dsimp -proj only
  repeat' (first | with_reducible assumption | with_reducible exact fun h => h | with_reducible exact fun h => Tab.wf_setD h _ _ | with_reducible exact fun h => Tab.wf_filter h _ | with_reducible exact fun _ => Tab.wf_nil _ | with_reducible exact fun h => Tab.wf_mapCmds _ h | with_reducible exact fun h => Tab.wf_foldl_setD _ _ _ h | intro _ | with_reducible apply State.foldl_ok | with_reducible apply State.foldl_pok | with_reducible apply State.startWb_ok | with_reducible apply State.modCache_ok | with_reducible apply State.ite_ok | with_reducible apply State.fst_of | split | with_reducible apply State.mk_pok | with_reducible apply State.mk_ok)

theorem State.toVictim_ok {b₀ : State} (s : State) (l : Line) (hs : s.Ok b₀) : (State.toVictim s l).Ok b₀ := by
  unfold State.toVictim; try dsimp -proj only
  repeat' (first | with_reducible assumption | with_reducible exact fun h => h | with_reducible exact fun h => Tab.wf_setD h _ _ | with_reducible exact fun h => Tab.wf_filter h _ | with_reducible exact fun _ => Tab.wf_nil _ | with_reducible exact fun h => Tab.wf_mapCmds _ h | with_reducible exact fun h => Tab.wf_foldl_setD _ _ _ h | intro _ | with_reducible apply State.foldl_ok | with_reducible apply State.foldl_pok | with_reducible apply State.modVictim_ok | with_reducible apply State.modCache_ok | with_reducible apply State.ite_ok | with_reducible apply State.fst_of | split | with_reducible apply State.mk_pok | with_reducible apply State.mk_ok)

theorem State.install_ok {b₀ : State} (s : State) (l : Line) (hs : s.Ok b₀) : State.POk b₀ (State.install s l) := by
  unfold State.install; try dsimp -proj only
  repeat' (first | with_reducible assumption | intro _ | with_reducible apply State.foldl_ok | with_reducible apply State.foldl_pok | with_reducible apply State.modCache_ok | with_reducible apply State.victimRoom_ok | with_reducible apply State.toVictim_ok | with_reducible apply State.ite_ok | with_reducible apply State.ite_pok | with_reducible apply State.fst_of | split | with_reducible apply State.mk_pok)

theorem State.jobWait_ok {b₀ : State} (s : State) (tag : Nat) (hs : s.Ok b₀) : (State.jobWait s tag).Ok b₀ := by
  unfold State.jobWait; try dsimp -proj only
  repeat' (first | with_reducible assumption | with_reducible exact fun h => h | with_reducible exact fun h => Tab.wf_setD h _ _ | with_reducible exact fun h => Tab.wf_filter h _ | with_reducible exact fun _ => Tab.wf_nil _ | with_reducible exact fun h => Tab.wf_mapCmds _ h | with_reducible exact fun h => Tab.wf_foldl_setD _ _ _ h | intro _ | with_reducible apply State.foldl_ok | with_reducible apply State.foldl_pok | with_reducible apply State.modCache_ok | with_reducible apply State.ite_ok | with_reducible apply State.fst_of | split | with_reducible apply State.mk_pok | with_reducible apply State.mk_ok)

theorem State.copyBack_ok {b₀ : State} (s : State) (k : Nat) (l : Line) (stay : Bool) (hs : s.Ok b₀) : (State.copyBack s k l stay).Ok b₀ := by
  unfold State.copyBack; try dsimp -proj only
  repeat' (first | with_reducible assumption | with_reducible exact fun h => h | with_reducible exact fun h => Tab.wf_setD h _ _ | with_reducible exact fun h => Tab.wf_filter h _ | with_reducible exact fun _ => Tab.wf_nil _ | with_reducible exact fun h => Tab.wf_mapCmds _ h | with_reducible exact fun h => Tab.wf_foldl_setD _ _ _ h | intro _ | with_reducible apply State.foldl_ok | with_reducible apply State.foldl_pok | with_reducible apply State.modCache_ok | with_reducible apply State.modVictim_ok | with_reducible apply State.victimRoom_ok | with_reducible apply State.startWb_ok | with_reducible apply State.jobWait_ok | with_reducible apply State.ite_ok | with_reducible apply State.fst_of | split | with_reducible apply State.mk_pok | with_reducible apply State.mk_ok)

theorem State.poisonMark_ok {b₀ : State} (s : State) (tag : Nat) (hs : s.Ok b₀) : (State.poisonMark s tag).Ok b₀ := by
  unfold State.poisonMark; try dsimp -proj only
  repeat' (first | with_reducible assumption | intro _ | with_reducible apply State.foldl_ok | with_reducible apply State.foldl_pok | with_reducible apply State.setReg_ok | with_reducible apply State.raise_ok | with_reducible apply State.blot_ok | with_reducible apply State.ite_ok | with_reducible apply State.fst_of | split | with_reducible apply State.mk_pok)

theorem State.wayUncorr_ok {b₀ : State} (s : State) (k : Nat) (hs : s.Ok b₀) : (State.wayUncorr s k).Ok b₀ := by
  unfold State.wayUncorr; try dsimp -proj only
  repeat' (first | with_reducible assumption | with_reducible exact fun h => h | with_reducible exact fun h => Tab.wf_setD h _ _ | with_reducible exact fun h => Tab.wf_filter h _ | with_reducible exact fun _ => Tab.wf_nil _ | with_reducible exact fun h => Tab.wf_mapCmds _ h | with_reducible exact fun h => Tab.wf_foldl_setD _ _ _ h | intro _ | with_reducible apply State.foldl_ok | with_reducible apply State.foldl_pok | with_reducible apply State.modCache_ok | with_reducible apply State.poisonMark_ok | with_reducible apply State.uncorrRow_ok | with_reducible apply State.ite_ok | with_reducible apply State.fst_of | split | with_reducible apply State.mk_pok | with_reducible apply State.mk_ok)

theorem State.victimUncorr_ok {b₀ : State} (s : State) (i tag : Nat) (hs : s.Ok b₀) : (State.victimUncorr s i tag).Ok b₀ := by
  unfold State.victimUncorr; try dsimp -proj only
  repeat' (first | with_reducible assumption | with_reducible exact fun h => h | with_reducible exact fun h => Tab.wf_setD h _ _ | with_reducible exact fun h => Tab.wf_filter h _ | with_reducible exact fun _ => Tab.wf_nil _ | with_reducible exact fun h => Tab.wf_mapCmds _ h | with_reducible exact fun h => Tab.wf_foldl_setD _ _ _ h | intro _ | with_reducible apply State.foldl_ok | with_reducible apply State.foldl_pok | with_reducible apply State.modVictim_ok | with_reducible apply State.poisonMark_ok | with_reducible apply State.modCache_ok | with_reducible apply State.ite_ok | with_reducible apply State.fst_of | split | with_reducible apply State.mk_pok | with_reducible apply State.mk_ok)

theorem State.tagParity_ok {b₀ : State} (s : State) (k : Nat) (hs : s.Ok b₀) : (State.tagParity s k).Ok b₀ := by
  unfold State.tagParity; try dsimp -proj only
  repeat' (first | with_reducible assumption | intro _ | with_reducible apply State.foldl_ok | with_reducible apply State.foldl_pok | with_reducible apply State.modCache_ok | with_reducible apply State.setReg_ok | with_reducible apply State.raise_ok | with_reducible apply State.blot_ok | with_reducible apply State.ite_ok | with_reducible apply State.fst_of | split | with_reducible apply State.mk_pok)

theorem State.hitWay_ok {b₀ : State} (s : State) (k o : Nat) (l : Line) (q : CcLookup) (hs : s.Ok b₀) : State.POk b₀ (State.hitWay s k o l q) := by
  unfold State.hitWay; try dsimp -proj only
  repeat' (first | with_reducible assumption | intro _ | with_reducible apply State.foldl_ok | with_reducible apply State.foldl_pok | with_reducible apply State.count_ok | with_reducible apply State.copyBack_ok | with_reducible apply State.modCache_ok | with_reducible apply State.ite_ok | with_reducible apply State.ite_pok | with_reducible apply State.fst_of | split | with_reducible apply State.mk_pok)

theorem State.moveBack_ok {b₀ : State} (s : State) (i : Nat) (l : Line) (hs : s.Ok b₀) : (State.moveBack s i l).Ok b₀ := by
  unfold State.moveBack; try dsimp -proj only
  repeat' (first | with_reducible assumption | with_reducible exact fun h => h | with_reducible exact fun h => Tab.wf_setD h _ _ | with_reducible exact fun h => Tab.wf_filter h _ | with_reducible exact fun _ => Tab.wf_nil _ | with_reducible exact fun h => Tab.wf_mapCmds _ h | with_reducible exact fun h => Tab.wf_foldl_setD _ _ _ h | intro _ | with_reducible apply State.foldl_ok | with_reducible apply State.foldl_pok | with_reducible apply State.modCache_ok | with_reducible apply State.modVictim_ok | with_reducible apply State.ite_ok | with_reducible apply State.fst_of | split | with_reducible apply State.mk_pok | with_reducible apply State.mk_ok)

theorem State.hitVictim_ok {b₀ : State} (s : State) (i o : Nat) (v : Victim) (q : CcLookup) (hs : s.Ok b₀) : State.POk b₀ (State.hitVictim s i o v q) := by
  unfold State.hitVictim; try dsimp -proj only
  repeat' (first | with_reducible assumption | with_reducible exact fun h => h | with_reducible exact fun h => Tab.wf_setD h _ _ | with_reducible exact fun h => Tab.wf_filter h _ | with_reducible exact fun _ => Tab.wf_nil _ | with_reducible exact fun h => Tab.wf_mapCmds _ h | with_reducible exact fun h => Tab.wf_foldl_setD _ _ _ h | intro _ | with_reducible apply State.foldl_ok | with_reducible apply State.foldl_pok | with_reducible apply State.count_ok | with_reducible apply State.modVictim_ok | with_reducible apply State.startWb_ok | with_reducible apply State.moveBack_ok | with_reducible apply State.ite_ok | with_reducible apply State.ite_pok | with_reducible apply State.fst_of | split | with_reducible apply State.mk_pok | with_reducible apply State.mk_ok)

theorem State.touch_ok {b₀ : State} (s : State) (tag o : Nat) (q : CcLookup) (hs : s.Ok b₀) : State.POk b₀ (State.touch s tag o q) := by
  unfold State.touch; try dsimp -proj only
  repeat' (first | with_reducible assumption | intro _ | with_reducible apply State.foldl_ok | with_reducible apply State.foldl_pok | with_reducible apply State.hitWay_ok | with_reducible apply State.hitVictim_ok | with_reducible apply State.ite_ok | with_reducible apply State.ite_pok | with_reducible apply State.fst_of | split | with_reducible apply State.mk_pok)

theorem State.ccCorrected_ok {b₀ : State} (s : State) (tag : Nat) (hs : s.Ok b₀) : (State.ccCorrected s tag).Ok b₀ := by
  unfold State.ccCorrected; try dsimp -proj only
  repeat' (first | with_reducible assumption | intro _ | with_reducible apply State.foldl_ok | with_reducible apply State.foldl_pok | with_reducible apply State.corrected_ok | with_reducible apply State.bucketAdd_ok | with_reducible apply State.ite_ok | with_reducible apply State.fst_of | split | with_reducible apply State.mk_pok)

theorem State.ccFind_ok {b₀ : State} (s : State) (tag off len : Nat) (err : CcFault) (hs : s.Ok b₀) : (State.ccFind s tag off len err).Ok b₀ := by
  unfold State.ccFind; try dsimp -proj only
  repeat' (first | with_reducible assumption | intro _ | with_reducible apply State.foldl_ok | with_reducible apply State.foldl_pok | with_reducible apply State.opportunities_ok | with_reducible apply State.tagParity_ok | with_reducible apply State.wayUncorr_ok | with_reducible apply State.victimUncorr_ok | with_reducible apply State.corrected_ok | with_reducible apply State.ccCorrected_ok | with_reducible apply State.ite_ok | with_reducible apply State.fst_of | split | with_reducible apply State.mk_pok)

theorem State.seqStore_ok {b₀ : State} (s : State) (u tag : Nat) (hs : s.Ok b₀) : (State.seqStore s u tag).Ok b₀ := by
  unfold State.seqStore; try dsimp -proj only
  repeat' (first | with_reducible assumption | with_reducible exact fun h => h | with_reducible exact fun h => Tab.wf_setD h _ _ | with_reducible exact fun h => Tab.wf_filter h _ | with_reducible exact fun _ => Tab.wf_nil _ | with_reducible exact fun h => Tab.wf_mapCmds _ h | with_reducible exact fun h => Tab.wf_foldl_setD _ _ _ h | intro _ | with_reducible apply State.foldl_ok | with_reducible apply State.foldl_pok | with_reducible apply State.modCache_ok | with_reducible apply State.ite_ok | with_reducible apply State.fst_of | split | with_reducible apply State.mk_pok | with_reducible apply State.mk_ok)

theorem State.fillFail_ok {b₀ : State} (s : State) (tag resp : Nat) (hs : s.Ok b₀) : (State.fillFail s tag resp).Ok b₀ := by
  unfold State.fillFail; try dsimp -proj only
  repeat' (first | with_reducible assumption | intro _ | with_reducible apply State.foldl_ok | with_reducible apply State.foldl_pok | with_reducible apply State.raise_ok | with_reducible apply State.blot_ok | with_reducible apply State.ite_ok | with_reducible apply State.fst_of | split | with_reducible apply State.mk_pok)

theorem State.discard_ok {b₀ : State} (s : State) (dirty : Bool) (hs : s.Ok b₀) : (State.discard s dirty).Ok b₀ := by
  unfold State.discard; try dsimp -proj only
  repeat' (first | with_reducible assumption | intro _ | with_reducible apply State.foldl_ok | with_reducible apply State.foldl_pok | with_reducible apply State.count_ok | with_reducible apply State.ite_ok | with_reducible apply State.fst_of | split | with_reducible apply State.mk_pok)

theorem State.opWay_ok {b₀ : State} (s : State) (op k : Nat) (l : Line) (hs : s.Ok b₀) : (State.opWay s op k l).Ok b₀ := by
  unfold State.opWay; try dsimp -proj only
  repeat' (first | with_reducible assumption | with_reducible exact fun h => h | with_reducible exact fun h => Tab.wf_setD h _ _ | with_reducible exact fun h => Tab.wf_filter h _ | with_reducible exact fun _ => Tab.wf_nil _ | with_reducible exact fun h => Tab.wf_mapCmds _ h | with_reducible exact fun h => Tab.wf_foldl_setD _ _ _ h | intro _ | with_reducible apply State.foldl_ok | with_reducible apply State.foldl_pok | with_reducible apply State.modCache_ok | with_reducible apply State.countField_ok | with_reducible apply State.copyBack_ok | with_reducible apply State.discard_ok | with_reducible apply State.ite_ok | with_reducible apply State.fst_of | split | with_reducible apply State.mk_pok | with_reducible apply State.mk_ok)

theorem State.opVictim_ok {b₀ : State} (s : State) (op : Nat) (v : Victim) (i : Nat) (hs : s.Ok b₀) : (State.opVictim s op v i).Ok b₀ := by
  unfold State.opVictim; try dsimp -proj only
  repeat' (first | with_reducible assumption | with_reducible exact fun h => h | with_reducible exact fun h => Tab.wf_setD h _ _ | with_reducible exact fun h => Tab.wf_filter h _ | with_reducible exact fun _ => Tab.wf_nil _ | with_reducible exact fun h => Tab.wf_mapCmds _ h | with_reducible exact fun h => Tab.wf_foldl_setD _ _ _ h | intro _ | with_reducible apply State.foldl_ok | with_reducible apply State.foldl_pok | with_reducible apply State.modCache_ok | with_reducible apply State.countField_ok | with_reducible apply State.startWb_ok | with_reducible apply State.modVictim_ok | with_reducible apply State.discard_ok | with_reducible apply State.moveBack_ok | with_reducible apply State.opWay_ok | with_reducible apply State.ite_ok | with_reducible apply State.fst_of | split | with_reducible apply State.mk_pok | with_reducible apply State.mk_ok)

theorem State.jobWrite_ok {b₀ : State} (s : State) (tag : Nat) (hs : s.Ok b₀) : (State.jobWrite s tag).Ok b₀ := by
  unfold State.jobWrite; try dsimp -proj only
  repeat' (first | with_reducible assumption | with_reducible exact fun h => h | with_reducible exact fun h => Tab.wf_setD h _ _ | with_reducible exact fun h => Tab.wf_filter h _ | with_reducible exact fun _ => Tab.wf_nil _ | with_reducible exact fun h => Tab.wf_mapCmds _ h | with_reducible exact fun h => Tab.wf_foldl_setD _ _ _ h | intro _ | with_reducible apply State.foldl_ok | with_reducible apply State.foldl_pok | with_reducible apply State.modCache_ok | with_reducible apply State.ite_ok | with_reducible apply State.fst_of | split | with_reducible apply State.mk_pok | with_reducible apply State.mk_ok)

theorem State.jobWritten_ok {b₀ : State} (s : State) (tag : Nat) (hs : s.Ok b₀) : (State.jobWritten s tag).Ok b₀ := by
  unfold State.jobWritten; try dsimp -proj only
  repeat' (first | with_reducible assumption | with_reducible exact fun h => h | with_reducible exact fun h => Tab.wf_setD h _ _ | with_reducible exact fun h => Tab.wf_filter h _ | with_reducible exact fun _ => Tab.wf_nil _ | with_reducible exact fun h => Tab.wf_mapCmds _ h | with_reducible exact fun h => Tab.wf_foldl_setD _ _ _ h | intro _ | with_reducible apply State.foldl_ok | with_reducible apply State.foldl_pok | with_reducible apply State.modCache_ok | with_reducible apply State.ite_ok | with_reducible apply State.fst_of | split | with_reducible apply State.mk_pok | with_reducible apply State.mk_ok)

theorem State.visit_ok {b₀ : State} (s : State) (op tag : Nat) (hs : s.Ok b₀) : (State.visit s op tag).Ok b₀ := by
  unfold State.visit; try dsimp -proj only
  repeat' (first | with_reducible assumption | intro _ | with_reducible apply State.foldl_ok | with_reducible apply State.foldl_pok | with_reducible apply State.jobWait_ok | with_reducible apply State.opWay_ok | with_reducible apply State.opVictim_ok | with_reducible apply State.jobWrite_ok | with_reducible apply State.ite_ok | with_reducible apply State.fst_of | split | with_reducible apply State.mk_pok)

theorem State.setMiss_ok {b₀ : State} (s : State) (r : Nat) (m : Option Miss) (hs : s.Ok b₀) : (State.setMiss s r m).Ok b₀ := by
  unfold State.setMiss; try dsimp -proj only
  repeat' (first | with_reducible assumption | with_reducible exact fun h => h | with_reducible exact fun h => Tab.wf_setD h _ _ | with_reducible exact fun h => Tab.wf_filter h _ | with_reducible exact fun _ => Tab.wf_nil _ | with_reducible exact fun h => Tab.wf_mapCmds _ h | with_reducible exact fun h => Tab.wf_foldl_setD _ _ _ h | intro _ | with_reducible apply State.foldl_ok | with_reducible apply State.foldl_pok | with_reducible apply State.modCache_ok | with_reducible apply State.ite_ok | with_reducible apply State.fst_of | split | with_reducible apply State.mk_pok | with_reducible apply State.mk_ok)

theorem State.serve_ok {b₀ : State} (s : State) (tag : Nat) (e : MissOp) (d : Option Beat) (hs : s.Ok b₀) : (State.serve s tag e d).Ok b₀ := by
  unfold State.serve; try dsimp -proj only
  repeat' (first | with_reducible assumption | with_reducible exact fun h => h | with_reducible exact fun h => Tab.wf_setD h _ _ | with_reducible exact fun h => Tab.wf_filter h _ | with_reducible exact fun _ => Tab.wf_nil _ | with_reducible exact fun h => Tab.wf_mapCmds _ h | with_reducible exact fun h => Tab.wf_foldl_setD _ _ _ h | intro _ | with_reducible apply State.foldl_ok | with_reducible apply State.foldl_pok | with_reducible apply State.modCache_ok | with_reducible apply State.ite_ok | with_reducible apply State.fst_of | split | with_reducible apply State.mk_pok | with_reducible apply State.mk_ok)

theorem State.serveAll_ok {b₀ : State} (s : State) (tag : Nat) (l : List MissOp) (b : Beat) (hs : s.Ok b₀) : (State.serveAll s tag l b).Ok b₀ := by
  unfold State.serveAll; try dsimp -proj only
  repeat' (first | with_reducible assumption | intro _ | with_reducible apply State.foldl_ok | with_reducible apply State.foldl_pok | with_reducible apply State.serve_ok | with_reducible apply State.ite_ok | with_reducible apply State.fst_of | split | with_reducible apply State.mk_pok)

theorem State.patchServed_ok {b₀ : State} (s : State) (tag : Nat) (e : MissOp) (hs : s.Ok b₀) : (State.patchServed s tag e).Ok b₀ := by
  unfold State.patchServed; try dsimp -proj only
  repeat' (first | with_reducible assumption | with_reducible exact fun h => h | with_reducible exact fun h => Tab.wf_setD h _ _ | with_reducible exact fun h => Tab.wf_filter h _ | with_reducible exact fun _ => Tab.wf_nil _ | with_reducible exact fun h => Tab.wf_mapCmds _ h | with_reducible exact fun h => Tab.wf_foldl_setD _ _ _ h | intro _ | with_reducible apply State.foldl_ok | with_reducible apply State.foldl_pok | with_reducible apply State.modCache_ok | with_reducible apply State.ite_ok | with_reducible apply State.fst_of | split | with_reducible apply State.mk_pok | with_reducible apply State.mk_ok)

theorem State.startFill_ok {b₀ : State} (s : State) (r tag : Nat) (l : List MissOp) (merges : Nat) (hs : s.Ok b₀) : (State.startFill s r tag l merges).Ok b₀ := by
  unfold State.startFill; try dsimp -proj only
  repeat' (first | with_reducible assumption | intro _ | with_reducible apply State.foldl_ok | with_reducible apply State.foldl_pok | with_reducible apply State.setMiss_ok | with_reducible apply State.install_ok | with_reducible apply State.hpPush_ok | with_reducible apply State.count_ok | with_reducible apply State.ite_ok | with_reducible apply State.fst_of | split | with_reducible apply State.mk_pok)

theorem State.startAround_ok {b₀ : State} (s : State) (r tag : Nat) (e : MissOp) (rest : List MissOp) (merges : Nat) (hs : s.Ok b₀) : (State.startAround s r tag e rest merges).Ok b₀ := by
  unfold State.startAround; try dsimp -proj only
  repeat' (first | with_reducible assumption | intro _ | with_reducible apply State.foldl_ok | with_reducible apply State.foldl_pok | with_reducible apply State.setMiss_ok | with_reducible apply State.install_ok | with_reducible apply State.rest_ok | with_reducible apply State.hpPush_ok | with_reducible apply State.count_ok | with_reducible apply State.ite_ok | with_reducible apply State.fst_of | split | with_reducible apply State.mk_pok)

theorem State.preload_ok {b₀ : State} (s : State) (tag : Nat) (hs : s.Ok b₀) : (State.preload s tag).Ok b₀ := by
  unfold State.preload; try dsimp -proj only
  repeat' (first | with_reducible assumption | with_reducible exact fun h => h | with_reducible exact fun h => Tab.wf_setD h _ _ | with_reducible exact fun h => Tab.wf_filter h _ | with_reducible exact fun _ => Tab.wf_nil _ | with_reducible exact fun h => Tab.wf_mapCmds _ h | with_reducible exact fun h => Tab.wf_foldl_setD _ _ _ h | intro _ | with_reducible apply State.foldl_ok | with_reducible apply State.foldl_pok | with_reducible apply State.modCache_ok | with_reducible apply State.count_ok | with_reducible apply State.startFill_ok | with_reducible apply State.ite_ok | with_reducible apply State.fst_of | split | with_reducible apply State.mk_pok | with_reducible apply State.mk_ok)

theorem State.jobLine_ok {b₀ : State} (s : State) (tag : Nat) (hs : s.Ok b₀) : (State.jobLine s tag).Ok b₀ := by
  unfold State.jobLine; try dsimp -proj only
  repeat' (first | with_reducible assumption | with_reducible exact fun h => h | with_reducible exact fun h => Tab.wf_setD h _ _ | with_reducible exact fun h => Tab.wf_filter h _ | with_reducible exact fun _ => Tab.wf_nil _ | with_reducible exact fun h => Tab.wf_mapCmds _ h | with_reducible exact fun h => Tab.wf_foldl_setD _ _ _ h | intro _ | with_reducible apply State.foldl_ok | with_reducible apply State.foldl_pok | with_reducible apply State.preload_ok | with_reducible apply State.modCache_ok | with_reducible apply State.visit_ok | with_reducible apply State.ite_ok | with_reducible apply State.fst_of | split | with_reducible apply State.mk_pok | with_reducible apply State.mk_ok)

theorem State.jobWaits_ok {b₀ : State} (s : State) (hs : s.Ok b₀) : (State.jobWaits s).Ok b₀ := by
  unfold State.jobWaits; try dsimp -proj only
  repeat' (first | with_reducible assumption | intro _ | with_reducible apply State.foldl_ok | with_reducible apply State.foldl_pok | with_reducible apply State.jobLine_ok | with_reducible apply State.ite_ok | with_reducible apply State.fst_of | split | with_reducible apply State.mk_pok)

theorem State.missNext_ok {b₀ : State} (s : State) (r tag : Nat) (l : List MissOp) (merges : Nat) (hs : s.Ok b₀) : (State.missNext s r tag l merges).Ok b₀ := by
  unfold State.missNext; try dsimp -proj only
  repeat' (first | with_reducible assumption | intro _ | with_reducible apply State.foldl_ok | with_reducible apply State.foldl_pok | with_reducible apply State.setMiss_ok | with_reducible apply State.jobWaits_ok | with_reducible apply State.rest_ok | with_reducible apply State.startFill_ok | with_reducible apply State.startAround_ok | with_reducible apply State.ite_ok | with_reducible apply State.fst_of | split | with_reducible apply State.mk_pok)

theorem State.fillDone_ok {b₀ : State} (s : State) (r : Nat) (m : Miss) (resp : Nat) (b : Beat) (hs : s.Ok b₀) : (State.fillDone s r m resp b).Ok b₀ := by
  unfold State.fillDone; try dsimp -proj only
  repeat' (first | with_reducible assumption | intro _ | with_reducible apply State.foldl_ok | with_reducible apply State.foldl_pok | with_reducible apply State.serve_ok | with_reducible apply State.setMiss_ok | with_reducible apply State.fillFail_ok | with_reducible apply State.jobWaits_ok | with_reducible apply State.hostPut_ok | with_reducible apply State.install_ok | with_reducible apply State.serveAll_ok | with_reducible apply State.missNext_ok | with_reducible apply State.ite_ok | with_reducible apply State.fst_of | split | with_reducible apply State.mk_pok)

theorem State.aroundStatus_ok {b₀ : State} (s : State) (reg resp : Nat) (hs : s.Ok b₀) : (State.aroundStatus s reg resp).Ok b₀ := by
  unfold State.aroundStatus; try dsimp -proj only
  repeat' (first | with_reducible assumption | intro _ | with_reducible apply State.foldl_ok | with_reducible apply State.foldl_pok | with_reducible apply State.raise_ok | with_reducible apply State.blot_ok | with_reducible apply State.patchServed_ok | with_reducible apply State.serve_ok | with_reducible apply State.missNext_ok | with_reducible apply State.ite_ok | with_reducible apply State.fst_of | split | with_reducible apply State.mk_pok)

theorem State.rangeErr_ok {b₀ : State} (s : State) (off : Nat) (hs : s.Ok b₀) : (State.rangeErr s off).Ok b₀ := by
  unfold State.rangeErr; try dsimp -proj only
  repeat' (first | with_reducible assumption | intro _ | with_reducible apply State.foldl_ok | with_reducible apply State.foldl_pok | with_reducible apply State.blot_ok | with_reducible apply State.ite_ok | with_reducible apply State.fst_of | split | with_reducible apply State.mk_pok)

theorem State.want_ok {b₀ : State} (s : State) (off : Nat) (q : CcLookup) (cc : CcFault) (hs : s.Ok b₀) : (State.want s off q cc).Ok b₀ := by
  unfold State.want; try dsimp -proj only
  repeat' (first | with_reducible assumption | with_reducible exact fun h => h | with_reducible exact fun h => Tab.wf_setD h _ _ | with_reducible exact fun h => Tab.wf_filter h _ | with_reducible exact fun _ => Tab.wf_nil _ | with_reducible exact fun h => Tab.wf_mapCmds _ h | with_reducible exact fun h => Tab.wf_foldl_setD _ _ _ h | intro _ | with_reducible apply State.foldl_ok | with_reducible apply State.foldl_pok | with_reducible apply State.modCache_ok | with_reducible apply State.ite_ok | with_reducible apply State.fst_of | split | with_reducible apply State.mk_pok | with_reducible apply State.mk_ok)

theorem State.takeServed_ok {b₀ : State} (s : State) (v : LookAnswer) (hs : s.Ok b₀) : State.POk b₀ (State.takeServed s v) := by
  unfold State.takeServed; try dsimp -proj only
  repeat' (first | with_reducible assumption | with_reducible exact fun h => h | with_reducible exact fun h => Tab.wf_setD h _ _ | with_reducible exact fun h => Tab.wf_filter h _ | with_reducible exact fun _ => Tab.wf_nil _ | with_reducible exact fun h => Tab.wf_mapCmds _ h | with_reducible exact fun h => Tab.wf_foldl_setD _ _ _ h | intro _ | with_reducible apply State.foldl_ok | with_reducible apply State.foldl_pok | with_reducible apply State.modCache_ok | with_reducible apply State.ite_ok | with_reducible apply State.ite_pok | with_reducible apply State.fst_of | split | with_reducible apply State.mk_pok | with_reducible apply State.mk_ok)

theorem State.lookup_ok {b₀ : State} (s : State) (off : Nat) (q : CcLookup) (cc : CcFault) (hs : s.Ok b₀) : State.POk b₀ (State.lookup s off q cc) := by
  unfold State.lookup; try dsimp -proj only
  repeat' (first | with_reducible assumption | intro _ | with_reducible apply State.foldl_ok | with_reducible apply State.foldl_pok | with_reducible apply State.takeServed_ok | with_reducible apply State.seqStore_ok | with_reducible apply State.ccFind_ok | with_reducible apply State.touch_ok | with_reducible apply State.want_ok | with_reducible apply State.rangeErr_ok | with_reducible apply State.ite_ok | with_reducible apply State.ite_pok | with_reducible apply State.fst_of | split | with_reducible apply State.mk_pok)

theorem State.ccLoad_ok {b₀ : State} (s : State) (u : Asker) (off len : Nat) (cc : CcFault) (hs : s.Ok b₀) : State.POk b₀ (State.ccLoad s u off len cc) := by
  unfold State.ccLoad; try dsimp -proj only
  repeat' (first | with_reducible assumption | intro _ | with_reducible apply State.foldl_ok | with_reducible apply State.foldl_pok | with_reducible apply State.lookup_ok | with_reducible apply State.ite_ok | with_reducible apply State.ite_pok | with_reducible apply State.fst_of | split | with_reducible apply State.mk_pok)

theorem State.ccStore_ok {b₀ : State} (s : State) (u : Asker) (off : Nat) (bytes : List Byte) (cc : CcFault) (hs : s.Ok b₀) : State.POk b₀ (State.ccStore s u off bytes cc) := by
  unfold State.ccStore; try dsimp -proj only
  repeat' (first | with_reducible assumption | with_reducible exact fun h => h | with_reducible exact fun h => Tab.wf_setD h _ _ | with_reducible exact fun h => Tab.wf_filter h _ | with_reducible exact fun _ => Tab.wf_nil _ | with_reducible exact fun h => Tab.wf_mapCmds _ h | with_reducible exact fun h => Tab.wf_foldl_setD _ _ _ h | intro _ | with_reducible apply State.foldl_ok | with_reducible apply State.foldl_pok | with_reducible apply State.lookup_ok | with_reducible apply State.ite_ok | with_reducible apply State.ite_pok | with_reducible apply State.fst_of | split | with_reducible apply State.mk_pok | with_reducible apply State.mk_ok)

/-- A lookup that is granted keeps `Ok`. -/
theorem State.ccLook_ok {b₀ : State} (s t : State) (a : Nat) (q : CcLookup) (cc : CcFault) (inner : Bool) (hs : s.Ok b₀)
    (h : s.ccLook a q cc inner = some t) : t.Ok b₀ := by
  unfold State.ccLook at h; dsimp -proj only at h
  repeat' split at h
  all_goals first
    | (injection h with h; subst h
       repeat' (first | with_reducible assumption | intro _ | with_reducible apply State.foldl_ok | with_reducible apply State.setMiss_ok | with_reducible apply State.seqStore_ok | with_reducible apply State.count_ok | with_reducible apply State.serve_ok | with_reducible apply State.startAround_ok | with_reducible apply State.startFill_ok | with_reducible apply State.ccFind_ok | with_reducible apply State.touch_ok | with_reducible apply State.ite_ok | with_reducible apply State.fst_of | split)
       )
    | cases h

theorem execCcLookup_runs {b₀ : State} (off : BitVec 30) (q : CcLookup) (err : CcFault) (s : State) (hs : s.Ok b₀) : Runs b₀ (execCcLookup off q err s) := by
  unfold execCcLookup
  split
  · exact runs_idle _ hs
  · split
    · exact runs_done _ _ hs (State.rangeErr_ok _ _ hs)
    · split
      · exact runs_done _ _ hs (State.ccLook_ok _ _ _ _ _ _ hs ‹_›)
      · exact runs_idle _ hs

theorem State.backTo_ok {b₀ : State} (s t : State) (hs : s.Ok b₀) (ht : t.Ok b₀) : (State.backTo s t).Ok b₀ := by
  unfold State.backTo; split <;> assumption
theorem State.waited_ok {b₀ : State} (s t : State) (hs : s.Ok b₀) (ht : t.Ok b₀) : (State.waited s t).Ok b₀ := by
  unfold State.waited
  split
  · exact ht
  · cases h : s.ccLook _ _ _ true with
    | none => exact hs
    | some u => exact State.ccLook_ok _ _ _ _ _ _ hs h

theorem looked_runs {b₀ : State} (s t : State) (hs : s.Ok b₀) (ht : t.Ok b₀) : Runs b₀ (looked s t) := by
  unfold looked; try dsimp -proj only
  repeat' (first | with_reducible assumption | intro _ | with_reducible apply State.foldl_ok | with_reducible apply State.foldl_pok | with_reducible apply runs_done | with_reducible apply runs_idle | with_reducible apply runs_ite | with_reducible apply runs_next | with_reducible apply State.waited_ok | with_reducible apply State.ite_ok | with_reducible apply State.ite_pok | with_reducible apply State.fst_of | split | with_reducible apply State.mk_pok)

theorem State.hold_ok {b₀ : State} (s : State) (h : Held) (hs : s.Ok b₀) : (State.hold s h).Ok b₀ := by
  unfold State.hold; try dsimp -proj only
  repeat' (first | with_reducible assumption | with_reducible exact fun h => h | with_reducible exact fun h => Tab.wf_setD h _ _ | with_reducible exact fun h => Tab.wf_filter h _ | with_reducible exact fun _ => Tab.wf_nil _ | with_reducible exact fun h => Tab.wf_mapCmds _ h | with_reducible exact fun h => Tab.wf_foldl_setD _ _ _ h | intro _ | with_reducible apply State.foldl_ok | with_reducible apply State.foldl_pok | with_reducible apply State.modCache_ok | with_reducible apply State.orReg_ok | with_reducible apply State.ite_ok | with_reducible apply State.fst_of | split | with_reducible apply State.mk_pok | with_reducible apply State.mk_ok)

theorem State.attempt_ok {b₀ : State} (h : Held) (f : CcFault → State → State) (hf : ∀ x0 t, t.Ok b₀ → (f x0 t).Ok b₀) :
    ∀ (n : Nat) (cc : CcFault) (s : State), s.Ok b₀ → (State.attempt n s h cc f).Ok b₀
  | 0, _, s, hs => State.hold_ok s h hs
  | n + 1, cc, s, hs => by
    unfold State.attempt; dsimp only
    split
    · exact hf _ _ hs
    · split
      · exact State.hold_ok s h hs
      · have k := State.ccLook_ok _ _ _ _ _ _ hs ‹_›
        split
        · exact State.attempt_ok h f hf n _ _ k
        · exact State.hold_ok _ h k

theorem State.begins_ok {b₀ : State} (s : State) (h : Held) (cc : CcFault) (f : CcFault → State → State) (hs : s.Ok b₀) (hf : ∀ x0 t, t.Ok b₀ → (f x0 t).Ok b₀) : (State.begins s h cc f).Ok b₀ := by
  unfold State.begins
  split
  · exact State.hold_ok s h hs
  · exact State.modCache_ok _ _ (State.attempt_ok h f hf _ _ _ (State.modCache_ok _ _ hs))

theorem State.armRetry_ok {b₀ : State} (s : State) (hs : s.Ok b₀) : (State.armRetry s).Ok b₀ := by
  unfold State.armRetry; try dsimp -proj only
  repeat' (first | with_reducible assumption | with_reducible exact fun h => h | with_reducible exact fun h => Tab.wf_setD h _ _ | with_reducible exact fun h => Tab.wf_filter h _ | with_reducible exact fun _ => Tab.wf_nil _ | with_reducible exact fun h => Tab.wf_mapCmds _ h | with_reducible exact fun h => Tab.wf_foldl_setD _ _ _ h | intro _ | with_reducible apply State.foldl_ok | with_reducible apply State.foldl_pok | with_reducible apply State.modCache_ok | with_reducible apply State.ite_ok | with_reducible apply State.fst_of | split | with_reducible apply State.mk_pok | with_reducible apply State.mk_ok)

theorem State.wbStatus_ok {b₀ : State} (s0 : State) (i : Nat) (v : Victim) (resp : Nat) (hs0 : s0.Ok b₀) : (State.wbStatus s0 i v resp).Ok b₀ := by
  unfold State.wbStatus; try dsimp -proj only
  repeat' (first | with_reducible assumption | with_reducible exact fun h => h | with_reducible exact fun h => Tab.wf_setD h _ _ | with_reducible exact fun h => Tab.wf_filter h _ | with_reducible exact fun _ => Tab.wf_nil _ | with_reducible exact fun h => Tab.wf_mapCmds _ h | with_reducible exact fun h => Tab.wf_foldl_setD _ _ _ h | intro _ | with_reducible apply State.foldl_ok | with_reducible apply State.foldl_pok | with_reducible apply State.jobWritten_ok | with_reducible apply State.rest_ok | with_reducible apply State.modVictim_ok | with_reducible apply State.startWb_ok | with_reducible apply State.jobWrite_ok | with_reducible apply State.modCache_ok | with_reducible apply State.moveBack_ok | with_reducible apply State.armRetry_ok | with_reducible apply State.raise_ok | with_reducible apply State.blot_ok | with_reducible apply State.jobWaits_ok | with_reducible apply State.ite_ok | with_reducible apply State.fst_of | split | with_reducible apply State.mk_pok | with_reducible apply State.mk_ok)

theorem execCcWritebackStatus_runs {b₀ : State} (slot : Fin 32) (s : State) (hs : s.Ok b₀) : Runs b₀ (execCcWritebackStatus slot s) := by
  unfold execCcWritebackStatus; try dsimp -proj only
  repeat' (first | with_reducible assumption | intro _ | with_reducible apply State.foldl_ok | with_reducible apply State.foldl_pok | with_reducible apply runs_done | with_reducible apply runs_idle | with_reducible apply runs_ite | with_reducible apply runs_next | with_reducible apply State.wbStatus_ok | with_reducible apply State.ite_ok | with_reducible apply State.ite_pok | with_reducible apply State.fst_of | split | with_reducible apply State.mk_pok)

theorem State.stick_ok {b₀ : State} (s : State) (notify : Bool) (n : Nat) (hs : s.Ok b₀) : (State.stick s notify n).Ok b₀ := by
  unfold State.stick; try dsimp -proj only
  repeat' (first | with_reducible assumption | with_reducible exact fun h => h | with_reducible exact fun h => Tab.wf_setD h _ _ | with_reducible exact fun h => Tab.wf_filter h _ | with_reducible exact fun _ => Tab.wf_nil _ | with_reducible exact fun h => Tab.wf_mapCmds _ h | with_reducible exact fun h => Tab.wf_foldl_setD _ _ _ h | intro _ | with_reducible apply State.foldl_ok | with_reducible apply State.foldl_pok | with_reducible apply State.armRetry_ok | with_reducible apply State.modCache_ok | with_reducible apply State.ite_ok | with_reducible apply State.fst_of | split | with_reducible apply State.mk_pok | with_reducible apply State.mk_ok)

theorem State.retryWb_ok {b₀ : State} (s : State) (hs : s.Ok b₀) : (State.retryWb s).Ok b₀ := by
  unfold State.retryWb; try dsimp -proj only
  repeat' (first | with_reducible assumption | intro _ | with_reducible apply State.foldl_ok | with_reducible apply State.foldl_pok | with_reducible apply State.startWb_ok | with_reducible apply State.ite_ok | with_reducible apply State.fst_of | split | with_reducible apply State.mk_pok)

theorem State.maintResult_ok {b₀ : State} (s : State) (r : Nat) (hs : s.Ok b₀) : (State.maintResult s r).Ok b₀ := by
  unfold State.maintResult; try dsimp -proj only
  repeat' (first | with_reducible assumption | intro _ | with_reducible apply State.foldl_ok | with_reducible apply State.foldl_pok | with_reducible apply State.modReg_ok | with_reducible apply State.ite_ok | with_reducible apply State.fst_of | split | with_reducible apply State.mk_pok)

theorem State.preloadFind_ok {b₀ : State} (s : State) (bad : Option (Fin 32768)) (hs : s.Ok b₀) : (State.preloadFind s bad).Ok b₀ := by
  unfold State.preloadFind; try dsimp -proj only
  repeat' (first | with_reducible assumption | intro _ | with_reducible apply State.foldl_ok | with_reducible apply State.foldl_pok | with_reducible apply State.tagParity_ok | with_reducible apply State.ite_ok | with_reducible apply State.fst_of | split | with_reducible apply State.mk_pok)

theorem State.maint_ok {b₀ : State} (s : State) (op : Nat) (hs : s.Ok b₀) : (State.maint s op).Ok b₀ := by
  unfold State.maint; try dsimp -proj only
  repeat' (first | with_reducible assumption | with_reducible exact fun h => h | with_reducible exact fun h => Tab.wf_setD h _ _ | with_reducible exact fun h => Tab.wf_filter h _ | with_reducible exact fun _ => Tab.wf_nil _ | with_reducible exact fun h => Tab.wf_mapCmds _ h | with_reducible exact fun h => Tab.wf_foldl_setD _ _ _ h | intro _ | with_reducible apply State.foldl_ok | with_reducible apply State.foldl_pok | with_reducible apply State.maintResult_ok | with_reducible apply State.setReg_ok | with_reducible apply State.modCache_ok | with_reducible apply State.jobWaits_ok | with_reducible apply State.visit_ok | with_reducible apply State.ite_ok | with_reducible apply State.fst_of | split | with_reducible apply State.mk_pok | with_reducible apply State.mk_ok)

theorem State.maintWrite_ok {b₀ : State} (s : State) (op : Nat) (a : RpAcc) (hs : s.Ok b₀) : (State.maintWrite s op a).Ok b₀ := by
  unfold State.maintWrite; try dsimp -proj only
  repeat' (first | with_reducible assumption | intro _ | with_reducible apply State.foldl_ok | with_reducible apply State.foldl_pok | with_reducible apply State.portWrite_ok | with_reducible apply State.maint_ok | with_reducible apply State.ite_ok | with_reducible apply State.fst_of | split | with_reducible apply State.mk_pok)

theorem execCcClean_runs {b₀ : State} (a : RpAcc) (s : State) (hs : s.Ok b₀) : Runs b₀ (execCcClean a s) := by
  unfold execCcClean; try dsimp -proj only
  repeat' (first | with_reducible assumption | intro _ | with_reducible apply State.foldl_ok | with_reducible apply State.foldl_pok | with_reducible apply runs_done | with_reducible apply runs_idle | with_reducible apply runs_ite | with_reducible apply runs_next | with_reducible apply State.maintWrite_ok | with_reducible apply State.ite_ok | with_reducible apply State.ite_pok | with_reducible apply State.fst_of | split | with_reducible apply State.mk_pok)

theorem execCcInvalidate_runs {b₀ : State} (a : RpAcc) (s : State) (hs : s.Ok b₀) : Runs b₀ (execCcInvalidate a s) := by
  unfold execCcInvalidate; try dsimp -proj only
  repeat' (first | with_reducible assumption | intro _ | with_reducible apply State.foldl_ok | with_reducible apply State.foldl_pok | with_reducible apply runs_done | with_reducible apply runs_idle | with_reducible apply runs_ite | with_reducible apply runs_next | with_reducible apply State.maintWrite_ok | with_reducible apply State.ite_ok | with_reducible apply State.ite_pok | with_reducible apply State.fst_of | split | with_reducible apply State.mk_pok)

theorem execCcCleanInvalidate_runs {b₀ : State} (a : RpAcc) (s : State) (hs : s.Ok b₀) : Runs b₀ (execCcCleanInvalidate a s) := by
  unfold execCcCleanInvalidate; try dsimp -proj only
  repeat' (first | with_reducible assumption | intro _ | with_reducible apply State.foldl_ok | with_reducible apply State.foldl_pok | with_reducible apply runs_done | with_reducible apply runs_idle | with_reducible apply runs_ite | with_reducible apply runs_next | with_reducible apply State.maintWrite_ok | with_reducible apply State.ite_ok | with_reducible apply State.ite_pok | with_reducible apply State.fst_of | split | with_reducible apply State.mk_pok)

theorem execPreloadLock_runs {b₀ : State} (a : RpAcc) (bad : Option (Fin 32768)) (s : State) (hs : s.Ok b₀) : Runs b₀ (execPreloadLock a bad s) := by
  unfold execPreloadLock; try dsimp -proj only
  repeat' (first | with_reducible assumption | intro _ | with_reducible apply State.foldl_ok | with_reducible apply State.foldl_pok | with_reducible apply runs_done | with_reducible apply runs_idle | with_reducible apply runs_ite | with_reducible apply runs_next | with_reducible apply State.portWrite_ok | with_reducible apply State.maint_ok | with_reducible apply State.preloadFind_ok | with_reducible apply State.ite_ok | with_reducible apply State.ite_pok | with_reducible apply State.fst_of | split | with_reducible apply State.mk_pok)

theorem execUnlock_runs {b₀ : State} (a : RpAcc) (s : State) (hs : s.Ok b₀) : Runs b₀ (execUnlock a s) := by
  unfold execUnlock; try dsimp -proj only
  repeat' (first | with_reducible assumption | intro _ | with_reducible apply State.foldl_ok | with_reducible apply State.foldl_pok | with_reducible apply runs_done | with_reducible apply runs_idle | with_reducible apply runs_ite | with_reducible apply runs_next | with_reducible apply State.maintWrite_ok | with_reducible apply State.ite_ok | with_reducible apply State.ite_pok | with_reducible apply State.fst_of | split | with_reducible apply State.mk_pok)

theorem execInvalAll_runs {b₀ : State} (a : RpAcc) (s : State) (hs : s.Ok b₀) : Runs b₀ (execInvalAll a s) := by
  unfold execInvalAll; try dsimp -proj only
  repeat' (first | with_reducible assumption | intro _ | with_reducible apply State.foldl_ok | with_reducible apply State.foldl_pok | with_reducible apply runs_done | with_reducible apply runs_idle | with_reducible apply runs_ite | with_reducible apply runs_next | with_reducible apply State.maintWrite_ok | with_reducible apply State.ite_ok | with_reducible apply State.ite_pok | with_reducible apply State.fst_of | split | with_reducible apply State.mk_pok)

theorem State.drain_ok {b₀ : State} (s : State) (hs : s.Ok b₀) : (State.drain s).Ok b₀ := by
  unfold State.drain; try dsimp -proj only
  repeat' (first | with_reducible assumption | with_reducible exact fun h => h | with_reducible exact fun h => Tab.wf_setD h _ _ | with_reducible exact fun h => Tab.wf_filter h _ | with_reducible exact fun _ => Tab.wf_nil _ | with_reducible exact fun h => Tab.wf_mapCmds _ h | with_reducible exact fun h => Tab.wf_foldl_setD _ _ _ h | intro _ | with_reducible apply State.foldl_ok | with_reducible apply State.foldl_pok | with_reducible apply State.modCache_ok | with_reducible apply State.visit_ok | with_reducible apply State.ite_ok | with_reducible apply State.fst_of | split | with_reducible apply State.mk_pok | with_reducible apply State.mk_ok)

theorem State.needInval_ok {b₀ : State} (s : State) (hs : s.Ok b₀) : (State.needInval s).Ok b₀ := by
  unfold State.needInval; try dsimp -proj only
  repeat' (first | with_reducible assumption | intro _ | with_reducible apply State.foldl_ok | with_reducible apply State.foldl_pok | with_reducible apply State.orReg_ok | with_reducible apply State.ite_ok | with_reducible apply State.fst_of | split | with_reducible apply State.mk_pok)

theorem execCcEnable_runs {b₀ : State} (a : RpAcc) (s : State) (hs : s.Ok b₀) : Runs b₀ (execCcEnable a s) := by
  unfold execCcEnable; try dsimp -proj only
  repeat' (first | with_reducible assumption | with_reducible exact fun h => h | with_reducible exact fun h => Tab.wf_setD h _ _ | with_reducible exact fun h => Tab.wf_filter h _ | with_reducible exact fun _ => Tab.wf_nil _ | with_reducible exact fun h => Tab.wf_mapCmds _ h | with_reducible exact fun h => Tab.wf_foldl_setD _ _ _ h | intro _ | with_reducible apply State.foldl_ok | with_reducible apply State.foldl_pok | with_reducible apply runs_done | with_reducible apply runs_idle | with_reducible apply runs_ite | with_reducible apply runs_next | with_reducible apply State.portWrite_ok | with_reducible apply State.modCache_ok | with_reducible apply State.needInval_ok | with_reducible apply State.ite_ok | with_reducible apply State.ite_pok | with_reducible apply State.fst_of | split | with_reducible apply State.mk_pok | with_reducible apply State.mk_ok)

theorem execCcDisable_runs {b₀ : State} (a : RpAcc) (s : State) (hs : s.Ok b₀) : Runs b₀ (execCcDisable a s) := by
  unfold execCcDisable; try dsimp -proj only
  repeat' (first | with_reducible assumption | with_reducible exact fun h => h | with_reducible exact fun h => Tab.wf_setD h _ _ | with_reducible exact fun h => Tab.wf_filter h _ | with_reducible exact fun _ => Tab.wf_nil _ | with_reducible exact fun h => Tab.wf_mapCmds _ h | with_reducible exact fun h => Tab.wf_foldl_setD _ _ _ h | intro _ | with_reducible apply State.foldl_ok | with_reducible apply State.foldl_pok | with_reducible apply runs_done | with_reducible apply runs_idle | with_reducible apply runs_ite | with_reducible apply runs_next | with_reducible apply State.portWrite_ok | with_reducible apply State.modCache_ok | with_reducible apply State.drain_ok | with_reducible apply State.ite_ok | with_reducible apply State.ite_pok | with_reducible apply State.fst_of | split | with_reducible apply State.mk_pok | with_reducible apply State.mk_ok)

theorem execMaintDone_runs {b₀ : State} (s : State) (hs : s.Ok b₀) : Runs b₀ (execMaintDone s) := by
  unfold execMaintDone; try dsimp -proj only
  repeat' (first | with_reducible assumption | with_reducible exact fun h => h | with_reducible exact fun h => Tab.wf_setD h _ _ | with_reducible exact fun h => Tab.wf_filter h _ | with_reducible exact fun _ => Tab.wf_nil _ | with_reducible exact fun h => Tab.wf_mapCmds _ h | with_reducible exact fun h => Tab.wf_foldl_setD _ _ _ h | intro _ | with_reducible apply State.foldl_ok | with_reducible apply State.foldl_pok | with_reducible apply runs_done | with_reducible apply runs_idle | with_reducible apply runs_ite | with_reducible apply runs_next | with_reducible apply State.modCache_ok | with_reducible apply State.raise_ok | with_reducible apply State.drain_ok | with_reducible apply State.ite_ok | with_reducible apply State.ite_pok | with_reducible apply State.fst_of | split | with_reducible apply State.mk_pok | with_reducible apply State.mk_ok)

theorem execDrainDone_runs {b₀ : State} (s : State) (hs : s.Ok b₀) : Runs b₀ (execDrainDone s) := by
  unfold execDrainDone; try dsimp -proj only
  repeat' (first | with_reducible assumption | with_reducible exact fun h => h | with_reducible exact fun h => Tab.wf_setD h _ _ | with_reducible exact fun h => Tab.wf_filter h _ | with_reducible exact fun _ => Tab.wf_nil _ | with_reducible exact fun h => Tab.wf_mapCmds _ h | with_reducible exact fun h => Tab.wf_foldl_setD _ _ _ h | intro _ | with_reducible apply State.foldl_ok | with_reducible apply State.foldl_pok | with_reducible apply runs_done | with_reducible apply runs_idle | with_reducible apply runs_ite | with_reducible apply runs_next | with_reducible apply State.modCache_ok | with_reducible apply State.raise_ok | with_reducible apply State.ite_ok | with_reducible apply State.ite_pok | with_reducible apply State.fst_of | split | with_reducible apply State.mk_pok | with_reducible apply State.mk_ok)

end Sys2Proof.Machine
end

