-- ==== Sys2Proof/Laws/OkMedia.lean ====
section
/-! SUPPORT. The operations of Machine/Media.lean keep the canonical form of the tables and leave the build, the queue,
the pins, the fuses, the test port and the time alone. -/
namespace Sys2Proof.Machine
open Sys2Proof
set_option linter.unusedTactic false
set_option linter.unreachableTactic false
set_option linter.unusedVariables false

theorem State.dfCode_ok {b₀ : State} (s : State) (u : Asker) (die entry : Nat) (cc : CcFault) (hs : s.Ok b₀) : State.POk b₀ (State.dfCode s u die entry cc) := by
  unfold State.dfCode; try dsimp -proj only
  repeat' (first | with_reducible assumption | intro _ | with_reducible apply State.foldl_ok | with_reducible apply State.foldl_pok | with_reducible apply State.ccLoad_ok | with_reducible apply State.ite_ok | with_reducible apply State.ite_pok | with_reducible apply State.fst_of | split | with_reducible apply State.mk_pok)

theorem State.dfSet_ok {b₀ : State} (s : State) (u : Asker) (die entry code : Nat) (cc : CcFault) (hs : s.Ok b₀) : State.POk b₀ (State.dfSet s u die entry code cc) := by
  unfold State.dfSet; try dsimp -proj only
  repeat' (first | with_reducible assumption | intro _ | with_reducible apply State.foldl_ok | with_reducible apply State.foldl_pok | with_reducible apply State.ccLoad_ok | with_reducible apply State.ccStore_ok | with_reducible apply State.ite_ok | with_reducible apply State.ite_pok | with_reducible apply State.fst_of | split | with_reducible apply State.mk_pok)

theorem State.markEnd_ok {b₀ : State} (s : State) (result code : Nat) (hs : s.Ok b₀) : (State.markEnd s result code).Ok b₀ := by
  unfold State.markEnd; try dsimp -proj only
  repeat' (first | with_reducible assumption | intro _ | with_reducible apply State.foldl_ok | with_reducible apply State.foldl_pok | with_reducible apply State.setReg_ok | with_reducible apply State.result_ok | with_reducible apply State.raise_ok | with_reducible apply State.ite_ok | with_reducible apply State.fst_of | split | with_reducible apply State.mk_pok)

theorem State.markOp_ok {b₀ : State} (s : State) (op : Nat) (cc : CcFault) (hs : s.Ok b₀) : (State.markOp s op cc).Ok b₀ := by
  unfold State.markOp; try dsimp -proj only
  repeat' (first | with_reducible assumption | with_reducible exact fun h => h | with_reducible exact fun h => Tab.wf_setD h _ _ | with_reducible exact fun h => Tab.wf_filter h _ | with_reducible exact fun _ => Tab.wf_nil _ | with_reducible exact fun h => Tab.wf_mapCmds _ h | with_reducible exact fun h => Tab.wf_foldl_setD _ _ _ h | intro _ | with_reducible apply State.foldl_ok | with_reducible apply State.foldl_pok | with_reducible apply State.markEnd_ok | with_reducible apply State.dfCode_ok | with_reducible apply State.dfSet_ok | with_reducible apply State.ite_ok | with_reducible apply State.fst_of | split | with_reducible apply State.mk_pok | with_reducible apply State.mk_ok)

theorem State.markWrite_ok {b₀ : State} (s : State) (op : Nat) (a : RpAcc) (cc : CcFault) (hs : s.Ok b₀) : (State.markWrite s op a cc).Ok b₀ := by
  unfold State.markWrite; try dsimp -proj only
  repeat' (first | with_reducible assumption | intro _ | with_reducible apply State.foldl_ok | with_reducible apply State.foldl_pok | with_reducible apply State.portWrite_ok | with_reducible apply State.begins_ok | with_reducible apply State.markOp_ok | with_reducible apply State.ite_ok | with_reducible apply State.fst_of | split | with_reducible apply State.mk_pok)

theorem execMarkQuery_runs {b₀ : State} (a : RpAcc) (cc : CcFault) (s : State) (hs : s.Ok b₀) : Runs b₀ (execMarkQuery a cc s) := by
  unfold execMarkQuery; try dsimp -proj only
  repeat' (first | with_reducible assumption | intro _ | with_reducible apply State.foldl_ok | with_reducible apply State.foldl_pok | with_reducible apply runs_done | with_reducible apply runs_idle | with_reducible apply runs_ite | with_reducible apply runs_next | with_reducible apply State.markWrite_ok | with_reducible apply State.ite_ok | with_reducible apply State.ite_pok | with_reducible apply State.fst_of | split | with_reducible apply State.mk_pok)

theorem execMarkGrownHost_runs {b₀ : State} (a : RpAcc) (cc : CcFault) (s : State) (hs : s.Ok b₀) : Runs b₀ (execMarkGrownHost a cc s) := by
  unfold execMarkGrownHost; try dsimp -proj only
  repeat' (first | with_reducible assumption | intro _ | with_reducible apply State.foldl_ok | with_reducible apply State.foldl_pok | with_reducible apply runs_done | with_reducible apply runs_idle | with_reducible apply runs_ite | with_reducible apply runs_next | with_reducible apply State.markWrite_ok | with_reducible apply State.ite_ok | with_reducible apply State.ite_pok | with_reducible apply State.fst_of | split | with_reducible apply State.mk_pok)

theorem execMarkClear_runs {b₀ : State} (a : RpAcc) (cc : CcFault) (s : State) (hs : s.Ok b₀) : Runs b₀ (execMarkClear a cc s) := by
  unfold execMarkClear; try dsimp -proj only
  repeat' (first | with_reducible assumption | intro _ | with_reducible apply State.foldl_ok | with_reducible apply State.foldl_pok | with_reducible apply runs_done | with_reducible apply runs_idle | with_reducible apply runs_ite | with_reducible apply runs_next | with_reducible apply State.markWrite_ok | with_reducible apply State.ite_ok | with_reducible apply State.ite_pok | with_reducible apply State.fst_of | split | with_reducible apply State.mk_pok)

theorem State.growMark_ok {b₀ : State} (s : State) (die block plane cause : Nat) (cc : CcFault) (hs : s.Ok b₀) : (State.growMark s die block plane cause cc).Ok b₀ := by
  unfold State.growMark; try dsimp -proj only
  repeat' (first | with_reducible assumption | with_reducible exact fun h => h | with_reducible exact fun h => Tab.wf_setD h _ _ | with_reducible exact fun h => Tab.wf_filter h _ | with_reducible exact fun _ => Tab.wf_nil _ | with_reducible exact fun h => Tab.wf_mapCmds _ h | with_reducible exact fun h => Tab.wf_foldl_setD _ _ _ h | intro _ | with_reducible apply State.foldl_ok | with_reducible apply State.foldl_pok | with_reducible apply State.dfCode_ok | with_reducible apply State.result_ok | with_reducible apply State.blot_ok | with_reducible apply State.dfSet_ok | with_reducible apply State.count_ok | with_reducible apply State.raise_ok | with_reducible apply State.ite_ok | with_reducible apply State.fst_of | split | with_reducible apply State.mk_pok | with_reducible apply State.mk_ok)

theorem State.growLater_ok {b₀ : State} (s : State) (die block plane cause : Nat) (cc : CcFault) (hs : s.Ok b₀) : (State.growLater s die block plane cause cc).Ok b₀ := by
  unfold State.growLater; try dsimp -proj only
  repeat' (first | with_reducible assumption | intro _ | with_reducible apply State.foldl_ok | with_reducible apply State.foldl_pok | with_reducible apply State.begins_ok | with_reducible apply State.growMark_ok | with_reducible apply State.ite_ok | with_reducible apply State.fst_of | split | with_reducible apply State.mk_pok)

theorem State.frLine_ok {b₀ : State} (s : State) (u : Asker) (die k : Nat) (cc : CcFault) (hs : s.Ok b₀) : State.POk b₀ (State.frLine s u die k cc) := by
  unfold State.frLine; try dsimp -proj only
  repeat' (first | with_reducible assumption | intro _ | with_reducible apply State.foldl_ok | with_reducible apply State.foldl_pok | with_reducible apply State.ccLoad_ok | with_reducible apply State.ite_ok | with_reducible apply State.ite_pok | with_reducible apply State.fst_of | split | with_reducible apply State.mk_pok)

theorem State.frSlots_ok {b₀ : State} (s : State) (u : Asker) (die : Nat) (cc : CcFault) (hs : s.Ok b₀) : State.POk b₀ (State.frSlots s u die cc) := by
  unfold State.frSlots; try dsimp -proj only
  repeat' (first | with_reducible assumption | intro _ | with_reducible apply State.foldl_ok | with_reducible apply State.foldl_pok | with_reducible apply State.frLine_ok | with_reducible apply State.ite_ok | with_reducible apply State.ite_pok | with_reducible apply State.fst_of | split | with_reducible apply State.mk_pok)

theorem State.frPut_ok {b₀ : State} (s : State) (u : Asker) (die i : Nat) (r : FrRec) (cc : CcFault) (hs : s.Ok b₀) : State.POk b₀ (State.frPut s u die i r cc) := by
  unfold State.frPut; try dsimp -proj only
  repeat' (first | with_reducible assumption | intro _ | with_reducible apply State.foldl_ok | with_reducible apply State.foldl_pok | with_reducible apply State.ccStore_ok | with_reducible apply State.ite_ok | with_reducible apply State.ite_pok | with_reducible apply State.fst_of | split | with_reducible apply State.mk_pok)

theorem State.frModify_ok {b₀ : State} (s : State) (u : Asker) (die blk : Nat) (cc : CcFault) (f : FrRec → FrRec) (hs : s.Ok b₀) : (State.frModify s u die blk cc f).Ok b₀ := by
  unfold State.frModify; try dsimp -proj only
  repeat' (first | with_reducible assumption | intro _ | with_reducible apply State.foldl_ok | with_reducible apply State.foldl_pok | with_reducible apply State.frSlots_ok | with_reducible apply State.frPut_ok | with_reducible apply State.ite_ok | with_reducible apply State.fst_of | split | with_reducible apply State.mk_pok)

theorem State.frEnd_ok {b₀ : State} (s : State) (result : Nat) (r : FrRec) (hs : s.Ok b₀) : (State.frEnd s result r).Ok b₀ := by
  unfold State.frEnd; try dsimp -proj only
  repeat' (first | with_reducible assumption | intro _ | with_reducible apply State.foldl_ok | with_reducible apply State.foldl_pok | with_reducible apply State.setReg_ok | with_reducible apply State.result_ok | with_reducible apply State.raise_ok | with_reducible apply State.ite_ok | with_reducible apply State.fst_of | split | with_reducible apply State.mk_pok)

theorem State.frOp_ok {b₀ : State} (s : State) (op : Nat) (data : Word) (cc : CcFault) (hs : s.Ok b₀) : (State.frOp s op data cc).Ok b₀ := by
  unfold State.frOp; try dsimp -proj only
  repeat' (first | with_reducible assumption | with_reducible exact fun h => h | with_reducible exact fun h => Tab.wf_setD h _ _ | with_reducible exact fun h => Tab.wf_filter h _ | with_reducible exact fun _ => Tab.wf_nil _ | with_reducible exact fun h => Tab.wf_mapCmds _ h | with_reducible exact fun h => Tab.wf_foldl_setD _ _ _ h | intro _ | with_reducible apply State.foldl_ok | with_reducible apply State.foldl_pok | with_reducible apply State.frEnd_ok | with_reducible apply State.frSlots_ok | with_reducible apply State.frPut_ok | with_reducible apply State.ite_ok | with_reducible apply State.fst_of | split | with_reducible apply State.mk_pok | with_reducible apply State.mk_ok)

theorem State.frWrite_ok {b₀ : State} (s : State) (op : Nat) (a : RpAcc) (cc : CcFault) (hs : s.Ok b₀) : (State.frWrite s op a cc).Ok b₀ := by
  unfold State.frWrite; try dsimp -proj only
  repeat' (first | with_reducible assumption | intro _ | with_reducible apply State.foldl_ok | with_reducible apply State.foldl_pok | with_reducible apply State.portWrite_ok | with_reducible apply State.begins_ok | with_reducible apply State.frOp_ok | with_reducible apply State.ite_ok | with_reducible apply State.fst_of | split | with_reducible apply State.mk_pok)

theorem execFrQuery_runs {b₀ : State} (a : RpAcc) (cc : CcFault) (s : State) (hs : s.Ok b₀) : Runs b₀ (execFrQuery a cc s) := by
  unfold execFrQuery; try dsimp -proj only
  repeat' (first | with_reducible assumption | intro _ | with_reducible apply State.foldl_ok | with_reducible apply State.foldl_pok | with_reducible apply runs_done | with_reducible apply runs_idle | with_reducible apply runs_ite | with_reducible apply runs_next | with_reducible apply State.frWrite_ok | with_reducible apply State.ite_ok | with_reducible apply State.ite_pok | with_reducible apply State.fst_of | split | with_reducible apply State.mk_pok)

theorem execFrClose_runs {b₀ : State} (a : RpAcc) (cc : CcFault) (s : State) (hs : s.Ok b₀) : Runs b₀ (execFrClose a cc s) := by
  unfold execFrClose; try dsimp -proj only
  repeat' (first | with_reducible assumption | intro _ | with_reducible apply State.foldl_ok | with_reducible apply State.foldl_pok | with_reducible apply runs_done | with_reducible apply runs_idle | with_reducible apply runs_ite | with_reducible apply runs_next | with_reducible apply State.frWrite_ok | with_reducible apply State.ite_ok | with_reducible apply State.ite_pok | with_reducible apply State.fst_of | split | with_reducible apply State.mk_pok)

theorem execFrOpen_runs {b₀ : State} (a : RpAcc) (cc : CcFault) (s : State) (hs : s.Ok b₀) : Runs b₀ (execFrOpen a cc s) := by
  unfold execFrOpen; try dsimp -proj only
  repeat' (first | with_reducible assumption | intro _ | with_reducible apply State.foldl_ok | with_reducible apply State.foldl_pok | with_reducible apply runs_done | with_reducible apply runs_idle | with_reducible apply runs_ite | with_reducible apply runs_next | with_reducible apply State.frWrite_ok | with_reducible apply State.ite_ok | with_reducible apply State.ite_pok | with_reducible apply State.fst_of | split | with_reducible apply State.mk_pok)

theorem State.cfgParity_ok {b₀ : State} (s : State) (which entry : Nat) (hs : s.Ok b₀) : (State.cfgParity s which entry).Ok b₀ := by
  unfold State.cfgParity; try dsimp -proj only
  repeat' (first | with_reducible assumption | intro _ | with_reducible apply State.foldl_ok | with_reducible apply State.foldl_pok | with_reducible apply State.raise_ok | with_reducible apply State.blot_ok | with_reducible apply State.ite_ok | with_reducible apply State.fst_of | split | with_reducible apply State.mk_pok)

theorem State.pairParity_ok {b₀ : State} (s : State) (p : Nat) (hs : s.Ok b₀) : (State.pairParity s p).Ok b₀ := by
  unfold State.pairParity; try dsimp -proj only
  repeat' (first | with_reducible assumption | with_reducible exact fun h => h | with_reducible exact fun h => Tab.wf_setD h _ _ | with_reducible exact fun h => Tab.wf_filter h _ | with_reducible exact fun _ => Tab.wf_nil _ | with_reducible exact fun h => Tab.wf_mapCmds _ h | with_reducible exact fun h => Tab.wf_foldl_setD _ _ _ h | intro _ | with_reducible apply State.foldl_ok | with_reducible apply State.foldl_pok | with_reducible apply State.modScrub_ok | with_reducible apply State.cfgParity_ok | with_reducible apply State.ite_ok | with_reducible apply State.fst_of | split | with_reducible apply State.mk_pok | with_reducible apply State.mk_ok)

end Sys2Proof.Machine
end

