-- ==== Sys2Proof/Laws/OkLevels.lean ====
section
/-! SUPPORT. The operations of Machine/Levels.lean keep the canonical form of the tables and leave the build, the queue,
the pins, the fuses, the test port and the time alone. -/
namespace Sys2Proof.Machine
open Sys2Proof
set_option linter.unusedTactic false
set_option linter.unreachableTactic false
set_option linter.unusedVariables false

theorem State.rlStore_ok {b₀ : State} (s : State) (die i : Nat) (hs : s.Ok b₀) : (State.rlStore s die i).Ok b₀ := by
  unfold State.rlStore; try dsimp -proj only
  repeat' (first | with_reducible assumption | intro _ | with_reducible apply State.foldl_ok | with_reducible apply State.foldl_pok | with_reducible apply State.blot_ok | with_reducible apply State.ite_ok | with_reducible apply State.fst_of | split | with_reducible apply State.mk_pok)

theorem State.countRebase_ok {b₀ : State} (s : State) (g : Nat) (b : Bool) (hs : s.Ok b₀) : (State.countRebase s g b).Ok b₀ := by
  unfold State.countRebase; try dsimp -proj only
  repeat' (first | with_reducible assumption | intro _ | with_reducible apply State.foldl_ok | with_reducible apply State.foldl_pok | with_reducible apply State.count_ok | with_reducible apply State.ite_ok | with_reducible apply State.fst_of | split | with_reducible apply State.mk_pok)

theorem State.rlLookup_ok {b₀ : State} (s : State) (u : Asker) (m : BitVec 64) (cc : CcFault) (hs : s.Ok b₀) : State.POk b₀ (State.rlLookup s u m cc) := by
  unfold State.rlLookup; try dsimp -proj only
  repeat' (first | with_reducible assumption | intro _ | with_reducible apply State.foldl_ok | with_reducible apply State.foldl_pok | with_reducible apply State.ccLoad_ok | with_reducible apply State.rlStore_ok | with_reducible apply State.ccStore_ok | with_reducible apply State.countRebase_ok | with_reducible apply State.ite_ok | with_reducible apply State.ite_pok | with_reducible apply State.fst_of | split | with_reducible apply State.mk_pok)

theorem State.sample_ok {b₀ : State} (s : State) (u : Asker) (m : BitVec 64) (d : Word) (sensed ok : Bool) (x : Int) (cc : CcFault) (hs : s.Ok b₀) : (State.sample s u m d sensed ok x cc).Ok b₀ := by
  unfold State.sample; try dsimp -proj only
  repeat' (first | with_reducible assumption | with_reducible exact fun h => h | with_reducible exact fun h => Tab.wf_setD h _ _ | with_reducible exact fun h => Tab.wf_filter h _ | with_reducible exact fun _ => Tab.wf_nil _ | with_reducible exact fun h => Tab.wf_mapCmds _ h | with_reducible exact fun h => Tab.wf_foldl_setD _ _ _ h | intro _ | with_reducible apply State.foldl_ok | with_reducible apply State.foldl_pok | with_reducible apply State.setReg_ok | with_reducible apply State.count_ok | with_reducible apply State.ccLoad_ok | with_reducible apply State.rlStore_ok | with_reducible apply State.ccStore_ok | with_reducible apply State.countRebase_ok | with_reducible apply State.raise_ok | with_reducible apply State.ite_ok | with_reducible apply State.fst_of | split | with_reducible apply State.mk_pok | with_reducible apply State.mk_ok)

theorem State.sampleLater_ok {b₀ : State} (s : State) (c : Nat) (m : BitVec 64) (d : Word) (sensed ok : Bool) (x : Int) (cc : CcFault) (hs : s.Ok b₀) : (State.sampleLater s c m d sensed ok x cc).Ok b₀ := by
  unfold State.sampleLater; try dsimp -proj only
  repeat' (first | with_reducible assumption | intro _ | with_reducible apply State.foldl_ok | with_reducible apply State.foldl_pok | with_reducible apply State.begins_ok | with_reducible apply State.sample_ok | with_reducible apply State.ite_ok | with_reducible apply State.fst_of | split | with_reducible apply State.mk_pok)

theorem State.stepParity_ok {b₀ : State} (s : State) (k st : Nat) (hs : s.Ok b₀) : (State.stepParity s k st).Ok b₀ := by
  unfold State.stepParity; try dsimp -proj only
  repeat' (first | with_reducible assumption | with_reducible exact fun h => h | with_reducible exact fun h => Tab.wf_setD h _ _ | with_reducible exact fun h => Tab.wf_filter h _ | with_reducible exact fun _ => Tab.wf_nil _ | with_reducible exact fun h => Tab.wf_mapCmds _ h | with_reducible exact fun h => Tab.wf_foldl_setD _ _ _ h | intro _ | with_reducible apply State.foldl_ok | with_reducible apply State.foldl_pok | with_reducible apply State.modScrub_ok | with_reducible apply State.cfgParity_ok | with_reducible apply State.ite_ok | with_reducible apply State.fst_of | split | with_reducible apply State.mk_pok | with_reducible apply State.mk_ok)

theorem State.adopt_ok {b₀ : State} (s : State) (u : Asker) (m : BitVec 64) (d o : Word) (cc : CcFault) (hs : s.Ok b₀) : (State.adopt s u m d o cc).Ok b₀ := by
  unfold State.adopt; try dsimp -proj only
  repeat' (first | with_reducible assumption | with_reducible exact fun h => h | with_reducible exact fun h => Tab.wf_setD h _ _ | with_reducible exact fun h => Tab.wf_filter h _ | with_reducible exact fun _ => Tab.wf_nil _ | with_reducible exact fun h => Tab.wf_mapCmds _ h | with_reducible exact fun h => Tab.wf_foldl_setD _ _ _ h | intro _ | with_reducible apply State.foldl_ok | with_reducible apply State.foldl_pok | with_reducible apply State.ccLoad_ok | with_reducible apply State.rlStore_ok | with_reducible apply State.ccStore_ok | with_reducible apply State.ite_ok | with_reducible apply State.fst_of | split | with_reducible apply State.mk_pok | with_reducible apply State.mk_ok)

end Sys2Proof.Machine
end

