-- ==== Sys2Proof/Laws/OkSlabs.lean ====
section
/-! SUPPORT. The operations of Machine/Slabs.lean keep the canonical form of the tables and leave the build, the queue,
the pins, the fuses, the test port and the time alone. -/
namespace Sys2Proof.Machine
open Sys2Proof
set_option linter.unusedTactic false
set_option linter.unreachableTactic false
set_option linter.unusedVariables false

theorem State.takeSlabs_ok {b₀ : State} (s : State) (t n b : Nat) (hs : s.Ok b₀) : State.POk b₀ (State.takeSlabs s t n b) := by
  unfold State.takeSlabs; try dsimp -proj only
  repeat' (first | with_reducible assumption | with_reducible exact fun h => h | with_reducible exact fun h => Tab.wf_setD h _ _ | with_reducible exact fun h => Tab.wf_filter h _ | with_reducible exact fun _ => Tab.wf_nil _ | with_reducible exact fun h => Tab.wf_mapCmds _ h | with_reducible exact fun h => Tab.wf_foldl_setD _ _ _ h | intro _ | with_reducible apply State.foldl_ok | with_reducible apply State.foldl_pok | with_reducible apply State.modSlab_ok | with_reducible apply State.ite_ok | with_reducible apply State.ite_pok | with_reducible apply State.fst_of | split | with_reducible apply State.mk_pok | with_reducible apply State.mk_ok)

theorem State.dropSlabs_ok {b₀ : State} (s : State) (l : List Nat) (hs : s.Ok b₀) : (State.dropSlabs s l).Ok b₀ := by
  unfold State.dropSlabs; try dsimp -proj only
  repeat' (first | with_reducible assumption | with_reducible exact fun h => h | with_reducible exact fun h => Tab.wf_setD h _ _ | with_reducible exact fun h => Tab.wf_filter h _ | with_reducible exact fun _ => Tab.wf_nil _ | with_reducible exact fun h => Tab.wf_mapCmds _ h | with_reducible exact fun h => Tab.wf_foldl_setD _ _ _ h | intro _ | with_reducible apply State.foldl_ok | with_reducible apply State.foldl_pok | with_reducible apply State.modSlab_ok | with_reducible apply State.ite_ok | with_reducible apply State.fst_of | split | with_reducible apply State.mk_pok | with_reducible apply State.mk_ok)

theorem State.toMover_ok {b₀ : State} (s : State) (c h b : Nat) (hs : s.Ok b₀) : (State.toMover s c h b).Ok b₀ := by
  unfold State.toMover; try dsimp -proj only
  repeat' (first | with_reducible assumption | with_reducible exact fun h => h | with_reducible exact fun h => Tab.wf_setD h _ _ | with_reducible exact fun h => Tab.wf_filter h _ | with_reducible exact fun _ => Tab.wf_nil _ | with_reducible exact fun h => Tab.wf_mapCmds _ h | with_reducible exact fun h => Tab.wf_foldl_setD _ _ _ h | intro _ | with_reducible apply State.foldl_ok | with_reducible apply State.foldl_pok | with_reducible apply State.modPort_ok | with_reducible apply State.ite_ok | with_reducible apply State.fst_of | split | with_reducible apply State.mk_pok | with_reducible apply State.mk_ok)

theorem State.allocOne_ok {b₀ : State} (s : State) (c h : Nat) (hs : s.Ok b₀) : (State.allocOne s c h).Ok b₀ := by
  unfold State.allocOne; try dsimp -proj only
  repeat' (first | with_reducible assumption | with_reducible exact fun h => h | with_reducible exact fun h => Tab.wf_setD h _ _ | with_reducible exact fun h => Tab.wf_filter h _ | with_reducible exact fun _ => Tab.wf_nil _ | with_reducible exact fun h => Tab.wf_mapCmds _ h | with_reducible exact fun h => Tab.wf_foldl_setD _ _ _ h | intro _ | with_reducible apply State.foldl_ok | with_reducible apply State.foldl_pok | with_reducible apply State.takeSlabs_ok | with_reducible apply State.modCmd_ok | with_reducible apply State.toMover_ok | with_reducible apply State.ite_ok | with_reducible apply State.fst_of | split | with_reducible apply State.mk_pok | with_reducible apply State.mk_ok)

theorem State.allocPrograms_ok {b₀ : State} (s : State) (hs : s.Ok b₀) : (State.allocPrograms s).Ok b₀ := by
  unfold State.allocPrograms; try dsimp -proj only
  repeat' (first | with_reducible assumption | intro _ | with_reducible apply State.foldl_ok | with_reducible apply State.foldl_pok | with_reducible apply State.allocOne_ok | with_reducible apply State.ite_ok | with_reducible apply State.fst_of | split | with_reducible apply State.mk_pok)

theorem State.slabRoom_ok {b₀ : State} (s : State) (hs : s.Ok b₀) : (State.slabRoom s).Ok b₀ := by
  unfold State.slabRoom; try dsimp -proj only
  repeat' (first | with_reducible assumption | with_reducible exact fun h => h | with_reducible exact fun h => Tab.wf_setD h _ _ | with_reducible exact fun h => Tab.wf_filter h _ | with_reducible exact fun _ => Tab.wf_nil _ | with_reducible exact fun h => Tab.wf_mapCmds _ h | with_reducible exact fun h => Tab.wf_foldl_setD _ _ _ h | intro _ | with_reducible apply State.foldl_ok | with_reducible apply State.foldl_pok | with_reducible apply State.ite_ok | with_reducible apply State.fst_of | split | with_reducible apply State.mk_pok | with_reducible apply State.mk_ok)

theorem State.releaseSlabs_ok {b₀ : State} (s : State) (l : List Nat) (hs : s.Ok b₀) : (State.releaseSlabs s l).Ok b₀ := by
  unfold State.releaseSlabs; try dsimp -proj only
  repeat' (first | with_reducible assumption | intro _ | with_reducible apply State.foldl_ok | with_reducible apply State.foldl_pok | with_reducible apply State.dropSlabs_ok | with_reducible apply State.allocPrograms_ok | with_reducible apply State.ite_ok | with_reducible apply State.fst_of | split | with_reducible apply State.mk_pok)

theorem State.makeLease_ok {b₀ : State} (s : State) (l : List Nat) (hs : s.Ok b₀) : (State.makeLease s l).Ok b₀ := by
  unfold State.makeLease; try dsimp -proj only
  repeat' (first | with_reducible assumption | with_reducible exact fun h => h | with_reducible exact fun h => Tab.wf_setD h _ _ | with_reducible exact fun h => Tab.wf_filter h _ | with_reducible exact fun _ => Tab.wf_nil _ | with_reducible exact fun h => Tab.wf_mapCmds _ h | with_reducible exact fun h => Tab.wf_foldl_setD _ _ _ h | intro _ | with_reducible apply State.foldl_ok | with_reducible apply State.foldl_pok | with_reducible apply State.modSlab_ok | with_reducible apply State.ite_ok | with_reducible apply State.fst_of | split | with_reducible apply State.mk_pok | with_reducible apply State.mk_ok)

theorem State.lessOut_ok {b₀ : State} (s : State) (i : Issuer) (hs : s.Ok b₀) : (State.lessOut s i).Ok b₀ := by
  unfold State.lessOut; try dsimp -proj only
  repeat' (first | with_reducible assumption | with_reducible exact fun h => h | with_reducible exact fun h => Tab.wf_setD h _ _ | with_reducible exact fun h => Tab.wf_filter h _ | with_reducible exact fun _ => Tab.wf_nil _ | with_reducible exact fun h => Tab.wf_mapCmds _ h | with_reducible exact fun h => Tab.wf_foldl_setD _ _ _ h | intro _ | with_reducible apply State.foldl_ok | with_reducible apply State.foldl_pok | with_reducible apply State.modChannel_ok | with_reducible apply State.ite_ok | with_reducible apply State.fst_of | split | with_reducible apply State.mk_pok | with_reducible apply State.mk_ok)

theorem State.unissue_ok {b₀ : State} (s : State) (r : HpReq) (hs : s.Ok b₀) : (State.unissue s r).Ok b₀ := by
  unfold State.unissue; try dsimp -proj only
  repeat' (first | with_reducible assumption | with_reducible exact fun h => h | with_reducible exact fun h => Tab.wf_setD h _ _ | with_reducible exact fun h => Tab.wf_filter h _ | with_reducible exact fun _ => Tab.wf_nil _ | with_reducible exact fun h => Tab.wf_mapCmds _ h | with_reducible exact fun h => Tab.wf_foldl_setD _ _ _ h | intro _ | with_reducible apply State.foldl_ok | with_reducible apply State.foldl_pok | with_reducible apply State.lessOut_ok | with_reducible apply State.modCmd_ok | with_reducible apply State.ite_ok | with_reducible apply State.fst_of | split | with_reducible apply State.mk_pok | with_reducible apply State.mk_ok)

theorem State.withdraw_ok {b₀ : State} (s : State) (f : HpReq → Bool) (hs : s.Ok b₀) : (State.withdraw s f).Ok b₀ := by
  unfold State.withdraw; try dsimp -proj only
  repeat' (first | with_reducible assumption | intro _ | with_reducible apply State.foldl_ok | with_reducible apply State.foldl_pok | with_reducible apply State.unissue_ok | with_reducible apply State.modPort_ok | with_reducible apply State.ite_ok | with_reducible apply State.fst_of | split | with_reducible apply State.mk_pok)

theorem State.blankBeats_ok {b₀ : State} (s : State) (f : HpReq → Bool) (hs : s.Ok b₀) : (State.blankBeats s f).Ok b₀ := by
  unfold State.blankBeats; try dsimp -proj only
  repeat' (first | with_reducible assumption | intro _ | with_reducible apply State.foldl_ok | with_reducible apply State.foldl_pok | with_reducible apply State.modPort_ok | with_reducible apply State.withdraw_ok | with_reducible apply State.ite_ok | with_reducible apply State.fst_of | split | with_reducible apply State.mk_pok)

theorem State.slabPoison_ok {b₀ : State} (s1 : State) (n : Nat) (hs1 : s1.Ok b₀) : (State.slabPoison s1 n).Ok b₀ := by
  unfold State.slabPoison; try dsimp -proj only
  repeat' (first | with_reducible assumption | with_reducible exact fun h => h | with_reducible exact fun h => Tab.wf_setD h _ _ | with_reducible exact fun h => Tab.wf_filter h _ | with_reducible exact fun _ => Tab.wf_nil _ | with_reducible exact fun h => Tab.wf_mapCmds _ h | with_reducible exact fun h => Tab.wf_foldl_setD _ _ _ h | intro _ | with_reducible apply State.foldl_ok | with_reducible apply State.foldl_pok | with_reducible apply State.modSlab_ok | with_reducible apply State.blankBeats_ok | with_reducible apply State.raise_ok | with_reducible apply State.blot_ok | with_reducible apply State.ite_ok | with_reducible apply State.fst_of | split | with_reducible apply State.mk_pok | with_reducible apply State.mk_ok)

theorem State.slabUncorr_ok {b₀ : State} (s : State) (n j : Nat) (hs : s.Ok b₀) : (State.slabUncorr s n j).Ok b₀ := by
  unfold State.slabUncorr; try dsimp -proj only
  repeat' (first | with_reducible assumption | intro _ | with_reducible apply State.foldl_ok | with_reducible apply State.foldl_pok | with_reducible apply State.slabPoison_ok | with_reducible apply State.uncorrRow_ok | with_reducible apply State.ite_ok | with_reducible apply State.fst_of | split | with_reducible apply State.mk_pok)

theorem State.slabRetire_ok {b₀ : State} (s : State) (n : Nat) (hs : s.Ok b₀) : (State.slabRetire s n).Ok b₀ := by
  unfold State.slabRetire; try dsimp -proj only
  repeat' (first | with_reducible assumption | with_reducible exact fun h => h | with_reducible exact fun h => Tab.wf_setD h _ _ | with_reducible exact fun h => Tab.wf_filter h _ | with_reducible exact fun _ => Tab.wf_nil _ | with_reducible exact fun h => Tab.wf_mapCmds _ h | with_reducible exact fun h => Tab.wf_foldl_setD _ _ _ h | intro _ | with_reducible apply State.foldl_ok | with_reducible apply State.foldl_pok | with_reducible apply State.modSlab_ok | with_reducible apply State.blankBeats_ok | with_reducible apply State.modReg_ok | with_reducible apply State.blot_ok | with_reducible apply State.ite_ok | with_reducible apply State.fst_of | split | with_reducible apply State.mk_pok | with_reducible apply State.mk_ok)

theorem State.slabRead_ok {b₀ : State} (s : State) (n j len : Nat) (ecc : Ecc) (hs : s.Ok b₀) : (State.slabRead s n j len ecc).Ok b₀ := by
  unfold State.slabRead; try dsimp -proj only
  repeat' (first | with_reducible assumption | intro _ | with_reducible apply State.foldl_ok | with_reducible apply State.foldl_pok | with_reducible apply State.opportunities_ok | with_reducible apply State.corrected_ok | with_reducible apply State.slabUncorr_ok | with_reducible apply State.ite_ok | with_reducible apply State.fst_of | split | with_reducible apply State.mk_pok)

theorem execZeroFillDone_runs {b₀ : State} (slab : Fin 8192) (tag : Bool) (s : State) (hs : s.Ok b₀) : Runs b₀ (execZeroFillDone slab s tag) := by
  unfold execZeroFillDone; try dsimp -proj only
  repeat' (first | with_reducible assumption | with_reducible exact fun h => h | with_reducible exact fun h => Tab.wf_setD h _ _ | with_reducible exact fun h => Tab.wf_filter h _ | with_reducible exact fun _ => Tab.wf_nil _ | with_reducible exact fun h => Tab.wf_mapCmds _ h | with_reducible exact fun h => Tab.wf_foldl_setD _ _ _ h | intro _ | with_reducible apply State.foldl_ok | with_reducible apply State.foldl_pok | with_reducible apply runs_done | with_reducible apply runs_idle | with_reducible apply runs_ite | with_reducible apply runs_next | with_reducible apply State.slabRetire_ok | with_reducible apply State.modSlab_ok | with_reducible apply State.allocPrograms_ok | with_reducible apply State.slabRoom_ok | with_reducible apply State.ite_ok | with_reducible apply State.ite_pok | with_reducible apply State.fst_of | split | with_reducible apply State.mk_pok | with_reducible apply State.mk_ok)

theorem execQuotaWrite_runs {b₀ : State} (a : RpAcc) (s : State) (hs : s.Ok b₀) : Runs b₀ (execQuotaWrite a s) := by
  unfold execQuotaWrite; try dsimp -proj only
  repeat' (first | with_reducible assumption | intro _ | with_reducible apply State.foldl_ok | with_reducible apply State.foldl_pok | with_reducible apply runs_done | with_reducible apply runs_idle | with_reducible apply runs_ite | with_reducible apply runs_next | with_reducible apply State.portWrite_ok | with_reducible apply State.raise_ok | with_reducible apply State.writeRow_ok | with_reducible apply State.allocPrograms_ok | with_reducible apply State.slabRoom_ok | with_reducible apply State.ite_ok | with_reducible apply State.ite_pok | with_reducible apply State.fst_of | split | with_reducible apply State.mk_pok)

end Sys2Proof.Machine
end

