-- ==== Sys2Proof/Laws/OkRings.lean ====
section
/-! SUPPORT. The operations of Machine/Rings.lean keep the canonical form of the tables and leave the build, the queue,
the pins, the fuses, the test port and the time alone. -/
namespace Sys2Proof.Machine
open Sys2Proof
set_option linter.unusedTactic false
set_option linter.unreachableTactic false
set_option linter.unusedVariables false

theorem State.ringLoad_ok {b₀ : State} (s : State) (u : Asker) (n : Nat) (cc : CcFault) (hs : s.Ok b₀) : State.POk b₀ (State.ringLoad s u n cc) := by
  unfold State.ringLoad; try dsimp -proj only
  repeat' (first | with_reducible assumption | intro _ | with_reducible apply State.foldl_ok | with_reducible apply State.foldl_pok | with_reducible apply State.ccLoad_ok | with_reducible apply State.ite_ok | with_reducible apply State.ite_pok | with_reducible apply State.fst_of | split | with_reducible apply State.mk_pok)

theorem State.ringStore_ok {b₀ : State} (s : State) (u : Asker) (n : Nat) (x : Ctx) (cc : CcFault) (hs : s.Ok b₀) : State.POk b₀ (State.ringStore s u n x cc) := by
  unfold State.ringStore; try dsimp -proj only
  repeat' (first | with_reducible assumption | intro _ | with_reducible apply State.foldl_ok | with_reducible apply State.foldl_pok | with_reducible apply State.ccStore_ok | with_reducible apply State.ite_ok | with_reducible apply State.ite_pok | with_reducible apply State.fst_of | split | with_reducible apply State.mk_pok)

theorem State.ringModify_ok {b₀ : State} (s : State) (u : Asker) (n : Nat) (cc : CcFault) (f : Ctx → Ctx) (hs : s.Ok b₀) : State.POk b₀ (State.ringModify s u n cc f) := by
  unfold State.ringModify; try dsimp -proj only
  repeat' (first | with_reducible assumption | intro _ | with_reducible apply State.foldl_ok | with_reducible apply State.foldl_pok | with_reducible apply State.ringLoad_ok | with_reducible apply State.ringStore_ok | with_reducible apply State.ite_ok | with_reducible apply State.ite_pok | with_reducible apply State.fst_of | split | with_reducible apply State.mk_pok)

theorem State.setNote_ok {b₀ : State} (s : State) (n : Nat) (w : Word) (hs : s.Ok b₀) : (State.setNote s n w).Ok b₀ := by
  unfold State.setNote; try dsimp -proj only
  repeat' (first | with_reducible assumption | with_reducible exact fun h => h | with_reducible exact fun h => Tab.wf_setD h _ _ | with_reducible exact fun h => Tab.wf_filter h _ | with_reducible exact fun _ => Tab.wf_nil _ | with_reducible exact fun h => Tab.wf_mapCmds _ h | with_reducible exact fun h => Tab.wf_foldl_setD _ _ _ h | intro _ | with_reducible apply State.foldl_ok | with_reducible apply State.foldl_pok | with_reducible apply State.ite_ok | with_reducible apply State.fst_of | split | with_reducible apply State.mk_pok | with_reducible apply State.mk_ok)

theorem State.ringResult_ok {b₀ : State} (s : State) (r : Nat) (hs : s.Ok b₀) : (State.ringResult s r).Ok b₀ := by
  unfold State.ringResult; try dsimp -proj only
  repeat' (first | with_reducible assumption | intro _ | with_reducible apply State.foldl_ok | with_reducible apply State.foldl_pok | with_reducible apply State.setReg_ok | with_reducible apply State.ite_ok | with_reducible apply State.fst_of | split | with_reducible apply State.mk_pok)

theorem State.ringWrite_ok {b₀ : State} (s : State) (n : Nat) (cc : CcFault) (hs : s.Ok b₀) : (State.ringWrite s n cc).Ok b₀ := by
  unfold State.ringWrite; try dsimp -proj only
  repeat' (first | with_reducible assumption | intro _ | with_reducible apply State.foldl_ok | with_reducible apply State.foldl_pok | with_reducible apply State.ringLoad_ok | with_reducible apply State.ringResult_ok | with_reducible apply State.ringStore_ok | with_reducible apply State.setNote_ok | with_reducible apply State.ite_ok | with_reducible apply State.fst_of | split | with_reducible apply State.mk_pok)

theorem State.ringDisable_ok {b₀ : State} (s : State) (n : Nat) (cc : CcFault) (hs : s.Ok b₀) : (State.ringDisable s n cc).Ok b₀ := by
  unfold State.ringDisable; try dsimp -proj only
  repeat' (first | with_reducible assumption | intro _ | with_reducible apply State.foldl_ok | with_reducible apply State.foldl_pok | with_reducible apply State.ringLoad_ok | with_reducible apply State.ringResult_ok | with_reducible apply State.ringStore_ok | with_reducible apply State.setNote_ok | with_reducible apply State.ite_ok | with_reducible apply State.fst_of | split | with_reducible apply State.mk_pok)

theorem State.ringReset_ok {b₀ : State} (s : State) (n : Nat) (cc : CcFault) (hs : s.Ok b₀) : (State.ringReset s n cc).Ok b₀ := by
  unfold State.ringReset; try dsimp -proj only
  repeat' (first | with_reducible assumption | intro _ | with_reducible apply State.foldl_ok | with_reducible apply State.foldl_pok | with_reducible apply State.ringLoad_ok | with_reducible apply State.ringResult_ok | with_reducible apply State.ringStore_ok | with_reducible apply State.ite_ok | with_reducible apply State.fst_of | split | with_reducible apply State.mk_pok)

theorem State.ringRead_ok {b₀ : State} (s : State) (n : Nat) (cc : CcFault) (hs : s.Ok b₀) : (State.ringRead s n cc).Ok b₀ := by
  unfold State.ringRead; try dsimp -proj only
  repeat' (first | with_reducible assumption | intro _ | with_reducible apply State.foldl_ok | with_reducible apply State.foldl_pok | with_reducible apply State.ringLoad_ok | with_reducible apply State.ringResult_ok | with_reducible apply State.setReg_ok | with_reducible apply State.ite_ok | with_reducible apply State.fst_of | split | with_reducible apply State.mk_pok)

theorem State.ringOp_ok {b₀ : State} (s : State) (op n : Nat) (cc : CcFault) (hs : s.Ok b₀) : (State.ringOp s op n cc).Ok b₀ := by
  unfold State.ringOp; try dsimp -proj only
  repeat' (first | with_reducible assumption | intro _ | with_reducible apply State.foldl_ok | with_reducible apply State.foldl_pok | with_reducible apply State.ringRead_ok | with_reducible apply State.ringWrite_ok | with_reducible apply State.ringDisable_ok | with_reducible apply State.ringReset_ok | with_reducible apply State.ite_ok | with_reducible apply State.fst_of | split | with_reducible apply State.mk_pok)

theorem State.ringCmd_ok {b₀ : State} (s : State) (op : Nat) (a : RpAcc) (cc : CcFault) (hs : s.Ok b₀) : (State.ringCmd s op a cc).Ok b₀ := by
  unfold State.ringCmd; try dsimp -proj only
  repeat' (first | with_reducible assumption | intro _ | with_reducible apply State.foldl_ok | with_reducible apply State.foldl_pok | with_reducible apply State.portWrite_ok | with_reducible apply State.begins_ok | with_reducible apply State.ringOp_ok | with_reducible apply State.ite_ok | with_reducible apply State.fst_of | split | with_reducible apply State.mk_pok)

theorem execRingCmdRead_runs {b₀ : State} (a : RpAcc) (cc : CcFault) (s : State) (hs : s.Ok b₀) : Runs b₀ (execRingCmdRead a cc s) := by
  unfold execRingCmdRead; try dsimp -proj only
  repeat' (first | with_reducible assumption | intro _ | with_reducible apply State.foldl_ok | with_reducible apply State.foldl_pok | with_reducible apply runs_done | with_reducible apply runs_idle | with_reducible apply runs_ite | with_reducible apply runs_next | with_reducible apply State.ringCmd_ok | with_reducible apply State.ite_ok | with_reducible apply State.ite_pok | with_reducible apply State.fst_of | split | with_reducible apply State.mk_pok)

theorem execRingCmdWrite_runs {b₀ : State} (a : RpAcc) (cc : CcFault) (s : State) (hs : s.Ok b₀) : Runs b₀ (execRingCmdWrite a cc s) := by
  unfold execRingCmdWrite; try dsimp -proj only
  repeat' (first | with_reducible assumption | intro _ | with_reducible apply State.foldl_ok | with_reducible apply State.foldl_pok | with_reducible apply runs_done | with_reducible apply runs_idle | with_reducible apply runs_ite | with_reducible apply runs_next | with_reducible apply State.ringCmd_ok | with_reducible apply State.ite_ok | with_reducible apply State.ite_pok | with_reducible apply State.fst_of | split | with_reducible apply State.mk_pok)

theorem execDisable_runs {b₀ : State} (a : RpAcc) (cc : CcFault) (s : State) (hs : s.Ok b₀) : Runs b₀ (execDisable a cc s) := by
  unfold execDisable; try dsimp -proj only
  repeat' (first | with_reducible assumption | intro _ | with_reducible apply State.foldl_ok | with_reducible apply State.foldl_pok | with_reducible apply runs_done | with_reducible apply runs_idle | with_reducible apply runs_ite | with_reducible apply runs_next | with_reducible apply State.ringCmd_ok | with_reducible apply State.ite_ok | with_reducible apply State.ite_pok | with_reducible apply State.fst_of | split | with_reducible apply State.mk_pok)

theorem execResetRing_runs {b₀ : State} (a : RpAcc) (cc : CcFault) (s : State) (hs : s.Ok b₀) : Runs b₀ (execResetRing a cc s) := by
  unfold execResetRing; try dsimp -proj only
  repeat' (first | with_reducible assumption | intro _ | with_reducible apply State.foldl_ok | with_reducible apply State.foldl_pok | with_reducible apply runs_done | with_reducible apply runs_idle | with_reducible apply runs_ite | with_reducible apply runs_next | with_reducible apply State.ringCmd_ok | with_reducible apply State.ite_ok | with_reducible apply State.ite_pok | with_reducible apply State.fst_of | split | with_reducible apply State.mk_pok)

theorem State.ringReport_ok {b₀ : State} (s : State) (n cause owner : Nat) (cpl : Option Ctx) (hs : s.Ok b₀) : (State.ringReport s n cause owner cpl).Ok b₀ := by
  unfold State.ringReport; try dsimp -proj only
  repeat' (first | with_reducible assumption | intro _ | with_reducible apply State.foldl_ok | with_reducible apply State.foldl_pok | with_reducible apply State.blot_ok | with_reducible apply State.pulse_ok | with_reducible apply State.setReg_ok | with_reducible apply State.vecRaise_ok | with_reducible apply State.ite_ok | with_reducible apply State.fst_of | split | with_reducible apply State.mk_pok)

theorem State.owe_ok {b₀ : State} (s : State) (n : Nat) (u : RingUpd) (hs : s.Ok b₀) : (State.owe s n u).Ok b₀ := by
  unfold State.owe; try dsimp -proj only
  repeat' (first | with_reducible assumption | with_reducible exact fun h => h | with_reducible exact fun h => Tab.wf_setD h _ _ | with_reducible exact fun h => Tab.wf_filter h _ | with_reducible exact fun _ => Tab.wf_nil _ | with_reducible exact fun h => Tab.wf_mapCmds _ h | with_reducible exact fun h => Tab.wf_foldl_setD _ _ _ h | intro _ | with_reducible apply State.foldl_ok | with_reducible apply State.foldl_pok | with_reducible apply State.armRetry_ok | with_reducible apply State.modGlb_ok | with_reducible apply State.ite_ok | with_reducible apply State.fst_of | split | with_reducible apply State.mk_pok | with_reducible apply State.mk_ok)

theorem State.ringErr_ok {b₀ : State} (s : State) (n cause : Nat) (cc : CcFault) (hs : s.Ok b₀) : (State.ringErr s n cause cc).Ok b₀ := by
  unfold State.ringErr; try dsimp -proj only
  repeat' (first | with_reducible assumption | intro _ | with_reducible apply State.foldl_ok | with_reducible apply State.backTo_ok | with_reducible apply State.foldl_pok | with_reducible apply State.ringLoad_ok | with_reducible apply State.ringStore_ok | with_reducible apply State.ringReport_ok | with_reducible apply State.owe_ok | with_reducible apply State.ite_ok | with_reducible apply State.fst_of | split | with_reducible apply State.mk_pok)

theorem State.ringApply_ok {b₀ : State} (s : State) (n : Nat) (u : RingUpd) (cc : CcFault) (hs : s.Ok b₀) : (State.ringApply s n u cc).Ok b₀ := by
  unfold State.ringApply; try dsimp -proj only
  repeat' (first | with_reducible assumption | intro _ | with_reducible apply State.foldl_ok | with_reducible apply State.backTo_ok | with_reducible apply State.foldl_pok | with_reducible apply State.ringErr_ok | with_reducible apply State.ringLoad_ok | with_reducible apply State.owe_ok | with_reducible apply State.blot_ok | with_reducible apply State.ringStore_ok | with_reducible apply State.ite_ok | with_reducible apply State.fst_of | split | with_reducible apply State.mk_pok)

theorem State.ringPutCc_ok {b₀ : State} (s : State) (n : Nat) (u : RingUpd) (cc : CcFault) (hs : s.Ok b₀) : (State.ringPutCc s n u cc).Ok b₀ := by
  unfold State.ringPutCc; try dsimp -proj only
  repeat' (first | with_reducible assumption | intro _ | with_reducible apply State.foldl_ok | with_reducible apply State.foldl_pok | with_reducible apply State.owe_ok | with_reducible apply State.begins_ok | with_reducible apply State.ringApply_ok | with_reducible apply State.ite_ok | with_reducible apply State.fst_of | split | with_reducible apply State.mk_pok)

theorem State.ringPut_ok {b₀ : State} (s : State) (n : Nat) (u : RingUpd) (hs : s.Ok b₀) : (State.ringPut s n u).Ok b₀ := by
  unfold State.ringPut; try dsimp -proj only
  repeat' (first | with_reducible assumption | intro _ | with_reducible apply State.foldl_ok | with_reducible apply State.foldl_pok | with_reducible apply State.ringPutCc_ok | with_reducible apply State.ite_ok | with_reducible apply State.fst_of | split | with_reducible apply State.mk_pok)

theorem State.ringError_ok {b₀ : State} (s : State) (n cause : Nat) (hs : s.Ok b₀) : (State.ringError s n cause).Ok b₀ := by
  unfold State.ringError; try dsimp -proj only
  repeat' (first | with_reducible assumption | intro _ | with_reducible apply State.foldl_ok | with_reducible apply State.foldl_pok | with_reducible apply State.ringPut_ok | with_reducible apply State.ite_ok | with_reducible apply State.fst_of | split | with_reducible apply State.mk_pok)

theorem State.cplError_ok {b₀ : State} (s : State) (n : Nat) (hs : s.Ok b₀) : (State.cplError s n).Ok b₀ := by
  unfold State.cplError; try dsimp -proj only
  repeat' (first | with_reducible assumption | intro _ | with_reducible apply State.foldl_ok | with_reducible apply State.foldl_pok | with_reducible apply State.ringError_ok | with_reducible apply State.pulse_ok | with_reducible apply State.ringPut_ok | with_reducible apply State.ite_ok | with_reducible apply State.fst_of | split | with_reducible apply State.mk_pok)

theorem State.dbResult_ok {b₀ : State} (s : State) (page r : Nat) (hs : s.Ok b₀) : (State.dbResult s page r).Ok b₀ := by
  unfold State.dbResult; try dsimp -proj only
  repeat' (first | with_reducible assumption | intro _ | with_reducible apply State.foldl_ok | with_reducible apply State.foldl_pok | with_reducible apply State.modReg_ok | with_reducible apply State.countField_ok | with_reducible apply State.ite_ok | with_reducible apply State.fst_of | split | with_reducible apply State.mk_pok)

theorem State.holdDoorbell_ok {b₀ : State} (s : State) (page : Nat) (data : Word) (hs : s.Ok b₀) : (State.holdDoorbell s page data).Ok b₀ := by
  unfold State.holdDoorbell; try dsimp -proj only
  repeat' (first | with_reducible assumption | with_reducible exact fun h => h | with_reducible exact fun h => Tab.wf_setD h _ _ | with_reducible exact fun h => Tab.wf_filter h _ | with_reducible exact fun _ => Tab.wf_nil _ | with_reducible exact fun h => Tab.wf_mapCmds _ h | with_reducible exact fun h => Tab.wf_foldl_setD _ _ _ h | intro _ | with_reducible apply State.foldl_ok | with_reducible apply State.foldl_pok | with_reducible apply State.armRetry_ok | with_reducible apply State.modGlb_ok | with_reducible apply State.ite_ok | with_reducible apply State.fst_of | split | with_reducible apply State.mk_pok | with_reducible apply State.mk_ok)

theorem State.lowerOut_ok {b₀ : State} (s : State) (n : Nat) (hs : s.Ok b₀) : (State.lowerOut s n).Ok b₀ := by
  unfold State.lowerOut; try dsimp -proj only
  repeat' (first | with_reducible assumption | intro _ | with_reducible apply State.foldl_ok | with_reducible apply State.foldl_pok | with_reducible apply State.ringPut_ok | with_reducible apply State.ite_ok | with_reducible apply State.fst_of | split | with_reducible apply State.mk_pok)

theorem State.doorbell_ok {b₀ : State} (s : State) (page : Nat) (data : Word) (cc : CcFault) (residue : Bool) (hs : s.Ok b₀) : (State.doorbell s page data cc residue).Ok b₀ := by
  unfold State.doorbell; try dsimp -proj only
  repeat' (first | with_reducible assumption | with_reducible exact fun h => h | with_reducible exact fun h => Tab.wf_setD h _ _ | with_reducible exact fun h => Tab.wf_filter h _ | with_reducible exact fun _ => Tab.wf_nil _ | with_reducible exact fun h => Tab.wf_mapCmds _ h | with_reducible exact fun h => Tab.wf_foldl_setD _ _ _ h | intro _ | with_reducible apply State.foldl_ok | with_reducible apply State.foldl_pok | with_reducible apply State.ringLoad_ok | with_reducible apply State.holdDoorbell_ok | with_reducible apply State.refuse_ok | with_reducible apply State.dbResult_ok | with_reducible apply State.blot_ok | with_reducible apply State.ringError_ok | with_reducible apply State.ringStore_ok | with_reducible apply State.ite_ok | with_reducible apply State.fst_of | split | with_reducible apply State.mk_pok | with_reducible apply State.mk_ok)

theorem State.doorbellTake_ok {b₀ : State} (s : State) (page : Nat) (data : Word) (cc : CcFault) (residue : Bool) (hs : s.Ok b₀) : (State.doorbellTake s page data cc residue).Ok b₀ := by
  unfold State.doorbellTake; try dsimp -proj only
  repeat' (first | with_reducible assumption | intro _ | with_reducible apply State.foldl_ok | with_reducible apply State.foldl_pok | with_reducible apply State.begins_ok | with_reducible apply State.doorbell_ok | with_reducible apply State.ite_ok | with_reducible apply State.fst_of | split | with_reducible apply State.mk_pok)

theorem State.doorbellWrite_ok {b₀ : State} (s : State) (page : Nat) (kind : Bool) (a : RpAcc) (cc : CcFault) (residue : Bool) (hs : s.Ok b₀) : (State.doorbellWrite s page kind a cc residue).Ok b₀ := by
  unfold State.doorbellWrite; try dsimp -proj only
  repeat' (first | with_reducible assumption | intro _ | with_reducible apply State.foldl_ok | with_reducible apply State.foldl_pok | with_reducible apply State.portWrite_ok | with_reducible apply State.doorbellTake_ok | with_reducible apply State.ite_ok | with_reducible apply State.fst_of | split | with_reducible apply State.mk_pok)

theorem execDoorbellSubProd_runs {b₀ : State} (page : Fin 512) (a : RpAcc) (cc : CcFault) (residue : Bool) (s : State) (hs : s.Ok b₀) : Runs b₀ (execDoorbellSubProd page a cc residue s) := by
  unfold execDoorbellSubProd; try dsimp -proj only
  repeat' (first | with_reducible assumption | intro _ | with_reducible apply State.foldl_ok | with_reducible apply State.foldl_pok | with_reducible apply runs_done | with_reducible apply runs_idle | with_reducible apply runs_ite | with_reducible apply runs_next | with_reducible apply State.doorbellWrite_ok | with_reducible apply State.ite_ok | with_reducible apply State.ite_pok | with_reducible apply State.fst_of | split | with_reducible apply State.mk_pok)

theorem execDoorbellCplCons_runs {b₀ : State} (page : Fin 512) (a : RpAcc) (cc : CcFault) (s : State) (residue : Bool := false) (hs : s.Ok b₀) : Runs b₀ (execDoorbellCplCons page a cc s residue) := by
  unfold execDoorbellCplCons; try dsimp -proj only
  repeat' (first | with_reducible assumption | intro _ | with_reducible apply State.foldl_ok | with_reducible apply State.foldl_pok | with_reducible apply runs_done | with_reducible apply runs_idle | with_reducible apply runs_ite | with_reducible apply runs_next | with_reducible apply State.doorbellWrite_ok | with_reducible apply State.ite_ok | with_reducible apply State.ite_pok | with_reducible apply State.fst_of | split | with_reducible apply State.mk_pok)

theorem execCcRetry_runs {b₀ : State} (cc : CcFault) (s : State) (hs : s.Ok b₀) : Runs b₀ (execCcRetry cc s) := by
  unfold execCcRetry; try dsimp -proj only
  repeat' (first | with_reducible assumption | with_reducible exact fun h => h | with_reducible exact fun h => Tab.wf_setD h _ _ | with_reducible exact fun h => Tab.wf_filter h _ | with_reducible exact fun _ => Tab.wf_nil _ | with_reducible exact fun h => Tab.wf_mapCmds _ h | with_reducible exact fun h => Tab.wf_foldl_setD _ _ _ h | intro _ | with_reducible apply State.foldl_ok | with_reducible apply State.foldl_pok | with_reducible apply runs_done | with_reducible apply runs_idle | with_reducible apply runs_ite | with_reducible apply runs_next | with_reducible apply State.retryWb_ok | with_reducible apply State.modGlb_ok | with_reducible apply State.modCache_ok | with_reducible apply State.doorbellTake_ok | with_reducible apply State.ringPut_ok | with_reducible apply State.ite_ok | with_reducible apply State.ite_pok | with_reducible apply State.fst_of | split | with_reducible apply State.mk_pok | with_reducible apply State.mk_ok)

end Sys2Proof.Machine
end

