-- ==== Sys2Proof/Laws/OkComplete.lean ====
section
/-! SUPPORT. The operations of Machine/Complete.lean keep the canonical form of the tables and leave the build, the queue,
the pins, the fuses, the test port and the time alone. -/
namespace Sys2Proof.Machine
open Sys2Proof
set_option linter.unusedTactic false
set_option linter.unreachableTactic false
set_option linter.unusedVariables false

theorem State.tableSync_ok {b₀ : State} (s : State) (g : Nat) (hs : s.Ok b₀) : (State.tableSync s g).Ok b₀ := by
  unfold State.tableSync; try dsimp -proj only
  repeat' (first | with_reducible assumption | with_reducible exact fun h => h | with_reducible exact fun h => Tab.wf_setD h _ _ | with_reducible exact fun h => Tab.wf_filter h _ | with_reducible exact fun _ => Tab.wf_nil _ | with_reducible exact fun h => Tab.wf_mapCmds _ h | with_reducible exact fun h => Tab.wf_foldl_setD _ _ _ h | intro _ | with_reducible apply State.foldl_ok | with_reducible apply State.foldl_pok | with_reducible apply State.modLane_ok | with_reducible apply State.ite_ok | with_reducible apply State.fst_of | split | with_reducible apply State.mk_pok | with_reducible apply State.mk_ok)

theorem State.unqueue_ok {b₀ : State} (s : State) (c h : Nat) (hs : s.Ok b₀) : (State.unqueue s c h).Ok b₀ := by
  unfold State.unqueue; try dsimp -proj only
  repeat' (first | with_reducible assumption | with_reducible exact fun h => h | with_reducible exact fun h => Tab.wf_setD h _ _ | with_reducible exact fun h => Tab.wf_filter h _ | with_reducible exact fun _ => Tab.wf_nil _ | with_reducible exact fun h => Tab.wf_mapCmds _ h | with_reducible exact fun h => Tab.wf_foldl_setD _ _ _ h | intro _ | with_reducible apply State.foldl_ok | with_reducible apply State.foldl_pok | with_reducible apply State.modPort_ok | with_reducible apply State.ite_ok | with_reducible apply State.fst_of | split | with_reducible apply State.mk_pok | with_reducible apply State.mk_ok)

theorem State.cleanFrames_ok {b₀ : State} (s : State) (c h : Nat) (hs : s.Ok b₀) : (State.cleanFrames s c h).Ok b₀ := by
  unfold State.cleanFrames; try dsimp -proj only
  repeat' (first | with_reducible assumption | intro _ | with_reducible apply State.foldl_ok | with_reducible apply State.foldl_pok | with_reducible apply State.unqueue_ok | with_reducible apply State.modLane_ok | with_reducible apply State.modCluster_ok | with_reducible apply State.modRegion_ok | with_reducible apply State.ite_ok | with_reducible apply State.fst_of | split | with_reducible apply State.mk_pok)

theorem State.pushReady_ok {b₀ : State} (s : State) (r : Ready) (hs : s.Ok b₀) : (State.pushReady s r).Ok b₀ := by
  unfold State.pushReady; try dsimp -proj only
  repeat' (first | with_reducible assumption | with_reducible exact fun h => h | with_reducible exact fun h => Tab.wf_setD h _ _ | with_reducible exact fun h => Tab.wf_filter h _ | with_reducible exact fun _ => Tab.wf_nil _ | with_reducible exact fun h => Tab.wf_mapCmds _ h | with_reducible exact fun h => Tab.wf_foldl_setD _ _ _ h | intro _ | with_reducible apply State.foldl_ok | with_reducible apply State.foldl_pok | with_reducible apply State.ite_ok | with_reducible apply State.fst_of | split | with_reducible apply State.mk_pok | with_reducible apply State.mk_ok)

theorem State.releaseOut_ok {b₀ : State} (s : State) (ring cpl : Nat) (hs : s.Ok b₀) : (State.releaseOut s ring cpl).Ok b₀ := by
  unfold State.releaseOut; try dsimp -proj only
  repeat' (first | with_reducible assumption | intro _ | with_reducible apply State.foldl_ok | with_reducible apply State.foldl_pok | with_reducible apply State.lowerOut_ok | with_reducible apply State.ite_ok | with_reducible apply State.fst_of | split | with_reducible apply State.mk_pok)

theorem State.dropRecord_ok {b₀ : State} (s : State) (tag : Nat) (hs : s.Ok b₀) : (State.dropRecord s tag).Ok b₀ := by
  unfold State.dropRecord; try dsimp -proj only
  repeat' (first | with_reducible assumption | with_reducible exact fun h => h | with_reducible exact fun h => Tab.wf_setD h _ _ | with_reducible exact fun h => Tab.wf_filter h _ | with_reducible exact fun _ => Tab.wf_nil _ | with_reducible exact fun h => Tab.wf_mapCmds _ h | with_reducible exact fun h => Tab.wf_foldl_setD _ _ _ h | intro _ | with_reducible apply State.foldl_ok | with_reducible apply State.foldl_pok | with_reducible apply State.modTenants_ok | with_reducible apply State.modReg_ok | with_reducible apply State.blot_ok | with_reducible apply State.ite_ok | with_reducible apply State.fst_of | split | with_reducible apply State.mk_pok | with_reducible apply State.mk_ok)

theorem State.modRefs_ok {b₀ : State} (s : State) (k : Nat) (f : Nat → Nat) (hs : s.Ok b₀) : (State.modRefs s k f).Ok b₀ := by
  unfold State.modRefs; try dsimp -proj only
  repeat' (first | with_reducible assumption | with_reducible exact fun h => h | with_reducible exact fun h => Tab.wf_setD h _ _ | with_reducible exact fun h => Tab.wf_filter h _ | with_reducible exact fun _ => Tab.wf_nil _ | with_reducible exact fun h => Tab.wf_mapCmds _ h | with_reducible exact fun h => Tab.wf_foldl_setD _ _ _ h | intro _ | with_reducible apply State.foldl_ok | with_reducible apply State.foldl_pok | with_reducible apply State.modKeys_ok | with_reducible apply State.ite_ok | with_reducible apply State.fst_of | split | with_reducible apply State.mk_pok | with_reducible apply State.mk_ok)

theorem State.fetchEnd_ok {b₀ : State} (s : State) (x : Cmd) (hs : s.Ok b₀) : (State.fetchEnd s x).Ok b₀ := by
  unfold State.fetchEnd; try dsimp -proj only
  repeat' (first | with_reducible assumption | with_reducible exact fun h => h | with_reducible exact fun h => Tab.wf_setD h _ _ | with_reducible exact fun h => Tab.wf_filter h _ | with_reducible exact fun _ => Tab.wf_nil _ | with_reducible exact fun h => Tab.wf_mapCmds _ h | with_reducible exact fun h => Tab.wf_foldl_setD _ _ _ h | intro _ | with_reducible apply State.foldl_ok | with_reducible apply State.foldl_pok | with_reducible apply State.releaseSlabs_ok | with_reducible apply State.modSlab_ok | with_reducible apply State.ite_ok | with_reducible apply State.fst_of | split | with_reducible apply State.mk_pok | with_reducible apply State.mk_ok)

theorem State.retire_ok {b₀ : State} (s : State) (c h : Nat) (hs : s.Ok b₀) : (State.retire s c h).Ok b₀ := by
  unfold State.retire; try dsimp -proj only
  repeat' (first | with_reducible assumption | with_reducible exact fun h => h | with_reducible exact fun h => Tab.wf_setD h _ _ | with_reducible exact fun h => Tab.wf_filter h _ | with_reducible exact fun _ => Tab.wf_nil _ | with_reducible exact fun h => Tab.wf_mapCmds _ h | with_reducible exact fun h => Tab.wf_foldl_setD _ _ _ h | intro _ | with_reducible apply State.foldl_ok | with_reducible apply State.foldl_pok | with_reducible apply State.modRefs_ok | with_reducible apply State.setCmd_ok | with_reducible apply State.fetchEnd_ok | with_reducible apply State.releaseSlabs_ok | with_reducible apply State.ite_ok | with_reducible apply State.fst_of | split | with_reducible apply State.mk_pok | with_reducible apply State.mk_ok)

theorem State.patrolFrame_ok {b₀ : State} (s : State) (f : FrameSt) (hs : s.Ok b₀) : (State.patrolFrame s f).Ok b₀ := by
  unfold State.patrolFrame; try dsimp -proj only
  repeat' (first | with_reducible assumption | intro _ | with_reducible apply State.foldl_ok | with_reducible apply State.foldl_pok | with_reducible apply State.count_ok | with_reducible apply State.ite_ok | with_reducible apply State.fst_of | split | with_reducible apply State.mk_pok)

theorem State.eventRecord_ok {b₀ : State} (s : State) (t port : Nat) (w : BitVec 256) (hs : s.Ok b₀) : (State.eventRecord s t port w).Ok b₀ := by
  unfold State.eventRecord; try dsimp -proj only
  repeat' (first | with_reducible assumption | intro _ | with_reducible apply State.foldl_ok | with_reducible apply State.foldl_pok | with_reducible apply State.pushReady_ok | with_reducible apply State.count_ok | with_reducible apply State.ite_ok | with_reducible apply State.fst_of | split | with_reducible apply State.mk_pok)

theorem State.recordOwner_ok {b₀ : State} (s : State) (x : Cmd) (hs : s.Ok b₀) : State.POk b₀ (State.recordOwner s x) := by
  unfold State.recordOwner; try dsimp -proj only
  repeat' (first | with_reducible assumption | intro _ | with_reducible apply State.foldl_ok | with_reducible apply State.foldl_pok | with_reducible apply State.frSlots_ok | with_reducible apply State.ite_ok | with_reducible apply State.ite_pok | with_reducible apply State.fst_of | split | with_reducible apply State.mk_pok)

theorem State.patrolOwner_ok {b₀ : State} (s : State) (x : Cmd) (hs : s.Ok b₀) : State.POk b₀ (State.patrolOwner s x) := by
  unfold State.patrolOwner; try dsimp -proj only
  repeat' (first | with_reducible assumption | intro _ | with_reducible apply State.foldl_ok | with_reducible apply State.foldl_pok | with_reducible apply State.recordOwner_ok | with_reducible apply State.ite_ok | with_reducible apply State.ite_pok | with_reducible apply State.fst_of | split | with_reducible apply State.mk_pok)

theorem State.patrolEnd_ok {b₀ : State} (s : State) (c h st : Nat) (hs : s.Ok b₀) : (State.patrolEnd s c h st).Ok b₀ := by
  unfold State.patrolEnd; try dsimp -proj only
  repeat' (first | with_reducible assumption | intro _ | with_reducible apply State.foldl_ok | with_reducible apply State.foldl_pok | with_reducible apply State.retire_ok | with_reducible apply State.patrolFrame_ok | with_reducible apply State.count_ok | with_reducible apply State.raise_ok | with_reducible apply State.patrolOwner_ok | with_reducible apply State.blot_ok | with_reducible apply State.setReg_ok | with_reducible apply State.eventRecord_ok | with_reducible apply State.ite_ok | with_reducible apply State.fst_of | split | with_reducible apply State.mk_pok)

theorem State.present_ok {b₀ : State} (s : State) (c h : Nat) (hs : s.Ok b₀) : (State.present s c h).Ok b₀ := by
  unfold State.present; try dsimp -proj only
  repeat' (first | with_reducible assumption | with_reducible exact fun h => h | with_reducible exact fun h => Tab.wf_setD h _ _ | with_reducible exact fun h => Tab.wf_filter h _ | with_reducible exact fun _ => Tab.wf_nil _ | with_reducible exact fun h => Tab.wf_mapCmds _ h | with_reducible exact fun h => Tab.wf_foldl_setD _ _ _ h | intro _ | with_reducible apply State.foldl_ok | with_reducible apply State.foldl_pok | with_reducible apply State.modCmd_ok | with_reducible apply State.makeLease_ok | with_reducible apply State.ite_ok | with_reducible apply State.fst_of | split | with_reducible apply State.mk_pok | with_reducible apply State.mk_ok)

theorem State.summary_ok {b₀ : State} (s : State) (c h : Nat) (x : Cmd) (result : Nat) (hs : s.Ok b₀) : (State.summary s c h x result).Ok b₀ := by
  unfold State.summary; try dsimp -proj only
  repeat' (first | with_reducible assumption | intro _ | with_reducible apply State.foldl_ok | with_reducible apply State.foldl_pok | with_reducible apply State.pushReady_ok | with_reducible apply State.result_ok | with_reducible apply State.dropRecord_ok | with_reducible apply State.ite_ok | with_reducible apply State.fst_of | split | with_reducible apply State.mk_pok)

theorem State.finish_ok {b₀ : State} (s : State) (c h st det : Nat) (hs : s.Ok b₀) : (State.finish s c h st det).Ok b₀ := by
  unfold State.finish; try dsimp -proj only
  repeat' (first | with_reducible assumption | with_reducible exact fun h => h | with_reducible exact fun h => Tab.wf_setD h _ _ | with_reducible exact fun h => Tab.wf_filter h _ | with_reducible exact fun _ => Tab.wf_nil _ | with_reducible exact fun h => Tab.wf_mapCmds _ h | with_reducible exact fun h => Tab.wf_foldl_setD _ _ _ h | intro _ | with_reducible apply State.foldl_ok | with_reducible apply State.foldl_pok | with_reducible apply State.result_ok | with_reducible apply State.modCmd_ok | with_reducible apply State.cleanFrames_ok | with_reducible apply State.tableSync_ok | with_reducible apply State.releaseUnits_ok | with_reducible apply State.patrolEnd_ok | with_reducible apply State.discard_ok | with_reducible apply State.releaseOut_ok | with_reducible apply State.retire_ok | with_reducible apply State.pushReady_ok | with_reducible apply State.ite_ok | with_reducible apply State.fst_of | split | with_reducible apply State.mk_pok | with_reducible apply State.mk_ok)

theorem State.countLatency_ok {b₀ : State} (s : State) (x : Cmd) (lat : Nat) (hs : s.Ok b₀) : (State.countLatency s x lat).Ok b₀ := by
  unfold State.countLatency; try dsimp -proj only
  repeat' (first | with_reducible assumption | intro _ | with_reducible apply State.foldl_ok | with_reducible apply State.foldl_pok | with_reducible apply State.count_ok | with_reducible apply State.setReg_ok | with_reducible apply State.raise_ok | with_reducible apply State.ite_ok | with_reducible apply State.fst_of | split | with_reducible apply State.mk_pok)

theorem State.setAsk_ok {b₀ : State} (s : State) (p : Nat) (b : Bool) (hs : s.Ok b₀) : (State.setAsk s p b).Ok b₀ := by
  unfold State.setAsk; try dsimp -proj only
  repeat' (first | with_reducible assumption | with_reducible exact fun h => h | with_reducible exact fun h => Tab.wf_setD h _ _ | with_reducible exact fun h => Tab.wf_filter h _ | with_reducible exact fun _ => Tab.wf_nil _ | with_reducible exact fun h => Tab.wf_mapCmds _ h | with_reducible exact fun h => Tab.wf_foldl_setD _ _ _ h | intro _ | with_reducible apply State.foldl_ok | with_reducible apply State.foldl_pok | with_reducible apply State.modPort_ok | with_reducible apply State.ask_ok | with_reducible apply State.present_ok | with_reducible apply State.ite_ok | with_reducible apply State.fst_of | split | with_reducible apply State.mk_pok | with_reducible apply State.mk_ok)

theorem State.setTn_ok {b₀ : State} (s : State) (t : Nat) (x : TnState) (hs : s.Ok b₀) : (State.setTn s t x).Ok b₀ := by
  unfold State.setTn; try dsimp -proj only
  repeat' (first | with_reducible assumption | with_reducible exact fun h => h | with_reducible exact fun h => Tab.wf_setD h _ _ | with_reducible exact fun h => Tab.wf_filter h _ | with_reducible exact fun _ => Tab.wf_nil _ | with_reducible exact fun h => Tab.wf_mapCmds _ h | with_reducible exact fun h => Tab.wf_foldl_setD _ _ _ h | intro _ | with_reducible apply State.foldl_ok | with_reducible apply State.foldl_pok | with_reducible apply State.modTenants_ok | with_reducible apply State.ite_ok | with_reducible apply State.fst_of | split | with_reducible apply State.mk_pok | with_reducible apply State.mk_ok)

theorem State.resetEnd_ok {b₀ : State} (s : State) (hs : s.Ok b₀) : (State.resetEnd s).Ok b₀ := by
  unfold State.resetEnd; try dsimp -proj only
  repeat' (first | with_reducible assumption | with_reducible exact fun h => h | with_reducible exact fun h => Tab.wf_setD h _ _ | with_reducible exact fun h => Tab.wf_filter h _ | with_reducible exact fun _ => Tab.wf_nil _ | with_reducible exact fun h => Tab.wf_mapCmds _ h | with_reducible exact fun h => Tab.wf_foldl_setD _ _ _ h | intro _ | with_reducible apply State.foldl_ok | with_reducible apply State.foldl_pok | with_reducible apply State.modReg_ok | with_reducible apply State.modTenants_ok | with_reducible apply State.setTn_ok | with_reducible apply State.raise_ok | with_reducible apply State.ite_ok | with_reducible apply State.fst_of | split | with_reducible apply State.mk_pok | with_reducible apply State.mk_ok)

theorem State.afterRecord_ok {b₀ : State} (s0 : State) (r : Ready) (hs0 : s0.Ok b₀) : (State.afterRecord s0 r).Ok b₀ := by
  unfold State.afterRecord; try dsimp -proj only
  repeat' (first | with_reducible assumption | with_reducible exact fun h => h | with_reducible exact fun h => Tab.wf_setD h _ _ | with_reducible exact fun h => Tab.wf_filter h _ | with_reducible exact fun _ => Tab.wf_nil _ | with_reducible exact fun h => Tab.wf_mapCmds _ h | with_reducible exact fun h => Tab.wf_foldl_setD _ _ _ h | intro _ | with_reducible apply State.foldl_ok | with_reducible apply State.foldl_pok | with_reducible apply State.resetEnd_ok | with_reducible apply State.lowerOut_ok | with_reducible apply State.retire_ok | with_reducible apply State.ite_ok | with_reducible apply State.fst_of | split | with_reducible apply State.mk_pok | with_reducible apply State.mk_ok)

theorem State.writeSlot_ok {b₀ : State} (s : State) (r : Ready) (x : Ctx) (w : BitVec 256) (cc : CcFault) (bad : Option (Fin 5)) (hs : s.Ok b₀) : State.POk b₀ (State.writeSlot s r x w cc bad) := by
  unfold State.writeSlot; try dsimp -proj only
  repeat' (first | with_reducible assumption | intro _ | with_reducible apply State.foldl_ok | with_reducible apply State.foldl_pok | with_reducible apply State.ringStore_ok | with_reducible apply State.modPort_ok | with_reducible apply State.vecFind_ok | with_reducible apply State.vecRaise_ok | with_reducible apply State.ite_ok | with_reducible apply State.ite_pok | with_reducible apply State.fst_of | split | with_reducible apply State.mk_pok)

theorem State.dropReady_ok {b₀ : State} (s : State) (r : Ready) (x : Ctx) (hs : s.Ok b₀) : (State.dropReady s r x).Ok b₀ := by
  unfold State.dropReady; try dsimp -proj only
  repeat' (first | with_reducible assumption | intro _ | with_reducible apply State.foldl_ok | with_reducible apply State.foldl_pok | with_reducible apply State.ringPut_ok | with_reducible apply State.count_ok | with_reducible apply State.dropRecord_ok | with_reducible apply State.afterRecord_ok | with_reducible apply State.ite_ok | with_reducible apply State.fst_of | split | with_reducible apply State.mk_pok)

theorem State.writeReady_ok {b₀ : State} (s : State) (r : Ready) (cc : CcFault) (residue : Bool) (bad : Option (Fin 5)) (hs : s.Ok b₀) : (State.writeReady s r cc residue bad).Ok b₀ := by
  unfold State.writeReady; try dsimp -proj only
  repeat' (first | with_reducible assumption | with_reducible exact fun h => h | with_reducible exact fun h => Tab.wf_setD h _ _ | with_reducible exact fun h => Tab.wf_filter h _ | with_reducible exact fun _ => Tab.wf_nil _ | with_reducible exact fun h => Tab.wf_mapCmds _ h | with_reducible exact fun h => Tab.wf_foldl_setD _ _ _ h | intro _ | with_reducible apply State.foldl_ok | with_reducible apply State.backTo_ok | with_reducible apply State.foldl_pok | with_reducible apply State.ringLoad_ok | with_reducible apply State.stick_ok | with_reducible apply State.dropReady_ok | with_reducible apply State.ringError_ok | with_reducible apply State.present_ok | with_reducible apply State.writeSlot_ok | with_reducible apply State.countLatency_ok | with_reducible apply State.modTenants_ok | with_reducible apply State.afterRecord_ok | with_reducible apply State.ite_ok | with_reducible apply State.fst_of | split | with_reducible apply State.mk_pok | with_reducible apply State.mk_ok)

theorem execCompletionWrite_runs {b₀ : State} (port : Fin 4) (cc : CcFault) (bad : Option (Fin 5)) (pair : Option (Fin 4096)) (s : State) (residue : Bool := false) (hs : s.Ok b₀) : Runs b₀ (execCompletionWrite port cc bad pair s residue) := by
  unfold execCompletionWrite; try dsimp -proj only
  repeat' (first | with_reducible assumption | intro _ | with_reducible apply State.foldl_ok | with_reducible apply State.foldl_pok | with_reducible apply runs_done | with_reducible apply runs_idle | with_reducible apply runs_ite | with_reducible apply runs_next | with_reducible apply State.pairParity_ok | with_reducible apply State.waited_ok | with_reducible apply State.writeReady_ok | with_reducible apply State.setAsk_ok | with_reducible apply State.ite_ok | with_reducible apply State.ite_pok | with_reducible apply State.fst_of | split | with_reducible apply State.mk_pok)

theorem State.lateError_ok {b₀ : State} (s : State) (p : Posted) (hs : s.Ok b₀) : (State.lateError s p).Ok b₀ := by
  unfold State.lateError; try dsimp -proj only
  repeat' (first | with_reducible assumption | with_reducible exact fun h => h | with_reducible exact fun h => Tab.wf_setD h _ _ | with_reducible exact fun h => Tab.wf_filter h _ | with_reducible exact fun _ => Tab.wf_nil _ | with_reducible exact fun h => Tab.wf_mapCmds _ h | with_reducible exact fun h => Tab.wf_foldl_setD _ _ _ h | intro _ | with_reducible apply State.foldl_ok | with_reducible apply State.foldl_pok | with_reducible apply State.blot_ok | with_reducible apply State.ringPut_ok | with_reducible apply State.ite_ok | with_reducible apply State.fst_of | split | with_reducible apply State.mk_pok | with_reducible apply State.mk_ok)

theorem State.lateGone_ok {b₀ : State} (s : State) (r : Ready) (hs : s.Ok b₀) : (State.lateGone s r).Ok b₀ := by
  unfold State.lateGone; try dsimp -proj only
  repeat' (first | with_reducible assumption | with_reducible exact fun h => h | with_reducible exact fun h => Tab.wf_setD h _ _ | with_reducible exact fun h => Tab.wf_filter h _ | with_reducible exact fun _ => Tab.wf_nil _ | with_reducible exact fun h => Tab.wf_mapCmds _ h | with_reducible exact fun h => Tab.wf_foldl_setD _ _ _ h | intro _ | with_reducible apply State.foldl_ok | with_reducible apply State.foldl_pok | with_reducible apply State.ite_ok | with_reducible apply State.fst_of | split | with_reducible apply State.mk_pok | with_reducible apply State.mk_ok)

theorem State.lateWritten_ok {b₀ : State} (s : State) (r : Ready) (cc : CcFault) (residue : Bool) (hs : s.Ok b₀) : (State.lateWritten s r cc residue).Ok b₀ := by
  unfold State.lateWritten; try dsimp -proj only
  repeat' (first | with_reducible assumption | intro _ | with_reducible apply State.foldl_ok | with_reducible apply State.backTo_ok | with_reducible apply State.foldl_pok | with_reducible apply State.ringLoad_ok | with_reducible apply State.stick_ok | with_reducible apply State.lateGone_ok | with_reducible apply State.ringPut_ok | with_reducible apply State.ringError_ok | with_reducible apply State.writeSlot_ok | with_reducible apply State.ite_ok | with_reducible apply State.fst_of | split | with_reducible apply State.mk_pok)

theorem execLateErr_runs {b₀ : State} (cc : CcFault) (s : State) (residue : Bool := false) (hs : s.Ok b₀) : Runs b₀ (execLateErr cc s residue) := by
  unfold execLateErr; try dsimp -proj only
  repeat' (first | with_reducible assumption | intro _ | with_reducible apply State.foldl_ok | with_reducible apply State.foldl_pok | with_reducible apply runs_done | with_reducible apply runs_idle | with_reducible apply runs_ite | with_reducible apply runs_next | with_reducible apply State.waited_ok | with_reducible apply State.lateWritten_ok | with_reducible apply State.setAsk_ok | with_reducible apply State.ite_ok | with_reducible apply State.ite_pok | with_reducible apply State.fst_of | split | with_reducible apply State.mk_pok)

end Sys2Proof.Machine
end

