-- ==== Sys2Proof/Laws/OkResults.lean ====
section
/-! SUPPORT. The operations of Machine/Results.lean keep the canonical form of the tables and leave the build, the queue,
the pins, the fuses, the test port and the time alone. -/
namespace Sys2Proof.Machine
open Sys2Proof
set_option linter.unusedTactic false
set_option linter.unreachableTactic false
set_option linter.unusedVariables false

theorem State.postTo_ok {b₀ : State} (s : State) (core : Nat) (w : Word) (hs : s.Ok b₀) : (State.postTo s core w).Ok b₀ := by
  unfold State.postTo; try dsimp -proj only
  repeat' (first | with_reducible assumption | with_reducible exact fun h => h | with_reducible exact fun h => Tab.wf_setD h _ _ | with_reducible exact fun h => Tab.wf_filter h _ | with_reducible exact fun _ => Tab.wf_nil _ | with_reducible exact fun h => Tab.wf_mapCmds _ h | with_reducible exact fun h => Tab.wf_foldl_setD _ _ _ h | intro _ | with_reducible apply State.foldl_ok | with_reducible apply State.foldl_pok | with_reducible apply State.modCore_ok | with_reducible apply State.ite_ok | with_reducible apply State.fst_of | split | with_reducible apply State.mk_pok | with_reducible apply State.mk_ok)

theorem State.event_ok {b₀ : State} (s : State) (g kind det : Nat) (hs : s.Ok b₀) : (State.event s g kind det).Ok b₀ := by
  unfold State.event; try dsimp -proj only
  repeat' (first | with_reducible assumption | intro _ | with_reducible apply State.foldl_ok | with_reducible apply State.foldl_pok | with_reducible apply State.postTo_ok | with_reducible apply State.ite_ok | with_reducible apply State.fst_of | split | with_reducible apply State.mk_pok)

theorem State.toScribe_ok {b₀ : State} (s : State) (g kind det : Nat) (hs : s.Ok b₀) : (State.toScribe s g kind det).Ok b₀ := by
  unfold State.toScribe; try dsimp -proj only
  repeat' (first | with_reducible assumption | intro _ | with_reducible apply State.foldl_ok | with_reducible apply State.foldl_pok | with_reducible apply State.postTo_ok | with_reducible apply State.ite_ok | with_reducible apply State.fst_of | split | with_reducible apply State.mk_pok)

theorem State.strokeEnd_ok {b₀ : State} (s : State) (g h status res : Nat) (hs : s.Ok b₀) : (State.strokeEnd s g h status res).Ok b₀ := by
  unfold State.strokeEnd; try dsimp -proj only
  repeat' (first | with_reducible assumption | intro _ | with_reducible apply State.foldl_ok | with_reducible apply State.foldl_pok | with_reducible apply State.event_ok | with_reducible apply State.ite_ok | with_reducible apply State.fst_of | split | with_reducible apply State.mk_pok)

theorem State.lunReadyEvent_ok {b₀ : State} (s : State) (g ld status : Nat) (hs : s.Ok b₀) : (State.lunReadyEvent s g ld status).Ok b₀ := by
  unfold State.lunReadyEvent; try dsimp -proj only
  repeat' (first | with_reducible assumption | intro _ | with_reducible apply State.foldl_ok | with_reducible apply State.foldl_pok | with_reducible apply State.event_ok | with_reducible apply State.ite_ok | with_reducible apply State.fst_of | split | with_reducible apply State.mk_pok)

theorem State.senseReq_ok {b₀ : State} (s : State) (g h frame kind step : Nat) (hs : s.Ok b₀) : (State.senseReq s g h frame kind step).Ok b₀ := by
  unfold State.senseReq; try dsimp -proj only
  repeat' (first | with_reducible assumption | intro _ | with_reducible apply State.foldl_ok | with_reducible apply State.foldl_pok | with_reducible apply State.event_ok | with_reducible apply State.ite_ok | with_reducible apply State.fst_of | split | with_reducible apply State.mk_pok)

theorem State.frStore_ok {b₀ : State} (s : State) (owner die blk : Nat) (hs : s.Ok b₀) : (State.frStore s owner die blk).Ok b₀ := by
  unfold State.frStore; try dsimp -proj only
  repeat' (first | with_reducible assumption | intro _ | with_reducible apply State.foldl_ok | with_reducible apply State.foldl_pok | with_reducible apply State.blot_ok | with_reducible apply State.ite_ok | with_reducible apply State.fst_of | split | with_reducible apply State.mk_pok)

theorem State.frResult_ok {b₀ : State} (s : State) (u : Asker) (owner : Nat) (m : BitVec 64) (cc : CcFault) (f : FrRec → Option (FrRec × FrRec)) (hs : s.Ok b₀) : State.POk b₀ (State.frResult s u owner m cc f) := by
  unfold State.frResult; try dsimp -proj only
  repeat' (first | with_reducible assumption | intro _ | with_reducible apply State.foldl_ok | with_reducible apply State.foldl_pok | with_reducible apply State.frSlots_ok | with_reducible apply State.frStore_ok | with_reducible apply State.frPut_ok | with_reducible apply State.ite_ok | with_reducible apply State.ite_pok | with_reducible apply State.fst_of | split | with_reducible apply State.mk_pok)

theorem State.frResults_ok {b₀ : State} (s : State) (c : Nat) (x : Cmd) (cc : CcFault) (f : FrRec → Option (FrRec × FrRec)) (hs : s.Ok b₀) : State.POk b₀ (State.frResults s c x cc f) := by
  unfold State.frResults; try dsimp -proj only
  repeat' (first | with_reducible assumption | intro _ | with_reducible apply State.foldl_ok | with_reducible apply State.foldl_pok | with_reducible apply State.frResult_ok | with_reducible apply State.ite_ok | with_reducible apply State.ite_pok | with_reducible apply State.fst_of | split | with_reducible apply State.mk_pok)

theorem State.orphanClaims_ok {b₀ : State} (s : State) (x : Cmd) (hs : s.Ok b₀) : (State.orphanClaims s x).Ok b₀ := by
  unfold State.orphanClaims; try dsimp -proj only
  repeat' (first | with_reducible assumption | with_reducible exact fun h => h | with_reducible exact fun h => Tab.wf_setD h _ _ | with_reducible exact fun h => Tab.wf_filter h _ | with_reducible exact fun _ => Tab.wf_nil _ | with_reducible exact fun h => Tab.wf_mapCmds _ h | with_reducible exact fun h => Tab.wf_foldl_setD _ _ _ h | intro _ | with_reducible apply State.foldl_ok | with_reducible apply State.foldl_pok | with_reducible apply State.ite_ok | with_reducible apply State.fst_of | split | with_reducible apply State.mk_pok | with_reducible apply State.mk_ok)

theorem State.growAll_ok {b₀ : State} (s : State) (x : Cmd) (cause : Nat) (cc : CcFault) (hs : s.Ok b₀) : (State.growAll s x cause cc).Ok b₀ := by
  unfold State.growAll; try dsimp -proj only
  repeat' (first | with_reducible assumption | intro _ | with_reducible apply State.foldl_ok | with_reducible apply State.foldl_pok | with_reducible apply State.growLater_ok | with_reducible apply State.ite_ok | with_reducible apply State.fst_of | split | with_reducible apply State.mk_pok)

theorem State.mediaFail_ok {b₀ : State} (s : State) (x : Cmd) (st : Nat) (erase : Bool) (cc : CcFault) (hs : s.Ok b₀) : (State.mediaFail s x st erase cc).Ok b₀ := by
  unfold State.mediaFail; try dsimp -proj only
  repeat' (first | with_reducible assumption | intro _ | with_reducible apply State.foldl_ok | with_reducible apply State.foldl_pok | with_reducible apply State.count_ok | with_reducible apply State.raise_ok | with_reducible apply State.growAll_ok | with_reducible apply State.ite_ok | with_reducible apply State.fst_of | split | with_reducible apply State.mk_pok)

theorem State.resultApplied_ok {b₀ : State} (s : State) (c h st : Nat) (ran : Bool) (cc : CcFault) (hs : s.Ok b₀) : (State.resultApplied s c h st ran cc).Ok b₀ := by
  unfold State.resultApplied; try dsimp -proj only
  repeat' (first | with_reducible assumption | with_reducible exact fun h => h | with_reducible exact fun h => Tab.wf_setD h _ _ | with_reducible exact fun h => Tab.wf_filter h _ | with_reducible exact fun _ => Tab.wf_nil _ | with_reducible exact fun h => Tab.wf_mapCmds _ h | with_reducible exact fun h => Tab.wf_foldl_setD _ _ _ h | intro _ | with_reducible apply State.foldl_ok | with_reducible apply State.foldl_pok | with_reducible apply State.result_ok | with_reducible apply State.frResults_ok | with_reducible apply State.orphanClaims_ok | with_reducible apply State.mediaFail_ok | with_reducible apply State.modCmd_ok | with_reducible apply State.count_ok | with_reducible apply State.releaseUnits_ok | with_reducible apply State.discard_ok | with_reducible apply State.summary_ok | with_reducible apply State.ite_ok | with_reducible apply State.fst_of | split | with_reducible apply State.mk_pok | with_reducible apply State.mk_ok)

theorem State.mediaResult_ok {b₀ : State} (s : State) (c h st : Nat) (cc : CcFault) (hs : s.Ok b₀) : (State.mediaResult s c h st cc).Ok b₀ := by
  unfold State.mediaResult; try dsimp -proj only
  repeat' (first | with_reducible assumption | intro _ | with_reducible apply State.foldl_ok | with_reducible apply State.foldl_pok | with_reducible apply State.resultApplied_ok | with_reducible apply State.ite_ok | with_reducible apply State.fst_of | split | with_reducible apply State.mk_pok)

theorem State.claimBack_ok {b₀ : State} (s : State) (e : Nat × Nat) (cc : CcFault) (hs : s.Ok b₀) : (State.claimBack s e cc).Ok b₀ := by
  unfold State.claimBack; try dsimp -proj only
  repeat' (first | with_reducible assumption | with_reducible exact fun h => h | with_reducible exact fun h => Tab.wf_setD h _ _ | with_reducible exact fun h => Tab.wf_filter h _ | with_reducible exact fun _ => Tab.wf_nil _ | with_reducible exact fun h => Tab.wf_mapCmds _ h | with_reducible exact fun h => Tab.wf_foldl_setD _ _ _ h | intro _ | with_reducible apply State.foldl_ok | with_reducible apply State.foldl_pok | with_reducible apply State.frResults_ok | with_reducible apply State.ite_ok | with_reducible apply State.fst_of | split | with_reducible apply State.mk_pok | with_reducible apply State.mk_ok)

theorem State.dropStrokes_ok {b₀ : State} (s : State) (g h : Nat) (hs : s.Ok b₀) : (State.dropStrokes s g h).Ok b₀ := by
  unfold State.dropStrokes; try dsimp -proj only
  repeat' (first | with_reducible assumption | with_reducible exact fun h => h | with_reducible exact fun h => Tab.wf_setD h _ _ | with_reducible exact fun h => Tab.wf_filter h _ | with_reducible exact fun _ => Tab.wf_nil _ | with_reducible exact fun h => Tab.wf_mapCmds _ h | with_reducible exact fun h => Tab.wf_foldl_setD _ _ _ h | intro _ | with_reducible apply State.foldl_ok | with_reducible apply State.foldl_pok | with_reducible apply State.modLane_ok | with_reducible apply State.strokeEnd_ok | with_reducible apply State.idleSync_ok | with_reducible apply State.ite_ok | with_reducible apply State.fst_of | split | with_reducible apply State.mk_pok | with_reducible apply State.mk_ok)

theorem State.unitsBack_ok {b₀ : State} (s : State) (e : Nat × Nat) (hs : s.Ok b₀) : (State.unitsBack s e).Ok b₀ := by
  unfold State.unitsBack; try dsimp -proj only
  repeat' (first | with_reducible assumption | with_reducible exact fun h => h | with_reducible exact fun h => Tab.wf_setD h _ _ | with_reducible exact fun h => Tab.wf_filter h _ | with_reducible exact fun _ => Tab.wf_nil _ | with_reducible exact fun h => Tab.wf_mapCmds _ h | with_reducible exact fun h => Tab.wf_foldl_setD _ _ _ h | intro _ | with_reducible apply State.foldl_ok | with_reducible apply State.foldl_pok | with_reducible apply State.modCmd_ok | with_reducible apply State.releaseUnits_ok | with_reducible apply State.ite_ok | with_reducible apply State.fst_of | split | with_reducible apply State.mk_pok | with_reducible apply State.mk_ok)

theorem State.cancelPrograms_ok {b₀ : State} (s : State) (seeds : List (Nat × Nat)) (cc : CcFault) (hs : s.Ok b₀) : State.POk b₀ (State.cancelPrograms s seeds cc) := by
  unfold State.cancelPrograms; try dsimp -proj only
  repeat' (first | with_reducible assumption | intro _ | with_reducible apply State.foldl_ok | with_reducible apply State.foldl_pok | with_reducible apply State.claimBack_ok | with_reducible apply State.unitsBack_ok | with_reducible apply State.dropStrokes_ok | with_reducible apply State.ite_ok | with_reducible apply State.ite_pok | with_reducible apply State.fst_of | split | with_reducible apply State.mk_pok)

theorem State.cancelClaims_ok {b₀ : State} (s : State) (c h : Nat) (cc : CcFault) (hs : s.Ok b₀) : State.POk b₀ (State.cancelClaims s c h cc) := by
  unfold State.cancelClaims; try dsimp -proj only
  repeat' (first | with_reducible assumption | intro _ | with_reducible apply State.foldl_ok | with_reducible apply State.foldl_pok | with_reducible apply State.cancelPrograms_ok | with_reducible apply State.ite_ok | with_reducible apply State.ite_pok | with_reducible apply State.fst_of | split | with_reducible apply State.mk_pok)

theorem State.unverifyLine_ok {b₀ : State} (s : State) (u : Asker) (die blk k : Nat) (cc : CcFault) (hs : s.Ok b₀) : State.POk b₀ (State.unverifyLine s u die blk k cc) := by
  unfold State.unverifyLine; try dsimp -proj only
  repeat' (first | with_reducible assumption | intro _ | with_reducible apply State.foldl_ok | with_reducible apply State.foldl_pok | with_reducible apply State.frLine_ok | with_reducible apply State.frPut_ok | with_reducible apply State.ite_ok | with_reducible apply State.ite_pok | with_reducible apply State.fst_of | split | with_reducible apply State.mk_pok)

theorem State.unverify_ok {b₀ : State} (s : State) (c h : Nat) (cc : CcFault) (hs : s.Ok b₀) : State.POk b₀ (State.unverify s c h cc) := by
  unfold State.unverify; try dsimp -proj only
  repeat' (first | with_reducible assumption | with_reducible exact fun h => h | with_reducible exact fun h => Tab.wf_setD h _ _ | with_reducible exact fun h => Tab.wf_filter h _ | with_reducible exact fun _ => Tab.wf_nil _ | with_reducible exact fun h => Tab.wf_mapCmds _ h | with_reducible exact fun h => Tab.wf_foldl_setD _ _ _ h | intro _ | with_reducible apply State.foldl_ok | with_reducible apply State.foldl_pok | with_reducible apply State.unverifyLine_ok | with_reducible apply State.modCmd_ok | with_reducible apply State.ite_ok | with_reducible apply State.ite_pok | with_reducible apply State.fst_of | split | with_reducible apply State.mk_pok | with_reducible apply State.mk_ok)

theorem State.abort_ok {b₀ : State} (s : State) (c h st det : Nat) (hs : s.Ok b₀) : (State.abort s c h st det).Ok b₀ := by
  unfold State.abort; try dsimp -proj only
  repeat' (first | with_reducible assumption | intro _ | with_reducible apply State.foldl_ok | with_reducible apply State.foldl_pok | with_reducible apply State.unverify_ok | with_reducible apply State.finish_ok | with_reducible apply State.ite_ok | with_reducible apply State.fst_of | split | with_reducible apply State.mk_pok)

theorem State.dieResetCmd_ok {b₀ : State} (s : State) (c h : Nat) (hs : s.Ok b₀) : (State.dieResetCmd s c h).Ok b₀ := by
  unfold State.dieResetCmd; try dsimp -proj only
  repeat' (first | with_reducible assumption | intro _ | with_reducible apply State.foldl_ok | with_reducible apply State.foldl_pok | with_reducible apply State.result_ok | with_reducible apply State.mediaResult_ok | with_reducible apply State.finish_ok | with_reducible apply State.cancelPrograms_ok | with_reducible apply State.abort_ok | with_reducible apply State.ite_ok | with_reducible apply State.fst_of | split | with_reducible apply State.mk_pok)

theorem State.dieReset_ok {b₀ : State} (s : State) (g ld : Nat) (spare : List Nat) (hs : s.Ok b₀) : (State.dieReset s g ld spare).Ok b₀ := by
  unfold State.dieReset; try dsimp -proj only
  repeat' (first | with_reducible assumption | with_reducible exact fun h => h | with_reducible exact fun h => Tab.wf_setD h _ _ | with_reducible exact fun h => Tab.wf_filter h _ | with_reducible exact fun _ => Tab.wf_nil _ | with_reducible exact fun h => Tab.wf_mapCmds _ h | with_reducible exact fun h => Tab.wf_foldl_setD _ _ _ h | intro _ | with_reducible apply State.foldl_ok | with_reducible apply State.foldl_pok | with_reducible apply State.dieResetCmd_ok | with_reducible apply State.modLane_ok | with_reducible apply State.modLun_ok | with_reducible apply State.ite_ok | with_reducible apply State.fst_of | split | with_reducible apply State.mk_pok | with_reducible apply State.mk_ok)

theorem State.framesEnded_ok {b₀ : State} (s : State) (c h : Nat) (hs : s.Ok b₀) : (State.framesEnded s c h).Ok b₀ := by
  unfold State.framesEnded; try dsimp -proj only
  repeat' (first | with_reducible assumption | with_reducible exact fun h => h | with_reducible exact fun h => Tab.wf_setD h _ _ | with_reducible exact fun h => Tab.wf_filter h _ | with_reducible exact fun _ => Tab.wf_nil _ | with_reducible exact fun h => Tab.wf_mapCmds _ h | with_reducible exact fun h => Tab.wf_foldl_setD _ _ _ h | intro _ | with_reducible apply State.foldl_ok | with_reducible apply State.foldl_pok | with_reducible apply State.modCmd_ok | with_reducible apply State.toMover_ok | with_reducible apply State.ite_ok | with_reducible apply State.fst_of | split | with_reducible apply State.mk_pok | with_reducible apply State.mk_ok)

end Sys2Proof.Machine
end

