-- ==== Sys2Proof/Laws/OkSeals.lean ====
section
/-! SUPPORT. The operations of Machine/Seals.lean keep the canonical form of the tables and leave the build, the queue,
the pins, the fuses, the test port and the time alone. -/
namespace Sys2Proof.Machine
open Sys2Proof
set_option linter.unusedTactic false
set_option linter.unreachableTactic false
set_option linter.unusedVariables false

theorem State.sealDegrade_ok {b₀ : State} (s : State) (r why : Nat) (hs : s.Ok b₀) : (State.sealDegrade s r why).Ok b₀ := by
  unfold State.sealDegrade; try dsimp -proj only
  repeat' (first | with_reducible assumption | with_reducible exact fun h => h | with_reducible exact fun h => Tab.wf_setD h _ _ | with_reducible exact fun h => Tab.wf_filter h _ | with_reducible exact fun _ => Tab.wf_nil _ | with_reducible exact fun h => Tab.wf_mapCmds _ h | with_reducible exact fun h => Tab.wf_foldl_setD _ _ _ h | intro _ | with_reducible apply State.foldl_ok | with_reducible apply State.foldl_pok | with_reducible apply State.modGlb_ok | with_reducible apply State.blot_ok | with_reducible apply State.ite_ok | with_reducible apply State.fst_of | split | with_reducible apply State.mk_pok | with_reducible apply State.mk_ok)

theorem State.latchLevel_ok {b₀ : State} (s : State) (l : Fin 3) (hs : s.Ok b₀) : (State.latchLevel s l).Ok b₀ := by
  unfold State.latchLevel; try dsimp -proj only
  repeat' (first | with_reducible assumption | with_reducible exact fun h => h | with_reducible exact fun h => Tab.wf_setD h _ _ | with_reducible exact fun h => Tab.wf_filter h _ | with_reducible exact fun _ => Tab.wf_nil _ | with_reducible exact fun h => Tab.wf_mapCmds _ h | with_reducible exact fun h => Tab.wf_foldl_setD _ _ _ h | intro _ | with_reducible apply State.foldl_ok | with_reducible apply State.foldl_pok | with_reducible apply State.modGlb_ok | with_reducible apply State.expertDrop_ok | with_reducible apply State.pxDropFaults_ok | with_reducible apply State.ite_ok | with_reducible apply State.fst_of | split | with_reducible apply State.mk_pok | with_reducible apply State.mk_ok)

theorem State.sealResult_ok {b₀ : State} (s : State) (r : Nat) (hs : s.Ok b₀) : (State.sealResult s r).Ok b₀ := by
  unfold State.sealResult; try dsimp -proj only
  repeat' (first | with_reducible assumption | intro _ | with_reducible apply State.foldl_ok | with_reducible apply State.foldl_pok | with_reducible apply State.modReg_ok | with_reducible apply State.raise_ok | with_reducible apply State.ite_ok | with_reducible apply State.fst_of | split | with_reducible apply State.mk_pok)

theorem State.sealPhaseEnd_ok {b₀ : State} (s : State) (hs : s.Ok b₀) : (State.sealPhaseEnd s).Ok b₀ := by
  unfold State.sealPhaseEnd; try dsimp -proj only
  repeat' (first | with_reducible assumption | intro _ | with_reducible apply State.foldl_ok | with_reducible apply State.foldl_pok | with_reducible apply State.openFail_ok | with_reducible apply State.toPhase_ok | with_reducible apply State.ite_ok | with_reducible apply State.fst_of | split | with_reducible apply State.mk_pok)

theorem State.sealEnd_ok {b₀ : State} (s : State) (j : SealJob) (hs : s.Ok b₀) : (State.sealEnd s j).Ok b₀ := by
  unfold State.sealEnd; try dsimp -proj only
  repeat' (first | with_reducible assumption | with_reducible exact fun h => h | with_reducible exact fun h => Tab.wf_setD h _ _ | with_reducible exact fun h => Tab.wf_filter h _ | with_reducible exact fun _ => Tab.wf_nil _ | with_reducible exact fun h => Tab.wf_mapCmds _ h | with_reducible exact fun h => Tab.wf_foldl_setD _ _ _ h | intro _ | with_reducible apply State.foldl_ok | with_reducible apply State.foldl_pok | with_reducible apply State.sealDegrade_ok | with_reducible apply State.modKeys_ok | with_reducible apply State.sealPhaseEnd_ok | with_reducible apply State.raise_ok | with_reducible apply State.sealResult_ok | with_reducible apply State.latchLevel_ok | with_reducible apply State.ite_ok | with_reducible apply State.fst_of | split | with_reducible apply State.mk_pok | with_reducible apply State.mk_ok)

theorem State.sealWritten_ok {b₀ : State} (s : State) (ok : Bool) (hs : s.Ok b₀) : (State.sealWritten s ok).Ok b₀ := by
  unfold State.sealWritten; try dsimp -proj only
  repeat' (first | with_reducible assumption | with_reducible exact fun h => h | with_reducible exact fun h => Tab.wf_setD h _ _ | with_reducible exact fun h => Tab.wf_filter h _ | with_reducible exact fun _ => Tab.wf_nil _ | with_reducible exact fun h => Tab.wf_mapCmds _ h | with_reducible exact fun h => Tab.wf_foldl_setD _ _ _ h | intro _ | with_reducible apply State.foldl_ok | with_reducible apply State.foldl_pok | with_reducible apply State.raise_ok | with_reducible apply State.latchLevel_ok | with_reducible apply State.modKeys_ok | with_reducible apply State.sealEnd_ok | with_reducible apply State.ite_ok | with_reducible apply State.fst_of | split | with_reducible apply State.mk_pok | with_reducible apply State.mk_ok)

theorem State.seqIssue_ok {b₀ : State} (s : State) (g : Nat) (st : Stroke) (hs : s.Ok b₀) : (State.seqIssue s g st).Ok b₀ := by
  unfold State.seqIssue; try dsimp -proj only
  repeat' (first | with_reducible assumption | with_reducible exact fun h => h | with_reducible exact fun h => Tab.wf_setD h _ _ | with_reducible exact fun h => Tab.wf_filter h _ | with_reducible exact fun _ => Tab.wf_nil _ | with_reducible exact fun h => Tab.wf_mapCmds _ h | with_reducible exact fun h => Tab.wf_foldl_setD _ _ _ h | intro _ | with_reducible apply State.foldl_ok | with_reducible apply State.foldl_pok | with_reducible apply State.modLane_ok | with_reducible apply State.ite_ok | with_reducible apply State.fst_of | split | with_reducible apply State.mk_pok | with_reducible apply State.mk_ok)

theorem State.sealNext_ok {b₀ : State} (s : State) (g : Nat) (hs : s.Ok b₀) : (State.sealNext s g).Ok b₀ := by
  unfold State.sealNext; try dsimp -proj only
  repeat' (first | with_reducible assumption | with_reducible exact fun h => h | with_reducible exact fun h => Tab.wf_setD h _ _ | with_reducible exact fun h => Tab.wf_filter h _ | with_reducible exact fun _ => Tab.wf_nil _ | with_reducible exact fun h => Tab.wf_mapCmds _ h | with_reducible exact fun h => Tab.wf_foldl_setD _ _ _ h | intro _ | with_reducible apply State.foldl_ok | with_reducible apply State.foldl_pok | with_reducible apply State.sealWritten_ok | with_reducible apply State.lateCharge_ok | with_reducible apply State.seqIssue_ok | with_reducible apply State.modKeys_ok | with_reducible apply State.ite_ok | with_reducible apply State.fst_of | split | with_reducible apply State.mk_pok | with_reducible apply State.mk_ok)

theorem State.sealKick_ok {b₀ : State} (s : State) (hs : s.Ok b₀) : (State.sealKick s).Ok b₀ := by
  unfold State.sealKick; try dsimp -proj only
  repeat' (first | with_reducible assumption | intro _ | with_reducible apply State.foldl_ok | with_reducible apply State.foldl_pok | with_reducible apply State.sealNext_ok | with_reducible apply State.ite_ok | with_reducible apply State.fst_of | split | with_reducible apply State.mk_pok)

theorem State.sealBegin_ok {b₀ : State} (s : State) (why : SealWhy) (level target : Fin 3) (regions : List Nat) (hs : s.Ok b₀) : (State.sealBegin s why level target regions).Ok b₀ := by
  unfold State.sealBegin; try dsimp -proj only
  repeat' (first | with_reducible assumption | with_reducible exact fun h => h | with_reducible exact fun h => Tab.wf_setD h _ _ | with_reducible exact fun h => Tab.wf_filter h _ | with_reducible exact fun _ => Tab.wf_nil _ | with_reducible exact fun h => Tab.wf_mapCmds _ h | with_reducible exact fun h => Tab.wf_foldl_setD _ _ _ h | intro _ | with_reducible apply State.foldl_ok | with_reducible apply State.foldl_pok | with_reducible apply State.modKeys_ok | with_reducible apply State.sealKick_ok | with_reducible apply State.ite_ok | with_reducible apply State.fst_of | split | with_reducible apply State.mk_pok | with_reducible apply State.mk_ok)

theorem State.sealReady_ok {b₀ : State} (s : State) (fail : Bool) (hs : s.Ok b₀) : (State.sealReady s fail).Ok b₀ := by
  unfold State.sealReady; try dsimp -proj only
  repeat' (first | with_reducible assumption | with_reducible exact fun h => h | with_reducible exact fun h => Tab.wf_setD h _ _ | with_reducible exact fun h => Tab.wf_filter h _ | with_reducible exact fun _ => Tab.wf_nil _ | with_reducible exact fun h => Tab.wf_mapCmds _ h | with_reducible exact fun h => Tab.wf_foldl_setD _ _ _ h | intro _ | with_reducible apply State.foldl_ok | with_reducible apply State.foldl_pok | with_reducible apply State.sealWritten_ok | with_reducible apply State.modKeys_ok | with_reducible apply State.releaseUnits_ok | with_reducible apply State.sealKick_ok | with_reducible apply State.ite_ok | with_reducible apply State.fst_of | split | with_reducible apply State.mk_pok | with_reducible apply State.mk_ok)

theorem State.sealExpired_ok {b₀ : State} (s : State) (hs : s.Ok b₀) : (State.sealExpired s).Ok b₀ := by
  unfold State.sealExpired; try dsimp -proj only
  repeat' (first | with_reducible assumption | with_reducible exact fun h => h | with_reducible exact fun h => Tab.wf_setD h _ _ | with_reducible exact fun h => Tab.wf_filter h _ | with_reducible exact fun _ => Tab.wf_nil _ | with_reducible exact fun h => Tab.wf_mapCmds _ h | with_reducible exact fun h => Tab.wf_foldl_setD _ _ _ h | intro _ | with_reducible apply State.foldl_ok | with_reducible apply State.foldl_pok | with_reducible apply State.sealEnd_ok | with_reducible apply State.ite_ok | with_reducible apply State.fst_of | split | with_reducible apply State.mk_pok | with_reducible apply State.mk_ok)

theorem State.setErase_ok {b₀ : State} (s : State) (die : Nat) (e : Option SanErase) (hs : s.Ok b₀) : (State.setErase s die e).Ok b₀ := by
  unfold State.setErase; try dsimp -proj only
  repeat' (first | with_reducible assumption | with_reducible exact fun h => h | with_reducible exact fun h => Tab.wf_setD h _ _ | with_reducible exact fun h => Tab.wf_filter h _ | with_reducible exact fun _ => Tab.wf_nil _ | with_reducible exact fun h => Tab.wf_mapCmds _ h | with_reducible exact fun h => Tab.wf_foldl_setD _ _ _ h | intro _ | with_reducible apply State.foldl_ok | with_reducible apply State.foldl_pok | with_reducible apply State.modKeys_ok | with_reducible apply State.ite_ok | with_reducible apply State.fst_of | split | with_reducible apply State.mk_pok | with_reducible apply State.mk_ok)

theorem State.sanitCount_ok {b₀ : State} (s : State) (die : Nat) (hs : s.Ok b₀) : (State.sanitCount s die).Ok b₀ := by
  unfold State.sanitCount; try dsimp -proj only
  repeat' (first | with_reducible assumption | intro _ | with_reducible apply State.foldl_ok | with_reducible apply State.foldl_pok | with_reducible apply State.countField_ok | with_reducible apply State.ite_ok | with_reducible apply State.fst_of | split | with_reducible apply State.mk_pok)

theorem State.sanStroke_ok {b₀ : State} (s : State) (die : Nat) (e : SanErase) (hs : s.Ok b₀) : (State.sanStroke s die e).Ok b₀ := by
  unfold State.sanStroke; try dsimp -proj only
  repeat' (first | with_reducible assumption | with_reducible exact fun h => h | with_reducible exact fun h => Tab.wf_setD h _ _ | with_reducible exact fun h => Tab.wf_filter h _ | with_reducible exact fun _ => Tab.wf_nil _ | with_reducible exact fun h => Tab.wf_mapCmds _ h | with_reducible exact fun h => Tab.wf_foldl_setD _ _ _ h | intro _ | with_reducible apply State.foldl_ok | with_reducible apply State.foldl_pok | with_reducible apply State.seqIssue_ok | with_reducible apply State.modLane_ok | with_reducible apply State.setErase_ok | with_reducible apply State.ite_ok | with_reducible apply State.fst_of | split | with_reducible apply State.mk_pok | with_reducible apply State.mk_ok)

theorem State.sanitDrop_ok {b₀ : State} (s : State) (die : Nat) (hs : s.Ok b₀) : (State.sanitDrop s die).Ok b₀ := by
  unfold State.sanitDrop; try dsimp -proj only
  repeat' (first | with_reducible assumption | intro _ | with_reducible apply State.foldl_ok | with_reducible apply State.foldl_pok | with_reducible apply State.setErase_ok | with_reducible apply State.releaseUnits_ok | with_reducible apply State.ite_ok | with_reducible apply State.fst_of | split | with_reducible apply State.mk_pok)

theorem State.sanitReady_ok {b₀ : State} (s : State) (die cause : Nat) (fail : Bool) (cc : CcFault) (hs : s.Ok b₀) : (State.sanitReady s die cause fail cc).Ok b₀ := by
  unfold State.sanitReady; try dsimp -proj only
  repeat' (first | with_reducible assumption | intro _ | with_reducible apply State.foldl_ok | with_reducible apply State.foldl_pok | with_reducible apply State.sanitDrop_ok | with_reducible apply State.sanitCount_ok | with_reducible apply State.count_ok | with_reducible apply State.growLater_ok | with_reducible apply State.ite_ok | with_reducible apply State.fst_of | split | with_reducible apply State.mk_pok)

theorem State.seqReady_ok {b₀ : State} (s : State) (g ld cause : Nat) (fail : Bool) (cc : CcFault) (hs : s.Ok b₀) : (State.seqReady s g ld cause fail cc).Ok b₀ := by
  unfold State.seqReady; try dsimp -proj only
  repeat' (first | with_reducible assumption | intro _ | with_reducible apply State.foldl_ok | with_reducible apply State.foldl_pok | with_reducible apply State.sealReady_ok | with_reducible apply State.sanitReady_ok | with_reducible apply State.ite_ok | with_reducible apply State.fst_of | split | with_reducible apply State.mk_pok)

theorem State.seqLun_ok {b₀ : State} (s : State) (g ld : Nat) (old : Lun) (fail : Bool) (cc : CcFault) (hs : s.Ok b₀) : (State.seqLun s g ld old fail cc).Ok b₀ := by
  unfold State.seqLun; try dsimp -proj only
  repeat' (first | with_reducible assumption | intro _ | with_reducible apply State.foldl_ok | with_reducible apply State.foldl_pok | with_reducible apply State.sanStroke_ok | with_reducible apply State.seqReady_ok | with_reducible apply State.ite_ok | with_reducible apply State.fst_of | split | with_reducible apply State.mk_pok)

theorem State.seqLost_ok {b₀ : State} (s : State) (g : Nat) (hs : s.Ok b₀) : (State.seqLost s g).Ok b₀ := by
  unfold State.seqLost; try dsimp -proj only
  repeat' (first | with_reducible assumption | intro _ | with_reducible apply State.foldl_ok | with_reducible apply State.foldl_pok | with_reducible apply State.sanitDrop_ok | with_reducible apply State.sealWritten_ok | with_reducible apply State.sealKick_ok | with_reducible apply State.ite_ok | with_reducible apply State.fst_of | split | with_reducible apply State.mk_pok)

end Sys2Proof.Machine
end

