-- ==== Sys2Proof/Laws/OkSummary.lean ====
section
/-! SUPPORT. The operations of Machine/Summary.lean keep the canonical form of the tables and leave the build, the queue,
the pins, the fuses, the test port and the time alone. -/
namespace Sys2Proof.Machine
open Sys2Proof
set_option linter.unusedTactic false
set_option linter.unreachableTactic false
set_option linter.unusedVariables false

theorem State.egPut_ok {b₀ : State} (s : State) (e : BitVec 128) (hs : s.Ok b₀) : (State.egPut s e).Ok b₀ := by
  unfold State.egPut; try dsimp -proj only
  repeat' (first | with_reducible assumption | with_reducible exact fun h => h | with_reducible exact fun h => Tab.wf_setD h _ _ | with_reducible exact fun h => Tab.wf_filter h _ | with_reducible exact fun _ => Tab.wf_nil _ | with_reducible exact fun h => Tab.wf_mapCmds _ h | with_reducible exact fun h => Tab.wf_foldl_setD _ _ _ h | intro _ | with_reducible apply State.foldl_ok | with_reducible apply State.foldl_pok | with_reducible apply State.count_ok | with_reducible apply State.orReg_ok | with_reducible apply State.modEndgame_ok | with_reducible apply State.modReg_ok | with_reducible apply State.hpPush_ok | with_reducible apply State.ite_ok | with_reducible apply State.fst_of | split | with_reducible apply State.mk_pok | with_reducible apply State.mk_ok)

theorem State.egCmd_ok {b₀ : State} (s : State) (x : Cmd) (out : Nat) (hs : s.Ok b₀) : (State.egCmd s x out).Ok b₀ := by
  unfold State.egCmd; try dsimp -proj only
  repeat' (first | with_reducible assumption | intro _ | with_reducible apply State.foldl_ok | with_reducible apply State.foldl_pok | with_reducible apply State.egPut_ok | with_reducible apply State.ite_ok | with_reducible apply State.fst_of | split | with_reducible apply State.mk_pok)

theorem State.egKnown_ok {b₀ : State} (s : State) (x : Cmd) (hs : s.Ok b₀) : (State.egKnown s x).Ok b₀ := by
  unfold State.egKnown; try dsimp -proj only
  repeat' (first | with_reducible assumption | intro _ | with_reducible apply State.foldl_ok | with_reducible apply State.foldl_pok | with_reducible apply State.result_ok | with_reducible apply State.egCmd_ok | with_reducible apply State.ite_ok | with_reducible apply State.fst_of | split | with_reducible apply State.mk_pok)

theorem State.egResults_ok {b₀ : State} (s : State) (old : State) (c : Nat) (handles : List Nat) (hs : s.Ok b₀) (hold : old.Ok b₀) : (State.egResults s old c handles).Ok b₀ := by
  unfold State.egResults; try dsimp -proj only
  repeat' (first | with_reducible assumption | intro _ | with_reducible apply State.foldl_ok | with_reducible apply State.foldl_pok | with_reducible apply State.result_ok | with_reducible apply State.egKnown_ok | with_reducible apply State.ite_ok | with_reducible apply State.fst_of | split | with_reducible apply State.mk_pok)

theorem State.egOwnEnd_ok {b₀ : State} (s : State) (g ld out : Nat) (hs : s.Ok b₀) : (State.egOwnEnd s g ld out).Ok b₀ := by
  unfold State.egOwnEnd; try dsimp -proj only
  repeat' (first | with_reducible assumption | with_reducible exact fun h => h | with_reducible exact fun h => Tab.wf_setD h _ _ | with_reducible exact fun h => Tab.wf_filter h _ | with_reducible exact fun _ => Tab.wf_nil _ | with_reducible exact fun h => Tab.wf_mapCmds _ h | with_reducible exact fun h => Tab.wf_foldl_setD _ _ _ h | intro _ | with_reducible apply State.foldl_ok | with_reducible apply State.foldl_pok | with_reducible apply State.egPut_ok | with_reducible apply State.modKeys_ok | with_reducible apply State.setErase_ok | with_reducible apply State.ite_ok | with_reducible apply State.fst_of | split | with_reducible apply State.mk_pok | with_reducible apply State.mk_ok)

theorem State.egOwnCancel_ok {b₀ : State} (s : State) (g : Nat) (hs : s.Ok b₀) : (State.egOwnCancel s g).Ok b₀ := by
  unfold State.egOwnCancel; try dsimp -proj only
  repeat' (first | with_reducible assumption | intro _ | with_reducible apply State.foldl_ok | with_reducible apply State.foldl_pok | with_reducible apply State.egOwnEnd_ok | with_reducible apply State.ite_ok | with_reducible apply State.fst_of | split | with_reducible apply State.mk_pok)

theorem State.egReset_ok {b₀ : State} (s : State) (hs : s.Ok b₀) : (State.egReset s).Ok b₀ := by
  unfold State.egReset; try dsimp -proj only
  repeat' (first | with_reducible assumption | with_reducible exact fun h => h | with_reducible exact fun h => Tab.wf_setD h _ _ | with_reducible exact fun h => Tab.wf_filter h _ | with_reducible exact fun _ => Tab.wf_nil _ | with_reducible exact fun h => Tab.wf_mapCmds _ h | with_reducible exact fun h => Tab.wf_foldl_setD _ _ _ h | intro _ | with_reducible apply State.foldl_ok | with_reducible apply State.foldl_pok | with_reducible apply State.toMode_ok | with_reducible apply State.modGlb_ok | with_reducible apply State.applyWarm_ok | with_reducible apply State.orReg_ok | with_reducible apply State.ite_ok | with_reducible apply State.fst_of | split | with_reducible apply State.mk_pok | with_reducible apply State.mk_ok)

theorem State.egHostErr_ok {b₀ : State} (s : State) (hs : s.Ok b₀) : (State.egHostErr s).Ok b₀ := by
  unfold State.egHostErr; try dsimp -proj only
  repeat' (first | with_reducible assumption | intro _ | with_reducible apply State.foldl_ok | with_reducible apply State.foldl_pok | with_reducible apply State.orReg_ok | with_reducible apply State.ite_ok | with_reducible apply State.fst_of | split | with_reducible apply State.mk_pok)

theorem State.egPark_ok {b₀ : State} (s : State) (hs : s.Ok b₀) : (State.egPark s).Ok b₀ := by
  unfold State.egPark; try dsimp -proj only
  repeat' (first | with_reducible assumption | with_reducible exact fun h => h | with_reducible exact fun h => Tab.wf_setD h _ _ | with_reducible exact fun h => Tab.wf_filter h _ | with_reducible exact fun _ => Tab.wf_nil _ | with_reducible exact fun h => Tab.wf_mapCmds _ h | with_reducible exact fun h => Tab.wf_foldl_setD _ _ _ h | intro _ | with_reducible apply State.foldl_ok | with_reducible apply State.foldl_pok | with_reducible apply State.modLane_ok | with_reducible apply State.setReg_ok | with_reducible apply State.modEndgame_ok | with_reducible apply State.ite_ok | with_reducible apply State.fst_of | split | with_reducible apply State.mk_pok | with_reducible apply State.mk_ok)

theorem State.egEntryStatus_ok {b₀ : State} (s : State) (resp : Nat) (hs : s.Ok b₀) : (State.egEntryStatus s resp).Ok b₀ := by
  unfold State.egEntryStatus; try dsimp -proj only
  repeat' (first | with_reducible assumption | with_reducible exact fun h => h | with_reducible exact fun h => Tab.wf_setD h _ _ | with_reducible exact fun h => Tab.wf_filter h _ | with_reducible exact fun _ => Tab.wf_nil _ | with_reducible exact fun h => Tab.wf_mapCmds _ h | with_reducible exact fun h => Tab.wf_foldl_setD _ _ _ h | intro _ | with_reducible apply State.foldl_ok | with_reducible apply State.foldl_pok | with_reducible apply State.modEndgame_ok | with_reducible apply State.egHostErr_ok | with_reducible apply State.egReset_ok | with_reducible apply State.ite_ok | with_reducible apply State.fst_of | split | with_reducible apply State.mk_pok | with_reducible apply State.mk_ok)

theorem State.egHeaderStatus_ok {b₀ : State} (s : State) (resp : Nat) (hs : s.Ok b₀) : (State.egHeaderStatus s resp).Ok b₀ := by
  unfold State.egHeaderStatus; try dsimp -proj only
  repeat' (first | with_reducible assumption | with_reducible exact fun h => h | with_reducible exact fun h => Tab.wf_setD h _ _ | with_reducible exact fun h => Tab.wf_filter h _ | with_reducible exact fun _ => Tab.wf_nil _ | with_reducible exact fun h => Tab.wf_mapCmds _ h | with_reducible exact fun h => Tab.wf_foldl_setD _ _ _ h | intro _ | with_reducible apply State.foldl_ok | with_reducible apply State.foldl_pok | with_reducible apply State.modEndgame_ok | with_reducible apply State.egHostErr_ok | with_reducible apply State.egReset_ok | with_reducible apply State.ite_ok | with_reducible apply State.fst_of | split | with_reducible apply State.mk_pok | with_reducible apply State.mk_ok)

end Sys2Proof.Machine
end

