-- ==== Sys2Proof/Laws/OkSlots.lean ====
section
/-! SUPPORT. The operations of Machine/Slots.lean keep the canonical form of the tables and leave the build, the queue,
the pins, the fuses, the test port and the time alone. -/
namespace Sys2Proof.Machine
open Sys2Proof
set_option linter.unusedTactic false
set_option linter.unreachableTactic false
set_option linter.unusedVariables false

theorem State.freeSlot_ok {b₀ : State} (s : State) (g h k : Nat) (hs : s.Ok b₀) : (State.freeSlot s g h k).Ok b₀ := by
  unfold State.freeSlot; try dsimp -proj only
  repeat' (first | with_reducible assumption | with_reducible exact fun h => h | with_reducible exact fun h => Tab.wf_setD h _ _ | with_reducible exact fun h => Tab.wf_filter h _ | with_reducible exact fun _ => Tab.wf_nil _ | with_reducible exact fun h => Tab.wf_mapCmds _ h | with_reducible exact fun h => Tab.wf_foldl_setD _ _ _ h | intro _ | with_reducible apply State.foldl_ok | with_reducible apply State.foldl_pok | with_reducible apply State.modLane_ok | with_reducible apply State.ite_ok | with_reducible apply State.fst_of | split | with_reducible apply State.mk_pok | with_reducible apply State.mk_ok)

theorem State.modFrame_ok {b₀ : State} (s : State) (c h k : Nat) (f : FrameSt → FrameSt) (hs : s.Ok b₀) : (State.modFrame s c h k f).Ok b₀ := by
  unfold State.modFrame; try dsimp -proj only
  repeat' (first | with_reducible assumption | intro _ | with_reducible apply State.foldl_ok | with_reducible apply State.foldl_pok | with_reducible apply State.modCmd_ok | with_reducible apply State.ite_ok | with_reducible apply State.fst_of | split | with_reducible apply State.mk_pok)

theorem State.frameSample_ok {b₀ : State} (s : State) (c h k : Nat) (cc : CcFault) (hs : s.Ok b₀) : (State.frameSample s c h k cc).Ok b₀ := by
  unfold State.frameSample; try dsimp -proj only
  repeat' (first | with_reducible assumption | intro _ | with_reducible apply State.foldl_ok | with_reducible apply State.foldl_pok | with_reducible apply State.decoded_ok | with_reducible apply State.sampleLater_ok | with_reducible apply State.ite_ok | with_reducible apply State.fst_of | split | with_reducible apply State.mk_pok)

theorem State.frameEnd_ok {b₀ : State} (s : State) (c h k : Nat) (sample : Bool) (cc : CcFault) (hs : s.Ok b₀) : (State.frameEnd s c h k sample cc).Ok b₀ := by
  unfold State.frameEnd; try dsimp -proj only
  repeat' (first | with_reducible assumption | intro _ | with_reducible apply State.foldl_ok | with_reducible apply State.foldl_pok | with_reducible apply State.sample_ok | with_reducible apply State.frameSample_ok | with_reducible apply State.framesEnded_ok | with_reducible apply State.ite_ok | with_reducible apply State.fst_of | split | with_reducible apply State.mk_pok)

theorem State.frameFailed_ok {b₀ : State} (s : State) (c g h k : Nat) (hs : s.Ok b₀) : (State.frameFailed s c g h k).Ok b₀ := by
  unfold State.frameFailed; try dsimp -proj only
  repeat' (first | with_reducible assumption | with_reducible exact fun h => h | with_reducible exact fun h => Tab.wf_setD h _ _ | with_reducible exact fun h => Tab.wf_filter h _ | with_reducible exact fun _ => Tab.wf_nil _ | with_reducible exact fun h => Tab.wf_mapCmds _ h | with_reducible exact fun h => Tab.wf_foldl_setD _ _ _ h | intro _ | with_reducible apply State.foldl_ok | with_reducible apply State.foldl_pok | with_reducible apply State.freeSlot_ok | with_reducible apply State.modFrame_ok | with_reducible apply State.count_ok | with_reducible apply State.ite_ok | with_reducible apply State.fst_of | split | with_reducible apply State.mk_pok | with_reducible apply State.mk_ok)

theorem State.frameFail_ok {b₀ : State} (s : State) (c g h k : Nat) (cc : CcFault) (hs : s.Ok b₀) : (State.frameFail s c g h k cc).Ok b₀ := by
  unfold State.frameFail; try dsimp -proj only
  repeat' (first | with_reducible assumption | intro _ | with_reducible apply State.foldl_ok | with_reducible apply State.foldl_pok | with_reducible apply State.frameFailed_ok | with_reducible apply State.frameEnd_ok | with_reducible apply State.ite_ok | with_reducible apply State.fst_of | split | with_reducible apply State.mk_pok)

theorem State.frameLost_ok {b₀ : State} (s : State) (c g h k : Nat) (cc : CcFault) (hs : s.Ok b₀) : (State.frameLost s c g h k cc).Ok b₀ := by
  unfold State.frameLost; try dsimp -proj only
  repeat' (first | with_reducible assumption | intro _ | with_reducible apply State.foldl_ok | with_reducible apply State.foldl_pok | with_reducible apply State.frameFailed_ok | with_reducible apply State.frameSample_ok | with_reducible apply State.finish_ok | with_reducible apply State.ite_ok | with_reducible apply State.fst_of | split | with_reducible apply State.mk_pok)

theorem State.leaveGambit_ok {b₀ : State} (s : State) (g h k : Nat) (hs : s.Ok b₀) : (State.leaveGambit s g h k).Ok b₀ := by
  unfold State.leaveGambit; try dsimp -proj only
  repeat' (first | with_reducible assumption | with_reducible exact fun h => h | with_reducible exact fun h => Tab.wf_setD h _ _ | with_reducible exact fun h => Tab.wf_filter h _ | with_reducible exact fun _ => Tab.wf_nil _ | with_reducible exact fun h => Tab.wf_mapCmds _ h | with_reducible exact fun h => Tab.wf_foldl_setD _ _ _ h | intro _ | with_reducible apply State.foldl_ok | with_reducible apply State.foldl_pok | with_reducible apply State.modLane_ok | with_reducible apply State.ite_ok | with_reducible apply State.fst_of | split | with_reducible apply State.mk_pok | with_reducible apply State.mk_ok)

theorem State.fifoUncorr_ok {b₀ : State} (s : State) (g h k : Nat) (cc : CcFault) (hs : s.Ok b₀) : (State.fifoUncorr s g h k cc).Ok b₀ := by
  unfold State.fifoUncorr; try dsimp -proj only
  repeat' (first | with_reducible assumption | with_reducible exact fun h => h | with_reducible exact fun h => Tab.wf_setD h _ _ | with_reducible exact fun h => Tab.wf_filter h _ | with_reducible exact fun _ => Tab.wf_nil _ | with_reducible exact fun h => Tab.wf_mapCmds _ h | with_reducible exact fun h => Tab.wf_foldl_setD _ _ _ h | intro _ | with_reducible apply State.foldl_ok | with_reducible apply State.foldl_pok | with_reducible apply State.freeSlot_ok | with_reducible apply State.leaveGambit_ok | with_reducible apply State.resensed_ok | with_reducible apply State.blot_ok | with_reducible apply State.frameFail_ok | with_reducible apply State.modFrame_ok | with_reducible apply State.count_ok | with_reducible apply State.senseReq_ok | with_reducible apply State.ite_ok | with_reducible apply State.fst_of | split | with_reducible apply State.mk_pok | with_reducible apply State.mk_ok)

theorem State.fifoRead_ok {b₀ : State} (s : State) (g i : Nat) (ecc : Ecc) (byte : Nat := 0) (hs : s.Ok b₀) : State.POk b₀ (State.fifoRead s g i ecc byte) := by
  unfold State.fifoRead; try dsimp -proj only
  repeat' (first | with_reducible assumption | intro _ | with_reducible apply State.foldl_ok | with_reducible apply State.foldl_pok | with_reducible apply State.opportunities_ok | with_reducible apply State.corrected_ok | with_reducible apply State.uncorrRow_ok | with_reducible apply State.ite_ok | with_reducible apply State.ite_pok | with_reducible apply State.fst_of | split | with_reducible apply State.mk_pok)

end Sys2Proof.Machine
end

