-- ==== Sys2Proof/Laws/OkStrokes.lean ====
section
/-! SUPPORT. The operations of Machine/Strokes.lean keep the canonical form of the tables and leave the build, the queue,
the pins, the fuses, the test port and the time alone. -/
namespace Sys2Proof.Machine
open Sys2Proof
set_option linter.unusedTactic false
set_option linter.unreachableTactic false
set_option linter.unusedVariables false

theorem State.fallbackResets_ok {b₀ : State} (s : State) (g : Nat) (hs : s.Ok b₀) : (State.fallbackResets s g).Ok b₀ := by
  unfold State.fallbackResets; try dsimp -proj only
  repeat' (first | with_reducible assumption | with_reducible exact fun h => h | with_reducible exact fun h => Tab.wf_setD h _ _ | with_reducible exact fun h => Tab.wf_filter h _ | with_reducible exact fun _ => Tab.wf_nil _ | with_reducible exact fun h => Tab.wf_mapCmds _ h | with_reducible exact fun h => Tab.wf_foldl_setD _ _ _ h | intro _ | with_reducible apply State.foldl_ok | with_reducible apply State.foldl_pok | with_reducible apply State.modLane_ok | with_reducible apply State.ite_ok | with_reducible apply State.fst_of | split | with_reducible apply State.mk_pok | with_reducible apply State.mk_ok)

theorem State.castle_ok {b₀ : State} (s : State) (g : Nat) (hs : s.Ok b₀) : (State.castle s g).Ok b₀ := by
  unfold State.castle; try dsimp -proj only
  repeat' (first | with_reducible assumption | with_reducible exact fun h => h | with_reducible exact fun h => Tab.wf_setD h _ _ | with_reducible exact fun h => Tab.wf_filter h _ | with_reducible exact fun _ => Tab.wf_nil _ | with_reducible exact fun h => Tab.wf_mapCmds _ h | with_reducible exact fun h => Tab.wf_foldl_setD _ _ _ h | intro _ | with_reducible apply State.foldl_ok | with_reducible apply State.foldl_pok | with_reducible apply State.modLane_ok | with_reducible apply State.orReg_ok | with_reducible apply State.handOver_ok | with_reducible apply State.fallbackResets_ok | with_reducible apply State.ite_ok | with_reducible apply State.fst_of | split | with_reducible apply State.mk_pok | with_reducible apply State.mk_ok)

theorem State.castleDue_ok {b₀ : State} (s : State) (g : Nat) (hs : s.Ok b₀) : (State.castleDue s g).Ok b₀ := by
  unfold State.castleDue; try dsimp -proj only
  repeat' (first | with_reducible assumption | intro _ | with_reducible apply State.foldl_ok | with_reducible apply State.foldl_pok | with_reducible apply State.castle_ok | with_reducible apply State.ite_ok | with_reducible apply State.fst_of | split | with_reducible apply State.mk_pok)

theorem State.commitFrom_ok {b₀ : State} (s0 : State) (rom : Bool) (g id : Nat) (p : List Word) (byBlock byScribe : Bool) (hs0 : s0.Ok b₀) : State.POk b₀ (State.commitFrom s0 rom g id p byBlock byScribe) := by
  unfold State.commitFrom; try dsimp -proj only
  repeat' (first | with_reducible assumption | with_reducible exact fun h => h | with_reducible exact fun h => Tab.wf_setD h _ _ | with_reducible exact fun h => Tab.wf_filter h _ | with_reducible exact fun _ => Tab.wf_nil _ | with_reducible exact fun h => Tab.wf_mapCmds _ h | with_reducible exact fun h => Tab.wf_foldl_setD _ _ _ h | intro _ | with_reducible apply State.foldl_ok | with_reducible apply State.foldl_pok | with_reducible apply State.castleDue_ok | with_reducible apply State.modLane_ok | with_reducible apply State.ite_ok | with_reducible apply State.ite_pok | with_reducible apply State.fst_of | split | with_reducible apply State.mk_pok | with_reducible apply State.mk_ok)

theorem State.commit_ok {b₀ : State} (s : State) (g id : Nat) (p : List Word) (byBlock byScribe : Bool) (hs : s.Ok b₀) : State.POk b₀ (State.commit s g id p byBlock byScribe) := by
  unfold State.commit; try dsimp -proj only
  repeat' (first | with_reducible assumption | intro _ | with_reducible apply State.foldl_ok | with_reducible apply State.foldl_pok | with_reducible apply State.commitFrom_ok | with_reducible apply State.ite_ok | with_reducible apply State.ite_pok | with_reducible apply State.fst_of | split | with_reducible apply State.mk_pok)

theorem State.calInsert_ok {b₀ : State} (s : State) (g : Nat) (hs : s.Ok b₀) : (State.calInsert s g).Ok b₀ := by
  unfold State.calInsert; try dsimp -proj only
  repeat' (first | with_reducible assumption | intro _ | with_reducible apply State.foldl_ok | with_reducible apply State.foldl_pok | with_reducible apply State.commitFrom_ok | with_reducible apply State.ite_ok | with_reducible apply State.fst_of | split | with_reducible apply State.mk_pok)

theorem State.strokeFetch_ok {b₀ : State} (s : State) (g : Nat) (st : Stroke) (ecc : Ecc) (hs : s.Ok b₀) : State.POk b₀ (State.strokeFetch s g st ecc) := by
  unfold State.strokeFetch; try dsimp -proj only
  repeat' (first | with_reducible assumption | intro _ | with_reducible apply State.foldl_ok | with_reducible apply State.foldl_pok | with_reducible apply State.corrected_ok | with_reducible apply State.blot_ok | with_reducible apply State.uncorrRow_ok | with_reducible apply State.ite_ok | with_reducible apply State.ite_pok | with_reducible apply State.fst_of | split | with_reducible apply State.mk_pok)

theorem State.dropStroke_ok {b₀ : State} (s : State) (g : Nat) (st : Stroke) (hs : s.Ok b₀) : (State.dropStroke s g st).Ok b₀ := by
  unfold State.dropStroke; try dsimp -proj only
  repeat' (first | with_reducible assumption | with_reducible exact fun h => h | with_reducible exact fun h => Tab.wf_setD h _ _ | with_reducible exact fun h => Tab.wf_filter h _ | with_reducible exact fun _ => Tab.wf_nil _ | with_reducible exact fun h => Tab.wf_mapCmds _ h | with_reducible exact fun h => Tab.wf_foldl_setD _ _ _ h | intro _ | with_reducible apply State.foldl_ok | with_reducible apply State.foldl_pok | with_reducible apply State.modLane_ok | with_reducible apply State.idleSync_ok | with_reducible apply State.seqReady_ok | with_reducible apply State.strokeEnd_ok | with_reducible apply State.calInsert_ok | with_reducible apply State.ite_ok | with_reducible apply State.fst_of | split | with_reducible apply State.mk_pok | with_reducible apply State.mk_ok)

theorem State.beginStroke_ok {b₀ : State} (s : State) (g : Nat) (st : Stroke) (e : Entry) (hs : s.Ok b₀) : (State.beginStroke s g st e).Ok b₀ := by
  unfold State.beginStroke; try dsimp -proj only
  repeat' (first | with_reducible assumption | with_reducible exact fun h => h | with_reducible exact fun h => Tab.wf_setD h _ _ | with_reducible exact fun h => Tab.wf_filter h _ | with_reducible exact fun _ => Tab.wf_nil _ | with_reducible exact fun h => Tab.wf_mapCmds _ h | with_reducible exact fun h => Tab.wf_foldl_setD _ _ _ h | intro _ | with_reducible apply State.foldl_ok | with_reducible apply State.foldl_pok | with_reducible apply State.dieReset_ok | with_reducible apply State.modLun_ok | with_reducible apply State.modLane_ok | with_reducible apply State.ite_ok | with_reducible apply State.fst_of | split | with_reducible apply State.mk_pok | with_reducible apply State.mk_ok)

theorem execStrokeStart_runs {b₀ : State} (lane : Fin 128) (ecc : Ecc) (s : State) (hs : s.Ok b₀) : Runs b₀ (execStrokeStart lane ecc s) := by
  unfold execStrokeStart; try dsimp -proj only
  repeat' (first | with_reducible assumption | with_reducible exact fun h => h | with_reducible exact fun h => Tab.wf_setD h _ _ | with_reducible exact fun h => Tab.wf_filter h _ | with_reducible exact fun _ => Tab.wf_nil _ | with_reducible exact fun h => Tab.wf_mapCmds _ h | with_reducible exact fun h => Tab.wf_foldl_setD _ _ _ h | intro _ | with_reducible apply State.foldl_ok | with_reducible apply State.foldl_pok | with_reducible apply runs_done | with_reducible apply runs_idle | with_reducible apply runs_ite | with_reducible apply runs_next | with_reducible apply State.opportunity_ok | with_reducible apply State.strokeFetch_ok | with_reducible apply looked_runs | with_reducible apply State.dropStroke_ok | with_reducible apply State.modLane_ok | with_reducible apply State.beginStroke_ok | with_reducible apply State.ite_ok | with_reducible apply State.ite_pok | with_reducible apply State.fst_of | split | with_reducible apply State.mk_pok | with_reducible apply State.mk_ok)

theorem State.element_runs {b₀ : State} (s : State) (g kind : Nat) (f : Running → Word → State → State) (hs : s.Ok b₀) (hf : ∀ x0 x1 t, t.Ok b₀ → (f x0 x1 t).Ok b₀) : Runs b₀ (State.element s g kind f) := by
  unfold State.element; try dsimp -proj only
  repeat' (first | with_reducible assumption | intro _ | with_reducible apply State.foldl_ok | with_reducible apply State.foldl_pok | with_reducible apply runs_done | with_reducible apply runs_idle | with_reducible apply runs_ite | with_reducible apply runs_next | with_reducible apply State.modLane_ok | with_reducible apply hf | with_reducible apply State.ite_ok | with_reducible apply State.ite_pok | with_reducible apply State.fst_of | split | with_reducible apply State.mk_pok)

theorem State.modRun_ok {b₀ : State} (s : State) (g : Nat) (f : Running → Running) (hs : s.Ok b₀) : (State.modRun s g f).Ok b₀ := by
  unfold State.modRun; try dsimp -proj only
  repeat' (first | with_reducible assumption | with_reducible exact fun h => h | with_reducible exact fun h => Tab.wf_setD h _ _ | with_reducible exact fun h => Tab.wf_filter h _ | with_reducible exact fun _ => Tab.wf_nil _ | with_reducible exact fun h => Tab.wf_mapCmds _ h | with_reducible exact fun h => Tab.wf_foldl_setD _ _ _ h | intro _ | with_reducible apply State.foldl_ok | with_reducible apply State.foldl_pok | with_reducible apply State.modLane_ok | with_reducible apply State.ite_ok | with_reducible apply State.fst_of | split | with_reducible apply State.mk_pok | with_reducible apply State.mk_ok)

theorem execElCmd_runs {b₀ : State} (lane : Fin 128) (s : State) (hs : s.Ok b₀) : Runs b₀ (execElCmd lane s) := by
  unfold execElCmd; try dsimp -proj only
  repeat' (first | with_reducible assumption | intro _ | with_reducible apply State.foldl_ok | with_reducible apply State.foldl_pok | with_reducible apply runs_done | with_reducible apply runs_idle | with_reducible apply runs_ite | with_reducible apply runs_next | with_reducible apply State.element_runs | with_reducible apply State.drive_ok | with_reducible apply State.ite_ok | with_reducible apply State.ite_pok | with_reducible apply State.fst_of | split | with_reducible apply State.mk_pok)

theorem execElCmdp_runs {b₀ : State} (lane : Fin 128) (s : State) (hs : s.Ok b₀) : Runs b₀ (execElCmdp lane s) := by
  unfold execElCmdp; try dsimp -proj only
  repeat' (first | with_reducible assumption | intro _ | with_reducible apply State.foldl_ok | with_reducible apply State.foldl_pok | with_reducible apply runs_done | with_reducible apply runs_idle | with_reducible apply runs_ite | with_reducible apply runs_next | with_reducible apply State.element_runs | with_reducible apply State.drive_ok | with_reducible apply State.ite_ok | with_reducible apply State.ite_pok | with_reducible apply State.fst_of | split | with_reducible apply State.mk_pok)

theorem execElAddr_runs {b₀ : State} (lane : Fin 128) (s : State) (hs : s.Ok b₀) : Runs b₀ (execElAddr lane s) := by
  unfold execElAddr; try dsimp -proj only
  repeat' (first | with_reducible assumption | intro _ | with_reducible apply State.foldl_ok | with_reducible apply State.foldl_pok | with_reducible apply runs_done | with_reducible apply runs_idle | with_reducible apply runs_ite | with_reducible apply runs_next | with_reducible apply State.element_runs | with_reducible apply State.drive_ok | with_reducible apply State.ite_ok | with_reducible apply State.ite_pok | with_reducible apply State.fst_of | split | with_reducible apply State.mk_pok)

theorem execElFeat_runs {b₀ : State} (lane : Fin 128) (s : State) (hs : s.Ok b₀) : Runs b₀ (execElFeat lane s) := by
  unfold execElFeat; try dsimp -proj only
  repeat' (first | with_reducible assumption | with_reducible exact fun h => h | with_reducible exact fun h => Tab.wf_setD h _ _ | with_reducible exact fun h => Tab.wf_filter h _ | with_reducible exact fun _ => Tab.wf_nil _ | with_reducible exact fun h => Tab.wf_mapCmds _ h | with_reducible exact fun h => Tab.wf_foldl_setD _ _ _ h | intro _ | with_reducible apply State.foldl_ok | with_reducible apply State.foldl_pok | with_reducible apply runs_done | with_reducible apply runs_idle | with_reducible apply runs_ite | with_reducible apply runs_next | with_reducible apply State.element_runs | with_reducible apply State.drive_ok | with_reducible apply State.modLun_ok | with_reducible apply State.ite_ok | with_reducible apply State.ite_pok | with_reducible apply State.fst_of | split | with_reducible apply State.mk_pok | with_reducible apply State.mk_ok)

theorem execElWait_runs {b₀ : State} (lane : Fin 128) (s : State) (hs : s.Ok b₀) : Runs b₀ (execElWait lane s) := by
  unfold execElWait; try dsimp -proj only
  repeat' (first | with_reducible assumption | with_reducible exact fun h => h | with_reducible exact fun h => Tab.wf_setD h _ _ | with_reducible exact fun h => Tab.wf_filter h _ | with_reducible exact fun _ => Tab.wf_nil _ | with_reducible exact fun h => Tab.wf_mapCmds _ h | with_reducible exact fun h => Tab.wf_foldl_setD _ _ _ h | intro _ | with_reducible apply State.foldl_ok | with_reducible apply State.foldl_pok | with_reducible apply runs_done | with_reducible apply runs_idle | with_reducible apply runs_ite | with_reducible apply runs_next | with_reducible apply State.element_runs | with_reducible apply State.modLane_ok | with_reducible apply State.ite_ok | with_reducible apply State.ite_pok | with_reducible apply State.fst_of | split | with_reducible apply State.mk_pok | with_reducible apply State.mk_ok)

theorem execElStat_runs {b₀ : State} (lane : Fin 128) (status : Byte) (s : State) (hs : s.Ok b₀) : Runs b₀ (execElStat lane status s) := by
  unfold execElStat; try dsimp -proj only
  repeat' (first | with_reducible assumption | with_reducible exact fun h => h | with_reducible exact fun h => Tab.wf_setD h _ _ | with_reducible exact fun h => Tab.wf_filter h _ | with_reducible exact fun _ => Tab.wf_nil _ | with_reducible exact fun h => Tab.wf_mapCmds _ h | with_reducible exact fun h => Tab.wf_foldl_setD _ _ _ h | intro _ | with_reducible apply State.foldl_ok | with_reducible apply State.foldl_pok | with_reducible apply runs_done | with_reducible apply runs_idle | with_reducible apply runs_ite | with_reducible apply runs_next | with_reducible apply State.element_runs | with_reducible apply State.drive_ok | with_reducible apply State.modRun_ok | with_reducible apply State.ite_ok | with_reducible apply State.ite_pok | with_reducible apply State.fst_of | split | with_reducible apply State.mk_pok | with_reducible apply State.mk_ok)

theorem execElCe_runs {b₀ : State} (lane : Fin 128) (s : State) (hs : s.Ok b₀) : Runs b₀ (execElCe lane s) := by
  unfold execElCe; try dsimp -proj only
  repeat' (first | with_reducible assumption | with_reducible exact fun h => h | with_reducible exact fun h => Tab.wf_setD h _ _ | with_reducible exact fun h => Tab.wf_filter h _ | with_reducible exact fun _ => Tab.wf_nil _ | with_reducible exact fun h => Tab.wf_mapCmds _ h | with_reducible exact fun h => Tab.wf_foldl_setD _ _ _ h | intro _ | with_reducible apply State.foldl_ok | with_reducible apply State.foldl_pok | with_reducible apply runs_done | with_reducible apply runs_idle | with_reducible apply runs_ite | with_reducible apply runs_next | with_reducible apply State.element_runs | with_reducible apply State.modLane_ok | with_reducible apply State.ite_ok | with_reducible apply State.ite_pok | with_reducible apply State.fst_of | split | with_reducible apply State.mk_pok | with_reducible apply State.mk_ok)

theorem State.rawFrame_ok {b₀ : State} (s : State) (c h k : Nat) (x : Cmd) (f : Frame) (hs : s.Ok b₀) : (State.rawFrame s c h k x f).Ok b₀ := by
  unfold State.rawFrame; try dsimp -proj only
  repeat' (first | with_reducible assumption | with_reducible exact fun h => h | with_reducible exact fun h => Tab.wf_setD h _ _ | with_reducible exact fun h => Tab.wf_filter h _ | with_reducible exact fun _ => Tab.wf_nil _ | with_reducible exact fun h => Tab.wf_mapCmds _ h | with_reducible exact fun h => Tab.wf_foldl_setD _ _ _ h | intro _ | with_reducible apply State.foldl_ok | with_reducible apply State.foldl_pok | with_reducible apply State.modSlab_ok | with_reducible apply State.modFrame_ok | with_reducible apply State.framesEnded_ok | with_reducible apply State.ite_ok | with_reducible apply State.fst_of | split | with_reducible apply State.mk_pok | with_reducible apply State.mk_ok)

theorem State.gambitGone_ok {b₀ : State} (s : State) (g h : Nat) (hs : s.Ok b₀) : (State.gambitGone s g h).Ok b₀ := by
  unfold State.gambitGone; try dsimp -proj only
  repeat' (first | with_reducible assumption | with_reducible exact fun h => h | with_reducible exact fun h => Tab.wf_setD h _ _ | with_reducible exact fun h => Tab.wf_filter h _ | with_reducible exact fun _ => Tab.wf_nil _ | with_reducible exact fun h => Tab.wf_mapCmds _ h | with_reducible exact fun h => Tab.wf_foldl_setD _ _ _ h | intro _ | with_reducible apply State.foldl_ok | with_reducible apply State.foldl_pok | with_reducible apply State.modLane_ok | with_reducible apply State.ite_ok | with_reducible apply State.fst_of | split | with_reducible apply State.mk_pok | with_reducible apply State.mk_ok)

theorem State.fillSlot_ok {b₀ : State} (s : State) (g i h k : Nat) (f : Frame) (hs : s.Ok b₀) : (State.fillSlot s g i h k f).Ok b₀ := by
  unfold State.fillSlot; try dsimp -proj only
  repeat' (first | with_reducible assumption | with_reducible exact fun h => h | with_reducible exact fun h => Tab.wf_setD h _ _ | with_reducible exact fun h => Tab.wf_filter h _ | with_reducible exact fun _ => Tab.wf_nil _ | with_reducible exact fun h => Tab.wf_mapCmds _ h | with_reducible exact fun h => Tab.wf_foldl_setD _ _ _ h | intro _ | with_reducible apply State.foldl_ok | with_reducible apply State.foldl_pok | with_reducible apply State.modLane_ok | with_reducible apply State.ite_ok | with_reducible apply State.fst_of | split | with_reducible apply State.mk_pok | with_reducible apply State.mk_ok)

theorem State.resensed_ok {b₀ : State} (s : State) (g h k : Nat) (hs : s.Ok b₀) : (State.resensed s g h k).Ok b₀ := by
  unfold State.resensed; try dsimp -proj only
  repeat' (first | with_reducible assumption | intro _ | with_reducible apply State.foldl_ok | with_reducible apply State.foldl_pok | with_reducible apply State.chargeSense_ok | with_reducible apply State.ite_ok | with_reducible apply State.fst_of | split | with_reducible apply State.mk_pok)

theorem State.frameArrives_ok {b₀ : State} (s : State) (g h k : Nat) (p : List Word) (x : Cmd) (f : Frame) (hs : s.Ok b₀) : (State.frameArrives s g h k p x f).Ok b₀ := by
  unfold State.frameArrives; try dsimp -proj only
  repeat' (first | with_reducible assumption | with_reducible exact fun h => h | with_reducible exact fun h => Tab.wf_setD h _ _ | with_reducible exact fun h => Tab.wf_filter h _ | with_reducible exact fun _ => Tab.wf_nil _ | with_reducible exact fun h => Tab.wf_mapCmds _ h | with_reducible exact fun h => Tab.wf_foldl_setD _ _ _ h | intro _ | with_reducible apply State.foldl_ok | with_reducible apply State.foldl_pok | with_reducible apply State.fillSlot_ok | with_reducible apply State.chargeSense_ok | with_reducible apply State.resensed_ok | with_reducible apply State.modFrame_ok | with_reducible apply State.ite_ok | with_reducible apply State.fst_of | split | with_reducible apply State.mk_pok | with_reducible apply State.mk_ok)

theorem State.foreignArrives_ok {b₀ : State} (s : State) (g h k : Nat) (f : Frame) (hs : s.Ok b₀) : (State.foreignArrives s g h k f).Ok b₀ := by
  unfold State.foreignArrives; try dsimp -proj only
  repeat' (first | with_reducible assumption | with_reducible exact fun h => h | with_reducible exact fun h => Tab.wf_setD h _ _ | with_reducible exact fun h => Tab.wf_filter h _ | with_reducible exact fun _ => Tab.wf_nil _ | with_reducible exact fun h => Tab.wf_mapCmds _ h | with_reducible exact fun h => Tab.wf_foldl_setD _ _ _ h | intro _ | with_reducible apply State.foldl_ok | with_reducible apply State.foldl_pok | with_reducible apply State.fillSlot_ok | with_reducible apply State.modLane_ok | with_reducible apply State.ite_ok | with_reducible apply State.fst_of | split | with_reducible apply State.mk_pok | with_reducible apply State.mk_ok)

theorem State.rawArrives_ok {b₀ : State} (s : State) (g h k : Nat) (x : Cmd) (f : Frame) (ecc : Ecc) (byte : Nat) (hs : s.Ok b₀) : (State.rawArrives s g h k x f ecc byte).Ok b₀ := by
  unfold State.rawArrives; try dsimp -proj only
  repeat' (first | with_reducible assumption | with_reducible exact fun h => h | with_reducible exact fun h => Tab.wf_setD h _ _ | with_reducible exact fun h => Tab.wf_filter h _ | with_reducible exact fun _ => Tab.wf_nil _ | with_reducible exact fun h => Tab.wf_mapCmds _ h | with_reducible exact fun h => Tab.wf_foldl_setD _ _ _ h | intro _ | with_reducible apply State.foldl_ok | with_reducible apply State.foldl_pok | with_reducible apply State.fillSlot_ok | with_reducible apply State.resensed_ok | with_reducible apply State.modFrame_ok | with_reducible apply State.fifoRead_ok | with_reducible apply State.fifoUncorr_ok | with_reducible apply State.freeSlot_ok | with_reducible apply State.rawFrame_ok | with_reducible apply State.ite_ok | with_reducible apply State.fst_of | split | with_reducible apply State.mk_pok | with_reducible apply State.mk_ok)

theorem State.takeFrame_ok {b₀ : State} (s : State) (g h : Nat) (p : List Word) (n : Nat) (f : Frame) (ecc : Ecc) (byte : Nat) (hs : s.Ok b₀) : (State.takeFrame s g h p n f ecc byte).Ok b₀ := by
  unfold State.takeFrame; try dsimp -proj only
  repeat' (first | with_reducible assumption | with_reducible exact fun h => h | with_reducible exact fun h => Tab.wf_setD h _ _ | with_reducible exact fun h => Tab.wf_filter h _ | with_reducible exact fun _ => Tab.wf_nil _ | with_reducible exact fun h => Tab.wf_mapCmds _ h | with_reducible exact fun h => Tab.wf_foldl_setD _ _ _ h | intro _ | with_reducible apply State.foldl_ok | with_reducible apply State.foldl_pok | with_reducible apply State.gambitGone_ok | with_reducible apply State.discard_ok | with_reducible apply State.modCmd_ok | with_reducible apply State.foreignArrives_ok | with_reducible apply State.rawArrives_ok | with_reducible apply State.frameArrives_ok | with_reducible apply State.ite_ok | with_reducible apply State.fst_of | split | with_reducible apply State.mk_pok | with_reducible apply State.mk_ok)

theorem State.takeRaw_ok {b₀ : State} (s : State) (g h n : Nat) (raw : List Byte) (hs : s.Ok b₀) : (State.takeRaw s g h n raw).Ok b₀ := by
  unfold State.takeRaw; try dsimp -proj only
  repeat' (first | with_reducible assumption | with_reducible exact fun h => h | with_reducible exact fun h => Tab.wf_setD h _ _ | with_reducible exact fun h => Tab.wf_filter h _ | with_reducible exact fun _ => Tab.wf_nil _ | with_reducible exact fun h => Tab.wf_mapCmds _ h | with_reducible exact fun h => Tab.wf_foldl_setD _ _ _ h | intro _ | with_reducible apply State.foldl_ok | with_reducible apply State.foldl_pok | with_reducible apply State.modCore_ok | with_reducible apply State.modCmd_ok | with_reducible apply State.modSlab_ok | with_reducible apply State.ite_ok | with_reducible apply State.fst_of | split | with_reducible apply State.mk_pok | with_reducible apply State.mk_ok)

theorem State.calBytes_ok {b₀ : State} (s : State) (g n : Nat) (hs : s.Ok b₀) : (State.calBytes s g n).Ok b₀ := by
  unfold State.calBytes; try dsimp -proj only
  repeat' (first | with_reducible assumption | with_reducible exact fun h => h | with_reducible exact fun h => Tab.wf_setD h _ _ | with_reducible exact fun h => Tab.wf_filter h _ | with_reducible exact fun _ => Tab.wf_nil _ | with_reducible exact fun h => Tab.wf_mapCmds _ h | with_reducible exact fun h => Tab.wf_foldl_setD _ _ _ h | intro _ | with_reducible apply State.foldl_ok | with_reducible apply State.foldl_pok | with_reducible apply State.modLane_ok | with_reducible apply State.ite_ok | with_reducible apply State.fst_of | split | with_reducible apply State.mk_pok | with_reducible apply State.mk_ok)

theorem State.frameBurst_ok {b₀ : State} (s : State) (g : Nat) (r : Running) (n : Nat) (frames : List Frame) (ecc : List Ecc) (byte : Nat) (hs : s.Ok b₀) : (State.frameBurst s g r n frames ecc byte).Ok b₀ := by
  unfold State.frameBurst; try dsimp -proj only
  repeat' (first | with_reducible assumption | with_reducible exact fun h => h | with_reducible exact fun h => Tab.wf_setD h _ _ | with_reducible exact fun h => Tab.wf_filter h _ | with_reducible exact fun _ => Tab.wf_nil _ | with_reducible exact fun h => Tab.wf_mapCmds _ h | with_reducible exact fun h => Tab.wf_foldl_setD _ _ _ h | intro _ | with_reducible apply State.foldl_ok | with_reducible apply State.foldl_pok | with_reducible apply State.takeFrame_ok | with_reducible apply State.drive_ok | with_reducible apply State.modRun_ok | with_reducible apply State.calBytes_ok | with_reducible apply State.modLun_ok | with_reducible apply State.ite_ok | with_reducible apply State.fst_of | split | with_reducible apply State.mk_pok | with_reducible apply State.mk_ok)

theorem State.rawBurst_ok {b₀ : State} (s : State) (g : Nat) (r : Running) (n : Nat) (raw : List Byte) (hs : s.Ok b₀) : (State.rawBurst s g r n raw).Ok b₀ := by
  unfold State.rawBurst; try dsimp -proj only
  repeat' (first | with_reducible assumption | intro _ | with_reducible apply State.foldl_ok | with_reducible apply State.foldl_pok | with_reducible apply State.takeRaw_ok | with_reducible apply State.drive_ok | with_reducible apply State.calBytes_ok | with_reducible apply State.ite_ok | with_reducible apply State.fst_of | split | with_reducible apply State.mk_pok)

theorem execElDout_runs {b₀ : State} (lane : Fin 128) (frames : List Frame) (raw : List Byte) (s : State) (ecc : List Ecc := []) (byte : Fin 4672 := 0) (hs : s.Ok b₀) : Runs b₀ (execElDout lane frames raw s ecc byte) := by
  unfold execElDout; try dsimp -proj only
  repeat' (first | with_reducible assumption | intro _ | with_reducible apply State.foldl_ok | with_reducible apply State.foldl_pok | with_reducible apply runs_done | with_reducible apply runs_idle | with_reducible apply runs_ite | with_reducible apply runs_next | with_reducible apply State.element_runs | with_reducible apply State.rawBurst_ok | with_reducible apply State.frameBurst_ok | with_reducible apply State.ite_ok | with_reducible apply State.ite_pok | with_reducible apply State.fst_of | split | with_reducible apply State.mk_pok)

theorem State.sendFrames_ok {b₀ : State} (s : State) (g h : Nat) (x : Cmd) (fill : Word) (ks : List Nat) (ecc : List Ecc) (hs : s.Ok b₀) : (State.sendFrames s g h x fill ks ecc).Ok b₀ := by
  unfold State.sendFrames; try dsimp -proj only
  repeat' (first | with_reducible assumption | with_reducible exact fun h => h | with_reducible exact fun h => Tab.wf_setD h _ _ | with_reducible exact fun h => Tab.wf_filter h _ | with_reducible exact fun _ => Tab.wf_nil _ | with_reducible exact fun h => Tab.wf_mapCmds _ h | with_reducible exact fun h => Tab.wf_foldl_setD _ _ _ h | intro _ | with_reducible apply State.foldl_ok | with_reducible apply State.foldl_pok | with_reducible apply State.slabRead_ok | with_reducible apply State.drive_ok | with_reducible apply State.modCmd_ok | with_reducible apply State.ite_ok | with_reducible apply State.fst_of | split | with_reducible apply State.mk_pok | with_reducible apply State.mk_ok)

theorem execElDin_runs {b₀ : State} (lane : Fin 128) (s : State) (ecc : List Ecc := []) (hs : s.Ok b₀) : Runs b₀ (execElDin lane s ecc) := by
  unfold execElDin; try dsimp -proj only
  repeat' (first | with_reducible assumption | with_reducible exact fun h => h | with_reducible exact fun h => Tab.wf_setD h _ _ | with_reducible exact fun h => Tab.wf_filter h _ | with_reducible exact fun _ => Tab.wf_nil _ | with_reducible exact fun h => Tab.wf_mapCmds _ h | with_reducible exact fun h => Tab.wf_foldl_setD _ _ _ h | intro _ | with_reducible apply State.foldl_ok | with_reducible apply State.foldl_pok | with_reducible apply runs_done | with_reducible apply runs_idle | with_reducible apply runs_ite | with_reducible apply runs_next | with_reducible apply State.element_runs | with_reducible apply State.drive_ok | with_reducible apply State.modRun_ok | with_reducible apply State.sendFrames_ok | with_reducible apply State.ite_ok | with_reducible apply State.ite_pok | with_reducible apply State.fst_of | split | with_reducible apply State.mk_pok | with_reducible apply State.mk_ok)

theorem State.egAct_ok {b₀ : State} (s : State) (g ld : Nat) (hs : s.Ok b₀) : (State.egAct s g ld).Ok b₀ := by
  unfold State.egAct; try dsimp -proj only
  repeat' (first | with_reducible assumption | with_reducible exact fun h => h | with_reducible exact fun h => Tab.wf_setD h _ _ | with_reducible exact fun h => Tab.wf_filter h _ | with_reducible exact fun _ => Tab.wf_nil _ | with_reducible exact fun h => Tab.wf_mapCmds _ h | with_reducible exact fun h => Tab.wf_foldl_setD _ _ _ h | intro _ | with_reducible apply State.foldl_ok | with_reducible apply State.foldl_pok | with_reducible apply State.modLane_ok | with_reducible apply State.ite_ok | with_reducible apply State.fst_of | split | with_reducible apply State.mk_pok | with_reducible apply State.mk_ok)

theorem execElEnd_runs {b₀ : State} (lane : Fin 128) (s : State) (hs : s.Ok b₀) : Runs b₀ (execElEnd lane s) := by
  unfold execElEnd; try dsimp -proj only
  repeat' (first | with_reducible assumption | with_reducible exact fun h => h | with_reducible exact fun h => Tab.wf_setD h _ _ | with_reducible exact fun h => Tab.wf_filter h _ | with_reducible exact fun _ => Tab.wf_nil _ | with_reducible exact fun h => Tab.wf_mapCmds _ h | with_reducible exact fun h => Tab.wf_foldl_setD _ _ _ h | intro _ | with_reducible apply State.foldl_ok | with_reducible apply State.foldl_pok | with_reducible apply runs_done | with_reducible apply runs_idle | with_reducible apply runs_ite | with_reducible apply runs_next | with_reducible apply State.element_runs | with_reducible apply State.modLane_ok | with_reducible apply State.modLun_ok | with_reducible apply State.idleSync_ok | with_reducible apply State.egAct_ok | with_reducible apply State.strokeEnd_ok | with_reducible apply State.calInsert_ok | with_reducible apply State.sealNext_ok | with_reducible apply State.ite_ok | with_reducible apply State.ite_pok | with_reducible apply State.fst_of | split | with_reducible apply State.mk_pok | with_reducible apply State.mk_ok)

theorem State.progResults_ok {b₀ : State} (s : State) (g ld : Nat) (status : Byte) (ready : Bool) (cc : CcFault) (hs : s.Ok b₀) : (State.progResults s g ld status ready cc).Ok b₀ := by
  unfold State.progResults; try dsimp -proj only
  repeat' (first | with_reducible assumption | with_reducible exact fun h => h | with_reducible exact fun h => Tab.wf_setD h _ _ | with_reducible exact fun h => Tab.wf_filter h _ | with_reducible exact fun _ => Tab.wf_nil _ | with_reducible exact fun h => Tab.wf_mapCmds _ h | with_reducible exact fun h => Tab.wf_foldl_setD _ _ _ h | intro _ | with_reducible apply State.foldl_ok | with_reducible apply State.foldl_pok | with_reducible apply State.mediaResult_ok | with_reducible apply State.modLun_ok | with_reducible apply State.ite_ok | with_reducible apply State.fst_of | split | with_reducible apply State.mk_pok | with_reducible apply State.mk_ok)

theorem State.eraseResult_ok {b₀ : State} (s : State) (g ld : Nat) (status : Byte) (cc : CcFault) (hs : s.Ok b₀) : (State.eraseResult s g ld status cc).Ok b₀ := by
  unfold State.eraseResult; try dsimp -proj only
  repeat' (first | with_reducible assumption | with_reducible exact fun h => h | with_reducible exact fun h => Tab.wf_setD h _ _ | with_reducible exact fun h => Tab.wf_filter h _ | with_reducible exact fun _ => Tab.wf_nil _ | with_reducible exact fun h => Tab.wf_mapCmds _ h | with_reducible exact fun h => Tab.wf_foldl_setD _ _ _ h | intro _ | with_reducible apply State.foldl_ok | with_reducible apply State.foldl_pok | with_reducible apply State.mediaResult_ok | with_reducible apply State.modLun_ok | with_reducible apply State.ite_ok | with_reducible apply State.fst_of | split | with_reducible apply State.mk_pok | with_reducible apply State.mk_ok)

theorem State.endStall_ok {b₀ : State} (s : State) (c h : Nat) (hs : s.Ok b₀) : (State.endStall s c h).Ok b₀ := by
  unfold State.endStall; try dsimp -proj only
  repeat' (first | with_reducible assumption | with_reducible exact fun h => h | with_reducible exact fun h => Tab.wf_setD h _ _ | with_reducible exact fun h => Tab.wf_filter h _ | with_reducible exact fun _ => Tab.wf_nil _ | with_reducible exact fun h => Tab.wf_mapCmds _ h | with_reducible exact fun h => Tab.wf_foldl_setD _ _ _ h | intro _ | with_reducible apply State.foldl_ok | with_reducible apply State.foldl_pok | with_reducible apply State.count_ok | with_reducible apply State.modReg_ok | with_reducible apply State.modCmd_ok | with_reducible apply State.ite_ok | with_reducible apply State.fst_of | split | with_reducible apply State.mk_pok | with_reducible apply State.mk_ok)

theorem State.endStalls_ok {b₀ : State} (s : State) (g ld : Nat) (hs : s.Ok b₀) : (State.endStalls s g ld).Ok b₀ := by
  unfold State.endStalls; try dsimp -proj only
  repeat' (first | with_reducible assumption | intro _ | with_reducible apply State.foldl_ok | with_reducible apply State.foldl_pok | with_reducible apply State.endStall_ok | with_reducible apply State.ite_ok | with_reducible apply State.fst_of | split | with_reducible apply State.mk_pok)

theorem State.becomeReady_ok {b₀ : State} (s : State) (g ld : Nat) (status : Byte) (cc : CcFault) (hs : s.Ok b₀) : (State.becomeReady s g ld status cc).Ok b₀ := by
  unfold State.becomeReady; try dsimp -proj only
  repeat' (first | with_reducible assumption | with_reducible exact fun h => h | with_reducible exact fun h => Tab.wf_setD h _ _ | with_reducible exact fun h => Tab.wf_filter h _ | with_reducible exact fun _ => Tab.wf_nil _ | with_reducible exact fun h => Tab.wf_mapCmds _ h | with_reducible exact fun h => Tab.wf_foldl_setD _ _ _ h | intro _ | with_reducible apply State.foldl_ok | with_reducible apply State.foldl_pok | with_reducible apply State.modLun_ok | with_reducible apply State.progResults_ok | with_reducible apply State.endStalls_ok | with_reducible apply State.eraseResult_ok | with_reducible apply State.count_ok | with_reducible apply State.ite_ok | with_reducible apply State.fst_of | split | with_reducible apply State.mk_pok | with_reducible apply State.mk_ok)

theorem State.overrunLost_ok {b₀ : State} (s : State) (g ld : Nat) (hs : s.Ok b₀) : (State.overrunLost s g ld).Ok b₀ := by
  unfold State.overrunLost; try dsimp -proj only
  repeat' (first | with_reducible assumption | with_reducible exact fun h => h | with_reducible exact fun h => Tab.wf_setD h _ _ | with_reducible exact fun h => Tab.wf_filter h _ | with_reducible exact fun _ => Tab.wf_nil _ | with_reducible exact fun h => Tab.wf_mapCmds _ h | with_reducible exact fun h => Tab.wf_foldl_setD _ _ _ h | intro _ | with_reducible apply State.foldl_ok | with_reducible apply State.foldl_pok | with_reducible apply State.modLun_ok | with_reducible apply State.finish_ok | with_reducible apply State.ite_ok | with_reducible apply State.fst_of | split | with_reducible apply State.mk_pok | with_reducible apply State.mk_ok)

theorem State.lunReady_ok {b₀ : State} (s : State) (g ld : Nat) (status : Byte) (cc : CcFault) (hs : s.Ok b₀) : (State.lunReady s g ld status cc).Ok b₀ := by
  unfold State.lunReady; try dsimp -proj only
  repeat' (first | with_reducible assumption | intro _ | with_reducible apply State.foldl_ok | with_reducible apply State.foldl_pok | with_reducible apply State.becomeReady_ok | with_reducible apply State.seqLun_ok | with_reducible apply State.lunReadyEvent_ok | with_reducible apply State.sealNext_ok | with_reducible apply State.toScribe_ok | with_reducible apply State.overrunLost_ok | with_reducible apply State.ite_ok | with_reducible apply State.fst_of | split | with_reducible apply State.mk_pok)

theorem State.timedOut_ok {b₀ : State} (s : State) (g ld : Nat) (h : Option Nat) (cc : CcFault) (hs : s.Ok b₀) : (State.timedOut s g ld h cc).Ok b₀ := by
  unfold State.timedOut; try dsimp -proj only
  repeat' (first | with_reducible assumption | with_reducible exact fun h => h | with_reducible exact fun h => Tab.wf_setD h _ _ | with_reducible exact fun h => Tab.wf_filter h _ | with_reducible exact fun _ => Tab.wf_nil _ | with_reducible exact fun h => Tab.wf_mapCmds _ h | with_reducible exact fun h => Tab.wf_foldl_setD _ _ _ h | intro _ | with_reducible apply State.foldl_ok | with_reducible apply State.foldl_pok | with_reducible apply State.strokeEnd_ok | with_reducible apply State.mediaResult_ok | with_reducible apply State.abort_ok | with_reducible apply State.seqReady_ok | with_reducible apply State.ite_ok | with_reducible apply State.fst_of | split | with_reducible apply State.mk_pok | with_reducible apply State.mk_ok)

theorem State.timedOutReset_ok {b₀ : State} (s : State) (g ld : Nat) (hs : s.Ok b₀) : (State.timedOutReset s g ld).Ok b₀ := by
  unfold State.timedOutReset; try dsimp -proj only
  repeat' (first | with_reducible assumption | intro _ | with_reducible apply State.foldl_ok | with_reducible apply State.foldl_pok | with_reducible apply State.fallbackResets_ok | with_reducible apply State.toScribe_ok | with_reducible apply State.ite_ok | with_reducible apply State.fst_of | split | with_reducible apply State.mk_pok)

theorem State.busyTimeout_ok {b₀ : State} (s : State) (g ld : Nat) (cc : CcFault) (hs : s.Ok b₀) : (State.busyTimeout s g ld cc).Ok b₀ := by
  unfold State.busyTimeout; try dsimp -proj only
  repeat' (first | with_reducible assumption | with_reducible exact fun h => h | with_reducible exact fun h => Tab.wf_setD h _ _ | with_reducible exact fun h => Tab.wf_filter h _ | with_reducible exact fun _ => Tab.wf_nil _ | with_reducible exact fun h => Tab.wf_mapCmds _ h | with_reducible exact fun h => Tab.wf_foldl_setD _ _ _ h | intro _ | with_reducible apply State.foldl_ok | with_reducible apply State.foldl_pok | with_reducible apply State.raise_ok | with_reducible apply State.blot_ok | with_reducible apply State.modLun_ok | with_reducible apply State.timedOut_ok | with_reducible apply State.timedOutReset_ok | with_reducible apply State.ite_ok | with_reducible apply State.fst_of | split | with_reducible apply State.mk_pok | with_reducible apply State.mk_ok)

theorem State.egReady_ok {b₀ : State} (s : State) (g ld : Nat) (status : Byte) (cc : CcFault) (hs : s.Ok b₀) : (State.egReady s g ld status cc).Ok b₀ := by
  unfold State.egReady; try dsimp -proj only
  repeat' (first | with_reducible assumption | with_reducible exact fun h => h | with_reducible exact fun h => Tab.wf_setD h _ _ | with_reducible exact fun h => Tab.wf_filter h _ | with_reducible exact fun _ => Tab.wf_nil _ | with_reducible exact fun h => Tab.wf_mapCmds _ h | with_reducible exact fun h => Tab.wf_foldl_setD _ _ _ h | intro _ | with_reducible apply State.foldl_ok | with_reducible apply State.foldl_pok | with_reducible apply State.becomeReady_ok | with_reducible apply State.egResults_ok | with_reducible apply State.egCmd_ok | with_reducible apply State.egOwnEnd_ok | with_reducible apply State.modLun_ok | with_reducible apply State.egAct_ok | with_reducible apply State.ite_ok | with_reducible apply State.fst_of | split | with_reducible apply State.mk_pok | with_reducible apply State.mk_ok)

theorem State.egStatus_ok {b₀ : State} (s : State) (g ld : Nat) (status : Byte) (cc : CcFault) (hs : s.Ok b₀) : (State.egStatus s g ld status cc).Ok b₀ := by
  unfold State.egStatus; try dsimp -proj only
  repeat' (first | with_reducible assumption | with_reducible exact fun h => h | with_reducible exact fun h => Tab.wf_setD h _ _ | with_reducible exact fun h => Tab.wf_filter h _ | with_reducible exact fun _ => Tab.wf_nil _ | with_reducible exact fun h => Tab.wf_mapCmds _ h | with_reducible exact fun h => Tab.wf_foldl_setD _ _ _ h | intro _ | with_reducible apply State.foldl_ok | with_reducible apply State.foldl_pok | with_reducible apply State.egReady_ok | with_reducible apply State.progResults_ok | with_reducible apply State.egResults_ok | with_reducible apply State.modLun_ok | with_reducible apply State.ite_ok | with_reducible apply State.fst_of | split | with_reducible apply State.mk_pok | with_reducible apply State.mk_ok)

theorem State.lunStatus_ok {b₀ : State} (s : State) (g ld : Nat) (status : Byte) (cc : CcFault) (timed : Bool) (hs : s.Ok b₀) : (State.lunStatus s g ld status cc timed).Ok b₀ := by
  unfold State.lunStatus; try dsimp -proj only
  repeat' (first | with_reducible assumption | with_reducible exact fun h => h | with_reducible exact fun h => Tab.wf_setD h _ _ | with_reducible exact fun h => Tab.wf_filter h _ | with_reducible exact fun _ => Tab.wf_nil _ | with_reducible exact fun h => Tab.wf_mapCmds _ h | with_reducible exact fun h => Tab.wf_foldl_setD _ _ _ h | intro _ | with_reducible apply State.foldl_ok | with_reducible apply State.foldl_pok | with_reducible apply State.egStatus_ok | with_reducible apply State.lunReady_ok | with_reducible apply State.progResults_ok | with_reducible apply State.modLun_ok | with_reducible apply State.busyTimeout_ok | with_reducible apply State.ite_ok | with_reducible apply State.fst_of | split | with_reducible apply State.mk_pok | with_reducible apply State.mk_ok)

theorem State.pollByte_ok {b₀ : State} (s : State) (g : Nat) (status : Byte) (hs : s.Ok b₀) : State.POk b₀ (State.pollByte s g status) := by
  unfold State.pollByte; try dsimp -proj only
  repeat' (first | with_reducible assumption | intro _ | with_reducible apply State.foldl_ok | with_reducible apply State.foldl_pok | with_reducible apply State.opportunity_ok | with_reducible apply State.ite_ok | with_reducible apply State.ite_pok | with_reducible apply State.fst_of | split | with_reducible apply State.mk_pok)

theorem State.readStatusOf_ok {b₀ : State} (s : State) (g ld : Nat) (status : Byte) (cc : CcFault) (timed : Bool) (hs : s.Ok b₀) : (State.readStatusOf s g ld status cc timed).Ok b₀ := by
  unfold State.readStatusOf; try dsimp -proj only
  repeat' (first | with_reducible assumption | with_reducible exact fun h => h | with_reducible exact fun h => Tab.wf_setD h _ _ | with_reducible exact fun h => Tab.wf_filter h _ | with_reducible exact fun _ => Tab.wf_nil _ | with_reducible exact fun h => Tab.wf_mapCmds _ h | with_reducible exact fun h => Tab.wf_foldl_setD _ _ _ h | intro _ | with_reducible apply State.foldl_ok | with_reducible apply State.foldl_pok | with_reducible apply State.pollByte_ok | with_reducible apply State.modLane_ok | with_reducible apply State.lunStatus_ok | with_reducible apply State.ite_ok | with_reducible apply State.fst_of | split | with_reducible apply State.mk_pok | with_reducible apply State.mk_ok)

theorem execBusyPoll_runs {b₀ : State} (lane : Fin 128) (die : Fin 64) (status : Byte) (cc : CcFault) (s : State) (hs : s.Ok b₀) : Runs b₀ (execBusyPoll lane die status cc s) := by
  unfold execBusyPoll; try dsimp -proj only
  repeat' (first | with_reducible assumption | intro _ | with_reducible apply State.foldl_ok | with_reducible apply State.foldl_pok | with_reducible apply runs_done | with_reducible apply runs_idle | with_reducible apply runs_ite | with_reducible apply runs_next | with_reducible apply looked_runs | with_reducible apply State.readStatusOf_ok | with_reducible apply State.calInsert_ok | with_reducible apply State.ite_ok | with_reducible apply State.ite_pok | with_reducible apply State.fst_of | split | with_reducible apply State.mk_pok)

theorem execRbReady_runs {b₀ : State} (lane : Fin 128) (die : Fin 64) (status : Byte) (cc : CcFault) (s : State) (hs : s.Ok b₀) : Runs b₀ (execRbReady lane die status cc s) := by
  unfold execRbReady; try dsimp -proj only
  repeat' (first | with_reducible assumption | intro _ | with_reducible apply State.foldl_ok | with_reducible apply State.foldl_pok | with_reducible apply runs_done | with_reducible apply runs_idle | with_reducible apply runs_ite | with_reducible apply runs_next | with_reducible apply looked_runs | with_reducible apply State.readStatusOf_ok | with_reducible apply State.calInsert_ok | with_reducible apply State.ite_ok | with_reducible apply State.ite_pok | with_reducible apply State.fst_of | split | with_reducible apply State.mk_pok)

theorem execRbBusyTimeout_runs {b₀ : State} (lane : Fin 128) (die : Fin 64) (cc : CcFault) (s : State) (hs : s.Ok b₀) : Runs b₀ (execRbBusyTimeout lane die cc s) := by
  unfold execRbBusyTimeout; try dsimp -proj only
  repeat' (first | with_reducible assumption | intro _ | with_reducible apply State.foldl_ok | with_reducible apply State.foldl_pok | with_reducible apply runs_done | with_reducible apply runs_idle | with_reducible apply runs_ite | with_reducible apply runs_next | with_reducible apply looked_runs | with_reducible apply State.busyTimeout_ok | with_reducible apply State.ite_ok | with_reducible apply State.ite_pok | with_reducible apply State.fst_of | split | with_reducible apply State.mk_pok)

theorem execSuspOverrun_runs {b₀ : State} (lane : Fin 128) (die : Fin 64) (s : State) (hs : s.Ok b₀) : Runs b₀ (execSuspOverrun lane die s) := by
  unfold execSuspOverrun; try dsimp -proj only
  repeat' (first | with_reducible assumption | with_reducible exact fun h => h | with_reducible exact fun h => Tab.wf_setD h _ _ | with_reducible exact fun h => Tab.wf_filter h _ | with_reducible exact fun _ => Tab.wf_nil _ | with_reducible exact fun h => Tab.wf_mapCmds _ h | with_reducible exact fun h => Tab.wf_foldl_setD _ _ _ h | intro _ | with_reducible apply State.foldl_ok | with_reducible apply State.foldl_pok | with_reducible apply runs_done | with_reducible apply runs_idle | with_reducible apply runs_ite | with_reducible apply runs_next | with_reducible apply State.raise_ok | with_reducible apply State.blot_ok | with_reducible apply State.modLun_ok | with_reducible apply State.toScribe_ok | with_reducible apply State.ite_ok | with_reducible apply State.ite_pok | with_reducible apply State.fst_of | split | with_reducible apply State.mk_pok | with_reducible apply State.mk_ok)

end Sys2Proof.Machine
end

