-- ==== Sys2Proof/Laws/OkQuill.lean ====
section
/-! SUPPORT. The operations of Machine/Quill.lean keep the canonical form of the tables and leave the build, the queue,
the pins, the fuses, the test port and the time alone. -/
namespace Sys2Proof.Machine
open Sys2Proof
set_option linter.unusedTactic false
set_option linter.unreachableTactic false
set_option linter.unusedVariables false

theorem State.endPacket_ok {b₀ : State} (s : State) (c : Nat) (w : IntakeWord) (visible : Bool) (st det : Nat) (hs : s.Ok b₀) : (State.endPacket s c w visible st det).Ok b₀ := by
  unfold State.endPacket; try dsimp -proj only
  repeat' (first | with_reducible assumption | intro _ | with_reducible apply State.foldl_ok | with_reducible apply State.foldl_pok | with_reducible apply State.releaseOut_ok | with_reducible apply State.pushReady_ok | with_reducible apply State.ite_ok | with_reducible apply State.fst_of | split | with_reducible apply State.mk_pok)

theorem State.endOrHold_ok {b₀ : State} (s : State) (c h st det : Nat) (hs : s.Ok b₀) : (State.endOrHold s c h st det).Ok b₀ := by
  unfold State.endOrHold; try dsimp -proj only
  repeat' (first | with_reducible assumption | with_reducible exact fun h => h | with_reducible exact fun h => Tab.wf_setD h _ _ | with_reducible exact fun h => Tab.wf_filter h _ | with_reducible exact fun _ => Tab.wf_nil _ | with_reducible exact fun h => Tab.wf_mapCmds _ h | with_reducible exact fun h => Tab.wf_foldl_setD _ _ _ h | intro _ | with_reducible apply State.foldl_ok | with_reducible apply State.foldl_pok | with_reducible apply State.modCmd_ok | with_reducible apply State.abort_ok | with_reducible apply State.ite_ok | with_reducible apply State.fst_of | split | with_reducible apply State.mk_pok | with_reducible apply State.mk_ok)

theorem State.faultCmd_ok {b₀ : State} (s : State) (c h : Nat) (hs : s.Ok b₀) : (State.faultCmd s c h).Ok b₀ := by
  unfold State.faultCmd; try dsimp -proj only
  repeat' (first | with_reducible assumption | intro _ | with_reducible apply State.foldl_ok | with_reducible apply State.foldl_pok | with_reducible apply State.result_ok | with_reducible apply State.cancelClaims_ok | with_reducible apply State.finish_ok | with_reducible apply State.endOrHold_ok | with_reducible apply State.ite_ok | with_reducible apply State.fst_of | split | with_reducible apply State.mk_pok)

theorem State.faultIntakes_ok {b₀ : State} (s : State) (c : Nat) (hs : s.Ok b₀) : (State.faultIntakes s c).Ok b₀ := by
  unfold State.faultIntakes; try dsimp -proj only
  repeat' (first | with_reducible assumption | with_reducible exact fun h => h | with_reducible exact fun h => Tab.wf_setD h _ _ | with_reducible exact fun h => Tab.wf_filter h _ | with_reducible exact fun _ => Tab.wf_nil _ | with_reducible exact fun h => Tab.wf_mapCmds _ h | with_reducible exact fun h => Tab.wf_foldl_setD _ _ _ h | intro _ | with_reducible apply State.foldl_ok | with_reducible apply State.foldl_pok | with_reducible apply State.endPacket_ok | with_reducible apply State.complete_ok | with_reducible apply State.modCluster_ok | with_reducible apply State.ite_ok | with_reducible apply State.fst_of | split | with_reducible apply State.mk_pok | with_reducible apply State.mk_ok)

theorem State.quillFault_ok {b₀ : State} (s : State) (c code : Nat) (hs : s.Ok b₀) : (State.quillFault s c code).Ok b₀ := by
  unfold State.quillFault; try dsimp -proj only
  repeat' (first | with_reducible assumption | with_reducible exact fun h => h | with_reducible exact fun h => Tab.wf_setD h _ _ | with_reducible exact fun h => Tab.wf_filter h _ | with_reducible exact fun _ => Tab.wf_nil _ | with_reducible exact fun h => Tab.wf_mapCmds _ h | with_reducible exact fun h => Tab.wf_foldl_setD _ _ _ h | intro _ | with_reducible apply State.foldl_ok | with_reducible apply State.foldl_pok | with_reducible apply State.modCore_ok | with_reducible apply State.modCluster_ok | with_reducible apply State.blot_ok | with_reducible apply State.raise_ok | with_reducible apply State.faultCmd_ok | with_reducible apply State.faultIntakes_ok | with_reducible apply State.ite_ok | with_reducible apply State.fst_of | split | with_reducible apply State.mk_pok | with_reducible apply State.mk_ok)

theorem State.lostFramesOf_ok {b₀ : State} (s : State) (c h : Nat) (x : Cmd) (hs : s.Ok b₀) : (State.lostFramesOf s c h x).Ok b₀ := by
  unfold State.lostFramesOf; try dsimp -proj only
  repeat' (first | with_reducible assumption | intro _ | with_reducible apply State.foldl_ok | with_reducible apply State.foldl_pok | with_reducible apply State.frameLost_ok | with_reducible apply State.ite_ok | with_reducible apply State.fst_of | split | with_reducible apply State.mk_pok)

theorem State.lostFrames_ok {b₀ : State} (s : State) (hs : s.Ok b₀) : (State.lostFrames s).Ok b₀ := by
  unfold State.lostFrames; try dsimp -proj only
  repeat' (first | with_reducible assumption | intro _ | with_reducible apply State.foldl_ok | with_reducible apply State.foldl_pok | with_reducible apply State.lostFramesOf_ok | with_reducible apply State.ite_ok | with_reducible apply State.fst_of | split | with_reducible apply State.mk_pok)

theorem State.retrainResume_ok {b₀ : State} (s : State) (g : Nat) (hs : s.Ok b₀) : (State.retrainResume s g).Ok b₀ := by
  unfold State.retrainResume; try dsimp -proj only
  repeat' (first | with_reducible assumption | intro _ | with_reducible apply State.foldl_ok | with_reducible apply State.foldl_pok | with_reducible apply State.commit_ok | with_reducible apply State.ite_ok | with_reducible apply State.fst_of | split | with_reducible apply State.mk_pok)

theorem State.leaveRetrain_ok {b₀ : State} (s : State) (g : Nat) (hs : s.Ok b₀) : (State.leaveRetrain s g).Ok b₀ := by
  unfold State.leaveRetrain; try dsimp -proj only
  repeat' (first | with_reducible assumption | with_reducible exact fun h => h | with_reducible exact fun h => Tab.wf_setD h _ _ | with_reducible exact fun h => Tab.wf_filter h _ | with_reducible exact fun _ => Tab.wf_nil _ | with_reducible exact fun h => Tab.wf_mapCmds _ h | with_reducible exact fun h => Tab.wf_foldl_setD _ _ _ h | intro _ | with_reducible apply State.foldl_ok | with_reducible apply State.foldl_pok | with_reducible apply State.modLane_ok | with_reducible apply State.retrainResume_ok | with_reducible apply State.ite_ok | with_reducible apply State.fst_of | split | with_reducible apply State.mk_pok | with_reducible apply State.mk_ok)

theorem State.lostOverruns_ok {b₀ : State} (s : State) (g : Nat) (hs : s.Ok b₀) : (State.lostOverruns s g).Ok b₀ := by
  unfold State.lostOverruns; try dsimp -proj only
  repeat' (first | with_reducible assumption | intro _ | with_reducible apply State.foldl_ok | with_reducible apply State.foldl_pok | with_reducible apply State.overrunLost_ok | with_reducible apply State.ite_ok | with_reducible apply State.fst_of | split | with_reducible apply State.mk_pok)

theorem State.lostWork_ok {b₀ : State} (s : State) (hs : s.Ok b₀) : (State.lostWork s).Ok b₀ := by
  unfold State.lostWork; try dsimp -proj only
  repeat' (first | with_reducible assumption | intro _ | with_reducible apply State.foldl_ok | with_reducible apply State.foldl_pok | with_reducible apply State.endOrHold_ok | with_reducible apply State.lostFrames_ok | with_reducible apply State.lostOverruns_ok | with_reducible apply State.leaveRetrain_ok | with_reducible apply State.ite_ok | with_reducible apply State.fst_of | split | with_reducible apply State.mk_pok)

theorem State.loseScribe_ok {b₀ : State} (s : State) (cause : Nat) (hs : s.Ok b₀) : (State.loseScribe s cause).Ok b₀ := by
  unfold State.loseScribe; try dsimp -proj only
  repeat' (first | with_reducible assumption | with_reducible exact fun h => h | with_reducible exact fun h => Tab.wf_setD h _ _ | with_reducible exact fun h => Tab.wf_filter h _ | with_reducible exact fun _ => Tab.wf_nil _ | with_reducible exact fun h => Tab.wf_mapCmds _ h | with_reducible exact fun h => Tab.wf_foldl_setD _ _ _ h | intro _ | with_reducible apply State.foldl_ok | with_reducible apply State.foldl_pok | with_reducible apply State.modCore_ok | with_reducible apply State.modReg_ok | with_reducible apply State.pulse_ok | with_reducible apply State.blot_ok | with_reducible apply State.lostWork_ok | with_reducible apply State.ite_ok | with_reducible apply State.fst_of | split | with_reducible apply State.mk_pok | with_reducible apply State.mk_ok)

theorem State.reloadEnd_ok {b₀ : State} (s : State) (r : Nat) (hs : s.Ok b₀) : (State.reloadEnd s r).Ok b₀ := by
  unfold State.reloadEnd; try dsimp -proj only
  repeat' (first | with_reducible assumption | intro _ | with_reducible apply State.foldl_ok | with_reducible apply State.foldl_pok | with_reducible apply State.modReg_ok | with_reducible apply State.blot_ok | with_reducible apply State.ite_ok | with_reducible apply State.fst_of | split | with_reducible apply State.mk_pok)

theorem State.coreFault_ok {b₀ : State} (s : State) (c : Nat) (why : CoreFault) (hs : s.Ok b₀) : (State.coreFault s c why).Ok b₀ := by
  unfold State.coreFault; try dsimp -proj only
  repeat' (first | with_reducible assumption | intro _ | with_reducible apply State.foldl_ok | with_reducible apply State.foldl_pok | with_reducible apply State.reloadEnd_ok | with_reducible apply State.loseScribe_ok | with_reducible apply State.openFail_ok | with_reducible apply State.quillFault_ok | with_reducible apply State.ite_ok | with_reducible apply State.fst_of | split | with_reducible apply State.mk_pok)

theorem State.jump_ok {b₀ : State} (s : State) (c pc : Nat) (hs : s.Ok b₀) : (State.jump s c pc).Ok b₀ := by
  unfold State.jump; try dsimp -proj only
  repeat' (first | with_reducible assumption | with_reducible exact fun h => h | with_reducible exact fun h => Tab.wf_setD h _ _ | with_reducible exact fun h => Tab.wf_filter h _ | with_reducible exact fun _ => Tab.wf_nil _ | with_reducible exact fun h => Tab.wf_mapCmds _ h | with_reducible exact fun h => Tab.wf_foldl_setD _ _ _ h | intro _ | with_reducible apply State.foldl_ok | with_reducible apply State.foldl_pok | with_reducible apply State.modCore_ok | with_reducible apply State.ite_ok | with_reducible apply State.fst_of | split | with_reducible apply State.mk_pok | with_reducible apply State.mk_ok)

theorem State.nextPc_ok {b₀ : State} (s : State) (c : Nat) (i : Ins) (hs : s.Ok b₀) : (State.nextPc s c i).Ok b₀ := by
  unfold State.nextPc; try dsimp -proj only
  repeat' (first | with_reducible assumption | intro _ | with_reducible apply State.foldl_ok | with_reducible apply State.foldl_pok | with_reducible apply State.jump_ok | with_reducible apply State.ite_ok | with_reducible apply State.fst_of | split | with_reducible apply State.mk_pok)

theorem State.result_ok {b₀ : State} (s : State) (c : Nat) (i : Ins) (v : Word) (hs : s.Ok b₀) : (State.result s c i v).Ok b₀ := by
  unfold State.result; try dsimp -proj only
  repeat' (first | with_reducible assumption | intro _ | with_reducible apply State.foldl_ok | with_reducible apply State.foldl_pok | with_reducible apply State.modCore_ok | with_reducible apply State.ite_ok | with_reducible apply State.fst_of | split | with_reducible apply State.mk_pok)

theorem State.coreMeets_ok {b₀ : State} (s : State) (c : Nat) (why : CoreFault) (hs : s.Ok b₀) : (State.coreMeets s c why).Ok b₀ := by
  unfold State.coreMeets; try dsimp -proj only
  repeat' (first | with_reducible assumption | intro _ | with_reducible apply State.foldl_ok | with_reducible apply State.foldl_pok | with_reducible apply State.corrected_ok | with_reducible apply State.coreFault_ok | with_reducible apply State.uncorrRow_ok | with_reducible apply State.ite_ok | with_reducible apply State.fst_of | split | with_reducible apply State.mk_pok)

theorem State.scribePoint_ok {b₀ : State} (s : State) (c : Nat) (hs : s.Ok b₀) : State.POk b₀ (State.scribePoint s c) := by
  unfold State.scribePoint; try dsimp -proj only
  repeat' (first | with_reducible assumption | intro _ | with_reducible apply State.foldl_ok | with_reducible apply State.foldl_pok | with_reducible apply State.opportunity_ok | with_reducible apply State.ite_ok | with_reducible apply State.ite_pok | with_reducible apply State.fst_of | split | with_reducible apply State.mk_pok)

theorem State.instr_runs {b₀ : State} (s : State) (core : Fin 17) (op : Nat) (f : State → Ins → State) (hs : s.Ok b₀) (hf : ∀ t x0, t.Ok b₀ → (f t x0).Ok b₀) : Runs b₀ (State.instr s core op f) := by
  unfold State.instr; try dsimp -proj only
  repeat' (first | with_reducible assumption | intro _ | with_reducible apply State.foldl_ok | with_reducible apply State.foldl_pok | with_reducible apply runs_done | with_reducible apply runs_idle | with_reducible apply runs_ite | with_reducible apply runs_next | with_reducible apply State.scribePoint_ok | with_reducible apply looked_runs | with_reducible apply State.coreMeets_ok | with_reducible apply hf | with_reducible apply State.ite_ok | with_reducible apply State.ite_pok | with_reducible apply State.fst_of | split | with_reducible apply State.mk_pok)

theorem State.alu_runs {b₀ : State} (s : State) (core : Fin 17) (op : Nat) (g : Ins → Word) (hs : s.Ok b₀) : Runs b₀ (State.alu s core op g) := by
  unfold State.alu; try dsimp -proj only
  repeat' (first | with_reducible assumption | intro _ | with_reducible apply State.foldl_ok | with_reducible apply State.foldl_pok | with_reducible apply runs_done | with_reducible apply runs_idle | with_reducible apply runs_ite | with_reducible apply runs_next | with_reducible apply State.instr_runs | with_reducible apply State.result_ok | with_reducible apply State.nextPc_ok | with_reducible apply State.ite_ok | with_reducible apply State.ite_pok | with_reducible apply State.fst_of | split | with_reducible apply State.mk_pok)

theorem State.branch_runs {b₀ : State} (s : State) (core : Fin 17) (op : Nat) (g : Ins → Bool) (hs : s.Ok b₀) : Runs b₀ (State.branch s core op g) := by
  unfold State.branch; try dsimp -proj only
  repeat' (first | with_reducible assumption | intro _ | with_reducible apply State.foldl_ok | with_reducible apply State.foldl_pok | with_reducible apply runs_done | with_reducible apply runs_idle | with_reducible apply runs_ite | with_reducible apply runs_next | with_reducible apply State.instr_runs | with_reducible apply State.jump_ok | with_reducible apply State.nextPc_ok | with_reducible apply State.ite_ok | with_reducible apply State.ite_pok | with_reducible apply State.fst_of | split | with_reducible apply State.mk_pok)

theorem execQAdd_runs {b₀ : State} (core : Fin 17) (s : State) (hs : s.Ok b₀) : Runs b₀ (execQAdd core s) := by
  unfold execQAdd; try dsimp -proj only
  repeat' (first | with_reducible assumption | intro _ | with_reducible apply State.foldl_ok | with_reducible apply State.foldl_pok | with_reducible apply runs_done | with_reducible apply runs_idle | with_reducible apply runs_ite | with_reducible apply runs_next | with_reducible apply State.alu_runs | with_reducible apply State.ite_ok | with_reducible apply State.ite_pok | with_reducible apply State.fst_of | split | with_reducible apply State.mk_pok)

theorem execQAddi_runs {b₀ : State} (core : Fin 17) (s : State) (hs : s.Ok b₀) : Runs b₀ (execQAddi core s) := by
  unfold execQAddi; try dsimp -proj only
  repeat' (first | with_reducible assumption | intro _ | with_reducible apply State.foldl_ok | with_reducible apply State.foldl_pok | with_reducible apply runs_done | with_reducible apply runs_idle | with_reducible apply runs_ite | with_reducible apply runs_next | with_reducible apply State.alu_runs | with_reducible apply State.ite_ok | with_reducible apply State.ite_pok | with_reducible apply State.fst_of | split | with_reducible apply State.mk_pok)

theorem execQSub_runs {b₀ : State} (core : Fin 17) (s : State) (hs : s.Ok b₀) : Runs b₀ (execQSub core s) := by
  unfold execQSub; try dsimp -proj only
  repeat' (first | with_reducible assumption | intro _ | with_reducible apply State.foldl_ok | with_reducible apply State.foldl_pok | with_reducible apply runs_done | with_reducible apply runs_idle | with_reducible apply runs_ite | with_reducible apply runs_next | with_reducible apply State.alu_runs | with_reducible apply State.ite_ok | with_reducible apply State.ite_pok | with_reducible apply State.fst_of | split | with_reducible apply State.mk_pok)

theorem execQAnd_runs {b₀ : State} (core : Fin 17) (s : State) (hs : s.Ok b₀) : Runs b₀ (execQAnd core s) := by
  unfold execQAnd; try dsimp -proj only
  repeat' (first | with_reducible assumption | intro _ | with_reducible apply State.foldl_ok | with_reducible apply State.foldl_pok | with_reducible apply runs_done | with_reducible apply runs_idle | with_reducible apply runs_ite | with_reducible apply runs_next | with_reducible apply State.alu_runs | with_reducible apply State.ite_ok | with_reducible apply State.ite_pok | with_reducible apply State.fst_of | split | with_reducible apply State.mk_pok)

theorem execQOr_runs {b₀ : State} (core : Fin 17) (s : State) (hs : s.Ok b₀) : Runs b₀ (execQOr core s) := by
  unfold execQOr; try dsimp -proj only
  repeat' (first | with_reducible assumption | intro _ | with_reducible apply State.foldl_ok | with_reducible apply State.foldl_pok | with_reducible apply runs_done | with_reducible apply runs_idle | with_reducible apply runs_ite | with_reducible apply runs_next | with_reducible apply State.alu_runs | with_reducible apply State.ite_ok | with_reducible apply State.ite_pok | with_reducible apply State.fst_of | split | with_reducible apply State.mk_pok)

theorem execQXor_runs {b₀ : State} (core : Fin 17) (s : State) (hs : s.Ok b₀) : Runs b₀ (execQXor core s) := by
  unfold execQXor; try dsimp -proj only
  repeat' (first | with_reducible assumption | intro _ | with_reducible apply State.foldl_ok | with_reducible apply State.foldl_pok | with_reducible apply runs_done | with_reducible apply runs_idle | with_reducible apply runs_ite | with_reducible apply runs_next | with_reducible apply State.alu_runs | with_reducible apply State.ite_ok | with_reducible apply State.ite_pok | with_reducible apply State.fst_of | split | with_reducible apply State.mk_pok)

theorem execQShli_runs {b₀ : State} (core : Fin 17) (s : State) (hs : s.Ok b₀) : Runs b₀ (execQShli core s) := by
  unfold execQShli; try dsimp -proj only
  repeat' (first | with_reducible assumption | intro _ | with_reducible apply State.foldl_ok | with_reducible apply State.foldl_pok | with_reducible apply runs_done | with_reducible apply runs_idle | with_reducible apply runs_ite | with_reducible apply runs_next | with_reducible apply State.alu_runs | with_reducible apply State.ite_ok | with_reducible apply State.ite_pok | with_reducible apply State.fst_of | split | with_reducible apply State.mk_pok)

theorem execQShri_runs {b₀ : State} (core : Fin 17) (s : State) (hs : s.Ok b₀) : Runs b₀ (execQShri core s) := by
  unfold execQShri; try dsimp -proj only
  repeat' (first | with_reducible assumption | intro _ | with_reducible apply State.foldl_ok | with_reducible apply State.foldl_pok | with_reducible apply runs_done | with_reducible apply runs_idle | with_reducible apply runs_ite | with_reducible apply runs_next | with_reducible apply State.alu_runs | with_reducible apply State.ite_ok | with_reducible apply State.ite_pok | with_reducible apply State.fst_of | split | with_reducible apply State.mk_pok)

theorem execQLui_runs {b₀ : State} (core : Fin 17) (s : State) (hs : s.Ok b₀) : Runs b₀ (execQLui core s) := by
  unfold execQLui; try dsimp -proj only
  repeat' (first | with_reducible assumption | intro _ | with_reducible apply State.foldl_ok | with_reducible apply State.foldl_pok | with_reducible apply runs_done | with_reducible apply runs_idle | with_reducible apply runs_ite | with_reducible apply runs_next | with_reducible apply State.alu_runs | with_reducible apply State.ite_ok | with_reducible apply State.ite_pok | with_reducible apply State.fst_of | split | with_reducible apply State.mk_pok)

theorem execQLd_runs {b₀ : State} (core : Fin 17) (s : State) (hs : s.Ok b₀) : Runs b₀ (execQLd core s) := by
  unfold execQLd; try dsimp -proj only
  repeat' (first | with_reducible assumption | intro _ | with_reducible apply State.foldl_ok | with_reducible apply State.foldl_pok | with_reducible apply runs_done | with_reducible apply runs_idle | with_reducible apply runs_ite | with_reducible apply runs_next | with_reducible apply State.instr_runs | with_reducible apply State.result_ok | with_reducible apply State.nextPc_ok | with_reducible apply State.coreFault_ok | with_reducible apply State.ite_ok | with_reducible apply State.ite_pok | with_reducible apply State.fst_of | split | with_reducible apply State.mk_pok)

theorem execQSt_runs {b₀ : State} (core : Fin 17) (s : State) (hs : s.Ok b₀) : Runs b₀ (execQSt core s) := by
  unfold execQSt; try dsimp -proj only
  repeat' (first | with_reducible assumption | with_reducible exact fun h => h | with_reducible exact fun h => Tab.wf_setD h _ _ | with_reducible exact fun h => Tab.wf_filter h _ | with_reducible exact fun _ => Tab.wf_nil _ | with_reducible exact fun h => Tab.wf_mapCmds _ h | with_reducible exact fun h => Tab.wf_foldl_setD _ _ _ h | intro _ | with_reducible apply State.foldl_ok | with_reducible apply State.foldl_pok | with_reducible apply runs_done | with_reducible apply runs_idle | with_reducible apply runs_ite | with_reducible apply runs_next | with_reducible apply State.instr_runs | with_reducible apply State.modCore_ok | with_reducible apply State.nextPc_ok | with_reducible apply State.coreFault_ok | with_reducible apply State.ite_ok | with_reducible apply State.ite_pok | with_reducible apply State.fst_of | split | with_reducible apply State.mk_pok | with_reducible apply State.mk_ok)

theorem execQBeq_runs {b₀ : State} (core : Fin 17) (s : State) (hs : s.Ok b₀) : Runs b₀ (execQBeq core s) := by
  unfold execQBeq; try dsimp -proj only
  repeat' (first | with_reducible assumption | intro _ | with_reducible apply State.foldl_ok | with_reducible apply State.foldl_pok | with_reducible apply runs_done | with_reducible apply runs_idle | with_reducible apply runs_ite | with_reducible apply runs_next | with_reducible apply State.branch_runs | with_reducible apply State.ite_ok | with_reducible apply State.ite_pok | with_reducible apply State.fst_of | split | with_reducible apply State.mk_pok)

theorem execQBne_runs {b₀ : State} (core : Fin 17) (s : State) (hs : s.Ok b₀) : Runs b₀ (execQBne core s) := by
  unfold execQBne; try dsimp -proj only
  repeat' (first | with_reducible assumption | intro _ | with_reducible apply State.foldl_ok | with_reducible apply State.foldl_pok | with_reducible apply runs_done | with_reducible apply runs_idle | with_reducible apply runs_ite | with_reducible apply runs_next | with_reducible apply State.branch_runs | with_reducible apply State.ite_ok | with_reducible apply State.ite_pok | with_reducible apply State.fst_of | split | with_reducible apply State.mk_pok)

theorem execQBltu_runs {b₀ : State} (core : Fin 17) (s : State) (hs : s.Ok b₀) : Runs b₀ (execQBltu core s) := by
  unfold execQBltu; try dsimp -proj only
  repeat' (first | with_reducible assumption | intro _ | with_reducible apply State.foldl_ok | with_reducible apply State.foldl_pok | with_reducible apply runs_done | with_reducible apply runs_idle | with_reducible apply runs_ite | with_reducible apply runs_next | with_reducible apply State.branch_runs | with_reducible apply State.ite_ok | with_reducible apply State.ite_pok | with_reducible apply State.fst_of | split | with_reducible apply State.mk_pok)

theorem execQJal_runs {b₀ : State} (core : Fin 17) (s : State) (hs : s.Ok b₀) : Runs b₀ (execQJal core s) := by
  unfold execQJal; try dsimp -proj only
  repeat' (first | with_reducible assumption | intro _ | with_reducible apply State.foldl_ok | with_reducible apply State.foldl_pok | with_reducible apply runs_done | with_reducible apply runs_idle | with_reducible apply runs_ite | with_reducible apply runs_next | with_reducible apply State.instr_runs | with_reducible apply State.result_ok | with_reducible apply State.jump_ok | with_reducible apply State.ite_ok | with_reducible apply State.ite_pok | with_reducible apply State.fst_of | split | with_reducible apply State.mk_pok)

theorem execQJr_runs {b₀ : State} (core : Fin 17) (s : State) (hs : s.Ok b₀) : Runs b₀ (execQJr core s) := by
  unfold execQJr; try dsimp -proj only
  repeat' (first | with_reducible assumption | intro _ | with_reducible apply State.foldl_ok | with_reducible apply State.foldl_pok | with_reducible apply runs_done | with_reducible apply runs_idle | with_reducible apply runs_ite | with_reducible apply runs_next | with_reducible apply State.instr_runs | with_reducible apply State.jump_ok | with_reducible apply State.ite_ok | with_reducible apply State.ite_pok | with_reducible apply State.fst_of | split | with_reducible apply State.mk_pok)

theorem execQWaitev_runs {b₀ : State} (core : Fin 17) (s : State) (hs : s.Ok b₀) : Runs b₀ (execQWaitev core s) := by
  unfold execQWaitev; try dsimp -proj only
  repeat' (first | with_reducible assumption | with_reducible exact fun h => h | with_reducible exact fun h => Tab.wf_setD h _ _ | with_reducible exact fun h => Tab.wf_filter h _ | with_reducible exact fun _ => Tab.wf_nil _ | with_reducible exact fun h => Tab.wf_mapCmds _ h | with_reducible exact fun h => Tab.wf_foldl_setD _ _ _ h | intro _ | with_reducible apply State.foldl_ok | with_reducible apply State.foldl_pok | with_reducible apply runs_done | with_reducible apply runs_idle | with_reducible apply runs_ite | with_reducible apply runs_next | with_reducible apply State.instr_runs | with_reducible apply State.modCore_ok | with_reducible apply State.result_ok | with_reducible apply State.nextPc_ok | with_reducible apply State.ite_ok | with_reducible apply State.ite_pok | with_reducible apply State.fst_of | split | with_reducible apply State.mk_pok | with_reducible apply State.mk_ok)

theorem execQCmdrd_runs {b₀ : State} (core : Fin 17) (s : State) (hs : s.Ok b₀) : Runs b₀ (execQCmdrd core s) := by
  unfold execQCmdrd; try dsimp -proj only
  repeat' (first | with_reducible assumption | intro _ | with_reducible apply State.foldl_ok | with_reducible apply State.foldl_pok | with_reducible apply runs_done | with_reducible apply runs_idle | with_reducible apply runs_ite | with_reducible apply runs_next | with_reducible apply State.instr_runs | with_reducible apply State.result_ok | with_reducible apply State.nextPc_ok | with_reducible apply State.ite_ok | with_reducible apply State.ite_pok | with_reducible apply State.fst_of | split | with_reducible apply State.mk_pok)

theorem execQMawrow_runs {b₀ : State} (core : Fin 17) (s : State) (hs : s.Ok b₀) : Runs b₀ (execQMawrow core s) := by
  unfold execQMawrow; try dsimp -proj only
  repeat' (first | with_reducible assumption | intro _ | with_reducible apply State.foldl_ok | with_reducible apply State.foldl_pok | with_reducible apply runs_done | with_reducible apply runs_idle | with_reducible apply runs_ite | with_reducible apply runs_next | with_reducible apply State.instr_runs | with_reducible apply State.result_ok | with_reducible apply State.nextPc_ok | with_reducible apply State.ite_ok | with_reducible apply State.ite_pok | with_reducible apply State.fst_of | split | with_reducible apply State.mk_pok)

theorem execQPset_runs {b₀ : State} (core : Fin 17) (s : State) (hs : s.Ok b₀) : Runs b₀ (execQPset core s) := by
  unfold execQPset; try dsimp -proj only
  repeat' (first | with_reducible assumption | with_reducible exact fun h => h | with_reducible exact fun h => Tab.wf_setD h _ _ | with_reducible exact fun h => Tab.wf_filter h _ | with_reducible exact fun _ => Tab.wf_nil _ | with_reducible exact fun h => Tab.wf_mapCmds _ h | with_reducible exact fun h => Tab.wf_foldl_setD _ _ _ h | intro _ | with_reducible apply State.foldl_ok | with_reducible apply State.foldl_pok | with_reducible apply runs_done | with_reducible apply runs_idle | with_reducible apply runs_ite | with_reducible apply runs_next | with_reducible apply State.instr_runs | with_reducible apply State.modLane_ok | with_reducible apply State.nextPc_ok | with_reducible apply State.ite_ok | with_reducible apply State.ite_pok | with_reducible apply State.fst_of | split | with_reducible apply State.mk_pok | with_reducible apply State.mk_ok)

theorem State.strk_ok {b₀ : State} (s : State) (c g id : Nat) (p : List Word) (hs : s.Ok b₀) : State.POk b₀ (State.strk s c g id p) := by
  unfold State.strk; try dsimp -proj only
  repeat' (first | with_reducible assumption | intro _ | with_reducible apply State.foldl_ok | with_reducible apply State.foldl_pok | with_reducible apply State.commit_ok | with_reducible apply State.ite_ok | with_reducible apply State.ite_pok | with_reducible apply State.fst_of | split | with_reducible apply State.mk_pok)

theorem execQStrk_runs {b₀ : State} (core : Fin 17) (s : State) (hs : s.Ok b₀) : Runs b₀ (execQStrk core s) := by
  unfold execQStrk; try dsimp -proj only
  repeat' (first | with_reducible assumption | intro _ | with_reducible apply State.foldl_ok | with_reducible apply State.foldl_pok | with_reducible apply runs_done | with_reducible apply runs_idle | with_reducible apply runs_ite | with_reducible apply runs_next | with_reducible apply State.instr_runs | with_reducible apply State.strk_ok | with_reducible apply State.result_ok | with_reducible apply State.nextPc_ok | with_reducible apply State.ite_ok | with_reducible apply State.ite_pok | with_reducible apply State.fst_of | split | with_reducible apply State.mk_pok)

theorem State.overrunDone_ok {b₀ : State} (s : State) (c h st : Nat) (x : Cmd) (hs : s.Ok b₀) : (State.overrunDone s c h st x).Ok b₀ := by
  unfold State.overrunDone; try dsimp -proj only
  repeat' (first | with_reducible assumption | with_reducible exact fun h => h | with_reducible exact fun h => Tab.wf_setD h _ _ | with_reducible exact fun h => Tab.wf_filter h _ | with_reducible exact fun _ => Tab.wf_nil _ | with_reducible exact fun h => Tab.wf_mapCmds _ h | with_reducible exact fun h => Tab.wf_foldl_setD _ _ _ h | intro _ | with_reducible apply State.foldl_ok | with_reducible apply State.foldl_pok | with_reducible apply State.modLun_ok | with_reducible apply State.finish_ok | with_reducible apply State.ite_ok | with_reducible apply State.fst_of | split | with_reducible apply State.mk_pok | with_reducible apply State.mk_ok)

theorem State.quillDone_ok {b₀ : State} (s : State) (c h st : Nat) (byScribe : Bool) (hs : s.Ok b₀) : (State.quillDone s c h st byScribe).Ok b₀ := by
  unfold State.quillDone; try dsimp -proj only
  repeat' (first | with_reducible assumption | with_reducible exact fun h => h | with_reducible exact fun h => Tab.wf_setD h _ _ | with_reducible exact fun h => Tab.wf_filter h _ | with_reducible exact fun _ => Tab.wf_nil _ | with_reducible exact fun h => Tab.wf_mapCmds _ h | with_reducible exact fun h => Tab.wf_foldl_setD _ _ _ h | intro _ | with_reducible apply State.foldl_ok | with_reducible apply State.foldl_pok | with_reducible apply State.modCmd_ok | with_reducible apply State.tableSync_ok | with_reducible apply State.overrunDone_ok | with_reducible apply State.ite_ok | with_reducible apply State.fst_of | split | with_reducible apply State.mk_pok | with_reducible apply State.mk_ok)

theorem execQDone_runs {b₀ : State} (core : Fin 17) (s : State) (hs : s.Ok b₀) : Runs b₀ (execQDone core s) := by
  unfold execQDone; try dsimp -proj only
  repeat' (first | with_reducible assumption | intro _ | with_reducible apply State.foldl_ok | with_reducible apply State.foldl_pok | with_reducible apply runs_done | with_reducible apply runs_idle | with_reducible apply runs_ite | with_reducible apply runs_next | with_reducible apply State.instr_runs | with_reducible apply State.quillDone_ok | with_reducible apply State.nextPc_ok | with_reducible apply State.ite_ok | with_reducible apply State.ite_pok | with_reducible apply State.fst_of | split | with_reducible apply State.mk_pok)

theorem State.defer_ok {b₀ : State} (s : State) (c h reason : Nat) (hs : s.Ok b₀) : (State.defer s c h reason).Ok b₀ := by
  unfold State.defer; try dsimp -proj only
  repeat' (first | with_reducible assumption | with_reducible exact fun h => h | with_reducible exact fun h => Tab.wf_setD h _ _ | with_reducible exact fun h => Tab.wf_filter h _ | with_reducible exact fun _ => Tab.wf_nil _ | with_reducible exact fun h => Tab.wf_mapCmds _ h | with_reducible exact fun h => Tab.wf_foldl_setD _ _ _ h | intro _ | with_reducible apply State.foldl_ok | with_reducible apply State.foldl_pok | with_reducible apply State.modCmd_ok | with_reducible apply State.toScribe_ok | with_reducible apply State.endOrHold_ok | with_reducible apply State.ite_ok | with_reducible apply State.fst_of | split | with_reducible apply State.mk_pok | with_reducible apply State.mk_ok)

theorem execQDefer_runs {b₀ : State} (core : Fin 17) (s : State) (hs : s.Ok b₀) : Runs b₀ (execQDefer core s) := by
  unfold execQDefer; try dsimp -proj only
  repeat' (first | with_reducible assumption | intro _ | with_reducible apply State.foldl_ok | with_reducible apply State.foldl_pok | with_reducible apply runs_done | with_reducible apply runs_idle | with_reducible apply runs_ite | with_reducible apply runs_next | with_reducible apply State.instr_runs | with_reducible apply State.defer_ok | with_reducible apply State.nextPc_ok | with_reducible apply State.ite_ok | with_reducible apply State.ite_pok | with_reducible apply State.fst_of | split | with_reducible apply State.mk_pok)

theorem execQCsrr_runs {b₀ : State} (core : Fin 17) (s : State) (hs : s.Ok b₀) : Runs b₀ (execQCsrr core s) := by
  unfold execQCsrr; try dsimp -proj only
  repeat' (first | with_reducible assumption | intro _ | with_reducible apply State.foldl_ok | with_reducible apply State.foldl_pok | with_reducible apply runs_done | with_reducible apply runs_idle | with_reducible apply runs_ite | with_reducible apply runs_next | with_reducible apply State.instr_runs | with_reducible apply State.result_ok | with_reducible apply State.nextPc_ok | with_reducible apply State.ite_ok | with_reducible apply State.ite_pok | with_reducible apply State.fst_of | split | with_reducible apply State.mk_pok)

theorem State.csrWrite_ok {b₀ : State} (s : State) (c n : Nat) (v : Word) (hs : s.Ok b₀) : (State.csrWrite s c n v).Ok b₀ := by
  unfold State.csrWrite; try dsimp -proj only
  repeat' (first | with_reducible assumption | with_reducible exact fun h => h | with_reducible exact fun h => Tab.wf_setD h _ _ | with_reducible exact fun h => Tab.wf_filter h _ | with_reducible exact fun _ => Tab.wf_nil _ | with_reducible exact fun h => Tab.wf_mapCmds _ h | with_reducible exact fun h => Tab.wf_foldl_setD _ _ _ h | intro _ | with_reducible apply State.foldl_ok | with_reducible apply State.foldl_pok | with_reducible apply State.modCore_ok | with_reducible apply State.toScribe_ok | with_reducible apply State.postTo_ok | with_reducible apply State.ite_ok | with_reducible apply State.fst_of | split | with_reducible apply State.mk_pok | with_reducible apply State.mk_ok)

theorem execQCsrw_runs {b₀ : State} (core : Fin 17) (s : State) (hs : s.Ok b₀) : Runs b₀ (execQCsrw core s) := by
  unfold execQCsrw; try dsimp -proj only
  repeat' (first | with_reducible assumption | intro _ | with_reducible apply State.foldl_ok | with_reducible apply State.foldl_pok | with_reducible apply runs_done | with_reducible apply runs_idle | with_reducible apply runs_ite | with_reducible apply runs_next | with_reducible apply State.instr_runs | with_reducible apply State.csrWrite_ok | with_reducible apply State.nextPc_ok | with_reducible apply State.ite_ok | with_reducible apply State.ite_pok | with_reducible apply State.fst_of | split | with_reducible apply State.mk_pok)

theorem State.dropSaved_ok {b₀ : State} (s : State) (hs : s.Ok b₀) : (State.dropSaved s).Ok b₀ := by
  unfold State.dropSaved; try dsimp -proj only
  repeat' (first | with_reducible assumption | with_reducible exact fun h => h | with_reducible exact fun h => Tab.wf_setD h _ _ | with_reducible exact fun h => Tab.wf_filter h _ | with_reducible exact fun _ => Tab.wf_nil _ | with_reducible exact fun h => Tab.wf_mapCmds _ h | with_reducible exact fun h => Tab.wf_foldl_setD _ _ _ h | intro _ | with_reducible apply State.foldl_ok | with_reducible apply State.foldl_pok | with_reducible apply State.modLane_ok | with_reducible apply State.ite_ok | with_reducible apply State.fst_of | split | with_reducible apply State.mk_pok | with_reducible apply State.mk_ok)

theorem State.startEnd_ok {b₀ : State} (s : State) (hs : s.Ok b₀) : (State.startEnd s).Ok b₀ := by
  unfold State.startEnd; try dsimp -proj only
  repeat' (first | with_reducible assumption | with_reducible exact fun h => h | with_reducible exact fun h => Tab.wf_setD h _ _ | with_reducible exact fun h => Tab.wf_filter h _ | with_reducible exact fun _ => Tab.wf_nil _ | with_reducible exact fun h => Tab.wf_mapCmds _ h | with_reducible exact fun h => Tab.wf_foldl_setD _ _ _ h | intro _ | with_reducible apply State.foldl_ok | with_reducible apply State.foldl_pok | with_reducible apply State.modGlb_ok | with_reducible apply State.dropSaved_ok | with_reducible apply State.ite_ok | with_reducible apply State.fst_of | split | with_reducible apply State.mk_pok | with_reducible apply State.mk_ok)

theorem execQReady_runs {b₀ : State} (core : Fin 17) (s : State) (hs : s.Ok b₀) : Runs b₀ (execQReady core s) := by
  unfold execQReady; try dsimp -proj only
  repeat' (first | with_reducible assumption | with_reducible exact fun h => h | with_reducible exact fun h => Tab.wf_setD h _ _ | with_reducible exact fun h => Tab.wf_filter h _ | with_reducible exact fun _ => Tab.wf_nil _ | with_reducible exact fun h => Tab.wf_mapCmds _ h | with_reducible exact fun h => Tab.wf_foldl_setD _ _ _ h | intro _ | with_reducible apply State.foldl_ok | with_reducible apply State.foldl_pok | with_reducible apply runs_done | with_reducible apply runs_idle | with_reducible apply runs_ite | with_reducible apply runs_next | with_reducible apply State.instr_runs | with_reducible apply State.modCore_ok | with_reducible apply State.nextPc_ok | with_reducible apply State.startEnd_ok | with_reducible apply State.ite_ok | with_reducible apply State.ite_pok | with_reducible apply State.fst_of | split | with_reducible apply State.mk_pok | with_reducible apply State.mk_ok)

theorem execQuillTimer_runs {b₀ : State} (core : Fin 17) (n : Fin 4) (s : State) (hs : s.Ok b₀) : Runs b₀ (execQuillTimer core n s) := by
  unfold execQuillTimer; try dsimp -proj only
  repeat' (first | with_reducible assumption | with_reducible exact fun h => h | with_reducible exact fun h => Tab.wf_setD h _ _ | with_reducible exact fun h => Tab.wf_filter h _ | with_reducible exact fun _ => Tab.wf_nil _ | with_reducible exact fun h => Tab.wf_mapCmds _ h | with_reducible exact fun h => Tab.wf_foldl_setD _ _ _ h | intro _ | with_reducible apply State.foldl_ok | with_reducible apply State.foldl_pok | with_reducible apply runs_done | with_reducible apply runs_idle | with_reducible apply runs_ite | with_reducible apply runs_next | with_reducible apply State.modCore_ok | with_reducible apply State.postTo_ok | with_reducible apply State.ite_ok | with_reducible apply State.ite_pok | with_reducible apply State.fst_of | split | with_reducible apply State.mk_pok | with_reducible apply State.mk_ok)

theorem execIllegalInstruction_runs {b₀ : State} (core : Fin 17) (why : CoreFault) (s : State) (hs : s.Ok b₀) : Runs b₀ (execIllegalInstruction core why s) := by
  unfold execIllegalInstruction; try dsimp -proj only
  repeat' (first | with_reducible assumption | intro _ | with_reducible apply State.foldl_ok | with_reducible apply State.foldl_pok | with_reducible apply runs_done | with_reducible apply runs_idle | with_reducible apply runs_ite | with_reducible apply runs_next | with_reducible apply looked_runs | with_reducible apply State.coreMeets_ok | with_reducible apply State.ite_ok | with_reducible apply State.ite_pok | with_reducible apply State.fst_of | split | with_reducible apply State.mk_pok)

theorem execWatchdogExpiry_runs {b₀ : State} (s : State) (hs : s.Ok b₀) : Runs b₀ (execWatchdogExpiry s) := by
  unfold execWatchdogExpiry; try dsimp -proj only
  repeat' (first | with_reducible assumption | intro _ | with_reducible apply State.foldl_ok | with_reducible apply State.foldl_pok | with_reducible apply runs_done | with_reducible apply runs_idle | with_reducible apply runs_ite | with_reducible apply runs_next | with_reducible apply State.loseScribe_ok | with_reducible apply looked_runs | with_reducible apply State.openFail_ok | with_reducible apply State.ite_ok | with_reducible apply State.ite_pok | with_reducible apply State.fst_of | split | with_reducible apply State.mk_pok)

end Sys2Proof.Machine
end

