-- ==== Sys2Proof/Laws/OkFrames.lean ====
section
/-! SUPPORT. The operations of Machine/Frames.lean keep the canonical form of the tables and leave the build, the queue,
the pins, the fuses, the test port and the time alone. -/
namespace Sys2Proof.Machine
open Sys2Proof
set_option linter.unusedTactic false
set_option linter.unreachableTactic false
set_option linter.unusedVariables false

theorem State.loadFrame_ok {b₀ : State} (s : State) (e : Nat) (f : Frame) (hs : s.Ok b₀) : State.POk b₀ (State.loadFrame s e f) := by
  unfold State.loadFrame; try dsimp -proj only
  repeat' (first | with_reducible assumption | intro _ | with_reducible apply State.foldl_ok | with_reducible apply State.foldl_pok | with_reducible apply State.opportunity_ok | with_reducible apply State.count_ok | with_reducible apply State.ite_ok | with_reducible apply State.ite_pok | with_reducible apply State.fst_of | split | with_reducible apply State.mk_pok)

theorem State.decoded_ok {b₀ : State} (s : State) (e : Nat) (d : Decoded) (corr : Nat) (hs : s.Ok b₀) : (State.decoded s e d corr).Ok b₀ := by
  unfold State.decoded; try dsimp -proj only
  repeat' (first | with_reducible assumption | intro _ | with_reducible apply State.foldl_ok | with_reducible apply State.foldl_pok | with_reducible apply State.modReg_ok | with_reducible apply State.count_ok | with_reducible apply State.ite_ok | with_reducible apply State.fst_of | split | with_reducible apply State.mk_pok)

theorem State.outletFail_ok {b₀ : State} (s : State) (g h k reason : Nat) (cc : CcFault) (hs : s.Ok b₀) : (State.outletFail s g h k reason cc).Ok b₀ := by
  unfold State.outletFail; try dsimp -proj only
  repeat' (first | with_reducible assumption | with_reducible exact fun h => h | with_reducible exact fun h => Tab.wf_setD h _ _ | with_reducible exact fun h => Tab.wf_filter h _ | with_reducible exact fun _ => Tab.wf_nil _ | with_reducible exact fun h => Tab.wf_mapCmds _ h | with_reducible exact fun h => Tab.wf_foldl_setD _ _ _ h | intro _ | with_reducible apply State.foldl_ok | with_reducible apply State.foldl_pok | with_reducible apply State.count_ok | with_reducible apply State.raise_ok | with_reducible apply State.blot_ok | with_reducible apply State.freeSlot_ok | with_reducible apply State.modFrame_ok | with_reducible apply State.frameEnd_ok | with_reducible apply State.ite_ok | with_reducible apply State.fst_of | split | with_reducible apply State.mk_pok | with_reducible apply State.mk_ok)

theorem State.outlet_ok {b₀ : State} (s : State) (g h k : Nat) (code hardIn : Frame) (cc : CcFault) (hs : s.Ok b₀) : (State.outlet s g h k code hardIn cc).Ok b₀ := by
  unfold State.outlet; try dsimp -proj only
  repeat' (first | with_reducible assumption | with_reducible exact fun h => h | with_reducible exact fun h => Tab.wf_setD h _ _ | with_reducible exact fun h => Tab.wf_filter h _ | with_reducible exact fun _ => Tab.wf_nil _ | with_reducible exact fun h => Tab.wf_mapCmds _ h | with_reducible exact fun h => Tab.wf_foldl_setD _ _ _ h | intro _ | with_reducible apply State.foldl_ok | with_reducible apply State.foldl_pok | with_reducible apply State.freeSlot_ok | with_reducible apply State.modFrame_ok | with_reducible apply State.decoded_ok | with_reducible apply State.outletFail_ok | with_reducible apply State.frameEnd_ok | with_reducible apply State.modCluster_ok | with_reducible apply State.ite_ok | with_reducible apply State.fst_of | split | with_reducible apply State.mk_pok | with_reducible apply State.mk_ok)

theorem State.toGambit_ok {b₀ : State} (s : State) (g h k : Nat) (cc : CcFault) (hs : s.Ok b₀) : (State.toGambit s g h k cc).Ok b₀ := by
  unfold State.toGambit; try dsimp -proj only
  repeat' (first | with_reducible assumption | with_reducible exact fun h => h | with_reducible exact fun h => Tab.wf_setD h _ _ | with_reducible exact fun h => Tab.wf_filter h _ | with_reducible exact fun _ => Tab.wf_nil _ | with_reducible exact fun h => Tab.wf_mapCmds _ h | with_reducible exact fun h => Tab.wf_foldl_setD _ _ _ h | intro _ | with_reducible apply State.foldl_ok | with_reducible apply State.foldl_pok | with_reducible apply State.frameFail_ok | with_reducible apply State.freeSlot_ok | with_reducible apply State.modFrame_ok | with_reducible apply State.modLane_ok | with_reducible apply State.ite_ok | with_reducible apply State.fst_of | split | with_reducible apply State.mk_pok | with_reducible apply State.mk_ok)

theorem State.walkExhausted_ok {b₀ : State} (s : State) (g h k : Nat) (cc : CcFault) (hs : s.Ok b₀) : (State.walkExhausted s g h k cc).Ok b₀ := by
  unfold State.walkExhausted; try dsimp -proj only
  repeat' (first | with_reducible assumption | with_reducible exact fun h => h | with_reducible exact fun h => Tab.wf_setD h _ _ | with_reducible exact fun h => Tab.wf_filter h _ | with_reducible exact fun _ => Tab.wf_nil _ | with_reducible exact fun h => Tab.wf_mapCmds _ h | with_reducible exact fun h => Tab.wf_foldl_setD _ _ _ h | intro _ | with_reducible apply State.foldl_ok | with_reducible apply State.foldl_pok | with_reducible apply State.leaveGambit_ok | with_reducible apply State.count_ok | with_reducible apply State.raise_ok | with_reducible apply State.modFrame_ok | with_reducible apply State.toScribe_ok | with_reducible apply State.frameLost_ok | with_reducible apply State.frameFail_ok | with_reducible apply State.ite_ok | with_reducible apply State.fst_of | split | with_reducible apply State.mk_pok | with_reducible apply State.mk_ok)

theorem State.stepFailed_ok {b₀ : State} (s : State) (g h k : Nat) (cc : CcFault) (hs : s.Ok b₀) : (State.stepFailed s g h k cc).Ok b₀ := by
  unfold State.stepFailed; try dsimp -proj only
  repeat' (first | with_reducible assumption | with_reducible exact fun h => h | with_reducible exact fun h => Tab.wf_setD h _ _ | with_reducible exact fun h => Tab.wf_filter h _ | with_reducible exact fun _ => Tab.wf_nil _ | with_reducible exact fun h => Tab.wf_mapCmds _ h | with_reducible exact fun h => Tab.wf_foldl_setD _ _ _ h | intro _ | with_reducible apply State.foldl_ok | with_reducible apply State.foldl_pok | with_reducible apply State.walkExhausted_ok | with_reducible apply State.modFrame_ok | with_reducible apply State.modLane_ok | with_reducible apply State.ite_ok | with_reducible apply State.fst_of | split | with_reducible apply State.mk_pok | with_reducible apply State.mk_ok)

theorem State.stepDecoded_ok {b₀ : State} (s : State) (g h k : Nat) (code hardIn : Frame) (cc : CcFault) (hs : s.Ok b₀) : (State.stepDecoded s g h k code hardIn cc).Ok b₀ := by
  unfold State.stepDecoded; try dsimp -proj only
  repeat' (first | with_reducible assumption | intro _ | with_reducible apply State.foldl_ok | with_reducible apply State.foldl_pok | with_reducible apply State.leaveGambit_ok | with_reducible apply State.count_ok | with_reducible apply State.adopt_ok | with_reducible apply State.outlet_ok | with_reducible apply State.ite_ok | with_reducible apply State.fst_of | split | with_reducible apply State.mk_pok)

theorem State.stepStart_ok {b₀ : State} (s : State) (g h k : Nat) (x : Cmd) (parity : Bool) (cc : CcFault) (hs : s.Ok b₀) : (State.stepStart s g h k x parity cc).Ok b₀ := by
  unfold State.stepStart; try dsimp -proj only
  repeat' (first | with_reducible assumption | with_reducible exact fun h => h | with_reducible exact fun h => Tab.wf_setD h _ _ | with_reducible exact fun h => Tab.wf_filter h _ | with_reducible exact fun _ => Tab.wf_nil _ | with_reducible exact fun h => Tab.wf_mapCmds _ h | with_reducible exact fun h => Tab.wf_foldl_setD _ _ _ h | intro _ | with_reducible apply State.foldl_ok | with_reducible apply State.foldl_pok | with_reducible apply State.stepParity_ok | with_reducible apply State.count_ok | with_reducible apply State.modLane_ok | with_reducible apply State.modFrame_ok | with_reducible apply State.modCore_ok | with_reducible apply State.senseReq_ok | with_reducible apply State.walkExhausted_ok | with_reducible apply State.ite_ok | with_reducible apply State.fst_of | split | with_reducible apply State.mk_pok | with_reducible apply State.mk_ok)

theorem execGambitStep_runs {b₀ : State} (lane : Fin 128) (parity : Bool) (cc : CcFault) (s : State) (hs : s.Ok b₀) : Runs b₀ (execGambitStep lane parity cc s) := by
  unfold execGambitStep; try dsimp -proj only
  repeat' (first | with_reducible assumption | with_reducible exact fun h => h | with_reducible exact fun h => Tab.wf_setD h _ _ | with_reducible exact fun h => Tab.wf_filter h _ | with_reducible exact fun _ => Tab.wf_nil _ | with_reducible exact fun h => Tab.wf_mapCmds _ h | with_reducible exact fun h => Tab.wf_foldl_setD _ _ _ h | intro _ | with_reducible apply State.foldl_ok | with_reducible apply State.foldl_pok | with_reducible apply runs_done | with_reducible apply runs_idle | with_reducible apply runs_ite | with_reducible apply runs_next | with_reducible apply looked_runs | with_reducible apply State.stepStart_ok | with_reducible apply State.modLane_ok | with_reducible apply State.modRegion_ok | with_reducible apply State.ite_ok | with_reducible apply State.ite_pok | with_reducible apply State.fst_of | split | with_reducible apply State.mk_pok | with_reducible apply State.mk_ok)

theorem State.foreignFrame_ok {b₀ : State} (s : State) (g i e : Nat) (sl : Slot) (bits : Frame) (hs : s.Ok b₀) : (State.foreignFrame s g i e sl bits).Ok b₀ := by
  unfold State.foreignFrame; try dsimp -proj only
  repeat' (first | with_reducible assumption | with_reducible exact fun h => h | with_reducible exact fun h => Tab.wf_setD h _ _ | with_reducible exact fun h => Tab.wf_filter h _ | with_reducible exact fun _ => Tab.wf_nil _ | with_reducible exact fun h => Tab.wf_mapCmds _ h | with_reducible exact fun h => Tab.wf_foldl_setD _ _ _ h | intro _ | with_reducible apply State.foldl_ok | with_reducible apply State.foldl_pok | with_reducible apply State.modLane_ok | with_reducible apply State.count_ok | with_reducible apply State.chargeFrame_ok | with_reducible apply State.decoded_ok | with_reducible apply State.raise_ok | with_reducible apply State.blot_ok | with_reducible apply State.ite_ok | with_reducible apply State.fst_of | split | with_reducible apply State.mk_pok | with_reducible apply State.mk_ok)

theorem execHdePass_runs {b₀ : State} (cl : Fin 16) (k : Fin 2) (ecc : Ecc) (s : State) (cc : CcFault := .clean) (byte : Fin 4672 := 0) (hs : s.Ok b₀) : Runs b₀ (execHdePass cl k ecc s cc byte) := by
  unfold execHdePass; try dsimp -proj only
  repeat' (first | with_reducible assumption | with_reducible exact fun h => h | with_reducible exact fun h => Tab.wf_setD h _ _ | with_reducible exact fun h => Tab.wf_filter h _ | with_reducible exact fun _ => Tab.wf_nil _ | with_reducible exact fun h => Tab.wf_mapCmds _ h | with_reducible exact fun h => Tab.wf_foldl_setD _ _ _ h | intro _ | with_reducible apply State.foldl_ok | with_reducible apply State.foldl_pok | with_reducible apply runs_done | with_reducible apply runs_idle | with_reducible apply runs_ite | with_reducible apply runs_next | with_reducible apply State.modCluster_ok | with_reducible apply State.serve_ok | with_reducible apply State.fifoRead_ok | with_reducible apply looked_runs | with_reducible apply State.modLane_ok | with_reducible apply State.fifoUncorr_ok | with_reducible apply State.loadFrame_ok | with_reducible apply State.foreignFrame_ok | with_reducible apply State.modFrame_ok | with_reducible apply State.freeSlot_ok | with_reducible apply State.count_ok | with_reducible apply State.frameEnd_ok | with_reducible apply State.chargeFrame_ok | with_reducible apply State.ite_ok | with_reducible apply State.ite_pok | with_reducible apply State.fst_of | split | with_reducible apply State.mk_pok | with_reducible apply State.mk_ok)

theorem State.outletSlab_ok {b₀ : State} (s : State) (c h k : Nat) (ecc : Ecc) (hs : s.Ok b₀) : (State.outletSlab s c h k ecc).Ok b₀ := by
  unfold State.outletSlab; try dsimp -proj only
  repeat' (first | with_reducible assumption | intro _ | with_reducible apply State.foldl_ok | with_reducible apply State.foldl_pok | with_reducible apply State.slabRead_ok | with_reducible apply State.ite_ok | with_reducible apply State.fst_of | split | with_reducible apply State.mk_pok)

theorem State.hardFailed_ok {b₀ : State} (s : State) (g h k : Nat) (cc : CcFault) (hs : s.Ok b₀) : (State.hardFailed s g h k cc).Ok b₀ := by
  unfold State.hardFailed; try dsimp -proj only
  repeat' (first | with_reducible assumption | with_reducible exact fun h => h | with_reducible exact fun h => Tab.wf_setD h _ _ | with_reducible exact fun h => Tab.wf_filter h _ | with_reducible exact fun _ => Tab.wf_nil _ | with_reducible exact fun h => Tab.wf_mapCmds _ h | with_reducible exact fun h => Tab.wf_foldl_setD _ _ _ h | intro _ | with_reducible apply State.foldl_ok | with_reducible apply State.foldl_pok | with_reducible apply State.modFrame_ok | with_reducible apply State.modRegion_ok | with_reducible apply State.toGambit_ok | with_reducible apply State.ite_ok | with_reducible apply State.fst_of | split | with_reducible apply State.mk_pok | with_reducible apply State.mk_ok)

theorem execHdeDone_runs {b₀ : State} (cl : Fin 16) (k : Fin 2) (h : Fin 2048) (frame : Fin 32) (cc : CcFault) (s : State) (ecc : Ecc := .clean) (hs : s.Ok b₀) : Runs b₀ (execHdeDone cl k h frame cc s ecc) := by
  unfold execHdeDone; try dsimp -proj only
  repeat' (first | with_reducible assumption | with_reducible exact fun h => h | with_reducible exact fun h => Tab.wf_setD h _ _ | with_reducible exact fun h => Tab.wf_filter h _ | with_reducible exact fun _ => Tab.wf_nil _ | with_reducible exact fun h => Tab.wf_mapCmds _ h | with_reducible exact fun h => Tab.wf_foldl_setD _ _ _ h | intro _ | with_reducible apply State.foldl_ok | with_reducible apply State.foldl_pok | with_reducible apply runs_done | with_reducible apply runs_idle | with_reducible apply runs_ite | with_reducible apply runs_next | with_reducible apply State.modCluster_ok | with_reducible apply State.decoded_ok | with_reducible apply State.outletSlab_ok | with_reducible apply looked_runs | with_reducible apply State.stepDecoded_ok | with_reducible apply State.outlet_ok | with_reducible apply State.stepFailed_ok | with_reducible apply State.modLane_ok | with_reducible apply State.modFrame_ok | with_reducible apply State.hardFailed_ok | with_reducible apply State.ite_ok | with_reducible apply State.ite_pok | with_reducible apply State.fst_of | split | with_reducible apply State.mk_pok | with_reducible apply State.mk_ok)

theorem State.setCtx_ok {b₀ : State} (s : State) (r i : Nat) (x : Option SdeCtx) (hs : s.Ok b₀) : (State.setCtx s r i x).Ok b₀ := by
  unfold State.setCtx; try dsimp -proj only
  repeat' (first | with_reducible assumption | with_reducible exact fun h => h | with_reducible exact fun h => Tab.wf_setD h _ _ | with_reducible exact fun h => Tab.wf_filter h _ | with_reducible exact fun _ => Tab.wf_nil _ | with_reducible exact fun h => Tab.wf_mapCmds _ h | with_reducible exact fun h => Tab.wf_foldl_setD _ _ _ h | intro _ | with_reducible apply State.foldl_ok | with_reducible apply State.foldl_pok | with_reducible apply State.modRegion_ok | with_reducible apply State.ite_ok | with_reducible apply State.fst_of | split | with_reducible apply State.mk_pok | with_reducible apply State.mk_ok)

theorem execSdeContextGrant_runs {b₀ : State} (reg : Fin 2) (ecc : Ecc) (s : State) (cc : CcFault := .clean) (byte : Fin 4672 := 0) (hs : s.Ok b₀) : Runs b₀ (execSdeContextGrant reg ecc s cc byte) := by
  unfold execSdeContextGrant; try dsimp -proj only
  repeat' (first | with_reducible assumption | with_reducible exact fun h => h | with_reducible exact fun h => Tab.wf_setD h _ _ | with_reducible exact fun h => Tab.wf_filter h _ | with_reducible exact fun _ => Tab.wf_nil _ | with_reducible exact fun h => Tab.wf_mapCmds _ h | with_reducible exact fun h => Tab.wf_foldl_setD _ _ _ h | intro _ | with_reducible apply State.foldl_ok | with_reducible apply State.foldl_pok | with_reducible apply runs_done | with_reducible apply runs_idle | with_reducible apply runs_ite | with_reducible apply runs_next | with_reducible apply State.rest_ok | with_reducible apply State.modRegion_ok | with_reducible apply State.fifoRead_ok | with_reducible apply looked_runs | with_reducible apply State.fifoUncorr_ok | with_reducible apply State.loadFrame_ok | with_reducible apply State.want_ok | with_reducible apply State.setCtx_ok | with_reducible apply State.freeSlot_ok | with_reducible apply State.modFrame_ok | with_reducible apply State.senseReq_ok | with_reducible apply State.ite_ok | with_reducible apply State.ite_pok | with_reducible apply State.fst_of | split | with_reducible apply State.mk_pok | with_reducible apply State.mk_ok)

theorem State.softArrives_ok {b₀ : State} (s : State) (g : Nat) (sl : Slot) (hs : s.Ok b₀) : (State.softArrives s g sl).Ok b₀ := by
  unfold State.softArrives; try dsimp -proj only
  repeat' (first | with_reducible assumption | with_reducible exact fun h => h | with_reducible exact fun h => Tab.wf_setD h _ _ | with_reducible exact fun h => Tab.wf_filter h _ | with_reducible exact fun _ => Tab.wf_nil _ | with_reducible exact fun h => Tab.wf_mapCmds _ h | with_reducible exact fun h => Tab.wf_foldl_setD _ _ _ h | intro _ | with_reducible apply State.foldl_ok | with_reducible apply State.foldl_pok | with_reducible apply State.setCtx_ok | with_reducible apply State.senseReq_ok | with_reducible apply State.ite_ok | with_reducible apply State.fst_of | split | with_reducible apply State.mk_pok | with_reducible apply State.mk_ok)

theorem State.softUncorr_ok {b₀ : State} (s : State) (g : Nat) (sl : Slot) (cc : CcFault) (hs : s.Ok b₀) : (State.softUncorr s g sl cc).Ok b₀ := by
  unfold State.softUncorr; try dsimp -proj only
  repeat' (first | with_reducible assumption | with_reducible exact fun h => h | with_reducible exact fun h => Tab.wf_setD h _ _ | with_reducible exact fun h => Tab.wf_filter h _ | with_reducible exact fun _ => Tab.wf_nil _ | with_reducible exact fun h => Tab.wf_mapCmds _ h | with_reducible exact fun h => Tab.wf_foldl_setD _ _ _ h | intro _ | with_reducible apply State.foldl_ok | with_reducible apply State.foldl_pok | with_reducible apply State.modRegion_ok | with_reducible apply State.fifoUncorr_ok | with_reducible apply State.ite_ok | with_reducible apply State.fst_of | split | with_reducible apply State.mk_pok | with_reducible apply State.mk_ok)

theorem execSoftSensingArrival_runs {b₀ : State} (lane : Fin 128) (s : State) (ecc : Ecc := .clean) (cc : CcFault := .clean) (byte : Fin 4672 := 0) (hs : s.Ok b₀) : Runs b₀ (execSoftSensingArrival lane s ecc cc byte) := by
  unfold execSoftSensingArrival; try dsimp -proj only
  repeat' (first | with_reducible assumption | with_reducible exact fun h => h | with_reducible exact fun h => Tab.wf_setD h _ _ | with_reducible exact fun h => Tab.wf_filter h _ | with_reducible exact fun _ => Tab.wf_nil _ | with_reducible exact fun h => Tab.wf_mapCmds _ h | with_reducible exact fun h => Tab.wf_foldl_setD _ _ _ h | intro _ | with_reducible apply State.foldl_ok | with_reducible apply State.foldl_pok | with_reducible apply runs_done | with_reducible apply runs_idle | with_reducible apply runs_ite | with_reducible apply runs_next | with_reducible apply State.fifoRead_ok | with_reducible apply State.modLane_ok | with_reducible apply looked_runs | with_reducible apply State.softUncorr_ok | with_reducible apply State.softArrives_ok | with_reducible apply State.ite_ok | with_reducible apply State.ite_pok | with_reducible apply State.fst_of | split | with_reducible apply State.mk_pok | with_reducible apply State.mk_ok)

theorem execSdeDone_runs {b₀ : State} (reg : Fin 2) (ctx : Fin 32) (cc : CcFault) (s : State) (hs : s.Ok b₀) : Runs b₀ (execSdeDone reg ctx cc s) := by
  unfold execSdeDone; try dsimp -proj only
  repeat' (first | with_reducible assumption | with_reducible exact fun h => h | with_reducible exact fun h => Tab.wf_setD h _ _ | with_reducible exact fun h => Tab.wf_filter h _ | with_reducible exact fun _ => Tab.wf_nil _ | with_reducible exact fun h => Tab.wf_mapCmds _ h | with_reducible exact fun h => Tab.wf_foldl_setD _ _ _ h | intro _ | with_reducible apply State.foldl_ok | with_reducible apply State.foldl_pok | with_reducible apply runs_done | with_reducible apply runs_idle | with_reducible apply runs_ite | with_reducible apply runs_next | with_reducible apply State.want_ok | with_reducible apply State.chargeFrame_ok | with_reducible apply State.setCtx_ok | with_reducible apply State.decoded_ok | with_reducible apply State.modFrame_ok | with_reducible apply looked_runs | with_reducible apply State.stepDecoded_ok | with_reducible apply State.outlet_ok | with_reducible apply State.stepFailed_ok | with_reducible apply State.toGambit_ok | with_reducible apply State.ite_ok | with_reducible apply State.ite_pok | with_reducible apply State.fst_of | split | with_reducible apply State.mk_pok | with_reducible apply State.mk_ok)

theorem State.setKey_ok {b₀ : State} (s : State) (k : Nat) (v : Option (BitVec 512)) (hs : s.Ok b₀) : (State.setKey s k v).Ok b₀ := by
  unfold State.setKey; try dsimp -proj only
  repeat' (first | with_reducible assumption | with_reducible exact fun h => h | with_reducible exact fun h => Tab.wf_setD h _ _ | with_reducible exact fun h => Tab.wf_filter h _ | with_reducible exact fun _ => Tab.wf_nil _ | with_reducible exact fun h => Tab.wf_mapCmds _ h | with_reducible exact fun h => Tab.wf_foldl_setD _ _ _ h | intro _ | with_reducible apply State.foldl_ok | with_reducible apply State.foldl_pok | with_reducible apply State.modKeys_ok | with_reducible apply State.ite_ok | with_reducible apply State.fst_of | split | with_reducible apply State.mk_pok | with_reducible apply State.mk_ok)

theorem State.keyRead_ok {b₀ : State} (s : State) (n : Nat) (ecc : Ecc) (hs : s.Ok b₀) : (State.keyRead s n ecc).Ok b₀ := by
  unfold State.keyRead; try dsimp -proj only
  repeat' (first | with_reducible assumption | intro _ | with_reducible apply State.foldl_ok | with_reducible apply State.foldl_pok | with_reducible apply State.corrected_ok | with_reducible apply State.uncorrRow_ok | with_reducible apply State.blot_ok | with_reducible apply State.setKey_ok | with_reducible apply State.ite_ok | with_reducible apply State.fst_of | split | with_reducible apply State.mk_pok)

theorem execCipherUnit_runs {b₀ : State} (cl : Fin 16) (k : Fin 2) (s : State) (ecc : Ecc := .clean) (cc : CcFault := .clean) (hs : s.Ok b₀) : Runs b₀ (execCipherUnit cl k s ecc cc) := by
  unfold execCipherUnit; try dsimp -proj only
  repeat' (first | with_reducible assumption | with_reducible exact fun h => h | with_reducible exact fun h => Tab.wf_setD h _ _ | with_reducible exact fun h => Tab.wf_filter h _ | with_reducible exact fun _ => Tab.wf_nil _ | with_reducible exact fun h => Tab.wf_mapCmds _ h | with_reducible exact fun h => Tab.wf_foldl_setD _ _ _ h | intro _ | with_reducible apply State.foldl_ok | with_reducible apply State.foldl_pok | with_reducible apply runs_done | with_reducible apply runs_idle | with_reducible apply runs_ite | with_reducible apply runs_next | with_reducible apply State.keyRead_ok | with_reducible apply State.outletFail_ok | with_reducible apply State.abort_ok | with_reducible apply State.modFrame_ok | with_reducible apply State.modCluster_ok | with_reducible apply State.rest_ok | with_reducible apply looked_runs | with_reducible apply State.ite_ok | with_reducible apply State.ite_pok | with_reducible apply State.fst_of | split | with_reducible apply State.mk_pok | with_reducible apply State.mk_ok)

theorem State.decipherDone_ok {b₀ : State} (s : State) (c : Nat) (e : Engine) (key : BitVec 512) (x : Cmd) (cc : CcFault) (hs : s.Ok b₀) : (State.decipherDone s c e key x cc).Ok b₀ := by
  unfold State.decipherDone; try dsimp -proj only
  repeat' (first | with_reducible assumption | with_reducible exact fun h => h | with_reducible exact fun h => Tab.wf_setD h _ _ | with_reducible exact fun h => Tab.wf_filter h _ | with_reducible exact fun _ => Tab.wf_nil _ | with_reducible exact fun h => Tab.wf_mapCmds _ h | with_reducible exact fun h => Tab.wf_foldl_setD _ _ _ h | intro _ | with_reducible apply State.foldl_ok | with_reducible apply State.foldl_pok | with_reducible apply State.outletFail_ok | with_reducible apply State.modSlab_ok | with_reducible apply State.modFrame_ok | with_reducible apply State.frameEnd_ok | with_reducible apply State.ite_ok | with_reducible apply State.fst_of | split | with_reducible apply State.mk_pok | with_reducible apply State.mk_ok)

theorem State.encipherDone_ok {b₀ : State} (s : State) (c : Nat) (e : Engine) (key : BitVec 512) (x : Cmd) (hs : s.Ok b₀) : (State.encipherDone s c e key x).Ok b₀ := by
  unfold State.encipherDone; try dsimp -proj only
  repeat' (first | with_reducible assumption | with_reducible exact fun h => h | with_reducible exact fun h => Tab.wf_setD h _ _ | with_reducible exact fun h => Tab.wf_filter h _ | with_reducible exact fun _ => Tab.wf_nil _ | with_reducible exact fun h => Tab.wf_mapCmds _ h | with_reducible exact fun h => Tab.wf_foldl_setD _ _ _ h | intro _ | with_reducible apply State.foldl_ok | with_reducible apply State.foldl_pok | with_reducible apply State.modSlab_ok | with_reducible apply State.modFrame_ok | with_reducible apply State.modCmd_ok | with_reducible apply State.ite_ok | with_reducible apply State.fst_of | split | with_reducible apply State.mk_pok | with_reducible apply State.mk_ok)

theorem execCipherUnitDone_runs {b₀ : State} (cl : Fin 16) (k : Fin 2) (s : State) (ecc : Ecc := .clean) (cc : CcFault := .clean) (hs : s.Ok b₀) : Runs b₀ (execCipherUnitDone cl k s ecc cc) := by
  unfold execCipherUnitDone; try dsimp -proj only
  repeat' (first | with_reducible assumption | intro _ | with_reducible apply State.foldl_ok | with_reducible apply State.foldl_pok | with_reducible apply runs_done | with_reducible apply runs_idle | with_reducible apply runs_ite | with_reducible apply runs_next | with_reducible apply State.modCluster_ok | with_reducible apply looked_runs | with_reducible apply State.slabRead_ok | with_reducible apply State.encipherDone_ok | with_reducible apply State.outletSlab_ok | with_reducible apply State.decipherDone_ok | with_reducible apply State.ite_ok | with_reducible apply State.ite_pok | with_reducible apply State.fst_of | split | with_reducible apply State.mk_pok)

theorem State.scmd_ok {b₀ : State} (s : State) (op : Nat) (a : RpAcc) (f : State → Nat → Nat → Nat → State) (hs : s.Ok b₀) (hf : ∀ t x0 x1 x2, t.Ok b₀ → (f t x0 x1 x2).Ok b₀) : (State.scmd s op a f).Ok b₀ := by
  unfold State.scmd; try dsimp -proj only
  repeat' (first | with_reducible assumption | intro _ | with_reducible apply State.foldl_ok | with_reducible apply State.foldl_pok | with_reducible apply State.portWrite_ok | with_reducible apply State.discard_ok | with_reducible apply hf | with_reducible apply State.ite_ok | with_reducible apply State.fst_of | split | with_reducible apply State.mk_pok)

theorem execRewalk_runs {b₀ : State} (a : RpAcc) (s : State) (hs : s.Ok b₀) : Runs b₀ (execRewalk a s) := by
  unfold execRewalk; try dsimp -proj only
  repeat' (first | with_reducible assumption | with_reducible exact fun h => h | with_reducible exact fun h => Tab.wf_setD h _ _ | with_reducible exact fun h => Tab.wf_filter h _ | with_reducible exact fun _ => Tab.wf_nil _ | with_reducible exact fun h => Tab.wf_mapCmds _ h | with_reducible exact fun h => Tab.wf_foldl_setD _ _ _ h | intro _ | with_reducible apply State.foldl_ok | with_reducible apply State.foldl_pok | with_reducible apply runs_done | with_reducible apply runs_idle | with_reducible apply runs_ite | with_reducible apply runs_next | with_reducible apply State.scmd_ok | with_reducible apply State.modFrame_ok | with_reducible apply State.modLane_ok | with_reducible apply State.ite_ok | with_reducible apply State.ite_pok | with_reducible apply State.fst_of | split | with_reducible apply State.mk_pok | with_reducible apply State.mk_ok)

theorem execGbFail_runs {b₀ : State} (a : RpAcc) (s : State) (cc : CcFault := .clean) (hs : s.Ok b₀) : Runs b₀ (execGbFail a s cc) := by
  unfold execGbFail; try dsimp -proj only
  repeat' (first | with_reducible assumption | intro _ | with_reducible apply State.foldl_ok | with_reducible apply State.foldl_pok | with_reducible apply runs_done | with_reducible apply runs_idle | with_reducible apply runs_ite | with_reducible apply runs_next | with_reducible apply State.scmd_ok | with_reducible apply State.frameFail_ok | with_reducible apply State.ite_ok | with_reducible apply State.ite_pok | with_reducible apply State.fst_of | split | with_reducible apply State.mk_pok)

theorem State.histWrite_ok {b₀ : State} (s : State) (sel hist n bitNo : Nat) (a : RpAcc) (hs : s.Ok b₀) : (State.histWrite s sel hist n bitNo a).Ok b₀ := by
  unfold State.histWrite; try dsimp -proj only
  repeat' (first | with_reducible assumption | intro _ | with_reducible apply State.foldl_ok | with_reducible apply State.foldl_pok | with_reducible apply State.portWrite_ok | with_reducible apply State.writeRow_ok | with_reducible apply State.setReg_ok | with_reducible apply State.ite_ok | with_reducible apply State.fst_of | split | with_reducible apply State.mk_pok)

theorem execLatHistClear_runs {b₀ : State} (lane : Fin 128) (a : RpAcc) (s : State) (hs : s.Ok b₀) : Runs b₀ (execLatHistClear lane a s) := by
  unfold execLatHistClear; try dsimp -proj only
  repeat' (first | with_reducible assumption | intro _ | with_reducible apply State.foldl_ok | with_reducible apply State.foldl_pok | with_reducible apply runs_done | with_reducible apply runs_idle | with_reducible apply runs_ite | with_reducible apply runs_next | with_reducible apply State.histWrite_ok | with_reducible apply State.ite_ok | with_reducible apply State.ite_pok | with_reducible apply State.fst_of | split | with_reducible apply State.mk_pok)

theorem execGbHistClear_runs {b₀ : State} (lane : Fin 128) (a : RpAcc) (s : State) (hs : s.Ok b₀) : Runs b₀ (execGbHistClear lane a s) := by
  unfold execGbHistClear; try dsimp -proj only
  repeat' (first | with_reducible assumption | intro _ | with_reducible apply State.foldl_ok | with_reducible apply State.foldl_pok | with_reducible apply runs_done | with_reducible apply runs_idle | with_reducible apply runs_ite | with_reducible apply runs_next | with_reducible apply State.histWrite_ok | with_reducible apply State.ite_ok | with_reducible apply State.ite_pok | with_reducible apply State.fst_of | split | with_reducible apply State.mk_pok)

theorem execPtHistClear_runs {b₀ : State} (a : RpAcc) (s : State) (hs : s.Ok b₀) : Runs b₀ (execPtHistClear a s) := by
  unfold execPtHistClear; try dsimp -proj only
  repeat' (first | with_reducible assumption | intro _ | with_reducible apply State.foldl_ok | with_reducible apply State.foldl_pok | with_reducible apply runs_done | with_reducible apply runs_idle | with_reducible apply runs_ite | with_reducible apply runs_next | with_reducible apply State.histWrite_ok | with_reducible apply State.ite_ok | with_reducible apply State.ite_pok | with_reducible apply State.fst_of | split | with_reducible apply State.mk_pok)

end Sys2Proof.Machine
end

