-- ==== Sys2Proof/Laws/OkSched.lean ====
section
/-! SUPPORT. The operations of Machine/Sched.lean keep the canonical form of the tables and leave the build, the queue,
the pins, the fuses, the test port and the time alone. -/
namespace Sys2Proof.Machine
open Sys2Proof
set_option linter.unusedTactic false
set_option linter.unreachableTactic false
set_option linter.unusedVariables false

theorem State.defectLoop_ok {b₀ : State} (cc : CcFault) (u : Asker) (l : List (BitVec 64 × Nat)) (s : State) (bad : Bool)
    (hs : s.Ok b₀) : State.POk b₀ (State.defectLoop cc u l s bad) := by
  induction l generalizing s bad with
  | nil => exact hs
  | cons e l ih =>
    obtain ⟨m, least⟩ := e
    rw [State.defectLoop]
    have h : (s.dfCode u (mawDie m) ((s.geo (mawLane m)).dieBlock m) cc).1.Ok b₀ := State.fst_of (State.dfCode_ok s _ _ _ _ hs)
    generalize s.dfCode u (mawDie m) ((s.geo (mawLane m)).dieBlock m) cc = r at h
    obtain ⟨r1, r2⟩ := r
    cases r2 with
    | none => exact h
    | some code => exact ih r1 _ h

theorem State.defectCheck_ok {b₀ : State} (s : State) (c : Nat) (x : Cmd) (cc : CcFault) (hs : s.Ok b₀) : State.POk b₀ (State.defectCheck s c x cc) := by
  unfold State.defectCheck; try dsimp -proj only
  repeat' (first | with_reducible assumption | intro _ | with_reducible apply State.foldl_ok | with_reducible apply State.foldl_pok | with_reducible apply State.defectLoop_ok | with_reducible apply State.ite_ok | with_reducible apply State.ite_pok | with_reducible apply State.fst_of | split | with_reducible apply State.mk_pok)

theorem State.frontierCheck_ok {b₀ : State} (s : State) (c : Nat) (x : Cmd) (full : Bool) (cc : CcFault) (hs : s.Ok b₀) : State.POk b₀ (State.frontierCheck s c x full cc) := by
  unfold State.frontierCheck; try dsimp -proj only
  repeat' (first | with_reducible assumption | intro _ | with_reducible apply State.foldl_ok | with_reducible apply State.foldl_pok | with_reducible apply State.frSlots_ok | with_reducible apply State.frStore_ok | with_reducible apply State.ite_ok | with_reducible apply State.ite_pok | with_reducible apply State.fst_of | split | with_reducible apply State.mk_pok)

theorem State.pickChecks_ok {b₀ : State} (s : State) (c : Nat) (x : Cmd) (cc : CcFault) (hs : s.Ok b₀) : State.POk b₀ (State.pickChecks s c x cc) := by
  unfold State.pickChecks; try dsimp -proj only
  repeat' (first | with_reducible assumption | intro _ | with_reducible apply State.foldl_ok | with_reducible apply State.foldl_pok | with_reducible apply State.defectCheck_ok | with_reducible apply State.frontierCheck_ok | with_reducible apply State.ite_ok | with_reducible apply State.ite_pok | with_reducible apply State.fst_of | split | with_reducible apply State.mk_pok)

theorem State.refuse_ok {b₀ : State} (s : State) (c h : Nat) (x : Cmd) (r : Nat × Nat) (hs : s.Ok b₀) : (State.refuse s c h x r).Ok b₀ := by
  unfold State.refuse; try dsimp -proj only
  repeat' (first | with_reducible assumption | intro _ | with_reducible apply State.foldl_ok | with_reducible apply State.foldl_pok | with_reducible apply State.count_ok | with_reducible apply State.finish_ok | with_reducible apply State.ite_ok | with_reducible apply State.fst_of | split | with_reducible apply State.mk_pok)

theorem claimPut_ok {b₀ : State} (u : Asker) (die : Nat) (cc : CcFault) (a : State × List FrRec × Bool × List (Nat × FrRec)) (i : Nat) (r : FrRec) (ha : State.POk b₀ a) : State.POk b₀ (claimPut u die cc a i r) := by
  unfold claimPut; try dsimp -proj only
  repeat' (first | with_reducible assumption | intro _ | with_reducible apply State.foldl_ok | with_reducible apply State.foldl_pok | with_reducible apply State.frPut_ok | with_reducible apply State.ite_ok | with_reducible apply State.ite_pok | with_reducible apply State.fst_of | split | with_reducible apply State.mk_pok)

theorem State.claim_ok {b₀ : State} (s : State) (c : Nat) (x : Cmd) (l : List FrRec) (verify : List (BitVec 64)) (seq : Nat) (cc : CcFault) (hs : s.Ok b₀) : State.POk b₀ (State.claim s c x l verify seq cc) := by
  unfold State.claim; try dsimp -proj only
  repeat' (first | with_reducible assumption | with_reducible exact fun h => h | with_reducible exact fun h => Tab.wf_setD h _ _ | with_reducible exact fun h => Tab.wf_filter h _ | with_reducible exact fun _ => Tab.wf_nil _ | with_reducible exact fun h => Tab.wf_mapCmds _ h | with_reducible exact fun h => Tab.wf_foldl_setD _ _ _ h | intro _ | with_reducible apply State.foldl_ok | with_reducible apply State.foldl_pok | with_reducible apply claimPut_ok | with_reducible apply State.frPut_ok | with_reducible apply State.ite_ok | with_reducible apply State.ite_pok | with_reducible apply State.fst_of | split | with_reducible apply State.mk_pok | with_reducible apply State.mk_ok)

theorem State.takeSeq_ok {b₀ : State} (s : State) (g : Nat) (x : Cmd) (hs : s.Ok b₀) : State.POk b₀ (State.takeSeq s g x) := by
  unfold State.takeSeq; try dsimp -proj only
  repeat' (first | with_reducible assumption | with_reducible exact fun h => h | with_reducible exact fun h => Tab.wf_setD h _ _ | with_reducible exact fun h => Tab.wf_filter h _ | with_reducible exact fun _ => Tab.wf_nil _ | with_reducible exact fun h => Tab.wf_mapCmds _ h | with_reducible exact fun h => Tab.wf_foldl_setD _ _ _ h | intro _ | with_reducible apply State.foldl_ok | with_reducible apply State.foldl_pok | with_reducible apply State.modSlab_ok | with_reducible apply State.modReg_ok | with_reducible apply State.ite_ok | with_reducible apply State.ite_pok | with_reducible apply State.fst_of | split | with_reducible apply State.mk_pok | with_reducible apply State.mk_ok)

theorem State.countPick_ok {b₀ : State} (s : State) (g : Nat) (x : Cmd) (late : Bool) (hs : s.Ok b₀) : (State.countPick s g x late).Ok b₀ := by
  unfold State.countPick; try dsimp -proj only
  repeat' (first | with_reducible assumption | with_reducible exact fun h => h | with_reducible exact fun h => Tab.wf_setD h _ _ | with_reducible exact fun h => Tab.wf_filter h _ | with_reducible exact fun _ => Tab.wf_nil _ | with_reducible exact fun h => Tab.wf_mapCmds _ h | with_reducible exact fun h => Tab.wf_foldl_setD _ _ _ h | intro _ | with_reducible apply State.foldl_ok | with_reducible apply State.foldl_pok | with_reducible apply State.count_ok | with_reducible apply State.raise_ok | with_reducible apply State.modLane_ok | with_reducible apply State.ite_ok | with_reducible apply State.fst_of | split | with_reducible apply State.mk_pok | with_reducible apply State.mk_ok)

theorem State.dispatch_ok {b₀ : State} (s : State) (g c h : Nat) (units : Nat) (cc : CcFault) (hs : s.Ok b₀) : (State.dispatch s g c h units cc).Ok b₀ := by
  unfold State.dispatch; try dsimp -proj only
  repeat' (first | with_reducible assumption | with_reducible exact fun h => h | with_reducible exact fun h => Tab.wf_setD h _ _ | with_reducible exact fun h => Tab.wf_filter h _ | with_reducible exact fun _ => Tab.wf_nil _ | with_reducible exact fun h => Tab.wf_mapCmds _ h | with_reducible exact fun h => Tab.wf_foldl_setD _ _ _ h | intro _ | with_reducible apply State.foldl_ok | with_reducible apply State.foldl_pok | with_reducible apply State.modCmd_ok | with_reducible apply State.rlLookup_ok | with_reducible apply State.modLun_ok | with_reducible apply State.event_ok | with_reducible apply State.tableSync_ok | with_reducible apply State.ite_ok | with_reducible apply State.fst_of | split | with_reducible apply State.mk_pok | with_reducible apply State.mk_ok)

theorem State.admitted_ok {b₀ : State} (s : State) (g c h : Nat) (x : Cmd) (f : Frontier) (units : Nat) (late : Bool) (cc : CcFault) (hs : s.Ok b₀) : (State.admitted s g c h x f units late cc).Ok b₀ := by
  unfold State.admitted; try dsimp -proj only
  repeat' (first | with_reducible assumption | with_reducible exact fun h => h | with_reducible exact fun h => Tab.wf_setD h _ _ | with_reducible exact fun h => Tab.wf_filter h _ | with_reducible exact fun _ => Tab.wf_nil _ | with_reducible exact fun h => Tab.wf_mapCmds _ h | with_reducible exact fun h => Tab.wf_foldl_setD _ _ _ h | intro _ | with_reducible apply State.foldl_ok | with_reducible apply State.foldl_pok | with_reducible apply State.takeSlabs_ok | with_reducible apply State.modCmd_ok | with_reducible apply State.countPick_ok | with_reducible apply State.takeSeq_ok | with_reducible apply State.frStore_ok | with_reducible apply State.dispatch_ok | with_reducible apply State.claim_ok | with_reducible apply State.abort_ok | with_reducible apply State.count_ok | with_reducible apply State.ite_ok | with_reducible apply State.fst_of | split | with_reducible apply State.mk_pok | with_reducible apply State.mk_ok)

theorem State.askSuspend_ok {b₀ : State} (s : State) (g ld : Nat) (e : Entry3) (hs : s.Ok b₀) : (State.askSuspend s g ld e).Ok b₀ := by
  unfold State.askSuspend; try dsimp -proj only
  repeat' (first | with_reducible assumption | with_reducible exact fun h => h | with_reducible exact fun h => Tab.wf_setD h _ _ | with_reducible exact fun h => Tab.wf_filter h _ | with_reducible exact fun _ => Tab.wf_nil _ | with_reducible exact fun h => Tab.wf_mapCmds _ h | with_reducible exact fun h => Tab.wf_foldl_setD _ _ _ h | intro _ | with_reducible apply State.foldl_ok | with_reducible apply State.foldl_pok | with_reducible apply State.event_ok | with_reducible apply State.modLun_ok | with_reducible apply State.count_ok | with_reducible apply State.modCmd_ok | with_reducible apply State.ite_ok | with_reducible apply State.fst_of | split | with_reducible apply State.mk_pok | with_reducible apply State.mk_ok)

theorem State.resumeStroke_ok {b₀ : State} (s : State) (g ld : Nat) (hs : s.Ok b₀) : (State.resumeStroke s g ld).Ok b₀ := by
  unfold State.resumeStroke; try dsimp -proj only
  repeat' (first | with_reducible assumption | intro _ | with_reducible apply State.foldl_ok | with_reducible apply State.foldl_pok | with_reducible apply State.commit_ok | with_reducible apply State.ite_ok | with_reducible apply State.fst_of | split | with_reducible apply State.mk_pok)

theorem State.resumeErase_ok {b₀ : State} (s : State) (g : Nat) (on : List Entry3) (ld : Nat) (hs : s.Ok b₀) : (State.resumeErase s g on ld).Ok b₀ := by
  unfold State.resumeErase; try dsimp -proj only
  repeat' (first | with_reducible assumption | intro _ | with_reducible apply State.foldl_ok | with_reducible apply State.foldl_pok | with_reducible apply State.discard_ok | with_reducible apply State.resumeStroke_ok | with_reducible apply State.ite_ok | with_reducible apply State.fst_of | split | with_reducible apply State.mk_pok)

theorem State.lunPolicy_ok {b₀ : State} (s : State) (g ld : Nat) (hs : s.Ok b₀) : (State.lunPolicy s g ld).Ok b₀ := by
  unfold State.lunPolicy; try dsimp -proj only
  repeat' (first | with_reducible assumption | with_reducible exact fun h => h | with_reducible exact fun h => Tab.wf_setD h _ _ | with_reducible exact fun h => Tab.wf_filter h _ | with_reducible exact fun _ => Tab.wf_nil _ | with_reducible exact fun h => Tab.wf_mapCmds _ h | with_reducible exact fun h => Tab.wf_foldl_setD _ _ _ h | intro _ | with_reducible apply State.foldl_ok | with_reducible apply State.foldl_pok | with_reducible apply State.modCmd_ok | with_reducible apply State.askSuspend_ok | with_reducible apply State.resumeStroke_ok | with_reducible apply State.resumeErase_ok | with_reducible apply State.ite_ok | with_reducible apply State.fst_of | split | with_reducible apply State.mk_pok | with_reducible apply State.mk_ok)

theorem State.lanePolicy_ok {b₀ : State} (s : State) (g : Nat) (hs : s.Ok b₀) : (State.lanePolicy s g).Ok b₀ := by
  unfold State.lanePolicy; try dsimp -proj only
  repeat' (first | with_reducible assumption | intro _ | with_reducible apply State.foldl_ok | with_reducible apply State.foldl_pok | with_reducible apply State.lunPolicy_ok | with_reducible apply State.ite_ok | with_reducible apply State.fst_of | split | with_reducible apply State.mk_pok)

theorem State.tryPick_ok {b₀ : State} (s : State) (g : Nat) (e : Entry3) (late : Bool) (cc : CcFault) (upset : Upset) (hs : s.Ok b₀) : State.POk b₀ (State.tryPick s g e late cc upset) := by
  unfold State.tryPick; try dsimp -proj only
  repeat' (first | with_reducible assumption | with_reducible exact fun h => h | with_reducible exact fun h => Tab.wf_setD h _ _ | with_reducible exact fun h => Tab.wf_filter h _ | with_reducible exact fun _ => Tab.wf_nil _ | with_reducible exact fun h => Tab.wf_mapCmds _ h | with_reducible exact fun h => Tab.wf_foldl_setD _ _ _ h | intro _ | with_reducible apply State.foldl_ok | with_reducible apply State.foldl_pok | with_reducible apply State.pickChecks_ok | with_reducible apply State.refuse_ok | with_reducible apply State.modCmd_ok | with_reducible apply State.upset_ok | with_reducible apply State.ask_ok | with_reducible apply State.admitted_ok | with_reducible apply State.modLane_ok | with_reducible apply State.ite_ok | with_reducible apply State.ite_pok | with_reducible apply State.fst_of | split | with_reducible apply State.mk_pok | with_reducible apply State.mk_ok)

theorem State.selectLoop_ok {b₀ : State} (g : Nat) (cc : CcFault) (n : Nat) (u : Upset) (s : State)
    (hs : s.Ok b₀) : (State.selectLoop g cc n u s).Ok b₀ := by
  induction n generalizing s u with
  | zero => exact hs
  | succ n ih =>
    rw [State.selectLoop]
    split
    · exact hs
    · next e late _ =>
      have h : (s.tryPick g e late cc u).1.Ok b₀ := State.fst_of (State.tryPick_ok s _ _ _ _ _ hs)
      generalize s.tryPick g e late cc u = r at h
      obtain ⟨r1, r2⟩ := r
      cases r2
      · exact ih _ _ h
      · exact h

theorem State.deferWaiting_ok {b₀ : State} (s : State) (g : Nat) (hs : s.Ok b₀) : (State.deferWaiting s g).Ok b₀ := by
  unfold State.deferWaiting; try dsimp -proj only
  repeat' (first | with_reducible assumption | intro _ | with_reducible apply State.foldl_ok | with_reducible apply State.foldl_pok | with_reducible apply State.finish_ok | with_reducible apply State.ite_ok | with_reducible apply State.fst_of | split | with_reducible apply State.mk_pok)

theorem execSelection_runs {b₀ : State} (lane : Fin 128) (cc : CcFault) (upset : Upset) (s : State) (hs : s.Ok b₀) : Runs b₀ (execSelection lane cc upset s) := by
  unfold execSelection; try dsimp -proj only
  repeat' (first | with_reducible assumption | intro _ | with_reducible apply State.foldl_ok | with_reducible apply State.foldl_pok | with_reducible apply runs_done | with_reducible apply runs_idle | with_reducible apply runs_ite | with_reducible apply runs_next | with_reducible apply State.sealNext_ok | with_reducible apply State.deferWaiting_ok | with_reducible apply State.lanePolicy_ok | with_reducible apply looked_runs | with_reducible apply State.selectLoop_ok | with_reducible apply State.upset_ok | with_reducible apply State.ite_ok | with_reducible apply State.ite_pok | with_reducible apply State.fst_of | split | with_reducible apply State.mk_pok)

end Sys2Proof.Machine
end

