-- ==== Sys2Proof/Laws/OkFetch.lean ====
section
/-! SUPPORT. The operations of Machine/Fetch.lean keep the canonical form of the tables and leave the build, the queue,
the pins, the fuses, the test port and the time alone. -/
namespace Sys2Proof.Machine
open Sys2Proof
set_option linter.unusedTactic false
set_option linter.unreachableTactic false
set_option linter.unusedVariables false

theorem State.mawReject_ok {b₀ : State} (s : State) (owner : Nat) (r : BitVec 64 × Bool × Nat) (hs : s.Ok b₀) : (State.mawReject s owner r).Ok b₀ := by
  unfold State.mawReject; try dsimp -proj only
  repeat' (first | with_reducible assumption | intro _ | with_reducible apply State.foldl_ok | with_reducible apply State.foldl_pok | with_reducible apply State.count_ok | with_reducible apply State.setReg_ok | with_reducible apply State.raise_ok | with_reducible apply State.blot_ok | with_reducible apply State.ite_ok | with_reducible apply State.fst_of | split | with_reducible apply State.mk_pok)

theorem State.modFetch_ok {b₀ : State} (s : State) (ring : Nat) (f : Fetching → Fetching) (hs : s.Ok b₀) : (State.modFetch s ring f).Ok b₀ := by
  unfold State.modFetch; try dsimp -proj only
  repeat' (first | with_reducible assumption | with_reducible exact fun h => h | with_reducible exact fun h => Tab.wf_setD h _ _ | with_reducible exact fun h => Tab.wf_filter h _ | with_reducible exact fun _ => Tab.wf_nil _ | with_reducible exact fun h => Tab.wf_mapCmds _ h | with_reducible exact fun h => Tab.wf_foldl_setD _ _ _ h | intro _ | with_reducible apply State.foldl_ok | with_reducible apply State.foldl_pok | with_reducible apply State.ite_ok | with_reducible apply State.fst_of | split | with_reducible apply State.mk_pok | with_reducible apply State.mk_ok)

theorem State.fetchAsk_ok {b₀ : State} (s : State) (e : Fetching) (hs : s.Ok b₀) : (State.fetchAsk s e).Ok b₀ := by
  unfold State.fetchAsk; try dsimp -proj only
  repeat' (first | with_reducible assumption | intro _ | with_reducible apply State.foldl_ok | with_reducible apply State.foldl_pok | with_reducible apply State.hpPush_ok | with_reducible apply State.count_ok | with_reducible apply State.ite_ok | with_reducible apply State.fst_of | split | with_reducible apply State.mk_pok)

theorem State.fetchGone_ok {b₀ : State} (s : State) (e : Fetching) (n : Nat) (pkt drop : Bool) (hs : s.Ok b₀) : (State.fetchGone s e n pkt drop).Ok b₀ := by
  unfold State.fetchGone; try dsimp -proj only
  repeat' (first | with_reducible assumption | with_reducible exact fun h => h | with_reducible exact fun h => Tab.wf_setD h _ _ | with_reducible exact fun h => Tab.wf_filter h _ | with_reducible exact fun _ => Tab.wf_nil _ | with_reducible exact fun h => Tab.wf_mapCmds _ h | with_reducible exact fun h => Tab.wf_foldl_setD _ _ _ h | intro _ | with_reducible apply State.foldl_ok | with_reducible apply State.foldl_pok | with_reducible apply State.ringPut_ok | with_reducible apply State.ite_ok | with_reducible apply State.fst_of | split | with_reducible apply State.mk_pok | with_reducible apply State.mk_ok)

theorem State.countRewind_ok {b₀ : State} (s : State) (e : Fetching) (hs : s.Ok b₀) : (State.countRewind s e).Ok b₀ := by
  unfold State.countRewind; try dsimp -proj only
  repeat' (first | with_reducible assumption | intro _ | with_reducible apply State.foldl_ok | with_reducible apply State.foldl_pok | with_reducible apply State.count_ok | with_reducible apply State.ite_ok | with_reducible apply State.fst_of | split | with_reducible apply State.mk_pok)

theorem State.fetchEnds_ok {b₀ : State} (s : State) (e : Fetching) (st det : Nat) (rewind : Bool) (hs : s.Ok b₀) : (State.fetchEnds s e st det rewind).Ok b₀ := by
  unfold State.fetchEnds; try dsimp -proj only
  repeat' (first | with_reducible assumption | intro _ | with_reducible apply State.foldl_ok | with_reducible apply State.foldl_pok | with_reducible apply State.countRewind_ok | with_reducible apply State.fetchGone_ok | with_reducible apply State.releaseOut_ok | with_reducible apply State.pushReady_ok | with_reducible apply State.ite_ok | with_reducible apply State.fst_of | split | with_reducible apply State.mk_pok)

theorem State.fetchLost_ok {b₀ : State} (s : State) (e : Fetching) (header : Bool) (hs : s.Ok b₀) : (State.fetchLost s e header).Ok b₀ := by
  unfold State.fetchLost; try dsimp -proj only
  repeat' (first | with_reducible assumption | intro _ | with_reducible apply State.foldl_ok | with_reducible apply State.foldl_pok | with_reducible apply State.countRewind_ok | with_reducible apply State.fetchGone_ok | with_reducible apply State.releaseOut_ok | with_reducible apply State.ringReport_ok | with_reducible apply State.ringError_ok | with_reducible apply State.ite_ok | with_reducible apply State.fst_of | split | with_reducible apply State.mk_pok)

theorem State.iwFree_ok {b₀ : State} (s : State) (owner slab why : Nat) (hs : s.Ok b₀) : (State.iwFree s owner slab why).Ok b₀ := by
  unfold State.iwFree; try dsimp -proj only
  repeat' (first | with_reducible assumption | intro _ | with_reducible apply State.foldl_ok | with_reducible apply State.foldl_pok | with_reducible apply State.blot_ok | with_reducible apply State.ite_ok | with_reducible apply State.fst_of | split | with_reducible apply State.mk_pok)

theorem State.judge_ok {b₀ : State} (s : State) (e : Fetching) (hs : s.Ok b₀) : (State.judge s e).Ok b₀ := by
  unfold State.judge; try dsimp -proj only
  repeat' (first | with_reducible assumption | with_reducible exact fun h => h | with_reducible exact fun h => Tab.wf_setD h _ _ | with_reducible exact fun h => Tab.wf_filter h _ | with_reducible exact fun _ => Tab.wf_nil _ | with_reducible exact fun h => Tab.wf_mapCmds _ h | with_reducible exact fun h => Tab.wf_foldl_setD _ _ _ h | intro _ | with_reducible apply State.foldl_ok | with_reducible apply State.foldl_pok | with_reducible apply State.fetchEnds_ok | with_reducible apply State.modFetch_ok | with_reducible apply State.mawReject_ok | with_reducible apply State.iwFree_ok | with_reducible apply State.ite_ok | with_reducible apply State.fst_of | split | with_reducible apply State.mk_pok | with_reducible apply State.mk_ok)

theorem State.fetchBeat_ok {b₀ : State} (s : State) (ring : Nat) (ok : Bool) (data : Beat) (hs : s.Ok b₀) : (State.fetchBeat s ring ok data).Ok b₀ := by
  unfold State.fetchBeat; try dsimp -proj only
  repeat' (first | with_reducible assumption | with_reducible exact fun h => h | with_reducible exact fun h => Tab.wf_setD h _ _ | with_reducible exact fun h => Tab.wf_filter h _ | with_reducible exact fun _ => Tab.wf_nil _ | with_reducible exact fun h => Tab.wf_mapCmds _ h | with_reducible exact fun h => Tab.wf_foldl_setD _ _ _ h | intro _ | with_reducible apply State.foldl_ok | with_reducible apply State.foldl_pok | with_reducible apply State.fetchLost_ok | with_reducible apply State.fetchEnds_ok | with_reducible apply State.modFetch_ok | with_reducible apply State.modGlb_ok | with_reducible apply State.judge_ok | with_reducible apply State.fetchAsk_ok | with_reducible apply State.ite_ok | with_reducible apply State.fst_of | split | with_reducible apply State.mk_pok | with_reducible apply State.mk_ok)

theorem execRingFetch_runs {b₀ : State} (ring : Fin 32768) (cc : CcFault) (residue : Bool) (mawResidue : Option (Fin 5)) (s : State) (hs : s.Ok b₀) : Runs b₀ (execRingFetch ring cc residue mawResidue s) := by
  unfold execRingFetch; try dsimp -proj only
  repeat' (first | with_reducible assumption | with_reducible exact fun h => h | with_reducible exact fun h => Tab.wf_setD h _ _ | with_reducible exact fun h => Tab.wf_filter h _ | with_reducible exact fun _ => Tab.wf_nil _ | with_reducible exact fun h => Tab.wf_mapCmds _ h | with_reducible exact fun h => Tab.wf_foldl_setD _ _ _ h | intro _ | with_reducible apply State.foldl_ok | with_reducible apply State.foldl_pok | with_reducible apply runs_done | with_reducible apply State.backTo_ok | with_reducible apply runs_idle | with_reducible apply runs_ite | with_reducible apply runs_next | with_reducible apply State.ringLoad_ok | with_reducible apply looked_runs | with_reducible apply State.stick_ok | with_reducible apply State.ringError_ok | with_reducible apply State.ringStore_ok | with_reducible apply State.fetchAsk_ok | with_reducible apply State.ite_ok | with_reducible apply State.ite_pok | with_reducible apply State.fst_of | split | with_reducible apply State.mk_pok | with_reducible apply State.mk_ok)

theorem execOpFence_runs {b₀ : State} (ring : Fin 32768) (cc : CcFault) (s : State) (hs : s.Ok b₀) : Runs b₀ (execOpFence ring cc s) := by
  unfold execOpFence; try dsimp -proj only
  repeat' (first | with_reducible assumption | intro _ | with_reducible apply State.foldl_ok | with_reducible apply State.foldl_pok | with_reducible apply runs_done | with_reducible apply runs_idle | with_reducible apply runs_ite | with_reducible apply runs_next | with_reducible apply State.ringLoad_ok | with_reducible apply looked_runs | with_reducible apply State.fetchEnds_ok | with_reducible apply State.stick_ok | with_reducible apply State.ite_ok | with_reducible apply State.ite_pok | with_reducible apply State.fst_of | split | with_reducible apply State.mk_pok)

theorem State.modIntake_ok {b₀ : State} (s : State) (c : Nat) (urgent : Bool) (f : Intake → Intake) (hs : s.Ok b₀) : (State.modIntake s c urgent f).Ok b₀ := by
  unfold State.modIntake; try dsimp -proj only
  repeat' (first | with_reducible assumption | with_reducible exact fun h => h | with_reducible exact fun h => Tab.wf_setD h _ _ | with_reducible exact fun h => Tab.wf_filter h _ | with_reducible exact fun _ => Tab.wf_nil _ | with_reducible exact fun h => Tab.wf_mapCmds _ h | with_reducible exact fun h => Tab.wf_foldl_setD _ _ _ h | intro _ | with_reducible apply State.foldl_ok | with_reducible apply State.foldl_pok | with_reducible apply State.modCluster_ok | with_reducible apply State.ite_ok | with_reducible apply State.fst_of | split | with_reducible apply State.mk_pok | with_reducible apply State.mk_ok)

theorem State.intakeRewind_ok {b₀ : State} (s : State) (c : Nat) (urgent : Bool) (e : Fetching) (hs : s.Ok b₀) : (State.intakeRewind s c urgent e).Ok b₀ := by
  unfold State.intakeRewind; try dsimp -proj only
  repeat' (first | with_reducible assumption | with_reducible exact fun h => h | with_reducible exact fun h => Tab.wf_setD h _ _ | with_reducible exact fun h => Tab.wf_filter h _ | with_reducible exact fun _ => Tab.wf_nil _ | with_reducible exact fun h => Tab.wf_mapCmds _ h | with_reducible exact fun h => Tab.wf_foldl_setD _ _ _ h | intro _ | with_reducible apply State.foldl_ok | with_reducible apply State.foldl_pok | with_reducible apply State.modIntake_ok | with_reducible apply State.fetchEnds_ok | with_reducible apply State.ite_ok | with_reducible apply State.fst_of | split | with_reducible apply State.mk_pok | with_reducible apply State.mk_ok)

theorem State.intakeCommit_ok {b₀ : State} (s : State) (c : Nat) (urgent : Bool) (e : Fetching) (hs : s.Ok b₀) : (State.intakeCommit s c urgent e).Ok b₀ := by
  unfold State.intakeCommit; try dsimp -proj only
  repeat' (first | with_reducible assumption | with_reducible exact fun h => h | with_reducible exact fun h => Tab.wf_setD h _ _ | with_reducible exact fun h => Tab.wf_filter h _ | with_reducible exact fun _ => Tab.wf_nil _ | with_reducible exact fun h => Tab.wf_mapCmds _ h | with_reducible exact fun h => Tab.wf_foldl_setD _ _ _ h | intro _ | with_reducible apply State.foldl_ok | with_reducible apply State.foldl_pok | with_reducible apply State.modIntake_ok | with_reducible apply State.fetchGone_ok | with_reducible apply State.modFetch_ok | with_reducible apply State.ite_ok | with_reducible apply State.fst_of | split | with_reducible apply State.mk_pok | with_reducible apply State.mk_ok)

theorem State.intakeSkip_ok {b₀ : State} (s : State) (c : Nat) (e : Fetching) (hs : s.Ok b₀) : (State.intakeSkip s c e).Ok b₀ := by
  unfold State.intakeSkip; try dsimp -proj only
  repeat' (first | with_reducible assumption | with_reducible exact fun h => h | with_reducible exact fun h => Tab.wf_setD h _ _ | with_reducible exact fun h => Tab.wf_filter h _ | with_reducible exact fun _ => Tab.wf_nil _ | with_reducible exact fun h => Tab.wf_mapCmds _ h | with_reducible exact fun h => Tab.wf_foldl_setD _ _ _ h | intro _ | with_reducible apply State.foldl_ok | with_reducible apply State.foldl_pok | with_reducible apply State.count_ok | with_reducible apply State.fetchGone_ok | with_reducible apply State.modFetch_ok | with_reducible apply State.ite_ok | with_reducible apply State.fst_of | split | with_reducible apply State.mk_pok | with_reducible apply State.mk_ok)

theorem State.intakeCorr_ok {b₀ : State} (s : State) (c : Nat) (urgent : Bool) (i : Nat) (hs : s.Ok b₀) : (State.intakeCorr s c urgent i).Ok b₀ := by
  unfold State.intakeCorr; try dsimp -proj only
  repeat' (first | with_reducible assumption | intro _ | with_reducible apply State.foldl_ok | with_reducible apply State.foldl_pok | with_reducible apply State.count_ok | with_reducible apply State.corrected_ok | with_reducible apply State.ite_ok | with_reducible apply State.fst_of | split | with_reducible apply State.mk_pok)

theorem State.intakeUncorr_ok {b₀ : State} (s : State) (c : Nat) (urgent : Bool) (i : Nat) (hs : s.Ok b₀) : (State.intakeUncorr s c urgent i).Ok b₀ := by
  unfold State.intakeUncorr; try dsimp -proj only
  repeat' (first | with_reducible assumption | intro _ | with_reducible apply State.foldl_ok | with_reducible apply State.foldl_pok | with_reducible apply State.uncorrRow_ok | with_reducible apply State.ite_ok | with_reducible apply State.fst_of | split | with_reducible apply State.mk_pok)

theorem execIntakePush_runs {b₀ : State} (cl : Fin 16) (urgent : Bool) (ecc : Ecc) (s : State) (hs : s.Ok b₀) : Runs b₀ (execIntakePush cl urgent ecc s) := by
  unfold execIntakePush; try dsimp -proj only
  repeat' (first | with_reducible assumption | with_reducible exact fun h => h | with_reducible exact fun h => Tab.wf_setD h _ _ | with_reducible exact fun h => Tab.wf_filter h _ | with_reducible exact fun _ => Tab.wf_nil _ | with_reducible exact fun h => Tab.wf_mapCmds _ h | with_reducible exact fun h => Tab.wf_foldl_setD _ _ _ h | intro _ | with_reducible apply State.foldl_ok | with_reducible apply State.foldl_pok | with_reducible apply runs_done | with_reducible apply runs_idle | with_reducible apply runs_ite | with_reducible apply runs_next | with_reducible apply State.opportunity_ok | with_reducible apply looked_runs | with_reducible apply State.fetchEnds_ok | with_reducible apply State.fetchGone_ok | with_reducible apply State.intakeSkip_ok | with_reducible apply State.modIntake_ok | with_reducible apply State.corrected_ok | with_reducible apply State.intakeCorr_ok | with_reducible apply State.intakeUncorr_ok | with_reducible apply State.intakeRewind_ok | with_reducible apply State.intakeCommit_ok | with_reducible apply State.ite_ok | with_reducible apply State.ite_pok | with_reducible apply State.fst_of | split | with_reducible apply State.mk_pok | with_reducible apply State.mk_ok)

theorem State.flushPacket_ok {b₀ : State} (s : State) (c : Nat) (visible : Bool) (w : IntakeWord) (hs : s.Ok b₀) : (State.flushPacket s c visible w).Ok b₀ := by
  unfold State.flushPacket; try dsimp -proj only
  repeat' (first | with_reducible assumption | intro _ | with_reducible apply State.foldl_ok | with_reducible apply State.foldl_pok | with_reducible apply State.ringPut_ok | with_reducible apply State.endPacket_ok | with_reducible apply State.ite_ok | with_reducible apply State.fst_of | split | with_reducible apply State.mk_pok)

theorem State.flush_ok {b₀ : State} (s : State) (c : Nat) (urgent : Bool) (inst : Option Nat) (hs : s.Ok b₀) : (State.flush s c urgent inst).Ok b₀ := by
  unfold State.flush; try dsimp -proj only
  repeat' (first | with_reducible assumption | intro _ | with_reducible apply State.foldl_ok | with_reducible apply State.foldl_pok | with_reducible apply State.flushPacket_ok | with_reducible apply State.complete_ok | with_reducible apply State.modIntake_ok | with_reducible apply State.ite_ok | with_reducible apply State.fst_of | split | with_reducible apply State.mk_pok)

theorem State.flushNamed_ok {b₀ : State} (s : State) (c : Nat) (w : Word) (hs : s.Ok b₀) : (State.flushNamed s c w).Ok b₀ := by
  unfold State.flushNamed; try dsimp -proj only
  repeat' (first | with_reducible assumption | intro _ | with_reducible apply State.foldl_ok | with_reducible apply State.foldl_pok | with_reducible apply State.flush_ok | with_reducible apply State.ite_ok | with_reducible apply State.fst_of | split | with_reducible apply State.mk_pok)

theorem execIntakeFlushBulk_runs {b₀ : State} (cl : Fin 16) (a : RpAcc) (s : State) (hs : s.Ok b₀) : Runs b₀ (execIntakeFlushBulk cl a s) := by
  unfold execIntakeFlushBulk; try dsimp -proj only
  repeat' (first | with_reducible assumption | intro _ | with_reducible apply State.foldl_ok | with_reducible apply State.foldl_pok | with_reducible apply runs_done | with_reducible apply runs_idle | with_reducible apply runs_ite | with_reducible apply runs_next | with_reducible apply State.portWrite_ok | with_reducible apply State.flushNamed_ok | with_reducible apply State.ite_ok | with_reducible apply State.ite_pok | with_reducible apply State.fst_of | split | with_reducible apply State.mk_pok)

theorem execIntakeFlushUrgent_runs {b₀ : State} (cl : Fin 16) (a : RpAcc) (s : State) (hs : s.Ok b₀) : Runs b₀ (execIntakeFlushUrgent cl a s) := by
  unfold execIntakeFlushUrgent; try dsimp -proj only
  repeat' (first | with_reducible assumption | intro _ | with_reducible apply State.foldl_ok | with_reducible apply State.foldl_pok | with_reducible apply runs_done | with_reducible apply runs_idle | with_reducible apply runs_ite | with_reducible apply runs_next | with_reducible apply State.portWrite_ok | with_reducible apply State.flushNamed_ok | with_reducible apply State.ite_ok | with_reducible apply State.ite_pok | with_reducible apply State.fst_of | split | with_reducible apply State.mk_pok)

end Sys2Proof.Machine
end

