-- ==== Sys2Proof/Laws/OkPop.lean ====
section
/-! SUPPORT. The operations of Machine/Pop.lean keep the canonical form of the tables and leave the build, the queue,
the pins, the fuses, the test port and the time alone. -/
namespace Sys2Proof.Machine
open Sys2Proof
set_option linter.unusedTactic false
set_option linter.unreachableTactic false
set_option linter.unusedVariables false

theorem State.takeHandle_ok {b₀ : State} (s : State) (c h : Nat) (x : Cmd) (hs : s.Ok b₀) : (State.takeHandle s c h x).Ok b₀ := by
  unfold State.takeHandle; try dsimp -proj only
  repeat' (first | with_reducible assumption | with_reducible exact fun h => h | with_reducible exact fun h => Tab.wf_setD h _ _ | with_reducible exact fun h => Tab.wf_filter h _ | with_reducible exact fun _ => Tab.wf_nil _ | with_reducible exact fun h => Tab.wf_mapCmds _ h | with_reducible exact fun h => Tab.wf_foldl_setD _ _ _ h | intro _ | with_reducible apply State.foldl_ok | with_reducible apply State.foldl_pok | with_reducible apply State.setCmd_ok | with_reducible apply State.ite_ok | with_reducible apply State.fst_of | split | with_reducible apply State.mk_pok | with_reducible apply State.mk_ok)

theorem State.leaseRefuse_ok {b₀ : State} (s : State) (p : Packet) (owner why : Nat) (hs : s.Ok b₀) : (State.leaseRefuse s p owner why).Ok b₀ := by
  unfold State.leaseRefuse; try dsimp -proj only
  repeat' (first | with_reducible assumption | intro _ | with_reducible apply State.foldl_ok | with_reducible apply State.foldl_pok | with_reducible apply State.iwFree_ok | with_reducible apply State.countField_ok | with_reducible apply State.raise_ok | with_reducible apply State.ite_ok | with_reducible apply State.fst_of | split | with_reducible apply State.mk_pok)

theorem State.leaseTake_ok {b₀ : State} (s : State) (c h : Nat) (w : IntakeWord) (p : Packet) (hs : s.Ok b₀) : (State.leaseTake s c h w p).Ok b₀ := by
  unfold State.leaseTake; try dsimp -proj only
  repeat' (first | with_reducible assumption | with_reducible exact fun h => h | with_reducible exact fun h => Tab.wf_setD h _ _ | with_reducible exact fun h => Tab.wf_filter h _ | with_reducible exact fun _ => Tab.wf_nil _ | with_reducible exact fun h => Tab.wf_mapCmds _ h | with_reducible exact fun h => Tab.wf_foldl_setD _ _ _ h | intro _ | with_reducible apply State.foldl_ok | with_reducible apply State.foldl_pok | with_reducible apply State.modSlab_ok | with_reducible apply State.takeHandle_ok | with_reducible apply State.toMover_ok | with_reducible apply State.releaseSlabs_ok | with_reducible apply State.ite_ok | with_reducible apply State.fst_of | split | with_reducible apply State.mk_pok | with_reducible apply State.mk_ok)

theorem State.enterPending_ok {b₀ : State} (s : State) (c h : Nat) (x : Cmd) (hs : s.Ok b₀) : (State.enterPending s c h x).Ok b₀ := by
  unfold State.enterPending; try dsimp -proj only
  repeat' (first | with_reducible assumption | intro _ | with_reducible apply State.foldl_ok | with_reducible apply State.foldl_pok | with_reducible apply State.takeHandle_ok | with_reducible apply State.modRefs_ok | with_reducible apply State.tableSync_ok | with_reducible apply State.finish_ok | with_reducible apply State.allocOne_ok | with_reducible apply State.ite_ok | with_reducible apply State.fst_of | split | with_reducible apply State.mk_pok)

theorem State.refusePacket_ok {b₀ : State} (s : State) (c h : Nat) (w : IntakeWord) (p : Packet) (det : Nat) (hs : s.Ok b₀) : (State.refusePacket s c h w p det).Ok b₀ := by
  unfold State.refusePacket; try dsimp -proj only
  repeat' (first | with_reducible assumption | intro _ | with_reducible apply State.foldl_ok | with_reducible apply State.foldl_pok | with_reducible apply State.takeHandle_ok | with_reducible apply State.finish_ok | with_reducible apply State.ite_ok | with_reducible apply State.fst_of | split | with_reducible apply State.mk_pok)

theorem State.dispatchPacket_ok {b₀ : State} (s : State) (c h : Nat) (w : IntakeWord) (ws : List (BitVec 512)) (hs : s.Ok b₀) : (State.dispatchPacket s c h w ws).Ok b₀ := by
  unfold State.dispatchPacket; try dsimp -proj only
  repeat' (first | with_reducible assumption | with_reducible exact fun h => h | with_reducible exact fun h => Tab.wf_setD h _ _ | with_reducible exact fun h => Tab.wf_filter h _ | with_reducible exact fun _ => Tab.wf_nil _ | with_reducible exact fun h => Tab.wf_mapCmds _ h | with_reducible exact fun h => Tab.wf_foldl_setD _ _ _ h | intro _ | with_reducible apply State.foldl_ok | with_reducible apply State.foldl_pok | with_reducible apply State.refusePacket_ok | with_reducible apply State.leaseRefuse_ok | with_reducible apply State.leaseTake_ok | with_reducible apply State.mawReject_ok | with_reducible apply State.enterPending_ok | with_reducible apply State.ite_ok | with_reducible apply State.fst_of | split | with_reducible apply State.mk_pok | with_reducible apply State.mk_ok)

theorem execIntakePop_runs {b₀ : State} (cl : Fin 16) (ecc : Ecc) (s : State) (hs : s.Ok b₀) : Runs b₀ (execIntakePop cl ecc s) := by
  unfold execIntakePop; try dsimp -proj only
  repeat' (first | with_reducible assumption | with_reducible exact fun h => h | with_reducible exact fun h => Tab.wf_setD h _ _ | with_reducible exact fun h => Tab.wf_filter h _ | with_reducible exact fun _ => Tab.wf_nil _ | with_reducible exact fun h => Tab.wf_mapCmds _ h | with_reducible exact fun h => Tab.wf_foldl_setD _ _ _ h | intro _ | with_reducible apply State.foldl_ok | with_reducible apply State.foldl_pok | with_reducible apply runs_done | with_reducible apply runs_idle | with_reducible apply runs_ite | with_reducible apply runs_next | with_reducible apply State.modIntake_ok | with_reducible apply State.corrected_ok | with_reducible apply State.intakeCorr_ok | with_reducible apply looked_runs | with_reducible apply State.intakeUncorr_ok | with_reducible apply State.refusePacket_ok | with_reducible apply State.dispatchPacket_ok | with_reducible apply State.ite_ok | with_reducible apply State.ite_pok | with_reducible apply State.fst_of | split | with_reducible apply State.mk_pok | with_reducible apply State.mk_ok)

end Sys2Proof.Machine
end

