-- ==== Sys2Proof/Laws/OkCommands.lean ====
section
/-! SUPPORT. The operations of Machine/Commands.lean keep the canonical form of the tables and leave the build, the queue,
the pins, the fuses, the test port and the time alone. -/
namespace Sys2Proof.Machine
open Sys2Proof
set_option linter.unusedTactic false
set_option linter.unreachableTactic false
set_option linter.unusedVariables false

theorem State.complete_ok {b₀ : State} (s : State) (c h st det : Nat) (hs : s.Ok b₀) : (State.complete s c h st det).Ok b₀ := by
  unfold State.complete; try dsimp -proj only
  repeat' (first | with_reducible assumption | intro _ | with_reducible apply State.foldl_ok | with_reducible apply State.foldl_pok | with_reducible apply State.finish_ok | with_reducible apply State.ite_ok | with_reducible apply State.fst_of | split | with_reducible apply State.mk_pok)

theorem State.discardEnd_ok {b₀ : State} (s : State) (c h : Nat) (x : Cmd) (hs : s.Ok b₀) : (State.discardEnd s c h x).Ok b₀ := by
  unfold State.discardEnd; try dsimp -proj only
  repeat' (first | with_reducible assumption | intro _ | with_reducible apply State.foldl_ok | with_reducible apply State.foldl_pok | with_reducible apply State.abort_ok | with_reducible apply State.ite_ok | with_reducible apply State.fst_of | split | with_reducible apply State.mk_pok)

theorem State.opEnd_runs {b₀ : State} (s : State) (cl : Fin 16) (hd : Fin 2048) (op : Nat) (f : Cmd → State) (hs : s.Ok b₀) (hf : ∀ x, (f x).Ok b₀) : Runs b₀ (State.opEnd s cl hd op f) := by
  unfold State.opEnd; try dsimp -proj only
  repeat' (first | with_reducible assumption | intro _ | with_reducible apply State.foldl_ok | with_reducible apply State.foldl_pok | with_reducible apply runs_done | with_reducible apply runs_idle | with_reducible apply runs_ite | with_reducible apply runs_next | with_reducible apply looked_runs | with_reducible apply State.discard_ok | with_reducible apply State.discardEnd_ok | with_reducible apply hf | with_reducible apply State.ite_ok | with_reducible apply State.ite_pok | with_reducible apply State.fst_of | split | with_reducible apply State.mk_pok)

theorem State.readEnd_ok {b₀ : State} (s : State) (c h : Nat) (x : Cmd) (still : Bool) (hs : s.Ok b₀) : (State.readEnd s c h x still).Ok b₀ := by
  unfold State.readEnd; try dsimp -proj only
  repeat' (first | with_reducible assumption | intro _ | with_reducible apply State.foldl_ok | with_reducible apply State.foldl_pok | with_reducible apply State.complete_ok | with_reducible apply State.ite_ok | with_reducible apply State.fst_of | split | with_reducible apply State.mk_pok)

theorem execOpRead_runs {b₀ : State} (cl : Fin 16) (h : Fin 2048) (s : State) (hs : s.Ok b₀) : Runs b₀ (execOpRead cl h s) := by
  unfold execOpRead; try dsimp -proj only
  repeat' (first | with_reducible assumption | intro _ | with_reducible apply State.foldl_ok | with_reducible apply State.foldl_pok | with_reducible apply runs_done | with_reducible apply runs_idle | with_reducible apply runs_ite | with_reducible apply runs_next | with_reducible apply State.opEnd_runs | with_reducible apply State.readEnd_ok | with_reducible apply State.ite_ok | with_reducible apply State.ite_pok | with_reducible apply State.fst_of | split | with_reducible apply State.mk_pok)

theorem execOpRawRead_runs {b₀ : State} (cl : Fin 16) (h : Fin 2048) (s : State) (hs : s.Ok b₀) : Runs b₀ (execOpRawRead cl h s) := by
  unfold execOpRawRead; try dsimp -proj only
  repeat' (first | with_reducible assumption | intro _ | with_reducible apply State.foldl_ok | with_reducible apply State.foldl_pok | with_reducible apply runs_done | with_reducible apply runs_idle | with_reducible apply runs_ite | with_reducible apply runs_next | with_reducible apply State.opEnd_runs | with_reducible apply State.readEnd_ok | with_reducible apply State.ite_ok | with_reducible apply State.ite_pok | with_reducible apply State.fst_of | split | with_reducible apply State.mk_pok)

theorem execOpPatrolSample_runs {b₀ : State} (cl : Fin 16) (h : Fin 2048) (s : State) (hs : s.Ok b₀) : Runs b₀ (execOpPatrolSample cl h s) := by
  unfold execOpPatrolSample; try dsimp -proj only
  repeat' (first | with_reducible assumption | intro _ | with_reducible apply State.foldl_ok | with_reducible apply State.foldl_pok | with_reducible apply runs_done | with_reducible apply runs_idle | with_reducible apply runs_ite | with_reducible apply runs_next | with_reducible apply State.opEnd_runs | with_reducible apply State.finish_ok | with_reducible apply State.ite_ok | with_reducible apply State.ite_pok | with_reducible apply State.fst_of | split | with_reducible apply State.mk_pok)

theorem execOpFetch_runs {b₀ : State} (cl : Fin 16) (h : Fin 2048) (s : State) (hs : s.Ok b₀) : Runs b₀ (execOpFetch cl h s) := by
  unfold execOpFetch; try dsimp -proj only
  repeat' (first | with_reducible assumption | intro _ | with_reducible apply State.foldl_ok | with_reducible apply State.foldl_pok | with_reducible apply runs_done | with_reducible apply runs_idle | with_reducible apply runs_ite | with_reducible apply runs_next | with_reducible apply State.opEnd_runs | with_reducible apply State.complete_ok | with_reducible apply State.ite_ok | with_reducible apply State.ite_pok | with_reducible apply State.fst_of | split | with_reducible apply State.mk_pok)

theorem execOpRelease_runs {b₀ : State} (cl : Fin 16) (h : Fin 2048) (s : State) (hs : s.Ok b₀) : Runs b₀ (execOpRelease cl h s) := by
  unfold execOpRelease; try dsimp -proj only
  repeat' (first | with_reducible assumption | intro _ | with_reducible apply State.foldl_ok | with_reducible apply State.foldl_pok | with_reducible apply runs_done | with_reducible apply runs_idle | with_reducible apply runs_ite | with_reducible apply runs_next | with_reducible apply State.opEnd_runs | with_reducible apply State.finish_ok | with_reducible apply State.ite_ok | with_reducible apply State.ite_pok | with_reducible apply State.fst_of | split | with_reducible apply State.mk_pok)

theorem execOpIdentify_runs {b₀ : State} (cl : Fin 16) (h : Fin 2048) (s : State) (hs : s.Ok b₀) : Runs b₀ (execOpIdentify cl h s) := by
  unfold execOpIdentify; try dsimp -proj only
  repeat' (first | with_reducible assumption | with_reducible exact fun h => h | with_reducible exact fun h => Tab.wf_setD h _ _ | with_reducible exact fun h => Tab.wf_filter h _ | with_reducible exact fun _ => Tab.wf_nil _ | with_reducible exact fun h => Tab.wf_mapCmds _ h | with_reducible exact fun h => Tab.wf_foldl_setD _ _ _ h | intro _ | with_reducible apply State.foldl_ok | with_reducible apply State.foldl_pok | with_reducible apply runs_done | with_reducible apply runs_idle | with_reducible apply runs_ite | with_reducible apply runs_next | with_reducible apply State.opEnd_runs | with_reducible apply State.complete_ok | with_reducible apply State.finish_ok | with_reducible apply State.modCmd_ok | with_reducible apply State.toMover_ok | with_reducible apply State.ite_ok | with_reducible apply State.ite_pok | with_reducible apply State.fst_of | split | with_reducible apply State.mk_pok | with_reducible apply State.mk_ok)

theorem State.plainEnd_ok {b₀ : State} (s : State) (c h : Nat) (x : Cmd) (hs : s.Ok b₀) : (State.plainEnd s c h x).Ok b₀ := by
  unfold State.plainEnd; try dsimp -proj only
  repeat' (first | with_reducible assumption | intro _ | with_reducible apply State.foldl_ok | with_reducible apply State.foldl_pok | with_reducible apply State.finish_ok | with_reducible apply State.ite_ok | with_reducible apply State.fst_of | split | with_reducible apply State.mk_pok)

theorem execOpGetFeature_runs {b₀ : State} (cl : Fin 16) (h : Fin 2048) (s : State) (hs : s.Ok b₀) : Runs b₀ (execOpGetFeature cl h s) := by
  unfold execOpGetFeature; try dsimp -proj only
  repeat' (first | with_reducible assumption | intro _ | with_reducible apply State.foldl_ok | with_reducible apply State.foldl_pok | with_reducible apply runs_done | with_reducible apply runs_idle | with_reducible apply runs_ite | with_reducible apply runs_next | with_reducible apply State.opEnd_runs | with_reducible apply State.plainEnd_ok | with_reducible apply State.ite_ok | with_reducible apply State.ite_pok | with_reducible apply State.fst_of | split | with_reducible apply State.mk_pok)

theorem execOpSetFeature_runs {b₀ : State} (cl : Fin 16) (h : Fin 2048) (s : State) (hs : s.Ok b₀) : Runs b₀ (execOpSetFeature cl h s) := by
  unfold execOpSetFeature; try dsimp -proj only
  repeat' (first | with_reducible assumption | intro _ | with_reducible apply State.foldl_ok | with_reducible apply State.foldl_pok | with_reducible apply runs_done | with_reducible apply runs_idle | with_reducible apply runs_ite | with_reducible apply runs_next | with_reducible apply State.opEnd_runs | with_reducible apply State.plainEnd_ok | with_reducible apply State.ite_ok | with_reducible apply State.ite_pok | with_reducible apply State.fst_of | split | with_reducible apply State.mk_pok)

theorem execOpResetDie_runs {b₀ : State} (cl : Fin 16) (h : Fin 2048) (s : State) (hs : s.Ok b₀) : Runs b₀ (execOpResetDie cl h s) := by
  unfold execOpResetDie; try dsimp -proj only
  repeat' (first | with_reducible assumption | intro _ | with_reducible apply State.foldl_ok | with_reducible apply State.foldl_pok | with_reducible apply runs_done | with_reducible apply runs_idle | with_reducible apply runs_ite | with_reducible apply runs_next | with_reducible apply State.opEnd_runs | with_reducible apply State.plainEnd_ok | with_reducible apply State.ite_ok | with_reducible apply State.ite_pok | with_reducible apply State.fst_of | split | with_reducible apply State.mk_pok)

theorem execOpBlankCheck_runs {b₀ : State} (cl : Fin 16) (h : Fin 2048) (s : State) (hs : s.Ok b₀) : Runs b₀ (execOpBlankCheck cl h s) := by
  unfold execOpBlankCheck; try dsimp -proj only
  repeat' (first | with_reducible assumption | with_reducible exact fun h => h | with_reducible exact fun h => Tab.wf_setD h _ _ | with_reducible exact fun h => Tab.wf_filter h _ | with_reducible exact fun _ => Tab.wf_nil _ | with_reducible exact fun h => Tab.wf_mapCmds _ h | with_reducible exact fun h => Tab.wf_foldl_setD _ _ _ h | intro _ | with_reducible apply State.foldl_ok | with_reducible apply State.foldl_pok | with_reducible apply runs_done | with_reducible apply runs_idle | with_reducible apply runs_ite | with_reducible apply runs_next | with_reducible apply State.opEnd_runs | with_reducible apply State.finish_ok | with_reducible apply State.count_ok | with_reducible apply State.modCmd_ok | with_reducible apply State.ite_ok | with_reducible apply State.ite_pok | with_reducible apply State.fst_of | split | with_reducible apply State.mk_pok | with_reducible apply State.mk_ok)

theorem State.verifyPlanes_ok {b₀ : State} (s : State) (c : Nat) (x : Cmd) (cc : CcFault) (hs : s.Ok b₀) : State.POk b₀ (State.verifyPlanes s c x cc) := by
  unfold State.verifyPlanes; try dsimp -proj only
  repeat' (first | with_reducible assumption | intro _ | with_reducible apply State.foldl_ok | with_reducible apply State.foldl_pok | with_reducible apply State.frSlots_ok | with_reducible apply State.ite_ok | with_reducible apply State.ite_pok | with_reducible apply State.fst_of | split | with_reducible apply State.mk_pok)

theorem State.verified_ok {b₀ : State} (s : State) (c : Nat) (m : BitVec 64) (cc : CcFault) (hs : s.Ok b₀) : State.POk b₀ (State.verified s c m cc) := by
  unfold State.verified; try dsimp -proj only
  repeat' (first | with_reducible assumption | with_reducible exact fun h => h | with_reducible exact fun h => Tab.wf_setD h _ _ | with_reducible exact fun h => Tab.wf_filter h _ | with_reducible exact fun _ => Tab.wf_nil _ | with_reducible exact fun h => Tab.wf_mapCmds _ h | with_reducible exact fun h => Tab.wf_foldl_setD _ _ _ h | intro _ | with_reducible apply State.foldl_ok | with_reducible apply State.foldl_pok | with_reducible apply State.frSlots_ok | with_reducible apply State.frPut_ok | with_reducible apply State.ite_ok | with_reducible apply State.ite_pok | with_reducible apply State.fst_of | split | with_reducible apply State.mk_pok | with_reducible apply State.mk_ok)

theorem State.verifyFail_ok {b₀ : State} (s : State) (c h : Nat) (x : Cmd) (store : Bool) (cc : CcFault) (hs : s.Ok b₀) : (State.verifyFail s c h x store cc).Ok b₀ := by
  unfold State.verifyFail; try dsimp -proj only
  repeat' (first | with_reducible assumption | intro _ | with_reducible apply State.foldl_ok | with_reducible apply State.foldl_pok | with_reducible apply State.unverify_ok | with_reducible apply State.frStore_ok | with_reducible apply State.count_ok | with_reducible apply State.finish_ok | with_reducible apply State.ite_ok | with_reducible apply State.fst_of | split | with_reducible apply State.mk_pok)

theorem State.verifyEnd_ok {b₀ : State} (s : State) (c h : Nat) (x : Cmd) (cc : CcFault) (hs : s.Ok b₀) : (State.verifyEnd s c h x cc).Ok b₀ := by
  unfold State.verifyEnd; try dsimp -proj only
  repeat' (first | with_reducible assumption | with_reducible exact fun h => h | with_reducible exact fun h => Tab.wf_setD h _ _ | with_reducible exact fun h => Tab.wf_filter h _ | with_reducible exact fun _ => Tab.wf_nil _ | with_reducible exact fun h => Tab.wf_mapCmds _ h | with_reducible exact fun h => Tab.wf_foldl_setD _ _ _ h | intro _ | with_reducible apply State.foldl_ok | with_reducible apply State.foldl_pok | with_reducible apply State.verifyPlanes_ok | with_reducible apply State.verifyFail_ok | with_reducible apply State.verified_ok | with_reducible apply State.modCmd_ok | with_reducible apply State.tableSync_ok | with_reducible apply State.ite_ok | with_reducible apply State.fst_of | split | with_reducible apply State.mk_pok | with_reducible apply State.mk_ok)

theorem State.unclaim_ok {b₀ : State} (s : State) (c h : Nat) (x : Cmd) (st : Nat) (hs : s.Ok b₀) : (State.unclaim s c h x st).Ok b₀ := by
  unfold State.unclaim; try dsimp -proj only
  repeat' (first | with_reducible assumption | intro _ | with_reducible apply State.foldl_ok | with_reducible apply State.foldl_pok | with_reducible apply State.resultApplied_ok | with_reducible apply State.finish_ok | with_reducible apply State.cancelClaims_ok | with_reducible apply State.ite_ok | with_reducible apply State.fst_of | split | with_reducible apply State.mk_pok)

theorem State.writeEnd_ok {b₀ : State} (s : State) (c h : Nat) (x : Cmd) (hs : s.Ok b₀) : (State.writeEnd s c h x).Ok b₀ := by
  unfold State.writeEnd; try dsimp -proj only
  repeat' (first | with_reducible assumption | intro _ | with_reducible apply State.foldl_ok | with_reducible apply State.foldl_pok | with_reducible apply State.result_ok | with_reducible apply State.finish_ok | with_reducible apply State.unclaim_ok | with_reducible apply State.ite_ok | with_reducible apply State.fst_of | split | with_reducible apply State.mk_pok)

theorem execOpProgram_runs {b₀ : State} (cl : Fin 16) (h : Fin 2048) (s : State) (cc : CcFault := .clean) (hs : s.Ok b₀) : Runs b₀ (execOpProgram cl h s cc) := by
  unfold execOpProgram; try dsimp -proj only
  repeat' (first | with_reducible assumption | intro _ | with_reducible apply State.foldl_ok | with_reducible apply State.foldl_pok | with_reducible apply runs_done | with_reducible apply runs_idle | with_reducible apply runs_ite | with_reducible apply runs_next | with_reducible apply State.opEnd_runs | with_reducible apply State.complete_ok | with_reducible apply State.abort_ok | with_reducible apply State.verifyEnd_ok | with_reducible apply State.writeEnd_ok | with_reducible apply State.ite_ok | with_reducible apply State.ite_pok | with_reducible apply State.fst_of | split | with_reducible apply State.mk_pok)

theorem execOpErase_runs {b₀ : State} (cl : Fin 16) (h : Fin 2048) (s : State) (hs : s.Ok b₀) : Runs b₀ (execOpErase cl h s) := by
  unfold execOpErase; try dsimp -proj only
  repeat' (first | with_reducible assumption | intro _ | with_reducible apply State.foldl_ok | with_reducible apply State.foldl_pok | with_reducible apply runs_done | with_reducible apply runs_idle | with_reducible apply runs_ite | with_reducible apply runs_next | with_reducible apply State.opEnd_runs | with_reducible apply State.writeEnd_ok | with_reducible apply State.ite_ok | with_reducible apply State.ite_pok | with_reducible apply State.fst_of | split | with_reducible apply State.mk_pok)

theorem State.toDestination_ok {b₀ : State} (s : State) (c h : Nat) (x : Cmd) (hs : s.Ok b₀) : (State.toDestination s c h x).Ok b₀ := by
  unfold State.toDestination; try dsimp -proj only
  repeat' (first | with_reducible assumption | with_reducible exact fun h => h | with_reducible exact fun h => Tab.wf_setD h _ _ | with_reducible exact fun h => Tab.wf_filter h _ | with_reducible exact fun _ => Tab.wf_nil _ | with_reducible exact fun h => Tab.wf_mapCmds _ h | with_reducible exact fun h => Tab.wf_foldl_setD _ _ _ h | intro _ | with_reducible apply State.foldl_ok | with_reducible apply State.foldl_pok | with_reducible apply State.setCmd_ok | with_reducible apply State.modCluster_ok | with_reducible apply State.tableSync_ok | with_reducible apply State.ite_ok | with_reducible apply State.fst_of | split | with_reducible apply State.mk_pok | with_reducible apply State.mk_ok)

theorem execOpCopy_runs {b₀ : State} (cl : Fin 16) (h : Fin 2048) (s : State) (hs : s.Ok b₀) : Runs b₀ (execOpCopy cl h s) := by
  unfold execOpCopy; try dsimp -proj only
  repeat' (first | with_reducible assumption | intro _ | with_reducible apply State.foldl_ok | with_reducible apply State.foldl_pok | with_reducible apply runs_done | with_reducible apply runs_idle | with_reducible apply runs_ite | with_reducible apply runs_next | with_reducible apply State.opEnd_runs | with_reducible apply State.writeEnd_ok | with_reducible apply State.finish_ok | with_reducible apply State.toDestination_ok | with_reducible apply State.ite_ok | with_reducible apply State.ite_pok | with_reducible apply State.fst_of | split | with_reducible apply State.mk_pok)

end Sys2Proof.Machine
end

