-- ==== Sys2Proof/Laws/OkHostPort.lean ====
section
/-! SUPPORT. The operations of Machine/HostPort.lean keep the canonical form of the tables and leave the build, the queue,
the pins, the fuses, the test port and the time alone. -/
namespace Sys2Proof.Machine
open Sys2Proof
set_option linter.unusedTactic false
set_option linter.unreachableTactic false
set_option linter.unusedVariables false

theorem State.issuerCheck_ok {b₀ : State} (s : State) (i : Issuer) (hs : s.Ok b₀) : (State.issuerCheck s i).Ok b₀ := by
  unfold State.issuerCheck; try dsimp -proj only
  repeat' (first | with_reducible assumption | intro _ | with_reducible apply State.foldl_ok | with_reducible apply State.foldl_pok | with_reducible apply State.poolCheck_ok | with_reducible apply State.chanCheck_ok | with_reducible apply State.ite_ok | with_reducible apply State.fst_of | split | with_reducible apply State.mk_pok)

theorem execHpRequestAccept_runs {b₀ : State} (port : Fin 4) (s : State) (hs : s.Ok b₀) : Runs b₀ (execHpRequestAccept port s) := by
  unfold execHpRequestAccept; try dsimp -proj only
  repeat' (first | with_reducible assumption | intro _ | with_reducible apply State.foldl_ok | with_reducible apply State.foldl_pok | with_reducible apply runs_done | with_reducible apply runs_idle | with_reducible apply runs_ite | with_reducible apply runs_next | with_reducible apply State.modPort_ok | with_reducible apply State.issuerCheck_ok | with_reducible apply State.ite_ok | with_reducible apply State.ite_pok | with_reducible apply State.fst_of | split | with_reducible apply State.mk_pok)

theorem execHpWriteBeat_runs {b₀ : State} (port : Fin 4) (s : State) (hs : s.Ok b₀) : Runs b₀ (execHpWriteBeat port s) := by
  unfold execHpWriteBeat; try dsimp -proj only
  repeat' (first | with_reducible assumption | with_reducible exact fun h => h | with_reducible exact fun h => Tab.wf_setD h _ _ | with_reducible exact fun h => Tab.wf_filter h _ | with_reducible exact fun _ => Tab.wf_nil _ | with_reducible exact fun h => Tab.wf_mapCmds _ h | with_reducible exact fun h => Tab.wf_foldl_setD _ _ _ h | intro _ | with_reducible apply State.foldl_ok | with_reducible apply State.foldl_pok | with_reducible apply runs_done | with_reducible apply runs_idle | with_reducible apply runs_ite | with_reducible apply runs_next | with_reducible apply State.rest_ok | with_reducible apply State.modPort_ok | with_reducible apply State.issuerCheck_ok | with_reducible apply State.ite_ok | with_reducible apply State.ite_pok | with_reducible apply State.fst_of | split | with_reducible apply State.mk_pok | with_reducible apply State.mk_ok)

theorem State.hpProtocol_ok {b₀ : State} (s : State) (p t kind : Nat) (hs : s.Ok b₀) : (State.hpProtocol s p t kind).Ok b₀ := by
  unfold State.hpProtocol; try dsimp -proj only
  repeat' (first | with_reducible assumption | intro _ | with_reducible apply State.foldl_ok | with_reducible apply State.foldl_pok | with_reducible apply State.blot_ok | with_reducible apply State.pulse_ok | with_reducible apply State.ite_ok | with_reducible apply State.fst_of | split | with_reducible apply State.mk_pok)

theorem State.readAnswer_ok {b₀ : State} (s : State) (r : HpReq) (i resp : Nat) (late : Bool) (data : Beat) (hs : s.Ok b₀) : (State.readAnswer s r i resp late data).Ok b₀ := by
  unfold State.readAnswer; try dsimp -proj only
  repeat' (first | with_reducible assumption | with_reducible exact fun h => h | with_reducible exact fun h => Tab.wf_setD h _ _ | with_reducible exact fun h => Tab.wf_filter h _ | with_reducible exact fun _ => Tab.wf_nil _ | with_reducible exact fun h => Tab.wf_mapCmds _ h | with_reducible exact fun h => Tab.wf_foldl_setD _ _ _ h | intro _ | with_reducible apply State.foldl_ok | with_reducible apply State.foldl_pok | with_reducible apply State.discard_ok | with_reducible apply State.pullBeat_ok | with_reducible apply State.dataFail_ok | with_reducible apply State.poolCheck_ok | with_reducible apply State.chanBeat_ok | with_reducible apply State.chanHalt_ok | with_reducible apply State.descBeat_ok | with_reducible apply State.fetchBeat_ok | with_reducible apply State.setMiss_ok | with_reducible apply State.ite_ok | with_reducible apply State.fst_of | split | with_reducible apply State.mk_pok | with_reducible apply State.mk_ok)

theorem State.lateWrite_ok {b₀ : State} (s : State) (p : Posted) (hs : s.Ok b₀) : (State.lateWrite s p).Ok b₀ := by
  unfold State.lateWrite; try dsimp -proj only
  repeat' (first | with_reducible assumption | intro _ | with_reducible apply State.foldl_ok | with_reducible apply State.foldl_pok | with_reducible apply State.countField_ok | with_reducible apply State.blot_ok | with_reducible apply State.lateError_ok | with_reducible apply State.raise_ok | with_reducible apply State.ite_ok | with_reducible apply State.fst_of | split | with_reducible apply State.mk_pok)

theorem State.dataStatus_ok {b₀ : State} (s : State) (ch h c ser resp : Nat) (late : Bool) (hs : s.Ok b₀) : (State.dataStatus s ch h c ser resp late).Ok b₀ := by
  unfold State.dataStatus; try dsimp -proj only
  repeat' (first | with_reducible assumption | with_reducible exact fun h => h | with_reducible exact fun h => Tab.wf_setD h _ _ | with_reducible exact fun h => Tab.wf_filter h _ | with_reducible exact fun _ => Tab.wf_nil _ | with_reducible exact fun h => Tab.wf_mapCmds _ h | with_reducible exact fun h => Tab.wf_foldl_setD _ _ _ h | intro _ | with_reducible apply State.foldl_ok | with_reducible apply State.foldl_pok | with_reducible apply State.modCmd_ok | with_reducible apply State.dataFail_ok | with_reducible apply State.poolCheck_ok | with_reducible apply State.lateWrite_ok | with_reducible apply State.ite_ok | with_reducible apply State.fst_of | split | with_reducible apply State.mk_pok | with_reducible apply State.mk_ok)

theorem State.writeAnswer_ok {b₀ : State} (s : State) (p : Nat) (r : HpReq) (resp : Nat) (late : Bool) (hs : s.Ok b₀) : (State.writeAnswer s p r resp late).Ok b₀ := by
  unfold State.writeAnswer; try dsimp -proj only
  repeat' (first | with_reducible assumption | with_reducible exact fun h => h | with_reducible exact fun h => Tab.wf_setD h _ _ | with_reducible exact fun h => Tab.wf_filter h _ | with_reducible exact fun _ => Tab.wf_nil _ | with_reducible exact fun h => Tab.wf_mapCmds _ h | with_reducible exact fun h => Tab.wf_foldl_setD _ _ _ h | intro _ | with_reducible apply State.foldl_ok | with_reducible apply State.foldl_pok | with_reducible apply State.dataStatus_ok | with_reducible apply State.chanHalt_ok | with_reducible apply State.vecAnswered_ok | with_reducible apply State.cplError_ok | with_reducible apply State.countField_ok | with_reducible apply State.count_ok | with_reducible apply State.blot_ok | with_reducible apply State.raise_ok | with_reducible apply State.aroundStatus_ok | with_reducible apply State.modVictim_ok | with_reducible apply State.egEntryStatus_ok | with_reducible apply State.egHeaderStatus_ok | with_reducible apply State.ite_ok | with_reducible apply State.fst_of | split | with_reducible apply State.mk_pok | with_reducible apply State.mk_ok)

theorem execHpReadBeat_runs {b₀ : State} (port : Fin 4) (tag : Fin 512) (data : Beat) (par : BitVec 128) (resp : BitVec 2) (s : State) (hs : s.Ok b₀) : Runs b₀ (execHpReadBeat port tag data par resp s) := by
  unfold execHpReadBeat; try dsimp -proj only
  repeat' (first | with_reducible assumption | with_reducible exact fun h => h | with_reducible exact fun h => Tab.wf_setD h _ _ | with_reducible exact fun h => Tab.wf_filter h _ | with_reducible exact fun _ => Tab.wf_nil _ | with_reducible exact fun h => Tab.wf_mapCmds _ h | with_reducible exact fun h => Tab.wf_foldl_setD _ _ _ h | intro _ | with_reducible apply State.foldl_ok | with_reducible apply State.foldl_pok | with_reducible apply runs_done | with_reducible apply runs_idle | with_reducible apply runs_ite | with_reducible apply runs_next | with_reducible apply State.modPort_ok | with_reducible apply State.opportunity_ok | with_reducible apply State.blot_ok | with_reducible apply State.present_ok | with_reducible apply State.hpProtocol_ok | with_reducible apply State.lessOut_ok | with_reducible apply State.readAnswer_ok | with_reducible apply State.issuerCheck_ok | with_reducible apply State.ite_ok | with_reducible apply State.ite_pok | with_reducible apply State.fst_of | split | with_reducible apply State.mk_pok | with_reducible apply State.mk_ok)

end Sys2Proof.Machine
end

