-- ==== Sys2Proof/Laws/OkKeys.lean ====
section
/-! SUPPORT. The operations of Machine/Keys.lean keep the canonical form of the tables and leave the build, the queue,
the pins, the fuses, the test port and the time alone. -/
namespace Sys2Proof.Machine
open Sys2Proof
set_option linter.unusedTactic false
set_option linter.unreachableTactic false
set_option linter.unusedVariables false

theorem State.keyCmd_ok {b₀ : State} (s : State) (op : Nat) (a : RpAcc) (f : State → State) (hs : s.Ok b₀) (hf : ∀ t, t.Ok b₀ → (f t).Ok b₀) : (State.keyCmd s op a f).Ok b₀ := by
  unfold State.keyCmd; try dsimp -proj only
  repeat' (first | with_reducible assumption | intro _ | with_reducible apply State.foldl_ok | with_reducible apply State.foldl_pok | with_reducible apply State.portWrite_ok | with_reducible apply hf | with_reducible apply State.ite_ok | with_reducible apply State.fst_of | split | with_reducible apply State.mk_pok)

theorem State.loadBegin_ok {b₀ : State} (s : State) (hs : s.Ok b₀) : (State.loadBegin s).Ok b₀ := by
  unfold State.loadBegin; try dsimp -proj only
  repeat' (first | with_reducible assumption | with_reducible exact fun h => h | with_reducible exact fun h => Tab.wf_setD h _ _ | with_reducible exact fun h => Tab.wf_filter h _ | with_reducible exact fun _ => Tab.wf_nil _ | with_reducible exact fun h => Tab.wf_mapCmds _ h | with_reducible exact fun h => Tab.wf_foldl_setD _ _ _ h | intro _ | with_reducible apply State.foldl_ok | with_reducible apply State.foldl_pok | with_reducible apply State.refuse_ok | with_reducible apply State.orReg_ok | with_reducible apply State.modKeys_ok | with_reducible apply State.ite_ok | with_reducible apply State.fst_of | split | with_reducible apply State.mk_pok | with_reducible apply State.mk_ok)

theorem execLoad_runs {b₀ : State} (a : RpAcc) (s : State) (hs : s.Ok b₀) : Runs b₀ (execLoad a s) := by
  unfold execLoad; try dsimp -proj only
  repeat' (first | with_reducible assumption | intro _ | with_reducible apply State.foldl_ok | with_reducible apply State.foldl_pok | with_reducible apply runs_done | with_reducible apply runs_idle | with_reducible apply runs_ite | with_reducible apply runs_next | with_reducible apply State.keyCmd_ok | with_reducible apply State.loadBegin_ok | with_reducible apply State.ite_ok | with_reducible apply State.ite_pok | with_reducible apply State.fst_of | split | with_reducible apply State.mk_pok)

theorem execZeroise_runs {b₀ : State} (a : RpAcc) (s : State) (hs : s.Ok b₀) : Runs b₀ (execZeroise a s) := by
  unfold execZeroise; try dsimp -proj only
  repeat' (first | with_reducible assumption | intro _ | with_reducible apply State.foldl_ok | with_reducible apply State.foldl_pok | with_reducible apply runs_done | with_reducible apply runs_idle | with_reducible apply runs_ite | with_reducible apply runs_next | with_reducible apply State.keyCmd_ok | with_reducible apply State.setKey_ok | with_reducible apply State.ite_ok | with_reducible apply State.ite_pok | with_reducible apply State.fst_of | split | with_reducible apply State.mk_pok)

theorem State.zeroiseInst_ok {b₀ : State} (s : State) (t : Nat) (hs : s.Ok b₀) : (State.zeroiseInst s t).Ok b₀ := by
  unfold State.zeroiseInst; try dsimp -proj only
  repeat' (first | with_reducible assumption | intro _ | with_reducible apply State.foldl_ok | with_reducible apply State.foldl_pok | with_reducible apply State.setKey_ok | with_reducible apply State.ite_ok | with_reducible apply State.fst_of | split | with_reducible apply State.mk_pok)

theorem execZeroiseInst_runs {b₀ : State} (a : RpAcc) (s : State) (hs : s.Ok b₀) : Runs b₀ (execZeroiseInst a s) := by
  unfold execZeroiseInst; try dsimp -proj only
  repeat' (first | with_reducible assumption | intro _ | with_reducible apply State.foldl_ok | with_reducible apply State.foldl_pok | with_reducible apply runs_done | with_reducible apply runs_idle | with_reducible apply runs_ite | with_reducible apply runs_next | with_reducible apply State.keyCmd_ok | with_reducible apply State.zeroiseInst_ok | with_reducible apply State.ite_ok | with_reducible apply State.ite_pok | with_reducible apply State.fst_of | split | with_reducible apply State.mk_pok)

theorem State.loadEnd_ok {b₀ : State} (s : State) (result : Nat) (hs : s.Ok b₀) : (State.loadEnd s result).Ok b₀ := by
  unfold State.loadEnd; try dsimp -proj only
  repeat' (first | with_reducible assumption | with_reducible exact fun h => h | with_reducible exact fun h => Tab.wf_setD h _ _ | with_reducible exact fun h => Tab.wf_filter h _ | with_reducible exact fun _ => Tab.wf_nil _ | with_reducible exact fun h => Tab.wf_mapCmds _ h | with_reducible exact fun h => Tab.wf_foldl_setD _ _ _ h | intro _ | with_reducible apply State.foldl_ok | with_reducible apply State.foldl_pok | with_reducible apply State.setReg_ok | with_reducible apply State.result_ok | with_reducible apply State.raise_ok | with_reducible apply State.modKeys_ok | with_reducible apply State.ite_ok | with_reducible apply State.fst_of | split | with_reducible apply State.mk_pok | with_reducible apply State.mk_ok)

theorem execKeyLoadDone_runs {b₀ : State} (s : State) (hs : s.Ok b₀) : Runs b₀ (execKeyLoadDone s) := by
  unfold execKeyLoadDone; try dsimp -proj only
  repeat' (first | with_reducible assumption | intro _ | with_reducible apply State.foldl_ok | with_reducible apply State.foldl_pok | with_reducible apply runs_done | with_reducible apply runs_idle | with_reducible apply runs_ite | with_reducible apply runs_next | with_reducible apply State.refuse_ok | with_reducible apply State.loadEnd_ok | with_reducible apply State.setKey_ok | with_reducible apply State.ite_ok | with_reducible apply State.ite_pok | with_reducible apply State.fst_of | split | with_reducible apply State.mk_pok)

theorem State.sealAnswer_ok {b₀ : State} (s : State) (r : Nat) (hs : s.Ok b₀) : (State.sealAnswer s r).Ok b₀ := by
  unfold State.sealAnswer; try dsimp -proj only
  repeat' (first | with_reducible assumption | intro _ | with_reducible apply State.foldl_ok | with_reducible apply State.foldl_pok | with_reducible apply State.modReg_ok | with_reducible apply State.ite_ok | with_reducible apply State.fst_of | split | with_reducible apply State.mk_pok)

theorem State.sealCmd_ok {b₀ : State} (s : State) (a : RpAcc) (f : State → Fin 3 → State) (hs : s.Ok b₀) (hf : ∀ t x0, t.Ok b₀ → (f t x0).Ok b₀) : (State.sealCmd s a f).Ok b₀ := by
  unfold State.sealCmd; try dsimp -proj only
  repeat' (first | with_reducible assumption | intro _ | with_reducible apply State.foldl_ok | with_reducible apply State.foldl_pok | with_reducible apply State.portWrite_ok | with_reducible apply State.sealAnswer_ok | with_reducible apply State.modReg_ok | with_reducible apply hf | with_reducible apply State.ite_ok | with_reducible apply State.fst_of | split | with_reducible apply State.mk_pok)

theorem State.sealRaise_ok {b₀ : State} (s : State) (l : Fin 3) (hs : s.Ok b₀) : (State.sealRaise s l).Ok b₀ := by
  unfold State.sealRaise; try dsimp -proj only
  repeat' (first | with_reducible assumption | intro _ | with_reducible apply State.foldl_ok | with_reducible apply State.foldl_pok | with_reducible apply State.orReg_ok | with_reducible apply State.sealBegin_ok | with_reducible apply State.raise_ok | with_reducible apply State.ite_ok | with_reducible apply State.fst_of | split | with_reducible apply State.mk_pok)

theorem execSealRaise_runs {b₀ : State} (a : RpAcc) (s : State) (hs : s.Ok b₀) : Runs b₀ (execSealRaise a s) := by
  unfold execSealRaise; try dsimp -proj only
  repeat' (first | with_reducible assumption | intro _ | with_reducible apply State.foldl_ok | with_reducible apply State.foldl_pok | with_reducible apply runs_done | with_reducible apply runs_idle | with_reducible apply runs_ite | with_reducible apply runs_next | with_reducible apply State.sealCmd_ok | with_reducible apply State.sealRaise_ok | with_reducible apply State.ite_ok | with_reducible apply State.ite_pok | with_reducible apply State.fst_of | split | with_reducible apply State.mk_pok)

theorem State.tenantsFenced_ok {b₀ : State} (s : State) (cc : CcFault) (hs : s.Ok b₀) : State.POk b₀ (State.tenantsFenced s cc) := by
  unfold State.tenantsFenced; try dsimp -proj only
  repeat' (first | with_reducible assumption | intro _ | with_reducible apply State.foldl_ok | with_reducible apply State.foldl_pok | with_reducible apply State.ringLoad_ok | with_reducible apply State.ite_ok | with_reducible apply State.ite_pok | with_reducible apply State.fst_of | split | with_reducible apply State.mk_pok)

theorem State.zeroRange_ok {b₀ : State} (s : State) (off len : Nat) (hs : s.Ok b₀) : (State.zeroRange s off len).Ok b₀ := by
  unfold State.zeroRange; try dsimp -proj only
  repeat' (first | with_reducible assumption | with_reducible exact fun h => h | with_reducible exact fun h => Tab.wf_setD h _ _ | with_reducible exact fun h => Tab.wf_filter h _ | with_reducible exact fun _ => Tab.wf_nil _ | with_reducible exact fun h => Tab.wf_mapCmds _ h | with_reducible exact fun h => Tab.wf_foldl_setD _ _ _ h | intro _ | with_reducible apply State.foldl_ok | with_reducible apply State.foldl_pok | with_reducible apply State.modCache_ok | with_reducible apply State.modPort_ok | with_reducible apply State.ite_ok | with_reducible apply State.fst_of | split | with_reducible apply State.mk_pok | with_reducible apply State.mk_ok)

theorem State.clearFrontier_ok {b₀ : State} (s : State) (hs : s.Ok b₀) : (State.clearFrontier s).Ok b₀ := by
  unfold State.clearFrontier; try dsimp -proj only
  repeat' (first | with_reducible assumption | intro _ | with_reducible apply State.foldl_ok | with_reducible apply State.foldl_pok | with_reducible apply State.zeroRange_ok | with_reducible apply State.ite_ok | with_reducible apply State.fst_of | split | with_reducible apply State.mk_pok)

theorem State.sanitBegin_ok {b₀ : State} (s : State) (l : Fin 3) (upset : Upset) (hs : s.Ok b₀) : (State.sanitBegin s l upset).Ok b₀ := by
  unfold State.sanitBegin; try dsimp -proj only
  repeat' (first | with_reducible assumption | with_reducible exact fun h => h | with_reducible exact fun h => Tab.wf_setD h _ _ | with_reducible exact fun h => Tab.wf_filter h _ | with_reducible exact fun _ => Tab.wf_nil _ | with_reducible exact fun h => Tab.wf_mapCmds _ h | with_reducible exact fun h => Tab.wf_foldl_setD _ _ _ h | intro _ | with_reducible apply State.foldl_ok | with_reducible apply State.foldl_pok | with_reducible apply State.modKeys_ok | with_reducible apply State.releaseSlabs_ok | with_reducible apply State.orReg_ok | with_reducible apply State.clearFrontier_ok | with_reducible apply State.setReg_ok | with_reducible apply State.upset_ok | with_reducible apply State.sealBegin_ok | with_reducible apply State.ite_ok | with_reducible apply State.fst_of | split | with_reducible apply State.mk_pok | with_reducible apply State.mk_ok)

theorem State.sealLower_ok {b₀ : State} (s : State) (l : Fin 3) (upset : Upset) (cc : CcFault) (hs : s.Ok b₀) : (State.sealLower s l upset cc).Ok b₀ := by
  unfold State.sealLower; try dsimp -proj only
  repeat' (first | with_reducible assumption | intro _ | with_reducible apply State.foldl_ok | with_reducible apply State.foldl_pok | with_reducible apply State.tenantsFenced_ok | with_reducible apply State.sanitBegin_ok | with_reducible apply State.upset_ok | with_reducible apply State.modReg_ok | with_reducible apply State.sealAnswer_ok | with_reducible apply State.ite_ok | with_reducible apply State.fst_of | split | with_reducible apply State.mk_pok)

theorem execSealLower_runs {b₀ : State} (a : RpAcc) (cc : CcFault) (upset : Upset) (s : State) (hs : s.Ok b₀) : Runs b₀ (execSealLower a cc upset s) := by
  unfold execSealLower; try dsimp -proj only
  repeat' (first | with_reducible assumption | intro _ | with_reducible apply State.foldl_ok | with_reducible apply State.foldl_pok | with_reducible apply runs_done | with_reducible apply runs_idle | with_reducible apply runs_ite | with_reducible apply runs_next | with_reducible apply State.sealCmd_ok | with_reducible apply State.begins_ok | with_reducible apply State.sealLower_ok | with_reducible apply State.upset_ok | with_reducible apply State.ite_ok | with_reducible apply State.ite_pok | with_reducible apply State.fst_of | split | with_reducible apply State.mk_pok)

theorem State.sanitPlanes_ok {b₀ : State} (s : State) (die block : Nat) (cc : CcFault) (hs : s.Ok b₀) : State.POk b₀ (State.sanitPlanes s die block cc) := by
  unfold State.sanitPlanes; try dsimp -proj only
  repeat' (first | with_reducible assumption | intro _ | with_reducible apply State.foldl_ok | with_reducible apply State.foldl_pok | with_reducible apply State.dfCode_ok | with_reducible apply State.ite_ok | with_reducible apply State.ite_pok | with_reducible apply State.fst_of | split | with_reducible apply State.mk_pok)

theorem State.sanitNext_ok {b₀ : State} (die : Nat) (cc : CcFault) (n e : Nat) (s : State) (hs : s.Ok b₀) :
    State.POk b₀ (State.sanitNext die cc n e s) := by
  induction n generalizing s e with
  | zero => exact hs
  | succ n ih =>
    rw [State.sanitNext]; dsimp only
    split
    · exact hs
    · have h : (s.sanitPlanes die (e / (s.geo (die / 64)).planes) cc).1.Ok b₀ := State.fst_of (State.sanitPlanes_ok s _ _ _ hs)
      generalize s.sanitPlanes die (e / (s.geo (die / 64)).planes) cc = r at h
      obtain ⟨r1, r2⟩ := r
      cases r2 with
      | none => exact h
      | some l =>
        dsimp only
        split
        · exact h
        · split
          · exact h
          · exact ih _ _ h

theorem State.sanitCursor_ok {b₀ : State} (s : State) (die e : Nat) (hs : s.Ok b₀) : (State.sanitCursor s die e).Ok b₀ := by
  unfold State.sanitCursor; try dsimp -proj only
  repeat' (first | with_reducible assumption | with_reducible exact fun h => h | with_reducible exact fun h => Tab.wf_setD h _ _ | with_reducible exact fun h => Tab.wf_filter h _ | with_reducible exact fun _ => Tab.wf_nil _ | with_reducible exact fun h => Tab.wf_mapCmds _ h | with_reducible exact fun h => Tab.wf_foldl_setD _ _ _ h | intro _ | with_reducible apply State.foldl_ok | with_reducible apply State.foldl_pok | with_reducible apply State.modKeys_ok | with_reducible apply State.ite_ok | with_reducible apply State.fst_of | split | with_reducible apply State.mk_pok | with_reducible apply State.mk_ok)

theorem execSanitizeErase_runs {b₀ : State} (lane : Fin 128) (die : Fin 64) (cc : CcFault) (s : State) (hs : s.Ok b₀) : Runs b₀ (execSanitizeErase lane die cc s) := by
  unfold execSanitizeErase; try dsimp -proj only
  repeat' (first | with_reducible assumption | intro _ | with_reducible apply State.foldl_ok | with_reducible apply State.foldl_pok | with_reducible apply runs_done | with_reducible apply runs_idle | with_reducible apply runs_ite | with_reducible apply runs_next | with_reducible apply State.sanitNext_ok | with_reducible apply looked_runs | with_reducible apply State.sanitCursor_ok | with_reducible apply State.sanitCount_ok | with_reducible apply State.ask_ok | with_reducible apply State.admitted_ok | with_reducible apply State.count_ok | with_reducible apply State.sanStroke_ok | with_reducible apply State.ite_ok | with_reducible apply State.ite_pok | with_reducible apply State.fst_of | split | with_reducible apply State.mk_pok)

theorem execSanitizeDone_runs {b₀ : State} (upset : Upset) (s : State) (hs : s.Ok b₀) : Runs b₀ (execSanitizeDone upset s) := by
  unfold execSanitizeDone; try dsimp -proj only
  repeat' (first | with_reducible assumption | intro _ | with_reducible apply State.foldl_ok | with_reducible apply State.foldl_pok | with_reducible apply runs_done | with_reducible apply runs_idle | with_reducible apply runs_ite | with_reducible apply runs_next | with_reducible apply State.modReg_ok | with_reducible apply State.upset_ok | with_reducible apply State.sealBegin_ok | with_reducible apply State.ite_ok | with_reducible apply State.ite_pok | with_reducible apply State.fst_of | split | with_reducible apply State.mk_pok)

end Sys2Proof.Machine
end

