-- ==== Sys2Proof/Laws/OkTenants.lean ====
section
/-! SUPPORT. The operations of Machine/Tenants.lean keep the canonical form of the tables and leave the build, the queue,
the pins, the fuses, the test port and the time alone. -/
namespace Sys2Proof.Machine
open Sys2Proof
set_option linter.unusedTactic false
set_option linter.unreachableTactic false
set_option linter.unusedVariables false

theorem State.tnResult_ok {b₀ : State} (s : State) (r : Nat) (hs : s.Ok b₀) : (State.tnResult s r).Ok b₀ := by
  unfold State.tnResult; try dsimp -proj only
  repeat' (first | with_reducible assumption | intro _ | with_reducible apply State.foldl_ok | with_reducible apply State.foldl_pok | with_reducible apply State.setReg_ok | with_reducible apply State.raise_ok | with_reducible apply State.ite_ok | with_reducible apply State.fst_of | split | with_reducible apply State.mk_pok)

theorem State.tnCmd_ok {b₀ : State} (s : State) (op : Nat) (a : RpAcc) (f : State → Nat → State) (hs : s.Ok b₀) (hf : ∀ t x0, t.Ok b₀ → (f t x0).Ok b₀) : (State.tnCmd s op a f).Ok b₀ := by
  unfold State.tnCmd; try dsimp -proj only
  repeat' (first | with_reducible assumption | intro _ | with_reducible apply State.foldl_ok | with_reducible apply State.foldl_pok | with_reducible apply State.portWrite_ok | with_reducible apply State.tnResult_ok | with_reducible apply hf | with_reducible apply State.ite_ok | with_reducible apply State.fst_of | split | with_reducible apply State.mk_pok)

theorem execCreate_runs {b₀ : State} (a : RpAcc) (s : State) (hs : s.Ok b₀) : Runs b₀ (execCreate a s) := by
  unfold execCreate; try dsimp -proj only
  repeat' (first | with_reducible assumption | intro _ | with_reducible apply State.foldl_ok | with_reducible apply State.foldl_pok | with_reducible apply runs_done | with_reducible apply runs_idle | with_reducible apply runs_ite | with_reducible apply runs_next | with_reducible apply State.tnCmd_ok | with_reducible apply State.setTn_ok | with_reducible apply State.tnResult_ok | with_reducible apply State.ite_ok | with_reducible apply State.ite_pok | with_reducible apply State.fst_of | split | with_reducible apply State.mk_pok)

theorem State.anyFenced_ok {b₀ : State} (s : State) (t : Nat) (cc : CcFault) (hs : s.Ok b₀) : State.POk b₀ (State.anyFenced s t cc) := by
  unfold State.anyFenced; try dsimp -proj only
  repeat' (first | with_reducible assumption | intro _ | with_reducible apply State.foldl_ok | with_reducible apply State.foldl_pok | with_reducible apply State.ringLoad_ok | with_reducible apply State.ite_ok | with_reducible apply State.ite_pok | with_reducible apply State.fst_of | split | with_reducible apply State.mk_pok)

theorem State.unfence_ok {b₀ : State} (s : State) (t : Nat) (cc : CcFault) (hs : s.Ok b₀) : (State.unfence s t cc).Ok b₀ := by
  unfold State.unfence; try dsimp -proj only
  repeat' (first | with_reducible assumption | intro _ | with_reducible apply State.foldl_ok | with_reducible apply State.foldl_pok | with_reducible apply State.anyFenced_ok | with_reducible apply State.tnResult_ok | with_reducible apply State.setTn_ok | with_reducible apply State.ite_ok | with_reducible apply State.fst_of | split | with_reducible apply State.mk_pok)

theorem execUnfence_runs {b₀ : State} (a : RpAcc) (cc : CcFault) (s : State) (hs : s.Ok b₀) : Runs b₀ (execUnfence a cc s) := by
  unfold execUnfence; try dsimp -proj only
  repeat' (first | with_reducible assumption | intro _ | with_reducible apply State.foldl_ok | with_reducible apply State.foldl_pok | with_reducible apply runs_done | with_reducible apply runs_idle | with_reducible apply runs_ite | with_reducible apply runs_next | with_reducible apply State.tnCmd_ok | with_reducible apply State.tnResult_ok | with_reducible apply State.begins_ok | with_reducible apply State.unfence_ok | with_reducible apply State.ite_ok | with_reducible apply State.ite_pok | with_reducible apply State.fst_of | split | with_reducible apply State.mk_pok)

theorem State.dropRegs_ok {b₀ : State} (s : State) (f : Nat → Bool) (hs : s.Ok b₀) : (State.dropRegs s f).Ok b₀ := by
  unfold State.dropRegs; try dsimp -proj only
  repeat' (first | with_reducible assumption | with_reducible exact fun h => h | with_reducible exact fun h => Tab.wf_setD h _ _ | with_reducible exact fun h => Tab.wf_filter h _ | with_reducible exact fun _ => Tab.wf_nil _ | with_reducible exact fun h => Tab.wf_mapCmds _ h | with_reducible exact fun h => Tab.wf_foldl_setD _ _ _ h | intro _ | with_reducible apply State.foldl_ok | with_reducible apply State.foldl_pok | with_reducible apply State.ite_ok | with_reducible apply State.fst_of | split | with_reducible apply State.mk_pok | with_reducible apply State.mk_ok)

theorem State.zeroVectors_ok {b₀ : State} (s : State) (t : Nat) (hs : s.Ok b₀) : (State.zeroVectors s t).Ok b₀ := by
  unfold State.zeroVectors; try dsimp -proj only
  repeat' (first | with_reducible assumption | intro _ | with_reducible apply State.foldl_ok | with_reducible apply State.foldl_pok | with_reducible apply State.modVec_ok | with_reducible apply State.dropRegs_ok | with_reducible apply State.ite_ok | with_reducible apply State.fst_of | split | with_reducible apply State.mk_pok)

theorem State.destroyed_ok {b₀ : State} (s : State) (t : Nat) (hs : s.Ok b₀) : (State.destroyed s t).Ok b₀ := by
  unfold State.destroyed; try dsimp -proj only
  repeat' (first | with_reducible assumption | intro _ | with_reducible apply State.foldl_ok | with_reducible apply State.foldl_pok | with_reducible apply State.zeroVectors_ok | with_reducible apply State.dropRegs_ok | with_reducible apply State.setReg_ok | with_reducible apply State.setTn_ok | with_reducible apply State.allocPrograms_ok | with_reducible apply State.slabRoom_ok | with_reducible apply State.ite_ok | with_reducible apply State.fst_of | split | with_reducible apply State.mk_pok)

theorem execDestroy_runs {b₀ : State} (a : RpAcc) (s : State) (hs : s.Ok b₀) : Runs b₀ (execDestroy a s) := by
  unfold execDestroy; try dsimp -proj only
  repeat' (first | with_reducible assumption | intro _ | with_reducible apply State.foldl_ok | with_reducible apply State.foldl_pok | with_reducible apply runs_done | with_reducible apply runs_idle | with_reducible apply runs_ite | with_reducible apply runs_next | with_reducible apply State.tnCmd_ok | with_reducible apply State.tnResult_ok | with_reducible apply State.destroyed_ok | with_reducible apply State.ite_ok | with_reducible apply State.ite_pok | with_reducible apply State.fst_of | split | with_reducible apply State.mk_pok)

theorem State.unfetch_ok {b₀ : State} (s : State) (e : Fetching) (hs : s.Ok b₀) : (State.unfetch s e).Ok b₀ := by
  unfold State.unfetch; try dsimp -proj only
  repeat' (first | with_reducible assumption | intro _ | with_reducible apply State.foldl_ok | with_reducible apply State.foldl_pok | with_reducible apply State.fetchGone_ok | with_reducible apply State.releaseOut_ok | with_reducible apply State.fetchEnds_ok | with_reducible apply State.modPort_ok | with_reducible apply State.ite_ok | with_reducible apply State.fst_of | split | with_reducible apply State.mk_pok)

theorem State.fence_ok {b₀ : State} (s : State) (t : Nat) (cc : CcFault) (hs : s.Ok b₀) : (State.fence s t cc).Ok b₀ := by
  unfold State.fence; try dsimp -proj only
  repeat' (first | with_reducible assumption | intro _ | with_reducible apply State.foldl_ok | with_reducible apply State.foldl_pok | with_reducible apply State.ringPutCc_ok | with_reducible apply State.unfetch_ok | with_reducible apply State.ite_ok | with_reducible apply State.fst_of | split | with_reducible apply State.mk_pok)

theorem State.flushAll_ok {b₀ : State} (s : State) (t : Nat) (hs : s.Ok b₀) : (State.flushAll s t).Ok b₀ := by
  unfold State.flushAll; try dsimp -proj only
  repeat' (first | with_reducible assumption | intro _ | with_reducible apply State.foldl_ok | with_reducible apply State.foldl_pok | with_reducible apply State.flush_ok | with_reducible apply State.ite_ok | with_reducible apply State.fst_of | split | with_reducible apply State.mk_pok)

theorem State.alsoCancelled_ok {b₀ : State} (s : State) (e : Nat × Nat) (hs : s.Ok b₀) : (State.alsoCancelled s e).Ok b₀ := by
  unfold State.alsoCancelled; try dsimp -proj only
  repeat' (first | with_reducible assumption | intro _ | with_reducible apply State.foldl_ok | with_reducible apply State.foldl_pok | with_reducible apply State.finish_ok | with_reducible apply State.ite_ok | with_reducible apply State.fst_of | split | with_reducible apply State.mk_pok)

theorem State.resetCmd_ok {b₀ : State} (s : State) (e : Nat × Nat × Cmd) (hs : s.Ok b₀) : (State.resetCmd s e).Ok b₀ := by
  unfold State.resetCmd; try dsimp -proj only
  repeat' (first | with_reducible assumption | with_reducible exact fun h => h | with_reducible exact fun h => Tab.wf_setD h _ _ | with_reducible exact fun h => Tab.wf_filter h _ | with_reducible exact fun _ => Tab.wf_nil _ | with_reducible exact fun h => Tab.wf_mapCmds _ h | with_reducible exact fun h => Tab.wf_foldl_setD _ _ _ h | intro _ | with_reducible apply State.foldl_ok | with_reducible apply State.foldl_pok | with_reducible apply State.modCmd_ok | with_reducible apply State.discard_ok | with_reducible apply State.releaseOut_ok | with_reducible apply State.retire_ok | with_reducible apply State.finish_ok | with_reducible apply State.cancelClaims_ok | with_reducible apply State.alsoCancelled_ok | with_reducible apply State.calInsert_ok | with_reducible apply State.cleanFrames_ok | with_reducible apply State.discardEnd_ok | with_reducible apply State.ite_ok | with_reducible apply State.fst_of | split | with_reducible apply State.mk_pok | with_reducible apply State.mk_ok)

theorem State.stopMoves_ok {b₀ : State} (s : State) (l : List (Nat × Nat × Cmd)) (hs : s.Ok b₀) : (State.stopMoves s l).Ok b₀ := by
  unfold State.stopMoves; try dsimp -proj only
  repeat' (first | with_reducible assumption | with_reducible exact fun h => h | with_reducible exact fun h => Tab.wf_setD h _ _ | with_reducible exact fun h => Tab.wf_filter h _ | with_reducible exact fun _ => Tab.wf_nil _ | with_reducible exact fun h => Tab.wf_mapCmds _ h | with_reducible exact fun h => Tab.wf_foldl_setD _ _ _ h | intro _ | with_reducible apply State.foldl_ok | with_reducible apply State.foldl_pok | with_reducible apply State.blankBeats_ok | with_reducible apply State.modChannel_ok | with_reducible apply State.poolCheck_ok | with_reducible apply State.ite_ok | with_reducible apply State.fst_of | split | with_reducible apply State.mk_pok | with_reducible apply State.mk_ok)

theorem State.dropPlain_ok {b₀ : State} (s : State) (t : Nat) (hs : s.Ok b₀) : (State.dropPlain s t).Ok b₀ := by
  unfold State.dropPlain; try dsimp -proj only
  repeat' (first | with_reducible assumption | with_reducible exact fun h => h | with_reducible exact fun h => Tab.wf_setD h _ _ | with_reducible exact fun h => Tab.wf_filter h _ | with_reducible exact fun _ => Tab.wf_nil _ | with_reducible exact fun h => Tab.wf_mapCmds _ h | with_reducible exact fun h => Tab.wf_foldl_setD _ _ _ h | intro _ | with_reducible apply State.foldl_ok | with_reducible apply State.foldl_pok | with_reducible apply State.releaseOut_ok | with_reducible apply State.ite_ok | with_reducible apply State.fst_of | split | with_reducible apply State.mk_pok | with_reducible apply State.mk_ok)

theorem State.quietVectors_ok {b₀ : State} (s : State) (t : Nat) (hs : s.Ok b₀) : (State.quietVectors s t).Ok b₀ := by
  unfold State.quietVectors; try dsimp -proj only
  repeat' (first | with_reducible assumption | intro _ | with_reducible apply State.foldl_ok | with_reducible apply State.foldl_pok | with_reducible apply State.vecShut_ok | with_reducible apply State.vecWithdraw_ok | with_reducible apply State.ite_ok | with_reducible apply State.fst_of | split | with_reducible apply State.mk_pok)

theorem State.tnResetBegin_ok {b₀ : State} (s : State) (t : Nat) (keep : Bool) (cc : CcFault) (hs : s.Ok b₀) : (State.tnResetBegin s t keep cc).Ok b₀ := by
  unfold State.tnResetBegin; try dsimp -proj only
  repeat' (first | with_reducible assumption | with_reducible exact fun h => h | with_reducible exact fun h => Tab.wf_setD h _ _ | with_reducible exact fun h => Tab.wf_filter h _ | with_reducible exact fun _ => Tab.wf_nil _ | with_reducible exact fun h => Tab.wf_mapCmds _ h | with_reducible exact fun h => Tab.wf_foldl_setD _ _ _ h | intro _ | with_reducible apply State.foldl_ok | with_reducible apply State.foldl_pok | with_reducible apply State.setTn_ok | with_reducible apply State.modTenants_ok | with_reducible apply State.modReg_ok | with_reducible apply State.setReg_ok | with_reducible apply State.fence_ok | with_reducible apply State.flushAll_ok | with_reducible apply State.dropPlain_ok | with_reducible apply State.resetCmd_ok | with_reducible apply State.stopMoves_ok | with_reducible apply State.releaseSlabs_ok | with_reducible apply State.quietVectors_ok | with_reducible apply State.modLane_ok | with_reducible apply State.tableSync_ok | with_reducible apply State.ite_ok | with_reducible apply State.fst_of | split | with_reducible apply State.mk_pok | with_reducible apply State.mk_ok)

theorem execTnReset_runs {b₀ : State} (a : RpAcc) (cc : CcFault) (s : State) (hs : s.Ok b₀) : Runs b₀ (execTnReset a cc s) := by
  unfold execTnReset; try dsimp -proj only
  repeat' (first | with_reducible assumption | intro _ | with_reducible apply State.foldl_ok | with_reducible apply State.foldl_pok | with_reducible apply runs_done | with_reducible apply runs_idle | with_reducible apply runs_ite | with_reducible apply runs_next | with_reducible apply State.tnCmd_ok | with_reducible apply State.tnResult_ok | with_reducible apply State.begins_ok | with_reducible apply State.tnResetBegin_ok | with_reducible apply State.ite_ok | with_reducible apply State.ite_pok | with_reducible apply State.fst_of | split | with_reducible apply State.mk_pok)

theorem State.finalise_ok {b₀ : State} (s : State) (t : Nat) (hs : s.Ok b₀) : (State.finalise s t).Ok b₀ := by
  unfold State.finalise; try dsimp -proj only
  repeat' (first | with_reducible assumption | with_reducible exact fun h => h | with_reducible exact fun h => Tab.wf_setD h _ _ | with_reducible exact fun h => Tab.wf_filter h _ | with_reducible exact fun _ => Tab.wf_nil _ | with_reducible exact fun h => Tab.wf_mapCmds _ h | with_reducible exact fun h => Tab.wf_foldl_setD _ _ _ h | intro _ | with_reducible apply State.foldl_ok | with_reducible apply State.foldl_pok | with_reducible apply State.modTenants_ok | with_reducible apply State.pushReady_ok | with_reducible apply State.dropRecord_ok | with_reducible apply State.resetEnd_ok | with_reducible apply State.ite_ok | with_reducible apply State.fst_of | split | with_reducible apply State.mk_pok | with_reducible apply State.mk_ok)

theorem State.finalNow_ok {b₀ : State} (s : State) (cc : CcFault) (hs : s.Ok b₀) : (State.finalNow s cc).Ok b₀ := by
  unfold State.finalNow; try dsimp -proj only
  repeat' (first | with_reducible assumption | intro _ | with_reducible apply State.foldl_ok | with_reducible apply State.foldl_pok | with_reducible apply State.writeReady_ok | with_reducible apply State.ite_ok | with_reducible apply State.fst_of | split | with_reducible apply State.mk_pok)

theorem execResetDone_runs {b₀ : State} (cc : CcFault) (s : State) (hs : s.Ok b₀) : Runs b₀ (execResetDone cc s) := by
  unfold execResetDone; try dsimp -proj only
  repeat' (first | with_reducible assumption | intro _ | with_reducible apply State.foldl_ok | with_reducible apply State.foldl_pok | with_reducible apply runs_done | with_reducible apply runs_idle | with_reducible apply runs_ite | with_reducible apply runs_next | with_reducible apply looked_runs | with_reducible apply State.finalNow_ok | with_reducible apply State.zeroiseInst_ok | with_reducible apply State.finalise_ok | with_reducible apply State.waited_ok | with_reducible apply State.ite_ok | with_reducible apply State.ite_pok | with_reducible apply State.fst_of | split | with_reducible apply State.mk_pok)

end Sys2Proof.Machine
end

