-- ==== Sys2Proof/Laws/OkPending.lean ====
section
/-! SUPPORT. The operations of Machine/Pending.lean keep the canonical form of the tables and leave the build, the queue,
the pins, the fuses, the test port and the time alone. -/
namespace Sys2Proof.Machine
open Sys2Proof
set_option linter.unusedTactic false
set_option linter.unreachableTactic false
set_option linter.unusedVariables false

theorem State.heldRun_ok {b₀ : State} (s : State) (h : Held) (cc : CcFault) (hs : s.Ok b₀) : (State.heldRun s h cc).Ok b₀ := by
  unfold State.heldRun; try dsimp -proj only
  repeat' (first | with_reducible assumption | intro _ | with_reducible apply State.foldl_ok | with_reducible apply State.foldl_pok | with_reducible apply State.ringCmd_ok | with_reducible apply State.ringOp_ok | with_reducible apply State.markOp_ok | with_reducible apply State.frOp_ok | with_reducible apply State.doorbell_ok | with_reducible apply State.ringApply_ok | with_reducible apply State.sample_ok | with_reducible apply State.growMark_ok | with_reducible apply State.sealLower_ok | with_reducible apply State.unfence_ok | with_reducible apply State.tnResetBegin_ok | with_reducible apply State.tnResult_ok | with_reducible apply State.ite_ok | with_reducible apply State.fst_of | split | with_reducible apply State.mk_pok)

theorem State.resume_ok {b₀ : State} (s : State) (hs : s.Ok b₀) : (State.resume s).Ok b₀ := by
  unfold State.resume; try dsimp -proj only
  repeat' (first | with_reducible assumption | with_reducible exact fun h => h | with_reducible exact fun h => Tab.wf_setD h _ _ | with_reducible exact fun h => Tab.wf_filter h _ | with_reducible exact fun _ => Tab.wf_nil _ | with_reducible exact fun h => Tab.wf_mapCmds _ h | with_reducible exact fun h => Tab.wf_foldl_setD _ _ _ h | intro _ | with_reducible apply State.foldl_ok | with_reducible apply State.foldl_pok | with_reducible apply State.begins_ok | with_reducible apply State.heldRun_ok | with_reducible apply State.modCache_ok | with_reducible apply State.ite_ok | with_reducible apply State.fst_of | split | with_reducible apply State.mk_pok | with_reducible apply State.mk_ok)

theorem execCcFill_runs {b₀ : State} (reg : Fin 17) (s : State) (hs : s.Ok b₀) : Runs b₀ (execCcFill reg s) := by
  unfold execCcFill; try dsimp -proj only
  repeat' (first | with_reducible assumption | intro _ | with_reducible apply State.foldl_ok | with_reducible apply State.foldl_pok | with_reducible apply runs_done | with_reducible apply runs_idle | with_reducible apply runs_ite | with_reducible apply runs_next | with_reducible apply State.fillDone_ok | with_reducible apply State.resume_ok | with_reducible apply State.ite_ok | with_reducible apply State.ite_pok | with_reducible apply State.fst_of | split | with_reducible apply State.mk_pok)

theorem execHpWriteStatus_runs {b₀ : State} (port : Fin 4) (tag : Fin 512) (resp : BitVec 2) (s : State) (hs : s.Ok b₀) : Runs b₀ (execHpWriteStatus port tag resp s) := by
  unfold execHpWriteStatus; try dsimp -proj only
  repeat' (first | with_reducible assumption | with_reducible exact fun h => h | with_reducible exact fun h => Tab.wf_setD h _ _ | with_reducible exact fun h => Tab.wf_filter h _ | with_reducible exact fun _ => Tab.wf_nil _ | with_reducible exact fun h => Tab.wf_mapCmds _ h | with_reducible exact fun h => Tab.wf_foldl_setD _ _ _ h | intro _ | with_reducible apply State.foldl_ok | with_reducible apply State.foldl_pok | with_reducible apply runs_done | with_reducible apply runs_idle | with_reducible apply runs_ite | with_reducible apply runs_next | with_reducible apply State.opportunity_ok | with_reducible apply State.modPort_ok | with_reducible apply State.present_ok | with_reducible apply State.hpProtocol_ok | with_reducible apply State.lessOut_ok | with_reducible apply State.hostPut_ok | with_reducible apply State.writeAnswer_ok | with_reducible apply State.issuerCheck_ok | with_reducible apply State.resume_ok | with_reducible apply State.ite_ok | with_reducible apply State.ite_pok | with_reducible apply State.fst_of | split | with_reducible apply State.mk_pok | with_reducible apply State.mk_ok)

theorem execHpTimeout_runs {b₀ : State} (port : Fin 4) (wr : Bool) (tag : Fin 512) (s : State) (hs : s.Ok b₀) : Runs b₀ (execHpTimeout port wr tag s) := by
  unfold execHpTimeout; try dsimp -proj only
  repeat' (first | with_reducible assumption | with_reducible exact fun h => h | with_reducible exact fun h => Tab.wf_setD h _ _ | with_reducible exact fun h => Tab.wf_filter h _ | with_reducible exact fun _ => Tab.wf_nil _ | with_reducible exact fun h => Tab.wf_mapCmds _ h | with_reducible exact fun h => Tab.wf_foldl_setD _ _ _ h | intro _ | with_reducible apply State.foldl_ok | with_reducible apply State.foldl_pok | with_reducible apply runs_done | with_reducible apply runs_idle | with_reducible apply runs_ite | with_reducible apply runs_next | with_reducible apply State.modPort_ok | with_reducible apply State.lessOut_ok | with_reducible apply State.blot_ok | with_reducible apply State.writeAnswer_ok | with_reducible apply State.readAnswer_ok | with_reducible apply State.issuerCheck_ok | with_reducible apply State.resume_ok | with_reducible apply State.ite_ok | with_reducible apply State.ite_pok | with_reducible apply State.fst_of | split | with_reducible apply State.mk_pok | with_reducible apply State.mk_ok)

end Sys2Proof.Machine
end

