-- ==== Sys2Proof/Laws/OkCalib.lean ====
section
/-! SUPPORT. The operations of Machine/Calib.lean keep the canonical form of the tables and leave the build, the queue,
the pins, the fuses, the test port and the time alone. -/
namespace Sys2Proof.Machine
open Sys2Proof
set_option linter.unusedTactic false
set_option linter.unreachableTactic false
set_option linter.unusedVariables false

theorem State.calCtl_ok {b₀ : State} (s : State) (g : Nat) (locked : Bool) (data : Word) (hs : s.Ok b₀) : (State.calCtl s g locked data).Ok b₀ := by
  unfold State.calCtl; try dsimp -proj only
  repeat' (first | with_reducible assumption | intro _ | with_reducible apply State.foldl_ok | with_reducible apply State.foldl_pok | with_reducible apply State.writeRow_ok | with_reducible apply State.startRun_ok | with_reducible apply State.askRetrain_ok | with_reducible apply State.ite_ok | with_reducible apply State.fst_of | split | with_reducible apply State.mk_pok)

theorem execRecal_runs {b₀ : State} (lane : Fin 128) (a : RpAcc) (s : State) (hs : s.Ok b₀) : Runs b₀ (execRecal lane a s) := by
  unfold execRecal; try dsimp -proj only
  repeat' (first | with_reducible assumption | intro _ | with_reducible apply State.foldl_ok | with_reducible apply State.foldl_pok | with_reducible apply runs_done | with_reducible apply runs_idle | with_reducible apply runs_ite | with_reducible apply runs_next | with_reducible apply State.portWrite_ok | with_reducible apply State.calCtl_ok | with_reducible apply State.ite_ok | with_reducible apply State.ite_pok | with_reducible apply State.fst_of | split | with_reducible apply State.mk_pok)

theorem execRetrain_runs {b₀ : State} (lane : Fin 128) (a : RpAcc) (s : State) (hs : s.Ok b₀) : Runs b₀ (execRetrain lane a s) := by
  unfold execRetrain; try dsimp -proj only
  repeat' (first | with_reducible assumption | intro _ | with_reducible apply State.foldl_ok | with_reducible apply State.foldl_pok | with_reducible apply runs_done | with_reducible apply runs_idle | with_reducible apply runs_ite | with_reducible apply runs_next | with_reducible apply State.portWrite_ok | with_reducible apply State.calCtl_ok | with_reducible apply State.ite_ok | with_reducible apply State.ite_pok | with_reducible apply State.fst_of | split | with_reducible apply State.mk_pok)

theorem execLaneShadowWrite_runs {b₀ : State} (lane : Fin 128) (which : Fin 6) (a : RpAcc) (handOver : Bool) (s : State) (hs : s.Ok b₀) : Runs b₀ (execLaneShadowWrite lane which a handOver s) := by
  unfold execLaneShadowWrite; try dsimp -proj only
  repeat' (first | with_reducible assumption | intro _ | with_reducible apply State.foldl_ok | with_reducible apply State.foldl_pok | with_reducible apply runs_done | with_reducible apply runs_idle | with_reducible apply runs_ite | with_reducible apply runs_next | with_reducible apply State.portWrite_ok | with_reducible apply State.handOver_ok | with_reducible apply State.castle_ok | with_reducible apply State.writeRow_ok | with_reducible apply State.setPending_ok | with_reducible apply State.orReg_ok | with_reducible apply State.raise_ok | with_reducible apply State.ite_ok | with_reducible apply State.ite_pok | with_reducible apply State.fst_of | split | with_reducible apply State.mk_pok)

theorem execCastling_runs {b₀ : State} (lane : Fin 128) (s : State) (hs : s.Ok b₀) : Runs b₀ (execCastling lane s) := by
  unfold execCastling; try dsimp -proj only
  repeat' (first | with_reducible assumption | intro _ | with_reducible apply State.foldl_ok | with_reducible apply State.foldl_pok | with_reducible apply runs_done | with_reducible apply runs_idle | with_reducible apply runs_ite | with_reducible apply runs_next | with_reducible apply State.castle_ok | with_reducible apply State.calInsert_ok | with_reducible apply State.ite_ok | with_reducible apply State.ite_pok | with_reducible apply State.fst_of | split | with_reducible apply State.mk_pok)

theorem execForcedIdle_runs {b₀ : State} (lane : Fin 128) (s : State) (hs : s.Ok b₀) : Runs b₀ (execForcedIdle lane s) := by
  unfold execForcedIdle; try dsimp -proj only
  repeat' (first | with_reducible assumption | with_reducible exact fun h => h | with_reducible exact fun h => Tab.wf_setD h _ _ | with_reducible exact fun h => Tab.wf_filter h _ | with_reducible exact fun _ => Tab.wf_nil _ | with_reducible exact fun h => Tab.wf_mapCmds _ h | with_reducible exact fun h => Tab.wf_foldl_setD _ _ _ h | intro _ | with_reducible apply State.foldl_ok | with_reducible apply State.foldl_pok | with_reducible apply runs_done | with_reducible apply runs_idle | with_reducible apply runs_ite | with_reducible apply runs_next | with_reducible apply State.modLane_ok | with_reducible apply State.ite_ok | with_reducible apply State.ite_pok | with_reducible apply State.fst_of | split | with_reducible apply State.mk_pok | with_reducible apply State.mk_ok)

theorem execCalRunStep_runs {b₀ : State} (lane : Fin 128) (mism : List Nat) (withWrite : Bool) (s : State) (hs : s.Ok b₀) : Runs b₀ (execCalRunStep lane mism withWrite s) := by
  unfold execCalRunStep; try dsimp -proj only
  repeat' (first | with_reducible assumption | with_reducible exact fun h => h | with_reducible exact fun h => Tab.wf_setD h _ _ | with_reducible exact fun h => Tab.wf_filter h _ | with_reducible exact fun _ => Tab.wf_nil _ | with_reducible exact fun h => Tab.wf_mapCmds _ h | with_reducible exact fun h => Tab.wf_foldl_setD _ _ _ h | intro _ | with_reducible apply State.foldl_ok | with_reducible apply State.foldl_pok | with_reducible apply runs_done | with_reducible apply runs_idle | with_reducible apply runs_ite | with_reducible apply runs_next | with_reducible apply State.modLane_ok | with_reducible apply State.calPoint_ok | with_reducible apply State.endRun_ok | with_reducible apply State.ite_ok | with_reducible apply State.ite_pok | with_reducible apply State.fst_of | split | with_reducible apply State.mk_pok | with_reducible apply State.mk_ok)

theorem execCalStepWaitExpiry_runs {b₀ : State} (lane : Fin 128) (s : State) (hs : s.Ok b₀) : Runs b₀ (execCalStepWaitExpiry lane s) := by
  unfold execCalStepWaitExpiry; try dsimp -proj only
  repeat' (first | with_reducible assumption | with_reducible exact fun h => h | with_reducible exact fun h => Tab.wf_setD h _ _ | with_reducible exact fun h => Tab.wf_filter h _ | with_reducible exact fun _ => Tab.wf_nil _ | with_reducible exact fun h => Tab.wf_mapCmds _ h | with_reducible exact fun h => Tab.wf_foldl_setD _ _ _ h | intro _ | with_reducible apply State.foldl_ok | with_reducible apply State.foldl_pok | with_reducible apply runs_done | with_reducible apply runs_idle | with_reducible apply runs_ite | with_reducible apply runs_next | with_reducible apply State.modLane_ok | with_reducible apply State.calInsert_ok | with_reducible apply State.ite_ok | with_reducible apply State.ite_pok | with_reducible apply State.fst_of | split | with_reducible apply State.mk_pok | with_reducible apply State.mk_ok)

theorem State.retrainSuspend_ok {b₀ : State} (s : State) (g : Nat) (hs : s.Ok b₀) : (State.retrainSuspend s g).Ok b₀ := by
  unfold State.retrainSuspend; try dsimp -proj only
  repeat' (first | with_reducible assumption | intro _ | with_reducible apply State.foldl_ok | with_reducible apply State.foldl_pok | with_reducible apply State.commit_ok | with_reducible apply State.ite_ok | with_reducible apply State.fst_of | split | with_reducible apply State.mk_pok)

theorem State.lostCmd_ok {b₀ : State} (s : State) (c h : Nat) (hs : s.Ok b₀) : (State.lostCmd s c h).Ok b₀ := by
  unfold State.lostCmd; try dsimp -proj only
  repeat' (first | with_reducible assumption | intro _ | with_reducible apply State.foldl_ok | with_reducible apply State.foldl_pok | with_reducible apply State.resultApplied_ok | with_reducible apply State.finish_ok | with_reducible apply State.cancelClaims_ok | with_reducible apply State.abort_ok | with_reducible apply State.ite_ok | with_reducible apply State.fst_of | split | with_reducible apply State.mk_pok)

theorem State.loseLane_ok {b₀ : State} (s : State) (g : Nat) (hs : s.Ok b₀) : (State.loseLane s g).Ok b₀ := by
  unfold State.loseLane; try dsimp -proj only
  repeat' (first | with_reducible assumption | with_reducible exact fun h => h | with_reducible exact fun h => Tab.wf_setD h _ _ | with_reducible exact fun h => Tab.wf_filter h _ | with_reducible exact fun _ => Tab.wf_nil _ | with_reducible exact fun h => Tab.wf_mapCmds _ h | with_reducible exact fun h => Tab.wf_foldl_setD _ _ _ h | intro _ | with_reducible apply State.foldl_ok | with_reducible apply State.foldl_pok | with_reducible apply State.lostCmd_ok | with_reducible apply State.seqLost_ok | with_reducible apply State.failLane_ok | with_reducible apply State.modLane_ok | with_reducible apply State.blot_ok | with_reducible apply State.ite_ok | with_reducible apply State.fst_of | split | with_reducible apply State.mk_pok | with_reducible apply State.mk_ok)

theorem State.trainReset_ok {b₀ : State} (s : State) (g : Nat) (hs : s.Ok b₀) : (State.trainReset s g).Ok b₀ := by
  unfold State.trainReset; try dsimp -proj only
  repeat' (first | with_reducible assumption | with_reducible exact fun h => h | with_reducible exact fun h => Tab.wf_setD h _ _ | with_reducible exact fun h => Tab.wf_filter h _ | with_reducible exact fun _ => Tab.wf_nil _ | with_reducible exact fun h => Tab.wf_mapCmds _ h | with_reducible exact fun h => Tab.wf_foldl_setD _ _ _ h | intro _ | with_reducible apply State.foldl_ok | with_reducible apply State.foldl_pok | with_reducible apply State.dieReset_ok | with_reducible apply State.modLun_ok | with_reducible apply State.ite_ok | with_reducible apply State.fst_of | split | with_reducible apply State.mk_pok | with_reducible apply State.mk_ok)

theorem State.retrainNow_ok {b₀ : State} (s : State) (g : Nat) (first : Bool) (trials : List Trial) (hs : s.Ok b₀) : (State.retrainNow s g first trials).Ok b₀ := by
  unfold State.retrainNow; try dsimp -proj only
  repeat' (first | with_reducible assumption | with_reducible exact fun h => h | with_reducible exact fun h => Tab.wf_setD h _ _ | with_reducible exact fun h => Tab.wf_filter h _ | with_reducible exact fun _ => Tab.wf_nil _ | with_reducible exact fun h => Tab.wf_mapCmds _ h | with_reducible exact fun h => Tab.wf_foldl_setD _ _ _ h | intro _ | with_reducible apply State.foldl_ok | with_reducible apply State.foldl_pok | with_reducible apply State.castle_ok | with_reducible apply State.dropRun_ok | with_reducible apply State.modLane_ok | with_reducible apply State.trainReset_ok | with_reducible apply State.drive_ok | with_reducible apply State.laneTrained_ok | with_reducible apply State.keepEyes_ok | with_reducible apply State.lastTrain_ok | with_reducible apply State.retrainResume_ok | with_reducible apply State.loseLane_ok | with_reducible apply State.raise_ok | with_reducible apply State.ite_ok | with_reducible apply State.fst_of | split | with_reducible apply State.mk_pok | with_reducible apply State.mk_ok)

theorem execRetrainRun_runs {b₀ : State} (lane : Fin 128) (trials : List Trial) (s : State) (hs : s.Ok b₀) : Runs b₀ (execRetrainRun lane trials s) := by
  unfold execRetrainRun; try dsimp -proj only
  repeat' (first | with_reducible assumption | with_reducible exact fun h => h | with_reducible exact fun h => Tab.wf_setD h _ _ | with_reducible exact fun h => Tab.wf_filter h _ | with_reducible exact fun _ => Tab.wf_nil _ | with_reducible exact fun h => Tab.wf_mapCmds _ h | with_reducible exact fun h => Tab.wf_foldl_setD _ _ _ h | intro _ | with_reducible apply State.foldl_ok | with_reducible apply State.foldl_pok | with_reducible apply runs_done | with_reducible apply runs_idle | with_reducible apply runs_ite | with_reducible apply runs_next | with_reducible apply looked_runs | with_reducible apply State.retrainNow_ok | with_reducible apply State.dropRun_ok | with_reducible apply State.modLane_ok | with_reducible apply State.retrainSuspend_ok | with_reducible apply State.ite_ok | with_reducible apply State.ite_pok | with_reducible apply State.fst_of | split | with_reducible apply State.mk_pok | with_reducible apply State.mk_ok)

theorem execRetrainReadyTimeout_runs {b₀ : State} (lane : Fin 128) (s : State) (hs : s.Ok b₀) : Runs b₀ (execRetrainReadyTimeout lane s) := by
  unfold execRetrainReadyTimeout; try dsimp -proj only
  repeat' (first | with_reducible assumption | with_reducible exact fun h => h | with_reducible exact fun h => Tab.wf_setD h _ _ | with_reducible exact fun h => Tab.wf_filter h _ | with_reducible exact fun _ => Tab.wf_nil _ | with_reducible exact fun h => Tab.wf_mapCmds _ h | with_reducible exact fun h => Tab.wf_foldl_setD _ _ _ h | intro _ | with_reducible apply State.foldl_ok | with_reducible apply State.foldl_pok | with_reducible apply runs_done | with_reducible apply runs_idle | with_reducible apply runs_ite | with_reducible apply runs_next | with_reducible apply State.modLane_ok | with_reducible apply State.retrainResume_ok | with_reducible apply State.ite_ok | with_reducible apply State.ite_pok | with_reducible apply State.fst_of | split | with_reducible apply State.mk_pok | with_reducible apply State.mk_ok)

theorem execRetrainRerequest_runs {b₀ : State} (lane : Fin 128) (s : State) (hs : s.Ok b₀) : Runs b₀ (execRetrainRerequest lane s) := by
  unfold execRetrainRerequest; try dsimp -proj only
  repeat' (first | with_reducible assumption | intro _ | with_reducible apply State.foldl_ok | with_reducible apply State.foldl_pok | with_reducible apply runs_done | with_reducible apply runs_idle | with_reducible apply runs_ite | with_reducible apply runs_next | with_reducible apply State.askRetrain_ok | with_reducible apply State.ite_ok | with_reducible apply State.ite_pok | with_reducible apply State.fst_of | split | with_reducible apply State.mk_pok)

end Sys2Proof.Machine
end

