-- ==== Sys2Proof/Laws/OkSignals.lean ====
section
/-! SUPPORT. The operations of Machine/Signals.lean keep the canonical form of the tables and leave the build, the queue,
the pins, the fuses, the test port and the time alone. -/
namespace Sys2Proof.Machine
open Sys2Proof
set_option linter.unusedTactic false
set_option linter.unreachableTactic false
set_option linter.unusedVariables false

theorem State.vecCtlPut_ok {b₀ : State} (s : State) (v : Nat) (data : Word) (hs : s.Ok b₀) : (State.vecCtlPut s v data).Ok b₀ := by
  unfold State.vecCtlPut; try dsimp -proj only
  repeat' (first | with_reducible assumption | with_reducible exact fun h => h | with_reducible exact fun h => Tab.wf_setD h _ _ | with_reducible exact fun h => Tab.wf_filter h _ | with_reducible exact fun _ => Tab.wf_nil _ | with_reducible exact fun h => Tab.wf_mapCmds _ h | with_reducible exact fun h => Tab.wf_foldl_setD _ _ _ h | intro _ | with_reducible apply State.foldl_ok | with_reducible apply State.foldl_pok | with_reducible apply State.writeRow_ok | with_reducible apply State.modVec_ok | with_reducible apply State.vecShut_ok | with_reducible apply State.vecWithdraw_ok | with_reducible apply State.vecArrange_ok | with_reducible apply State.vecCheck_ok | with_reducible apply State.ite_ok | with_reducible apply State.fst_of | split | with_reducible apply State.mk_pok | with_reducible apply State.mk_ok)

theorem execVectorCtlWrite_runs {b₀ : State} (vec : Fin 4096) (a : RpAcc) (s : State) (hs : s.Ok b₀) : Runs b₀ (execVectorCtlWrite vec a s) := by
  unfold execVectorCtlWrite; try dsimp -proj only
  repeat' (first | with_reducible assumption | intro _ | with_reducible apply State.foldl_ok | with_reducible apply State.foldl_pok | with_reducible apply runs_done | with_reducible apply runs_idle | with_reducible apply runs_ite | with_reducible apply runs_next | with_reducible apply State.portWrite_ok | with_reducible apply State.vecCtlPut_ok | with_reducible apply State.ite_ok | with_reducible apply State.ite_pok | with_reducible apply State.fst_of | split | with_reducible apply State.mk_pok)

theorem execDbVecMaskWrite_runs {b₀ : State} (page : Fin 512) (a : RpAcc) (s : State) (hs : s.Ok b₀) : Runs b₀ (execDbVecMaskWrite page a s) := by
  unfold execDbVecMaskWrite; try dsimp -proj only
  repeat' (first | with_reducible assumption | intro _ | with_reducible apply State.foldl_ok | with_reducible apply State.foldl_pok | with_reducible apply runs_done | with_reducible apply runs_idle | with_reducible apply runs_ite | with_reducible apply runs_next | with_reducible apply State.portWrite_ok | with_reducible apply State.vecCtlPut_ok | with_reducible apply State.ite_ok | with_reducible apply State.ite_pok | with_reducible apply State.fst_of | split | with_reducible apply State.mk_pok)

theorem execWindowExpiry_runs {b₀ : State} (vec : Fin 4096) (bad : Option (Fin 5)) (s : State) (hs : s.Ok b₀) : Runs b₀ (execWindowExpiry vec bad s) := by
  unfold execWindowExpiry; try dsimp -proj only
  repeat' (first | with_reducible assumption | intro _ | with_reducible apply State.foldl_ok | with_reducible apply State.foldl_pok | with_reducible apply runs_done | with_reducible apply runs_idle | with_reducible apply runs_ite | with_reducible apply runs_next | with_reducible apply State.wakeBlock_ok | with_reducible apply State.vecFind_ok | with_reducible apply State.vecExpire_ok | with_reducible apply State.ite_ok | with_reducible apply State.ite_pok | with_reducible apply State.fst_of | split | with_reducible apply State.mk_pok)

theorem State.vecSend_ok {b₀ : State} (s : State) (v port : Nat) (hs : s.Ok b₀) : (State.vecSend s v port).Ok b₀ := by
  unfold State.vecSend; try dsimp -proj only
  repeat' (first | with_reducible assumption | with_reducible exact fun h => h | with_reducible exact fun h => Tab.wf_setD h _ _ | with_reducible exact fun h => Tab.wf_filter h _ | with_reducible exact fun _ => Tab.wf_nil _ | with_reducible exact fun h => Tab.wf_mapCmds _ h | with_reducible exact fun h => Tab.wf_foldl_setD _ _ _ h | intro _ | with_reducible apply State.foldl_ok | with_reducible apply State.foldl_pok | with_reducible apply State.modVec_ok | with_reducible apply State.hpPush_ok | with_reducible apply State.count_ok | with_reducible apply State.ite_ok | with_reducible apply State.fst_of | split | with_reducible apply State.mk_pok | with_reducible apply State.mk_ok)

theorem execVectorMessageWrite_runs {b₀ : State} (vec : Fin 4096) (s : State) (hs : s.Ok b₀) : Runs b₀ (execVectorMessageWrite vec s) := by
  unfold execVectorMessageWrite; try dsimp -proj only
  repeat' (first | with_reducible assumption | intro _ | with_reducible apply State.foldl_ok | with_reducible apply State.foldl_pok | with_reducible apply runs_done | with_reducible apply runs_idle | with_reducible apply runs_ite | with_reducible apply runs_next | with_reducible apply State.vecSend_ok | with_reducible apply State.ite_ok | with_reducible apply State.ite_pok | with_reducible apply State.fst_of | split | with_reducible apply State.mk_pok)

theorem State.senseChange_ok {b₀ : State} (s : State) (n : Nat) (old new : Word) (hs : s.Ok b₀) : (State.senseChange s n old new).Ok b₀ := by
  unfold State.senseChange; try dsimp -proj only
  repeat' (first | with_reducible assumption | with_reducible exact fun h => h | with_reducible exact fun h => Tab.wf_setD h _ _ | with_reducible exact fun h => Tab.wf_filter h _ | with_reducible exact fun _ => Tab.wf_nil _ | with_reducible exact fun h => Tab.wf_mapCmds _ h | with_reducible exact fun h => Tab.wf_foldl_setD _ _ _ h | intro _ | with_reducible apply State.foldl_ok | with_reducible apply State.foldl_pok | with_reducible apply State.modSignal_ok | with_reducible apply State.ite_ok | with_reducible apply State.fst_of | split | with_reducible apply State.mk_pok | with_reducible apply State.mk_ok)

theorem execSenseModeWrite_runs {b₀ : State} (n : Fin 8) (a : RpAcc) (s : State) (hs : s.Ok b₀) : Runs b₀ (execSenseModeWrite n a s) := by
  unfold execSenseModeWrite; try dsimp -proj only
  repeat' (first | with_reducible assumption | intro _ | with_reducible apply State.foldl_ok | with_reducible apply State.foldl_pok | with_reducible apply runs_done | with_reducible apply runs_idle | with_reducible apply runs_ite | with_reducible apply runs_next | with_reducible apply State.portWrite_ok | with_reducible apply State.writeRow_ok | with_reducible apply State.senseChange_ok | with_reducible apply State.ite_ok | with_reducible apply State.ite_pok | with_reducible apply State.fst_of | split | with_reducible apply State.mk_pok)

theorem execEdgeCatch_runs {b₀ : State} (src : Fin 128) (s : State) (rising : Bool := true) (hs : s.Ok b₀) : Runs b₀ (execEdgeCatch src s rising) := by
  unfold execEdgeCatch; try dsimp -proj only
  repeat' (first | with_reducible assumption | with_reducible exact fun h => h | with_reducible exact fun h => Tab.wf_setD h _ _ | with_reducible exact fun h => Tab.wf_filter h _ | with_reducible exact fun _ => Tab.wf_nil _ | with_reducible exact fun h => Tab.wf_mapCmds _ h | with_reducible exact fun h => Tab.wf_foldl_setD _ _ _ h | intro _ | with_reducible apply State.foldl_ok | with_reducible apply State.foldl_pok | with_reducible apply runs_done | with_reducible apply runs_idle | with_reducible apply runs_ite | with_reducible apply runs_next | with_reducible apply State.modSignal_ok | with_reducible apply State.wakeBlock_ok | with_reducible apply State.ite_ok | with_reducible apply State.ite_pok | with_reducible apply State.fst_of | split | with_reducible apply State.mk_pok | with_reducible apply State.mk_ok)

end Sys2Proof.Machine
end

