-- ==== Sys2Proof/Laws/OkScrub.lean ====
section
/-! SUPPORT. The operations of Machine/Scrub.lean keep the canonical form of the tables and leave the build, the queue,
the pins, the fuses, the test port and the time alone. -/
namespace Sys2Proof.Machine
open Sys2Proof
set_option linter.unusedTactic false
set_option linter.unreachableTactic false
set_option linter.unusedVariables false

theorem State.sweepHandle_ok {b₀ : State} (s : State) (g row : Nat) (half : Bool) (hs : s.Ok b₀) : (State.sweepHandle s g row half).Ok b₀ := by
  unfold State.sweepHandle; try dsimp -proj only
  repeat' (first | with_reducible assumption | intro _ | with_reducible apply State.foldl_ok | with_reducible apply State.foldl_pok | with_reducible apply State.slabUncorr_ok | with_reducible apply State.wayUncorr_ok | with_reducible apply State.uncorrRow_ok | with_reducible apply State.quillFault_ok | with_reducible apply State.coreFault_ok | with_reducible apply State.setKey_ok | with_reducible apply State.ite_ok | with_reducible apply State.fst_of | split | with_reducible apply State.mk_pok)

theorem State.sweepRead_ok {b₀ : State} (s : State) (g row : Nat) (found : Ecc) (half shared : Bool) (victim : Option (Fin 32)) (hs : s.Ok b₀) : (State.sweepRead s g row found half shared victim).Ok b₀ := by
  unfold State.sweepRead; try dsimp -proj only
  repeat' (first | with_reducible assumption | intro _ | with_reducible apply State.foldl_ok | with_reducible apply State.foldl_pok | with_reducible apply State.corrected_ok | with_reducible apply State.bucketAdd_ok | with_reducible apply State.count_ok | with_reducible apply State.raise_ok | with_reducible apply State.blot_ok | with_reducible apply State.victimUncorr_ok | with_reducible apply State.sweepHandle_ok | with_reducible apply State.ite_ok | with_reducible apply State.fst_of | split | with_reducible apply State.mk_pok)

theorem State.sweepBegin_ok {b₀ : State} (s : State) (hs : s.Ok b₀) : (State.sweepBegin s).Ok b₀ := by
  unfold State.sweepBegin; try dsimp -proj only
  repeat' (first | with_reducible assumption | with_reducible exact fun h => h | with_reducible exact fun h => Tab.wf_setD h _ _ | with_reducible exact fun h => Tab.wf_filter h _ | with_reducible exact fun _ => Tab.wf_nil _ | with_reducible exact fun h => Tab.wf_mapCmds _ h | with_reducible exact fun h => Tab.wf_foldl_setD _ _ _ h | intro _ | with_reducible apply State.foldl_ok | with_reducible apply State.foldl_pok | with_reducible apply State.modScrub_ok | with_reducible apply State.ite_ok | with_reducible apply State.fst_of | split | with_reducible apply State.mk_pok | with_reducible apply State.mk_ok)

theorem State.sweepPassed_ok {b₀ : State} (s : State) (hs : s.Ok b₀) : (State.sweepPassed s).Ok b₀ := by
  unfold State.sweepPassed; try dsimp -proj only
  repeat' (first | with_reducible assumption | with_reducible exact fun h => h | with_reducible exact fun h => Tab.wf_setD h _ _ | with_reducible exact fun h => Tab.wf_filter h _ | with_reducible exact fun _ => Tab.wf_nil _ | with_reducible exact fun h => Tab.wf_mapCmds _ h | with_reducible exact fun h => Tab.wf_foldl_setD _ _ _ h | intro _ | with_reducible apply State.foldl_ok | with_reducible apply State.foldl_pok | with_reducible apply State.modScrub_ok | with_reducible apply State.modReg_ok | with_reducible apply State.ite_ok | with_reducible apply State.fst_of | split | with_reducible apply State.mk_pok | with_reducible apply State.mk_ok)

theorem execSweepRow_runs {b₀ : State} (found : Ecc) (half : Bool) (s : State) (shared : Bool := false) (victim : Option (Fin 32) := none) (hs : s.Ok b₀) : Runs b₀ (execSweepRow found half s shared victim) := by
  unfold execSweepRow; try dsimp -proj only
  repeat' (first | with_reducible assumption | with_reducible exact fun h => h | with_reducible exact fun h => Tab.wf_setD h _ _ | with_reducible exact fun h => Tab.wf_filter h _ | with_reducible exact fun _ => Tab.wf_nil _ | with_reducible exact fun h => Tab.wf_mapCmds _ h | with_reducible exact fun h => Tab.wf_foldl_setD _ _ _ h | intro _ | with_reducible apply State.foldl_ok | with_reducible apply State.foldl_pok | with_reducible apply runs_done | with_reducible apply runs_idle | with_reducible apply runs_ite | with_reducible apply runs_next | with_reducible apply State.sweepBegin_ok | with_reducible apply looked_runs | with_reducible apply State.sweepPassed_ok | with_reducible apply State.modReg_ok | with_reducible apply State.modScrub_ok | with_reducible apply State.sweepRead_ok | with_reducible apply State.ite_ok | with_reducible apply State.ite_pok | with_reducible apply State.fst_of | split | with_reducible apply State.mk_pok | with_reducible apply State.mk_ok)

theorem execLeak_runs {b₀ : State} (g : Fin 8) (s : State) (adds : List (Fin 512 × Fin 4096) := []) (hs : s.Ok b₀) : Runs b₀ (execLeak g s adds) := by
  unfold execLeak; try dsimp -proj only
  repeat' (first | with_reducible assumption | intro _ | with_reducible apply State.foldl_ok | with_reducible apply State.foldl_pok | with_reducible apply runs_done | with_reducible apply runs_idle | with_reducible apply runs_ite | with_reducible apply runs_next | with_reducible apply State.count_ok | with_reducible apply State.bucketSet_ok | with_reducible apply State.trackAt_ok | with_reducible apply State.modReg_ok | with_reducible apply State.ite_ok | with_reducible apply State.ite_pok | with_reducible apply State.fst_of | split | with_reducible apply State.mk_pok)

theorem execRepairAdd_runs {b₀ : State} (a : RpAcc) (s : State) (hs : s.Ok b₀) : Runs b₀ (execRepairAdd a s) := by
  unfold execRepairAdd; try dsimp -proj only
  repeat' (first | with_reducible assumption | intro _ | with_reducible apply State.foldl_ok | with_reducible apply State.foldl_pok | with_reducible apply runs_done | with_reducible apply runs_idle | with_reducible apply runs_ite | with_reducible apply runs_next | with_reducible apply State.portWrite_ok | with_reducible apply State.writeRow_ok | with_reducible apply State.modReg_ok | with_reducible apply State.remapRow_ok | with_reducible apply State.ite_ok | with_reducible apply State.ite_pok | with_reducible apply State.fst_of | split | with_reducible apply State.mk_pok)

theorem State.patrolVisit_ok {b₀ : State} (s : State) (die i : Nat) (cc : CcFault) (hs : s.Ok b₀) : State.POk b₀ (State.patrolVisit s die i cc) := by
  unfold State.patrolVisit; try dsimp -proj only
  repeat' (first | with_reducible assumption | intro _ | with_reducible apply State.foldl_ok | with_reducible apply State.foldl_pok | with_reducible apply State.dfCode_ok | with_reducible apply State.frSlots_ok | with_reducible apply State.ite_ok | with_reducible apply State.ite_pok | with_reducible apply State.fst_of | split | with_reducible apply State.mk_pok)

theorem State.patrolDies_ok {b₀ : State} (cc : CcFault) (i : Nat) (l : List Nat) (s : State) (hs : s.Ok b₀) :
    State.POk b₀ (State.patrolDies cc i l s) := by
  induction l generalizing s with
  | nil => exact hs
  | cons d ds ih =>
    rw [State.patrolDies]; dsimp only
    split
    · exact ih _ hs
    · have h : ((s.setReg Reg.PT_CURSOR (cursorWord i d)).patrolVisit d i cc).1.Ok b₀ :=
        State.fst_of (State.patrolVisit_ok _ _ _ _ (State.setReg_ok _ _ _ hs))
      generalize (s.setReg Reg.PT_CURSOR (cursorWord i d)).patrolVisit d i cc = r at h
      obtain ⟨r1, r2⟩ := r
      cases r2 with
      | none => exact ih _ (State.count_ok _ _ h)
      | some x =>
        cases x with
        | nil => exact ih _ h
        | cons x xs => exact h

theorem State.patrolWalk_ok {b₀ : State} (dies : List Nat) (cc : CcFault) (n d0 : Nat) (s : State) (hs : s.Ok b₀) :
    State.POk b₀ (State.patrolWalk dies cc n d0 s) := by
  induction n generalizing s d0 with
  | zero => exact hs
  | succ n ih =>
    rw [State.patrolWalk]; try dsimp only
    have h : (State.patrolDies cc (8191 - n) (dies.filter (fun d => decide (d0 ≤ d))) s).1.Ok b₀ :=
      State.fst_of (State.patrolDies_ok _ _ _ _ hs)
    generalize State.patrolDies cc (8191 - n) (dies.filter (fun d => decide (d0 ≤ d))) s = r at h
    obtain ⟨r1, r2⟩ := r
    cases r2 with
    | none => exact ih _ _ h
    | some x => exact h

theorem State.patrolNext_ok {b₀ : State} (s : State) (cc : CcFault) (hs : s.Ok b₀) : State.POk b₀ (State.patrolNext s cc) := by
  unfold State.patrolNext; dsimp only
  split
  · exact State.patrolWalk_ok _ _ _ _ _ hs
  · exact State.patrolWalk_ok _ _ _ _ _ hs
  · split
    · exact State.patrolWalk_ok _ _ _ _ _ hs
    · split
      · exact State.patrolWalk_ok _ _ _ _ _ (State.count_ok _ _ hs)
      · exact hs

theorem State.patrolPassed_ok {b₀ : State} (s : State) (hs : s.Ok b₀) : (State.patrolPassed s).Ok b₀ := by
  unfold State.patrolPassed; try dsimp -proj only
  repeat' (first | with_reducible assumption | with_reducible exact fun h => h | with_reducible exact fun h => Tab.wf_setD h _ _ | with_reducible exact fun h => Tab.wf_filter h _ | with_reducible exact fun _ => Tab.wf_nil _ | with_reducible exact fun h => Tab.wf_mapCmds _ h | with_reducible exact fun h => Tab.wf_foldl_setD _ _ _ h | intro _ | with_reducible apply State.foldl_ok | with_reducible apply State.foldl_pok | with_reducible apply State.setReg_ok | with_reducible apply State.modScrub_ok | with_reducible apply State.count_ok | with_reducible apply State.raise_ok | with_reducible apply State.ite_ok | with_reducible apply State.fst_of | split | with_reducible apply State.mk_pok | with_reducible apply State.mk_ok)

theorem State.sampleIssue_ok {b₀ : State} (s : State) (die i page h : Nat) (hs : s.Ok b₀) : (State.sampleIssue s die i page h).Ok b₀ := by
  unfold State.sampleIssue; try dsimp -proj only
  repeat' (first | with_reducible assumption | with_reducible exact fun h => h | with_reducible exact fun h => Tab.wf_setD h _ _ | with_reducible exact fun h => Tab.wf_filter h _ | with_reducible exact fun _ => Tab.wf_nil _ | with_reducible exact fun h => Tab.wf_mapCmds _ h | with_reducible exact fun h => Tab.wf_foldl_setD _ _ _ h | intro _ | with_reducible apply State.foldl_ok | with_reducible apply State.foldl_pok | with_reducible apply State.takeHandle_ok | with_reducible apply State.count_ok | with_reducible apply State.tableSync_ok | with_reducible apply State.ite_ok | with_reducible apply State.fst_of | split | with_reducible apply State.mk_pok | with_reducible apply State.mk_ok)

theorem execPatrolIssue_runs {b₀ : State} (cc : CcFault) (s : State) (hs : s.Ok b₀) : Runs b₀ (execPatrolIssue cc s) := by
  unfold execPatrolIssue; try dsimp -proj only
  repeat' (first | with_reducible assumption | with_reducible exact fun h => h | with_reducible exact fun h => Tab.wf_setD h _ _ | with_reducible exact fun h => Tab.wf_filter h _ | with_reducible exact fun _ => Tab.wf_nil _ | with_reducible exact fun h => Tab.wf_mapCmds _ h | with_reducible exact fun h => Tab.wf_foldl_setD _ _ _ h | intro _ | with_reducible apply State.foldl_ok | with_reducible apply State.foldl_pok | with_reducible apply runs_done | with_reducible apply runs_idle | with_reducible apply runs_ite | with_reducible apply runs_next | with_reducible apply State.patrolNext_ok | with_reducible apply looked_runs | with_reducible apply State.patrolPassed_ok | with_reducible apply State.modScrub_ok | with_reducible apply State.rest_ok | with_reducible apply State.sampleIssue_ok | with_reducible apply State.ite_ok | with_reducible apply State.ite_pok | with_reducible apply State.fst_of | split | with_reducible apply State.mk_pok | with_reducible apply State.mk_ok)

end Sys2Proof.Machine
end

