-- ==== Sys2Proof/Laws/OkEndgame.lean ====
section
/-! SUPPORT. The operations of Machine/Endgame.lean keep the canonical form of the tables and leave the build, the queue,
the pins, the fuses, the test port and the time alone. -/
namespace Sys2Proof.Machine
open Sys2Proof
set_option linter.unusedTactic false
set_option linter.unreachableTactic false
set_option linter.unusedVariables false

theorem State.egBegin_ok {b₀ : State} (s : State) (from_ : Mode) (hs : s.Ok b₀) : (State.egBegin s from_).Ok b₀ := by
  unfold State.egBegin; try dsimp -proj only
  repeat' (first | with_reducible assumption | intro _ | with_reducible apply State.foldl_ok | with_reducible apply State.foldl_pok | with_reducible apply State.modEndgame_ok | with_reducible apply State.setReg_ok | with_reducible apply State.ite_ok | with_reducible apply State.fst_of | split | with_reducible apply State.mk_pok)

theorem State.egStop_ok {b₀ : State} (s : State) (hs : s.Ok b₀) : (State.egStop s).Ok b₀ := by
  unfold State.egStop; try dsimp -proj only
  repeat' (first | with_reducible assumption | with_reducible exact fun h => h | with_reducible exact fun h => Tab.wf_setD h _ _ | with_reducible exact fun h => Tab.wf_filter h _ | with_reducible exact fun _ => Tab.wf_nil _ | with_reducible exact fun h => Tab.wf_mapCmds _ h | with_reducible exact fun h => Tab.wf_foldl_setD _ _ _ h | intro _ | with_reducible apply State.foldl_ok | with_reducible apply State.foldl_pok | with_reducible apply State.retire_ok | with_reducible apply State.modLane_ok | with_reducible apply State.modCore_ok | with_reducible apply State.modPort_ok | with_reducible apply State.modKeys_ok | with_reducible apply State.modGlb_ok | with_reducible apply State.ite_ok | with_reducible apply State.fst_of | split | with_reducible apply State.mk_pok | with_reducible apply State.mk_ok)

theorem State.egCancel_ok {b₀ : State} (s : State) (g : Nat) (hs : s.Ok b₀) : (State.egCancel s g).Ok b₀ := by
  unfold State.egCancel; try dsimp -proj only
  repeat' (first | with_reducible assumption | with_reducible exact fun h => h | with_reducible exact fun h => Tab.wf_setD h _ _ | with_reducible exact fun h => Tab.wf_filter h _ | with_reducible exact fun _ => Tab.wf_nil _ | with_reducible exact fun h => Tab.wf_mapCmds _ h | with_reducible exact fun h => Tab.wf_foldl_setD _ _ _ h | intro _ | with_reducible apply State.foldl_ok | with_reducible apply State.foldl_pok | with_reducible apply State.egCmd_ok | with_reducible apply State.unverify_ok | with_reducible apply State.cancelClaims_ok | with_reducible apply State.modCmd_ok | with_reducible apply State.releaseUnits_ok | with_reducible apply State.ite_ok | with_reducible apply State.fst_of | split | with_reducible apply State.mk_pok | with_reducible apply State.mk_ok)

theorem State.egLane_ok {b₀ : State} (s : State) (g : Nat) (hs : s.Ok b₀) : (State.egLane s g).Ok b₀ := by
  unfold State.egLane; try dsimp -proj only
  repeat' (first | with_reducible assumption | with_reducible exact fun h => h | with_reducible exact fun h => Tab.wf_setD h _ _ | with_reducible exact fun h => Tab.wf_filter h _ | with_reducible exact fun _ => Tab.wf_nil _ | with_reducible exact fun h => Tab.wf_mapCmds _ h | with_reducible exact fun h => Tab.wf_foldl_setD _ _ _ h | intro _ | with_reducible apply State.foldl_ok | with_reducible apply State.foldl_pok | with_reducible apply State.modLane_ok | with_reducible apply State.rest_ok | with_reducible apply State.result_ok | with_reducible apply State.egAct_ok | with_reducible apply State.ite_ok | with_reducible apply State.fst_of | split | with_reducible apply State.mk_pok | with_reducible apply State.mk_ok)

theorem State.enterEndgame_ok {b₀ : State} (s : State) (hs : s.Ok b₀) : (State.enterEndgame s).Ok b₀ := by
  unfold State.enterEndgame; try dsimp -proj only
  repeat' (first | with_reducible assumption | intro _ | with_reducible apply State.foldl_ok | with_reducible apply State.foldl_pok | with_reducible apply State.toMode_ok | with_reducible apply State.egBegin_ok | with_reducible apply State.egKnown_ok | with_reducible apply State.egCancel_ok | with_reducible apply State.egOwnCancel_ok | with_reducible apply State.egStop_ok | with_reducible apply State.egLane_ok | with_reducible apply State.ite_ok | with_reducible apply State.fst_of | split | with_reducible apply State.mk_pok)

theorem execPfWarnRegistered_runs {b₀ : State} (failure : Option OpenCause) (s : State) (hs : s.Ok b₀) : Runs b₀ (execPfWarnRegistered failure s) := by
  unfold execPfWarnRegistered; try dsimp -proj only
  repeat' (first | with_reducible assumption | with_reducible exact fun h => h | with_reducible exact fun h => Tab.wf_setD h _ _ | with_reducible exact fun h => Tab.wf_filter h _ | with_reducible exact fun _ => Tab.wf_nil _ | with_reducible exact fun h => Tab.wf_mapCmds _ h | with_reducible exact fun h => Tab.wf_foldl_setD _ _ _ h | intro _ | with_reducible apply State.foldl_ok | with_reducible apply State.foldl_pok | with_reducible apply runs_done | with_reducible apply runs_idle | with_reducible apply runs_ite | with_reducible apply runs_next | with_reducible apply State.countFailure_ok | with_reducible apply State.wakeBlock_ok | with_reducible apply State.enterEndgame_ok | with_reducible apply State.ite_ok | with_reducible apply State.ite_pok | with_reducible apply State.fst_of | split | with_reducible apply State.mk_pok | with_reducible apply State.mk_ok)

theorem execEndgameEnd_runs {b₀ : State} (s : State) (hs : s.Ok b₀) : Runs b₀ (execEndgameEnd s) := by
  unfold execEndgameEnd; try dsimp -proj only
  repeat' (first | with_reducible assumption | intro _ | with_reducible apply State.foldl_ok | with_reducible apply State.foldl_pok | with_reducible apply runs_done | with_reducible apply runs_idle | with_reducible apply runs_ite | with_reducible apply runs_next | with_reducible apply State.egPark_ok | with_reducible apply State.egReset_ok | with_reducible apply State.ite_ok | with_reducible apply State.ite_pok | with_reducible apply State.fst_of | split | with_reducible apply State.mk_pok)

theorem execEgHeaderWrite_runs {b₀ : State} (s : State) (hs : s.Ok b₀) : Runs b₀ (execEgHeaderWrite s) := by
  unfold execEgHeaderWrite; try dsimp -proj only
  repeat' (first | with_reducible assumption | with_reducible exact fun h => h | with_reducible exact fun h => Tab.wf_setD h _ _ | with_reducible exact fun h => Tab.wf_filter h _ | with_reducible exact fun _ => Tab.wf_nil _ | with_reducible exact fun h => Tab.wf_mapCmds _ h | with_reducible exact fun h => Tab.wf_foldl_setD _ _ _ h | intro _ | with_reducible apply State.foldl_ok | with_reducible apply State.foldl_pok | with_reducible apply runs_done | with_reducible apply runs_idle | with_reducible apply runs_ite | with_reducible apply runs_next | with_reducible apply State.modEndgame_ok | with_reducible apply State.hpPush_ok | with_reducible apply State.ite_ok | with_reducible apply State.ite_pok | with_reducible apply State.fst_of | split | with_reducible apply State.mk_pok | with_reducible apply State.mk_ok)

theorem State.egCutLane_ok {b₀ : State} (s : State) (g : Nat) (hs : s.Ok b₀) : (State.egCutLane s g).Ok b₀ := by
  unfold State.egCutLane; try dsimp -proj only
  repeat' (first | with_reducible assumption | intro _ | with_reducible apply State.foldl_ok | with_reducible apply State.foldl_pok | with_reducible apply State.result_ok | with_reducible apply State.egCmd_ok | with_reducible apply State.egOwnEnd_ok | with_reducible apply State.ite_ok | with_reducible apply State.fst_of | split | with_reducible apply State.mk_pok)

theorem execEndgameBudgetExpiry_runs {b₀ : State} (s : State) (hs : s.Ok b₀) : Runs b₀ (execEndgameBudgetExpiry s) := by
  unfold execEndgameBudgetExpiry; try dsimp -proj only
  repeat' (first | with_reducible assumption | intro _ | with_reducible apply State.foldl_ok | with_reducible apply State.foldl_pok | with_reducible apply runs_done | with_reducible apply runs_idle | with_reducible apply runs_ite | with_reducible apply runs_next | with_reducible apply State.egCutLane_ok | with_reducible apply State.orReg_ok | with_reducible apply State.egPark_ok | with_reducible apply State.egHostErr_ok | with_reducible apply State.egReset_ok | with_reducible apply State.ite_ok | with_reducible apply State.ite_pok | with_reducible apply State.fst_of | split | with_reducible apply State.mk_pok)

theorem State.egClear_ok {b₀ : State} (s : State) (hs : s.Ok b₀) : (State.egClear s).Ok b₀ := by
  unfold State.egClear; try dsimp -proj only
  repeat' (first | with_reducible assumption | with_reducible exact fun h => h | with_reducible exact fun h => Tab.wf_setD h _ _ | with_reducible exact fun h => Tab.wf_filter h _ | with_reducible exact fun _ => Tab.wf_nil _ | with_reducible exact fun h => Tab.wf_mapCmds _ h | with_reducible exact fun h => Tab.wf_foldl_setD _ _ _ h | intro _ | with_reducible apply State.foldl_ok | with_reducible apply State.foldl_pok | with_reducible apply State.modEndgame_ok | with_reducible apply State.modReg_ok | with_reducible apply State.setReg_ok | with_reducible apply State.ite_ok | with_reducible apply State.fst_of | split | with_reducible apply State.mk_pok | with_reducible apply State.mk_ok)

theorem execEgSummaryClear_runs {b₀ : State} (a : RpAcc) (s : State) (hs : s.Ok b₀) : Runs b₀ (execEgSummaryClear a s) := by
  unfold execEgSummaryClear; try dsimp -proj only
  repeat' (first | with_reducible assumption | intro _ | with_reducible apply State.foldl_ok | with_reducible apply State.foldl_pok | with_reducible apply runs_done | with_reducible apply runs_idle | with_reducible apply runs_ite | with_reducible apply runs_next | with_reducible apply State.portWrite_ok | with_reducible apply State.egClear_ok | with_reducible apply State.ite_ok | with_reducible apply State.ite_pok | with_reducible apply State.fst_of | split | with_reducible apply State.mk_pok)

end Sys2Proof.Machine
end

