-- ==== Sys2Proof/Laws/OkRegisters.lean ====
section
/-! SUPPORT. The operations of Machine/Registers.lean keep the canonical form of the tables and leave the build, the queue,
the pins, the fuses, the test port and the time alone. -/
namespace Sys2Proof.Machine
open Sys2Proof
set_option linter.unusedTactic false
set_option linter.unreachableTactic false
set_option linter.unusedVariables false

theorem State.pairNext_ok {b₀ : State} (s : State) (hs : s.Ok b₀) : (State.pairNext s).Ok b₀ := by
  unfold State.pairNext; try dsimp -proj only
  repeat' (first | with_reducible assumption | intro _ | with_reducible apply State.foldl_ok | with_reducible apply State.foldl_pok | with_reducible apply State.modReg_ok | with_reducible apply State.ite_ok | with_reducible apply State.fst_of | split | with_reducible apply State.mk_pok)

theorem State.readClear_ok {b₀ : State} (s : State) (a : Nat) (hs : s.Ok b₀) : (State.readClear s a).Ok b₀ := by
  unfold State.readClear; try dsimp -proj only
  repeat' (first | with_reducible assumption | intro _ | with_reducible apply State.foldl_ok | with_reducible apply State.foldl_pok | with_reducible apply State.modReg_ok | with_reducible apply State.pairNext_ok | with_reducible apply State.ite_ok | with_reducible apply State.fst_of | split | with_reducible apply State.mk_pok)

theorem execRcRead_runs {b₀ : State} (addr : BitVec 23) (id : BitVec 8) (s : State) (hs : s.Ok b₀) : Runs b₀ (execRcRead addr id s) := by
  unfold execRcRead; try dsimp -proj only
  repeat' (first | with_reducible assumption | intro _ | with_reducible apply State.foldl_ok | with_reducible apply State.foldl_pok | with_reducible apply runs_done | with_reducible apply runs_idle | with_reducible apply runs_ite | with_reducible apply runs_next | with_reducible apply State.portRead_ok | with_reducible apply State.readClear_ok | with_reducible apply State.ite_ok | with_reducible apply State.ite_pok | with_reducible apply State.fst_of | split | with_reducible apply State.mk_pok)

theorem State.pairWrite_ok {b₀ : State} (s : State) (locked : Bool) (data : Word) (hs : s.Ok b₀) : (State.pairWrite s locked data).Ok b₀ := by
  unfold State.pairWrite; try dsimp -proj only
  repeat' (first | with_reducible assumption | with_reducible exact fun h => h | with_reducible exact fun h => Tab.wf_setD h _ _ | with_reducible exact fun h => Tab.wf_filter h _ | with_reducible exact fun _ => Tab.wf_nil _ | with_reducible exact fun h => Tab.wf_mapCmds _ h | with_reducible exact fun h => Tab.wf_foldl_setD _ _ _ h | intro _ | with_reducible apply State.foldl_ok | with_reducible apply State.foldl_pok | with_reducible apply State.modScrub_ok | with_reducible apply State.pairNext_ok | with_reducible apply State.ite_ok | with_reducible apply State.fst_of | split | with_reducible apply State.mk_pok | with_reducible apply State.mk_ok)

theorem State.pendWrite_ok {b₀ : State} (s : State) (n : Nat) (fastBank : Bool) (data : Word) (hs : s.Ok b₀) : (State.pendWrite s n fastBank data).Ok b₀ := by
  unfold State.pendWrite; try dsimp -proj only
  repeat' (first | with_reducible assumption | with_reducible exact fun h => h | with_reducible exact fun h => Tab.wf_setD h _ _ | with_reducible exact fun h => Tab.wf_filter h _ | with_reducible exact fun _ => Tab.wf_nil _ | with_reducible exact fun h => Tab.wf_mapCmds _ h | with_reducible exact fun h => Tab.wf_foldl_setD _ _ _ h | intro _ | with_reducible apply State.foldl_ok | with_reducible apply State.foldl_pok | with_reducible apply State.modSignal_ok | with_reducible apply State.ite_ok | with_reducible apply State.fst_of | split | with_reducible apply State.mk_pok | with_reducible apply State.mk_ok)

theorem State.vecPendWrite_ok {b₀ : State} (s : State) (t : Nat) (data : Word) (hs : s.Ok b₀) : (State.vecPendWrite s t data).Ok b₀ := by
  unfold State.vecPendWrite; try dsimp -proj only
  repeat' (first | with_reducible assumption | intro _ | with_reducible apply State.foldl_ok | with_reducible apply State.foldl_pok | with_reducible apply State.vecCtlPut_ok | with_reducible apply State.ite_ok | with_reducible apply State.fst_of | split | with_reducible apply State.mk_pok)

theorem State.afterWrite_ok {b₀ : State} (s : State) (old : State) (a : Nat) (hs : s.Ok b₀) (hold : old.Ok b₀) : (State.afterWrite s old a).Ok b₀ := by
  unfold State.afterWrite; try dsimp -proj only
  repeat' (first | with_reducible assumption | with_reducible exact fun h => h | with_reducible exact fun h => Tab.wf_setD h _ _ | with_reducible exact fun h => Tab.wf_filter h _ | with_reducible exact fun _ => Tab.wf_nil _ | with_reducible exact fun h => Tab.wf_mapCmds _ h | with_reducible exact fun h => Tab.wf_foldl_setD _ _ _ h | intro _ | with_reducible apply State.foldl_ok | with_reducible apply State.foldl_pok | with_reducible apply State.openFail_ok | with_reducible apply State.modGlb_ok | with_reducible apply State.capCheck_ok | with_reducible apply State.modScrub_ok | with_reducible apply State.modLedger_ok | with_reducible apply State.modCore_ok | with_reducible apply State.pbClose_ok | with_reducible apply State.rbSync_ok | with_reducible apply State.modVec_ok | with_reducible apply State.ite_ok | with_reducible apply State.fst_of | split | with_reducible apply State.mk_pok | with_reducible apply State.mk_ok)

theorem State.regWrite_ok {b₀ : State} (s : State) (a : Nat) (locked : Bool) (data : Word) (hs : s.Ok b₀) : (State.regWrite s a locked data).Ok b₀ := by
  unfold State.regWrite; try dsimp -proj only
  repeat' (first | with_reducible assumption | intro _ | with_reducible apply State.foldl_ok | with_reducible apply State.foldl_pok | with_reducible apply State.doorbell_ok | with_reducible apply State.writeRow_ok | with_reducible apply State.pxDrop_ok | with_reducible apply State.pairWrite_ok | with_reducible apply State.setReg_ok | with_reducible apply State.pendWrite_ok | with_reducible apply State.vecPendWrite_ok | with_reducible apply State.afterWrite_ok | with_reducible apply State.ite_ok | with_reducible apply State.fst_of | split | with_reducible apply State.mk_pok)

theorem execRegisterWrite_runs {b₀ : State} (addr : BitVec 23) (a : RpAcc) (s : State) (hs : s.Ok b₀) : Runs b₀ (execRegisterWrite addr a s) := by
  unfold execRegisterWrite; try dsimp -proj only
  repeat' (first | with_reducible assumption | intro _ | with_reducible apply State.foldl_ok | with_reducible apply State.foldl_pok | with_reducible apply runs_done | with_reducible apply runs_idle | with_reducible apply runs_ite | with_reducible apply runs_next | with_reducible apply State.portWrite_ok | with_reducible apply State.regWrite_ok | with_reducible apply State.ite_ok | with_reducible apply State.ite_pok | with_reducible apply State.fst_of | split | with_reducible apply State.mk_pok)

end Sys2Proof.Machine
end

