-- ==== Sys2Proof/Laws/Pins.lean ====
section
/-! SUPPORT. The commands that change what Laws/Ok.lean keeps: the pins, the fuses and the test port. Each of them answers a
next state in its canonical form, with the build and the queue as they were, and of a key, a time and a test port that the
lemma names. -/
namespace Sys2Proof.Machine
open Sys2Proof

/-- The canonical form says nothing about the pins, the fuses, the test port or the time. -/
theorem State.modPins_ok (s : State) (f : Pins → Pins) (h : s.canon = true) : (s.modPins f).Ok (s.modPins f) := State.ok_self h
theorem State.modFuse_ok (s : State) (f : Fuse → Fuse) (h : s.canon = true) : (s.modFuse f).Ok (s.modFuse f) := State.ok_self h

theorem State.presets_ok {b : State} (s : State) (h : s.Ok b) : s.presets.Ok b :=
  State.foldl_ok _ (State.setReg_ok _ _ _ (State.modScrub_ok _ _ h)) (fun _ _ ht => State.preset_ok _ _ ht)

/-- A command answers a next state that keeps the build, the queue, the time and the test port, and has the given key. -/
def Goes (s : State) (k : Option (BitVec 256)) (o : Out) : Prop :=
  ∃ t, o = .next t ∧ t.canon = true ∧ t.build = s.build ∧ t.pending = s.pending ∧ t.time = s.time ∧ t.tap = s.tap ∧ t.fuse.kek = k

theorem goes_of {s b t : State} {k : Option (BitVec 256)} (h : t.Ok b) (hb : b.build = s.build) (hq : b.pending = s.pending)
    (ht : b.time = s.time) (hp : b.tap = s.tap) (hk : b.fuse.kek = k) : Goes s k (.next t) := by
  obtain ⟨⟨h1, h2, h3, h4, h5, h6⟩, h7⟩ := h
  exact ⟨t, rfl, h7, h1.trans hb, h2.trans hq, h6.trans ht, h5.trans hp, by rw [h4, hk]⟩
/-- A command that keeps the pins, the fuses, the time and the test port goes on with the key it finds. -/
theorem goes_of_runs {s : State} {o : Out} (h : Runs s o) : Goes s s.fuse.kek o := by
  obtain ⟨t, rfl, ht⟩ := h
  exact goes_of ht rfl rfl rfl rfl rfl
theorem goes_idle {s : State} (h : s.canon = true) : Goes s s.fuse.kek (idle s) := goes_of (State.ok_self h) rfl rfl rfl rfl rfl
theorem goes_ite {s : State} {k : Option (BitVec 256)} {o o' : Out} {p : Prop} [Decidable p] (h : Goes s k o) (h' : Goes s k o') :
    Goes s k (if p then o else o') := by split <;> assumption

/-- Settling keeps `Ok` of the new state. -/
theorem settle_new {b : State} (s t : State) (h : t.Ok b) : (settle s t).Ok b := by
  unfold settle
  exact State.ite_ok (State.rest_ok _ h) (State.latch_ok _ _ (State.rest_ok _ h))

theorem State.canon_of {s t : State} (h : s.canon = true) (hr : t.regs = []) (hi : t.images = []) (hs : t.store = s.store)
    (hc : t.clusters = []) (hl : t.lanes = []) (hg : t.regions = []) (hm : t.cmds = []) (hb : t.slabs = []) (hp : t.ports = [])
    (hn : t.channels = []) (ht : t.ticks = []) (hd : t.draws = []) (hq : t.rings = []) (ha : t.pairing = []) : t.canon = true := by
  simp only [State.canon, Bool.and_eq_true] at h ⊢
  have hw := h.1.1.1.1.1.1.1.1.1.1.1.2
  rw [hr, hi, hs, hc, hl, hg, hm, hb, hp, hn, ht, hd, hq, ha]
  simp only [Tab.wf_nil, hw, and_self]

/-- COLD_RESET_ASSERT keeps the build, the queue and host memory, and clears the rest. -/
theorem execColdResetAssert_goes (s : State) (h : s.canon = true) :
    ∃ t, execColdResetAssert s = .next t ∧ t.canon = true ∧ t.build = s.build ∧ t.pending = s.pending := by
  refine ⟨s.coldScope, rfl, ?_, rfl, rfl⟩
  unfold State.coldScope; dsimp -proj only
  refine (State.initQuota_ok _ (State.ok_self ?_)).2
  refine State.canon_of h ?_ ?_ ?_ ?_ ?_ ?_ ?_ ?_ ?_ ?_ ?_ ?_ ?_ ?_ <;> rfl

theorem execColdResetRelease_goes (s : State) (h : s.canon = true) : Goes s s.fuse.kek (execColdResetRelease s) := by
  unfold execColdResetRelease
  apply goes_ite _ (goes_idle h)
  exact goes_of (State.setReg_ok _ _ _ (State.modFuse_ok (s.modPins _) _ h)) rfl rfl rfl rfl rfl

theorem State.fuseEnd_goes (s : State) (f : Bool) (h : s.canon = true) : Goes s s.fuse.kek (.next (s.fuseEnd f)) :=
  goes_of (State.presets_ok _ (State.modFuse_ok s _ h)) rfl rfl rfl rfl rfl
theorem State.fuseRetry_goes (s : State) (h : s.canon = true) : Goes s s.fuse.kek (.next s.fuseRetry) := by
  unfold State.fuseRetry
  split
  · exact State.fuseEnd_goes s _ h
  · exact goes_of (State.modFuse_ok s _ h) rfl rfl rfl rfl rfl
theorem execFuseAckTimeout_goes (s : State) (h : s.canon = true) : Goes s s.fuse.kek (execFuseAckTimeout s) := by
  unfold execFuseAckTimeout
  exact goes_ite (State.fuseRetry_goes s h) (goes_idle h)
theorem execFuseAck_goes (data : Word) (par : BitVec 4) (s : State) (h : s.canon = true) :
    Goes s s.fuse.kek (execFuseAck data par s) := by
  unfold execFuseAck; dsimp -proj only
  refine goes_ite (goes_ite ?_ (State.fuseRetry_goes s h)) (goes_idle h)
  have h1 := (State.setReg_ok s (Reg.CHAR_ROW + 4 * s.fuse.addr) data (State.ok_self h)).2
  split
  · exact goes_of (State.presets_ok _ (State.modFuse_ok (State.modFuse _ _) _ h1)) rfl rfl rfl rfl rfl
  · exact goes_of (State.modFuse_ok _ _ h1) rfl rfl rfl rfl rfl

theorem execWarmResetAssert_goes (w : Bool) (s : State) (h : s.canon = true) : Goes s s.fuse.kek (execWarmResetAssert w s) := by
  have h1 := State.modPins_ok s (fun p => { p with warmLow := true }) h
  unfold execWarmResetAssert; dsimp -proj only
  refine goes_ite (goes_of h1 rfl rfl rfl rfl rfl) (goes_ite ?_ (goes_ite ?_ (goes_ite ?_ ?_)))
  · exact goes_of (State.modGlb_ok _ _ h1) rfl rfl rfl rfl rfl
  · exact goes_of (State.orReg_ok _ _ _ (State.modGlb_ok _ _ (State.failReset_ok _ (State.countFailure_ok _ _ h1)))) rfl rfl rfl rfl rfl
  · exact goes_of (State.modGlb_ok _ _ (State.applyWarm_ok _ h1)) rfl rfl rfl rfl rfl
  · exact goes_of (State.applyWarm_ok _ h1) rfl rfl rfl rfl rfl
theorem execWarmResetRelease_goes (f : List LaneFound) (c : List SealCopy) (s : State) (h : s.canon = true) :
    Goes s s.fuse.kek (execWarmResetRelease f c s) := by
  have h1 := State.modPins_ok s (fun p => { p with warmLow := false }) h
  unfold execWarmResetRelease; dsimp -proj only
  refine goes_ite (goes_ite ?_ (goes_of h1 rfl rfl rfl rfl rfl)) (goes_idle h)
  have h2 := State.presets_ok _ (State.modGlb_ok _ (fun g => { g with warmDeferred := false }) h1)
  exact goes_of (settle_new _ _ (State.ite_ok (State.restart_ok _ _ _ h2) (State.enterOpening_ok _ h2))) rfl rfl rfl rfl rfl
theorem execKekSample_goes (data : BitVec 256) (par : BitVec 32) (s : State) (h : s.canon = true) :
    Goes s (if s.alive ∧ s.fuse.kek = none ∧ parOk 32 data par then some data else s.fuse.kek) (execKekSample data par s) := by
  unfold execKekSample
  split
  · exact goes_of (State.modFuse_ok s _ h) rfl rfl rfl rfl rfl
  · exact goes_idle h
theorem execHoldupOkChange_goes (level : Bool) (s : State) (h : s.canon = true) : Goes s s.fuse.kek (execHoldupOkChange level s) := by
  have h1 := State.modPins_ok s (fun p => { p with holdup := level }) h
  unfold execHoldupOkChange; dsimp -proj only
  exact goes_ite (goes_of (settle_new _ _ (State.ite_ok (State.sealKick_ok _ (State.mediaRoom_ok _ _ h1)) h1)) rfl rfl rfl rfl rfl) (goes_idle h)
theorem execScanModeRise_goes (s : State) (h : s.canon = true) :
    Goes s (if s.pins.scan = .mission then none else s.fuse.kek) (execScanModeRise s) := by
  unfold execScanModeRise; dsimp -proj only
  split
  · have h1 : (if s.glb.mode = .reset then s else s.toMode .reset).Ok s := State.ite_ok (State.ok_self h) (State.toMode_ok _ _ (State.ok_self h))
    generalize (if s.glb.mode = .reset then s else s.toMode .reset) = s1 at h1
    have h2 : State.Ok { s1 with slabs := [] } s := by
      with_reducible apply State.mk_ok
      all_goals first | exact h1 | exact fun h => h | exact fun _ => Tab.wf_nil _
    exact ⟨_, rfl, h2.2, h2.1.1, h2.1.2.1, h2.1.2.2.2.2.2, h2.1.2.2.2.2.1, rfl⟩
  · exact goes_of (State.modPins_ok s _ h) rfl rfl rfl rfl rfl
theorem execScanModeFall_goes (s : State) (h : s.canon = true) : Goes s s.fuse.kek (execScanModeFall s) := by
  unfold execScanModeFall
  exact goes_ite (goes_of (State.modPins_ok s _ h) rfl rfl rfl rfl rfl) (goes_idle h)
theorem execThermCodeUpdate_goes (c d : BitVec 10) (s : State) (h : s.canon = true) :
    Goes s s.fuse.kek (execThermCodeUpdate c d s) := by
  have h1 := State.modPins_ok s (fun p => { p with therm0 := c, therm1 := d }) h
  unfold execThermCodeUpdate; dsimp -proj only
  refine goes_ite (goes_ite (goes_of h1 rfl rfl rfl rfl rfl) ?_) (goes_idle h)
  have h2 := State.ite_ok (p := 580 ≤ c.toNat ∨ s.nRegions = 2 ∧ 580 ≤ d.toNat) (State.wakeBlock_ok _ h1) h1
  exact goes_of (settle_new _ _ (State.ite_ok h2 (State.evalCrit_ok _ (State.keepMax_ok _ h2)))) rfl rfl rfl rfl rfl
theorem execMillisecondEdge_goes (meas cap : BitVec 16) (s : State) (h : s.canon = true) :
    Goes s s.fuse.kek (execMillisecondEdge meas cap s) := by
  have h1 := State.modPins_ok s (fun p => { p with capReq := cap, edge0 := p.therm0, edge1 := p.therm1 }) h
  unfold execMillisecondEdge; dsimp -proj only
  refine goes_ite (goes_ite ?_ (goes_of (State.countHot_ok _ h1) rfl rfl rfl rfl rfl)) (goes_idle h)
  have h2 := State.evalWarn_ok _ (State.reconcile_ok _ meas h1)
  have h3 := State.ite_ok (p := s.serving) (State.thriftEdge_ok _ h2) h2
  exact goes_of (settle_new _ _ (State.ite_ok (State.foldl_ok _ h3 (fun _ _ ht => State.tempTrigger_ok _ _ ht)) h3)) rfl rfl rfl rfl rfl

end Sys2Proof.Machine
end

