-- ==== Sys2Proof/Tests/Slice0.lean ====
section
/-! SUPPORT. Own tests: ill-formed commands are refused by WellFormed; each statement's hypotheses are met by a concrete
state, clause by clause; single steps with results worked out from the spec. -/
namespace Sys2Proof.Tests
open Sys2Proof Sys2Proof.Machine
set_option Elab.async false

/-! ### Helper states -/

/-- A write's signals of requester 1 with the right parity. -/
def acc (d : Word) : RpAcc := { id := 1, data := d, par := wordPar d }
/-- A state with registers set to given values. -/
def poke (s : State) (l : List (Nat × Word)) : State := l.foldl (fun t e => t.setReg e.1 e.2) s
/-- Out of reset, in the given mode and phase, owned by requester 1 at level 0. -/
def mode (m : Mode) (p : Phase) : State :=
  { State.reset with
    build := { lanes := 128, patch := 0, idcode := 1 }
    fuse := { State.reset.fuse with request := false, done := true }
    glb := { Glb.init with mode := m, phase := p, owner := some 1, level := some 0 } }
/-- SERVICE with nothing enabled. -/
def svc : State := mode .service .none
/-- SERVICE with lane 0 enabled, four LUNs of four planes on target 0, and the Quill of cluster 0 and the Scribe running. -/
def one : State :=
  poke { svc with
    lanes := [(0, { Lane.init with enabled := true })]
    clusters := [(0, { Cluster.init with quill := { Core.init with state := .running } })]
    scribe := { Core.init with state := .running } }
    [(lnA 0 Reg.LN_GEOM0, 0x109003FF#32), (lnA 0 Reg.LN_GEOM1, 0x00000100#32), (lnA 0 Reg.LN_TGT_PRESENT, 1)]
/-- OPENING in the given phase. -/
def opn (p : Phase) : State := mode .opening p
/-- The expert area open on every page: the unlock open and the page's CTL set. -/
def expertOf (s : State) (page : Nat) : State :=
  ({ s with glb := { s.glb with unlock := .open } } : State).setReg (page + 8) 1
/-- Words laid in the store from a byte address on. -/
def lay (s : State) (at_ : Nat) (ws : List Word) : State :=
  { s with store := (leBytes (4 * ws.length) (leWords ws)).zipIdx.foldl (fun t e => Tab.setD (fun _ => 0) t (at_ + e.2) e.1) s.store }
/-- The Context Cache enabled, with some lines of the store, clean or as spoiled says. -/
def linesOf (s : State) (tags : List Nat) (f : Line → Line) : State := s.modCache (fun c =>
  { c with st := .enabled, ways := tags.map (fun t => (t % 2048 * 16, some (f (freshLine t (s.hostBeat (s.lineAddr t)) false)))) })
/-- The cache holds some lines. -/
def cached (s : State) (tags : List Nat) : State := linesOf s tags id
/-- The cache holds some lines, all poisoned: a lookup of one is STORE_ERR. -/
def spoiled (s : State) (tags : List Nat) : State := linesOf s tags (fun l => { l with poison := true })
/-- Nothing is wanted of the cache after an effect. -/
def allThere (s : State) : Bool := s.cache.wanted.isNone
/-- The same with 64 MB of store: ring contexts at 0, defect bitmaps at 16 MB, frontier tables at 48 MB. -/
def mem : State := poke one [(Reg.CC_SIZE, 0x40#32), (Reg.DF_BASE, 0x01000000#32), (Reg.DF_FR_BASE, 0x03000000#32)]

/-! ### Well-formedness: an ill-formed command for each check -/

/-- One LUN of a parameter page. -/
def lunp : LunParam :=
  { dataBytes := 16384, spareBytes := 2304, pagesPerBlock := 1024, blocksPerLun := 8192, luns := 4, addrCycles := 0x23, bitsPerCell := 3, badMax := 40, planeBits := 2, freeBlock := false }
/-- A whole trial. -/
def trial : Trial := { dccOk := true, rx := List.replicate 32 (some (10, 30)), tx := List.replicate 8 (some (5, 25)), crcOk := true, dqs := 0 }
/-- A target with one LUN. -/
def target0 : TargetFound := { target := 0, luns := [[{ crcOk := true, body := .jesd230 lunp }]], modes := [], cpByte := none }
/-- Lane 0 with one target and one trial. -/
def lane0 : LaneFound := { lane := 0, targets := [target0], trials := [trial], restored := none }
/-- A blank seal copy of region 0. -/
def copy0 : SealCopy := { region := 0, frames := [] }
/-- A lookup that loads 64 bytes. -/
def load64 : CcLookup := loadQ unitTenants 64

theorem test_wf_train : (Instr.trainPhase [lane0]).wellFormed = true := by decide +kernel
theorem test_ill_rx : (Instr.trainPhase [{ lane0 with trials := [{ trial with rx := [] }] }]).wellFormed = false := by decide +kernel
theorem test_ill_tx : (Instr.retrainRun 0 [{ trial with tx := [] }]).wellFormed = false := by decide +kernel
theorem test_ill_eye : (Instr.retrainRun 0 [{ trial with tx := List.replicate 8 (some (9, 8)) }]).wellFormed = false := by decide +kernel
theorem test_ill_no_lun : (Instr.trainPhase [{ lane0 with targets := [{ target0 with luns := [] }] }]).wellFormed = false := by decide +kernel
theorem test_ill_five_luns : (Instr.trainPhase [{ lane0 with targets := [{ target0 with luns := List.replicate 5 [] }] }]).wellFormed = false := by
  decide +kernel
theorem test_ill_target_twice : (Instr.trainPhase [{ lane0 with targets := [target0, target0] }]).wellFormed = false := by decide +kernel
theorem test_ill_lane_twice : (Instr.trainPhase [lane0, lane0]).wellFormed = false := by decide +kernel
theorem test_ill_copy_frames : (Instr.sealPhase [{ copy0 with frames := List.replicate 33 0 }]).wellFormed = false := by decide +kernel
theorem test_ill_copy_twice : (Instr.sealPhase [copy0, copy0]).wellFormed = false := by decide +kernel
theorem test_ill_restart_lane : (Instr.openingRestart [lane0, lane0] []).wellFormed = false := by decide +kernel
theorem test_ill_restart_trial : (Instr.openingRestart [{ lane0 with trials := [{ trial with rx := [] }] }] []).wellFormed = false := by decide +kernel
theorem test_ill_release_copy : (Instr.warmResetRelease [] [copy0, copy0]).wellFormed = false := by decide +kernel
theorem test_ill_release_frames : (Instr.warmResetRelease [] [{ copy0 with frames := List.replicate 33 0 }]).wellFormed = false := by decide +kernel
theorem test_ill_marker_twice : (Instr.defectPhase [{ die := 0, entry := 0, page := 0, byte := 0 }, { die := 0, entry := 0, page := 0, byte := 255 }] .clean).wellFormed = false := by decide +kernel
theorem test_ill_mismatches : (Instr.calRunStep 0 [0, 0, 0] false).wellFormed = false := by decide +kernel
theorem test_ill_dout_frames : (Instr.elDout 0 (List.replicate 33 0) [] []).wellFormed = false := by decide +kernel
theorem test_ill_dout_raw : (Instr.elDout 0 [] (List.replicate 65536 0) []).wellFormed = false := by decide +kernel
theorem test_wf_lookup_edge : (Instr.ccLookup 64 load64 .clean).wellFormed = true := by decide +kernel
theorem test_ill_lookup_crosses : (Instr.ccLookup 65 load64 .clean).wellFormed = false := by decide +kernel
theorem test_ill_lookup_empty : (Instr.ccLookup 0 { load64 with len := 0 } .clean).wellFormed = false := by decide +kernel
theorem test_ill_lookup_bytes : (Instr.ccLookup 0 { load64 with bytes := [0] } .clean).wellFormed = false := by decide +kernel

/-! ### Witnesses: the step and the register port -/

theorem wit_StepRunsFront : ({ svc with pending := [.bypass 0xF#4] } : State).pending = .bypass 0xF#4 :: [] := by decide +kernel
theorem wit_StepIdleTicks : State.reset.canon = true ∧ State.reset.pending = [] := by decide +kernel
theorem wit_StepKeepsCanon : ∃ t, step one = .next t ∧ one.canon = true :=
  ⟨_, rfl, by decide +kernel⟩
theorem wit_StepNeverStops : ({ one with pending := [.bypass 0xF#4] } : State).canon = true := by decide +kernel
/-- A state with a command waiting. -/
def pend (s : State) (c : Instr) : State := { s with pending := [c] }
theorem wit_KekKept : ∃ d p t, parOk 32 d p = true ∧ (pend svc (.kekSample d p)).canon = true ∧ step (pend svc (.kekSample d p)) = .next t ∧
    t.fuse.kek ≠ svc.fuse.kek := by
  refine ⟨0, 0, _, ?_, ?_, rfl, ?_⟩ <;> decide +kernel
theorem wit_KekKept_cold : ∃ t, step { pend svc .coldResetAssert with fuse := { svc.fuse with kek := some 5 } } = .next t ∧ t.fuse.kek ≠ some 5 :=
  ⟨_, rfl, by decide +kernel⟩
theorem wit_KekKept_scan : ∃ t, step { pend svc .scanModeRise with fuse := { svc.fuse with kek := some 5 } } = .next t ∧ t.fuse.kek ≠ some 5 :=
  ⟨_, rfl, by decide +kernel⟩
theorem wit_TimeAndTapKept_idle : ∃ t, step svc = .next t ∧ t.time ≠ svc.time := ⟨_, rfl, by decide +kernel⟩
theorem wit_TimeAndTapKept_tap : ∃ t, step (pend svc .highz) = .next t ∧ t.tap ≠ svc.tap := ⟨_, rfl, by decide +kernel⟩

theorem wit_AccessInReset : State.reset.pins.scan = .mission ∧ State.reset.pins.pwrLow = false ∧ State.reset.glb.mode = .reset ∧
    writeOf (.registerWrite 0xC040 (acc 1)) = some (0xC040, acc 1) ∧
    ¬ ((0xC040 : Nat) = Reg.GLB_RELEASE ∨ 0xC040 = Reg.GLB_BUILD ∨ 0xC040 = Reg.GLB_MODE ∨ ((0xC040 : Nat) / 0x1000 = 1 ∧ 0xC040 % 4 = 0)) ∧
    ((0x1000 : Nat) / 0x1000 = 1 ∧ 0x1000 % 4 = 0) := by decide +kernel
theorem wit_AccessFaults : svc.pins.scan = .mission ∧ svc.pins.pwrLow = false ∧ svc.portReset = false ∧
    ((0x41 : Nat) % 4 ≠ 0) ∧ (wordPar (acc 1).data ≠ 0) ∧ (svc.portBegin 0x2000).mayWrite 0x2000 2 = false ∧
    (0x2000 % 4 = 0 ∧ wordPar (acc 1).data = (acc 1).par ∧ (svc.portBegin 0x2000).mayWrite 0x2000 (acc 1).id = true) ∧
    (svc.portBegin 0x2000).mayRead 0x2000 2 = false ∧ (svc.portBegin 0x1FFC).mayRead 0x1FFC 2 = true := by decide +kernel
/-- A build of 64 lanes. -/
def small : State := { svc with build := { lanes := 64, patch := 0, idcode := 1 } }
/-- Cluster 0 dozed. -/
def dozed0 : State := { svc with clusters := [(0, { Cluster.init with dozed := true })] }
theorem wit_WriteOrders : small.portReset = false ∧ (small.portBegin (clA 8 8)).portFault (clA 8 8) true (acc 0) = none ∧
    (small.accepting (clA 8 8) (acc 0)).absent (clA 8 8) = true ∧ (pageKind (clA 8 8)) ≠ .reserved ∧
    (dozed0.accepting (clA 0 8) (acc 0)).absent (clA 0 8) = false ∧ (dozed0.accepting (clA 0 8) (acc 0)).dozedPage (clA 0 8) = true ∧
    (svc.accepting 0xF400 (acc 0)).absent 0xF400 = false ∧ (svc.accepting 0xF400 (acc 0)).dozedPage 0xF400 = false ∧
    (svc.accepting 0xF400 (acc 0)).lockApplies 0xF400 = false ∧ (svc.accepting 0xF400 (acc 0)).expertApplies 0xF400 = true := by decide +kernel
theorem wit_RegisterWritePlain : plainWrite Reg.BL_ACK 5 = true ∧ (svc.accepting Reg.BL_ACK (acc 5)).writeShut Reg.BL_ACK = false ∧
    svc.accepts Reg.BL_ACK (acc 5) = true := by decide +kernel
/-- The page of BL_ACK locked. -/
def locked : State := svc.setReg (pageBase Reg.BL_CFG + 0xFF0) 1
theorem wit_RegisterWritePlain_locked : plainWrite Reg.BL_CFG 1 = true ∧ (locked.portBegin Reg.BL_CFG).portFault Reg.BL_CFG true (acc 1) = none ∧
    (locked.accepting Reg.BL_CFG (acc 1)).absent Reg.BL_CFG = false ∧ (locked.accepting Reg.BL_CFG (acc 1)).dozedPage Reg.BL_CFG = false ∧
    (locked.accepting Reg.BL_CFG (acc 1)).lockApplies Reg.BL_CFG = true ∧
    ((locked.accepting Reg.BL_CFG (acc 1)).countDrop 1 Reg.BL_CFG).writeShut Reg.BL_CFG = false := by decide +kernel
theorem wit_RegisterWriteSpecial : svc.accepts Reg.TN_CMD (acc 1) = true ∧ ownWrite Reg.TN_CMD 1 = true ∧
    svc.accepts Reg.MV_CFG (acc 1) = true ∧ (svc.accepting Reg.MV_CFG (acc 1)).writeShut Reg.MV_CFG = true ∧
    svc.accepts Reg.KY_WRAP (acc 1) = true ∧ svc.accepts (Reg.KY_WRAP + 68) (acc 1) = true ∧
    svc.accepts Reg.SG_PEND (acc 1) = true ∧ svc.accepts (Reg.SG_FPEND + 12) (acc 1) = true := by decide +kernel
theorem wit_RegisterWriteSpecial_px : hasPerturb (pageKind 0x9F1C) = true ∧ 0xF00 ≤ 0x9F1C % 0x1000 ∧ 0x9F1C % 0x1000 < 0xF20 ∧ 0x9F1C % 8 = 4 ∧
    svc.accepts 0x9F1C (acc 1) = true ∧ (svc.accepting 0x9F1C (acc 1)).glb.pbOpen = false := by decide +kernel
/-- AWAIT_IMAGES for 1 ms, GLB_OPEN_TIMEOUT written with n ms. -/
def lateBy (n : Word) : State :=
  (({ opn .awaitImages with time := 100000 } : State).accepting Reg.GLB_OPEN_TIMEOUT (acc n)).writeRow Reg.GLB_OPEN_TIMEOUT false n
theorem wit_RegisterWriteSpecial_timeout : (opn .awaitImages).accepts Reg.GLB_OPEN_TIMEOUT (acc 1) = true ∧
    ((opn .awaitImages).accepting Reg.GLB_OPEN_TIMEOUT (acc 1)).lockApplies Reg.GLB_OPEN_TIMEOUT = false ∧ (lateBy 1).imagesLate = true ∧
    (lateBy 2).imagesLate = false := by decide +kernel
theorem wit_RcRead : svc.portReset = false ∧ (svc.portBegin 0x2000).mayRead 0x2000 1 = true ∧ (small.portBegin (clA 8 0)).absent (clA 8 0) = true ∧
    (dozed0.portBegin (clA 0 0)).dozedPage (clA 0 0) = true ∧ (svc.portBegin (clA 0 0)).dozedPage (clA 0 0) = false := by decide +kernel

/-! ### Witnesses: pins, resets and the test port -/

/-- The cold reset held. -/
def cold : State := { State.reset with pins := { State.reset.pins with pwrLow := true } }
/-- A row whose CRC and format are right: format 1 in word 0, twelve in the count field of word 3, the CRC in word 63. -/
def goodRow : State :=
  poke { State.reset with fuse := { State.reset.fuse with request := false, done := true } }
    [(Reg.CHAR_ROW, 0x00010000#32), (Reg.CHAR_ROW + 12, 0x00003001#32), (Reg.CHAR_ROW + 252, 4098397184#32)]
/-- The bytes of its first four words. -/
def rowHead : List Nat := [0, 0, 1, 0, 0, 0, 0, 0, 0, 0, 0, 0, 1, 0x30, 0, 0]
/-- The CRC's register over some bytes. -/
def crcOver (c : Nat) (l : List Nat) : Nat := l.foldl (fun c b => crcBits 8 (c ^^^ b)) c
theorem crcOver_append {a b c : Nat} {l m : List Nat} (h : crcOver a l = b) (k : crcOver b m = c) : crcOver a (l ++ m) = c := by
  subst h; subst k; exact List.foldl_append
/-- The remaining 236 bytes, zero, in blocks of 16. -/
def rowTail : List Nat := List.replicate 16 0 ++ (List.replicate 16 0 ++ (List.replicate 16 0 ++ (List.replicate 16 0 ++ (List.replicate 16 0 ++ (List.replicate 16 0 ++ (List.replicate 16 0 ++ (List.replicate 16 0 ++ (List.replicate 16 0 ++ (List.replicate 16 0 ++ (List.replicate 16 0 ++ (List.replicate 16 0 ++ (List.replicate 16 0 ++ (List.replicate 16 0 ++ List.replicate 12 0)))))))))))))
theorem row_crc : crcOver 0xFFFFFFFF (rowHead ++ rowTail) = 196570111 := by
  refine crcOver_append (b := 2771065973) (by decide +kernel) ?_
  refine crcOver_append (b := 2237541933) (by decide +kernel) ?_
  refine crcOver_append (b := 2625474402) (by decide +kernel) ?_
  refine crcOver_append (b := 4103915760) (by decide +kernel) ?_
  refine crcOver_append (b := 3091548725) (by decide +kernel) ?_
  refine crcOver_append (b := 3062768362) (by decide +kernel) ?_
  refine crcOver_append (b := 3624630080) (by decide +kernel) ?_
  refine crcOver_append (b := 2462412015) (by decide +kernel) ?_
  refine crcOver_append (b := 3267347263) (by decide +kernel) ?_
  refine crcOver_append (b := 1755873773) (by decide +kernel) ?_
  refine crcOver_append (b := 698746763) (by decide +kernel) ?_
  refine crcOver_append (b := 1859675237) (by decide +kernel) ?_
  refine crcOver_append (b := 2148045634) (by decide +kernel) ?_
  refine crcOver_append (b := 3961530797) (by decide +kernel) ?_
  refine crcOver_append (b := 1258216375) (by decide +kernel) ?_
  decide +kernel
/-- What the row check asks, word by word. -/
theorem rowOk {s : State} {l : List Nat} (e : (List.range 63).flatMap (fun k => natBytes 4 (s.regAt (Reg.CHAR_ROW + 4 * k)).toNat) = l)
    (h : crc32c l = (s.regAt (Reg.CHAR_ROW + 4 * 63)).toNat) (h0 : s.regAt (Reg.CHAR_ROW + 4 * 0) = 0x00010000#32)
    (h3 : s.regAt (Reg.CHAR_ROW + 4 * 3) = 0x00003001#32) (h60 : s.regAt (Reg.CHAR_ROW + 4 * 60) = 0) (h61 : s.regAt (Reg.CHAR_ROW + 4 * 61) = 0)
    (h62 : s.regAt (Reg.CHAR_ROW + 4 * 62) = 0) : s.charRowOk = true := by
  subst e
  unfold State.charRowOk
  simp only [decide_eq_true_eq, h, h0, h3, h60, h61, h62]
  decide
theorem rowBad {s : State} (h0 : s.regAt (Reg.CHAR_ROW + 4 * 0) ≠ 0x00010000#32) : s.charRowOk = false := by
  unfold State.charRowOk
  simp only [decide_eq_false_iff_not]
  exact fun h => h0 h.2.1
theorem good_crc : crc32c (rowHead ++ rowTail) = 4098397184 := by
  have c (l : List Nat) : crc32c l = crcOver 0xFFFFFFFF l ^^^ 0xFFFFFFFF := rfl
  rw [c, row_crc]
  decide
theorem goodRow_ok : goodRow.charRowOk = true :=
  rowOk (l := rowHead ++ rowTail) (by decide +kernel) (good_crc.trans (by decide +kernel)) (by decide +kernel) (by decide +kernel) (by decide +kernel)
    (by decide +kernel) (by decide +kernel)
/-- The row check looks at registers alone. -/
theorem rowOk_of_regs {s t : State} (h : s.regs = t.regs) (k : t.charRowOk = true) : s.charRowOk = true := by
  rw [← k]; unfold State.charRowOk State.regAt; rw [h]
theorem wit_ColdReset : cold.pins.pwrLow = true ∧ cold.pins.scan = .mission ∧ goodRow.alive = true ∧ goodRow.pins.warmLow = false ∧
    goodRow.fuse.done = true ∧ goodRow.glb.mode = .reset ∧ goodRow.glb.prevMode = .reset ∧ goodRow.fuse.failed = false ∧ goodRow.charRowOk = true :=
  ⟨by decide +kernel, by decide +kernel, by decide +kernel, by decide +kernel, by decide +kernel, by decide +kernel, by decide +kernel, by decide +kernel,
    goodRow_ok⟩
theorem wit_ColdReset_bad : ({ State.reset with fuse := { State.reset.fuse with done := true } } : State).charRowOk = false :=
  rowBad (by decide +kernel)
theorem wit_FuseLoad : State.reset.alive = true ∧ State.reset.fuse.request = true ∧ wordPar 3 = wordPar 3 ∧ wordPar 3 ≠ wordPar 1 ∧
    ({ State.reset with fuse := { State.reset.fuse with addr := 63 } } : State).fuse.addr = 63 ∧ State.reset.fuse.tries < 2 ∧
    2 ≤ ({ State.reset with fuse := { State.reset.fuse with tries := 2 } } : State).fuse.tries := by decide +kernel
theorem wit_WarmReset : svc.canon = true ∧ svc.alive = true ∧ svc.running = true ∧ (mode .endgame .none).glb.mode = .endgame ∧
    (opn .awaitImages).alive = true ∧ (opn .awaitImages).glb.mode = .opening := by decide +kernel
/-- In RESET after a failure, its restart waiting, and after one that a warm reset has taken over at COUNT n. -/
def counted (n : Nat) : State :=
  { mode .reset .none with
    pins := { svc.pins with warmLow := true }
    glb := { (mode .reset .none).glb with resetCounted := true, bootCount := n } }
theorem wit_WarmReset_held : cold.alive = false ∧ (mode .endgame .none).alive = true ∧ svc.glb.mode ≠ .reset ∧ (mode .reset .none).alive = true ∧
    (mode .reset .none).glb.mode = .reset ∧ (counted 3).pins.warmLow = true ∧ (counted 3).alive = true ∧ (counted 3).fuse.done = true ∧
    (counted 3).glb.mode = .reset ∧ (counted 3).glb.resetCounted = true ∧ (counted 3).glb.bootCount = 3 ∧ (counted 2).glb.bootCount < 3 ∧
    ({ svc with glb := { svc.glb with warmDeferred := true } } : State).glb.warmDeferred = true ∧ svc.glb.mode ≠ .reset ∧
    ({ counted 0 with fuse := { svc.fuse with done := false } } : State).fuse.done = false := by decide +kernel
/-- The warm reset held after its assertion, with the fuses loaded and no lane disabled by a fuse. -/
def warmed : State := { goodRow with pins := { goodRow.pins with warmLow := true } }
theorem warmed_ok : warmed.charRowOk = true := rowOk_of_regs (s := warmed) (t := goodRow) (by unfold warmed; rfl) goodRow_ok
theorem wit_WarmReset_release : warmed.pins.warmLow = true ∧ warmed.pins.pwrLow = false ∧ warmed.pins.scan = .mission ∧ warmed.glb.mode = .reset ∧
    warmed.fuse.done = true ∧ warmed.fuse.failed = false ∧ warmed.glb.resetCounted = false ∧
    ((List.range 64).all (fun k => decide (k < 36) || decide (60 ≤ k) || !bit (warmed.regAt (Reg.CHAR_ROW + 4 * k)) 31)) = true ∧
    warmed.charRowOk = true :=
  ⟨by decide +kernel, by decide +kernel, by decide +kernel, by decide +kernel, by decide +kernel, by decide +kernel, by decide +kernel, by decide +kernel,
    warmed_ok⟩
theorem wit_KeyScanAndTestPort : svc.alive = true ∧ svc.fuse.kek = none ∧ parOk 32 (0 : BitVec 256) (0 : BitVec 32) = true ∧
    parOk 32 (1 : BitVec 256) (0 : BitVec 32) = false ∧ svc.pins.scan = .mission ∧
    ({ svc with pins := { svc.pins with scan := .shifting } } : State).pins.scan = .shifting := by decide +kernel
theorem wit_PowerPins : svc.alive = true ∧ svc.running = true ∧ (opn .measure).alive = true ∧ (opn .measure).glb.mode = .opening ∧
    (mode .reset .none).alive = true ∧ (mode .reset .none).glb.mode = .reset ∧ (mode .endgame .none).alive = true ∧
    (mode .endgame .none).glb.mode = .endgame ∧ svc.canon = true ∧ cold.alive = false := by decide +kernel
/-- Therm pins of a state as the command would leave them. -/
def hot (c0 : BitVec 10) : State := ({ (svc.setReg Reg.THM_LEVELS 0x02000100) with pins := { svc.pins with therm0 := c0, therm1 := 0 } } : State).keepMax
theorem wit_ThermalAndMillisecond : svc.awake = true ∧ svc.pins.warmLow = false ∧ (hot 1022).atCrit = true ∧ (hot 0).atCrit = false ∧
    ((hot 0).codes.all (fun c => decide (c < (hot 0).critCode - (hot 0).thmHyst))) = true ∧ svc.running = true ∧ svc.serving = true ∧
    (mode .fallback .none).running = true ∧ (mode .fallback .none).serving = false ∧ svc.canon = true ∧
    (hot 511).atCrit = false ∧ ((hot 511).codes.all (fun c => decide (c < (hot 511).critCode - (hot 511).thmHyst))) = false ∧
    (opn .seal).awake = true ∧ (opn .seal).pins.warmLow = false ∧ (opn .seal).glb.mode = .opening := by decide +kernel

/-! ### Witnesses: the host ports -/

/-- A read of one beat for the Manager channel 32's descriptor. -/
def rd1 : HpReq := hpRead 0 32 (.descriptor 32) 0 0
/-- A write of one beat, an Endgame header. -/
def wr1 : HpReq := oneBeat 0 [] 1 .egHeader
/-- SERVICE with a port in the given state. -/
def withPort (q : Port) : State := { svc with ports := [(0, q)] }
/-- A port that presents a request on a tag. -/
def presenting (r : HpReq) (tag : Nat) : Port := { Port.init with queue := [r], rqTag := some tag }
/-- A transaction accepted at time 0. -/
def outOf (r : HpReq) : HpOut := { req := r, got := 0, at_ := 0, err := false }
theorem wit_HostPort_accept : (withPort (presenting rd1 0)).portsUp = true ∧ ((withPort (presenting rd1 0)).port 0).queue = rd1 :: [] ∧
    ((withPort (presenting rd1 0)).port 0).rqTag = some 0 ∧ ((withPort (presenting wr1 1)).port 0).rqTag = some 1 ∧
    ((withPort Port.init).port 0).rqTag = none := by decide +kernel
/-- A beat of zeros. -/
def beat0 : WBeat := wbeat 0 0
theorem wit_HostPort_beat : ((withPort { Port.init with wdata := [(3, [beat0, beat0])] }).port 0).wdata = (3, beat0 :: beat0 :: []) :: [] ∧
    ((withPort { Port.init with wdata := [(3, [beat0])], writes := [(3, some (outOf wr1))] }).port 0).wdata = (3, [beat0]) :: [] ∧
    ((withPort { Port.init with wdata := [(3, [beat0])], writes := [(3, some (outOf wr1))] }).port 0).outOn true 3 = some (outOf wr1) := by
  decide +kernel
/-- A read on tag 511 with its one beat to come. -/
def reading : State := withPort { Port.init with reads := [(511, some (outOf rd1))] }
/-- A write on tag 511, and one of class 1. -/
def writing : State := withPort { Port.init with writes := [(511, some (outOf wr1))] }
theorem wit_HostPort_read : reading.opportunity 0xF000 0 = (reading, []) ∧ parOk 128 (0 : Beat) (0 : BitVec 128) = true ∧
    (reading.port 0).outOn false 511 = some (outOf rd1) ∧ (outOf rd1).got + 1 = (outOf rd1).req.len := by decide +kernel
theorem wit_HostPort_status : writing.opportunity 0xF000 4 = (writing, []) ∧ (writing.port 0).outOn true 511 = some (outOf wr1) ∧
    (writing.port 0).outOn true 510 = none ∧ svc.opportunity 0xF000 4 = (svc, []) := by decide +kernel
theorem wit_HostPort_timeout : ({ writing.setReg Reg.GLB_HP_TIMEOUT 0 with time := 6401 } : State).hpLimit <
    ({ writing.setReg Reg.GLB_HP_TIMEOUT 0 with time := 6401 } : State).since (outOf wr1).at_ := by decide +kernel

/-! ### Witnesses: the Manager's registers -/

/-- Owner 1 with successor 2 enabled, or nobody. -/
def owned (o : Option (BitVec 8)) : State := { svc with glb := { svc.glb with owner := o, successor := 2, succEn := true } }
/-- Requester 2's write. -/
def acc2 (d : Word) : RpAcc := { acc d with id := 2 }
theorem wit_Ownership_claim : bit (acc 0x40000000#32).data 30 = true ∧ bit (acc 0x40000000#32).data 29 = false ∧
    (owned none).accepts Reg.GLB_MGR_OWNER (acc 0x40000000#32) = true ∧
    ((owned none).accepting Reg.GLB_MGR_OWNER (acc 0x40000000#32)).glb.owner = none ∧
    (owned (some 1)).accepts Reg.GLB_MGR_OWNER (acc2 0x40000000#32) = true ∧
    ((owned (some 1)).accepting Reg.GLB_MGR_OWNER (acc2 0x40000000#32)).glb.owner = some 1 ∧
    ((owned (some 1)).accepting Reg.GLB_MGR_OWNER (acc2 0x40000000#32)).glb.succEn = true ∧
    (acc2 0).id = ((owned (some 1)).accepting Reg.GLB_MGR_OWNER (acc2 0x40000000#32)).glb.successor ∧
    ¬ ((svc.accepting Reg.GLB_MGR_OWNER (acc2 0x40000000#32)).glb.succEn = true ∧
      (acc2 0).id = (svc.accepting Reg.GLB_MGR_OWNER (acc2 0x40000000#32)).glb.successor) := by decide +kernel
theorem wit_Ownership_release : bit (acc 0x20000000#32).data 29 = true ∧ bit (acc 0x20000000#32).data 30 = false ∧
    ((owned (some 1)).accepting Reg.GLB_MGR_OWNER (acc 0x20000000#32)).glb.owner = some (acc 0).id ∧ bit (acc 0x200#32).data 30 = false ∧
    bit (acc 0x200#32).data 29 = false ∧ ((owned (some 1)).accepting Reg.GLB_MGR_OWNER (acc2 0x200#32)).glb.owner ≠ some (acc2 0).id ∧
    bit (acc 0x60000000#32).data 30 = true ∧ bit (acc 0x60000000#32).data 29 = true := by decide +kernel
/-- An unlock in a given state, at a given level. -/
def unlocked (u : Unlock) (l : Option (Fin 3)) : State := { svc with glb := { svc.glb with unlock := u, level := l } }
theorem wit_ExpertUnlock : fld (acc 0x4E580000#32).data 31 16 = 0x4E58 ∧
    ((unlocked .closed (some 1)).accepting Reg.GLB_EXPERT_UNLOCK (acc 0x4E580000#32)).glb.level = some 1 ∧
    (unlocked .closed (some 1)).accepts Reg.GLB_EXPERT_UNLOCK (acc 0x4E580000#32) = true ∧
    ((unlocked .closed (some 2)).accepting Reg.GLB_EXPERT_UNLOCK (acc 0x4E580000#32)).glb.level = some 2 ∧
    ((unlocked .closed none).accepting Reg.GLB_EXPERT_UNLOCK (acc 0x4E580000#32)).glb.level = none ∧
    ((unlocked .armed (some 0)).accepting Reg.GLB_EXPERT_UNLOCK (acc 0xB1A70000#32)).glb.unlock = .armed ∧
    fld (acc 0xB1A70000#32).data 31 16 = 0xB1A7 ∧
    ((unlocked .open (some 0)).accepting Reg.GLB_EXPERT_UNLOCK (acc 0)).glb.unlock = .open ∧ fld (acc 0).data 31 16 = 0 ∧
    ((unlocked .armed (some 0)).portBegin Reg.BL_ACK).glb.unlock = .armed ∧
    ((unlocked .armed (some 0)).portBegin Reg.BL_ACK).glb.owner = some (acc 0).id ∧
    ¬ (Reg.BL_ACK = Reg.GLB_EXPERT_UNLOCK ∧ fld (acc 0).data 31 16 = 0xB1A7) := by decide +kernel
theorem wit_LocksAndClears : inPage 0xFF0 = true ∧ inPage (0x1000 * 2 + 0xFF0) = true ∧ pageKind (0x2000 + 0xFF0) ≠ .doorbell 0 ∧
    svc.accepts 0x2FF0 (acc 1) = true ∧ bit (acc 1).data 0 = true ∧ inPage 0x9020 = true ∧ bit (acc 0x80000000#32).data 31 = true ∧
    svc.accepts 0x9020 (acc 0x80000000#32) = true ∧ (svc.accepting 0x9020 (acc 0x80000000#32)).canon = true ∧
    svc.accepts Reg.BL_CFG (acc 0x80000000#32) = true ∧ svc.accepts Reg.GLB_EG_SUM (acc 0x80000000#32) = true := by decide +kernel
theorem wit_LocksAndClears_notDoorbell (n : Nat) : pageKind (0x1000 * 2 + 0xFF0) ≠ .doorbell n := fun h => PageKind.noConfusion (h.symm.trans (by decide +kernel : pageKind (0x1000 * 2 + 0xFF0) = .single 2))
/-- The expert area of the PB page open. -/
def expertPb : State := expertOf svc 0xF000
/-- The perturbation area open. -/
def pb (s : State) : State := { s with glb := { s.glb with pbOpen := true } }
theorem wit_PerturbationArea_open : fld (acc 0x7E570000#32).data 31 16 = 0x7E57 ∧
    (expertPb.accepting Reg.PB_CTL (acc 0x7E570000#32)).expertActive 0xF000 = true ∧
    (expertPb.accepting Reg.PB_CTL (acc 0x7E570000#32)).levelLow = true ∧ (expertPb.accepting Reg.PB_CTL (acc 0x7E570000#32)).glb.pbOpen = false ∧
    expertPb.accepts Reg.PB_CTL (acc 0x7E570000#32) = true ∧ ((pb expertPb).accepting Reg.PB_CTL (acc 0)).glb.pbOpen = true ∧
    (pb expertPb).accepts Reg.PB_SEED (acc 7) = true := by decide +kernel
/-- PX_CTL of slot 3 of the cache's page, armed. -/
def pxArm : RpAcc := acc 0x00000011#32
theorem wit_PerturbationArea_slot : hasPerturb (pageKind (0x1000 * 9 + 0xF00 + 8 * 3)) = true ∧
    (svc.accepting (0x1000 * 9 + 0xF00 + 8 * 3) pxArm).glb.pbOpen = false ∧ svc.accepts (0x1000 * 9 + 0xF00 + 8 * 3) pxArm = true ∧
    ((pb svc).accepting (0x1000 * 9 + 0xF00 + 8 * 3) pxArm).glb.pbOpen = true ∧ bit (acc 0).data 0 = false ∧ bit pxArm.data 0 = true ∧
    pxRow (pageKind (0x1000 * 9 + 0xF00 + 8 * 3)) (fld pxArm.data 12 8) (fld pxArm.data 7 4) = true ∧ fld pxArm.data 7 4 < 8 ∧
    bit (((pb svc).accepting (0x1000 * 9 + 0xF00 + 8 * 3) pxArm).regAt (0x1000 * 9 + 0xF00 + 8 * 3)) 0 = false ∧
    bit ((((pb svc).setReg 0x9F18 0x11).accepting 0x9F18 pxArm).regAt 0x9F18) 0 = true ∧
    ¬ (pxRow (pageKind 0x9F18) (fld (0x71#32) 12 8) (fld (0x71#32) 7 4) = true) := by decide +kernel

/-! ### Witnesses: OPENING -/

/-- OPENING in a phase that began at time 0, n cycles later. -/
def aged (p : Phase) (n : BitVec 64) : State := { opn p with time := n }
/-- Cycles since the phase began. -/
def past (s : State) : Nat := s.since s.glb.phaseAt
theorem wit_OpeningFailure_timeouts : (aged .awaitImages 100000).awake = true ∧ (aged .awaitImages 100000).glb.mode = .opening ∧
    fld (((aged .awaitImages 100000).setReg Reg.GLB_OPEN_TIMEOUT 1).regAt Reg.GLB_OPEN_TIMEOUT) 15 0 = 1 ∧
    1 * 100000 ≤ past (aged .awaitImages 100000) ∧ past (aged .awaitImages 99999) < 1 * 100000 ∧ 100 ≤ past (aged .charCheck 100) ∧
    100000 ≤ past (aged .measure 100000) ∧ 50000000 ≤ past (aged .train 50000000) ∧ 5000000 ≤ past (aged .seal 5000000) ∧
    6000000000 ≤ past (aged .defect 6000000000) ∧ bit ((aged .defect 6000000000).regAt Reg.DF_SCAN_STAT) 31 = false ∧
    1000000 ≤ past (aged .start 1000000) ∧ (aged .start 1000000).scribe.ready = false ∧ past (aged .start 999999) < phaseLimit .start ∧
    ({ aged .start 1000000 with scribe := { Core.init with ready := true } } : State).scribe.ready = true := by decide +kernel
/-- In RESET, waiting for the restart after n attempts. -/
def waits (n : Nat) : State := { mode .reset .none with glb := { (mode .reset .none).glb with restartWait := true, bootCount := n } }
theorem wit_OpeningFailure_restart : (waits 2).alive = true ∧ (waits 2).pins.warmLow = false ∧ (waits 2).glb.restartWait = true ∧
    (waits 2).glb.mode = .reset ∧ (waits 2).glb.bootCount < 3 ∧ (waits 3).glb.bootCount = 3 ∧
    ((mode .fallback .none).accepting Reg.GLB_BOOT_ATTEMPT (acc 0x80000000#32)).glb.mode = .fallback ∧
    (mode .fallback .none).accepts Reg.GLB_BOOT_ATTEMPT (acc 0x80000000#32) = true ∧
    (svc.accepting Reg.GLB_BOOT_ATTEMPT (acc 0x80000000#32)).glb.mode ≠ .fallback := by decide +kernel
theorem wit_LoadAndMeasure_window : 0x600000 ≤ (0x69FFFC#23).toNat ∧ (opn .awaitImages).accepts (0x69FFFC#23).toNat (acc 5) = true ∧
    ((opn .awaitImages).accepting 0x69FFFC (acc 5)).glb.mode = .opening ∧ ((opn .awaitImages).accepting 0x69FFFC (acc 5)).glb.phase = .awaitImages ∧
    0x69FFFC - 0x600000 < 0xA0000 ∧ ¬ (0x6A0000 - 0x600000 < 0xA0000) ∧ ({ svc with glb := { svc.glb with scrArmed := true } } : State).glb.scrArmed = true := by
  decide +kernel
/-- OPENING waiting for images with the smallest legal lengths, and with none. -/
def lens (w : Word) : State := (opn .awaitImages).setReg Reg.MS_IMG_LEN w
theorem wit_LoadAndMeasure_go : (lens 0x401).accepts Reg.GLB_OPEN_CTL (acc 1) = true ∧ bit (acc 1).data 0 = true ∧
    ((lens 0x401).accepting Reg.GLB_OPEN_CTL (acc 1)).glb.phase = .awaitImages ∧
    fld (((lens 0x401).setReg Reg.GLB_OPEN_TIMEOUT 1).regAt Reg.GLB_OPEN_TIMEOUT) 15 0 ≠ 0 ∧
    (((lens 0x401).accepting Reg.GLB_OPEN_CTL (acc 1)).writeRow Reg.GLB_OPEN_CTL false 1).lensOk = true ∧
    (((lens 0).accepting Reg.GLB_OPEN_CTL (acc 1)).writeRow Reg.GLB_OPEN_CTL false 1).lensOk = false := by decide +kernel
/-- A measurement that is due. -/
def due (s : State) : State := { s with glb := { s.glb with measureBusy := true } }
/-- The state in which the measurement's digest is judged. -/
def judged (s : State) : State := { s with glb := { s.glb with measureBusy := false } }
/-- A program image's header: magic, version 1, entry 8, sixteen words. -/
def header (magic : Word) : List Word := [magic, 1, 8, 16]
/-- Words laid in the images from an offset on. -/
def image (s : State) (at_ : Nat) (ws : List Word) : State :=
  { s with images := (leBytes (4 * ws.length) (leWords ws)).zipIdx.foldl (fun t e => Tab.setD (fun _ => 0) t (at_ + e.2) e.1) s.images }
/-- SERVICE with a Scribe image of one block. -/
def imaged : State := image (svc.setReg Reg.MS_IMG_LEN 0x400) 0x20000 (header 0x0053494D)
theorem wit_LoadAndMeasure_measure : (due (opn .measure)).awake = true ∧ (due (opn .measure)).glb.measureBusy = true ∧
    (due (opn .measure)).glb.phase = .measure ∧ (due svc).glb.phase ≠ .measure ∧
    ((judged (due svc)).publish (sha384 (due svc).measured)).digestBad = false ∧
    ((judged (due (svc.setReg Reg.MS_CTL 1))).publish (sha384 (due (svc.setReg Reg.MS_CTL 1)).measured)).digestBad = true ∧
    (((due svc).canon && ([3, 2559] : List (Fin 2560)).length == 2) = true) ∧
    svc.headerErr 0x20000 0x0053494D svc.imgLens.2.1 ≠ 0 ∧ imaged.headerErr 0x20000 0x0053494D imaged.imgLens.2.1 = 0 := by decide +kernel
/-- START with both images in place and the cores held. -/
def starting : State := image (image ((opn .start).setReg Reg.MS_IMG_LEN 0x401) 0x20000 (header 0x0053494D)) 0 (header 0x0051494D)
/-- START with the Scribe's image alone. -/
def noQuill : State := image ((opn .start).setReg Reg.MS_IMG_LEN 0x401) 0x20000 (header 0x0053494D)
/-- START with every core ready, on the build of 64 lanes. -/
def readyAll : State :=
  { small with
    glb := { small.glb with mode := .opening, phase := .start }
    scribe := { Core.init with ready := true }
    clusters := (List.range 8).map (fun c => (c, { Cluster.init with quill := { Core.init with ready := true } })) }
/-- TRAIN of 64 lanes, walked or not yet. -/
def training (walked : Bool) : State := { small with glb := { small.glb with mode := .opening, phase := .train, walked := walked } }
/-- TRAIN as it goes on to find lanes. -/
def found (s : State) (l : List LaneFound) : State :=
  ({ s with glb := { s.glb with walked := true } } : State).discoverAll l s.build.lanes
/-- Whether none of the targets found answers. -/
def noneFound (s : State) (l : List LaneFound) : Bool := (l.filter (fun f => decide (f.lane.val < s.build.lanes))).all (fun f => f.targets.isEmpty)
theorem wit_OpeningPhases_start : (opn .start).awake = true ∧ (opn .start).glb.phase = .start ∧ (opn .start).scribe.state = .held ∧
    starting.headerErr 0x20000 0x0053494D starting.imgLens.2.1 = 0 ∧ starting.headerErr 0 0x0051494D starting.imgLens.1 = 0 ∧ starting.tableErr = 0 := by
  decide +kernel
theorem wit_OpeningPhases_ready : readyAll.awake = true ∧ readyAll.glb.phase = .start ∧ readyAll.coresReady = true := by decide +kernel
theorem wit_OpeningPhases_checks : starting.awake = true ∧ starting.scribe.state = .held ∧ (opn .start).headerErr 0x20000 0x0053494D (opn .start).imgLens.2.1 ≠ 0 ∧
    noQuill.headerErr 0x20000 0x0053494D noQuill.imgLens.2.1 = 0 ∧ noQuill.headerErr 0 0x0051494D noQuill.imgLens.1 ≠ 0 := by decide +kernel
theorem wit_OpeningPhases_train : (training false).awake = true ∧ (training false).glb.phase = .train ∧ (training false).glb.walked = false ∧
    noneFound (training false) [] = true ∧ noneFound (training false) [lane0] = false ∧
    bit ((found ((training false).setReg Reg.CAL_CTL 1) [lane0]).regAt Reg.CAL_CTL) 0 = true ∧
    bit ((found (training false) [lane0]).regAt Reg.CAL_CTL) 0 = false := by decide +kernel
theorem wit_OpeningPhases_resume : ((training true).accepting Reg.CAL_CTL (acc 2)).glb.phase = .train ∧ bit (acc 2).data 1 = true ∧
    ((training true).accepting Reg.CAL_CTL (acc 2)).glb.walked = true ∧ ((training false).accepting Reg.CAL_CTL (acc 2)).glb.walked = false ∧
    (training true).accepts Reg.CAL_CTL (acc 2) = true ∧ (svc.accepting Reg.CAL_CTL (acc 2)).glb.phase ≠ .train ∧ bit (acc 0).data 1 = false := by
  decide +kernel
/-- SEAL with the seal lane of region 0 trained. -/
def sealing : State := { one with build := small.build, glb := { one.glb with mode := .opening, phase := .seal } }
theorem wit_OpeningPhases_seal : sealing.keys.job = none ∧ sealing.awake = true ∧ sealing.glb.phase = .seal ∧ (sealing.sealLatch sealing.regionList []).2 = false := by
  decide +kernel
theorem blank_any {s : State} {n : Nat} (h1 : fld (s.regAt Reg.DF_BLANK_TH) 31 16 = 0) (h2 : fld (s.regAt Reg.DF_BLANK_ERR) 15 0 = 65535) :
    (s.blankClass [n]).1 = 0 := by
  unfold State.blankClass
  dsimp only [List.foldl]
  rw [if_pos]
  rw [h1, h2]
  exact ⟨Nat.zero_le _, Nat.max_le.2 ⟨Nat.zero_le _, (Nat.sub_le _ _).trans (by decide)⟩⟩
/-- A copy of one page frame that counts as blank is latched, whatever the frame decodes to, where a blank start is allowed. -/
theorem sealLatch_any {s : State} {f : Frame} (hd : s.sealDie 0 = true) (hg : (s.geo 0).frames = 4)
    (hb : (s.blankClass [ones f]).1 = 0) (ho : bit (s.regAt Reg.GLB_OPEN_CTL) 1 = true) :
    (s.sealLatch [0] [{ region := 0, frames := [f] }]).2 = true := by
  cases hf : s.sealFrame 0 0 f <;> simp [State.sealLatch, State.sealClass, hf, hd, hg, hb, ho]
/-- SEAL that admits a blank start. -/
def latching : State := poke sealing [(Reg.GLB_OPEN_CTL, 2), (Reg.DF_BLANK_TH, 0), (Reg.DF_BLANK_ERR, 0xFFFF)]
theorem wit_OpeningPhases_latch : (latching.sealLatch latching.regionList [{ region := 0, frames := [0] }]).2 = true := by
  have h : latching.regionList = [0] := by decide +kernel
  rw [h]
  exact sealLatch_any (by decide +kernel) (by decide +kernel) (blank_any (by decide +kernel) (by decide +kernel)) (by decide +kernel)
theorem wit_OpeningPhases_blank : latching.sealFrame 0 0 0 = none := by decide +kernel
theorem sealLatch_blank {s : State} {f : Frame} (hf : s.sealFrame 0 0 f = none) (hd : s.sealDie 0 = true) (hg : (s.geo 0).frames = 4)
    (hb : (s.blankClass [ones f]).1 = 0) (ho : bit (s.regAt Reg.GLB_OPEN_CTL) 1 = true) :
    s.sealLatch [0] [{ region := 0, frames := [f] }] = ((s.latchLevel 0).sealBegin .rewrite 0 0 [0], true) := by
  simp [State.sealLatch, State.sealClass, hf, hd, hg, hb, ho]
theorem wit_OpeningPhases_job : ((latching.latchLevel 0).sealBegin .rewrite 0 0 [0]).keys.job ≠ none := by decide +kernel
theorem wit_OpeningPhases_rewrite : (latching.sealLatch latching.regionList [{ region := 0, frames := [0] }]).1.keys.job ≠ none := by
  have h : latching.regionList = [0] := by decide +kernel
  rw [h, sealLatch_blank wit_OpeningPhases_blank (by decide +kernel) (by decide +kernel)
    (blank_any (by decide +kernel) (by decide +kernel)) (by decide +kernel)]
  exact wit_OpeningPhases_job
/-- DEFECT with the store assigned and lane 0's dies. -/
def defectsIn (ctl : Word) : State := { poke mem [(Reg.DF_CTL, ctl)] with glb := { one.glb with mode := .opening, phase := .defect } }
/-- The lines of the bitmaps. -/
def bitmaps : List Nat := (defectsIn 0).presentDies.flatMap (fun d => (List.range 8).map (fun k => (defectsIn 0).dfOff d (512 * k) / 128))
/-- The same with the bitmaps' lines held. -/
def defects (ctl : Word) : State := cached (defectsIn ctl) bitmaps
/-- What the pass over the dies answers, where nothing is wanted. -/
def pass (s : State) : Option Bool :=
  let q := s.presentDies.foldl (fun a d => State.defectDie a d .clean) (s, true)
  if allThere q.1 then some q.2 else none
theorem wit_OpeningPhases_defect : (opn .defect).awake = true ∧ (opn .defect).dfAssigned = false ∧ (defects 0).dfAssigned = true ∧
    bit ((defects 0).regAt Reg.DF_SCAN_STAT) 31 = false ∧ bit ((defects 0).regAt Reg.DF_CTL) 0 = false ∧ bit ((defects 1).regAt Reg.DF_CTL) 0 = true ∧
    bit (((opn .defect).setReg Reg.DF_SCAN_STAT 0x80000000#32).regAt Reg.DF_SCAN_STAT) 31 = true ∧ (opn .defect).keys.again = none := by decide +kernel
theorem wit_OpeningPhases_pass : pass (defects 0) = some true ∧ pass (spoiled (defectsIn 0) bitmaps) = some false := by decide +kernel
theorem wit_OpeningPhases_marks : (([{ die := 0, entry := 5, page := 0, byte := 0 }] : List FactoryMark).foldl (fun a m => State.factoryMark a m .clean) (defects 1, true)).2 = true := by
  decide +kernel

theorem wit_ScribeReload_watchdog : one.awake = true ∧ one.scribe.state = .running ∧
    fld ((one.setReg Reg.GLB_SCR_WDOG 1).regAt Reg.GLB_SCR_WDOG) 15 0 ≠ 0 ∧ fld ((one.setReg Reg.GLB_SCR_WDOG 1).regAt Reg.GLB_SCR_WDOG) 15 0 * 100 ≤
      ({ one with time := 100 } : State).since one.scribe.kick := by decide +kernel
/-- The Scribe in a given state. -/
def scribeIn (c : CoreState) : State := { svc with scribe := { Core.init with state := c } }
theorem wit_ScribeReload_arm : ((scribeIn .lost).accepting Reg.GLB_SCR_CTL (acc 1)).scribe.state = .lost ∧ bit (acc 1).data 0 = true ∧ bit (acc 1).data 1 = false ∧
    (scribeIn .lost).accepts Reg.GLB_SCR_CTL (acc 1) = true ∧ (svc.accepting Reg.GLB_SCR_CTL (acc 1)).scribe.state ≠ .lost ∧
    (({ svc with glb := { svc.glb with scrArmed := true } } : State).accepting Reg.GLB_SCR_CTL (acc 2)).glb.scrArmed = true ∧ bit (acc 2).data 1 = true ∧
    bit (acc 2).data 0 = false ∧ (svc.accepting Reg.GLB_SCR_CTL (acc 2)).glb.scrArmed = false := by decide +kernel
theorem wit_ScribeReload_end : (scribeIn .starting).awake = true ∧ (scribeIn .starting).glb.mode ≠ .opening ∧ (scribeIn .starting).scribe.state = .starting ∧
    (scribeIn .starting).scribe.ready = false ∧ ({ scribeIn .starting with scribe := { (scribeIn .starting).scribe with ready := true } } : State).scribe.ready = true := by
  decide +kernel

/-! ### Witnesses: lanes and calibration -/

/-- A calibration run at a step. -/
def runAt (n : Nat) : CalRun := { step := n, began := true, bytes := 0, alt := [], mism := [], insert := false }
/-- Lane 0 with a given change. -/
def laneWith (f : Lane → Lane) : State := one.modLane 0 f
/-- Lane 0 with a set of shadows pending. -/
def pendingCal : State := one.setReg (lnA 0 Reg.LN_CAL_STAT) 1
theorem wit_CalibrationWrites : one.accepts (lnA 0 Reg.LN_CAL_CTL) (acc 0x100) = true ∧ bit (acc 0x100).data 8 = true ∧ bit (acc 0x100).data 9 = false ∧
    (((laneWith (fun l => { l with cal := some (runAt 0) })).accepting (lnA 0 Reg.LN_CAL_CTL) (acc 0x100)).lane 0).cal.isSome = true ∧
    ((one.accepting (lnA 0 Reg.LN_CAL_CTL) (acc 0x100)).lane 0).cal = none ∧ ((one.accepting (lnA 0 Reg.LN_CAL_CTL) (acc 0x100)).lane 0).enabled = true ∧
    bit (acc 0x200).data 9 = true ∧ bit (acc 0x200).data 8 = false ∧ one.accepts (lnA 0 (shadowOff 5)) (acc 7) = true ∧
    (pendingCal.accepting (lnA 0 (shadowOff 0)) (acc 7)).castPending 0 = true ∧ (pendingCal.accepting (lnA 0 (shadowOff 0)) (acc 7)).idlePoint 0 = true ∧
    (pendingCal.accepting (lnA 0 (shadowOff 0)) (acc 7)).canon = true := by decide +kernel
theorem wit_LaneCalibration_cast : pendingCal.awake = true ∧ pendingCal.castPending 0 = true ∧ pendingCal.clusterUp 0 = true ∧ pendingCal.idlePoint 0 = true ∧
    pendingCal.canon = true ∧ pendingCal.laneUp 0 = true ∧ ((laneWith (fun l => { l with forced := true })).lane 0).forced = true := by decide +kernel
theorem wit_LaneCalibration_waits : ({ runAt 0 with began := false } : CalRun).began = false ∧ (runAt 0).bytes < one.stepBytes ∧ one.awake = true ∧
    one.laneUp 0 = true := by decide +kernel
theorem wit_LaneCalibration_filled : (runAt 0).began = true ∧ (one.setReg Reg.CAL_RUN 0).stepBytes ≤ ({ runAt 0 with bytes := 2 ^ 30 } : CalRun).bytes := by
  decide +kernel
theorem wit_LaneCalibration_step : ((laneWith (fun l => { l with cal := some (runAt 64) })).lane 0).cal = some (runAt 64) ∧ (runAt 64).step % 64 = 0 ∧
    (laneWith (fun l => { l with cal := some (runAt 64) })).idlePoint 0 = true ∧ (runAt 254).step + 1 < 256 ∧ 256 ≤ (runAt 255).step + 1 ∧
    (runAt 255).step < 256 ∧ Tab.rising (runAt 255).mism = true := by decide +kernel
/-- A retrain asked for on lane 0. -/
def retrainAsked : State := laneWith (fun l => { l with retrainReq := some true })
/-- The same with LUN 0 busy. -/
def retrainBusy : State := laneWith (fun l => { l with retrainReq := some true, retrainWait := true, luns := [(0, { Lun.init with busy := true })] })
theorem wit_Retraining : retrainAsked.working = true ∧ retrainAsked.laneUp 0 = true ∧ (retrainAsked.lane 0).retrainReq = some true ∧
    retrainAsked.scribeUp = true ∧ retrainAsked.idlePoint 0 = true ∧ retrainAsked.lunsReady 0 = true ∧ retrainBusy.lunsReady 0 = false ∧
    (retrainBusy.lane 0).retrainWait = true ∧ ((laneWith (fun l => { l with retrainLater := some false })).lane 0).retrainLater = some false := by decide +kernel

/-! ### Witnesses: the defect map and the frontier -/

/-- A packet's fields: a program of the four planes of block 1 of die 0 (R190). -/
def pkt0 : Packet :=
  { opcode := 2, tag := 5, flags := 0, maw0 := mkMaw 0 1 0 0 0, maw1 := mkMaw 0 1 0 0 0, deadline := 0, mask := 15, keySlot := 0, fcount := 0, buf := 0,
    metaAddr := 0, arg := 0, maws := (List.range 4).map (fun k => mkMaw 0 1 0 k 0), metaBytes := [] }
/-- A word of a packet in an intake: complete in one word, from ring 16 of instance 7. -/
def iw0 : IntakeWord := { bits := 0, ring := 16, owner := 7, prio := 0, sqHead := 0, first := true, last := true, packet := 0, seen := 0 }
/-- A command of that packet on lane 0. -/
def cmd0 : Cmd := svc.newCmd 0 iw0 pkt0 0 4
/-- A state whose handle 0 of cluster 0 holds a command. -/
def holding (s : State) (x : Cmd) : State := { s with cmds := [(0, some x)] }
/-- mem with DF_MARK_ADDR on block 1, plane 1 of die 0 (entry 5), that entry's byte, and no line held. -/
def entryIn (b : Byte) : State :=
  { mem.setReg Reg.DF_MARK_ADDR 0x00012000#32 with store := Tab.setD (fun _ => 0) [] (0x01000000 + 1) b }
/-- The same with the entry's line held. -/
def marked (b : Byte) : State := cached (entryIn b) [131072]
/-- The code that the entry reads as, where nothing is wanted. -/
def codeOf (s : State) : Option (Option Nat) :=
  let r := s.dfCode unitDfCmd 0 5 .clean
  if allThere r.1 then some r.2 else none
/-- Whether the entry's new code reaches the cache, where nothing is wanted. -/
def sets (s : State) (code : Nat) : Option Bool :=
  let r := (s.dfCode unitDfCmd 0 5 .clean).1.dfSet unitDfCmd 0 5 code .clean
  if allThere r.1 then some r.2 else none
/-- In FALLBACK without an assigned base. -/
def unassigned : State := { marked 0 with glb := { svc.glb with mode := .fallback } }
/-- A store of an uncorrectable word, found at the given opportunity after the next: the line is dropped, and the store fails. -/
def failing (s : State) (draw : Word) : State := { s.setReg 0x9F00 0x40000091#32 with draws := [(0x9F00, draw)] }
/-- The same with the entry's line dirty. -/
def dirtied (b : Byte) : State := linesOf (entryIn b) [131072] (fun l => { l with dirty := true })
theorem wit_Defects_refused : allThere (marked 0) = true ∧ (marked 0).accepts Reg.DF_MARK_CMD (acc 1) = true ∧ bit ((marked 0).regAt Reg.DF_MARK_STAT) 31 = false ∧
    (marked 0).blockPresent 0 1 1 = true ∧ (marked 0).blockPresent 4 1 1 = false ∧
    bit (((marked 0).setReg Reg.DF_MARK_STAT 0x80000000#32).regAt Reg.DF_MARK_STAT) 31 = true ∧
    fld (0x00012000#32) 31 16 = 1 ∧ fld (0x00012000#32) 14 13 = 1 ∧ fld (0x00012000#32) 12 0 = 0 ∧ fld (acc 1).data 1 0 = 1 ∧ fld (acc 2).data 1 0 = 2 ∧
    fld (acc 3).data 1 0 = 3 ∧ codeOf (spoiled (entryIn 0) [131072]) = some none ∧ codeOf (entryIn 0) = none := by decide +kernel
theorem wit_Defects_codes : codeOf (marked 0) = some (some 0) ∧ codeOf (marked 4) = some (some 1) ∧ codeOf (marked 8) = some (some 2) ∧
    codeOf (marked 12) = some (some 3) ∧ sets (marked 0) 2 = some true ∧ sets (marked 8) 0 = some true ∧ codeOf unassigned = some (some 0) ∧
    sets unassigned 2 = some false ∧ unassigned.blockPresent 0 1 1 = true := by decide +kernel
theorem wit_Defects_lost : codeOf (failing (dirtied 8) 1) = some (some 2) ∧ sets (failing (dirtied 8) 1) 0 = some false := by decide +kernel
/-- A record of plane-block 5: OPEN, with pages begun and done. -/
def rec5 (st next done : Nat) : FrRec := { blk := 5, st := st, blank := true, owner := 7, next := next, done := done, base := 0, time := 0, seq := 0 }
/-- mem with frontier records of die 0, and no line held. -/
def recordsIn (l : List FrRec) : State := lay (mem.setReg Reg.DF_FR_ADDR 0x00012000#32) 0x03000000 (l.flatMap (fun r => (List.range 8).map (fun k =>
  BitVec.ofNat 32 (leNat (((frEncode r).drop (4 * k)).take 4)))))
/-- The same with the lines of the die's slots held. -/
def frontier (l : List FrRec) : State := cached (recordsIn l) [393216, 393217, 393218, 393219]
/-- The slots that the unit reads, where nothing is wanted. -/
def slotsOf (s : State) : Option (List FrRec) :=
  let r := s.frSlots unitDfCmd 0 .clean
  if allThere r.1 then r.2 else none
/-- Whether a new record of slot 0 reaches the cache, where nothing is wanted. -/
def puts (s : State) (r : FrRec) : Option Bool :=
  let t := (s.frSlots unitDfCmd 0 .clean).1.frPut unitDfCmd 0 0 r .clean
  if allThere t.1 then some t.2 else none
/-- The records in lines that are dirty, where the fifth lookup, a store to slot 0, finds an uncorrectable word. -/
def frFlaky (l : List FrRec) : State :=
  failing (linesOf (recordsIn l) [393216, 393217, 393218, 393219] (fun l => { l with dirty := true })) 64
theorem wit_Frontier_found : (frontier [rec5 1 3 2]).accepts Reg.DF_FR_CMD (acc 1) = true ∧ (frontier [rec5 1 3 2]).blockPresent 0 1 1 = true ∧
    bit ((frontier []).regAt Reg.DF_FR_STAT) 31 = false ∧ bit (((frontier []).setReg Reg.DF_FR_STAT 0x80000000#32).regAt Reg.DF_FR_STAT) 31 = true ∧
    (slotsOf (frontier [rec5 1 3 2])).map (fun l => (frFind l 5, l.head?)) = some (some 0, some (rec5 1 3 2)) ∧
    (slotsOf (frontier [rec5 1 2 2])).map (fun l => (frFind l 5, l.head?)) = some (some 0, some (rec5 1 2 2)) ∧
    puts (frontier [rec5 1 2 2]) frFree = some true ∧ (slotsOf (frontier [rec5 2 2 2])).map (fun l => (frFind l 5, l.head?)) = some (some 0, some (rec5 2 2 2)) ∧
    (frontier [rec5 2 2 2]).frHeld 0 5 = false ∧ (holding (frontier [rec5 2 2 2]) { cmd0 with claimed := true }).frHeld 0 5 = true := by decide +kernel
theorem wit_Frontier_none : (slotsOf (frontier [])).map (fun l => (frFind l 5, frFreeSlot l)) = some (none, some 0) ∧
    puts (frontier []) (rec5 1 0 0) = some true ∧
    (slotsOf (frontier (List.replicate 16 { rec5 1 0 0 with blk := 6 }))).map (fun l => (frFind l 5, frFreeSlot l)) = some (none, none) ∧
    (frontier []).blockPresent 4 1 1 = false := by decide +kernel
theorem wit_Frontier_lost : ((spoiled (recordsIn []) [393216]).frSlots unitDfCmd 0 .clean).2 = none ∧
    allThere ((spoiled (recordsIn []) [393216]).frSlots unitDfCmd 0 .clean).1 = true ∧ puts (frFlaky []) (rec5 1 0 0) = some false := by decide +kernel

/-! ### Witnesses: rings and doorbells -/

/-- A context: kind, state, log2 of the size, owner; CPL_RING; PROD; CONS; OUTSTANDING; with its residues. -/
def ctx (kind st sz owner cpl prod cons out : Nat) : Ctx :=
  Ctx.residues [BitVec.ofNat 32 (kind + 4 * st + 256 * sz + 65536 * owner), 0, 0, BitVec.ofNat 32 cpl, BitVec.ofNat 32 prod, BitVec.ofNat 32 cons,
    BitVec.ofNat 32 out, 0, 0, 0, 0, 0, 0, 0, 0, 0]
/-- mem with contexts of rings, and instance 7 active with 16 rings allowed; no line held. -/
def ringsIn (l : List (Nat × Ctx)) : State :=
  l.foldl (fun t e => lay t (64 * e.1) e.2)
    { mem.setReg (winKey Reg.TN_RES 7) 16 with
      rings := l.map (fun e => (e.1, ringNote e.2)), tenants := { svc.tenants with st := [(7, .active)] } }
/-- The same with the lines of rings 16 to 23 held. -/
def rings (l : List (Nat × Ctx)) : State := cached (ringsIn l) [8, 9, 10, 11]
/-- The window holding a context. -/
def windowed (s : State) (x : Ctx) : State := poke s (x.zipIdx.map (fun e => (Reg.TN_RING_WIN + 4 * e.2, e.1)))
/-- The context that a unit reads of ring n, where nothing is wanted. -/
def ofRing (s : State) (u : Asker) (n : Nat) : Option Ctx :=
  let r := s.ringLoad u n .clean
  if allThere r.1 then r.2 else none
/-- That of ring 16. -/
def of16 (s : State) (u : Asker) : Option Ctx := ofRing s u 16
/-- A load of ring 16 and a store of a context into it: whether the store succeeds, where the load did and nothing is wanted. -/
def after16 (s : State) (u : Asker) (f : Ctx → Ctx) : Option Bool :=
  let r := s.ringLoad u 16 .clean
  r.2.bind (fun x => let t := r.1.ringStore u 16 (f x) .clean; if allThere t.1 then some t.2 else none)
/-- The loads of rings 16 and 17 and a store of the window into ring 16, where nothing is wanted. -/
def after17 (s : State) : Option (Option Ctx × Bool) :=
  let c := s.ringLoad unitRingCmd 16 .clean
  let d := c.1.ringLoad unitRingCmd 17 .clean
  let t := d.1.ringStore unitRingCmd 16 s.window.fresh .clean
  if allThere t.1 then some (d.2, t.2) else none
/-- A SUB ring of instance 7 on CPL ring 17, with one packet offered. -/
def sub7 : Ctx := ctx 1 0 6 7 17 1 0 0
/-- A CPL ring of instance 7. -/
def cpl7 : Ctx := ctx 2 0 6 7 0 0 0 0
/-- The pair of rings, with no line held. -/
def pairIn : State := ringsIn [(16, sub7), (17, cpl7)]
/-- The pair of rings. -/
def pair7 : State := cached pairIn [8]
/-- The line of rings 16 and 17 held dirty, where a later opportunity finds an uncorrectable word: after how many is said by draw. -/
def flaky (s : State) (draw : Word) : State := failing (linesOf s [8] (fun l => { l with dirty := true })) draw
theorem wit_RingCommands_read : pair7.accepts Reg.TN_RING_CMD (acc 0x00010010#32) = true ∧ fld (0x00010010#32) 18 16 = 1 ∧ fld (0x00010010#32) 14 0 = 16 ∧
    bit (pair7.regAt Reg.TN_RING_STAT) 31 = false ∧ bit ((pair7.setReg Reg.TN_RING_STAT 0x80000000#32).regAt Reg.TN_RING_STAT) 31 = true ∧
    allThere pair7 = true ∧ of16 pair7 unitRingCmd = some sub7 ∧ ((spoiled pairIn [8]).ringLoad unitRingCmd 16 .clean).2 = none ∧
    allThere ((spoiled pairIn [8]).ringLoad unitRingCmd 16 .clean).1 = true := by decide +kernel
/-- OFF at ring 16, with a window of each kind. -/
def offSub : State := windowed (rings [(17, cpl7)]) sub7
/-- OFF at ring 16, with a CPL window. -/
def offCpl : State := windowed (rings []) cpl7
theorem wit_RingCommands_write : fld (0x00020010#32) 18 16 = 2 ∧ sub7.kind ≠ 0 ∧ (of16 offCpl unitRingCmd).map Ctx.kind = some 0 ∧
    (rings []).ctxInRange (rings []).window = false ∧ (offCpl.ringLoad unitRingCmd 16 .clean).1.ctxInRange offCpl.window = true ∧ offCpl.window.kind = 2 ∧
    after16 offCpl unitRingCmd (fun _ => offCpl.window.fresh) = some true ∧
    (offSub.ringLoad unitRingCmd 16 .clean).1.ctxInRange offSub.window = true ∧ offSub.window.kind = 1 ∧
    after17 offSub = some (some cpl7, true) ∧ cpl7.kind = 2 ∧ cpl7.owner = offSub.window.owner ∧
    (after17 (windowed (rings []) sub7)).map (fun e => e.1.map Ctx.kind) = some (some 0) := by decide +kernel
/-- The context of DISABLE: OFF again. -/
def offOf (x : Ctx) : Ctx := x.setW 0 (putFld (cw x 0) 1 0 0)
theorem wit_RingCommands_disable : fld (0x00030010#32) 18 16 = 3 ∧ of16 (rings [(16, ctx 1 0 6 7 17 0 0 1)]) unitRingCmd = some (ctx 1 0 6 7 17 0 0 1) ∧
    (ctx 1 0 6 7 17 0 0 1).out ≠ 0 ∧ of16 (rings [(16, cpl7), (20, ctx 1 0 6 7 16 0 0 0)]) unitRingCmd = some cpl7 ∧
    (rings [(16, cpl7), (20, ctx 1 0 6 7 16 0 0 0)]).naming 16 ≠ [] ∧ cpl7.out = 0 ∧ sub7.out = 0 ∧ sub7.kind ≠ 2 ∧
    after16 pair7 unitRingCmd offOf = some true := by decide +kernel
theorem wit_RingCommands_reset : fld (0x00040010#32) 18 16 = 4 ∧ sub7.state = 0 ∧ (ctx 1 1 6 7 17 0 0 1).state ≠ 0 ∧ (ctx 1 1 6 7 17 0 0 1).out ≠ 0 ∧
    of16 (rings [(16, ctx 1 1 6 7 17 0 0 1)]) unitRingCmd = some (ctx 1 1 6 7 17 0 0 1) ∧
    of16 (rings [(16, ctx 1 2 6 7 17 0 0 0)]) unitRingCmd = some (ctx 1 2 6 7 17 0 0 0) ∧ (ctx 1 2 6 7 17 0 0 0).state = 2 ∧ (ctx 1 2 6 7 17 0 0 0).out = 0 := by
  decide +kernel
theorem wit_RingCommands_lost : after16 (flaky (windowed (ringsIn []) cpl7) 1668795210) unitRingCmd (fun _ => offCpl.window.fresh) = some false ∧
    after16 (flaky pairIn 1668795210) unitRingCmd offOf = some false ∧
    after16 (flaky (ringsIn [(16, ctx 1 2 6 7 17 0 0 0)]) 1668795210) unitRingCmd (fun x => x.setState 0) = some false := by decide +kernel
theorem wit_RingCommands_lost_sub : after17 (flaky (windowed (ringsIn [(17, cpl7)]) sub7) 1070419230) = some (some cpl7, false) ∧
    (after17 (flaky (windowed (ringsIn [(17, cpl7)]) sub7) 12346)).map Prod.fst = some none := by decide +kernel
/-- Instance 7's page, waiting for an earlier doorbell. -/
def dbWaiting : State := pair7.modCache (fun c => { c with held := [.doorbell 8 0 false] })
theorem wit_Doorbell_waits : dbWaiting.accepts (dbA 7 Reg.DB_RING) (acc 0x00100001#32) = true ∧
    dbWaiting.cache.held.any (Held.doorbell 7 (0x00100001#32) false).after = true ∧ pair7.cache.held.any (Held.doorbell 7 (0x00100001#32) false).after = false := by
  decide +kernel
theorem wit_Doorbell_lost : after16 (flaky pairIn 1668795210) unitDoorbell (fun x => x.setProd 63) = some false ∧
    after16 (flaky (ringsIn [(16, ctx 2 0 6 7 0 9 4 0)]) 1668795210) unitDoorbell (fun x => x.setCons 9) = some false ∧
    ((spoiled pairIn [8]).ringLoad unitDoorbell 16 .clean).2 = none ∧ allThere ((spoiled pairIn [8]).ringLoad unitDoorbell 16 .clean).1 = true := by decide +kernel
theorem wit_Doorbell_refused : pair7.accepts (dbA 7 Reg.DB_RING) (acc 0x00100001#32) = true ∧ bit (0x00100001#32) 31 = false ∧ bit (0x80100000#32) 31 = true ∧
    fld (0x00100001#32) 30 16 = 16 ∧ of16 (rings [(16, ctx 1 0 6 8 17 0 0 0)]) unitDoorbell = some (ctx 1 0 6 8 17 0 0 0) ∧
    (ctx 1 0 6 8 17 0 0 0).owner ≠ 7 ∧ of16 (rings [(16, cpl7)]) unitDoorbell = some cpl7 ∧ cpl7.owner = 7 ∧ cpl7.kind ≠ 1 ∧
    of16 (rings [(16, ctx 1 1 6 7 17 0 0 0)]) unitDoorbell = some (ctx 1 1 6 7 17 0 0 0) ∧ (ctx 1 1 6 7 17 0 0 0).state = 1 ∧
    of16 (rings [(16, ctx 1 2 6 7 17 0 0 0)]) unitDoorbell = some (ctx 1 2 6 7 17 0 0 0) ∧ of16 pair7 unitDoorbell = some sub7 ∧ sub7.sound = true ∧
    sub7.size = 64 ∧ sub7.size ≤ fld (0x00100040#32) 15 0 ∧ sub7.state ≠ 1 ∧ sub7.state ≠ 2 ∧
    of16 (rings [(16, sub7.setW 4 0)]) unitDoorbell = some (sub7.setW 4 0) ∧ (sub7.setW 4 0).sound = false ∧
    of16 (rings [(16, cpl7.setW 4 1)]) unitDoorbell = some (cpl7.setW 4 1) ∧ (cpl7.setW 4 1).sound = false := by decide +kernel
theorem wit_Doorbell_other : ({ pair7 with tenants := { pair7.tenants with st := [(7, .fenced)] } } : State).tnState 7 ≠ .active ∧
    ¬ (fld (0x80100020#32) 15 0 = (ctx 2 0 6 7 0 9 4 0).cons ∨ (32 + 64 - (ctx 2 0 6 7 0 9 4 0).cons % 64) % 64 ≤
      ((ctx 2 0 6 7 0 9 4 0).prod + 64 - (ctx 2 0 6 7 0 9 4 0).cons % 64) % 64) := by decide +kernel
theorem wit_Doorbell_accepted : sub7.owner = 7 ∧ sub7.kind = 1 ∧ sub7.state = 0 ∧ pair7.tnState 7 = .active ∧ fld (0x0010003F#32) 15 0 < sub7.size ∧
    after16 pair7 unitDoorbell (fun x => x.setProd 63) = some true ∧
    of16 (rings [(16, ctx 2 0 6 7 0 9 4 0)]) unitDoorbell = some (ctx 2 0 6 7 0 9 4 0) ∧ (ctx 2 0 6 7 0 9 4 0).kind = 2 ∧ (ctx 2 0 6 7 0 9 4 0).sound = true ∧
    (9 + 64 - (ctx 2 0 6 7 0 9 4 0).cons % 64) % 64 ≤ ((ctx 2 0 6 7 0 9 4 0).prod + 64 - (ctx 2 0 6 7 0 9 4 0).cons % 64) % 64 ∧
    after16 (rings [(16, ctx 2 0 6 7 0 9 4 0)]) unitDoorbell (fun x => x.setCons 9) = some true ∧
    ((mode .fallback .none).accepting (dbA 7 Reg.DB_RING) (acc 0)).glb.mode = .fallback := by decide +kernel

/-! ### Witnesses: fetching and the intakes -/

/-- The loads of rings 16 and 17 and the stores that a fetch makes, where nothing is wanted. -/
def fetchPut (s : State) : Option (Bool × Bool) :=
  let r := s.ringLoad unitFetcher 16 .clean
  let q := r.1.ringLoad unitFetcher 17 .clean
  let t1 := q.1.ringStore unitFetcher 16 (sub7.setOut 1) .clean
  let t2 := t1.1.ringStore unitFetcher 17 (cpl7.setOut 1) .clean
  if allThere t2.1 then some (t1.2, t2.2) else none
/-- The CPL ring's context where the fetch reads it after that of ring 16. -/
def cplAfter (s : State) : Option Ctx := ofRing (s.ringLoad unitFetcher 16 .clean).1 unitFetcher 17
theorem wit_PacketFetch : pair7.working = true ∧ pair7.note 16 ≠ 0 ∧ pair7.fetchOf 16 = none ∧ pair7.cache.stuck.contains (false, 16) = false ∧
    pair7.ringWaits 16 = false ∧ pair7.ringWaits 17 = false ∧ ((spoiled pairIn [8]).ringLoad unitFetcher 16 .clean).2 = none ∧
    of16 pair7 unitFetcher = some sub7 ∧ sub7.kind = 1 ∧ sub7.state = 0 ∧ pair7.fetches sub7.owner = true ∧ sub7.sound = true ∧ sub7.prod ≠ sub7.cons ∧
    (sub7.setW 4 0).sound = false ∧ (ctx 1 0 6 7 17 3 3 0).prod = (ctx 1 0 6 7 17 3 3 0).cons ∧
    of16 (rings [(16, ctx 1 0 6 7 17 3 3 0)]) unitFetcher = some (ctx 1 0 6 7 17 3 3 0) ∧ cplAfter pair7 = some cpl7 ∧ cpl7.state = 0 ∧ cpl7.sound = true ∧
    cpl7.out < cpl7.freeSlots ∧ fetchPut pair7 = some (true, true) ∧ (fetchPut (flaky pairIn 32768)).map (fun e => e.1 && e.2) = some false ∧
    cplAfter (rings [(16, sub7), (17, ctx 2 1 6 7 0 0 0 0)]) = some (ctx 2 1 6 7 0 0 0 0) ∧
    cplAfter (rings [(16, sub7), (17, cpl7.setW 4 1)]) = some (cpl7.setW 4 1) ∧ (cpl7.setW 4 1).sound = false ∧
    (pair7.modCache (fun c => { c with held := [.ring 17 (.error 3)] })).ringWaits 17 = true := by decide +kernel
/-- A FENCE that has been fetched: opcode 0x0E in byte 1. -/
def fence : Fetching :=
  { ring := 16, owner := 7, slot := 0, size := 64, base := 0, home := 0, prio := 0, urgent := false, words := [0x0E00], mawBad := none, done := true,
    route := none, pushed := 0, packet := 0 }
theorem wit_PacketFetch_full : (ctx 2 0 6 7 0 0 1 0).freeSlots ≤ (ctx 2 0 6 7 0 0 1 0).out ∧ (ctx 2 0 6 7 0 0 1 0).sound = true ∧
    cplAfter (rings [(16, sub7), (17, ctx 2 0 6 7 0 0 1 0)]) = some (ctx 2 0 6 7 0 0 1 0) := by decide +kernel
theorem wit_PacketFetch_fence : ({ pair7 with fetching := [fence] } : State).fetchOf 16 = some fence ∧ hdrOp (fence.words.headD 0) = 0x0E ∧ fence.done = true ∧
    of16 { rings [(16, ctx 1 0 6 7 17 1 0 1)] with fetching := [fence] } unitFetcher = some (ctx 1 0 6 7 17 1 0 1) ∧ (ctx 1 0 6 7 17 1 0 1).out = 1 ∧
    (ctx 1 0 6 7 17 1 0 2).out ≠ 1 ∧ of16 { rings [(16, ctx 1 0 6 7 17 1 0 2)] with fetching := [fence] } unitFetcher = some (ctx 1 0 6 7 17 1 0 2) := by
  decide +kernel
/-- A packet of two words on its way to cluster 0, with some words pushed. -/
def packet (n : Nat) : Fetching := { fence with words := [0x0200, 0], route := some 0, pushed := n }
/-- Cluster 0's bulk intake in a given state with that packet offered. -/
def offering (n : Nat) (ws : List IntakeWord) (skip : Bool) : State :=
  { one with
    fetching := [packet n]
    clusters := [(0, { Cluster.init with quill := { Core.init with state := .running }, bulk := { words := ws, skip := skip } })] }
/-- The intake's answer to room. -/
def roomOf (s : State) (n : Nat) : Bool := ((s.cluster 0).intake false).room false (decide (n = 0))
theorem wit_IntakeMoves_push : one.working = true ∧ one.clusterUp 0 = true ∧ (offering 0 [] false).offered 0 false = some (packet 0) ∧
    (offering 0 [] false).opportunity (clA 0 0) 0 = (offering 0 [] false, []) ∧ ((offering 0 [] false).cluster 0).quillDead = false ∧
    roomOf (offering 0 [] false) 0 = true ∧ (offering 0 [] false).orphan 0 false (packet 0) = false ∧
    roomOf (offering 0 (List.replicate 256 iw0) false) 0 = false ∧ (offering 1 [{ iw0 with last := false }] true).offered 0 false = some (packet 1) ∧
    roomOf (offering 1 [{ iw0 with last := false }] true) 1 = true ∧ ((offering 1 [{ iw0 with last := false }] true).cluster 0).bulk.skip = true ∧
    (packet 1).pushed ≠ 0 ∧ (offering 1 [{ iw0 with last := false }] false).orphan 0 false (packet 1) = false := by decide +kernel
theorem wit_IntakeMoves_pop : (offering 0 [iw0] false).popNext 0 = some (false, iw0) ∧ (offering 0 [iw0] false).lowHandle 0 = some 0 ∧
    (offering 0 [] false).popNext 0 = none := by decide +kernel
theorem wit_FlushAndClear_bits : bit (acc 1).data 0 = true ∧ bit (acc 1).data 1 = false ∧ bit (acc 2).data 0 = false ∧ bit (acc 2).data 1 = true := by
  decide +kernel
theorem wit_FlushAndClear : one.accepts (clA 0 Reg.CL_INTAKE_FLUSH) (acc 3) = true ∧ bit (acc 3).data 0 = true ∧ bit (acc 3).data 1 = true ∧
    bit (acc 0).data 0 = false ∧ bit (acc 0).data 1 = false ∧ bit (acc 0x80000000#32).data 31 = true ∧
    one.accepts (lnA 0 Reg.LN_LAT_SEL) (acc 0x80000000#32) = true ∧ one.accepts (lnA 0 Reg.LN_GB_SEL) (acc 0x80000000#32) = true ∧
    one.accepts Reg.PT_HIST_SEL (acc 0x80000000#32) = true ∧ (one.accepting Reg.PT_HIST_SEL (acc 0x80000000#32)).canon = true := by decide +kernel

/-! ### Witnesses: the Context Cache -/

/-- mem with a change of the cache. -/
def cacheWith (f : Cache → Cache) : State := mem.modCache f
/-- A line held clean. -/
def line (tag : Nat) : Line := { tag := tag, dirty := false, age := 0, lock := false, poison := false, stream := false, data := 0 }
/-- A miss register of a line with n lookups merged. -/
def missed (tag n : Nat) (r : Option (Nat × Beat)) : Miss :=
  { tag := tag, around := false, filling := true, install := true, stream := false, merged := List.replicate n { q := loadQ unitFetcher 64, off := 0, inner := false }, reply := r,
    merges := n }
/-- A victim entry whose write-back is out. -/
def victim (r : Option Nat) : Victim := { line := { line 3 with dirty := true }, writing := true, failed := false, keep := false, back := false, reply := r }
/-- An operation under way. -/
def jobOf (op : Nat) : CcJob := { op := op, waits := [], asked := [] }
theorem wit_CacheMaintenance_busy : mem.accepts Reg.CC_MAINT (acc 1) = true ∧ fld (acc 1).data 2 0 = 1 ∧ fld (acc 6).data 2 0 = 6 ∧
    ((cacheWith (fun c => { c with job := some (jobOf 1) })).accepting Reg.CC_MAINT (acc 1)).cache.job.isSome = true ∧
    ((cacheWith (fun c => { c with st := .draining })).accepting Reg.CC_MAINT (acc 1)).cache.st = .draining ∧
    ((cacheWith (fun c => { c with st := .enabled })).accepting Reg.CC_MAINT (acc 6)).cache.st = .enabled ∧
    (mem.accepting Reg.CC_MAINT (acc 1)).cache.job.isSome = false ∧ (mem.accepting Reg.CC_MAINT (acc 1)).cache.st = .disabled := by decide +kernel
theorem wit_CacheMaintenance_range : (mem.setReg Reg.CC_RANGE_LO 0x3FFFFF80#32).ccSize <
      ((mem.setReg Reg.CC_RANGE_LO 0x3FFFFF80#32).ccRange.1 + (mem.setReg Reg.CC_RANGE_LO 0x3FFFFF80#32).ccRange.2) * 128 ∧
    (mem.setReg Reg.CC_RANGE_LEN 0x80000#32).ccRange = (0, 0x80000) ∧ (0 + 0x80000) * 128 ≤ (mem.setReg Reg.CC_RANGE_LEN 0x80000#32).ccSize ∧
    (mem.setReg Reg.CC_RANGE_LEN 0x80001#32).ccSize < (0 + 0x80001) * 128 ∧ fld (acc 4).data 2 0 = 4 ∧ fld (acc 5).data 2 0 = 5 := by decide +kernel
theorem wit_CacheWork_ctl : mem.accepts Reg.CC_CTL (acc 1) = true ∧ bit (acc 1).data 0 = true ∧ bit (acc 0).data 0 = false ∧
    (mem.accepting Reg.CC_CTL (acc 1)).cache.st = .disabled ∧ (mem.accepting Reg.CC_CTL (acc 1)).cache.invalDone = false ∧
    ((cacheWith (fun c => { c with invalDone := true })).accepting Reg.CC_CTL (acc 1)).cache.invalDone = true ∧
    ((cacheWith (fun c => { c with st := .enabled })).accepting Reg.CC_CTL (acc 0)).cache.st = .enabled ∧
    ((cacheWith (fun c => { c with st := .enabled })).accepting Reg.CC_CTL (acc 0)).cache.job = none := by decide +kernel
theorem wit_CacheWork_jobs : (cacheWith (fun c => { c with job := some (jobOf 6) })).awake = true ∧ (jobOf 6).waits = [] ∧ (jobOf 6).op ≠ 7 ∧ (jobOf 6).writes = [] ∧
    (cacheWith (fun c => { c with job := some (jobOf 6) })).cache.quiet = true ∧ (jobOf 7).op = 7 ∧
    (cacheWith (fun c => { c with job := some (jobOf 7) })).cache.filling = [] ∧ (cacheWith (fun c => { c with drainPend := true })).cache.drainPend = true := by
  decide +kernel
/-- A held doorbell write and a held update of ring 16, 1 µs after the last retry. -/
def owing : State := { mem with time := 100, glb := { mem.glb with doorbells := [(7, 5)], owed := [(16, .error 3)] } }
theorem wit_CacheWork_answers :
    Tab.getD (fun _ => none) (cacheWith (fun c => { c with miss := [(16, some (missed 3 1 (some (0, 0))))] })).cache.miss 16 = some (missed 3 1 (some (0, 0))) ∧
    (missed 3 1 none).reply = none ∧ (cacheWith (fun c => { c with victims := [victim (some 0)] })).cache.victims[0]? = some (victim (some 0)) ∧
    (victim none).writing = true ∧ (victim none).reply = none ∧
    mem.since mem.cache.retryAt < atLeast1 (fld (mem.regAt Reg.CC_CFG) 31 16) * 100 ∧
    atLeast1 (fld ((owing.setReg Reg.CC_CFG 0).regAt Reg.CC_CFG) 31 16) * 100 ≤ (owing.setReg Reg.CC_CFG 0).since owing.cache.retryAt ∧
    owing.glb.doorbells = [(7, 5)] ∧ owing.glb.owed = [(16, .error 3)] ∧
    (cacheWith (fun c => { c with victims := [victim none] })).glb.mode ≠ .endgame ∧ ({ victim none with line := { line 3 with poison := true } } : Victim).line.poison = true := by decide +kernel
/-- The find and the touch of a lookup of line 3. -/
def touched (s : State) : State × Served := (s.ccFind 3 0 64 .clean).touch 3 0 load64
/-- The miss register that a lookup would take. -/
def freeReg (s : State) (q : CcLookup) : Option Nat := s.cache.freeMiss q.manager
/-- Line 3 in a way of its set. -/
def hitting : State := cacheWith (fun c => { c with st := .enabled, ways := [(48, some (line 3))] })
/-- A PRELOAD_LOCK of lines 2 and 3 finds the way in parity error (R330). -/
theorem test_preload_parity : ((poke hitting [(Reg.CC_RANGE_LO, 0x100), (Reg.CC_RANGE_LEN, 2)]).preloadFind (some 48)).cache.way 48 = none ∧
    ((poke hitting [(Reg.CC_RANGE_LO, 0x100), (Reg.CC_RANGE_LEN, 1)]).preloadFind (some 48)).cache.way 48 = some (line 3) := by decide +kernel
/-- Every register but the sixteenth taken. -/
def full : State := cacheWith (fun c => { c with miss := (List.range 16).map (fun r => (r, some (missed (100 + r) 1 none))) })
theorem wit_CacheLookup : mem.awake = true ∧ mem.glb.mode ≠ .opening ∧ mem.inStore (0x3FFFFFF#30).toNat 1 = true ∧ mem.inStore (0x4000000#30).toNat 1 = false ∧
    (cacheWith (fun c => { c with miss := [(0, some (missed 3 8 none))] })).cache.missOf 3 = some 0 ∧ mem.glb.mode ≠ .endgame ∧ (missed 3 7 none).merges < 8 ∧
    8 ≤ (missed 3 8 none).merges ∧ load64.bytes = [] ∧ hitting.cache.missOf 3 = none ∧
    (touched hitting).2 ≠ .miss ∧ (touched mem).2 = .miss ∧ full.cache.missOf 3 = none ∧ (touched full).2 = .miss ∧
    freeReg full (loadQ unitFetcher 64) = none ∧ freeReg full (loadQ unitRingCmd 64) = some 16 ∧ freeReg mem (loadQ unitFetcher 64) = some 0 := by decide +kernel
/-- Whether the first lookup that an operation of a state wants can be made, and whether it is open after that. -/
def wants (s t : State) : Option (Option Bool) :=
  t.cache.wanted.map (fun w => (s.ccLook w.1 w.2.1 w.2.2 true).map (fun u => u.cache.wanted.isNone && decide (u.cache.served.length ≤ s.cache.served.length)))
/-- The entry's line missing, and the MANAGER class's register taken. -/
def noRegister : State := (entryIn 0).modCache (fun c => { c with miss := [(16, some (missed 100 1 none))] })
theorem wit_LookupsWait : (entryIn 0).cache.wanted = none ∧ (entryIn 0).cache.held.any (Held.mark 1).after = false ∧ (Held.mark 1).busy = some Reg.DF_MARK_STAT ∧
    wants (entryIn 0) ((entryIn 0).markOp 1 .clean) = some (some true) ∧ wants noRegister (noRegister.markOp 1 .clean) = some none ∧
    wants (noRegister.accepting Reg.DF_MARK_CMD (acc 1)) ((noRegister.accepting Reg.DF_MARK_CMD (acc 1)).markOp 1 .clean) = some none ∧
    noRegister.accepts Reg.DF_MARK_CMD (acc 1) = true ∧ (noRegister.hold (.mark 1)).cache.held = [.mark 1] ∧ noRegister.canon = true ∧
    wants pairIn ((pairIn.ringLoad unitFetcher 16 .clean).1.stick false 16) = some (some true) ∧ (pairIn.ringLoad unitFetcher 16 .clean).2 = none := by
  decide +kernel
theorem wit_LookupsWait_step : svc.cache.wanted = none ∧ ∃ t, step svc = .next t := ⟨rfl, _, rfl⟩

/-! ### Witnesses: keys and the seal level -/

theorem wit_KeyCommands : one.accepts Reg.KY_CMD (acc 1) = true ∧ bit ((one.setReg Reg.KY_RESULT 0x80000000#32).regAt Reg.KY_RESULT) 31 = true ∧
    bit ((one.accepting Reg.KY_CMD (acc 1)).regAt Reg.KY_RESULT) 31 = false ∧ fld (acc 1).data 1 0 = 1 ∧ fld (acc 2).data 1 0 = 2 ∧ fld (acc 3).data 1 0 = 3 ∧
    Tab.rising (one.accepting Reg.KY_CMD (acc 1)).keys.slots = true := by decide +kernel
/-- A load of slot 29 with an order already judged. -/
def loading (r : Nat) : KeyLoad := { slot := 29, wrap := List.replicate 18 0, refuse := r }
theorem wit_KeyCommands_done : ({ one with keys := { one.keys with load := some (loading 4) } } : State).keys.load = some (loading 4) ∧
    ({ one with keys := { one.keys with load := some (loading 4) } } : State).canon = true ∧ (loading 4).refuse < 5 ∧ (loading 4).refuse ≠ 0 ∧
    (loading 0).refuse = 0 ∧ ({ one with fuse := { one.fuse with kek := some 1 } } : State).fuse.kek = some 1 := by decide +kernel
/-- SERVICE at a given level. -/
def atLevel (l : Fin 3) : State := { one with glb := { one.glb with level := some l } }
/-- What SealRequests calls free. -/
def sealFree (s : State) (a : RpAcc) : Bool :=
  let u := s.accepting Reg.KY_SEAL_CMD a
  decide (fld a.data 31 16 = 0x5EA1) && u.serving && u.keys.sanit.isNone && u.keys.job.isNone && !bit (u.regAt Reg.KY_SEAL_STAT) 31 && decide (fld a.data 1 0 < 3)
theorem wit_SealRequests : one.accepts Reg.KY_SEAL_CMD (acc 0x5EA10001#32) = true ∧ sealFree one (acc 1) = false ∧ sealFree one (acc 0x5EA10003#32) = false ∧
    sealFree (atLevel 2) (acc 0x5EA10002#32) = true ∧ ((atLevel 2).accepting Reg.KY_SEAL_CMD (acc 0x5EA10002#32)).levelNo = fld (0x5EA10002#32) 1 0 ∧
    sealFree (atLevel 0) (acc 0x5EA10001#32) = true ∧ ((atLevel 0).accepting Reg.KY_SEAL_CMD (acc 0x5EA10001#32)).levelNo < fld (0x5EA10001#32) 1 0 ∧
    sealFree (atLevel 1) (acc 0x5EA10000#32) = true ∧ fld (0x5EA10000#32) 1 0 < ((atLevel 1).accepting Reg.KY_SEAL_CMD (acc 0x5EA10000#32)).levelNo := by
  decide +kernel
theorem wit_SealRequests_fenced : ((atLevel 1).tenantsFenced .clean).2 = true ∧ allThere ((atLevel 1).tenantsFenced .clean).1 = true ∧ (atLevel 1).cmds.all (fun e => e.2.isNone) = true ∧
    (pair7.tenantsFenced .clean).2 = false ∧ allThere (pair7.tenantsFenced .clean).1 = true ∧ (holding one cmd0).cmds.all (fun e => e.2.isNone) = false := by decide +kernel
/-- A sanitize with die 0's cursor at a plane-block. -/
def sanit (e : Nat) : Sanitize := { target := 0, cursor := [(0, e)], running := [] }
/-- It under way, in a given state. -/
def sanitizing (s : State) (e : Nat) : State := { s with keys := { s.keys with sanit := some (sanit e) } }
/-- What is erased next from a plane-block on, where nothing is wanted. -/
def nextErase (s : State) (e : Nat) : Option (Option (List Nat)) :=
  let r := State.sanitNext 0 .clean (s.geo 0).blocks e s
  if allThere r.1 then some r.2 else none
/-- mem with the first line of die 0's bitmap held. -/
def mapped : State := cached mem [131072]
/-- The Ledger's answer to that erase. -/
def erases (s : State) (e n : Nat) : Answer :=
  ((State.sanitNext 0 .clean (s.geo 0).blocks e s).1.ask (s.chargeOf (s.costTable 0) .erase n 0) (s.unitsOf (s.costTable 0) .erase) 511 0 true).2
/-- Credit for everything, and HOLDUP_OK. -/
def rich (s : State) : State := { s with ledger := { s.ledger with credit := 1000000000000 }, pins := { s.pins with holdup := true } }
/-- One block a plane: the seal's and three FACTORY ones. -/
def tiny : State := sanitizing (cached { mem.setReg (lnA 0 Reg.LN_GEOM1) 1 with store := [(0x01000000, 0xFC)] } [131072]) 0
theorem wit_SanitizeRuns_erase : (sanitizing mapped 4).working = true ∧ (sanitizing mapped 4).keys.sanit = some (sanit 4) ∧ (sanitizing mapped 4).keys.job = none ∧
    (sanitizing mapped 4).laneUp 0 = true ∧ 0 * 64 + 0 ∈ (sanitizing mapped 4).sanitDies 0 ∧ (sanitizing mapped 4).seqFree 0 0 = true ∧
    Tab.getD (fun _ => 0) (sanit 4).cursor 0 < (sanitizing mapped 4).dieBlocks 0 ∧ nextErase (sanitizing (spoiled mem [131072]) 4) 4 = some none ∧
    nextErase (sanitizing mapped 4) 4 = some (some (4 :: [5, 6, 7])) ∧ allThere (sanitizing mapped 4) = true ∧
    erases (rich (sanitizing mapped 4)) 4 4 = .admitted ∧ erases (sanitizing mapped 4) 4 4 ≠ .admitted := by decide +kernel
theorem wit_SanitizeRuns_none : nextErase tiny 0 = some (some []) ∧ Tab.getD (fun _ => 0) (sanit 0).cursor 0 < tiny.dieBlocks 0 ∧
    ({ why := .after, level := 0, target := 0, region := 0, todo := [], step := .programming, wrote := [], failed := [] } : SealJob).why = .after := by decide +kernel
theorem wit_SanitizeRuns_done : (sanit 4).running = [] ∧ ∀ g ∈ (sanitizing svc 4).laneList, ∀ d ∈ (sanitizing svc 4).sanitDies g,
    (sanitizing svc 4).dieBlocks (d / 64) ≤ Tab.getD (fun _ => 0) (sanit 4).cursor d := by decide +kernel

/-! ### Witnesses: tenants -/

/-- Instance 7 selected, in a given state. -/
def tenant (st : TnState) : State := { one.setReg Reg.TN_SEL 7 with tenants := { one.tenants with st := [(7, st)] } }
/-- Instance 7 FENCED with a ring in a given state. -/
def fencedWith (x : Ctx) : State := { (rings [(16, x)]).setReg Reg.TN_SEL 7 with tenants := { one.tenants with st := [(7, .fenced)] } }
theorem wit_InstanceCommands_refused : (tenant .active).accepts Reg.TN_CMD (acc 1) = true ∧ fld (acc 1).data 2 0 = 1 ∧ fld (acc 2).data 2 0 = 2 ∧
    fld (acc 3).data 2 0 = 3 ∧ fld (acc 4).data 2 0 = 4 ∧ fld ((tenant .active).regAt Reg.TN_SEL) 8 0 = 7 ∧
    fld (((tenant .active).setReg Reg.TN_SEL 511).regAt Reg.TN_SEL) 8 0 = 511 ∧ ((mode .fallback .none).accepting Reg.TN_CMD (acc 1)).glb.mode = .fallback ∧
    (mode .fallback .none).accepts Reg.TN_CMD (acc 1) = true ∧ ((tenant .resetting).accepting Reg.TN_CMD (acc 2)).tnState 7 = .resetting := by decide +kernel
theorem wit_InstanceCommands_states : (tenant .fenced).tnState 7 = .fenced ∧ one.tnState 7 = .free ∧ (tenant .active).tnState 7 ≠ .free ∧
    (tenant .active).tenants.resetOf = none ∧ ({ one with tenants := { one.tenants with resetOf := some 8 } } : State).tenants.resetOf.isSome = true ∧
    ((fencedWith (ctx 1 1 6 7 17 0 0 0)).anyFenced 7 .clean).2 = true ∧ ((fencedWith (ctx 1 0 6 7 17 0 0 0)).anyFenced 7 .clean).2 = false ∧
    allThere ((fencedWith (ctx 1 1 6 7 17 0 0 0)).anyFenced 7 .clean).1 = true ∧ allThere ((tenant .active).tnResetBegin 7 true .clean) = true ∧
    bit ((tenant .active).regAt Reg.TN_STAT) 31 = false ∧ bit (((tenant .active).setReg Reg.TN_STAT 0x80000000#32).regAt Reg.TN_STAT) 31 = true := by decide +kernel
theorem wit_InstanceCommands_destroy : (fencedWith sub7).ringsOf 7 ≠ [] ∧ (tenant .fenced).ringsOf 7 = [] ∧ (tenant .fenced).held 7 = 0 ∧
    ({ tenant .fenced with slabs := [(0, { Slab.init with st := .held, owner := 7 })] } : State).held 7 ≠ 0 ∧
    (∃ k, k < 4 ∧ ({ tenant .fenced with keys := { one.keys with slots := [(31, some 1)] } } : State).keyLoaded (4 * 7 + k) = true) ∧
    (∀ k, k < 4 → (tenant .fenced).keyLoaded (4 * 7 + k) = false) := by
  refine ⟨by decide +kernel, by decide +kernel, by decide +kernel, by decide +kernel, ⟨3, by decide +kernel, by decide +kernel⟩, by decide +kernel⟩
/-- Instance 7 under reset. -/
def underReset (s : State) : State := { s with tenants := { s.tenants with resetOf := some 7 } }
/-- The same with an event ring for the final record: ring 17 of instance 511. -/
def summed (s : State) : State := underReset (s.setReg (winKey Reg.TN_CPL_CFG 511) 0x80110000#32)
/-- The state with the final record queued. -/
def queuedRec : State := { summed pair7 with
  tenants := { (summed pair7).tenants with closing := true }
  ready := [{ cplRing := 17, subRing := some 0xFFFD, handle := none, port := 0, words := finalWords 7 0 0 0, reserved := false, seen := none }] }
theorem wit_ResetEnds : (underReset one).working = true ∧ (underReset (holding one cmd0)).cmdsFor 7 ≠ [] ∧ (underReset one).cmdsFor 7 = [] ∧
    (underReset one).ringsOf 7 = [] ∧ (underReset one).tenants.closing = false ∧ one.canon = true ∧
    bit ((underReset one).tnCpl 511) 31 = false ∧ Tab.rising (underReset one).tenants.st = true ∧ Tab.rising (underReset one).keys.slots = true := by decide +kernel
theorem wit_ResetEnds_record : bit ((summed pair7).tnCpl 511) 31 = true ∧ fld ((summed pair7).tnCpl 511) 30 16 = 17 ∧ (summed pair7).cmdsFor 7 = [] ∧
    ((summed pair7).ringsOf 7).any (summed pair7).ringWaits = false ∧ queuedRec.nextReady 0 = queuedRec.ready.head? ∧ (queuedRec.port 0).notifyFree = true ∧
    (queuedRec.ready.head?.map (fun r => allThere (queuedRec.writeReady r .clean false none))) = some true ∧
    (({ queuedRec with ports := [(0, { Port.init with rqTag := some 0 })] } : State).port 0).notifyFree = false ∧ queuedRec.tenants.closing = true ∧
    allThere (queuedRec.finalNow .clean) = true := by decide +kernel

/-! ### Witnesses: the Mover -/

/-- Manager channel 63 in a given state. -/
def chan (x : Channel) : State := { one with channels := [(63, x)] }
/-- A channel in a state with some transactions out. -/
def chAt (st : ChState) (n : Nat) : Channel := { Channel.init with st := st, out := n }
theorem wit_ChannelCommands : one.accepts (mvA 63 Reg.MV_CH_CMD) (acc 1) = true ∧ one.isPool 55 = true ∧ one.isPool 63 = false ∧
    fld (acc 1).data 2 0 = 1 ∧ fld (acc 2).data 2 0 = 2 ∧ fld (acc 4).data 2 0 = 4 ∧ ((chan (chAt .active 0)).channel 63).st ≠ .idle ∧
    (one.channel 63).st = .idle ∧ ((chan (chAt .halted 0)).channel 63).st = .halted ∧ ((chan (chAt .active 2)).channel 63).out ≠ 0 ∧
    ((chan (chAt .active 0)).channel 63).out = 0 ∧ (one.accepting (mvA 63 Reg.MV_CH_CMD) (acc 1)).canon = true ∧ one.glb.mode ≠ .endgame ∧
    one.accepts (Reg.MV_TMR + 28) (acc 5) = true ∧ one.accepts (mvA 63 Reg.MV_CH_CFG) (acc 5) = true ∧
    ((one.setReg (mvA 63 Reg.MV_CH_STAT) 0x100).accepting (mvA 63 Reg.MV_CH_CFG) (acc 5)).cfgPending 63 = true ∧
    ((one.setReg (mvA 63 Reg.MV_CH_STAT) 0x100).accepting (mvA 63 Reg.MV_CH_CFG) (acc 5)).atBoundary 63 = true := by decide +kernel
/-- A read that waits for the Mover on port 0. -/
def waitingRead : State := { holding one { cmd0 with pkt := { pkt0 with opcode := 1 } } with ports := [(0, { Port.init with moverQ := [(0, 0, 0)] })] }
theorem wit_ChannelWork_take : waitingRead.working = true ∧
    ((List.range 64).find? (fun ch => waitingRead.isPool ch && (waitingRead.channel ch).cmd.isNone)) = some 0 ∧ waitingRead.takePort = some (0, 0, 0, 0) ∧
    (((waitingRead.modPort 0 (fun q => { q with moverQ := q.moverQ.drop 1 })).castleCh 0).cmd? 0 0).map (fun x => x.pkt.opcode) = some 1 := by decide +kernel
theorem wit_ChannelCommands_late : ((chan { chAt .fetch 1 with handAt := some 0 }).accepting (mvA 63 Reg.MV_CH_CFG) (acc 5)).time.toNat = 0 ∧
    (((chan { chAt .fetch 1 with handAt := some 0 }).accepting (mvA 63 Reg.MV_CH_CFG) (acc 5)).channel 63).handAt = some 0 ∧
    (chan (chAt .fetch 0)).accepts (mvA 63 Reg.MV_CH_CFG) (acc 5) = true := by decide +kernel
theorem wit_ChannelCommands_full : ((chan (chAt .idle 64)).channel 63).st = .idle ∧ ((chan (chAt .idle 64)).channel 63).maxOut ≤ ((chan (chAt .idle 64)).channel 63).out ∧
    ((chan (chAt .idle 0)).channel 63).out < ((chan (chAt .idle 0)).channel 63).maxOut := by decide +kernel
theorem wit_ChannelWork_fetch : ((chan { chAt .fetch 0 with got := 4 }).channel 63).st = .fetch ∧ ((chan { chAt .fetch 0 with got := 4 }).channel 63).got = 4 ∧
    ((chan { chAt .fetch 0 with got := 4 }).channel 63).out < ((chan { chAt .fetch 0 with got := 4 }).channel 63).maxOut ∧
    ((chan { chAt .fetch 0 with got := 4 }).channel 63).cmd = none := by decide +kernel
theorem wit_ChannelWork_request : (chan (chAt .active 0)).awake = true ∧ (chAt .active 0).stop = false ∧ (chAt .active 0).out < (chAt .active 0).maxOut ∧
    ((chan (chAt .active 0)).channel 63).cmd = none ∧ (chan (chAt .active 0)).running = true ∧
    fired ((chan (chAt .active 0)).opportunity (mvA 63 0) 0).2 11 = none ∧
    ((chan { chAt .active 0 with cmd := some (0, 0, 0) }).channel 63).cmd = some (0, 0, 0) := by decide +kernel
/-- A fetched descriptor: its first word and its length. -/
def descr (got : Nat) (w0 len : Byte) : Channel := { chAt .fetch 0 with got := got, buffer := [(0, w0), (4, len), (16, 1)] }
/-- The trigger source of a configuration set to 1, with a tick counted. -/
def trig (n : Nat) : Channel := { descr 1 0x45 4 with active := 0x00010040#32, trigPend := n }
theorem wit_ChannelWork_descriptor : ((chan (descr 2 0 0)).channel 63).got = 2 ∧ (descr 2 0 0).st = .fetch ∧ (descr 2 0 0).stop = false ∧ (descr 3 0 0).got = 3 ∧
    descBad (descr 1 0 0).descNat (fld (descr 1 0 0).active 19 16) = true ∧ descBad (descr 1 0x05 4).descNat (fld (descr 1 0x05 4).active 19 16) = false ∧
    (descOf (descr 1 0x05 4).descNat).trig = false ∧ descBad (trig 0).descNat (fld (trig 0).active 19 16) = false ∧ (descOf (trig 0).descNat).trig = true ∧
    (trig 0).trigPend = 0 ∧ 0 < (trig 1).trigPend := by decide +kernel
/-- A timer of 1 µs, enabled. -/
def timed : State := { one.setReg (Reg.MV_TMR + 28) 0x80000001#32 with time := 100 }
theorem wit_ChannelWork_timer : bit (timed.regAt (Reg.MV_TMR + 4 * 7)) 31 = true ∧
    Tab.getD (fun _ => 0) timed.ticks 7 + atLeast1 (fld (timed.regAt (Reg.MV_TMR + 4 * 7)) 19 0) * 100 ≤ timed.time.toNat ∧ one.atBoundary 63 = true ∧
    one.cfgPending 63 = false ∧ (one.setReg (mvA 63 Reg.MV_CH_STAT) 0x100).cfgPending 63 = true ∧ one.canon = true := by decide +kernel

/-! ### Witnesses: signals and vectors -/

/-- Vector 4095 with a control word and a delivery state. -/
def vector (w : Word) (x : Vec) : State := { one.setReg (vtA 4095 0) w with signal := { one.signal with vecs := [(4095, x)] } }
/-- A message to present. -/
def vecMsg : Vec := { Vec.init with msgs := [(2, [])] }
theorem wit_VectorCommands_ctl : (vector 3 vecMsg).accepts (vtA 4095 0) (acc 1) = true ∧ ((vector 3 vecMsg).accepting (vtA 4095 0) (acc 1)).canon = true ∧
    Tab.rising ((vector 3 vecMsg).accepting (vtA 4095 0) (acc 1)).signal.vecs = true ∧ ((vector 3 vecMsg).accepting (vtA 4095 0) (acc 1)).vecCtl 4095 = 3#32 ∧
    (((vector 3 vecMsg).accepting (vtA 4095 0) (acc 1)).vec 4095).bad = [] ∧ (((vector 3 vecMsg).accepting (vtA 4095 0) (acc 1)).vec 4095).opened = none ∧
    bit ((vector 1 vecMsg).vecCtl 4095) 0 = true ∧ bit (acc 0).data 0 = false ∧ (vector 1 vecMsg).vecCtl 4095 = 1#32 ∧ (vector 11 vecMsg).vecCtl 4095 = 11#32 ∧
    (vector 11 vecMsg).vecAligned 4095 = true := by decide +kernel
theorem wit_VectorCommands_mask : (mode .fallback .none).pageDead 7 = true ∧ one.pageDead 7 = false ∧ one.accepts (dbA 7 Reg.DB_VEC_MASK) (acc 0xFF) = true ∧
    one.accepts (Reg.SG_SENSE + 28) (acc 0xFF) = true := by decide +kernel
theorem wit_VectorCommands_work : one.alive = true ∧ one.pins.warmLow = false ∧ one.glb.mode ≠ .reset ∧
    ((vector 1 { Vec.init with opened := some 0 }).vec 4095).opened.isSome = true ∧ (one.vec 4095).opened = none ∧
    ((vector 1 { Vec.init with opened := some 0 }).vec 4095).expiry ≤ one.time.toNat ∧ one.time.toNat < (Vec.init).expiry + 1 ∧
    ((vector 1 vecMsg).vec 4095).msgs = (2, []) :: [] ∧ (vector 1 vecMsg).vecAligned 4095 = true ∧
    ((vector 1 vecMsg).setReg (vtA 4095 4) 2).vecAligned 4095 = false := by decide +kernel
/-- The block dozed with source 53 sensed by its rising edge. -/
def dozing : State := { one.setReg (Reg.SG_SENSE + 12) 0x400 with signal := { one.signal with blockDozed := true } }
theorem wit_VectorCommands_edge : dozing.alive = true ∧ dozing.pins.warmLow = false ∧ dozing.signal.blockDozed = true ∧ dozing.sourceHere 53 = true ∧
    dozing.senses 53 true = true ∧ dozing.senses 5 true = false ∧ dozing.sourceHere 42 = false ∧ dozing.sourceHere 54 = false := by decide +kernel
/-- Vector 4095 on, with a window open since 0 of a threshold of 2, or just delivered at time 0. -/
def window (n : Nat) : State := vector 0x00000201#32 { Vec.init with opened := some 0, expiry := 100, count := n }
theorem wit_VectorCommands_raise : (vector 1 { Vec.init with closing := some (0, []) }).vecOn 4095 = true ∧ one.time.toNat = 0 ∧
    ((vector 1 { Vec.init with closing := some (0, []) }).vec 4095).opened = none ∧
    ((vector 1 { Vec.init with closing := some (0, []) }).vec 4095).closing = some (one.time.toNat, []) ∧ (window 0).vecOn 4095 = true ∧
    ((window 0).vec 4095).opened = some 0 ∧ (window 0).time.toNat ≤ ((window 0).vec 4095).expiry := by decide +kernel
/-- The threshold of a vector changed below what its window has counted. -/
def lowered : State := (vector 0x00000401#32 { Vec.init with opened := some 0, expiry := 100, count := 3 }).modVec 4095 id
theorem wit_VectorCommands_threshold : lowered.accepts (vtA 4095 0) (acc 0x00000201#32) = true ∧
    (let u := (lowered.accepting (vtA 4095 0) (acc 0x00000201#32)).setReg (vtA 4095 0) 0x00000201#32
     (u.vec 4095).opened ≠ none ∧ u.vecThreshold 4095 ≤ (u.vec 4095).count) := by decide +kernel
theorem wit_VectorCommands_latch : (5 : Nat) < 42 ∧ one.glb.mode ≠ .reset ∧ one.signal.blockDozed = false ∧
    ¬ (svc.regs = one.regs ∧ svc.pins.holdup = one.pins.holdup) := by
  refine ⟨by decide, by decide +kernel, by decide +kernel, ?_⟩
  rintro ⟨h, -⟩
  exact absurd (congrArg List.length h) (by decide +kernel)

/-! ### Witnesses: settings, the Ledger, selections and completions -/

/-- The sum of every MIN with the selected instance's at a value. -/
def minSum (s : State) (low : Nat) : Nat := (List.range 512).foldl (fun n i => n + if i = fld (s.regAt Reg.IW_TN_SEL) 8 0 then low else s.quotaMin i) 0
theorem wit_SettingsWrites : one.accepts Reg.IW_TN_QUOTA (acc 0x00010002#32) = true ∧ fld (0x00010002#32) 29 16 < fld (0x00010002#32) 13 0 ∧
    one.nSlabs < fld (0x20010000#32) 29 16 ∧ fld (0x20001000#32) 13 0 ≤ fld (0x20001000#32) 29 16 ∧ fld (0x20001000#32) 29 16 ≤ one.nSlabs ∧
    minSum one 0x1000 ≤ one.nSlabs ∧ one.nSlabs < minSum (one.setReg (winKey Reg.IW_TN_QUOTA 8) 0x1001) 0x1000 ∧
    (expertOf one (pageBase Reg.SW_REP_ADD)).accepts Reg.SW_REP_ADD (acc 0x80000000#32) = true ∧ bit (0x0000081F#32) 31 = false ∧ fld (0x8000081F#32) 19 0 < one.groupRows (fld (0x8000081F#32) 30 20) ∧
    one.groupRows (fld (0x80000820#32) 30 20) ≤ fld (0x80000820#32) 19 0 ∧ bit (0x8000081F#32) 31 = true := by decide +kernel
theorem wit_LedgerRefills : one.working = true ∧ Tab.rising one.ledger.use = true ∧ one.canon = true ∧ one.accepts Reg.LG_TN_SHARE (acc 1) = true ∧
    fld ((one.setReg Reg.LG_TN_SEL 511).regAt Reg.LG_TN_SEL) 8 0 = 511 ∧ fld (one.regAt Reg.LG_TN_SEL) 8 0 ≠ 511 ∧ Tab.rising one.ledger.lim = true := by decide +kernel
/-- A command that chooses to be tried: a blank check of instance 511, visible for long. -/
def pick : Cmd := { cmd0 with pkt := { pkt0 with opcode := 5 }, owner := 511 }
/-- Lane 0 with one command pending, late. -/
def oneCand (x : Cmd) : State := cached { holding (mem.setReg (lnA 0 Reg.LN_SCHED_AGE) 0) x with time := 1000000 } [131072]
/-- The state in which a selection chooses. -/
def selecting (s : State) : State := ((s.sealNext 0).deferWaiting 0).lanePolicy 0
/-- What it chooses. -/
def chosen (s : State) : Option ((Nat × Nat × Cmd) × Bool) := (selecting s).choose 0 ((selecting s).laneCands 0 ((selecting s).cmdsOn 0))
theorem wit_Select : allThere (oneCand pick) = true ∧ allThere ((selecting (oneCand pick)).tryPick 0 (0, 0, pick) true .clean .none).1 = true ∧
    (oneCand pick).working = true ∧ (oneCand pick).laneUp 0 = true ∧ ((selecting (oneCand pick)).lane 0).blockWait = false ∧
    ((selecting (laneWith (fun l => { l with blockWait := true }))).lane 0).blockWait = true ∧ chosen mem = none ∧
    chosen (oneCand pick) = some ((0, 0, pick), true) ∧ ((selecting (oneCand pick)).cmdsOn 0).length = 0 + 1 ∧
    ((selecting (oneCand pick)).tryPick 0 (0, 0, pick) true .clean .none).2 = true ∧
    chosen (oneCand { pick with owner := 7 }) = some ((0, 0, { pick with owner := 7 }), true) ∧
    ((selecting (oneCand { pick with owner := 7 })).tryPick 0 (0, 0, { pick with owner := 7 }) true .clean .none).2 = false ∧
    ((selecting (oneCand { pick with owner := 7 })).pickChecks 0 { pick with owner := 7 } .clean).2.1 = some (stQuota, 0) := by decide +kernel
/-- A record that waits for ring 17 on port 0. -/
def waitingRec (res : Bool) (sub : Option Nat) (h : Option Nat) : Ready :=
  { cplRing := 17, subRing := sub, handle := h, port := 0, words := 0, reserved := res, seen := none }
/-- pair7 with records waiting. -/
def withReady (s : State) (l : List Ready) : State := { s with ready := l }
/-- What a lookup of ring 17's context gives where the notify path waits with a record, and nothing is wanted. -/
def ofCpl (s : State) (l : List Ready) : Option (Option Ctx) :=
  let r := (withReady s l).ringLoad unitNotify 17 .clean
  if allThere r.1 then some r.2 else none
/-- A record of a completion of handle 0, and one of no command. -/
def recs : List Ready := [waitingRec true (some 16) (some 0)]
/-- pair7 with a command of handle 0 completed. -/
def ended : State := withReady (holding pair7 { cmd0 with stage := .ready }) recs
theorem wit_Complete : pair7.working = true ∧ (8191 : Nat) < one.nSlabs ∧ (({ one with slabs := [(8191, { Slab.init with st := .zeroing })] } : State).slab 8191).st = .zeroing ∧
    one.nextReady 0 = none ∧ (withReady pair7 [waitingRec false none none]).nextReady 0 = some (waitingRec false none none) ∧
    ((withReady svc [waitingRec false none none]).nextReady 0) = some (waitingRec false none none) ∧ (pair7.port 0).notifyFree = true ∧
    (({ pair7 with ports := [(0, { Port.init with rqTag := some 0 })] } : State).port 0).notifyFree = false ∧
    ofCpl (spoiled pairIn [8]) [waitingRec false none none] = some none ∧ ofCpl pair7 [waitingRec false none none] = some (some cpl7) ∧ cpl7.kind = 2 ∧
    cpl7.state = 0 ∧ cpl7.sound = true ∧ (cpl7.setW 4 1).sound = false ∧ cpl7.out < cpl7.freeSlots ∧
    (waitingRec false none none).isSummary = false ∧ (waitingRec true (some 16) (some 0)).isSummary = false ∧ (waitingRec false (some 0xFFFE) none).isSummary = true ∧
    ended.nextReady 0 = some (waitingRec true (some 16) (some 0)) ∧
    (let t := (((ended.ringLoad unitNotify 17 .clean).1).present 0 0)
     t.readyCmd (waitingRec true (some 16) (some 0)) ≠ none ∧ (t.writeSlot (waitingRec true (some 16) (some 0)) cpl7 (t.readyWords (waitingRec true (some 16) (some 0))) .clean none).2 = true) ∧
    (ofCpl (rings []) [waitingRec false none none]).map (fun x => x.map Ctx.kind) = some (some 0) := by decide +kernel
theorem wit_Complete_tag : (one.cluster (8191 / 512)).dozed = false ∧ one.awake = true := by decide +kernel
theorem wit_Ledger : one.working = true ∧ one.canon = true ∧ Tab.rising one.ledger.use = true ∧ Tab.rising one.ledger.lim = true := by decide +kernel
theorem wit_Complete_write : cpl7.vecEn = false ∧ (pair7.writeSlot (waitingRec false none none) cpl7 0 .clean none).2 = true ∧
    allThere (pair7.writeSlot (waitingRec false none none) cpl7 0 .clean none).1 = true ∧
    (pair7.ringStore unitNotify 17 (cpl7.setProd 1) .clean).1.canon = true ∧ ((flaky pairIn 1668795210).ringLoad unitNotify 17 .clean).2.isSome = true ∧
    (((flaky pairIn 1668795210).ringLoad unitNotify 17 .clean).1.writeSlot (waitingRec false none none) cpl7 0 .clean none).2 = false := by
  decide +kernel
/-- A state with a late error of ring 17. -/
def lateIn (s : State) : State := { s with lateQ := [waitingRec false (some 16) none] }
/-- The first late error that may go on. -/
def lateNext (s : State) : Option Ready :=
  s.lateQ.find? (fun r => s.lateMay r.cplRing && !s.readyWaits r && !s.cache.stuck.contains (true, r.cplRing))
theorem wit_LateErr : lateNext pair7 = none ∧ lateNext (lateIn pair7) = some (waitingRec false (some 16) none) ∧
    (ofRing (lateIn (rings [])) unitNotify 17).map Ctx.kind = some 0 ∧ lateNext (lateIn (rings [])) = some (waitingRec false (some 16) none) ∧
    ofRing (lateIn (rings [(17, ctx 2 2 6 7 0 0 0 0)])) unitNotify 17 = some (ctx 2 2 6 7 0 0 0 0) ∧
    (lateNext (lateIn (rings [(17, ctx 2 2 6 7 0 0 0 0)]))).isSome = true ∧
    (ctx 2 2 6 7 0 0 0 0).state = 2 ∧ cpl7.state ≠ 2 ∧ ((spoiled (lateIn pairIn) [8]).ringLoad unitNotify 17 .clean).2 = none := by decide +kernel

/-! ### Witnesses: Quill programs -/

/-- Core 0 with an instruction word at its program counter 3, registers 1 and 2, and an event. -/
def coreAt (op : Nat) (rest : Nat) (regs : Tab Word) (ev : List Word) : State :=
  one.modCluster 0 (fun c => { c with quill := { Core.init with state := .running, pc := 3, iram := [(3, BitVec.ofNat 32 (op * 2 ^ 26 + rest))], regs := regs, events := ev } })
theorem wit_QuillArithmetic : ∀ op, op < 0x11 → (coreAt op 0 [(1, 5)] []).canon = true ∧ Tab.rising ((coreAt op 0 [(1, 5)] []).core 0).regs = true ∧
    (coreAt op 0 [(1, 5)] []).coreUp 0 = true ∧ ((coreAt op 0 [(1, 5)] []).core 0).executes = true ∧ ((coreAt op 0 [(1, 5)] []).scribePoint 0).2 = none ∧
    fld ((coreAt op 0 [(1, 5)] []).core 0).word 31 26 = op := by decide +kernel
theorem wit_QuillArithmetic_data : (dataWord 0 (0x20000 : Word)).isSome = true ∧ (dataWord 0 (0x2FFFC : Word)).isSome = true ∧ dataWord 0 (0x1FFFC : Word) = none ∧
    dataWord 0 (0x30000 : Word) = none ∧ ((coreAt 0x10 0 [] []).core 0).events = [] ∧ ((coreAt 0x10 0 [] [7]).core 0).events = 7 :: [] := by decide +kernel
/-- The Scribe with an instruction word at its program counter 3, where a perturbation finds an upset in it. -/
def scribeUpset (op : Nat) : State :=
  { one with scribe := { Core.init with state := .running, pc := 3, iram := [(3, BitVec.ofNat 32 (op * 2 ^ 26))] } }.setReg 0xFF00 0xFFFF0991#32
theorem wit_QuillArithmetic_fault : (scribeUpset 0).coreUp 16 = true ∧ ((scribeUpset 0).core 16).executes = true ∧
    ((scribeUpset 0).scribePoint 16).2.isSome = true := by decide +kernel
theorem wit_QuillArithmetic_idle : ¬ ((svc.coreUp 16 = true) ∧ (svc.core 16).executes = true) := by decide +kernel
theorem wit_QuillArithmetic_scribe : one.coreUp 16 = true ∧ (one.core 16).executes = true ∧ (one.scribePoint 16).2 = none := by decide +kernel
theorem wit_QuillControl : one.cmd? 0 0 = none ∧ (holding one cmd0).cmd? 0 0 = some cmd0 ∧ ({ cmd0 with stage := .service } : Cmd).inService = true ∧
    cmd0.inService = false ∧ one.scribeUp = true ∧ (coreAt 0x19 0 [] []).coreUp 0 = true ∧ handleOf 0 0 = (0, 0) ∧ one.kickBlocked = false ∧
    (∀ op, op < 9 → fld ((coreAt (0x11 + op) 0 [] []).core 0).word 31 26 = 0x11 + op) ∧ fld ((coreAt 0x17 1 [] []).core 0).word 13 0 % 32 = 1 ∧
    fld ((coreAt 0x18 11 [] []).core 0).word 13 0 % 32 = 11 ∧ (0xFFFF : Word) ≠ 0 ∧ (0xFFFF : Word).toNat ≤ 65535 ∧
    fld ((coreAt 0x18 13 [] []).core 0).word 13 0 % 32 = 13 ∧ 4 < fld ((coreAt 0x17 5 [] []).core 0).word 13 0 % 32 := by decide +kernel
theorem wit_QuillControl_result : (one.commit 0 0x3FF [] false false).2 ≠ 0 := by decide +kernel
/-- Core 0 starting. -/
def starting0 : State := one.modCluster 0 (fun c => { c with quill := { c.quill with state := .starting, timers := [(3, 50)] } })
theorem wit_QuillControl_more : (starting0.core 0).state = .starting ∧ (starting0.core 0).executes = true ∧ Tab.find? (starting0.core 0).timers 3 = some 50 ∧
    50 ≤ ({ starting0 with time := 50 } : State).time.toNat ∧ (coreAt 0x1A 0 [] []).faultMet 0 .illegal = true ∧
    0x1A ≤ fld ((coreAt 0x1A 0 [] []).core 0).word 31 26 ∧ (coreAt 0x09 0 [] []).faultMet 0 .dataAddress = true := by decide +kernel
/-- The Scribe running, with an instruction word at its program counter 3. -/
def scribeAt (op rest : Nat) : State :=
  { one with scribe := { Core.init with state := .running, pc := 3, iram := [(3, BitVec.ofNat 32 (op * 2 ^ 26 + rest))] } }
theorem wit_QuillControl_scribe : (scribeAt 0x15 0).coreUp 16 = true ∧ ((scribeAt 0x15 0).core 16).executes = true ∧ ((scribeAt 0x15 0).scribePoint 16).2 = none ∧
    handleOf 16 0 = (0, 0) ∧ (holding (scribeAt 0x15 0) cmd0).cmd? 0 0 = some cmd0 ∧ cmd0.stage = .pending ∧ statusCodes.contains 0 = true ∧
    statusCodes.contains 0xFF = false ∧ svc.scribeUp = false := by decide +kernel
/-- Core 0 in its ROM's program. -/
def romCore : State := one.modCluster 0 (fun c => { c with quill := { c.quill with state := .rom } })
theorem wit_QuillControl_rom : (romCore.core 0).state = .rom ∧ (romCore.core 0).executes = true ∧ romCore.notOfRom 0 0x014 [] = true ∧ (one.core 0).state ≠ .rom ∧
    fld ((coreAt 0x17 4 [] []).core 0).word 13 0 % 32 = 4 := by decide +kernel

/-! ### Witnesses: strokes -/

/-- A stroke of die 0 and handle 0. -/
def stroke (id : Nat) (p0 : Word) : Stroke := { id := id, params := [p0, 0, 0, 0, 0, 0, 1, 0], byBlock := false, rom := false, fill := 0 }
/-- Lane 0 with a stroke committed. -/
def queued (st : Stroke) : State := laneWith (fun l => { l with strokes := [st] })
/-- The lane's answer to a stroke: class fit and room. -/
def fitsRoom (s : State) (st : Stroke) : Option (Bool × Bool) :=
  let u := (s.opportunity (lnA 0 0) 0).1
  (u.strokeEntry 0 st).map (fun e => (u.paramOk 0 st.params && u.classOk 0 (pDie st.params) e.cls true, u.roomFor 0 st e))
/-- Lane 0 with its read FIFO full and a command on handle 0. -/
def fifoFull : State :=
  let s := holding one { cmd0 with pkt := { pkt0 with opcode := 1 }, stage := .service }
  s.modLane 0 (fun l => { l with
    strokes := [stroke 0x00C 0]
    luns := [(0, { Lun.init with pendData := true })]
    slots := (List.range 14).map (fun k => (k, { frame := 0, handle := 5, index := k, seqNo := k, arrived := 0, loaded := false })) })
theorem wit_StrokeRuns_start : (queued (stroke 0x003 0)).laneWork = true ∧ (queued (stroke 0x003 0)).laneUp 0 = true ∧
    ((queued (stroke 0x003 0)).lane 0).run = none ∧ ((queued (stroke 0x003 0)).lane 0).strokes = stroke 0x003 0 :: [] ∧
    fitsRoom (queued (stroke 0x3FF 0)) (stroke 0x3FF 0) = none ∧ fitsRoom (queued (stroke 0x003 0)) (stroke 0x003 0) = some (true, true) ∧
    (fitsRoom (queued (stroke 0x003 15)) (stroke 0x003 15)).map Prod.fst = some false ∧ fitsRoom fifoFull (stroke 0x00C 0) = some (true, false) ∧
    one.glb.mode ≠ .endgame := by decide +kernel
/-- Lane 0 running a stroke whose next element is a word. -/
def running (w : Word) : Running :=
  { stroke := stroke 0x003 0, cls := 0, cont := false, slab := false, cache := false, elems := [w], moved := 0, status := 0 }
/-- The lane with it. -/
def elem (w : Word) : State := laneWith (fun l => { l with run := some (running w) })
/-- A stroke of another target than die 0's. -/
def otherStroke : Stroke := { stroke 0x003 4 with params := [4, 0, 0, 0, 0, 0, 1, 0] }
/-- Lane 0 with a stroke waiting with its CE_N released, and another committed. -/
def waitingWith (w : Word) (st : Stroke) : State :=
  laneWith (fun l => { l with
    strokes := [st]
    waiting := some { stroke := stroke 0x003 0, cls := 0, cont := false, slab := false, cache := false, elems := [w], moved := 0, status := 0 } })
/-- Whether the stroke at the head may run beside the one that waits. -/
def besideOf (s : State) (st : Stroke) : Option Bool :=
  ((s.opportunity (lnA 0 0) 0).1.strokeEntry 0 st).map (fun e => (s.lane 0).besides st e)
theorem wit_StrokeRuns_beside : besideOf (waitingWith 0 (stroke 0x003 0)) (stroke 0x003 0) = some false ∧
    besideOf (waitingWith 0 otherStroke) otherStroke = some true ∧ besideOf (queued (stroke 0x003 0)) (stroke 0x003 0) = some true ∧
    ((waitingWith 0 otherStroke).lane 0).run = none ∧ ((waitingWith 0 otherStroke).lane 0).strokes = otherStroke :: [] ∧
    (fitsRoom (waitingWith 0 otherStroke) otherStroke).isSome = true := by decide +kernel
/-- Whether the stroke at the head is admitted under an open multi-plane sequence of LUN 1. -/
def admittedIn (s : State) (st : Stroke) : Option Bool :=
  ((s.opportunity (lnA 0 0) 0).1.strokeEntry 0 st).map (fun e => (s.lane 0).mpAdmits (pDie st.params) e.cls)
theorem wit_StrokeRuns_sequence : admittedIn ((queued (stroke 0x003 0)).modLane 0 (fun l => { l with mpOpen := some (1, 2) })) (stroke 0x003 0) = some false ∧
    admittedIn (queued (stroke 0x003 0)) (stroke 0x003 0) = some true := by decide +kernel
/-- Lane 0 with a stroke committed whose entry stands in a table of the stroke store: class 0, one element, END. -/
def tabled (st : Stroke) : State :=
  image ((queued st).setReg Reg.MS_IMG_LEN 0x00200000) 0x60000 [0, 0x00010000, 20, 28, 0, BitVec.ofNat 32 (st.id + 65536), 0x00010000, 0]
theorem wit_StrokeRuns_store : (tabled (stroke 0x003 0)).strokeRow 0 (stroke 0x003 0) = some 0 ∧ ((tabled (stroke 0x003 0)).strokeEntry 0 (stroke 0x003 0)).isSome = true ∧
    ((tabled (stroke 0x003 0)).strokeFetch 0 (stroke 0x003 0) .uncorrectable).2 = true ∧ ((tabled (stroke 0x003 0)).strokeFetch 0 (stroke 0x003 0) .clean).2 = false := by
  decide +kernel
/-- A stroke of handle 0 for a command that is still pending. -/
theorem wit_StrokeRuns_barred : (stroke 0x00D 0).byBlock = false ∧
    (holding (queued (stroke 0x00D 0)) cmd0).barred 0 ((queued (stroke 0x00D 0)).strokeEntry 0 (stroke 0x00D 0)) (stroke 0x00D 0).params = true := by decide +kernel
/-- The engine's own reset of LUN 0, behind LUN 1's sequence. -/
def ownReset : Stroke := { stroke 0x001 0 with byBlock := true, rom := true }
theorem wit_StrokeRuns_reset : (((queued ownReset).strokeEntry 0 ownReset).map (fun e => (e.cls, (queued ownReset).classOk 0 0 e.cls true))) = some (8, true) ∧
    admittedIn ((queued ownReset).modLane 0 (fun l => { l with mpOpen := some (1, 2) })) ownReset = some false ∧
    (({ stroke 0x012 0 with seq := true } : Stroke).seq = true) := by decide +kernel
/-- ENDGAME with LUN 0 busy and a stroke of it committed. -/
def endStroke : State :=
  { laneWith (fun l => { l with strokes := [stroke 0x003 0], luns := [(0, { Lun.init with state := .generalBusy, busy := true })] }) with
    glb := { one.glb with mode := .endgame } }
theorem wit_StrokeRuns_endgame : endStroke.laneWork = true ∧ endStroke.laneUp 0 = true ∧ (endStroke.lane 0).run = none ∧ endStroke.glb.mode = .endgame ∧
    (fitsRoom endStroke (stroke 0x003 0)).map Prod.fst = some false ∧ besideOf endStroke (stroke 0x003 0) = some true := by decide +kernel
theorem wit_StrokeRuns_waiting : ((waitingWith 0x70000000#32 (stroke 0x003 0)).lane 0).run = none ∧
    ((waitingWith 0x70000000#32 (stroke 0x003 0)).lane 0).waiting.map Running.elems = some [0x70000000#32] ∧
    (waitingWith 0x70000000#32 (stroke 0x003 0)).laneUp 0 = true := by decide +kernel
/-- Whether a WAIT of those fields releases CE_N where no other stroke waits. -/
def releases (w : Word) : Bool := bit w 20 && decide (fld w 19 16 ≠ 0 ∨ 50 ≤ fld w 15 0)
theorem wit_StrokeRuns_wait : releases 0x70100032 = true ∧ releases 0x70110000 = true ∧ releases 0x70100031 = false ∧
    ((elem 0x70100032).lane 0).waiting.isNone = true := by decide +kernel
theorem wit_StrokeRuns_frame : (elem 0x40000001#32).lastAsked 0 [0, 0, 0, 0, 0, 0, 2, 0] (0 + 1) = false ∧ (running 0).cls ≠ 3 ∧
    elemFrames (0x40000001#32) (running 0).stroke.params = 1 ∧ bit (0x40000001#32) 4 = false := by decide +kernel
theorem wit_StrokeRuns_elements : ∀ k, k < 10 → (elem (BitVec.ofNat 32 (k * 2 ^ 28))).laneWork = true ∧ (elem (BitVec.ofNat 32 (k * 2 ^ 28))).laneUp 0 = true ∧
    ((elem (BitVec.ofNat 32 (k * 2 ^ 28))).lane 0).run = some (running (BitVec.ofNat 32 (k * 2 ^ 28))) ∧ fld (BitVec.ofNat 32 (k * 2 ^ 28)) 31 28 = k ∧
    (elem (BitVec.ofNat 32 (k * 2 ^ 28))).canon = true ∧ Tab.rising ((elem (BitVec.ofNat 32 (k * 2 ^ 28))).lane 0).luns = true := by decide +kernel
theorem wit_StrokeRuns_operands : ∀ k, k < 4 → fld (BitVec.ofNat 32 (3 * 2 ^ 28 + k)) 1 0 = k ∧ fld (BitVec.ofNat 32 (3 * 2 ^ 28 + k)) 31 28 = 3 ∧
    bit (0x40000010#32) 4 = true ∧ bit (0x40000001#32) 4 = false ∧ elemFrames (0x40000001#32) (running 0).stroke.params = 1 ∧
    ({ elem 0 with cmds := [(0, some cmd0)] } : State).cmd? (0 / 8) (pHandle (running 0).stroke.params) = some cmd0 ∧
    (elem 0).cmd? (0 / 8) (pHandle (running 0).stroke.params) = none ∧
    fld (pw (running 0).stroke.params 5) 7 0 = fld ((one.setReg (lnA 0 Reg.LN_RL_FEAT) 0).regAt (lnA 0 Reg.LN_RL_FEAT)) 7 0 ∧
    fld (pw (running 0).stroke.params 5) 7 0 ≠ fld ((one.setReg (lnA 0 Reg.LN_RL_FEAT) 9).regAt (lnA 0 Reg.LN_RL_FEAT)) 7 0 := by decide +kernel
/-- Lane 0 with LUN 0 in a given state. -/
def lunIs (u : Lun) : State := laneWith (fun l => { l with luns := [(0, u)] })
/-- A read under way. -/
def reading0 : Lun := { Lun.init with state := .readBusy, busy := true, busyClass := 0 }
/-- RB_N in use on lane 0. -/
def rbUse (s : State) : State := s.setReg (lnA 0 Reg.LN_SIG_STAT) 0x10000
theorem wit_BusyLuns_poll : (lunIs reading0).working = true ∧ (lunIs reading0).laneUp 0 = true ∧ (lunIs reading0).laneWork = true ∧
    ((lunIs reading0).lane 0).run = none ∧ ((lunIs reading0).lane 0).waiting = none ∧ (((lunIs reading0).lane 0).lun 0).busy = true ∧ (lunIs reading0).rbInUse 0 = false ∧
    (rbUse (lunIs reading0)).rbInUse 0 = true ∧ (lunIs reading0).canon = true ∧ Tab.rising ((lunIs reading0).lane 0).luns = true ∧
    (((lunIs reading0).lane 0).lun 0).overrun = false ∧ readyStatus 0 ((lunIs reading0).pollByte 0 0x60).2 = true ∧ (lunIs reading0).seqOwns 0 0 = false := by
  decide +kernel
theorem wit_BusyLuns_limits :
    ({ rbUse ((lunIs reading0).setReg (lnA 0 Reg.LN_BUSY_TMO) 0) with time := 100000 } : State).busyLimit 0 0 ≤
      ({ rbUse ((lunIs reading0).setReg (lnA 0 Reg.LN_BUSY_TMO) 0) with time := 100000 } : State).since reading0.busyAt ∧
    (((lunIs { Lun.init with state := .suspending }).lane 0).lun 0).state = .suspending ∧
    1000 * atLeast1 (fld ((one.setReg (lnA 0 Reg.LN_SUSP_CTL) 0x100).suspCtl 0) 15 8) ≤ ({ one with time := 1000 } : State).since 0 ∧
    (((lunIs { Lun.init with overrun := true }).lane 0).lun 0).overrun = true ∧ one.scribeUp = true ∧ svc.scribeUp = false := by decide +kernel

/-! ### Witnesses: the ends of commands -/

/-- A command of an opcode at a stage whose Quill answered. -/
def atEnd (op : Nat) (st : Stage) (q : Option Nat) : Cmd := { cmd0 with pkt := { pkt0 with opcode := op }, stage := st, quill := q }
/-- Its frames in a flow. -/
def withFrames (x : Cmd) (f : Flow) : Cmd := { x with frames := List.replicate 4 { FrameSt.init with flow := f } }
/-- A state with slab 0 poisoned. -/
def poisoned (s : State) : State := { s with slabs := [(0, { Slab.init with st := .held, poison := true })] }
theorem wit_CommandEnds_open : (holding one (atEnd 1 .service none)).cmd? 0 0 = some (atEnd 1 .service none) ∧ (holding one (atEnd 1 .service none)).working = true ∧
    (holding one (atEnd 1 .service none)).clusterUp 0 = true ∧ (atEnd 1 .service none).stage ≠ .ready ∧ (atEnd 1 .service none).discard = false ∧
    (atEnd 1 .service none).quill = none ∧ (atEnd 2 .service none).verifying = false ∧ ({ atEnd 4 .service none with destPart := true } : Cmd).destPart = true ∧
    (atEnd 4 .service none).destPart = false ∧ (atEnd 8 .service (some 3)).quill = some 3 ∧ (3 : Nat) ≠ stOk ∧ (atEnd 1 .service (some 3)).framesStill = true ∧
    (holding one (atEnd 1 .service (some 3))).onLane 0 0 = false ∧ ({ atEnd 3 .service (some 3) with result := some 4 } : Cmd).result = some 4 ∧
    ((holding one (atEnd 3 .service (some 3))).modLane 0 (fun l => { l with luns := [(0, { Lun.init with erase := some 0 })] })).onLane 0 0 = true := by
  decide +kernel
/-- A read whose frames are done and moved. -/
def readDone : Cmd := { withFrames (atEnd 1 .moving (some stOk)) .done with moved := true }
theorem wit_CommandEnds_read : readDone.allEnded = true ∧ (holding one readDone).dataMoved 0 readDone = true ∧ (holding one readDone).anyPoison readDone = false ∧
    readDone.frames.any FrameSt.bad = false ∧ (withFrames readDone .failed).frames.any FrameSt.bad = true ∧ (withFrames readDone .failed).allEnded = true ∧
    (poisoned (holding one { readDone with slabs := [0] })).anyPoison { readDone with slabs := [0] } = true ∧
    (poisoned (holding one { readDone with slabs := [0] })).dataMoved 0 { readDone with slabs := [0] } = true ∧ readDone.patrol = false := by decide +kernel
/-- A program in its blank check. -/
def verifyingCmd (q : Option Nat) : Cmd := { atEnd 2 .service q with verifying := true }
theorem wit_CommandEnds_verify : (verifyingCmd none).verifying = true ∧ (verifyingCmd none).stage ≠ .pending ∧ (verifyingCmd none).quill = none ∧
    (verifyingCmd (some 3)).quill = some 3 ∧ (verifyingCmd (some stOk)).quill = some stOk ∧ (verifyingCmd none).pkt.opcode = 2 ∧
    (holding one (verifyingCmd none)).cmd? 0 0 = some (verifyingCmd none) := by decide +kernel
theorem wit_CommandEnds_rest : (atEnd 0x0A .service (some stOk)).stage = .service ∧ (one.geo 0).frames ≤ (({ atEnd 5 .service (some stOk) with
      counts := List.replicate 16 37376 } : Cmd).planeCounts (mawPlane pkt0.maw0)).length ∧ (atEnd 2 .pending none).stage = .pending ∧
    ({ atEnd 2 .pending none with dataErr := some (4, 0) } : Cmd).dataErr = some (4, 0) ∧ (atEnd 2 .pending none).dataErr = none ∧
    (holding one { atEnd 6 .staged none with moved := true }).dataMoved 0 { atEnd 6 .staged none with moved := true } = true ∧
    (atEnd 4 .service (some stOk)).stage ≠ .pending := by decide +kernel

/-! ### Witnesses: frames -/

/-- A frame's slot in the FIFO of lane 0. -/
def slot (f : Frame) : Slot := { frame := f, handle := 0, index := 0, seqNo := 0, arrived := 0, loaded := false }
/-- A read on handle 0 whose frame 0 is in a flow. -/
def readIn (f : Flow) : Cmd := { atEnd 1 .service none with frames := [{ FrameSt.init with flow := f }] }
/-- It with its frame in slot i of lane 0. -/
def inFifo (i : Nat) (f : Frame) : State := (holding one (readIn .inSlot)).modLane 0 (fun l => { l with slots := [(i, slot f)] })
/-- The FIFO read of that slot. -/
def fifo (s : State) (i : Nat) (e : Ecc) : State × Bool := s.fifoRead 0 i e
theorem wit_FrameFlow_hde : (inFifo 0 0).working = true ∧ (inFifo 0 0).clusterUp 0 = true ∧ (((inFifo 0 0).cluster 0).hde 1).length < 4 ∧ one.hdeNext 0 0 = none ∧
    (inFifo 0 0).hdeNext 0 5 = some (0, 0, slot 0) ∧ (fifo (inFifo 0 0) 0 .uncorrectable).2 = true ∧ (fifo (inFifo 0 0) 0 .clean).2 = false ∧
    (((fifo (inFifo 0 0) 0 .clean).1.loadFrame 0 0).1.frame? 0 0 0) = some { FrameSt.init with flow := .inSlot } := by decide +kernel
theorem wit_FrameFlow_erased : fld (((inFifo 0 0).setReg (rgA 0 Reg.RG_DEC_ERASED) 0).regAt (rgA (0 / 64) Reg.RG_DEC_ERASED)) 15 0 ≤ ones (0 : Frame) :=
  Nat.le_trans (by decide +kernel : _ ≤ 0) (Nat.zero_le _)
theorem wit_FrameFlow_load : ones (0 : Frame) < fld (((inFifo 0 0).setReg (rgA 0 Reg.RG_DEC_ERASED) 1).regAt (rgA (0 / 64) Reg.RG_DEC_ERASED)) 15 0 := by decide +kernel
/-- An engine on frame 0 of handle 0. -/
def engine (bits : Frame) (refeed gambit : Bool) (key : Option (BitVec 512)) : Engine :=
  { lane := 0, handle := 0, frame := 0, bits := bits, limit := 0, refeed := refeed, gambit := gambit, key := key }
/-- Cluster 0 changed. -/
def clusterWith (s : State) (f : Cluster → Cluster) : State := s.modCluster 0 f
/-- The engine that HDE 1 of cluster 0 finds. -/
def inHde (s : State) : Option Engine := List.find? (fun e => e.handle = 0 && e.frame = 0) ((s.cluster 0).hde 1)
/-- The all-zero codeword decodes at once; one flipped bit does not without iterations. -/
theorem wit_FrameFlow_decode : inHde (clusterWith one (fun c => c.setHde 1 [engine 0 false false none])) = some (engine 0 false false none) ∧
    (hdeDecode false 0 (0 : Frame)).ok = true ∧ (hdeDecode false 0 (1 : Frame)).ok = false ∧ (engine 1 false true none).gambit = true ∧
    (engine 1 true false none).refeed = true ∧ bit ((one.setReg (rgA 0 Reg.RG_DEC_CTL) 0).decCtl 0) 8 = false ∧
    bit ((one.setReg (rgA 0 Reg.RG_DEC_CTL) 0x300).decCtl 0) 8 = true ∧ (one.setReg (rgA 0 Reg.RG_DEC_CTL) 0x300).softEn 0 = true ∧
    (one.setReg (rgA 0 Reg.RG_DEC_CTL) 0).softEn 0 = false := by decide +kernel
/-- It with the frame's passes and flow as given. -/
def inFlow (i : Nat) (x : FrameSt) (sl : Slot) : State :=
  (holding one { atEnd 1 .service none with frames := [x] }).modLane 0 (fun l => { l with slots := [(i, sl)] })
theorem wit_FrameFlow_passes : (inFlow 0 { FrameSt.init with flow := .inSlot, pass := 1 } (slot 0)).hdeNext 0 7 = some (0, 0, slot 0) ∧
    (inFlow 0 { FrameSt.init with flow := .inSlot, ones := some 3 } (slot 0)).hdeNext 0 7 = some (0, 0, slot 0) ∧
    (inFlow 2 FrameSt.init { slot 0 with foreign := true }).hdeNext 0 7 = some (0, 2, { slot 0 with foreign := true }) ∧
    (fifo (inFlow 2 FrameSt.init { slot 0 with foreign := true }) 2 .clean).2 = false ∧
    (fifo (inFlow 2 FrameSt.init { slot 0 with foreign := true }) 2 .uncorrectable).2 = true := by decide +kernel
/-- A frame that waits for a context, in slot i. -/
def softWait (i : Nat) : State := (inFifo i 0).modRegion 0 (fun r => { r with waiting := [(0, 0, 0)] })
/-- The FIFO read of the grant. -/
def granted (s : State) (i : Nat) (e : Ecc) : Bool := ((s.modRegion 0 (fun y => { y with waiting := [] })).fifoRead 0 i e).2
theorem wit_FrameFlow_grant : (softWait 13).working = true ∧ (0 : Nat) < (softWait 13).nRegions ∧ ((softWait 13).region 0).dozed = false ∧
    ((softWait 13).region 0).waiting = (0, 0, 0) :: [] ∧ (softWait 13).freeCtx 0 = some 0 ∧ ((softWait 13).lane 0).slotOf 0 0 = some (13, slot 0) ∧
    granted (softWait 13) 13 .uncorrectable = true ∧ granted (softWait 13) 13 .clean = false ∧ ((softWait 13).setReg (rgA 0 Reg.RG_DEC_CTL) 0).softSenses 0 = 0 ∧
    ((softWait 13).setReg (rgA 0 Reg.RG_DEC_CTL) 0x800).softSenses 0 ≠ 0 := by decide +kernel
/-- A context that wants n soft sensings. -/
def ctxOf (n : Nat) : SdeCtx := { cluster := 0, lane := 0, handle := 0, frame := 0, hard := 0, soft := [], want := n, gambit := false, ctl := 0 }
/-- Region 0 with a context in use. -/
def soft (n : Nat) : State := (inFifo 15 0).modRegion 0 (fun r => { r with ctx := [(31, some (ctxOf n))] })
theorem wit_FrameFlow_sense : (soft 2).laneUp 0 = true ∧ Tab.find? ((soft 2).lane 0).slots 15 = some (slot 0) ∧ ((inFifo 15 0).region (0 / 64)).ctx = [] ∧
    ((soft 2).region (0 / 64)).ctx = [(31, some (ctxOf 2))] ∧ (ctxOf 2).lane = 0 ∧ (ctxOf 2).handle = (slot 0).handle ∧ (ctxOf 2).frame = (slot 0).index ∧
    (ctxOf 2).soft.length + 1 < (ctxOf 2).want ∧ (ctxOf 1).want ≤ (ctxOf 1).soft.length + 1 ∧
    Tab.getD (fun _ => none) ((soft 0).region 0).ctx 31 = some (ctxOf 0) ∧ (ctxOf 0).want ≤ (ctxOf 0).soft.length ∧ (ctxOf 0).gambit = false := by decide +kernel
/-- A frame that waits for the Gambit walk after n passes. -/
def gambiting (n : Nat) : State :=
  (holding one { readIn .gambitQueue with frames := [{ FrameSt.init with flow := .gambitQueue, pass := n }] }).modLane 0 (fun l => { l with gambit := [(0, 0)] })
/-- Steps 0 and 1 of every type's ladder valid. -/
def ladder (s : State) : State := poke s ((List.range 8).flatMap (fun k => (List.range 2).map (fun n => (winKey Reg.CAL_GB_DATA1 (32 * k + n), 0x80000000#32))))
theorem wit_FrameFlow_gambit : (gambiting 0).working = true ∧ (gambiting 0).laneUp 0 = true ∧ ((gambiting 0).lane 0).gambitRun = none ∧
    ((gambiting 0).lane 0).gambit = (0, 0) :: [] ∧ ((gambiting 0).cmd? (0 / 8) 0).isSome = true ∧
    (gambiting 63).stepValid ((gambiting 63).frameType (readIn .gambitQueue)) 63 = false ∧
    (ladder (gambiting 1)).stepValid ((ladder (gambiting 1)).frameType (readIn .gambitQueue)) 1 = true ∧
    (({ readIn .gambitQueue with frames := [{ FrameSt.init with flow := .gambitQueue, pass := 1 }] } : Cmd).frames[0]?).map (·.pass) = some 1 := by decide +kernel
/-- A step of the walk whose sensing has arrived in slot 14. -/
def stepArrived (flags : Word) (loaded : Bool) : State :=
  (holding one (readIn .gambitSense)).modLane 0 (fun l => { l with
    slots := [(14, { slot 0 with loaded := loaded })], gambitRun := some { handle := 0, frame := 0, ofs := 0, flags := flags, gone := false } })
theorem wit_FrameFlow_step : (stepArrived 4 false).working = true ∧ (stepArrived 4 false).laneUp 0 = true ∧
    ((stepArrived 4 false).lane 0).gambitRun.map GambitRun.gone = some false ∧ ((stepArrived 4 false).lane 0).slotOf 0 0 = some (14, slot 0) ∧
    (stepArrived 0 false).hdeNext 0 7 = some (0, 14, slot 0) ∧ bit (4#32) 2 = true ∧ (slot 0).loaded = false ∧ bit (0#32) 2 = false ∧ ((stepArrived 4 true).lane 0).slotOf 0 0 = some (14, { slot 0 with loaded := true }) := by
  decide +kernel
theorem wit_FrameFlow_stepContext : ((softWait 14).lane 0).slotOf 0 0 = some (14, slot 0) ∧ granted (softWait 14) 14 .clean = false ∧
    (softWait 14).freeCtx 0 = some 0 := by decide +kernel
theorem wit_FrameFlow_senseLost : ((soft 2).fifoRead 0 15 .uncorrectable).2 = true ∧ ((soft 2).fifoRead 0 15 .clean).2 = false ∧
    ({ ctxOf 0 with gambit := true } : SdeCtx).gambit = true := by decide +kernel
/-- A unit that waits for a cipher engine of cluster 0. -/
def cipherIn (dec : Bool) (keys : Tab (Option (BitVec 512))) : State :=
  clusterWith { holding one (readIn .waitCipher) with keys := { one.keys with slots := keys } } (fun c =>
    if dec then { c with decipher := [(0, 0)] } else { c with encipher := [(0, 0)] })
theorem wit_FrameFlow_cipher : ((cipherIn true []).cluster 0).cipher 1 = none ∧ (cipherIn true []).cmd? 0 0 = some (readIn .waitCipher) ∧
    (readIn .waitCipher).frames[0]? = some { FrameSt.init with flow := .waitCipher } ∧ (readIn .waitCipher).managerCopy = false ∧
    ((cipherIn true []).cluster 0).decipher = (0, 0) :: [] ∧ (cipherIn true []).keyAt (readIn .waitCipher).keyNo = none ∧
    (cipherIn true [(28, some 5)]).keyAt (readIn .waitCipher).keyNo = some 5 ∧ Tab.rising (cipherIn true [(28, some 5)]).keys.slots = true ∧ ((cipherIn false []).cluster 0).decipher = [] ∧
    ((cipherIn false []).cluster 0).encipher = (0, 0) :: [] ∧
    (clusterWith one (fun c => c.setCipher 1 (some (engine 0 true false (some 5))))).cmd? 0 0 = none ∧
    ((clusterWith (holding one (readIn .inCipher)) (fun c => c.setCipher 1 (some (engine 0 true false (some 5))))).cluster 0).cipher 1 =
      some (engine 0 true false (some 5)) ∧ (engine 0 false false (some 5)).refeed = false ∧ (engine 0 true false (some 5)).key = some 5 := by decide +kernel
/-- A frame with the Scribe. -/
def atScribe : State := holding (expertOf one (pageBase Reg.CAL_GB_SCMD)) (readIn .scribe)
theorem wit_FrameFlow_verdict : atScribe.accepts Reg.CAL_GB_SCMD (acc 0x40000000#32) = true ∧
    ((atScribe.accepting Reg.CAL_GB_SCMD (acc 0x40000000#32)).frame? (0 / 8) 0 0).map FrameSt.flow = some Flow.scribe ∧
    ((atScribe.accepting Reg.CAL_GB_SCMD (acc 0x40000000#32)).cmd? (0 / 8) 0).map (fun (x : Cmd) => x.lane) = some 0 ∧ fld (0x40000000#32) 31 30 = 1 ∧
    fld (0x80000000#32) 31 30 = 2 ∧ fld (0x40000000#32) 29 23 = 0 ∧ ¬ ((one.frame? 0 0 0).map FrameSt.flow = some Flow.scribe) := by decide +kernel

/-! ### Witnesses: doze -/

/-- Cluster 0 idle and allowed to doze. -/
def idle0 : State := one.setReg Reg.CLK_DOZE_CTL 0x7FFFF
/-- Cluster 0 dozed with lane 0's words saved and a retrain asked for. -/
def asleep : State := { (one.modCluster 0 (fun c => { c with dozed := true })).modLane 0 (fun l => { l with saved := some [0, 0, 1, 2, 3, 4, 5, 6], retrainReq := some true }) with pending := [] }
theorem wit_Dozing_cluster : idle0.awake = true ∧ idle0.serving = true ∧ idle0.clusterUp 0 = true ∧ idle0.wakeDemand 0 = false ∧ idle0.clusterIdle 0 = true ∧
    idle0.canon = true ∧ one.wakeDemand 0 = true ∧ (idle0.lane 0).enabled = true ∧ idle0.castPending 0 = false ∧ (idle0.lane 1).enabled = false := by decide +kernel
theorem wit_Dozing_wake : asleep.awake = true ∧ (0 : Nat) < asleep.nClusters ∧ (asleep.cluster 0).dozed = true ∧ asleep.wakeDemand 0 = true ∧
    (asleep.cluster 0).quill.state ≠ .fault ∧ asleep.cmds = [] ∧ asleep.canon = true ∧ (asleep.lane 0).saved = some [0, 0, 1, 2, 3, 4, 5, 6] := by decide +kernel
theorem wit_Dozing_region : (idle0.region 1).dozed = false ∧ (1 : Nat) < idle0.nRegions ∧ bit (idle0.regAt Reg.CLK_DOZE_CTL) (16 + 1) = true ∧
    (idle0.region 1).still = true ∧ ((softWait 13).region 0).still = false ∧
    (((softWait 13).modRegion 0 (fun r => { r with dozed := true })).region 0).dozed = true := by decide +kernel
/-- Every cluster and region dozed. -/
def allDozed : State :=
  { svc.setReg Reg.CLK_DOZE_CTL 0x7FFFF with
    clusters := (List.range 16).map (fun c => (c, { Cluster.init with dozed := true }))
    regions := (List.range 2).map (fun r => (r, { Region.init with dozed := true })) }
theorem wit_Dozing_block : allDozed.awake = true ∧ allDozed.serving = true ∧ bit (allDozed.regAt Reg.CLK_DOZE_CTL) 18 = true ∧
    (∀ c ∈ allDozed.clusterList, (allDozed.cluster c).dozed = true) ∧ (∀ r ∈ allDozed.regionList, (allDozed.region r).dozed = true) ∧
    allDozed.centralStill = true ∧ allDozed.cache.still = true ∧ allDozed.blotterStill = true ∧ (∀ e ∈ dozing.signal.vecs, e.2.opened = none) ∧
    dozing.canon = true := by decide +kernel
/-- The block dozed with a sample above the ceiling of 580, and with an edge caught. -/
def dozingHot (n : BitVec 10) : State := { dozing with pins := { dozing.pins with therm0 := n } }
theorem wit_Dozing_causes : dozing.alive = true ∧ dozing.pins.warmLow = false ∧ dozing.signal.blockDozed = true ∧ dozing.signal.caught = 0 ∧
    (dozingHot 579).pins.therm0.toNat < 580 ∧ (dozingHot 579).pins.therm1.toNat < 580 ∧ 580 ≤ (dozingHot 580).pins.therm0.toNat ∧ dozing.nRegions = 2 ∧
    580 ≤ ({ dozing with pins := { dozing.pins with therm1 := 600 } } : State).pins.therm1.toNat ∧
    ({ dozing with signal := { dozing.signal with caught := 1 } } : State).signal.caught ≠ 0 := by decide +kernel

/-- OPENING in phase DEFECT with both regions allowed to doze; every cluster and region dozed with a dirty line left. -/
def dirtyLeft : State := allDozed.modCache (fun c => { c with st := .enabled, ways := [(48, some { line 3 with dirty := true })] })
theorem wit_Dozing_more : (opn .defect).glb.mode ≠ .fallback ∧ 5 ≤ (opn .defect).glb.phase.code ∧ ((softWait 13).region 0).waiting ≠ [] ∧
    dirtyLeft.cache.clean = false ∧ dirtyLeft.cache.still = true ∧ allDozed.cache.clean = true ∧ dirtyLeft.centralStill = true ∧ dirtyLeft.blotterStill = true ∧
    allDozed.scribe.state ≠ .running ∧ ({ allDozed with scribe := { Core.init with state := .running } } : State).scribe.state = .running := by decide +kernel

/-! ### Witnesses: Sweep, Patrol and the end -/

/-- Sweep enabled on some arrays. -/
def sweeping (w : Word) (row : Nat) : State := (one.setReg Reg.SW_CTL w).modScrub (fun x => { x with row := row, arrays := fld w 9 4 })
/-- Where Sweep stands. -/
def nextRow (s : State) : Option (Nat × Nat × Nat) := sweepAt s.sweepBegin.sweepSkips s.sweepBegin.sweepGroups s.sweepBegin.scrub.row 0
theorem wit_Scrub_sweep : (sweeping 0x3F1 0).awake = true ∧ (sweeping 0x3F1 0).serving = true ∧ bit ((sweeping 0x3F1 0).regAt Reg.SW_CTL) 0 = true ∧
    nextRow (sweeping 0x3F1 0) = some (0, 0, 0) ∧ nextRow (sweeping 0x1 5) = none ∧ (sweeping 0x1 5).sweepBegin.scrub.row ≠ 0 ∧ one.canon = true := by decide +kernel
/-- The row that Sweep reads next. -/
def sweepGoes (s : State) : Option (Nat × Nat) :=
  let u := s.sweepBegin
  (sweepAt u.sweepSkips u.sweepGroups u.scrub.row 0).map (fun e => (e.2.1, e.2.2))
theorem wit_Scrub_leak : one.awake = true ∧ one.canon = true ∧
    ([((0 : Fin 512), (3 : Fin 4096))].filter (fun e => decide (bucketOf e.1.val = (0 : Fin 8).val) && decide (e.2.val < one.groupRows e.1.val))) = [] ++ [(0, 3)] ∧
    sweepGoes (sweeping 0x3F1 0) = some (0, 0) := by decide +kernel
/-- Patrol enabled with the cursor on a block of die 0, where no command is held and the bitmap's lines and the read-level entry are held. -/
def patrolling (s : State) (b : Nat) : State := poke s [(Reg.PT_CTL, 1), (Reg.PT_CURSOR, BitVec.ofNat 32 (b * 65536))]
/-- Patrol behind the issue of a visit's first page. -/
def visiting : State := (patrolling mapped 5).modScrub (fun x => { x with patPages := some [7, 9] })
/-- What Patrol samples next, where nothing is wanted. -/
def nextPages (s : State) : Option (Option (Nat × List Nat)) :=
  let r := s.patrolNext .clean
  if allThere r.1 then some r.2 else none
theorem wit_Scrub_patrol : (patrolling svc 8191).awake = true ∧ (patrolling svc 8191).serving = true ∧ bit ((patrolling svc 8191).regAt Reg.PT_CTL) 0 = true ∧
    (patrolling svc 8191).keys.sanit = none ∧ (patrolling svc 8191).scrub.patPages = none ∧ nextPages (patrolling svc 8191) = some none ∧
    nextPages visiting = some (some (0, [7, 9])) ∧ visiting.presentDies.contains 0 = true ∧ visiting.patrolAsleep 0 = false ∧
    (visiting.cmdsOf (0 / 512)).any (fun e => e.2.patrol && decide (e.2.lane = 0 / 64 ∧ e.2.stage = .pending)) = false ∧
    visiting.lowHandle (0 / 512) = some 0 ∧
    ((holding visiting { cmd0 with patrol := true }).cmdsOf (0 / 512)).any (fun e => e.2.patrol && decide (e.2.lane = 0 / 64 ∧ e.2.stage = .pending)) = true := by
  decide +kernel
/-- ENDGAME with its sequence under way or ended. -/
def ending (ended : Bool) (ctl : Word) : State :=
  { (mode .endgame .none).setReg Reg.GLB_EG_CTL ctl with endgame := { svc.endgame with ended := ended } }
theorem wit_Endgame : (ending false 1).awake = true ∧ (ending false 1).glb.mode = .endgame ∧ (∀ g ∈ (ending false 1).laneList, ((ending false 1).lane g).egDone = true) ∧
    (ending false 1).egPark.egHost = true ∧ (ending false 1).egPark.egFailed = false ∧ (ending false 0).egPark.egHost = false ∧
    (∃ g ∈ (ending false 1).laneList, (((ending false 1).modLane 127 (fun l => { l with strokes := [stroke 0 0] })).lane g).egDone = false) ∧
    (ending true 1).endgame.ended = true ∧ (ending true 1).egHost = true ∧ (ending true 1).egFailed = false ∧ (ending true 1).endgame.hostOut = 0 ∧
    (ending true 1).endgame.headerOut = false ∧ (ending true 1).canon = true ∧
    ({ ending true 0x00010000 with time := 100 } : State).egBudget ≤ ({ ending true 0x00010000 with time := 100 } : State).since 0 ∧
    ({ ending true 0x00010000 with time := 99 } : State).since 0 < ({ ending true 0x00010000 with time := 99 } : State).egBudget := by decide +kernel

/-! ### Single steps and functions with results worked out from the spec, or from the standards it names -/

/-- The state that an answer leads to. -/
def after (o : Host.Outcome State Fault Refusal) : State :=
  match o with
  | .next t => t
  | _ => State.reset
/-- What a read of a register by the owner returns. -/
def readOf (s : State) (a : Nat) : Option Word := (after (exec (.rcRead (BitVec.ofNat 23 a) 1) s)).rp.data

/-- RFC 3720's check value of CRC-32C: the digits 1 to 9. -/
theorem test_crc32c : crc32c [0x31, 0x32, 0x33, 0x34, 0x35, 0x36, 0x37, 0x38, 0x39] = 0xE3069283 := by decide +kernel
/-- FIPS 180-4: SHA-384 of "abc". -/
theorem test_sha384 : sha384 [0x61, 0x62, 0x63] = [0xCB00753F, 0x45A35E8B, 0xB5A03D69, 0x9AC65007, 0x272C32AB, 0x0EDED163, 0x1A8B605A, 0x43FF5BED,
    0x8086072B, 0xA1E7CC23, 0x58BAECA1, 0x34C825A7] := by decide +kernel
/-- R89: MS_DIGEST0 to MS_DIGEST11 are the digest's words, byte 4k in bits [31:24]. -/
theorem test_publish : (svc.publish [0xCB00753F, 0x45A35E8B]).regAt Reg.MS_DIGEST = 0xCB00753F#32 ∧
    (svc.publish [0xCB00753F, 0x45A35E8B]).regAt (Reg.MS_DIGEST + 4) = 0x45A35E8B#32 ∧ (svc.publish []).regAt Reg.MS_LOAD_COUNT = 1 := by decide +kernel
/-- FIPS 197, C.3: AES-256. -/
theorem test_aes256 : aesEnc (aesKeys (List.range 32)) ((List.range 16).map (fun k => 17 * k)) =
    [0x8E, 0xA2, 0xB7, 0xCA, 0x51, 0x67, 0x45, 0xBF, 0xEA, 0xFC, 0x49, 0x90, 0x4B, 0x49, 0x60, 0x89] := by decide +kernel
/-- FIPS 197, C.3, decrypted. -/
theorem test_aes256_inverse : aesDec (aesKeys (List.range 32)) [0x8E, 0xA2, 0xB7, 0xCA, 0x51, 0x67, 0x45, 0xBF, 0xEA, 0xFC, 0x49, 0x90, 0x4B, 0x49, 0x60,
    0x89] = (List.range 16).map (fun k => 17 * k) := by decide +kernel

/-- The worked example of 06_media_geometry_defects.md: four planes, 2,048 blocks, 1,024 pages, four frames. -/
def geo93 : Geo :=
  { frames := 4, types := 3, planes := 4, luns := 4, pages := 1024, free := false, rowC := 4, colC := 2, pb := 10, bb := 13, blocks := 2048 }
/-- Its address. -/
def maw93 : BitVec 64 := 0x0000176604D2205B
theorem test_maw : mawDie maw93 = 5990 ∧ mawLane maw93 = 93 ∧ mawCluster maw93 = 11 ∧ geo93.dieBlock maw93 = 4938 ∧ geo93.row maw93 = 0x014D2A05 ∧
    geo93.column maw93 = 0x36C0 := by decide +kernel
theorem test_defect_byte : (svc.setReg Reg.DF_BASE 0x01000000).dfOff 5990 4938 = 0x01BB34D2 := by decide +kernel
/-- 17_keys_seals.md: the tweak of that frame. -/
theorem test_tweak : echoOf maw93 3 = 0x0003176604D22058 := by decide +kernel
/-- 13_write_frontier_erase.md: the worked blank classification. -/
theorem test_blank : svc.blankClass [37370, 37368, 37371, 37180] = (1, 0xFFA1) ∧ svc.blankClass [30210, 30544, 29987, 30402] = (1, 0xCF6F) ∧
    svc.blankClass [37376, 37376, 37376, 37376] = (0, 65535) := by decide +kernel

/-- 05_register_pages.md, the worked expert write: step 1. -/
theorem test_page_id : readOf svc 0x45000 = some 0xA7120025#32 := by decide +kernel
/-- Step 2: the page's EXPERT set while the unlock is closed. -/
theorem test_page_stat_closed : readOf (after (exec (.registerWrite 0x45008 (acc 1)) (unlocked .closed (some 1)))) 0x4500C = some 4#32 := by decide +kernel
/-- Step 3. -/
theorem test_arm : (after (exec (.expertArm (acc 0x4E580000)) (unlocked .closed (some 1)))).glb.unlock = .armed := by decide +kernel
/-- Step 3 at level 2. -/
theorem test_arm_sealed : (after (exec (.expertArm (acc 0x4E580000)) (unlocked .closed (some 2)))).glb.unlock = .closed ∧
    (after (exec (.expertArm (acc 0x4E580000)) (unlocked .closed (some 2)))).glb.sealRefused = true := by decide +kernel
/-- Step 4. -/
theorem test_open : readOf (after (exec (.expertOpen (acc 0xB1A70000)) ((unlocked .armed (some 1)).setReg 0x45008 1))) 0x4500C = some 5#32 := by decide +kernel
/-- Step 5 before step 4. -/
theorem test_expert_drop : (after (exec (.registerWrite 0x45400 (acc 7)) ((unlocked .armed (some 1)).setReg 0x45008 1))).regAt Reg.GLB_WRITE_DROP_ADDR =
    0x80045400#32 := by decide +kernel
/-- Step 6. -/
theorem test_close : (after (exec (.expertClose (acc 0)) ((unlocked .open (some 1)).setReg 0x45008 1))).regAt 0x45008 = 0 := by decide +kernel

/-- 04_modes_opening_fallback.md, the three failed starts: what GLB_BOOT_ATTEMPT reads after each. -/
theorem test_first_start : ((opn .train).openFail .trainSealLane).regRead Reg.GLB_BOOT_ATTEMPT = 0x00000801#32 := by decide +kernel
theorem test_third_start : ((((opn .train).openFail .trainSealLane).openFail .imageTimeout).openFail .trainSealLane).regRead Reg.GLB_BOOT_ATTEMPT =
    0x08030803#32 := by decide +kernel

/-- 09_rings_commands_completions.md, the worked READ: its two rings. -/
def readRings : State :=
  cached { ringsIn [(0xE10, Ctx.residues [0x00072801, 0x34560000, 0x12, 0xE11, 19, 19, 0, 0, 0, 0, 0, 0, 0, 0, 0, 0]),
           (0xE11, Ctx.residues [0x00070702, 0x34570000, 0x12, 0x000A0000, 5, 5, 0, 0, 0, 0, 0, 0, 0, 0, 0, 0])] with lanes := [] } [0x708]
/-- Its doorbell: PROD becomes 20. -/
theorem test_doorbell : ((after (exec (.doorbellSubProd 7 (acc 0x0E100014) .clean false) readRings)).ringLoad unitDoorbell 0xE10 .clean).2.map Ctx.prod = some 20 := by
  decide +kernel
/-- Its completion goes to the beat at 0x0_0012_3457_0080 on HP2. -/
theorem test_completion : (((after (exec (.completionWrite 2 .clean none none) (withReady readRings
      [{ cplRing := 0xE11, subRing := some 0xE10, handle := none, port := 2, words := 0, reserved := false, seen := none }]))).port 2).queue.map HpReq.addr) =
    [0x1234570080] := by decide +kernel

/-- R157: ADDI of −1 to 0 wraps, and the program counter advances. -/
theorem test_addi : ((after (exec (.qAddi 0) (coreAt 1 (2 ^ 22 + 0x3FFF) [] []))).core 0).q 1 = 0xFFFFFFFF#32 ∧
    ((after (exec (.qAddi 0) (coreAt 1 (2 ^ 22 + 0x3FFF) [] []))).core 0).pc = 4 := by decide +kernel
/-- R157: Q0 stays zero. -/
theorem test_q0 : ((after (exec (.qAddi 0) (coreAt 1 5 [] []))).core 0).q 0 = 0 := by decide +kernel
/-- R158: BLTU compares without sign: 5 is below 0xFFFFFFFF. -/
theorem test_bltu : ((after (exec (.qBltu 0) (coreAt 0x0D (2 ^ 18 + 2 * 2 ^ 14 + 10) [(1, 5), (2, 0xFFFFFFFF)] []))).core 0).pc = 13 := by decide +kernel
/-- R158: WAITEV takes the oldest event. -/
theorem test_waitev : ((after (exec (.qWaitev 0) (coreAt 0x10 (2 ^ 22) [] [7, 8]))).core 0).q 1 = 7 ∧
    ((after (exec (.qWaitev 0) (coreAt 0x10 (2 ^ 22) [] [7, 8]))).core 0).events = [8] := by decide +kernel

/-- R384: CREATE. -/
theorem test_create : (after (exec (.create (acc 1)) (one.setReg Reg.TN_SEL 7))).tnState 7 = .fenced := by decide +kernel
/-- R333: ZEROISE. -/
theorem test_zeroise : (after (exec (.zeroise (acc 2)) { one.setReg Reg.KY_SLOT_SEL 29 with keys := { one.keys with slots := [(29, some 5)] } })).keyLoaded 29 =
    false := by decide +kernel
/-- R83: the first claim. -/
theorem test_claim : (after (exec (.mgrOwnerClaim (acc 0x40000000)) (owned none))).glb.owner = some 1 := by decide +kernel
/-- R59: the first sample is latched and a later one is not. -/
theorem test_kek : (after (exec (.kekSample 0 0) State.reset)).fuse.kek = some 0 ∧
    (after (exec (.kekSample 0 0) { State.reset with fuse := { State.reset.fuse with kek := some 9 } })).fuse.kek = some 9 := by decide +kernel
/-- R30: the lowest free tag. -/
theorem test_tag : ((after (exec (.hpRequestAccept 0) (withPort ({ Port.init with queue := [wr1], writes := [(0, some (outOf wr1))] } : Port).present))).port 0).writes.map Prod.fst =
    [0, 1] := by decide +kernel
/-- The opcode table gives no bits: no word spells a command. -/
theorem test_no_word : decodeTableWord 32 0 = none ∧ (svc.withFetchWord 32 0).pending = [] := by decide +kernel

end Sys2Proof.Tests
end

section
/-! The register port outside RESET, and the two obligations of spec/00_scope.md: a register write without effects of its own
(R9, R102) and a register read with its read-clear fields (R11, R104). -/
namespace Sys2Proof.Machine
open Sys2Proof

/-! ### What the port answers outside RESET -/

section Port
variable {s : State} {a : Nat} (hscan : s.pins.scan = .mission) (hpwr : s.pins.pwrLow = false) (hrst : s.portReset = false)
include hscan hpwr hrst

/-- A write that meets no fault of R46 is decided by orders 2 to 5 of R102 and acknowledged without an error. -/
theorem State.portWrite_decided {acc : RpAcc} (hfault : (s.portBegin a).portFault a true acc = none) (eff : Bool → State → State) :
    s.portWrite a acc eff = ((s.accepting a acc).decideWrite a eff).answer false none := by
  simp only [State.portWrite, hscan, hpwr, hrst, hfault, State.accepting, ne_eq, not_true_eq_false, Bool.false_eq_true, if_false]

/-- Order 3 of R102: on a locked page of a powered domain the write is counted with reason LOCK, and its register is told of the
lock. -/
theorem State.portWrite_locked {acc : RpAcc} (hfault : (s.portBegin a).portFault a true acc = none)
    (habsent : (s.accepting a acc).absent a = false) (hdozed : (s.accepting a acc).dozedPage a = false)
    (hlock : (s.accepting a acc).lockApplies a = true) (eff : Bool → State → State) :
    s.portWrite a acc eff = (eff true ((s.accepting a acc).countDrop 1 a)).answer false none := by
  rw [State.portWrite_decided hscan hpwr hrst hfault]
  simp only [State.decideWrite, habsent, hdozed, hlock, Bool.false_eq_true, false_and, if_false, if_true]

variable {id : BitVec 8} (halign : a % 4 = 0) (hmay : (s.portBegin a).mayRead a id = true)
include halign hmay

/-- An aligned read by a requester that may read meets no fault of R46, and its page answers it (R82). -/
theorem State.portRead_decided (value : State → Word) (clear : State → State) :
    s.portRead a id value clear =
      if (s.portBegin a).absent a then (s.portBegin a).answer false (some 0)
      else if (s.portBegin a).dozedPage a then
        (s.portBegin a).answer false (some (if a % 0x1000 = 0 then (s.portBegin a).pageId a else if a % 0x1000 = 4 then 0x00030100#32 else 0))
      else (clear (s.portBegin a)).answer false (some (value (s.portBegin a))) := by
  have hfault : (s.portBegin a).portFault a false { id := id, data := 0, par := 0 } = none := by simp [State.portFault, halign, hmay]
  simp only [State.portRead, hscan, hpwr, hrst, hfault, ne_eq, not_true_eq_false, Bool.false_eq_true, if_false]

/-- A page that the build does not have reads zero and clears nothing (R104). -/
theorem State.portRead_absent (habsent : (s.portBegin a).absent a = true) (value : State → Word) (clear : State → State) :
    s.portRead a id value clear = (s.portBegin a).answer false (some 0) := by
  rw [State.portRead_decided hscan hpwr hrst halign hmay, if_pos habsent]

/-- A page of a dozed domain answers PAGE_ID and PAGE_VER, and zero elsewhere, and clears nothing (R77). -/
theorem State.portRead_dozed (habsent : (s.portBegin a).absent a = false) (hdozed : (s.portBegin a).dozedPage a = true)
    (value : State → Word) (clear : State → State) :
    s.portRead a id value clear = (s.portBegin a).answer false
      (some (if a % 0x1000 = 0 then (s.portBegin a).pageId a else if a % 0x1000 = 4 then 0x00030100#32 else 0)) := by
  rw [State.portRead_decided hscan hpwr hrst halign hmay, if_neg (Bool.eq_false_iff.mp habsent), if_pos hdozed]

/-- A page that is present and powered answers the register's value, and the read has its effect after it (R11, R104). -/
theorem State.portRead_answers (habsent : (s.portBegin a).absent a = false) (hdozed : (s.portBegin a).dozedPage a = false)
    (value : State → Word) (clear : State → State) :
    s.portRead a id value clear = (clear (s.portBegin a)).answer false (some (value (s.portBegin a))) := by
  rw [State.portRead_decided hscan hpwr hrst halign hmay, if_neg (Bool.eq_false_iff.mp habsent), if_neg (Bool.eq_false_iff.mp hdozed)]

end Port

/-! ### Writes without effects of their own -/

/-- What `plainWrite` rules out, by name. -/
structure PlainWrite (a : Nat) (data : Word) : Prop where
  own : ownWrite a data = false
  page : inPage a = true
  offset : a % 0x1000 < 0xF00
  doorbell : ∀ t, pageKind a ≠ .doorbell t
  signalling : ∀ g, pageKind a = .lane g → a % 0x1000 ≠ Reg.LN_SIG_CTL
  acting : a ∉ [Reg.GLB_OPEN_TIMEOUT, Reg.DF_BASE, Reg.DF_FR_BASE, Reg.DF_PAIR_DATA, Reg.MV_CFG, Reg.CAL_RATE, Reg.CAL_GB_DATA0,
    Reg.CAL_GB_DATA1, Reg.SW_CTL, Reg.GLB_SCR_WDOG, 0xF008]
  cost : ¬ (Reg.LG_COST_SENSE ≤ a ∧ a ≤ Reg.LG_COST_MEDIA)
  wrap : ¬ (Reg.KY_WRAP ≤ a ∧ a < Reg.KY_WRAP + 72)
  pend : ¬ (Reg.SG_PEND ≤ a ∧ a < Reg.SG_PEND + 16)
  fastPend : ¬ (Reg.SG_FPEND ≤ a ∧ a < Reg.SG_FPEND + 16)

theorem PlainWrite.of_plainWrite {a : Nat} {data : Word} (h : plainWrite a data = true) : PlainWrite a data := by
  simp only [plainWrite, Bool.and_eq_true, Bool.not_eq_true', List.contains_eq_mem, decide_eq_false_iff_not, decide_eq_true_eq] at h
  obtain ⟨⟨⟨⟨⟨⟨⟨⟨hown, hpage⟩, hoffset⟩, hkind⟩, hacting⟩, hcost⟩, hwrap⟩, hpend⟩, hfastPend⟩ := h
  refine ⟨hown, hpage, hoffset, fun t ht => ?_, fun g hg => ?_, hacting, hcost, hwrap, hpend, hfastPend⟩
  · simp [ht] at hkind
  · simpa [hg] using hkind

/-- The register of a plain write acts on nothing beside its fields. -/
theorem PlainWrite.afterWrite_eq {a : Nat} {data : Word} (h : PlainWrite a data) (s old : State) : s.afterWrite old a = s := by
  obtain ⟨hopen, hbase, hfr, -, hmv, hrate, hgb0, hgb1, hsw, hwdog, hpb⟩ := by simpa using h.acting
  simp only [State.afterWrite, hopen, hbase, hfr, hmv, hrate, hgb0, hgb1, hsw, hwdog, hpb, h.cost, or_self, if_false]
  split
  next g hg => exact if_neg (h.signalling g hg)
  next v hv => exact absurd h.page (by simp [inPage, hv])
  next => rfl

/-- A plain write of a register that the state of the block does not shut acts on the register's fields alone (R9). -/
theorem PlainWrite.regWrite_eq_writeRow {s : State} {a : Nat} {data : Word} (h : PlainWrite a data) (hshut : s.writeShut a = false)
    (locked : Bool) : s.regWrite a locked data = s.writeRow a locked data := by
  have hperturb : ¬ (inPage a ∧ 0xF00 ≤ a % 0x1000 ∧ a % 0x1000 < 0xFF0) := fun hx => absurd h.offset (by omega)
  have hpair : a ≠ Reg.DF_PAIR_DATA := fun hx => h.acting (by simp [hx])
  simp only [State.regWrite, h.own, hshut, hperturb, hpair, h.wrap, h.pend, h.fastPend, Bool.false_eq_true, or_self, if_false]
  split
  next t ht => exact absurd ht (h.doorbell t)
  next =>
    cases locked with
    | true => rfl
    | false => exact h.afterWrite_eq _ _

end Sys2Proof.Machine

open Sys2Proof Sys2Proof.Machine

/-- Settles O11: the port hands the write to its register, which acts on its fields alone; `State.writeRow` is by definition the
update of the register's fields that the statement writes out. -/
theorem registerWritePlain : Obligations.RegisterWritePlain := by
  unfold Obligations.RegisterWritePlain
  intro s addr acc a u v hplain hshut
  have hplain := PlainWrite.of_plainWrite hplain
  refine ⟨?accepted, ?locked⟩
  case accepted =>
    exact writes_of rfl (hplain.regWrite_eq_writeRow hshut false)
  case locked =>
    intro hscan hpwr hrst hfault habsent hdozed hlock hshut'
    refine yields_of_done (congrArg (done s) ?_)
    rw [State.portWrite_locked hscan hpwr hrst hfault habsent hdozed hlock]
    exact congrArg (State.answer · false none) (hplain.regWrite_eq_writeRow hshut' true)

/-- Settles O13: the page of an aligned read by a requester that may read is absent, dozed or answering. -/
theorem rcRead : Obligations.RcRead := by
  unfold Obligations.RcRead
  intro s ad id a u hscan hpwr hrst halign hmay
  refine ⟨fun habsent => ?absent, fun habsent hdozed => ?dozed, fun habsent hdozed => ?answers⟩ <;>
    refine yields_of_done (congrArg (done s) ?_)
  case absent => exact State.portRead_absent hscan hpwr hrst halign hmay habsent _ _
  case dozed => exact State.portRead_dozed hscan hpwr hrst halign hmay habsent hdozed _ _
  case answers => exact State.portRead_answers hscan hpwr hrst halign hmay habsent hdozed _ _
end

section
/-! What a command leaves alone: every command that drives no pin keeps the pins, the fuses, the test port and the time, and a
command of the pins changes of the key and the test port what its rule says (R59, R61, R62). -/
namespace Sys2Proof.Machine
open Sys2Proof

/-- The six instructions of the test access port (R61). -/
inductive TapCommand : Instr → Prop
  | extest (p x) : TapCommand (.extest p x)
  | idcode : TapCommand .idcode
  | samplePreload (p x) : TapCommand (.samplePreload p x)
  | clamp : TapCommand .clamp
  | highz : TapCommand .highz
  | bypass (k) : TapCommand (.bypass k)
/-- The commands that may change the pins, the fuses, the test port or the time. -/
inductive PinCommand : Instr → Prop
  | coldResetAssert : PinCommand .coldResetAssert
  | coldResetRelease : PinCommand .coldResetRelease
  | fuseAck (d p) : PinCommand (.fuseAck d p)
  | fuseAckTimeout : PinCommand .fuseAckTimeout
  | warmResetAssert (w) : PinCommand (.warmResetAssert w)
  | warmResetRelease (f c) : PinCommand (.warmResetRelease f c)
  | kekSample (d p) : PinCommand (.kekSample d p)
  | holdupOkChange (l) : PinCommand (.holdupOkChange l)
  | millisecondEdge (m c) : PinCommand (.millisecondEdge m c)
  | thermCodeUpdate (c d) : PinCommand (.thermCodeUpdate c d)
  | scanModeRise : PinCommand .scanModeRise
  | scanModeFall : PinCommand .scanModeFall
  | tap {c} (h : TapCommand c) : PinCommand c

/-- Every command of another kind answers a next state that has the build, the queue, the pins, the fuses, the test port and the
time of the state before, and canonical tables. -/
theorem exec_runs {b s : State} (hs : s.Ok b) : ∀ c : Instr, PinCommand c ∨ Runs b (exec c s)
  | .coldResetAssert => .inl .coldResetAssert
  | .coldResetRelease => .inl .coldResetRelease
  | .fuseAck _ _ => .inl (.fuseAck _ _)
  | .fuseAckTimeout => .inl .fuseAckTimeout
  | .centralRelease => .inr (execCentralRelease_runs s hs)
  | .warmResetAssert _ => .inl (.warmResetAssert _)
  | .warmResetRelease _ _ => .inl (.warmResetRelease _ _)
  | .kekSample _ _ => .inl (.kekSample _ _)
  | .pfWarnRegistered failure => .inr (execPfWarnRegistered_runs failure s hs)
  | .holdupOkChange _ => .inl (.holdupOkChange _)
  | .millisecondEdge _ _ => .inl (.millisecondEdge _ _)
  | .thermCodeUpdate _ _ => .inl (.thermCodeUpdate _ _)
  | .scanModeRise => .inl .scanModeRise
  | .scanModeFall => .inl .scanModeFall
  | .extest _ _ => .inl (.tap (.extest _ _))
  | .idcode => .inl (.tap .idcode)
  | .samplePreload _ _ => .inl (.tap (.samplePreload _ _))
  | .clamp => .inl (.tap .clamp)
  | .highz => .inl (.tap .highz)
  | .bypass _ => .inl (.tap (.bypass _))
  | .hpRequestAccept port => .inr (execHpRequestAccept_runs port s hs)
  | .hpWriteBeat port => .inr (execHpWriteBeat_runs port s hs)
  | .hpReadBeat port tag data par resp => .inr (execHpReadBeat_runs port tag data par resp s hs)
  | .hpWriteStatus port tag resp => .inr (execHpWriteStatus_runs port tag resp s hs)
  | .hpTimeout port wr tag => .inr (execHpTimeout_runs port wr tag s hs)
  | .registerWrite addr a => .inr (execRegisterWrite_runs addr a s hs)
  | .rcRead addr id => .inr (execRcRead_runs addr id s hs)
  | .mgrOwnerClaim a => .inr (execMgrOwnerClaim_runs a s hs)
  | .mgrOwnerRelease a => .inr (execMgrOwnerRelease_runs a s hs)
  | .mgrSuccessorSet a => .inr (execMgrSuccessorSet_runs a s hs)
  | .expertArm a => .inr (execExpertArm_runs a s hs)
  | .expertOpen a => .inr (execExpertOpen_runs a s hs)
  | .expertClose a => .inr (execExpertClose_runs a s hs)
  | .pageLock page a => .inr (execPageLock_runs page a s hs)
  | .errCaptClear page a => .inr (execErrCaptClear_runs page a s hs)
  | .go a withTimeout => .inr (execGo_runs a withTimeout s hs)
  | .clear a => .inr (execClear_runs a s hs)
  | .loadWindowWrite addr a => .inr (execLoadWindowWrite_runs addr a s hs)
  | .resume a => .inr (execResume_runs a s hs)
  | .recal lane a => .inr (execRecal_runs lane a s hs)
  | .retrain lane a => .inr (execRetrain_runs lane a s hs)
  | .laneShadowWrite lane which a handOver => .inr (execLaneShadowWrite_runs lane which a handOver s hs)
  | .markQuery a cc => .inr (execMarkQuery_runs a cc s hs)
  | .markGrownHost a cc => .inr (execMarkGrownHost_runs a cc s hs)
  | .markClear a cc => .inr (execMarkClear_runs a cc s hs)
  | .ringCmdRead a cc => .inr (execRingCmdRead_runs a cc s hs)
  | .ringCmdWrite a cc => .inr (execRingCmdWrite_runs a cc s hs)
  | .disable a cc => .inr (execDisable_runs a cc s hs)
  | .resetRing a cc => .inr (execResetRing_runs a cc s hs)
  | .doorbellSubProd page a cc residue => .inr (execDoorbellSubProd_runs page a cc residue s hs)
  | .doorbellCplCons page a cc residue => .inr (execDoorbellCplCons_runs page a cc s residue hs)
  | .intakeFlushBulk cl a => .inr (execIntakeFlushBulk_runs cl a s hs)
  | .intakeFlushUrgent cl a => .inr (execIntakeFlushUrgent_runs cl a s hs)
  | .latHistClear lane a => .inr (execLatHistClear_runs lane a s hs)
  | .gbHistClear lane a => .inr (execGbHistClear_runs lane a s hs)
  | .ptHistClear a => .inr (execPtHistClear_runs a s hs)
  | .rewalk a => .inr (execRewalk_runs a s hs)
  | .gbFail a cc => .inr (execGbFail_runs a s cc hs)
  | .frQuery a cc => .inr (execFrQuery_runs a cc s hs)
  | .frClose a cc => .inr (execFrClose_runs a cc s hs)
  | .frOpen a cc => .inr (execFrOpen_runs a cc s hs)
  | .ccClean a => .inr (execCcClean_runs a s hs)
  | .ccInvalidate a => .inr (execCcInvalidate_runs a s hs)
  | .ccCleanInvalidate a => .inr (execCcCleanInvalidate_runs a s hs)
  | .preloadLock a bad => .inr (execPreloadLock_runs a bad s hs)
  | .unlock a => .inr (execUnlock_runs a s hs)
  | .invalAll a => .inr (execInvalAll_runs a s hs)
  | .ccEnable a => .inr (execCcEnable_runs a s hs)
  | .ccDisable a => .inr (execCcDisable_runs a s hs)
  | .load a => .inr (execLoad_runs a s hs)
  | .zeroise a => .inr (execZeroise_runs a s hs)
  | .zeroiseInst a => .inr (execZeroiseInst_runs a s hs)
  | .sealRaise a => .inr (execSealRaise_runs a s hs)
  | .sealLower a cc upset => .inr (execSealLower_runs a cc upset s hs)
  | .start ch a => .inr (execStart_runs ch a s hs)
  | .stop ch a => .inr (execStop_runs ch a s hs)
  | .mvClear ch a => .inr (execMvClear_runs ch a s hs)
  | .mvTimerWrite n a => .inr (execMvTimerWrite_runs n a s hs)
  | .mvCfgShadowWrite ch a handOver => .inr (execMvCfgShadowWrite_runs ch a handOver s hs)
  | .create a => .inr (execCreate_runs a s hs)
  | .tnReset a cc => .inr (execTnReset_runs a cc s hs)
  | .unfence a cc => .inr (execUnfence_runs a cc s hs)
  | .destroy a => .inr (execDestroy_runs a s hs)
  | .repairAdd a => .inr (execRepairAdd_runs a s hs)
  | .vectorCtlWrite vec a => .inr (execVectorCtlWrite_runs vec a s hs)
  | .dbVecMaskWrite page a => .inr (execDbVecMaskWrite_runs page a s hs)
  | .senseModeWrite n a => .inr (execSenseModeWrite_runs n a s hs)
  | .retClear a => .inr (execRetClear_runs a s hs)
  | .arm a => .inr (execArm_runs a s hs)
  | .scribeReloadGo a => .inr (execScribeReloadGo_runs a s hs)
  | .pbOpen a => .inr (execPbOpen_runs a s hs)
  | .pbClose a => .inr (execPbClose_runs a s hs)
  | .pbSeedWrite a => .inr (execPbSeedWrite_runs a s hs)
  | .pxCtlWrite page slot a => .inr (execPxCtlWrite_runs page slot a s hs)
  | .egSummaryClear a => .inr (execEgSummaryClear_runs a s hs)
  | .quotaWrite a => .inr (execQuotaWrite_runs a s hs)
  | .shareWrite a => .inr (execShareWrite_runs a s hs)
  | .awaitImagesTimeout => .inr (execAwaitImagesTimeout_runs s hs)
  | .phaseTimeout => .inr (execPhaseTimeout_runs s hs)
  | .measureDone uncorr corrected => .inr (execMeasureDone_runs uncorr corrected s hs)
  | .startPhase sramErr => .inr (execStartPhase_runs sramErr s hs)
  | .trainPhase found => .inr (execTrainPhase_runs found s hs)
  | .sealPhase copies => .inr (execSealPhase_runs copies s hs)
  | .defectPhase markers cc => .inr (execDefectPhase_runs markers cc s hs)
  | .serviceEntry upset => .inr (execServiceEntry_runs upset s hs)
  | .openingRestart found copies => .inr (execOpeningRestart_runs found copies s hs)
  | .calRunStep lane mism withWrite => .inr (execCalRunStep_runs lane mism withWrite s hs)
  | .calStepWaitExpiry lane => .inr (execCalStepWaitExpiry_runs lane s hs)
  | .castling lane => .inr (execCastling_runs lane s hs)
  | .forcedIdle lane => .inr (execForcedIdle_runs lane s hs)
  | .retrainRun lane trials => .inr (execRetrainRun_runs lane trials s hs)
  | .retrainReadyTimeout lane => .inr (execRetrainReadyTimeout_runs lane s hs)
  | .retrainRerequest lane => .inr (execRetrainRerequest_runs lane s hs)
  | .rbReady lane die status cc => .inr (execRbReady_runs lane die status cc s hs)
  | .qAdd core => .inr (execQAdd_runs core s hs)
  | .qAddi core => .inr (execQAddi_runs core s hs)
  | .qSub core => .inr (execQSub_runs core s hs)
  | .qAnd core => .inr (execQAnd_runs core s hs)
  | .qOr core => .inr (execQOr_runs core s hs)
  | .qXor core => .inr (execQXor_runs core s hs)
  | .qShli core => .inr (execQShli_runs core s hs)
  | .qShri core => .inr (execQShri_runs core s hs)
  | .qLui core => .inr (execQLui_runs core s hs)
  | .qLd core => .inr (execQLd_runs core s hs)
  | .qSt core => .inr (execQSt_runs core s hs)
  | .qBeq core => .inr (execQBeq_runs core s hs)
  | .qBne core => .inr (execQBne_runs core s hs)
  | .qBltu core => .inr (execQBltu_runs core s hs)
  | .qJal core => .inr (execQJal_runs core s hs)
  | .qJr core => .inr (execQJr_runs core s hs)
  | .qWaitev core => .inr (execQWaitev_runs core s hs)
  | .qCmdrd core => .inr (execQCmdrd_runs core s hs)
  | .qMawrow core => .inr (execQMawrow_runs core s hs)
  | .qPset core => .inr (execQPset_runs core s hs)
  | .qStrk core => .inr (execQStrk_runs core s hs)
  | .qDone core => .inr (execQDone_runs core s hs)
  | .qDefer core => .inr (execQDefer_runs core s hs)
  | .qCsrr core => .inr (execQCsrr_runs core s hs)
  | .qCsrw core => .inr (execQCsrw_runs core s hs)
  | .qReady core => .inr (execQReady_runs core s hs)
  | .quillTimer core n => .inr (execQuillTimer_runs core n s hs)
  | .strokeStart lane ecc => .inr (execStrokeStart_runs lane ecc s hs)
  | .elEnd lane => .inr (execElEnd_runs lane s hs)
  | .elCmd lane => .inr (execElCmd_runs lane s hs)
  | .elCmdp lane => .inr (execElCmdp_runs lane s hs)
  | .elAddr lane => .inr (execElAddr_runs lane s hs)
  | .elDout lane frames raw ecc byte => .inr (execElDout_runs lane frames raw s ecc byte hs)
  | .elDin lane ecc => .inr (execElDin_runs lane s ecc hs)
  | .elFeat lane => .inr (execElFeat_runs lane s hs)
  | .elWait lane => .inr (execElWait_runs lane s hs)
  | .elStat lane status => .inr (execElStat_runs lane status s hs)
  | .elCe lane => .inr (execElCe_runs lane s hs)
  | .busyPoll lane die status cc => .inr (execBusyPoll_runs lane die status cc s hs)
  | .suspOverrun lane die => .inr (execSuspOverrun_runs lane die s hs)
  | .ringFetch ring cc residue mawResidue => .inr (execRingFetch_runs ring cc residue mawResidue s hs)
  | .intakePush cl urgent ecc => .inr (execIntakePush_runs cl urgent ecc s hs)
  | .intakePop cl ecc => .inr (execIntakePop_runs cl ecc s hs)
  | .opRead cl h => .inr (execOpRead_runs cl h s hs)
  | .opProgram cl h cc => .inr (execOpProgram_runs cl h s cc hs)
  | .opErase cl h => .inr (execOpErase_runs cl h s hs)
  | .opCopy cl h => .inr (execOpCopy_runs cl h s hs)
  | .opBlankCheck cl h => .inr (execOpBlankCheck_runs cl h s hs)
  | .opFetch cl h => .inr (execOpFetch_runs cl h s hs)
  | .opRelease cl h => .inr (execOpRelease_runs cl h s hs)
  | .opGetFeature cl h => .inr (execOpGetFeature_runs cl h s hs)
  | .opSetFeature cl h => .inr (execOpSetFeature_runs cl h s hs)
  | .opIdentify cl h => .inr (execOpIdentify_runs cl h s hs)
  | .opResetDie cl h => .inr (execOpResetDie_runs cl h s hs)
  | .opRawRead cl h => .inr (execOpRawRead_runs cl h s hs)
  | .opPatrolSample cl h => .inr (execOpPatrolSample_runs cl h s hs)
  | .opFence ring cc => .inr (execOpFence_runs ring cc s hs)
  | .selection lane cc upset => .inr (execSelection_runs lane cc upset s hs)
  | .ledgerRefill upset => .inr (execLedgerRefill_runs upset s hs)
  | .hdePass cl k ecc cc byte => .inr (execHdePass_runs cl k ecc s cc byte hs)
  | .hdeDone cl k h frame cc ecc => .inr (execHdeDone_runs cl k h frame cc s ecc hs)
  | .sdeContextGrant reg ecc cc byte => .inr (execSdeContextGrant_runs reg ecc s cc byte hs)
  | .softSensingArrival lane ecc cc byte => .inr (execSoftSensingArrival_runs lane s ecc cc byte hs)
  | .sdeDone reg ctx cc => .inr (execSdeDone_runs reg ctx cc s hs)
  | .gambitStep lane parity cc => .inr (execGambitStep_runs lane parity cc s hs)
  | .cipherUnit cl k ecc cc => .inr (execCipherUnit_runs cl k s ecc cc hs)
  | .cipherUnitDone cl k ecc cc => .inr (execCipherUnitDone_runs cl k s ecc cc hs)
  | .zeroFillDone slab tag => .inr (execZeroFillDone_runs slab tag s hs)
  | .channelTake => .inr (execChannelTake_runs s hs)
  | .moverRequest ch ecc residue tag => .inr (execMoverRequest_runs ch ecc residue tag s hs)
  | .descriptorFetch ch => .inr (execDescriptorFetch_runs ch s hs)
  | .triggerTick n => .inr (execTriggerTick_runs n s hs)
  | .mvCastling ch => .inr (execMvCastling_runs ch s hs)
  | .completionWrite port cc bad pair residue => .inr (execCompletionWrite_runs port cc bad pair s residue hs)
  | .lateErr cc residue => .inr (execLateErr_runs cc s residue hs)
  | .windowExpiry vec bad => .inr (execWindowExpiry_runs vec bad s hs)
  | .vectorMessageWrite vec => .inr (execVectorMessageWrite_runs vec s hs)
  | .edgeCatch src rising => .inr (execEdgeCatch_runs src s rising hs)
  | .ccLookup off l err => .inr (execCcLookup_runs off l err s hs)
  | .ccFill reg => .inr (execCcFill_runs reg s hs)
  | .ccWritebackStatus slot => .inr (execCcWritebackStatus_runs slot s hs)
  | .ccRetry cc => .inr (execCcRetry_runs cc s hs)
  | .clusterDoze cl => .inr (execClusterDoze_runs cl s hs)
  | .clusterWake cl => .inr (execClusterWake_runs cl s hs)
  | .sdeRegionDoze reg => .inr (execSdeRegionDoze_runs reg s hs)
  | .sdeRegionWake reg => .inr (execSdeRegionWake_runs reg s hs)
  | .blockDoze => .inr (execBlockDoze_runs s hs)
  | .blockWake => .inr (execBlockWake_runs s hs)
  | .leak g adds => .inr (execLeak_runs g s adds hs)
  | .sweepRow found half shared victim => .inr (execSweepRow_runs found half s shared victim hs)
  | .patrolIssue cc => .inr (execPatrolIssue_runs cc s hs)
  | .resetDone cc => .inr (execResetDone_runs cc s hs)
  | .sanitizeErase lane die cc => .inr (execSanitizeErase_runs lane die cc s hs)
  | .sanitizeDone upset => .inr (execSanitizeDone_runs upset s hs)
  | .keyLoadDone => .inr (execKeyLoadDone_runs s hs)
  | .endgameEnd => .inr (execEndgameEnd_runs s hs)
  | .endgameBudgetExpiry => .inr (execEndgameBudgetExpiry_runs s hs)
  | .egHeaderWrite => .inr (execEgHeaderWrite_runs s hs)
  | .watchdogExpiry => .inr (execWatchdogExpiry_runs s hs)
  | .scribeReload sramErr noReady => .inr (execScribeReload_runs sramErr noReady s hs)
  | .illegalInstruction core why => .inr (execIllegalInstruction_runs core why s hs)
  | .rbBusyTimeout lane die cc => .inr (execRbBusyTimeout_runs lane die cc s hs)
  | .maintDone => .inr (execMaintDone_runs s hs)
  | .drainDone => .inr (execDrainDone_runs s hs)

/-- An outcome that differs from the state before in the test port alone. -/
theorem tap_of_ite {s : State} (p : Prop) [Decidable p] (x : Tap) :
    ∃ y, (if p then .next { s with tap := x } else idle s : Out) = .next { s with tap := y } := by
  split
  · exact ⟨x, rfl⟩
  · exact ⟨s.tap, rfl⟩
/-- An instruction of the test access port changes the test port alone (R61). -/
theorem TapCommand.exec_eq {c : Instr} (h : TapCommand c) (s : State) : ∃ x, exec c s = .next { s with tap := x } := by
  cases h <;> exact tap_of_ite _ _

/-- A key that the state can hold after a command: the key before, one that a sample has taken where there was none (R59), or
whatever the rise of SCAN_MODE leaves (R62). -/
def KeyAfter (s : State) (c : Instr) (k : Option (BitVec 256)) : Prop :=
  k = s.fuse.kek ∨ (s.fuse.kek = none ∧ ∃ d p, c = .kekSample d p ∧ k = some d) ∨ c = .scanModeRise

/-- Every command but the cold reset and the test port's keeps the time and the test port, and the key but for R59 and R62. -/
theorem exec_goes {s : State} (hs : s.canon = true) (c : Instr) :
    c = .coldResetAssert ∨ TapCommand c ∨ ∃ k, KeyAfter s c k ∧ Goes s k (exec c s) := by
  rcases exec_runs (State.ok_self hs) c with hpin | hruns
  · cases hpin with
    | coldResetAssert => exact .inl rfl
    | coldResetRelease => exact .inr (.inr ⟨_, .inl rfl, execColdResetRelease_goes s hs⟩)
    | fuseAck d p => exact .inr (.inr ⟨_, .inl rfl, execFuseAck_goes d p s hs⟩)
    | fuseAckTimeout => exact .inr (.inr ⟨_, .inl rfl, execFuseAckTimeout_goes s hs⟩)
    | warmResetAssert w => exact .inr (.inr ⟨_, .inl rfl, execWarmResetAssert_goes w s hs⟩)
    | warmResetRelease f c => exact .inr (.inr ⟨_, .inl rfl, execWarmResetRelease_goes f c s hs⟩)
    | kekSample d p =>
      refine .inr (.inr ⟨_, ?_, execKekSample_goes d p s hs⟩)
      split
      next h => exact .inr (.inl ⟨h.2.1, d, p, rfl, rfl⟩)
      next => exact .inl rfl
    | holdupOkChange l => exact .inr (.inr ⟨_, .inl rfl, execHoldupOkChange_goes l s hs⟩)
    | millisecondEdge m c => exact .inr (.inr ⟨_, .inl rfl, execMillisecondEdge_goes m c s hs⟩)
    | thermCodeUpdate c d => exact .inr (.inr ⟨_, .inl rfl, execThermCodeUpdate_goes c d s hs⟩)
    | scanModeRise => exact .inr (.inr ⟨_, .inr (.inr rfl), execScanModeRise_goes s hs⟩)
    | scanModeFall => exact .inr (.inr ⟨_, .inl rfl, execScanModeFall_goes s hs⟩)
    | tap h => exact .inr (.inl h)
  · exact .inr (.inr ⟨_, .inl rfl, goes_of_runs hruns⟩)

/-- What a cycle of CLK_AON does in the central domain leaves the pins, the fuses and the test port alone. -/
theorem settle_drained_keeps {s u : State} (h : u.canon = true) :
    let v := settle s (State.blotterDrain 16 u).restoreOne.heat
    v.pins = u.pins ∧ v.fuse = u.fuse ∧ v.tap = u.tap := by
  obtain ⟨⟨-, -, hpins, hfuse, htap, -⟩, -⟩ :=
    settle_new s _ (State.heat_ok _ (State.restoreOne_ok _ (State.blotterDrain_ok 16 u (State.ok_self h))))
  exact ⟨hpins, hfuse, htap⟩
/-- A cycle of CLK_AON leaves the pins, the fuses and the test port alone. -/
theorem State.tick_keeps {s : State} (h : s.canon = true) : s.tick.pins = s.pins ∧ s.tick.fuse = s.fuse ∧ s.tick.tap = s.tap := by
  unfold State.tick
  by_cases halive : s.alive
  · by_cases hawake : s.awake
    · rw [if_pos halive, if_pos hawake]
      exact settle_drained_keeps h
    · rw [if_pos halive, if_neg hawake]
      exact ⟨rfl, rfl, rfl⟩
  · rw [if_neg halive]
    exact ⟨rfl, rfl, rfl⟩

/-- A step is a cycle of CLK_AON, the cold reset, an instruction of the test port, or another command. -/
theorem step_cases {s t : State} (hc : s.canon = true) (h : step s = .next t) :
    (s.pending = [] ∧ t.fuse = s.fuse ∧ t.tap = s.tap) ∨
    ∃ c q, s.pending = c :: q ∧
      (c = .coldResetAssert ∨ (TapCommand c ∧ t.fuse = s.fuse ∧ t.time = s.time) ∨
        (t.time = s.time ∧ t.tap = s.tap ∧ KeyAfter s c t.fuse.kek)) := by
  unfold step at h
  split at h
  next hq =>
    cases h
    obtain ⟨-, hfuse, htap⟩ := State.tick_keeps hc
    exact .inl ⟨hq, hfuse, htap⟩
  next c q hq =>
    refine .inr ⟨c, q, hq, ?_⟩
    rcases exec_goes (s := { s with pending := q }) hc c with hcold | htap | ⟨k, hk, t', ht', -, -, -, htime, htap, rfl⟩
    · exact .inl hcold
    · obtain ⟨x, hx⟩ := htap.exec_eq { s with pending := q }
      cases hx.symm.trans h
      exact .inr (.inl ⟨htap, rfl, rfl⟩)
    · cases ht'.symm.trans h
      exact .inr (.inr ⟨htime, htap, hk⟩)

end Sys2Proof.Machine

open Sys2Proof Sys2Proof.Machine

/-- Settles O6: of all commands only a key sample and the rise of SCAN_MODE give another key (`KeyAfter`), beside the cold reset. -/
theorem kekKept : Obligations.KekKept := by
  unfold Obligations.KekKept
  intro s t hc hstep hne
  rcases step_cases hc hstep with ⟨-, hfuse, -⟩ | ⟨c, q, hq, rfl | ⟨-, hfuse, -⟩ | ⟨-, -, hkey⟩⟩
  · exact absurd (congrArg Fuse.kek hfuse) hne
  · exact ⟨q, .inl hq⟩
  · exact absurd (congrArg Fuse.kek hfuse) hne
  · rcases hkey with hsame | ⟨hnone, d, p, rfl, hk⟩ | rfl
    · exact absurd hsame hne
    · exact ⟨q, .inr (.inr ⟨hnone, d, p, hq, hk⟩)⟩
    · exact ⟨q, .inr (.inl hq)⟩

/-- Settles O7: every other command leaves the time and the test port alone (`step_cases`). -/
theorem timeAndTapKept : Obligations.TimeAndTapKept := by
  unfold Obligations.TimeAndTapKept
  intro s t hc hstep
  rcases step_cases hc hstep with ⟨hq, -, htap⟩ | ⟨c, q, hq, rfl | ⟨hcmd, -, htime⟩ | ⟨htime, htap, -⟩⟩
  · exact ⟨fun _ => .inl hq, fun hne => absurd htap hne⟩
  · exact ⟨fun _ => .inr ⟨q, hq⟩, fun _ => ⟨_, q, hq, .inl rfl⟩⟩
  · refine ⟨fun hne => absurd htime hne, fun _ => ⟨c, q, hq, .inr ?_⟩⟩
    cases hcmd <;> simp
  · exact ⟨fun hne => absurd htime hne, fun hne => absurd htap hne⟩
end

section
/-! What settling leaves of a command's effect, and the register port in RESET and at a fault (R46, R70). -/
namespace Sys2Proof.Machine
open Sys2Proof

/-! ### Settling -/

@[simp] theorem settle_rp (s u : State) : (settle s u).rp = u.rp := by
  obtain ⟨g, b, h⟩ := settle_frame s u
  rw [h]
@[simp] theorem settle_pins (s u : State) : (settle s u).pins = u.pins := by
  obtain ⟨g, b, h⟩ := settle_frame s u
  rw [h]
@[simp] theorem settle_lanes (s u : State) : (settle s u).lanes = u.lanes := by
  obtain ⟨g, b, h⟩ := settle_frame s u
  rw [h]
@[simp] theorem settle_cmds (s u : State) : (settle s u).cmds = u.cmds := by
  obtain ⟨g, b, h⟩ := settle_frame s u
  rw [h]
@[simp] theorem settle_lane (s u : State) (g : Nat) : (settle s u).lane g = u.lane g := by
  rw [State.lane, settle_lanes, State.lane]

/-! ### The port in RESET and at a fault -/

theorem State.portFault_write_eq_none {s : State} {a : Nat} {acc : RpAcc} : s.portFault a true acc = none ↔
    ¬ (a % 4 ≠ 0 ∨ wordPar acc.data ≠ acc.par ∨ s.mayWrite a acc.id = false) := by
  unfold State.portFault
  split_ifs with halign hpar hmay <;> simp_all
theorem State.portFault_read_eq_none {s : State} {a : Nat} {acc : RpAcc} : s.portFault a false acc = none ↔
    ¬ (a % 4 ≠ 0 ∨ s.mayRead a acc.id = false) := by
  unfold State.portFault
  split_ifs with halign hpar hmay <;> simp_all

section Port
variable {s : State} {a : Nat} (hscan : s.pins.scan = .mission) (hpwr : s.pins.pwrLow = false)
include hscan hpwr

/-- R70: in RESET, or with RST_WARM_N low, a write is acknowledged alone. -/
theorem State.portWrite_inReset (hrst : s.portReset = true) (acc : RpAcc) (eff : Bool → State → State) :
    s.portWrite a acc eff = s.answer false none := by
  simp only [State.portWrite, hscan, hpwr, hrst, ne_eq, not_true_eq_false, Bool.false_eq_true, if_false, if_true]
/-- R70: in RESET, or with RST_WARM_N low, every read is acknowledged without an error. -/
theorem State.portRead_inReset_rp (hrst : s.portReset = true) (id : BitVec 8) (value : State → Word) (clear : State → State) :
    (s.portRead a id value clear).rp.ack = true ∧ (s.portRead a id value clear).rp.err = false := by
  simp only [State.portRead, hscan, hpwr, hrst, ne_eq, not_true_eq_false, Bool.false_eq_true, if_false, if_true]
  split_ifs <;> exact ⟨rfl, rfl⟩

variable (hrst : s.portReset = false)
include hrst

/-- R46: a faulted write is recorded and answered with an error. -/
theorem State.portWrite_faulted {acc : RpAcc} {code : Nat} (hfault : (s.portBegin a).portFault a true acc = some code)
    (eff : Bool → State → State) : s.portWrite a acc eff = (s.portBegin a).rpFault a acc.id code := by
  simp only [State.portWrite, hscan, hpwr, hrst, hfault, ne_eq, not_true_eq_false, Bool.false_eq_true, if_false]
/-- R46: a faulted read is recorded and answered with an error. -/
theorem State.portRead_faulted {id : BitVec 8} {code : Nat}
    (hfault : (s.portBegin a).portFault a false { id := id, data := 0, par := 0 } = some code)
    (value : State → Word) (clear : State → State) : s.portRead a id value clear = (s.portBegin a).rpFault a id code := by
  simp only [State.portRead, hscan, hpwr, hrst, hfault, ne_eq, not_true_eq_false, Bool.false_eq_true, if_false]
/-- An aligned read by a requester that may read is acknowledged without an error (R46). -/
theorem State.portRead_rp {id : BitVec 8} (halign : a % 4 = 0) (hmay : (s.portBegin a).mayRead a id = true)
    (value : State → Word) (clear : State → State) :
    (s.portRead a id value clear).rp.ack = true ∧ (s.portRead a id value clear).rp.err = false := by
  rw [State.portRead_decided hscan hpwr hrst halign hmay]
  split_ifs <;> exact ⟨rfl, rfl⟩

end Port

end Sys2Proof.Machine

open Sys2Proof Sys2Proof.Machine

/-- Settles O9: an access is decided by R70 in RESET and by `State.portFault` outside it. -/
theorem accessFaults : Obligations.AccessFaults := by
  unfold Obligations.AccessFaults
  intro s hscan hpwr
  refine ⟨fun hreset => ?inReset, fun hrst => ⟨?write, ?read⟩⟩
  case inReset =>
    have hrst : s.portReset = true := by simp [State.portReset, hreset]
    refine ⟨fun c a acc hc => ?_, fun ad id => ⟨_, rfl, ?_⟩⟩
    · obtain ⟨eff, heff⟩ := exec_write hc s
      exact ⟨_, heff, by rw [settle_rp, State.portWrite_inReset hscan hpwr hrst]; rfl⟩
    · rw [settle_rp]
      exact State.portRead_inReset_rp hscan hpwr hrst _ _ _
  case write =>
    intro c a acc hc u bad
    obtain ⟨eff, heff⟩ := exec_write hc s
    refine ⟨_, heff, fun hbad => ?_, fun hok => ?_⟩
    · obtain ⟨code, hfault⟩ := Option.ne_none_iff_exists'.mp (mt State.portFault_write_eq_none.mp (not_not.mpr hbad))
      exact ⟨_, .inl (congrArg (settle s) (State.portWrite_faulted hscan hpwr hrst hfault eff))⟩
    · rw [settle_rp, State.portWrite_decided hscan hpwr hrst (State.portFault_write_eq_none.mpr hok)]
      exact ⟨rfl, rfl⟩
  case read =>
    intro ad id u bad
    refine ⟨_, rfl, fun hbad => ?_, fun hok => ?_⟩
    · obtain ⟨code, hfault⟩ := Option.ne_none_iff_exists'.mp
        (mt (State.portFault_read_eq_none (acc := { id := id, data := 0, par := 0 })).mp (not_not.mpr hbad))
      refine ⟨BitVec.ofNat 32 code, .inl (congrArg (settle s) ?_)⟩
      rw [State.portRead_faulted hscan hpwr hrst hfault, State.rpFault, BitVec.ofNat_toNat]
    · obtain ⟨halign, hmay⟩ : ad.toNat % 4 = 0 ∧ u.mayRead ad.toNat id = true := by simpa [bad] using hok
      rw [settle_rp]
      exact State.portRead_rp hscan hpwr hrst halign hmay _ _
end

section
/-! The fuse load (R58), the key port and scan (R59, R62), and the test access port (R61). -/
namespace Sys2Proof.Machine
open Sys2Proof

/-! ### The fuse load -/

@[simp] theorem State.presets_fuse (s : State) : s.presets.fuse = s.fuse := by
  obtain ⟨r, x, h⟩ := State.presets_frame s
  rw [h]
@[simp] theorem State.fuseEnd_fuse (s : State) (failed : Bool) :
    (s.fuseEnd failed).fuse = { s.fuse with request := false, done := true, failed := failed } := State.presets_fuse _
theorem State.fuseRetry_again {s : State} (h : s.fuse.tries < 2) :
    s.fuseRetry = { s with fuse := { s.fuse with tries := s.fuse.tries + 1 } } := if_neg (Nat.not_le.mpr h)
theorem State.fuseRetry_third {s : State} (h : 2 ≤ s.fuse.tries) : s.fuseRetry = s.fuseEnd true := if_pos h

/-- The state once a word with correct parity is stored and the next address asked for (R58). -/
def State.fuseStored (s : State) (data : Word) : State :=
  (s.setReg (Reg.CHAR_ROW + 4 * s.fuse.addr) data).modFuse (fun f =>
    { f with row := Tab.setD (fun _ => 0) f.row s.fuse.addr data, addr := s.fuse.addr + 1, tries := 0 })

variable {s : State}

theorem exec_fuseAck_good (halive : s.alive = true) (hreq : s.fuse.request = true) {data : Word} {par : BitVec 4} (hpar : wordPar data = par) :
    exec (.fuseAck data par) s = .next (if s.fuse.addr = 63 then (s.fuseStored data).fuseEnd false else s.fuseStored data) :=
  (if_pos ⟨halive, hreq⟩).trans (if_pos hpar)
theorem exec_fuseAck_bad (halive : s.alive = true) (hreq : s.fuse.request = true) {data : Word} {par : BitVec 4} (hpar : wordPar data ≠ par) :
    exec (.fuseAck data par) s = .next s.fuseRetry := (if_pos ⟨halive, hreq⟩).trans (if_neg hpar)
theorem exec_fuseAckTimeout (halive : s.alive = true) (hreq : s.fuse.request = true) : exec .fuseAckTimeout s = .next s.fuseRetry :=
  if_pos ⟨halive, hreq⟩

end Sys2Proof.Machine

open Sys2Proof Sys2Proof.Machine

/-- Settles O15: a good word is stored (`State.fuseStored`), a bad or missing one is read again (`State.fuseRetry`). -/
theorem fuseLoad : Obligations.FuseLoad := by
  unfold Obligations.FuseLoad
  intro s data par halive hreq
  refine ⟨fun hpar => ⟨_, exec_fuseAck_good halive hreq hpar, ?_⟩,
    fun c hc => ⟨s.fuseRetry, ?_, State.fuseRetry_again, fun htries => ?_⟩⟩
  · by_cases hlast : s.fuse.addr = 63
    · rw [if_pos hlast, State.fuseEnd_fuse]
      exact ⟨rfl, rfl, rfl, fun hne => absurd hlast hne, fun _ => ⟨rfl, rfl, rfl⟩⟩
    · rw [if_neg hlast]
      exact ⟨rfl, rfl, rfl, fun _ => ⟨rfl, hreq⟩, fun h => absurd h hlast⟩
  · rcases hc with rfl | ⟨rfl, hpar⟩
    · exact exec_fuseAckTimeout halive hreq
    · exact exec_fuseAck_bad halive hreq hpar
  · rw [State.fuseRetry_third htries, State.fuseEnd_fuse]

/-! ### The key port, scan and the test port -/

namespace Sys2Proof.Machine
open Sys2Proof

/-- A move to a mode leaves the fuses and the pins alone, and the mode is the one moved to. -/
theorem State.toMode_keeps (s : State) (m : Mode) : (s.toMode m).glb.mode = m ∧ (s.toMode m).fuse = s.fuse ∧ (s.toMode m).pins = s.pins := by
  obtain ⟨_, _, _, _, _, h⟩ := State.toMode_frame s m
  rw [h]
  exact ⟨rfl, rfl, rfl⟩
/-- A code that R61 does not list selects BYPASS. -/
theorem tapInstr_unlisted {code : BitVec 4} (h0 : code.toNat ≠ 0) (h1 : code.toNat ≠ 1) (h2 : code.toNat ≠ 2) (h4 : code.toNat ≠ 4)
    (h5 : code.toNat ≠ 5) : tapInstr code = .bypass := by
  unfold tapInstr
  split <;> trivial

end Sys2Proof.Machine

/-- Settles O17: each of these commands is guarded by one condition, and has the effect written in the statement where it holds; the rise
of SCAN_MODE moves to RESET first where the block is not there. -/
theorem keyScanAndTestPort : Obligations.KeyScanAndTestPort := by
  unfold Obligations.KeyScanAndTestPort
  refine ⟨fun s d p => ⟨?taken, ?ignored, ?rise, ?fall⟩, fun s p x hscan => ⟨?_, ?_, ?_, ?_, ?_, fun code h0 h1 h2 h4 h5 => ?bypass⟩⟩
  case taken => exact fun halive hnone hpar => if_pos ⟨halive, hnone, hpar⟩
  case ignored => exact fun h => if_neg fun ⟨_, hnone, hpar⟩ => h.elim (absurd hnone) (fun hbad => Bool.false_ne_true (hbad.symm.trans hpar))
  case rise =>
    intro hscan
    refine ⟨_, if_pos hscan, ?_⟩
    by_cases hreset : s.glb.mode = .reset
    · rw [if_pos hreset]
      exact ⟨hreset, rfl, fun _ => rfl, fun _ => rfl, rfl⟩
    · obtain ⟨hmode, hfuse, hpins⟩ := State.toMode_keeps s .reset
      rw [if_neg hreset]
      exact ⟨hmode, congrArg (fun f : Fuse => { f with kek := none }) hfuse, fun _ => rfl, fun _ => rfl,
        congrArg (fun p : Pins => { p with scan := .shifting }) hpins⟩
  case fall => exact fun hscan => if_pos hscan
  case bypass => exact if_pos ⟨hscan, tapInstr_unlisted h0 h1 h2 h4 h5⟩
  all_goals exact if_pos hscan
end

section
/-! The power-fail warning and HOLDUP_OK (R53, R54, R80, R417). -/
namespace Sys2Proof.Machine
open Sys2Proof

/-! ### Modes -/

theorem State.serving_iff {s : State} : s.serving = true ↔ s.glb.mode = .service ∨ s.glb.mode = .thrift := by simp [State.serving]
theorem State.running_iff {s : State} : s.running = true ↔ (s.glb.mode = .service ∨ s.glb.mode = .thrift) ∨ s.glb.mode = .fallback := by
  simp [State.running, State.serving]
/-- In no other mode do commands run. -/
theorem State.not_running_of_mode {s : State} (h : s.glb.mode = .reset ∨ s.glb.mode = .opening ∨ s.glb.mode = .endgame) :
    s.running = false := by
  rcases h with h | h | h <;> simp [State.running, State.serving, h]
/-- What an engine that acts finds: mission operation, no RESET, and a block that does not doze. -/
theorem State.awake_iff {s : State} : s.awake = true ↔
    s.alive = true ∧ (s.pins.warmLow = false ∨ s.glb.warmWait = true) ∧ s.glb.mode ≠ .reset ∧ s.signal.blockDozed = false := by
  simp [State.awake, imp_iff_not_or]
/-- A block that does not doze is not woken. -/
theorem State.wakeBlock_of_awake {s : State} (h : s.signal.blockDozed = false) : s.wakeBlock = s := if_neg (Bool.eq_false_iff.mp h)

/-! ### The lanes that wait for media admission -/

theorem Tab.mem_of_find? {α : Type} {k : Nat} {v : α} : ∀ {t : Tab α}, Tab.find? t k = some v → (k, v) ∈ t
  | (j, w) :: t, h => by
    unfold Tab.find? at h
    split at h
    next hk => cases h; exact hk ▸ List.mem_cons_self
    next => exact List.mem_cons_of_mem _ (Tab.mem_of_find? h)

/-- A lane that has set no command aside for want of media admission. -/
def Lane.freed (l : Lane) : Lane := { l with mediaWait := false }

/-- Admission changes lanes alone. -/
theorem State.mediaRoom_frame (s : State) (f : Nat → Bool) : ∃ l, s.mediaRoom f = { s with lanes := l } := by
  unfold State.mediaRoom
  generalize s.lanes.filter _ = waiting
  induction waiting generalizing s with
  | nil => exact ⟨s.lanes, rfl⟩
  | cons e waiting ih =>
    obtain ⟨l, hl⟩ := ih (s.modLane e.1 Lane.freed)
    exact ⟨l, hl⟩

@[simp] theorem State.mediaRoom_pins (s : State) (f : Nat → Bool) : (s.mediaRoom f).pins = s.pins := by
  obtain ⟨l, h⟩ := State.mediaRoom_frame s f
  rw [h]
@[simp] theorem State.mediaRoom_cmds (s : State) (f : Nat → Bool) : (s.mediaRoom f).cmds = s.cmds := by
  obtain ⟨l, h⟩ := State.mediaRoom_frame s f
  rw [h]
@[simp] theorem State.mediaRoom_keys (s : State) (f : Nat → Bool) : (s.mediaRoom f).keys = s.keys := by
  obtain ⟨l, h⟩ := State.mediaRoom_frame s f
  rw [h]

/-- A lane that is among those admitted, or waits for nothing, waits for nothing after the admission. -/
theorem State.foldl_freed_mediaWait {s : State} (hc : s.canon = true) (l : List (Nat × Lane)) {g : Nat}
    (h : (∃ e ∈ l, e.1 = g) ∨ (s.lane g).mediaWait = false) :
    ((l.foldl (fun t e => t.modLane e.1 Lane.freed) s).lane g).mediaWait = false := by
  induction l generalizing s with
  | nil => simpa using h
  | cons e l ih =>
    refine ih (State.modLane_ok s e.1 Lane.freed (State.ok_self hc)).2 ?_
    by_cases he : g = e.1
    · right
      rw [he, State.lane_self hc]
      rfl
    · rw [State.lane_ne s he]
      simpa [Ne.symm he] using h
/-- After an admission of every lane no lane waits. -/
theorem State.mediaRoom_all_mediaWait {s : State} (hc : s.canon = true) (g : Nat) :
    ((s.mediaRoom (fun _ => true)).lane g).mediaWait = false := by
  refine State.foldl_freed_mediaWait hc _ ?_
  cases hfind : Tab.find? s.lanes g with
  | none => exact .inr (by rw [State.lane, Tab.getD, hfind]; rfl)
  | some l =>
    have hlane : s.lane g = l := by rw [State.lane, Tab.getD, hfind]; rfl
    cases hwait : l.mediaWait with
    | false => exact .inr (hlane ▸ hwait)
    | true => exact .inl ⟨(g, l), List.mem_filter.mpr ⟨Tab.mem_of_find? hfind, by simp [hwait]⟩, rfl⟩
/-- Without a copy of the seal record that waits, none goes on. -/
theorem State.sealKick_of_no_job {s : State} (h : s.keys.job = none) : s.sealKick = s :=
  List.foldl_fixed' (fun g => by unfold State.sealNext; rw [h]) _

end Sys2Proof.Machine

open Sys2Proof Sys2Proof.Machine

/-- Settles O18: the mode decides what a warning does, and a rise of HOLDUP_OK admits every lane (`State.mediaRoom_all_mediaWait`). -/
theorem powerPins : Obligations.PowerPins := by
  unfold Obligations.PowerPins
  intro s
  refine ⟨fun halive => ⟨?warning, ?failing, ?runs, ?spared, ?fall, ?rise, ?admits⟩, fun hdead => ?dead⟩
  case warning => exact fun h => yields_of_done (if_pos ⟨halive, h⟩)
  case failing =>
    intro hmode c
    refine yields_of_done ((if_pos ⟨halive, .inl hmode⟩).trans ?_)
    simp only [hmode, if_true]
  case runs =>
    intro hrun c
    have hmode : s.glb.mode ≠ .opening := fun h => by simp [State.not_running_of_mode (.inr (.inl h))] at hrun
    refine yields_of_done ((if_pos ⟨halive, .inr hrun⟩).trans ?_)
    simp only [hmode, if_false]
  case spared =>
    intro h f
    refine yields_of_idle (if_neg fun ⟨_, hmode⟩ => ?_)
    rcases h with h | h <;> simp [h, State.running, State.serving] at hmode
  case fall => exact yields_of_done (if_pos halive)
  case rise => exact yields_of_done (if_pos halive)
  case admits =>
    intro hc hjob
    have hkick := State.sealKick_of_no_job (s := (s.modPins (fun p => { p with holdup := true })).mediaRoom (fun _ => true))
      (by simpa using hjob)
    refine ⟨_, if_pos halive, ?_⟩
    rw [if_pos rfl, hkick]
    refine ⟨by simp, by simp, fun g => ?_⟩
    rw [settle_lane]
    exact State.mediaRoom_all_mediaWait (s := s.modPins _) hc g
  case dead =>
    have hnot : ¬ s.alive = true := Bool.eq_false_iff.mp hdead
    exact ⟨fun f => yields_of_idle (if_neg fun h => hnot h.1), fun l => yields_of_idle (if_neg hnot)⟩
end

section
/-! The thermal codes and the millisecond edge (R55, R57, R402 to R405). -/
namespace Sys2Proof.Machine
open Sys2Proof

/-- The CRIT stop of R404: set at CRIT, cleared once every code is below it less the hysteresis, else as it was. -/
theorem State.evalCrit_atCrit {u : State} (h : u.atCrit = true) :
    u.evalCrit = ({ u with ledger := { u.ledger with critStop := true } } : State).raise 0x4000 3 := if_pos h
theorem State.evalCrit_cool {u : State} (h : u.atCrit = false) (hc : u.codes.all (fun c => decide (c < u.critCode - u.thmHyst)) = true) :
    u.evalCrit = { u with ledger := { u.ledger with critStop := false } } := (if_neg (Bool.eq_false_iff.mp h)).trans (if_pos hc)
theorem State.evalCrit_between {u : State} (h : u.atCrit = false) (hc : u.codes.all (fun c => decide (c < u.critCode - u.thmHyst)) = false) :
    u.evalCrit = u := (if_neg (Bool.eq_false_iff.mp h)).trans (if_neg (Bool.eq_false_iff.mp hc))

variable {s : State}

/-- The state with the samples that a millisecond edge takes (R55). -/
def State.msSampled (s : State) (cap : BitVec 16) : State :=
  { s with pins := { s.pins with capReq := cap, edge0 := s.pins.therm0, edge1 := s.pins.therm1 } }

/-- An awake block takes the codes and evaluates CRIT (R404). -/
theorem exec_thermCodeUpdate (hawake : s.awake = true) (hwarm : s.pins.warmLow = false) (c0 c1 : BitVec 10) :
    exec (.thermCodeUpdate c0 c1) s = done s (({ s with pins := { s.pins with therm0 := c0, therm1 := c1 } } : State).keepMax.evalCrit) := by
  obtain ⟨halive, -, hmode, hdoze⟩ := State.awake_iff.mp hawake
  have hwake : (s.modPins (fun p => { p with therm0 := c0, therm1 := c1 })).wakeBlock = s.modPins (fun p => { p with therm0 := c0, therm1 := c1 }) :=
    State.wakeBlock_of_awake hdoze
  refine (if_pos halive).trans ((if_neg ?_).trans ?_)
  · simp [hwarm, hmode]
  · simp only [hwake, ite_self]
    exact congrArg (done s) (if_neg (Bool.eq_false_iff.mp hdoze))

/-- An awake block's millisecond edge: the samples, reconciliation and WARN, then THRIFT where it serves, then the lanes' drift. -/
theorem exec_millisecondEdge (hawake : s.awake = true) (meas cap : BitVec 16) :
    exec (.millisecondEdge meas cap) s =
      let u := ((s.msSampled cap).reconcile meas).evalWarn
      let v := if s.serving then u.thriftEdge else u
      done s (if s.running ∨ s.glb.mode = .opening then v.laneList.foldl State.tempTrigger v else v) :=
  (if_pos (State.awake_iff.mp hawake).1).trans (if_pos hawake)

/-- The lanes' drift and settling leave the pins alone. -/
theorem settle_drift_pins (s : State) {u v : State} (h : v.Ok u) (q : Prop) [Decidable q] :
    (settle s (if q then v.laneList.foldl State.tempTrigger v else v)).pins = u.pins := by
  obtain ⟨⟨-, -, hpins, -⟩, -⟩ := settle_new s _
    (State.ite_ok (p := q) (State.foldl_ok v.laneList h fun _ g ht => State.tempTrigger_ok _ g ht) h)
  exact hpins
/-- What follows the samples of a millisecond edge leaves the pins alone. -/
theorem millisecondEdge_pins (hc : s.canon = true) (hawake : s.awake = true) (meas cap : BitVec 16) :
    ∃ t, exec (.millisecondEdge meas cap) s = .next t ∧ t.pins = (s.msSampled cap).pins := by
  have hwarn := State.evalWarn_ok _ (State.reconcile_ok (s.msSampled cap) meas (State.ok_self hc))
  exact ⟨_, exec_millisecondEdge hawake meas cap, settle_drift_pins s (State.ite_ok (State.thriftEdge_ok _ hwarn) hwarn) _⟩

end Sys2Proof.Machine

open Sys2Proof Sys2Proof.Machine

/-- Settles O19: the thermal clauses are the cases of `State.evalCrit`, those of the edge the modes of an awake block. -/
theorem thermalAndMillisecond : Obligations.ThermalAndMillisecond := by
  unfold Obligations.ThermalAndMillisecond
  intro s c0 c1 meas cap hawake hwarm
  refine ⟨⟨fun hcrit => ?_, fun hcrit hcool => ?_, fun hcrit hwarmer => ?_⟩, ⟨fun hserving => ?_, fun hmode => ?_, fun hmode => ?_⟩,
    fun hc => millisecondEdge_pins hc hawake meas cap⟩
  · exact yields_of_done ((exec_thermCodeUpdate hawake hwarm c0 c1).trans (congrArg (done s) (State.evalCrit_atCrit hcrit)))
  · exact yields_of_done ((exec_thermCodeUpdate hawake hwarm c0 c1).trans (congrArg (done s) (State.evalCrit_cool hcrit hcool)))
  · exact yields_of_done ((exec_thermCodeUpdate hawake hwarm c0 c1).trans (congrArg (done s) (State.evalCrit_between hcrit hwarmer)))
  · refine yields_of_done ((exec_millisecondEdge hawake meas cap).trans ?_)
    have hrun : s.running = true := State.running_iff.mpr (.inl (State.serving_iff.mp hserving))
    simp only [hserving, hrun, if_true, true_or]
    rfl
  · refine yields_of_done ((exec_millisecondEdge hawake meas cap).trans ?_)
    have hdrift : s.running = true ∨ s.glb.mode = .opening := hmode.imp_left fun h => State.running_iff.mpr (.inr h)
    have hserving : s.serving = false := by rcases hmode with h | h <;> simp [State.serving, h]
    simp only [hserving, hdrift, if_true, Bool.false_eq_true, if_false]
    rfl
  · refine yields_of_done ((exec_millisecondEdge hawake meas cap).trans ?_)
    have hserving : s.serving = false := by simp [State.serving, hmode]
    have hrun : s.running = false := State.not_running_of_mode (.inr (.inr hmode))
    simp only [hserving, hrun, hmode, Bool.false_eq_true, if_false, reduceCtorEq, or_self]
    rfl
end

section
/-! The host ports: requests, beats, statuses and time-outs (R30 to R41, R295, R316). -/
namespace Sys2Proof.Machine
open Sys2Proof

/-- A beat taken: one with a wrong parity leaves a record of class HP_PARITY (R36). -/
def State.beatTaken (s : State) (p : Fin 4) (tag : Fin 512) (d : Beat) (par : BitVec 128) : State :=
  if parOk 128 d par then s else s.blot 0 0x0F none [BitVec.ofNat 32 p.val, BitVec.ofNat 32 tag.val]
/-- The response that a beat counts with: ERR_POISON after a wrong parity (R36). -/
def beatResp (d : Beat) (par : BitVec 128) (resp : BitVec 2) : Nat := if parOk 128 d par then resp.toNat else 3
/-- A tag is in quarantine until the host has returned what is missing: a status, or so many beats (R39). -/
def Port.quarantine (q : Port) (wr : Bool) (tag missing : Nat) : Port :=
  if wr then { q with qWrites := Tab.setD (fun _ => false) q.qWrites tag true }
  else { q with qReads := Tab.setD (fun _ => 0) q.qReads tag missing }
@[simp] theorem fired_nil (kind : Nat) : fired [] kind = none := rfl
@[simp] theorem firedAll_nil (kind : Nat) : firedAll [] kind = [] := rfl

section HostPort
variable {s : State} {p : Fin 4} (hup : s.portsUp = true)
include hup

/-! ### Requests and write beats -/

theorem exec_hpRequestAccept {r : HpReq} {rest : List HpReq} {tag : Nat} (hqueue : (s.port p.val).queue = r :: rest)
    (htag : (s.port p.val).rqTag = some tag) :
    exec (.hpRequestAccept p) s = done s ((s.modPort p.val (fun q => q.accept tag r s.time.toNat)).issuerCheck r.issuer) := by
  refine (if_pos hup).trans ?_
  simp only [hqueue, htag]
theorem exec_hpRequestAccept_none (htag : (s.port p.val).rqTag = none) : exec (.hpRequestAccept p) s = idle s := by
  refine (if_pos hup).trans ?_
  simp only [htag]

theorem exec_hpWriteBeat_next {tag : Nat} {b b' : WBeat} {bs : List WBeat} {rest : List (Nat × List WBeat)}
    (hdata : (s.port p.val).wdata = (tag, b :: b' :: bs) :: rest) :
    exec (.hpWriteBeat p) s = done s (s.modPort p.val (fun q => { q with wdata := (tag, b' :: bs) :: rest })) := by
  refine (if_pos hup).trans ?_
  simp only [hdata]
  rfl
theorem exec_hpWriteBeat_last {tag : Nat} {b : WBeat} {rest : List (Nat × List WBeat)} {o : HpOut}
    (hdata : (s.port p.val).wdata = (tag, [b]) :: rest) (hout : (s.port p.val).outOn true tag = some o) :
    exec (.hpWriteBeat p) s = done s ((s.modPort p.val (fun q => { q with wdata := rest })).issuerCheck o.req.issuer) := by
  refine (if_pos hup).trans ?_
  simp only [hdata, hout]
  rfl

/-! ### Read beats, where no perturbation is in the way -/

variable {tag : Fin 512}

section ReadBeat
variable (hquiet : s.opportunity 0xF000 p.val = (s, [])) (hheld : (s.port p.val).rdHeld = none) {d : Beat} {par : BitVec 128}
include hquiet hheld

theorem exec_hpReadBeat_stray (resp : BitVec 2) (hnone : ((s.beatTaken p tag d par).port p.val).outOn false tag.val = none) :
    exec (.hpReadBeat p tag d par resp) s = done s (((s.beatTaken p tag d par).modPort p.val (fun q =>
      { q with qReads := Tab.setD (fun _ => 0) q.qReads tag.val (Tab.getD (fun _ => 0) q.qReads tag.val - 1) }.present)).hpProtocol
        p.val tag.val 0) := by
  unfold State.beatTaken at hnone ⊢
  refine (if_neg (not_not.mpr hup)).trans ?_
  simp only [hheld, hquiet, fired_nil, firedAll_nil, List.foldl_nil, Option.isSome_none, Bool.false_eq_true, if_false, hnone]
theorem exec_hpReadBeat_last (resp : BitVec 2) {x : HpOut} (hout : ((s.beatTaken p tag d par).port p.val).outOn false tag.val = some x)
    (hlast : x.got + 1 = x.req.len) :
    exec (.hpReadBeat p tag d par resp) s = done s
      (((((s.beatTaken p tag d par).modPort p.val (fun q => (q.setOut false tag.val none).present)).lessOut x.req.issuer).readAnswer x.req x.got
        (beatResp d par resp) false d).issuerCheck x.req.issuer) := by
  unfold State.beatTaken at hout ⊢
  refine (if_neg (not_not.mpr hup)).trans ?_
  simp only [hheld, hquiet, fired_nil, firedAll_nil, List.foldl_nil, Option.isSome_none, Bool.false_eq_true, if_false, hout, hlast, if_true]
  rfl
theorem exec_hpReadBeat_more (resp : BitVec 2) {x : HpOut} (hout : ((s.beatTaken p tag d par).port p.val).outOn false tag.val = some x)
    (hmore : x.got + 1 ≠ x.req.len) :
    exec (.hpReadBeat p tag d par resp) s = done s
      (((s.beatTaken p tag d par).modPort p.val (fun q =>
        (q.setOut false tag.val (some { x with got := x.got + 1, err := x.err || decide (beatResp d par resp ≠ 0) })).present)).readAnswer
          x.req x.got (beatResp d par resp) false d) := by
  unfold State.beatTaken at hout ⊢
  refine (if_neg (not_not.mpr hup)).trans ?_
  simp only [hheld, hquiet, fired_nil, firedAll_nil, List.foldl_nil, Option.isSome_none, Bool.false_eq_true, if_false, hout, hmore]
  rfl

end ReadBeat

/-! ### Write statuses, where no perturbation is in the way -/

section WriteStatus
variable (hquiet : s.opportunity 0xF000 (4 + p.val) = (s, [])) (resp : BitVec 2)
include hquiet

theorem exec_hpWriteStatus_stray (hnone : (s.port p.val).outOn true tag.val = none) :
    exec (.hpWriteStatus p tag resp) s = done s ((s.modPort p.val (fun q =>
      { q with qWrites := Tab.setD (fun _ => false) q.qWrites tag.val false }.present)).hpProtocol p.val tag.val 1) := by
  refine (if_neg (not_not.mpr hup)).trans ?_
  simp only [hquiet, hnone]
theorem exec_hpWriteStatus {x : HpOut} (hout : (s.port p.val).outOn true tag.val = some x) :
    exec (.hpWriteStatus p tag resp) s =
      let u := (s.modPort p.val (fun q => (q.setOut true tag.val none).present)).lessOut x.req.issuer
      let v := if resp = 0 ∧ x.req.cls = 2 then
          x.req.beats.zipIdx.foldl (fun w e => w.hostPut (x.req.addr.toNat + 128 * e.2) e.1.data e.1.strb) u
        else u
      done s ((v.writeAnswer p.val x.req resp.toNat false).issuerCheck x.req.issuer).resume := by
  have hok : resp.toNat = 0 ↔ resp = 0 := by simp [BitVec.toNat_eq]
  refine (if_neg (not_not.mpr hup)).trans ?_
  simp only [hquiet, hout, fired_nil, hok]

end WriteStatus

/-! ### Time-outs -/

section Timeout
variable {wr : Bool} {x : HpOut} (hout : (s.port p.val).outOn wr tag.val = some x)
include hout

theorem exec_hpTimeout_early (hearly : s.since x.at_ ≤ s.hpLimit) : exec (.hpTimeout p wr tag) s = idle s := by
  refine (if_neg (not_not.mpr hup)).trans ?_
  simp only [hout, hearly, if_true]
theorem exec_hpTimeout_late (hlate : s.hpLimit < s.since x.at_) :
    exec (.hpTimeout p wr tag) s =
      let u := ((s.modPort p.val (fun q => (q.setOut wr tag.val none).quarantine wr tag.val (x.req.len - x.got))).lessOut x.req.issuer).blot 0 0x11
        none [BitVec.ofNat 32 p.val, BitVec.ofNat 32 tag.val, if wr then 1 else 0]
      let v := if wr then u.writeAnswer p.val x.req 1 true
        else (List.range (x.req.len - x.got)).foldl (fun w k => w.readAnswer x.req (x.got + k) 1 true 0) u
      done s (v.issuerCheck x.req.issuer).resume := by
  refine (if_neg (not_not.mpr hup)).trans ?_
  simp only [hout, Nat.not_le.mpr hlate, if_false]
  rfl

end Timeout

end HostPort
end Sys2Proof.Machine

open Sys2Proof Sys2Proof.Machine

/-- Settles O20: one lemma for each way that a command of the host ports can go. -/
theorem hostPortTransfers : Obligations.HostPortTransfers := by
  unfold Obligations.HostPortTransfers
  refine ⟨fun s p hup => ⟨?request, ?noRequest, ?nextBeat, ?lastBeat⟩,
    fun s p tag hup => ⟨?readBeat, ?status, ?strayStatus, ?early, ?lateWrite, ?lateRead⟩⟩
  case request => exact fun r rest tag hqueue htag => yields_of_done (exec_hpRequestAccept hup hqueue htag)
  case noRequest => exact fun htag => yields_of_idle (exec_hpRequestAccept_none hup htag)
  case nextBeat => exact fun tag b b' bs rest hdata => yields_of_done (exec_hpWriteBeat_next hup hdata)
  case lastBeat => exact fun tag b rest o hdata hout => yields_of_done (exec_hpWriteBeat_last hup hdata hout)
  case readBeat =>
    exact fun d par resp hquiet hheld => ⟨fun hnone => yields_of_done (exec_hpReadBeat_stray hup hquiet hheld resp hnone),
      fun x hout hlast => yields_of_done (exec_hpReadBeat_last hup hquiet hheld resp hout hlast),
      fun x hout hmore => yields_of_done (exec_hpReadBeat_more hup hquiet hheld resp hout hmore)⟩
  case status => exact fun x resp hquiet hout => yields_of_done (exec_hpWriteStatus hup hquiet resp hout)
  case strayStatus => exact fun resp hquiet hnone => yields_of_done (exec_hpWriteStatus_stray hup hquiet resp hnone)
  case early => exact fun wr x hout hearly => yields_of_idle (exec_hpTimeout_early hup hout hearly)
  case lateWrite => exact fun x hout hlate => yields_of_done (exec_hpTimeout_late hup hout hlate)
  case lateRead => exact fun x hout hlate => yields_of_done (exec_hpTimeout_late hup hout hlate)
end

section
/-! The state right after reset (R69, R78), the register port in RESET (R45, R70), and the two resets: what each leaves and what its
end makes (R69, R71, R73, R87, R113). -/
namespace Sys2Proof.Machine
open Sys2Proof

/-! ### Settling -/

@[simp] theorem settle_glb (s u : State) : (settle s u).glb = u.glb := by
  obtain ⟨g, b, h⟩ := settle_frame s u
  rw [h]
/-- The cycle ends for the Blotter whatever edges are latched (R109, R421). -/
theorem settle_blotter (s u : State) : (settle s u).blotter = u.rest.blotter := by
  unfold settle
  split <;> rfl

/-! ### Reads in RESET -/

@[simp] theorem State.pairNext_blotter (s : State) : s.pairNext.blotter = s.blotter := rfl
/-- What a read clears is registers alone. -/
@[simp] theorem State.readClear_blotter (s : State) (a : Nat) : (s.readClear a).blotter = s.blotter := by
  unfold State.readClear
  split <;> split_ifs <;> rfl

/-- The registers that answer a read in RESET: GLB_RELEASE, GLB_BUILD, GLB_MODE and the CLK page (R70). -/
def answersInReset (a : Nat) : Prop :=
  a = Reg.GLB_RELEASE ∨ a = Reg.GLB_BUILD ∨ a = Reg.GLB_MODE ∨ (a / 0x1000 = 1 ∧ a % 4 = 0)

section ReadInReset
variable {s : State} {a : Nat} (hscan : s.pins.scan = .mission) (hpwr : s.pins.pwrLow = false) (hrst : s.portReset = true)
include hscan hpwr hrst

/-- R70: another register reads zero in RESET, and nothing clears. -/
theorem State.portRead_inReset_zero (h : ¬ answersInReset a) (id : BitVec 8) (value : State → Word) (clear : State → State) :
    s.portRead a id value clear = s.answer false (some 0) := by
  obtain ⟨hrelease, hbuild, hmode, hclk⟩ := by simpa only [answersInReset, not_or] using h
  simp only [State.portRead, hscan, hpwr, hrst, hrelease, hbuild, hmode, hclk, ne_eq, not_true_eq_false, Bool.false_eq_true, or_self,
    if_false, if_true]
/-- R70: a register that answers in RESET reads as it does outside it, and only those of the CLK page clear. -/
theorem State.portRead_inReset_value (h : answersInReset a) (id : BitVec 8) (value : State → Word) (clear : State → State) :
    s.portRead a id value clear = s.answer false (some (value s)) ∨
      s.portRead a id value clear = (clear s).answer false (some (value s)) := by
  simp only [State.portRead, hscan, hpwr, hrst, ne_eq, not_true_eq_false, Bool.false_eq_true, if_false, if_true]
  by_cases hglb : a = Reg.GLB_RELEASE ∨ a = Reg.GLB_BUILD ∨ a = Reg.GLB_MODE
  · exact .inl (if_pos hglb)
  · have hclk : a / 0x1000 = 1 ∧ a % 4 = 0 := by unfold answersInReset at h; tauto
    exact .inr ((if_neg hglb).trans (if_pos hclk))

end ReadInReset
end Sys2Proof.Machine

open Sys2Proof Sys2Proof.Machine

/-- Settles O3: every clause is read off the constants of `State.reset`, whose tables are empty. -/
theorem resetState : Obligations.ResetState := by
  unfold Obligations.ResetState
  exact ⟨rfl, rfl, rfl, rfl, rfl, rfl, rfl, rfl, rfl, rfl, rfl, fun _ => rfl, fun _ => rfl, by decide⟩

/-- Settles O8: a write is acknowledged alone, and a read is one of those that answer in RESET or returns zero. -/
theorem accessInReset : Obligations.AccessInReset := by
  unfold Obligations.AccessInReset
  intro s hscan hpwr hreset
  have hrst : s.portReset = true := by simpa [State.portReset] using hreset
  refine ⟨fun c a acc hc => ?write, fun ad id => ⟨_, rfl, ?read⟩⟩
  case write =>
    obtain ⟨eff, heff⟩ := exec_write hc s
    exact ⟨_, heff, .inl (congrArg (settle s) (State.portWrite_inReset hscan hpwr hrst acc eff))⟩
  case read =>
    by_cases hanswers : answersInReset ad.toNat
    · refine ⟨s.regRead ad.toNat, ?_, fun hnot => absurd hanswers hnot, fun _ => rfl, ?_⟩
      all_goals
        rcases State.portRead_inReset_value hscan hpwr hrst hanswers id (State.regRead · ad.toNat) (State.readClear · ad.toNat) with h | h
        all_goals rw [h]
      · rw [settle_rp]; rfl
      · rw [settle_rp]; rfl
      · rw [settle_blotter]; rfl
      · rw [settle_blotter]
        exact congrArg (fun b : Blotter => { b with fresh := [], cycle := 0 }) (s.readClear_blotter ad.toNat)
    · rw [State.portRead_inReset_zero hscan hpwr hrst hanswers]
      refine ⟨0, settle_rp _ _, fun _ => ⟨rfl, .inl ?_⟩, fun hnamed => absurd hnamed hanswers, settle_blotter _ _⟩
      rw [settle_rp]
      rfl

namespace Sys2Proof.Machine
open Sys2Proof

/-! ### The cold reset -/

/-- Beside what `State.reset` gives, a cold reset keeps the build, host memory and the model's own queue and free values (R69). -/
theorem State.coldScope_eq (s : State) : s.coldScope =
    { State.reset with
      build := s.build, store := s.store, freeCtr := s.freeCtr, pending := s.pending, regs := s.coldScope.regs, pins := s.coldScope.pins,
      fuse := { State.reset.fuse with request := false } } := by
  unfold State.coldScope State.initQuota State.setReg
  dsimp only
/-- Right after a cold reset the registers read as reset, but for the Manager's slab limit. -/
theorem State.coldScope_regs (s : State) :
    s.coldScope.regs = Tab.setD regReset [] (winKey Reg.IW_TN_QUOTA 511) (BitVec.ofNat 32 (65536 * s.nSlabs)) := by
  have hslabs : s.nSlabs <<< 16 = 65536 * s.nSlabs := by rw [Nat.shiftLeft_eq, Nat.mul_comm]
  rw [← hslabs, State.coldScope, State.initQuota, State.setReg_regs]
  rfl
theorem State.coldScope_regAt_quota (s : State) : s.coldScope.regAt (winKey Reg.IW_TN_QUOTA 511) = BitVec.ofNat 32 (65536 * s.nSlabs) := by
  rw [State.regAt, State.coldScope_regs]
  exact Tab.getD_setD_self regReset rfl _ _
theorem State.coldScope_regAt (s : State) {k : Nat} (h : k ≠ winKey Reg.IW_TN_QUOTA 511) : s.coldScope.regAt k = regReset k := by
  rw [State.regAt, State.coldScope_regs]
  exact Tab.getD_setD_ne regReset h _

/-! ### The entry to OPENING -/

/-- The row check looks at registers alone. -/
theorem State.charRowOk_congr {s t : State} (h : ∀ k, k < 64 → s.regAt (Reg.CHAR_ROW + 4 * k) = t.regAt (Reg.CHAR_ROW + 4 * k)) :
    s.charRowOk = t.charRowOk := by
  have hbytes : ((List.range 63).flatMap fun k => natBytes 4 (s.regAt (Reg.CHAR_ROW + 4 * k)).toNat) =
      (List.range 63).flatMap fun k => natBytes 4 (t.regAt (Reg.CHAR_ROW + 4 * k)).toNat :=
    List.flatMap_congr fun k hk => by rw [h k (by have := List.mem_range.mp hk; omega)]
  refine decide_eq_decide.mpr ?_
  dsimp only
  rw [hbytes, h 0 (by decide), h 3 (by decide), h 60 (by decide), h 61 (by decide), h 62 (by decide), h 63 (by decide)]

/-- With a good row the entry to OPENING waits for its images (R79, R85). -/
theorem State.enterOpening_waits {s : State} (hload : s.fuse.failed = false) (hrow : s.charRowOk = true) :
    s.enterOpening.glb.mode = .opening ∧ s.enterOpening.glb.prevMode = s.glb.mode ∧ s.enterOpening.glb.phase = .awaitImages ∧
      s.enterOpening.pins = s.pins := by
  obtain ⟨u, hmode, hprev, hfuse, hregs, -, -, -, hpins, h⟩ := s.enterOpening_cases
  have hrow' : u.charRowOk = true := (State.charRowOk_congr fun k _ => by unfold State.regAt; rw [hregs]).trans hrow
  rw [hfuse, hload, hrow'] at h
  rw [h]
  exact ⟨hmode, hprev, rfl, hpins⟩
/-- With a failed load or a bad row it fails, which counts (R87, R113). -/
theorem State.enterOpening_fails {s : State} (h : s.fuse.failed = true ∨ s.charRowOk = false) :
    s.enterOpening.glb.mode = .reset ∧ s.enterOpening.glb.restartWait = true ∧
      s.enterOpening.glb.bootCount = min 3 (s.glb.bootCount + 1) ∧ s.enterOpening.glb.causeA = (if s.fuse.failed then 1 else 2) ∧
      s.enterOpening.glb.causeB = s.glb.causeA ∧ s.enterOpening.glb.causeC = s.glb.causeB := by
  obtain ⟨u, -, -, hfuse, hregs, hcount, hcauseA, hcauseB, -, heq⟩ := s.enterOpening_cases
  have hrow : u.charRowOk = s.charRowOk := State.charRowOk_congr fun k _ => by unfold State.regAt; rw [hregs]
  rw [hfuse, hrow] at heq
  rw [← hcount, ← hcauseA, ← hcauseB, heq]
  by_cases hload : s.fuse.failed = true
  · rw [if_pos hload, if_pos hload]
    exact u.openFail_glb .fuseLoad
  · rw [if_neg hload, if_neg hload, h.resolve_left hload]
    exact u.openFail_glb .charRow

end Sys2Proof.Machine

/-- Settles O14: the assertion leaves `State.coldScope`, and the release of the core is the entry to OPENING. -/
theorem coldReset : Obligations.ColdReset := by
  unfold Obligations.ColdReset
  intro s
  refine ⟨⟨s.coldScope, rfl, s.coldScope_eq, rfl, rfl, s.coldScope_regAt_quota, fun k hk => s.coldScope_regAt hk, ?_⟩, ?release, ?held, ?central⟩
  · exact ⟨fun _ => rfl, fun _ => rfl, fun _ => rfl, fun _ _ => rfl, fun _ => rfl, fun _ => rfl, fun _ => rfl, fun _ => rfl, rfl, rfl,
      rfl, rfl, fun _ => rfl, rfl⟩
  case release => exact fun hlow hscan => if_pos ⟨hlow, hscan⟩
  case held => exact fun h => if_neg h
  case central =>
    intro halive hwarm hdone hmode hprev
    refine ⟨_, if_pos ⟨halive, by simp [hwarm], hdone, hmode, hprev⟩, ?_⟩
    rw [settle_glb]
    refine ⟨fun hload hrow => ?_, State.enterOpening_fails⟩
    obtain ⟨hopening, hbefore, hphase, -⟩ := State.enterOpening_waits hload hrow
    exact ⟨hopening, hbefore.trans hmode, hphase⟩
end

section
/-! The warm reset (R71, R73, R87): its assertion in each mode, and its end. -/
namespace Sys2Proof.Machine
open Sys2Proof

@[simp] theorem State.presets_glb (s : State) : s.presets.glb = s.glb := by
  obtain ⟨r, x, h⟩ := State.presets_frame s
  rw [h]
@[simp] theorem State.presets_pins (s : State) : s.presets.pins = s.pins := by
  obtain ⟨r, x, h⟩ := State.presets_frame s
  rw [h]
/-- A row without presets passes or fails its check as before (R113, R358). -/
theorem State.presets_charRowOk {s : State} (h : ∀ k, 36 ≤ k → k < 60 → bit (s.regAt (Reg.CHAR_ROW + 4 * k)) 31 = false) :
    s.presets.charRowOk = s.charRowOk := by
  refine State.charRowOk_congr fun k hk => ?_
  rw [State.presets_none s h]
  exact State.regAt_setReg_ne _ (show Reg.CHAR_ROW + 4 * k ≠ Reg.SW_REP_STAT by simp only [Reg.CHAR_ROW, Reg.SW_REP_STAT]; omega) _
/-- Bits set in a register read as set. -/
theorem State.regAt_orReg_self {s : State} (h : s.canon = true) (k : Nat) (m : Word) : (s.orReg k m).regAt k = s.regAt k ||| m :=
  State.regAt_setReg_self h k _

/-! ### The assertion -/

/-- RST_WARM_N is sampled low (R71). -/
def State.warmPinLow (s : State) : State := { s with pins := { s.pins with warmLow := true } }

section Assert
variable {s : State}

/-- In scan and under the supply reset the pin is taken alone. -/
theorem exec_warmResetAssert_held (hdead : s.alive = false) (w : Bool) : exec (.warmResetAssert w) s = .next s.warmPinLow :=
  if_pos (Bool.eq_false_iff.mp hdead)

variable (halive : s.alive = true)
include halive

/-- ENDGAME, and a warning of the same cycle, let it wait (R73). -/
theorem exec_warmResetAssert_waits {w : Bool} (h : s.glb.mode = .endgame ∨ (w = true ∧ s.glb.mode ≠ .reset)) :
    exec (.warmResetAssert w) s = .next (s.warmPinLow.modGlb (fun g => { g with warmWait := true })) :=
  (if_neg (not_not.mpr halive)).trans (if_pos h)
theorem exec_warmResetAssert_running (hrun : s.running = true) : exec (.warmResetAssert false) s = .next s.warmPinLow.applyWarm := by
  have hmode : ¬ (s.glb.mode = .reset ∨ s.glb.mode = .opening ∨ s.glb.mode = .endgame) := fun h => by
    simp [State.not_running_of_mode h] at hrun
  simp only [not_or] at hmode
  obtain ⟨hreset, hopening, hendgame⟩ := hmode
  exact (if_neg (not_not.mpr halive)).trans ((if_neg (by simp [hendgame])).trans ((if_neg hopening).trans (if_neg hreset)))
/-- In OPENING it is a failure that is counted, without the restart of its own (R87). -/
theorem exec_warmResetAssert_opening (hmode : s.glb.mode = .opening) : exec (.warmResetAssert false) s =
    .next (((s.warmPinLow.countFailure .resetInOpening).failReset.modGlb (fun g => { g with resetCounted := true, restartWait := false })).orReg
      Reg.CLK_RESET_CAUSE (flag true 1 ||| flag (s.laneList.any s.laneBusy) 3)) :=
  (if_neg (not_not.mpr halive)).trans ((if_neg (by simp [hmode])).trans (if_pos hmode))
/-- In RESET it takes the place of the restart that waits (R87). -/
theorem exec_warmResetAssert_reset (hmode : s.glb.mode = .reset) (w : Bool) : exec (.warmResetAssert w) s =
    .next (s.warmPinLow.applyWarm.modGlb (fun g => { g with restartWait := false, resetCounted := g.resetCounted || s.glb.restartWait })) :=
  (if_neg (not_not.mpr halive)).trans ((if_neg (by simp [hmode])).trans ((if_neg (by simp [hmode])).trans (if_pos hmode)))

end Assert

/-! ### What it keeps -/

/-- A register of the Characterization Row is one that a warm reset keeps (R71). -/
theorem keptReg_charRow {k : Nat} (h : k < 64) : keptReg (Reg.CHAR_ROW + 4 * k) = true := by
  simp only [keptReg, Reg.CHAR_ROW, decide_eq_true_eq]
  omega
/-- A warm reset of a block out of RESET keeps the row, and shows as the cause. -/
theorem State.applyWarm_regAt {s : State} (hc : s.canon = true) (hmode : s.glb.mode ≠ .reset) :
    bit (s.applyWarm.regAt Reg.CLK_RESET_CAUSE) 1 = true ∧
      ∀ k, k < 64 → s.applyWarm.regAt (Reg.CHAR_ROW + 4 * k) = s.regAt (Reg.CHAR_ROW + 4 * k) := by
  obtain ⟨u, happly, -, -, -, -, -, -, hcanon, hregs⟩ := s.applyWarm_form hmode
  rw [happly]
  refine ⟨?_, fun k hk => ?_⟩
  · rw [State.regAt_orReg_self (hcanon hc)]
    simp [bit, flag]
  · have hkept := keptReg_charRow hk
    simp only [Reg.CHAR_ROW] at hkept ⊢
    calc (u.warmScope.orReg Reg.CLK_RESET_CAUSE _).regAt (0x300 + 4 * k)
        = u.warmScope.regAt (0x300 + 4 * k) := State.regAt_setReg_ne _ (by simp only [Reg.CLK_RESET_CAUSE]; omega) _
      _ = u.regAt (0x300 + 4 * k) := State.warmScope_regAt u hkept
      _ = s.regAt (0x300 + 4 * k) := hregs _ (by simp only [Reg.BL_STAT]; omega) (by omega) (by omega)
/-- What the scope of a warm reset takes over, and what it clears (R71). -/
theorem State.warmScope_orReg_fields (u : State) (k : Nat) (m : Word) :
    (u.warmScope.orReg k m).glb = u.glb.warm ∧ (u.warmScope.orReg k m).keys = State.reset.keys ∧ (u.warmScope.orReg k m).slabs = [] ∧
      (u.warmScope.orReg k m).fuse = u.fuse ∧ (u.warmScope.orReg k m).store = u.store ∧ (u.warmScope.orReg k m).pins = u.pins ∧
      (u.warmScope.orReg k m).endgame.entries = u.endgame.entries := ⟨rfl, rfl, rfl, rfl, rfl, rfl, rfl⟩
/-- What a warm reset of a block out of RESET keeps and clears. -/
theorem State.applyWarm_fields {s : State} (hmode : s.glb.mode ≠ .reset) :
    s.applyWarm.glb = ({ s.glb with mode := .reset, prevMode := s.glb.mode } : Glb).warm ∧ s.applyWarm.keys = State.reset.keys ∧
      s.applyWarm.slabs = [] ∧ s.applyWarm.fuse = s.fuse ∧ s.applyWarm.store = s.store ∧ s.applyWarm.pins = s.pins ∧
      s.applyWarm.endgame.entries = s.endgame.entries := by
  obtain ⟨u, happly, -, hpins, hfuse, hstore, hendgame, hglb, -, -⟩ := s.applyWarm_form hmode
  rw [happly, ← hpins, ← hfuse, ← hstore, ← hendgame, ← hglb]
  exact u.warmScope_orReg_fields _ _
/-- In RESET a warm reset leaves the mode, and applies its scope to the state with the queued records logged (R71, R425). -/
theorem State.applyWarm_inReset {s : State} (hmode : s.glb.mode = .reset) :
    ∃ r b, s.applyWarm = ({ s with regs := r, blotter := b } : State).warmScope.orReg Reg.CLK_RESET_CAUSE
      (flag true 1 ||| flag (s.laneList.any s.laneBusy) 3) := by
  obtain ⟨r, b, hdrain⟩ := State.blotterDrain_frame 64 s
  refine ⟨r, b, ?_⟩
  unfold State.applyWarm
  simp only [hdrain, hmode, if_true]

/-! ### The end -/

/-- RST_WARM_N is seen high, and no warm reset is deferred any more (R73). -/
def State.warmPinHigh (s : State) : State :=
  { s with pins := { s.pins with warmLow := false }, glb := { s.glb with warmDeferred := false } }
/-- The state whose presets have been applied again at the end of a warm reset (R69 step 3, R71). -/
def State.warmRestored (s : State) : State := s.warmPinHigh.presets

@[simp] theorem State.warmRestored_fuse (s : State) : s.warmRestored.fuse = s.fuse := State.presets_fuse _
@[simp] theorem State.warmRestored_glb (s : State) : s.warmRestored.glb = { s.glb with warmDeferred := false } := State.presets_glb _
@[simp] theorem State.warmRestored_pins (s : State) : s.warmRestored.pins = { s.pins with warmLow := false } := State.presets_pins _

/-- With a row without presets the row passes or fails its check as before. -/
theorem State.warmRestored_charRowOk {s : State} (h : ∀ k, 36 ≤ k → k < 60 → bit (s.regAt (Reg.CHAR_ROW + 4 * k)) 31 = false) :
    s.warmRestored.charRowOk = s.charRowOk := by
  rw [State.warmRestored, State.presets_charRowOk (s := s.warmPinHigh) h]
  exact State.charRowOk_congr fun _ _ => rfl

section Release
variable {s : State} (hheld : s.pins.warmLow = true ∨ s.glb.warmDeferred = true) (found : List LaneFound) (copies : List SealCopy)
include hheld

/-- Out of RESET, or before the fuses are loaded, the pin rises alone. -/
theorem exec_warmResetRelease_pin (h : ¬ (s.alive = true ∧ s.glb.mode = .reset ∧ s.fuse.done = true)) :
    exec (.warmResetRelease found copies) s = .next { s with pins := { s.pins with warmLow := false } } :=
  (if_pos hheld).trans (if_neg h)

variable (halive : s.alive = true) (hmode : s.glb.mode = .reset) (hdone : s.fuse.done = true)
include halive hmode hdone

theorem exec_warmResetRelease_cases : exec (.warmResetRelease found copies) s =
    done s (if s.glb.resetCounted then s.warmRestored.restart found copies else s.warmRestored.enterOpening) := by
  refine (if_pos hheld).trans ((if_pos ⟨halive, hmode, hdone⟩).trans ?_)
  change done s (if s.warmRestored.glb.resetCounted then _ else _) = _
  rw [State.warmRestored_glb]
  rfl
theorem exec_warmResetRelease_fallback (hcounted : s.glb.resetCounted = true) (hthird : s.glb.bootCount = 3) :
    exec (.warmResetRelease found copies) s = done s (s.warmRestored.enterFallback found copies) := by
  rw [exec_warmResetRelease_cases hheld found copies halive hmode hdone, if_pos hcounted, State.restart, if_neg (by simp [hthird])]
theorem exec_warmResetRelease_opens (h : s.glb.resetCounted = false ∨ s.glb.bootCount < 3) :
    exec (.warmResetRelease found copies) s = done s s.warmRestored.enterOpening := by
  rw [exec_warmResetRelease_cases hheld found copies halive hmode hdone]
  cases hcounted : s.glb.resetCounted with
  | false => rw [if_neg Bool.false_ne_true]
  | true =>
    rw [if_pos rfl, State.restart, if_pos]
    rw [State.warmRestored_glb]
    exact h.resolve_left (by simp [hcounted])

end Release
end Sys2Proof.Machine

open Sys2Proof Sys2Proof.Machine

/-- Settles O16: the mode decides what the assertion does, and COUNT where its end leads. -/
theorem warmReset : Obligations.WarmReset := by
  unfold Obligations.WarmReset
  intro s w
  refine ⟨fun hdead => exec_warmResetAssert_held hdead w, fun halive h => exec_warmResetAssert_waits halive h, ?running, ?opening, ?reset,
    fun found copies hheld => ⟨fun h => exec_warmResetRelease_pin hheld found copies h, fun halive hmode hdone =>
      ⟨fun hcounted hthird => yields_of_done (exec_warmResetRelease_fallback hheld found copies halive hmode hdone hcounted hthird),
        fun h => yields_of_done (exec_warmResetRelease_opens hheld found copies halive hmode hdone h)⟩⟩, ?opens⟩
  case running =>
    rintro hc halive hrun rfl
    have hmode : s.warmPinLow.glb.mode ≠ .reset := fun h => by simp [State.not_running_of_mode (s := s) (.inl h)] at hrun
    obtain ⟨hwarm, hrow⟩ := State.applyWarm_regAt (s := s.warmPinLow) hc hmode
    obtain ⟨hglb, hkeys, hslabs, hfuse, hstore, hpins, hentries⟩ := State.applyWarm_fields hmode
    refine ⟨_, exec_warmResetAssert_running halive hrun, ?_⟩
    rw [hglb]
    exact ⟨rfl, rfl, rfl, rfl, rfl, hkeys, hslabs, hfuse, hstore, hpins, hentries, hwarm, hrow⟩
  case opening =>
    rintro halive hmode rfl
    refine ⟨_, exec_warmResetAssert_opening halive hmode, ?_⟩
    rw [State.orReg_glb, State.modGlb_glb, State.failReset_glb, State.countFailure_glb]
    exact ⟨rfl, rfl, rfl, rfl, rfl⟩
  case reset =>
    intro halive hmode
    obtain ⟨r, b, happly⟩ := State.applyWarm_inReset (s := s.warmPinLow) hmode
    refine ⟨_, exec_warmResetAssert_reset halive hmode w, ?_⟩
    rw [happly]
    exact ⟨hmode, rfl, rfl, rfl, rfl, rfl, rfl⟩
  case opens =>
    intro found copies hlow hpwr hscan hmode hdone hload hrow hcounted hpresets
    have halive : s.alive = true := by simp [State.alive, hscan, hpwr]
    obtain ⟨hopening, -, hphase, hpins⟩ := State.enterOpening_waits ((congrArg Fuse.failed s.warmRestored_fuse).trans hload)
      ((State.warmRestored_charRowOk hpresets).trans hrow)
    refine ⟨_, exec_warmResetRelease_opens (.inl hlow) found copies halive hmode hdone (.inl hcounted), ?_⟩
    rw [settle_glb, settle_pins, hpins]
    exact ⟨hopening, hphase, s.warmRestored_pins⟩
end

section
/-! The doze of a cluster and its wake (R68, R74, R75, R153, R381). -/
namespace Sys2Proof.Machine
open Sys2Proof

/-! ### What an operation on a lane leaves alone -/

/-- An operation on lane g changes that lane alone, of the registers at most its LN_CAL_STAT, and of the lane nothing of what is kept. -/
structure LaneChange {β : Type} (keep : Lane → β) (g : Nat) (s t : State) : Prop where
  frame : ∃ r l, t = { s with regs := r, lanes := l }
  lane : ∀ k, k ≠ g → t.lane k = s.lane k
  regs : ∀ k, k ≠ lnA g Reg.LN_CAL_STAT → t.regAt k = s.regAt k
  kept : keep (t.lane g) = keep (s.lane g)

section LaneChange
variable {β : Type} {keep : Lane → β} {g : Nat} {s t u : State}

theorem LaneChange.refl (keep : Lane → β) (g : Nat) (s : State) : LaneChange keep g s s :=
  ⟨⟨s.regs, s.lanes, rfl⟩, fun _ _ => rfl, fun _ _ => rfl, rfl⟩
theorem LaneChange.trans (h : LaneChange keep g s t) (h' : LaneChange keep g t u) : LaneChange keep g s u := by
  obtain ⟨r, l, hframe⟩ := h.frame
  obtain ⟨r', l', hframe'⟩ := h'.frame
  exact ⟨⟨r', l', by rw [hframe', hframe]⟩, fun k hk => (h'.lane k hk).trans (h.lane k hk), fun k hk => (h'.regs k hk).trans (h.regs k hk),
    h'.kept.trans h.kept⟩
/-- Less is kept of what is kept. -/
theorem LaneChange.map {γ : Type} (p : β → γ) (h : LaneChange keep g s t) : LaneChange (fun l => p (keep l)) g s t :=
  ⟨h.frame, h.lane, h.regs, congrArg p h.kept⟩
theorem State.modLane_change (hc : s.canon = true) {f : Lane → Lane} (hf : ∀ l, keep (f l) = keep l) : LaneChange keep g s (s.modLane g f) :=
  ⟨⟨_, _, rfl⟩, fun _ hk => State.lane_ne s hk f, fun _ _ => rfl, by rw [State.lane_self hc, hf]⟩
theorem State.calStat_change (s : State) (f : Word → Word) : LaneChange keep g s (s.modReg (lnA g Reg.LN_CAL_STAT) f) :=
  ⟨⟨_, _, rfl⟩, fun _ _ => rfl, fun _ hk => State.regAt_setReg_ne s hk _, rfl⟩

end LaneChange

/-- What a calibration run leaves of a lane: whether it is enabled, its active words and those that a doze has saved. -/
def Lane.settings (l : Lane) : Bool × List Word × Option (List Word) := (l.enabled, l.active, l.saved)

section Runs
variable {s : State} (hc : s.canon = true) (g : Nat)
include hc

/-- An idle point moves a calibration run alone (R144). -/
theorem State.calPoint_change : LaneChange Lane.settings g s (s.calPoint g) := by
  unfold State.calPoint
  split
  · split
    · exact State.modLane_change hc fun _ => rfl
    · split
      · exact .refl _ g s
      · exact State.modLane_change hc fun _ => rfl
  · exact .refl _ g s
theorem State.dropRun_change : LaneChange Lane.settings g s (s.dropRun g) := by
  refine .trans ?_ (State.calPoint_change (State.modLane_ok s g _ (State.ok_self hc)).2 g)
  exact State.modLane_change hc fun _ => rfl
theorem State.startRun_change : LaneChange Lane.settings g s (s.startRun g) := by
  unfold State.startRun
  dsimp only
  split
  · exact .refl _ g s
  · refine .trans ?_ (State.calPoint_change (State.modLane_ok s g _ (State.ok_self hc)).2 g)
    exact State.modLane_change hc fun _ => rfl
theorem State.tempTrigger_change : LaneChange Lane.settings g s (s.tempTrigger g) := by
  unfold State.tempTrigger
  dsimp only
  split
  · exact State.startRun_change hc g
  · exact .refl _ g s
/-- A hand-over of the shadows leaves the lane enabled or not (R149, R151). -/
theorem State.castle_change : LaneChange Lane.enabled g s (s.castle g) := by
  have hshow : LaneChange Lane.enabled g s (if (s.lane g).forced then
      (s.modLane g (fun l => { l with forced := false })).orReg (lnA g Reg.LN_CAL_STAT) (flag true 10) else s) := by
    split
    · refine .trans ?_ (State.calStat_change _ _)
      exact State.modLane_change hc fun _ => rfl
    · exact .refl _ g s
  have hshown := State.ite_ok (p := (s.lane g).forced = true)
    (State.orReg_ok _ (lnA g Reg.LN_CAL_STAT) (flag true 10) (State.modLane_ok s g (fun l => { l with forced := false }) (State.ok_self hc)))
    (State.ok_self hc)
  unfold State.castle
  dsimp only
  generalize (if (s.lane g).forced then _ else s) = u at hshow hshown ⊢
  have hhand : LaneChange Lane.enabled g u (u.handOver g) := by
    refine .trans ?_ (State.calStat_change _ _)
    exact State.modLane_change hshown.2 fun _ => rfl
  refine (hshow.trans hhand).trans ?_
  unfold State.fallbackResets
  split
  · exact .refl _ g _
  · exact State.modLane_change (State.handOver_ok u g hshown).2 fun _ => rfl

end Runs

/-! ### A lane that dozes -/

/-- The slots of a page return to their reset values, and no other register. -/
theorem State.pxResetPage_regAt (s : State) (page k : Nat) (h : ¬ (page + 0xF00 ≤ k ∧ k < page + 0xF20)) :
    (s.pxResetPage page).regAt k = s.regAt k := by
  unfold State.pxResetPage State.regAt
  dsimp only
  rw [Tab.getD_filter_key regReset (fun a => decide (¬ (page + 0xF00 ≤ a ∧ a < page + 0xF20))), if_pos (decide_eq_true h)]

/-- The state in which a lane's doze takes its words: its pending shadow castled, its calibration run abandoned (R151). -/
def State.dozeDue (s : State) (g : Nat) : State := (if s.castPending g then s.castle g else s).dropRun g
/-- What a doze leaves of a lane's record, with the words that it saves of an enabled lane (R68, R153; log entry 38). -/
def Lane.atDoze (l : Lane) (words : List Word) : Lane :=
  { Lane.init with
    enabled := l.enabled, candidates := l.candidates, active := l.active, trims := l.trims, widths := l.widths,
    trainEyes := l.trainEyes, forced := l.forced, retrainReq := l.retrainReq, retrainLater := l.retrainLater,
    saved := if l.enabled then some words else none }
theorem State.laneDoze_eq (s : State) (g : Nat) : s.laneDoze g =
    ((s.dozeDue g).modLane g (fun l => l.atDoze ((s.dozeDue g).calWords g))).pxResetPage (lnA g 0) := rfl

section LaneDoze
variable {s : State} (hc : s.canon = true) (g : Nat)
include hc

theorem State.dozeDue_canon : (s.dozeDue g).canon = true :=
  (State.dropRun_ok _ g (State.ite_ok (State.castle_ok s g (State.ok_self hc)) (State.ok_self hc))).2
theorem State.dozeDue_change : LaneChange Lane.enabled g s (s.dozeDue g) := by
  have hcastled : LaneChange Lane.enabled g s (if s.castPending g then s.castle g else s) := by
    split
    · exact State.castle_change hc g
    · exact .refl _ g s
  have hcanon := (State.ite_ok (p := s.castPending g = true) (State.castle_ok s g (State.ok_self hc)) (State.ok_self hc)).2
  exact hcastled.trans ((State.dropRun_change hcanon g).map Prod.fst)
/-- Without a pending shadow the words that a doze takes are those before it (R153). -/
theorem State.dozeDue_calWords (hnone : s.castPending g = false) : (s.dozeDue g).calWords g = s.calWords g := by
  have hdue : s.dozeDue g = s.dropRun g := by rw [State.dozeDue, hnone]; rfl
  have hchange := State.dropRun_change hc g
  have hactive : ((s.dropRun g).lane g).active = (s.lane g).active := congrArg (fun x => x.2.1) hchange.kept
  rw [hdue, State.calWords, State.calWords, hactive, hchange.regs _ (by simp [lnA, Reg.LN_SIG_STAT, Reg.LN_CAL_STAT]),
    hchange.regs _ (by simp [lnA, Reg.LN_CAL_TEMP, Reg.LN_CAL_STAT])]

theorem State.laneDoze_lane : (s.laneDoze g).lane g = ((s.dozeDue g).lane g).atDoze ((s.dozeDue g).calWords g) :=
  State.lane_self (State.dozeDue_canon hc g) g fun l => l.atDoze ((s.dozeDue g).calWords g)
/-- A doze of a lane leaves the other lanes, their saved words' sources and their pending shadows alone. -/
theorem State.laneDoze_other {k : Nat} (hk : k ≠ g) :
    (s.laneDoze g).lane k = s.lane k ∧ (s.laneDoze g).calWords k = s.calWords k ∧ (s.laneDoze g).castPending k = s.castPending k := by
  have hchange := State.dozeDue_change hc g
  have hlane : (s.laneDoze g).lane k = s.lane k :=
    (State.lane_ne (s.dozeDue g) hk fun l => l.atDoze ((s.dozeDue g).calWords g)).trans (hchange.lane k hk)
  have hregs : ∀ o, o < 0xF00 → (s.laneDoze g).regAt (lnA k o) = s.regAt (lnA k o) := fun o ho =>
    (State.pxResetPage_regAt _ _ _ (by simp only [lnA]; omega)).trans
      (hchange.regs _ (by simp only [lnA, Reg.LN_CAL_STAT]; omega))
  refine ⟨hlane, ?_, ?_⟩
  · rw [State.calWords, State.calWords, hlane, hregs _ (by decide), hregs _ (by decide)]
  · rw [State.castPending, State.castPending, hregs _ (by decide)]
theorem State.laneDoze_frame : ∃ r l d, s.laneDoze g = { s with regs := r, lanes := l, draws := d } := by
  obtain ⟨r, l, hdue⟩ := (State.dozeDue_change hc g).frame
  rw [State.laneDoze_eq, hdue]
  exact ⟨_, _, _, rfl⟩

end LaneDoze

/-! ### The lanes of a cluster in turn -/

/-- The lanes of cluster c are those whose number gives c. -/
theorem mem_clusterLanes {c g : Nat} : g ∈ (List.range 8).map (· + 8 * c) ↔ g / 8 = c := by
  simp only [List.mem_map, List.mem_range]
  constructor
  · rintro ⟨l, hl, rfl⟩
    omega
  · exact fun h => ⟨g % 8, by omega, by omega⟩
theorem nodup_clusterLanes (c : Nat) : ((List.range 8).map (· + 8 * c)).Nodup :=
  List.nodup_range.map (add_left_injective (8 * c))

/-- Of an operation made on several lanes in turn, what is seen of one lane is what its own turn does, on a state that shows it as it
was before the first. -/
theorem foldl_ownTurn {α : Type} {op : State → Nat → State} {view : State → α} {g : Nat} (hcanon : ∀ t k, t.canon = true → (op t k).canon = true)
    (hother : ∀ t k, t.canon = true → k ≠ g → view (op t k) = view t) {l : List Nat} (hl : l.Nodup) (hg : g ∈ l) {s : State}
    (hs : s.canon = true) : ∃ t, t.canon = true ∧ view t = view s ∧ view (l.foldl op s) = view (op t g) := by
  induction l generalizing s with
  | nil => exact absurd hg List.not_mem_nil
  | cons k l ih =>
    obtain ⟨hkl, hl⟩ := List.nodup_cons.mp hl
    by_cases hk : k = g
    · subst hk
      refine ⟨s, hs, rfl, And.right (List.foldlRecOn (motive := fun t => t.canon = true ∧ view t = view (op s k)) l op ⟨hcanon s k hs, rfl⟩ ?_)⟩
      exact fun t ⟨ht, hview⟩ j hj => ⟨hcanon t j ht, (hother t j ht fun h => hkl (h ▸ hj)).trans hview⟩
    · obtain ⟨t, ht, hview, hfold⟩ := ih hl ((List.mem_cons.mp hg).resolve_left (Ne.symm hk)) (hcanon s k hs)
      exact ⟨t, ht, hview.trans (hother s k hs hk), hfold⟩

section ClusterDoze
variable {s : State} (hc : s.canon = true) (c : Nat)
include hc

/-- The doze of a cluster's lanes changes registers, lanes and generators alone. -/
theorem State.lanesDoze_frame : (((List.range 8).map (· + 8 * c)).foldl State.laneDoze s).canon = true ∧
    ∃ r l d, ((List.range 8).map (· + 8 * c)).foldl State.laneDoze s = { s with regs := r, lanes := l, draws := d } := by
  refine List.foldlRecOn (motive := fun t : State => t.canon = true ∧ ∃ r l d, t = { s with regs := r, lanes := l, draws := d }) _ _
    ⟨hc, s.regs, s.lanes, s.draws, rfl⟩ ?_
  rintro t ⟨ht, r, l, d, hframe⟩ g -
  refine ⟨(State.laneDoze_ok t g (State.ok_self ht)).2, ?_⟩
  obtain ⟨r', l', d', hdoze⟩ := State.laneDoze_frame ht g
  exact ⟨r', l', d', by rw [hdoze, hframe]⟩
theorem State.lanesDoze_other {g : Nat} (hg : g / 8 ≠ c) : (((List.range 8).map (· + 8 * c)).foldl State.laneDoze s).lane g = s.lane g := by
  refine And.right (List.foldlRecOn (motive := fun t : State => t.canon = true ∧ t.lane g = s.lane g) _ _ ⟨hc, rfl⟩ ?_)
  rintro t ⟨ht, hlane⟩ k hk
  have hne : g ≠ k := fun h => hg (h ▸ mem_clusterLanes.mp hk)
  exact ⟨(State.laneDoze_ok t k (State.ok_self ht)).2, (State.laneDoze_other ht k hne).1.trans hlane⟩
/-- A lane of the cluster is in the R50 state, with its words saved where it is enabled (R68, R153). -/
theorem State.lanesDoze_lane {g : Nat} (hg : g / 8 = c) :
    let l := (((List.range 8).map (· + 8 * c)).foldl State.laneDoze s).lane g
    l.ceLow = none ∧ l.wpHigh = false ∧ l.luns = [] ∧
      ((s.lane g).enabled = true → s.castPending g = false → l.saved = some (s.calWords g)) ∧
      ((s.lane g).enabled = false → l.saved = none) := by
  obtain ⟨t, ht, hview, hfold⟩ := foldl_ownTurn (op := State.laneDoze) (view := fun t => (t.lane g, t.calWords g, t.castPending g)) (g := g)
    (fun t k ht => (State.laneDoze_ok t k (State.ok_self ht)).2)
    (fun t k ht hk => by
      obtain ⟨hlane, hwords, hpending⟩ := State.laneDoze_other ht k (Ne.symm hk)
      rw [hlane, hwords, hpending])
    (nodup_clusterLanes c) (mem_clusterLanes.mpr hg) hc
  obtain ⟨hlane, hwords, hpending⟩ : t.lane g = s.lane g ∧ t.calWords g = s.calWords g ∧ t.castPending g = s.castPending g := by
    simpa using hview
  have henabled : ((t.dozeDue g).lane g).enabled = (s.lane g).enabled := (State.dozeDue_change ht g).kept.trans (congrArg Lane.enabled hlane)
  have hdozed : (((List.range 8).map (· + 8 * c)).foldl State.laneDoze s).lane g = ((t.dozeDue g).lane g).atDoze ((t.dozeDue g).calWords g) :=
    (congrArg Prod.fst hfold).trans (State.laneDoze_lane ht g)
  dsimp only
  rw [hdozed]
  refine ⟨rfl, rfl, rfl, fun hon hnone => ?_, fun hoff => ?_⟩
  · rw [Lane.atDoze, henabled, hon, State.dozeDue_calWords ht g (hpending.trans hnone), hwords]
    rfl
  · rw [Lane.atDoze, henabled, hoff]
    rfl

end ClusterDoze
end Sys2Proof.Machine

namespace Sys2Proof.Machine
open Sys2Proof

/-! ### The wake of a cluster -/

/-- The bytes of the image store are all that a number read from it depends on. -/
theorem State.imgNat_congr {s t : State} (h : t.images = s.images) (off n : Nat) : t.imgNat off n = s.imgNat off n := by
  unfold State.imgNat State.imgBytes State.imgByte
  rw [h]

/-- A slab of a bank that is zero-filled: only a retired one stays so (R75, R288). -/
def Slab.zeroed (x : Slab) : Slab := { Slab.init with retired := x.retired }

/-- Changes of slabs in turn change slabs alone. -/
theorem State.modSlabs_frame (f : Slab → Slab) (l : List Nat) (s : State) :
    ∃ x, l.foldl (fun u n => u.modSlab n f) s = { s with slabs := x } := by
  induction l generalizing s with
  | nil => exact ⟨s.slabs, rfl⟩
  | cons n l ih =>
    obtain ⟨x, hx⟩ := ih (s.modSlab n f)
    exact ⟨x, hx⟩
theorem State.zeroBank_frame (s : State) (c : Nat) : ∃ x, s.zeroBank c = { s with slabs := x } := State.modSlabs_frame Slab.zeroed _ s
/-- A slab that is among those zero-filled, or is zero already, is zero after them. -/
theorem State.foldl_zeroed_slab {l : List Nat} {n : Nat} {s : State} (hc : s.canon = true) (h : n ∈ l ∨ s.slab n = (s.slab n).zeroed) :
    (l.foldl (fun u n => u.modSlab n Slab.zeroed) s).slab n = (s.slab n).zeroed := by
  induction l generalizing s with
  | nil => simpa using h
  | cons k l ih =>
    have hcanon := (State.modSlab_ok s k Slab.zeroed (State.ok_self hc)).2
    by_cases hk : n = k
    · subst hk
      have hslab : (s.modSlab n Slab.zeroed).slab n = (s.slab n).zeroed := State.slab_self hc n _
      rw [List.foldl_cons, ih hcanon (.inr (by rw [hslab]; rfl)), hslab]
      rfl
    · have hslab : (s.modSlab k Slab.zeroed).slab n = s.slab n := State.slab_ne s hk _
      rw [List.foldl_cons, ih hcanon (by simpa [hk, hslab] using h), hslab]
/-- The zero-fill reaches every slab of the bank: one that the table does not list is zero already. -/
theorem State.zeroBank_slab {s : State} (hc : s.canon = true) {c n : Nat} (hn : n / 512 = c) : (s.zeroBank c).slab n = (s.slab n).zeroed := by
  refine State.foldl_zeroed_slab hc ?_
  cases hfind : Tab.find? s.slabs n with
  | none =>
    have hslab : s.slab n = Slab.init := by rw [State.slab, Tab.getD, hfind]; rfl
    exact .inr (by rw [hslab]; rfl)
  | some x =>
    have hbank : inBank c n = true := by
      simp only [inBank, decide_eq_true_eq]
      omega
    exact .inl (List.mem_map.mpr ⟨(n, x), List.mem_filter.mpr ⟨Tab.mem_of_find? hfind, hbank⟩, rfl⟩)

/-- A cluster with its clock again, and one whose Quill begins again at pc with nothing in its bank (R75). -/
def Cluster.clocked (q : Cluster) : Cluster := { q with dozed := false }
def Cluster.restarted (q : Cluster) (pc : Nat) : Cluster :=
  { q with quill := { q.quill with state := .running, regs := [], pc := pc, events := [], timers := [] } }
/-- A Quill that is not halted by a fault begins again at its image's entry (R75, R161). -/
theorem State.quillRestart_running {s : State} {c : Nat} (hc : c ≠ 16) (h : (s.cluster c).quill.state ≠ .fault) :
    s.quillRestart c = s.modCluster c (fun q => q.restarted (s.imgNat 8 4 % 65536)) := (if_neg h).trans (if_neg hc)

/-! ### The pending PROGRAMs of other clusters -/

theorem State.takeSlabs_frame (s : State) (t n b : Nat) : ∃ x, (s.takeSlabs t n b).1 = { s with slabs := x } :=
  State.modSlabs_frame _ _ s
/-- An allocation takes slabs of the bank alone. -/
theorem State.takeSlabs_slab (s : State) (t n : Nat) {b k : Nat} (hk : k / 512 ≠ b) : (s.takeSlabs t n b).1.slab k = s.slab k := by
  refine List.foldlRecOn (motive := fun u : State => u.slab k = s.slab k) _ _ rfl fun u hu j hj => (State.slab_ne u ?_ _).trans hu
  obtain ⟨i, hi, rfl⟩ := List.mem_map.mp (List.mem_filter.mp (List.mem_of_mem_take hj)).1
  have := List.mem_range.mp hi
  omega
theorem State.modCmd_frame (s : State) (c h : Nat) (f : Cmd → Cmd) : ∃ x, s.modCmd c h f = { s with cmds := x } := by
  unfold State.modCmd
  split
  · exact ⟨_, rfl⟩
  · exact ⟨s.cmds, rfl⟩
theorem State.setCmd_ne (s : State) {c h c' h' : Nat} (hne : hKey c h ≠ hKey c' h') (x : Option Cmd) :
    (s.setCmd c' h' x).cmd? c h = s.cmd? c h := by
  unfold State.cmd? State.setCmd
  exact Tab.getD_setD_ne _ hne _
theorem State.modCmd_ne (s : State) {c h c' h' : Nat} (hne : hKey c h ≠ hKey c' h') (f : Cmd → Cmd) :
    (s.modCmd c' h' f).cmd? c h = s.cmd? c h := by
  unfold State.modCmd
  split
  · exact s.setCmd_ne hne _
  · rfl

/-- An allocation to one command changes slabs, commands and the Mover's queues alone (R284, R294). -/
theorem State.allocOne_frame (s : State) (c h : Nat) : ∃ x y z, s.allocOne c h = { s with slabs := x, cmds := y, ports := z } := by
  unfold State.allocOne
  split
  next x _ =>
    dsimp only
    split
    · obtain ⟨l, hslabs⟩ := s.takeSlabs_frame x.owner x.frameCount c
      obtain ⟨m, hcmds⟩ := (s.takeSlabs x.owner x.frameCount c).1.modCmd_frame c h
        (fun y => { y with slabs := (s.takeSlabs x.owner x.frameCount c).2 })
      rw [hcmds, hslabs]
      exact ⟨_, _, _, rfl⟩
    · exact ⟨s.slabs, s.cmds, s.ports, rfl⟩
  next => exact ⟨s.slabs, s.cmds, s.ports, rfl⟩
theorem State.allocPrograms_frame (s : State) : ∃ x y z, s.allocPrograms = { s with slabs := x, cmds := y, ports := z } := by
  refine List.foldlRecOn (motive := fun t : State => ∃ x y z, t = { s with slabs := x, cmds := y, ports := z }) _ _
    ⟨s.slabs, s.cmds, s.ports, rfl⟩ ?_
  rintro t ⟨x, y, z, ht⟩ e -
  obtain ⟨x', y', z', halloc⟩ := t.allocOne_frame e.1 e.2.1
  exact ⟨x', y', z', by rw [halloc, ht]⟩

@[simp] theorem State.slabRoom_lanes (s : State) : s.slabRoom.lanes = s.lanes := rfl

/-- Where no command of cluster c waits for slabs, an allocation leaves its commands and its bank alone. -/
theorem State.allocOne_other {s : State} {c : Nat} (hnone : ∀ h x, s.cmd? c h = some x → x.wantsSlabs = false) (c' h' : Nat) :
    (∀ h, (s.allocOne c' h').cmd? c h = s.cmd? c h) ∧ ∀ n, n / 512 = c → (s.allocOne c' h').slab n = s.slab n := by
  unfold State.allocOne
  split
  next x hx =>
    split_ifs with hwants
    · have hkey : ∀ h, hKey c h ≠ hKey c' h' := fun h hkey => by
        have hcmd : s.cmd? c h = some x := by rw [← hx, State.cmd?, State.cmd?, hkey]
        exact absurd hwants.1 (Bool.eq_false_iff.mp (hnone h x hcmd))
      have hbank : c ≠ c' := fun h => hkey h' (by rw [h])
      obtain ⟨l, hslabs⟩ := s.takeSlabs_frame x.owner x.frameCount c'
      refine ⟨fun h => ?_, fun n hn => ?_⟩
      · refine (State.modCmd_ne _ (hkey h) _).trans ?_
        rw [hslabs]
        rfl
      · obtain ⟨m, hcmds⟩ := (s.takeSlabs x.owner x.frameCount c').1.modCmd_frame c' h'
          (fun y => { y with slabs := (s.takeSlabs x.owner x.frameCount c').2 })
        dsimp only
        rw [hcmds]
        exact State.takeSlabs_slab s _ _ (hn ▸ hbank)
    · exact ⟨fun _ => rfl, fun _ _ => rfl⟩
  next => exact ⟨fun _ => rfl, fun _ _ => rfl⟩
theorem State.allocPrograms_slab {s : State} {c n : Nat} (hnone : ∀ h x, s.cmd? c h = some x → x.wantsSlabs = false) (hn : n / 512 = c) :
    s.allocPrograms.slab n = s.slab n := by
  refine And.right (List.foldlRecOn (motive := fun t : State => (∀ h, t.cmd? c h = s.cmd? c h) ∧ t.slab n = s.slab n) _ _
    ⟨fun _ => rfl, rfl⟩ ?_)
  rintro t ⟨hcmds, hslab⟩ e -
  obtain ⟨hcmds', hslabs'⟩ := State.allocOne_other (s := t) (c := c) (fun h x hx => hnone h x ((hcmds h).symm.trans hx)) e.1 e.2.1
  exact ⟨fun h => (hcmds' h).trans (hcmds h), (hslabs' n hn).trans hslab⟩

/-! ### The lanes of a cluster that wakes -/

section LaneWake
variable {s : State} (hc : s.canon = true) (g : Nat)
include hc

/-- The wake of a lane changes that lane alone (R153). -/
theorem State.laneWake_change : LaneChange (fun _ => ()) g s (s.laneWake g) := by
  unfold State.laneWake
  split
  · refine .trans ?_ ((State.tempTrigger_change (State.modLane_ok s g _ (State.ok_self hc)).2 g).map fun _ => ())
    exact State.modLane_change hc fun _ => rfl
  · exact .refl _ g s
/-- The saved words become the active ones, and are saved no more. -/
theorem State.laneWake_lane {ws : List Word} (h : (s.lane g).saved = some ws) :
    ((s.laneWake g).lane g).active = ws.drop 2 ∧ ((s.laneWake g).lane g).saved = none := by
  unfold State.laneWake
  simp only [h]
  have hkept := (State.tempTrigger_change (State.modLane_ok s g (fun l : Lane =>
    { l with active := ws.drop 2, saved := none, wpHigh := decide (s.glb.mode ≠ .endgame) }) (State.ok_self hc)).2 g).kept
  rw [State.lane_self hc] at hkept
  exact ⟨congrArg (fun x => x.2.1) hkept, congrArg (fun x => x.2.2) hkept⟩

variable (c : Nat)

theorem State.lanesWake_frame :
    ∃ r l, ((List.range 8).map (· + 8 * c)).foldl State.laneWake s = { s with regs := r, lanes := l } := by
  refine And.right (List.foldlRecOn (motive := fun t : State => t.canon = true ∧ ∃ r l, t = { s with regs := r, lanes := l }) _ _
    ⟨hc, s.regs, s.lanes, rfl⟩ ?_)
  rintro t ⟨ht, r, l, hframe⟩ k -
  refine ⟨(State.laneWake_ok t k (State.ok_self ht)).2, ?_⟩
  obtain ⟨r', l', hwake⟩ := (State.laneWake_change ht k).frame
  exact ⟨r', l', by rw [hwake, hframe]⟩
theorem State.lanesWake_lane {ws : List Word} (hg : g / 8 = c) (h : (s.lane g).saved = some ws) :
    let l := (((List.range 8).map (· + 8 * c)).foldl State.laneWake s).lane g
    l.active = ws.drop 2 ∧ l.saved = none := by
  obtain ⟨t, ht, hlane, hfold⟩ := foldl_ownTurn (op := State.laneWake) (view := fun t => t.lane g) (g := g)
    (fun t k ht => (State.laneWake_ok t k (State.ok_self ht)).2)
    (fun t k ht hk => (State.laneWake_change ht k).lane g (Ne.symm hk))
    (nodup_clusterLanes c) (mem_clusterLanes.mpr hg) hc
  dsimp only at hlane hfold ⊢
  rw [hfold]
  exact State.laneWake_lane ht g (hlane ▸ h)

end LaneWake

/-! ### The wake as a whole -/

/-- A cluster with its clock again and its bank zero, and after that with its Quill at the image's entry, before it takes up work. -/
def State.clusterCleared (s : State) (c : Nat) : State := (s.modCluster c Cluster.clocked).zeroBank c
def State.clusterPowered (s : State) (c : Nat) : State := (s.clusterCleared c).quillRestart c
theorem State.clusterWake_eq (s : State) (c : Nat) :
    s.clusterWake c = ((List.range 8).map (· + 8 * c)).foldl State.laneWake (s.clusterPowered c).allocPrograms.slabRoom := rfl
theorem State.clusterCleared_frame (s : State) (c : Nat) : ∃ x, s.clusterCleared c =
    { s with clusters := Tab.setD (fun _ => Cluster.init) s.clusters c (s.cluster c).clocked, slabs := x } :=
  State.zeroBank_frame _ c

section ClusterWake
variable {s : State} (hc : s.canon = true) {c : Nat}
include hc

theorem State.clusterCleared_ok : (s.clusterCleared c).Ok s := State.zeroBank_ok _ _ (State.modCluster_ok s c _ (State.ok_self hc))
theorem State.clusterCleared_cluster : (s.clusterCleared c).cluster c = (s.cluster c).clocked := by
  obtain ⟨x, hcleared⟩ := s.clusterCleared_frame c
  rw [hcleared]
  exact State.cluster_self hc c Cluster.clocked
theorem State.clusterCleared_slab {n : Nat} (hn : n / 512 = c) : (s.clusterCleared c).slab n = (s.slab n).zeroed :=
  State.zeroBank_slab (State.modCluster_ok s c _ (State.ok_self hc)).2 hn
theorem State.clusterPowered_ok : (s.clusterPowered c).Ok s := State.quillRestart_ok _ _ (State.clusterCleared_ok hc)
theorem State.clusterWake_frame :
    ∃ r l x y z, s.clusterWake c = { s.clusterPowered c with regs := r, lanes := l, slabs := x, cmds := y, ports := z } := by
  obtain ⟨r, l, hlanes⟩ := State.lanesWake_frame (State.slabRoom_ok _ (State.allocPrograms_ok _ (State.clusterPowered_ok (c := c) hc))).2 c
  obtain ⟨x, y, z, halloc⟩ := (s.clusterPowered c).allocPrograms_frame
  rw [State.clusterWake_eq, hlanes, halloc]
  exact ⟨_, _, _, _, _, rfl⟩

variable (h16 : c ≠ 16) (hfault : (s.cluster c).quill.state ≠ .fault)
include h16 hfault

theorem State.clusterPowered_eq :
    s.clusterPowered c = (s.clusterCleared c).modCluster c (fun q => q.restarted (s.imgNat 8 4 % 65536)) := by
  have himages : (s.clusterCleared c).images = s.images := by
    obtain ⟨x, hcleared⟩ := s.clusterCleared_frame c
    rw [hcleared]
  rw [State.clusterPowered, State.quillRestart_running h16 (by rw [State.clusterCleared_cluster hc]; exact hfault),
    State.imgNat_congr himages]
theorem State.clusterPowered_cluster :
    (s.clusterPowered c).cluster c = (s.cluster c).clocked.restarted (s.imgNat 8 4 % 65536) := by
  rw [State.clusterPowered_eq hc h16 hfault, State.cluster_self (State.clusterCleared_ok hc).2, State.clusterCleared_cluster hc]
theorem State.clusterPowered_slab {n : Nat} (hn : n / 512 = c) : (s.clusterPowered c).slab n = (s.slab n).zeroed := by
  rw [State.clusterPowered_eq hc h16 hfault]
  exact State.clusterCleared_slab hc hn
theorem State.clusterPowered_rest : (s.clusterPowered c).lanes = s.lanes ∧ (s.clusterPowered c).cmds = s.cmds := by
  obtain ⟨x, hcleared⟩ := s.clusterCleared_frame c
  rw [State.clusterPowered_eq hc h16 hfault, hcleared]
  exact ⟨rfl, rfl⟩

/-- A cluster wakes with its Quill at the image's entry. -/
theorem State.clusterWake_cluster : (s.clusterWake c).cluster c = (s.cluster c).clocked.restarted (s.imgNat 8 4 % 65536) := by
  obtain ⟨r, l, x, y, z, hframe⟩ := State.clusterWake_frame (c := c) hc
  rw [hframe]
  exact State.clusterPowered_cluster hc h16 hfault
/-- Its bank is zero where no command of it takes slabs at once. -/
theorem State.clusterWake_slab (hnone : ∀ h x, s.cmd? c h = some x → x.wantsSlabs = false) {n : Nat} (hn : n / 512 = c) :
    (s.clusterWake c).slab n = (s.slab n).zeroed := by
  obtain ⟨-, hcmds⟩ := State.clusterPowered_rest hc h16 hfault
  obtain ⟨r, l, hwake⟩ := State.lanesWake_frame (State.slabRoom_ok _ (State.allocPrograms_ok _ (State.clusterPowered_ok (c := c) hc))).2 c
  have hslabs : (s.clusterWake c).slabs = (s.clusterPowered c).allocPrograms.slabs := by
    rw [State.clusterWake_eq, hwake]
    rfl
  rw [State.slab, hslabs, ← State.slab,
    State.allocPrograms_slab (fun h x hx => hnone h x (by rw [← hx, State.cmd?, State.cmd?, hcmds])) hn]
  exact State.clusterPowered_slab hc h16 hfault hn
/-- Its lanes take up the words that the doze saved (R153). -/
theorem State.clusterWake_lane {g : Nat} {ws : List Word} (hg : g / 8 = c) (hsaved : (s.lane g).saved = some ws) :
    ((s.clusterWake c).lane g).active = ws.drop 2 ∧ ((s.clusterWake c).lane g).saved = none := by
  obtain ⟨hlanes, -⟩ := State.clusterPowered_rest hc h16 hfault
  obtain ⟨x, y, z, halloc⟩ := (s.clusterPowered c).allocPrograms_frame
  have hlanes' : (s.clusterPowered c).allocPrograms.slabRoom.lanes = s.lanes := by
    rw [State.slabRoom_lanes, halloc]
    exact hlanes
  have hcanon := (State.slabRoom_ok _ (State.allocPrograms_ok _ (State.clusterPowered_ok (c := c) hc))).2
  rw [State.clusterWake_eq]
  exact State.lanesWake_lane hcanon g c hg (by rw [State.lane, hlanes', ← State.lane]; exact hsaved)

end ClusterWake
end Sys2Proof.Machine
end

section
/-! The doze of a cluster as a whole, of an SDE region and of the block, and the wake of the block (R74, R76, R323, R381). -/
namespace Sys2Proof.Machine
open Sys2Proof

/-! ### A cluster -/

/-- The state whose lanes of cluster c doze, and in which the registers of its pages are lost (R68). -/
def State.clusterEmptied (s : State) (c : Nat) : State :=
  ((((((List.range 8).map (· + 8 * c)).foldl State.laneDoze s).pxResetPage (clA c 0)).pxResetPage (deA (2 * c) 0)).pxResetPage
    (deA (2 * c + 1) 0)).clusterLose c
/-- The cluster of a state without its clock. -/
def Cluster.gated (q : Cluster) : Cluster := { q with dozed := true }

section Cluster
variable {s : State} {cl : Fin 16}

theorem exec_clusterDoze (hawake : s.awake = true) (hup : s.clusterUp cl.val = true) (hfree : s.wakeDemand cl.val = false)
    (hidle : s.clusterIdle cl.val = true) :
    exec (.clusterDoze cl) s = done s ((s.clusterEmptied cl.val).modCluster cl.val Cluster.gated) :=
  if_pos ⟨hawake, hup, Bool.eq_false_iff.mp hfree, hidle⟩
theorem exec_clusterDoze_needed (h : s.wakeDemand cl.val = true ∨ s.clusterIdle cl.val = false) : exec (.clusterDoze cl) s = idle s :=
  if_neg fun ⟨_, _, hfree, hidle⟩ => h.elim hfree fun hbusy => Bool.false_ne_true (hbusy.symm.trans hidle)
theorem exec_clusterWake (hawake : s.awake = true) (hin : cl.val < s.nClusters) (hdozed : (s.cluster cl.val).dozed = true)
    (hasked : s.wakeDemand cl.val = true) : exec (.clusterWake cl) s = done s (s.clusterWake cl.val) :=
  if_pos ⟨hawake, hin, hdozed, hasked⟩

end Cluster

section ClusterEmptied
variable {s : State} (hc : s.canon = true) (c : Nat)
include hc

theorem State.clusterEmptied_canon : (s.clusterEmptied c).canon = true :=
  (State.clusterLose_ok _ c (State.pxResetPage_ok _ _ (State.pxResetPage_ok _ _ (State.pxResetPage_ok _ _
    (State.ok_self (State.lanesDoze_frame hc c).1))))).2
theorem State.clusterEmptied_clusters : (s.clusterEmptied c).clusters = s.clusters := by
  obtain ⟨-, r, l, d, hframe⟩ := State.lanesDoze_frame hc c
  rw [State.clusterEmptied, hframe]
  rfl

end ClusterEmptied

/-- The registers of the cluster's pages are no part of its lanes. -/
theorem State.pagesLost_lane (t : State) (p q r c g : Nat) :
    (((((t.pxResetPage p).pxResetPage q).pxResetPage r).clusterLose c).modCluster c Cluster.gated).lane g = t.lane g := rfl
theorem State.clusterEmptied_lane (s : State) (c g : Nat) :
    ((s.clusterEmptied c).modCluster c Cluster.gated).lane g = (((List.range 8).map (· + 8 * c)).foldl State.laneDoze s).lane g := by
  rw [State.clusterEmptied, State.pagesLost_lane]

/-! ### An SDE region -/

section Region
variable {s : State} {r : Fin 2}

theorem exec_sdeRegionDoze (hawake : s.awake = true) (hin : r.val < s.nRegions) (hmode : s.glb.mode ≠ .fallback)
    (hreleased : s.glb.mode = .opening → 5 ≤ s.glb.phase.code) (hclock : (s.region r.val).dozed = false)
    (henable : bit (s.regAt Reg.CLK_DOZE_CTL) (16 + r.val) = true) (hstill : (s.region r.val).still = true) :
    exec (.sdeRegionDoze r) s = done s ((s.regionLose r.val).modRegion r.val (fun q => { q with dozed := true, ctx := [] })) :=
  if_pos ⟨hawake, hmode, hreleased, hin, Bool.eq_false_iff.mp hclock, henable, hstill⟩
theorem exec_sdeRegionDoze_busy (hbusy : (s.region r.val).still = false) : exec (.sdeRegionDoze r) s = idle s :=
  if_neg fun ⟨_, _, _, _, _, _, hstill⟩ => Bool.false_ne_true (hbusy.symm.trans hstill)
theorem exec_sdeRegionWake (hawake : s.awake = true) (hin : r.val < s.nRegions) (hdozed : (s.region r.val).dozed = true)
    (hasked : (s.region r.val).waiting ≠ []) :
    exec (.sdeRegionWake r) s = done s (s.modRegion r.val (fun q => { q with dozed := false })) :=
  if_pos ⟨hawake, hin, hdozed, by simpa using hasked⟩

end Region

/-- The registers that a doze names return to their reset values, but for PAGE_CTL.EXPERT and PAGE_LOCK (R107, R108). -/
theorem State.lose_regAt (s : State) (lost : Nat → Nat → Bool) (k : Nat) : (s.lose lost).regAt k =
    if lost (k % 0x800000 / 0x1000) (k % 0x1000) = true ∧ k % 0x1000 ≠ 0x008 ∧ k % 0x1000 ≠ 0xFF0 then regReset k else s.regAt k := by
  unfold State.lose State.regAt
  dsimp only
  rw [Tab.getD_filter_key regReset (fun a =>
    !(lost (a % 0x800000 / 0x1000) (a % 0x1000) && decide (a % 0x1000 ≠ 0x008 ∧ a % 0x1000 ≠ 0xFF0)))]
  by_cases h : lost (k % 0x800000 / 0x1000) (k % 0x1000) = true ∧ k % 0x1000 ≠ 0x008 ∧ k % 0x1000 ≠ 0xFF0
  · rw [if_pos h, if_neg (by simp [h])]
  · rw [if_neg h, if_pos]
    simpa only [Bool.not_eq_true', ← Bool.not_eq_true, Bool.and_eq_true, decide_eq_true_eq] using h
theorem State.regionLose_regAt (s : State) (r k : Nat) : (s.regionLose r).regAt k =
    if 0x100 + 8 * r ≤ k % 0x800000 / 0x1000 ∧ k % 0x800000 / 0x1000 < 0x108 + 8 * r ∧ k % 0x1000 ≠ 0x008 ∧ k % 0x1000 ≠ 0xFF0
    then regReset k else s.regAt k := by
  rw [State.regionLose, State.lose_regAt]
  simp only [decide_eq_true_eq, and_assoc]

/-! ### The block -/

section BlockDoze
variable {s : State}

theorem exec_blockDoze (hawake : s.awake = true) (hmode : s.glb.mode ≠ .fallback) (henable : bit (s.regAt Reg.CLK_DOZE_CTL) 18 = true)
    (hclusters : ∀ c ∈ s.clusterList, (s.cluster c).dozed = true) (hregions : ∀ r ∈ s.regionList, (s.region r).dozed = true)
    (hcentral : s.centralStill = true) (hcache : s.cache.still = true) (hblotter : s.blotterStill = true) :
    exec .blockDoze s = if ¬ s.cache.clean then done s s.cacheClean else
      done s ((((s.cacheFlush.scribeLose.modBlotter (fun b => { b with main := [], windows := [] })).modScrub (fun x => { x with row := 0 })).modSignal
        (fun g => { g with blockDozed := true, restoring := false, heldN := s.irqN, heldF := s.irqF }))) :=
  if_pos ⟨hawake, hmode, henable, List.all_eq_true.mpr hclusters, List.all_eq_true.mpr hregions, hcentral, hcache, hblotter⟩

/-- The gate of the Scribe's clock changes the Scribe alone (R68). -/
theorem State.scribeLose_frame (s : State) : ∃ k, s.scribeLose = { s with scribe := k } := by
  unfold State.scribeLose
  split
  · exact ⟨_, if_pos rfl⟩
  · exact ⟨s.scribe, rfl⟩
theorem State.scribeLose_running (h : s.scribe.state = .running) :
    s.scribeLose.scribe = { s.scribe with regs := [], pc := s.imgNat 0x20008 4 % 65536, events := [], timers := [] } :=
  congrArg State.scribe ((if_pos h).trans (if_pos rfl))
theorem State.scribeLose_other (h : s.scribe.state ≠ .running) : s.scribeLose.scribe = s.scribe := congrArg State.scribe (if_neg h)

end BlockDoze

section BlockWake
variable {s : State}

/-- A table of vectors without an open window has no vector with one. -/
theorem State.vec_shut (hshut : ∀ e ∈ s.signal.vecs, e.2.opened = none) (v : Nat) : (s.vec v).opened = none := by
  rw [State.vec, Tab.getD]
  cases hfind : Tab.find? s.signal.vecs v with
  | none => rfl
  | some x => exact hshut _ (Tab.mem_of_find? hfind)
theorem State.vecPassed_shut (hshut : ∀ e ∈ s.signal.vecs, e.2.opened = none) (v : Nat) : s.vecPassed v = false := by
  rw [State.vecPassed, State.vec_shut hshut]
  rfl
/-- Without an open window the causes of a wake are a caught edge and a reading of 105 °C or more (R76). -/
theorem State.wakeCause_shut (hshut : ∀ e ∈ s.signal.vecs, e.2.opened = none) : s.wakeCause = true ↔
    s.signal.caught ≠ 0 ∨ 580 ≤ s.pins.therm0.toNat ∨ (s.nRegions = 2 ∧ 580 ≤ s.pins.therm1.toNat) := by
  have hpassed : (s.signal.vecs.map Prod.fst).any s.vecPassed = false :=
    List.any_eq_false.mpr fun v _ => Bool.eq_false_iff.mp (State.vecPassed_shut hshut v)
  simp [State.wakeCause, hpassed, or_assoc]

/-- The state of a woken block before the windows that have expired deliver (R76, R381, R424). -/
def State.clocked (s : State) : State :=
  (s.modSignal (fun g => { g with blockDozed := false, latched := g.latched ||| g.caught, caught := 0, restored := 0, restoring := true })).setReg
    Reg.BL_ACK (s.blotter.seq - 1)
/-- Without an open window nothing delivers at the wake. -/
theorem State.wakeBlock_shut (hdozed : s.signal.blockDozed = true) (hshut : ∀ e ∈ s.signal.vecs, e.2.opened = none) :
    s.wakeBlock = s.clocked := by
  have hnone : (s.clocked.signal.vecs.map Prod.fst).filter s.clocked.vecPassed = [] :=
    List.filter_eq_nil_iff.mpr fun v _ => Bool.eq_false_iff.mp (State.vecPassed_shut (s := s.clocked) hshut v)
  refine (if_pos hdozed).trans ?_
  change ((s.clocked.signal.vecs.map Prod.fst).filter s.clocked.vecPassed).foldl (fun u v => u.vecExpire v u.time.toNat) s.clocked = _
  rw [hnone]
  rfl

theorem exec_blockWake (halive : s.alive = true) (hwarm : s.pins.warmLow = false) (hdozed : s.signal.blockDozed = true)
    (hcause : s.wakeCause = true) : exec .blockWake s = done s s.wakeBlock := if_pos ⟨halive, by simp [hwarm], hdozed, hcause⟩
theorem exec_blockWake_sleeps (hcause : ¬ s.wakeCause = true) : exec .blockWake s = idle s := if_neg fun ⟨_, _, _, h⟩ => hcause h

end BlockWake
end Sys2Proof.Machine

open Sys2Proof Sys2Proof.Machine

/-- Settles O59: the cluster's lanes doze and wake one by one (`foldl_ownTurn`), a region loses its pages, and the block's doze and wake
are the two cases of their guards. -/
theorem dozing : Obligations.Dozing := by
  unfold Obligations.Dozing
  refine ⟨fun s cl hawake hup => ⟨?needed, ?doze⟩, fun s cl hawake hin hdozed hasked hfault hnone => ⟨_, yields_of_done (exec_clusterWake
    hawake hin hdozed hasked), ?wake⟩, fun s r hawake hin => ⟨?regionDoze, ?regionBusy, ?regionWake⟩, ?blockDoze, ?blockWake⟩
  case needed => exact exec_clusterDoze_needed
  case doze =>
    refine fun hfree hidle => ⟨_, yields_of_done (exec_clusterDoze hawake hup hfree hidle), fun hc => ?_⟩
    have hclusters := State.clusterEmptied_clusters hc cl.val
    have hlane := s.clusterEmptied_lane cl.val
    refine ⟨?_, fun k hk => ?_, fun g hg => ?_, fun g hg => ?_⟩
    · rw [State.cluster_self (State.clusterEmptied_canon hc cl.val)]
      rfl
    · rw [State.cluster_ne _ hk, State.cluster, hclusters, State.cluster]
    · rw [hlane]
      exact State.lanesDoze_lane hc cl.val hg
    · rw [hlane]
      exact State.lanesDoze_other hc cl.val hg
  case wake =>
    intro hc
    have h16 : cl.val ≠ 16 := cl.isLt.ne
    rw [State.clusterWake_cluster hc h16 hfault]
    exact ⟨rfl, rfl, rfl, rfl, fun n hn => State.clusterWake_slab hc h16 hfault hnone hn,
      fun g ws hg hsaved => State.clusterWake_lane hc h16 hfault hg hsaved⟩
  case regionDoze =>
    refine fun hmode hreleased hclock henable hstill => ⟨_, yields_of_done (exec_sdeRegionDoze hawake hin hmode hreleased hclock henable
      hstill), fun hc => ⟨?_, fun k hk => State.region_ne _ hk _, rfl, rfl, State.regionLose_regAt s r.val⟩⟩
    exact State.region_self (State.regionLose_ok s r.val (State.ok_self hc)).2 r.val _
  case regionBusy => exact exec_sdeRegionDoze_busy
  case regionWake => exact fun hdozed hasked => yields_of_done (exec_sdeRegionWake hawake hin hdozed hasked)
  case blockDoze =>
    intro s hawake hmode henable hclusters hregions hcentral hcache hblotter
    have hexec := exec_blockDoze hawake hmode henable hclusters hregions hcentral hcache hblotter
    refine ⟨fun hdirty => yields_of_done (hexec.trans (if_pos (Bool.eq_false_iff.mp hdirty))),
      fun hclean => ⟨_, yields_of_done (hexec.trans (if_neg (not_not.mpr hclean))), ?_⟩⟩
    have hrunning := State.scribeLose_running (s := s.cacheFlush)
    have hother := State.scribeLose_other (s := s.cacheFlush)
    obtain ⟨k, hscribe⟩ := s.cacheFlush.scribeLose_frame
    rw [hscribe] at hrunning hother ⊢
    exact ⟨rfl, rfl, rfl, rfl, hrunning, hother, rfl, rfl, rfl, rfl, rfl⟩
  case blockWake =>
    intro s halive hwarm hdozed hshut
    refine ⟨fun hcaught hcool0 hcool1 => exec_blockWake_sleeps ?_, fun hcause => ⟨s.wakeBlock, yields_of_done (exec_blockWake halive hwarm
      hdozed ((State.wakeCause_shut hshut).mpr hcause)), ?_⟩⟩
    · rw [State.wakeCause_shut hshut]
      rintro (h | h | ⟨-, h⟩)
      · exact h hcaught
      · omega
      · omega
    · rw [State.wakeBlock_shut hdozed hshut]
      exact ⟨rfl, rfl, rfl, fun hc => State.regAt_setReg_self (s := s.modSignal _) hc Reg.BL_ACK _⟩
end

section
/-! Ownership of the block: claim, release and succession (R83, R106). -/
namespace Sys2Proof.Machine
open Sys2Proof

/-! ### Who a claim makes the owner -/

section Claim
variable {u : State} {id : BitVec 8}

theorem State.claimBy_unowned (hnone : u.glb.owner = none) :
    u.claimBy id = ({ u with glb := { u.glb with owner := some id } } : State).expertDrop := by
  rw [State.claimBy, hnone]
  rfl
theorem State.claimBy_successor {o : BitVec 8} (howner : u.glb.owner = some o) (hen : u.glb.succEn = true) (hsucc : id = u.glb.successor) :
    u.claimBy id = ({ u with glb := { u.glb with owner := some id, successor := 0, succEn := false } } : State).expertDrop := by
  rw [State.claimBy, howner]
  exact if_pos ⟨hen, hsucc⟩
theorem State.claimBy_stranger {o : BitVec 8} (howner : u.glb.owner = some o) (hnot : ¬ (u.glb.succEn = true ∧ id = u.glb.successor)) :
    u.claimBy id = u := by
  rw [State.claimBy, howner]
  exact if_neg hnot

end Claim
theorem State.isOwner_iff {u : State} {id : BitVec 8} : u.isOwner id = true ↔ u.glb.owner = some id := beq_iff_eq

/-! ### Writes of GLB_MGR_OWNER -/

section Owner
variable {s : State} {a : RpAcc}

theorem writes_mgrOwnerClaim {u : State} (hclaim : bit a.data 30 = true) (hrelease : bit a.data 29 = false)
    (hu : (s.accepting Reg.GLB_MGR_OWNER a).claimBy a.id = u) : Writes (.mgrOwnerClaim a) s Reg.GLB_MGR_OWNER a u :=
  writes_of rfl ((if_pos ⟨hclaim, Bool.eq_false_iff.mp hrelease⟩).trans hu)
/-- A claim and a release in one write are no claim. -/
theorem writes_mgrOwnerClaim_both (hrelease : bit a.data 29 = true) :
    Writes (.mgrOwnerClaim a) s Reg.GLB_MGR_OWNER a (s.accepting Reg.GLB_MGR_OWNER a) :=
  writes_of rfl (if_neg fun h => h.2 hrelease)

theorem writes_mgrOwnerRelease (hrelease : bit a.data 29 = true) (hclaim : bit a.data 30 = false)
    (howner : (s.accepting Reg.GLB_MGR_OWNER a).glb.owner = some a.id) :
    Writes (.mgrOwnerRelease a) s Reg.GLB_MGR_OWNER a ((s.accepting Reg.GLB_MGR_OWNER a).setOwner none) :=
  writes_of rfl (if_pos ⟨hrelease, Bool.eq_false_iff.mp hclaim, State.isOwner_iff.mpr howner⟩)
/-- A release that is also a claim, or is not the owner's, is none. -/
theorem writes_mgrOwnerRelease_none (h : bit a.data 30 = true ∨ (s.accepting Reg.GLB_MGR_OWNER a).glb.owner ≠ some a.id) :
    Writes (.mgrOwnerRelease a) s Reg.GLB_MGR_OWNER a (s.accepting Reg.GLB_MGR_OWNER a) :=
  writes_of rfl (if_neg fun ⟨_, hclaim, howner⟩ => h.elim hclaim (absurd (State.isOwner_iff.mp howner)))

theorem writes_mgrSuccessorSet (hrelease : bit a.data 29 = false) (hclaim : bit a.data 30 = false)
    (howner : (s.accepting Reg.GLB_MGR_OWNER a).glb.owner = some a.id) :
    Writes (.mgrSuccessorSet a) s Reg.GLB_MGR_OWNER a ((s.accepting Reg.GLB_MGR_OWNER a).modGlb (fun g =>
      { g with successor := BitVec.ofNat 8 (fld a.data 15 8), succEn := bit a.data 16 })) :=
  writes_of rfl (if_pos ⟨Bool.eq_false_iff.mp hrelease, Bool.eq_false_iff.mp hclaim, State.isOwner_iff.mpr howner⟩)
theorem writes_mgrSuccessorSet_stranger (hstranger : (s.accepting Reg.GLB_MGR_OWNER a).glb.owner ≠ some a.id) :
    Writes (.mgrSuccessorSet a) s Reg.GLB_MGR_OWNER a (s.accepting Reg.GLB_MGR_OWNER a) :=
  writes_of rfl (if_neg fun ⟨_, _, howner⟩ => hstranger (State.isOwner_iff.mp howner))

end Owner
end Sys2Proof.Machine

open Sys2Proof Sys2Proof.Machine

/-- Settles O21: CLAIM and RELEASE select the command that acts, and the recorded owner decides what it does (`State.claimBy`,
`State.setOwner`). -/
theorem ownership : Obligations.Ownership := by
  unfold Obligations.Ownership
  intro s a u claim release
  refine ⟨fun hclaim hrelease => ⟨?unowned, ?successor, ?stranger⟩, ?release, ?succession, ?notOwner, ?both⟩
  case unowned => exact fun hnone => writes_mgrOwnerClaim hclaim hrelease (State.claimBy_unowned hnone)
  case successor => exact fun o howner hen hsucc => writes_mgrOwnerClaim hclaim hrelease (State.claimBy_successor howner hen hsucc)
  case stranger => exact fun o howner hnot => writes_mgrOwnerClaim hclaim hrelease (State.claimBy_stranger howner hnot)
  case release => exact fun hrelease hclaim howner => writes_mgrOwnerRelease hrelease hclaim howner
  case succession => exact fun hclaim hrelease howner => writes_mgrSuccessorSet hrelease hclaim howner
  case notOwner => exact fun hstranger => ⟨writes_mgrOwnerRelease_none (.inr hstranger), writes_mgrSuccessorSet_stranger hstranger⟩
  case both => exact fun hclaim hrelease => ⟨writes_mgrOwnerClaim_both hrelease, writes_mgrOwnerRelease_none (.inl hclaim)⟩
end

section
/-! Failures of OPENING, the limits of its phases, the restart, and the boot-attempt count (R85, R87, R94, R417). -/
namespace Sys2Proof.Machine
open Sys2Proof

/-! ### Cores that are late -/

/-- A Quill that was not ready in time keeps the reason; the others are as they were (R162). -/
def State.lateQuill (s t : State) (c : Nat) : State :=
  if (s.cluster c).quill.ready then t else t.modCore c (fun k => { k with startErr := 7 })

@[simp] theorem State.lateQuills_glb (s : State) (l : List Nat) (t : State) : (l.foldl s.lateQuill t).glb = t.glb := by
  induction l generalizing t with
  | nil => rfl
  | cons c l ih =>
    refine (ih (s.lateQuill t c)).trans ?_
    unfold State.lateQuill
    split_ifs
    · rfl
    · exact t.modCore_glb c _
/-- START's limit fails OPENING for the Scribe where it is late, else for the Quills (R162). -/
theorem State.startLate_scribe {s : State} (hready : s.scribe.ready = false) :
    s.startLate = (s.clusterList.foldl s.lateQuill s).openFail .scribeStart := if_pos (Bool.eq_false_iff.mp hready)
theorem State.startLate_quill {s : State} (hready : s.scribe.ready = true) :
    s.startLate = (s.clusterList.foldl s.lateQuill s).openFail .quillStart := if_neg (not_not.mpr hready)

/-! ### The limits of the phases -/

section Limits
variable {s : State}

theorem exec_awaitImagesTimeout_early (h : fld (s.regAt Reg.GLB_OPEN_TIMEOUT) 15 0 = 0 ∨
    s.since s.glb.phaseAt < fld (s.regAt Reg.GLB_OPEN_TIMEOUT) 15 0 * 100000) : exec .awaitImagesTimeout s = idle s :=
  if_neg fun ⟨_, himages⟩ => by
    obtain ⟨-, -, hset, hlate⟩ := of_decide_eq_true himages
    exact h.elim hset (Nat.not_lt.mpr hlate)
theorem exec_phaseTimeout_early (h : s.since s.glb.phaseAt < phaseLimit s.glb.phase) : exec .phaseTimeout s = idle s :=
  if_neg fun ⟨_, _, hlate⟩ => Nat.not_lt.mpr hlate h

variable (hawake : s.awake = true) (hmode : s.glb.mode = .opening)
include hawake hmode

theorem exec_awaitImagesTimeout_late (hphase : s.glb.phase = .awaitImages) (hset : fld (s.regAt Reg.GLB_OPEN_TIMEOUT) 15 0 ≠ 0)
    (hlate : fld (s.regAt Reg.GLB_OPEN_TIMEOUT) 15 0 * 100000 ≤ s.since s.glb.phaseAt) :
    exec .awaitImagesTimeout s = done s (s.openFail .imageTimeout) :=
  if_pos ⟨hawake, decide_eq_true ⟨hmode, hphase, hset, hlate⟩⟩

/-- CHAR_CHECK, MEASURE and TRAIN fail at their limits whatever else holds. -/
theorem exec_phaseTimeout_late {p : Phase} (hp : p = .charCheck ∨ p = .measure ∨ p = .train) (hphase : s.glb.phase = p)
    (hlate : phaseLimit p ≤ s.since s.glb.phaseAt) : exec .phaseTimeout s = done s (s.openFail .phaseTimeout) := by
  refine (if_pos ⟨hawake, hmode, hphase ▸ hlate⟩).trans ?_
  rcases hp with rfl | rfl | rfl <;> rw [hphase]
/-- In SEAL the copies that still wait to be written are counted first (R417). -/
theorem exec_phaseTimeout_seal (hphase : s.glb.phase = .seal) (hlate : phaseLimit .seal ≤ s.since s.glb.phaseAt) :
    exec .phaseTimeout s =
      done s (if (s.keys.job.map (fun j => !j.runs)).getD false then s.sealExpired else s.openFail .phaseTimeout) := by
  refine (if_pos ⟨hawake, hmode, hphase ▸ hlate⟩).trans ?_
  rw [hphase]
theorem exec_phaseTimeout_start (hphase : s.glb.phase = .start) (hlate : phaseLimit .start ≤ s.since s.glb.phaseAt) :
    exec .phaseTimeout s = done s s.startLate := by
  refine (if_pos ⟨hawake, hmode, hphase ▸ hlate⟩).trans ?_
  rw [hphase]
theorem exec_phaseTimeout_defect (hphase : s.glb.phase = .defect) (hlate : phaseLimit .defect ≤ s.since s.glb.phaseAt)
    (hscan : bit (s.regAt Reg.DF_SCAN_STAT) 31 = false) : exec .phaseTimeout s = done s (s.openFail .phaseTimeout) := by
  refine (if_pos ⟨hawake, hmode, hphase ▸ hlate⟩).trans ?_
  rw [hphase]
  exact if_neg (Bool.eq_false_iff.mp hscan)

end Limits

/-! ### The restart and the count -/

theorem exec_openingRestart {s : State} (found : List LaneFound) (copies : List SealCopy) (halive : s.alive = true)
    (hwarm : s.pins.warmLow = false) (hwait : s.glb.restartWait = true) (hmode : s.glb.mode = .reset) :
    exec (.openingRestart found copies) s = done s (s.restart found copies) :=
  if_pos ⟨halive, Bool.eq_false_iff.mp hwarm, hwait, hmode⟩

section Count
variable {s : State} {a : RpAcc}

theorem writes_clear (hmode : (s.accepting Reg.GLB_BOOT_ATTEMPT a).glb.mode = .fallback) (hclear : bit a.data 31 = true) :
    Writes (.clear a) s Reg.GLB_BOOT_ATTEMPT a ((s.accepting Reg.GLB_BOOT_ATTEMPT a).modGlb (fun g => { g with bootCount := 0 })) :=
  writes_of rfl (if_pos ⟨hclear, hmode⟩)
theorem writes_clear_elsewhere (hmode : (s.accepting Reg.GLB_BOOT_ATTEMPT a).glb.mode ≠ .fallback) :
    Writes (.clear a) s Reg.GLB_BOOT_ATTEMPT a (s.accepting Reg.GLB_BOOT_ATTEMPT a) :=
  writes_of rfl (if_neg fun h => hmode h.2)

end Count
end Sys2Proof.Machine

open Sys2Proof Sys2Proof.Machine

/-- Settles O25: a phase that passes its limit fails (`State.openFail_glb`), START for the core that is late (`State.startLate`), and
COUNT decides where the restart leads. -/
theorem openingFailure : Obligations.OpeningFailure := by
  unfold Obligations.OpeningFailure
  refine ⟨fun u c => ?failure, fun s hawake hmode => ⟨?imagesLate, ?imagesEarly, ?limits, ?sealWaits, ?start, ?early⟩,
    fun s found copies halive hwarm hwait hmode => ⟨?again, ?third⟩, fun s a => ⟨writes_clear, writes_clear_elsewhere⟩⟩
  case failure =>
    obtain ⟨hreset, hwait, hcount, hcauseA, hcauseB, hcauseC⟩ := u.openFail_glb c
    exact ⟨hreset, hwait, hcount, hcauseA, hcauseB, hcauseC, rfl, rfl⟩
  case imagesLate => exact fun hphase hset hlate => yields_of_done (exec_awaitImagesTimeout_late hawake hmode hphase hset hlate)
  case imagesEarly => exact fun _ h => yields_of_idle (exec_awaitImagesTimeout_early h)
  case limits =>
    rintro (⟨hphase, hlate⟩ | ⟨hphase, hlate⟩ | ⟨hphase, hlate⟩ | ⟨hphase, hlate, hruns⟩ | ⟨hphase, hlate, hscan⟩)
    · exact yields_of_done (exec_phaseTimeout_late hawake hmode (.inl rfl) hphase hlate)
    · exact yields_of_done (exec_phaseTimeout_late hawake hmode (.inr (.inl rfl)) hphase hlate)
    · exact yields_of_done (exec_phaseTimeout_late hawake hmode (.inr (.inr rfl)) hphase hlate)
    · refine yields_of_done ((exec_phaseTimeout_seal hawake hmode hphase hlate).trans (congrArg (done s) (if_neg ?_)))
      cases hjob : s.keys.job with
      | none => exact Bool.false_ne_true
      | some j => simp [hruns j hjob]
    · exact yields_of_done (exec_phaseTimeout_defect hawake hmode hphase hlate hscan)
  case sealWaits =>
    intro hphase hlate j hjob hwaits
    refine yields_of_done ((exec_phaseTimeout_seal hawake hmode hphase hlate).trans (congrArg (done s) (if_pos ?_)))
    simp [hjob, hwaits]
  case start =>
    intro hphase hlate
    have hexec := exec_phaseTimeout_start hawake hmode hphase hlate
    exact ⟨fun hready => ⟨_, yields_of_done (hexec.trans (congrArg (done s) (State.startLate_scribe hready))), s.lateQuills_glb _ s⟩,
      fun hready => ⟨_, yields_of_done (hexec.trans (congrArg (done s) (State.startLate_quill hready))), s.lateQuills_glb _ s⟩⟩
  case early => exact fun h => yields_of_idle (exec_phaseTimeout_early h)
  case again =>
    exact fun hcount => yields_of_done ((exec_openingRestart found copies halive hwarm hwait hmode).trans (congrArg (done s) (if_pos hcount)))
  case third =>
    intro hcount
    refine yields_of_done ((exec_openingRestart found copies halive hwarm hwait hmode).trans (congrArg (done s) (if_neg ?_)))
    rw [hcount]
    exact Nat.lt_irrefl 3
end

section
/-! The measurement (R89, R354, R421): a record of the Blotter renumbers the captures of its cycle, wherever the state lists them. -/
namespace Sys2Proof.Machine
open Sys2Proof

/-- A measurement that has read its words, with the corrections of some rows counted (R354). -/
def State.hashed (s : State) (rows : List (Fin 2560)) : State :=
  rows.foldl (fun t r => t.corrected 0x1A0 r.val) { s with glb := { s.glb with measureBusy := false } }

/-- A measurement that is due in MEASURE, where the first correction of bucket group 6 overflows its bucket, and so leaves a record of
class 0x23. The Blotter has queued a record of class 0x24 in this cycle, which comes after it (R421), and lists as captured in this
cycle a page whose ERR_CAPT0 would be MS_IMG_LEN. Every table is canonical; no step of the block lists such a page. -/
def captureOnLengths : State :=
  { State.reset with
    build := { lanes := 128, patch := 0, idcode := 1 }
    glb := { Glb.init with mode := .opening, phase := .measure, measureBusy := true }
    regs := [(winKey Reg.SW_BKT_CFG 6, 1)]
    blotter := { State.reset.blotter with seq := 1, queue := [[0, 0x24]], fresh := [Reg.MS_IMG_LEN - 0x20], cycle := 1 } }

theorem captureOnLengths_due :
    captureOnLengths.awake = true ∧ captureOnLengths.glb.measureBusy = true ∧ captureOnLengths.canon = true := by decide +kernel
/-- The record of the overflow gives the capture, which is MS_IMG_LEN, the next number: a Quill image of no block becomes one of one. -/
theorem captureOnLengths_lengths : captureOnLengths.regAt Reg.MS_IMG_LEN = 0 ∧ (captureOnLengths.hashed [0]).regAt Reg.MS_IMG_LEN = 1 := by
  decide +kernel

/-- The byte string of R89 holds the images, their lengths and the release. -/
theorem State.measured_length (s : State) : s.measured.length = s.imgLens.1 + s.imgLens.2.1 + s.imgLens.2.2 + 8 := by
  simp only [State.measured, State.imgBytes, natBytes, List.length_append, List.length_map, List.length_range, List.length_cons,
    List.length_nil]
theorem captureOnLengths_measured : (captureOnLengths.hashed [0]).measured ≠ captureOnLengths.measured := by
  intro h
  obtain ⟨hbefore, hafter⟩ := captureOnLengths_lengths
  have hlength := congrArg List.length h
  rw [State.measured_length, State.measured_length, State.imgLens, State.imgLens, hbefore, hafter] at hlength
  exact absurd hlength (by decide)

end Sys2Proof.Machine

open Sys2Proof Sys2Proof.Machine

/-- Refutes O26: of the states with canonical tables it asks that counting the corrected words leaves the measured string alone, and
`captureOnLengths` is one where the record of a bucket's overflow renumbers MS_IMG_LEN as a capture of its cycle. -/
theorem not_loadAndMeasure : ¬ Obligations.LoadAndMeasure := by
  unfold Obligations.LoadAndMeasure
  rintro ⟨-, -, hmeasure⟩
  obtain ⟨hawake, hbusy, hcanon⟩ := captureOnLengths_due
  obtain ⟨-, hkept, -, -⟩ := hmeasure captureOnLengths [0] hawake hbusy
  exact captureOnLengths_measured (hkept hcanon)
end

section
/-! The phases of OPENING after the measurement: START, TRAIN, SEAL, DEFECT, and the entry to SERVICE (R79, R85, R92, R119, R130, R142,
R162, R336). -/
namespace Sys2Proof.Machine
open Sys2Proof

/-! ### START -/

/-- The checks of START come with the Context Cache's invalidation ended (R323). -/
def State.checked (s : State) : State := { s with cache := { s.cache with invalDone := true } }
/-- The check of the Scribe's image (R162). -/
def State.scribeErr (s : State) : Nat := s.headerErr 0x20000 0x0053494D s.imgLens.2.1
/-- The check of what the Quills need: their image, then the stroke table (R162, R167). -/
def State.quillErr (s : State) : Nat :=
  if s.headerErr 0 0x0051494D s.imgLens.1 ≠ 0 then s.headerErr 0 0x0051494D s.imgLens.1 else s.tableErr
/-- Every Quill and the Scribe start from their images. -/
def State.startAll (s : State) : State := (s.clusterList.foldl (fun t c => t.startCore c 0 0x20000) s).startCore 16 0x20000 0x40000

theorem State.quillErr_of_passed {s : State} (hheader : s.headerErr 0 0x0051494D s.imgLens.1 = 0) (htable : s.tableErr = 0) :
    s.quillErr = 0 := (if_neg (not_not.mpr hheader)).trans htable

section Start
variable {s : State} (hawake : s.awake = true) (hphase : s.glb.phase = .start) (hheld : s.scribe.state = .held)
include hawake hphase hheld

theorem exec_startPhase_uncorrectable : exec (.startPhase true) s = done s (s.openFail .sramInit) :=
  (if_pos ⟨hawake, hphase, hheld⟩).trans (if_pos rfl)
theorem exec_startPhase_checks : exec (.startPhase false) s = done s
    (if s.checked.scribeErr ≠ 0 then (s.checked.startErrs s.checked.quillErr).openFail .scribeStart
      else if s.checked.quillErr ≠ 0 then (s.checked.startErrs s.checked.quillErr).openFail .quillStart
      else (s.checked.startErrs s.checked.quillErr).startAll) :=
  (if_pos ⟨hawake, hphase, hheld⟩).trans (if_neg Bool.false_ne_true)

theorem exec_startPhase_starts (hscribe : s.checked.scribeErr = 0) (hquill : s.checked.quillErr = 0) :
    exec (.startPhase false) s = done s (s.checked.startErrs 0).startAll := by
  rw [exec_startPhase_checks hawake hphase hheld, if_neg (not_not.mpr hscribe), if_neg (not_not.mpr hquill), hquill]
theorem exec_startPhase_scribeFails (hscribe : s.checked.scribeErr ≠ 0) :
    exec (.startPhase false) s = done s ((s.checked.startErrs s.checked.quillErr).openFail .scribeStart) := by
  rw [exec_startPhase_checks hawake hphase hheld, if_pos hscribe]
theorem exec_startPhase_quillsFail (hscribe : s.checked.scribeErr = 0) (hquill : s.checked.quillErr ≠ 0) :
    exec (.startPhase false) s = done s ((s.checked.startErrs s.checked.quillErr).openFail .quillStart) := by
  rw [exec_startPhase_checks hawake hphase hheld, if_neg (not_not.mpr hscribe), if_pos hquill]

end Start

/-! ### TRAIN -/

/-- The lanes run steps 1 to 5 of R140. -/
def State.trainWalk (s : State) (found : List LaneFound) : State :=
  ({ s with glb := { s.glb with walked := true } } : State).discoverAll found s.build.lanes
/-- No target answers on any lane of the build (R119). -/
def State.noTarget (s : State) (found : List LaneFound) : Bool :=
  (found.filter (fun f => decide (f.lane.val < s.build.lanes))).all (fun f => f.targets.isEmpty)

section Train
variable {s : State}

section Walk
variable {found : List LaneFound} (hawake : s.awake = true) (hphase : s.glb.phase = .train) (hwalked : s.glb.walked = false)
include hawake hphase hwalked

theorem exec_trainPhase_cases : exec (.trainPhase found) s = done s
    (if s.noTarget found then (s.trainWalk found).openFail .noLanes
      else if bit ((s.trainWalk found).regAt Reg.CAL_CTL) 0 then s.trainWalk found
      else (s.trainWalk found).trainEnd) :=
  if_pos ⟨hawake, hphase, Bool.eq_false_iff.mp hwalked⟩
theorem exec_trainPhase_noLanes (hnone : s.noTarget found = true) :
    exec (.trainPhase found) s = done s ((s.trainWalk found).openFail .noLanes) := by
  rw [exec_trainPhase_cases hawake hphase hwalked, if_pos hnone]
theorem exec_trainPhase_holds (hsome : s.noTarget found = false) (hhold : bit ((s.trainWalk found).regAt Reg.CAL_CTL) 0 = true) :
    exec (.trainPhase found) s = done s (s.trainWalk found) := by
  rw [exec_trainPhase_cases hawake hphase hwalked, if_neg (Bool.eq_false_iff.mp hsome), if_pos hhold]
theorem exec_trainPhase_ends (hsome : s.noTarget found = false) (hfree : bit ((s.trainWalk found).regAt Reg.CAL_CTL) 0 = false) :
    exec (.trainPhase found) s = done s (s.trainWalk found).trainEnd := by
  rw [exec_trainPhase_cases hawake hphase hwalked, if_neg (Bool.eq_false_iff.mp hsome), if_neg (Bool.eq_false_iff.mp hfree)]

end Walk

section Resume
variable {a : RpAcc} {u : State} (hu : (s.accepting Reg.CAL_CTL a).writeRow Reg.CAL_CTL false a.data = u)
include hu

theorem writes_resume (hphase : u.glb.phase = .train) (hwalked : u.glb.walked = true) (hresume : bit a.data 1 = true) :
    Writes (.resume a) s Reg.CAL_CTL a u.trainEnd :=
  hu ▸ writes_of rfl (if_pos ⟨hresume, hu ▸ hphase, hu ▸ hwalked⟩)
theorem writes_resume_none (h : u.glb.phase ≠ .train ∨ u.glb.walked = false ∨ bit a.data 1 = false) :
    Writes (.resume a) s Reg.CAL_CTL a u :=
  writes_of rfl ((if_neg fun ⟨hresume, hphase, hwalked⟩ => by
    rw [hu] at hphase hwalked
    simp [hphase, hwalked, hresume] at h).trans hu)

end Resume
end Train

/-! ### SEAL -/

theorem State.sealPhaseEnd_eq (s : State) :
    s.sealPhaseEnd = if s.fuse.kek = none ∧ 1 ≤ s.levelNo then s.openFail .kekMissing else s.toPhase .defect := by
  simp only [State.sealPhaseEnd, Option.isNone_iff_eq_none]

section Seal
variable {s : State} {copies : List SealCopy} (hawake : s.awake = true) (hphase : s.glb.phase = .seal) (hjob : s.keys.job = none)
include hawake hphase hjob

theorem exec_sealPhase_cases : exec (.sealPhase copies) s = done s
    (if ¬ (s.sealLatch s.regionList copies).2 then (s.sealLatch s.regionList copies).1.openFail .sealRecord
      else if (s.sealLatch s.regionList copies).1.keys.job.isSome ∨ (s.sealLatch s.regionList copies).1.glb.phase ≠ .seal ∨
          (s.sealLatch s.regionList copies).1.glb.mode ≠ .opening then (s.sealLatch s.regionList copies).1
      else (s.sealLatch s.regionList copies).1.sealPhaseEnd) :=
  if_pos ⟨hawake, hphase, Option.isNone_iff_eq_none.mpr hjob⟩

variable {t : State}

theorem exec_sealPhase_fails (hlatch : s.sealLatch s.regionList copies = (t, false)) :
    exec (.sealPhase copies) s = done s (t.openFail .sealRecord) := by
  rw [exec_sealPhase_cases hawake hphase hjob, hlatch]
  exact congrArg (done s) (if_pos Bool.false_ne_true)
theorem exec_sealPhase_goesOn (hlatch : s.sealLatch s.regionList copies = (t, true))
    (h : t.keys.job ≠ none ∨ t.glb.phase ≠ .seal ∨ t.glb.mode ≠ .opening) : exec (.sealPhase copies) s = done s t := by
  rw [exec_sealPhase_cases hawake hphase hjob, hlatch]
  exact congrArg (done s) ((if_neg (not_not.mpr rfl)).trans (if_pos (h.imp_left Option.isSome_iff_ne_none.mpr)))
theorem exec_sealPhase_ends (hlatch : s.sealLatch s.regionList copies = (t, true)) (hnone : t.keys.job = none)
    (hstill : t.glb.phase = .seal) (hmode : t.glb.mode = .opening) : exec (.sealPhase copies) s = done s t.sealPhaseEnd := by
  rw [exec_sealPhase_cases hawake hphase hjob, hlatch]
  exact congrArg (done s) ((if_neg (not_not.mpr rfl)).trans (if_neg (by simp [hnone, hstill, hmode])))

end Seal

/-! ### DEFECT -/

/-- The pass of DEFECT over the present dies, after the factory scan where DF_CTL asks for it (R130). -/
def State.defectPass (s : State) (markers : List FactoryMark) (e : CcFault) : State × Bool :=
  s.presentDies.foldl (fun a d => State.defectDie a d e)
    (if bit (s.regAt Reg.DF_CTL) 0 then markers.foldl (fun a m => State.factoryMark a m e) (s, true) else (s, true))

section Defect
variable {s : State} {markers : List FactoryMark} {e : CcFault} (hawake : s.awake = true) (hphase : s.glb.phase = .defect)
  (hscan : bit (s.regAt Reg.DF_SCAN_STAT) 31 = false)
include hawake hphase hscan

theorem exec_defectPhase_unassigned (hstore : s.dfAssigned = false) :
    exec (.defectPhase markers e) s = looked s (s.openFail .defectStore) :=
  (if_pos ⟨hawake, hphase, Bool.eq_false_iff.mp hscan⟩).trans (if_pos (Bool.eq_false_iff.mp hstore))

variable (hstore : s.dfAssigned = true) {q : State × Bool} (hpass : s.defectPass markers e = q)
include hstore hpass

theorem exec_defectPhase_cases : exec (.defectPhase markers e) s = looked s
    (if q.2 then q.1.orReg Reg.DF_SCAN_STAT (flag true 31) else q.1.openFail .defectStore) := by
  subst hpass
  exact (if_pos ⟨hawake, hphase, Bool.eq_false_iff.mp hscan⟩).trans (if_neg (not_not.mpr hstore))
theorem found_defectPhase :
    (q.2 = true → Found (.defectPhase markers e) s (q.1.setReg Reg.DF_SCAN_STAT (q.1.regAt Reg.DF_SCAN_STAT ||| flag true 31))) ∧
    (q.2 = false → Found (.defectPhase markers e) s (q.1.openFail .defectStore)) := by
  have hexec := exec_defectPhase_cases hawake hphase hscan hstore hpass
  exact ⟨fun hread => found_of_looked (hexec.trans (congrArg (looked s) (if_pos hread))),
    fun hfail => found_of_looked (hexec.trans (congrArg (looked s) (if_neg (Bool.eq_false_iff.mp hfail))))⟩

end Defect

/-! ### The entry to SERVICE -/

@[simp] theorem settle_ledger (s u : State) : (settle s u).ledger = u.ledger := by
  obtain ⟨g, b, h⟩ := settle_frame s u
  rw [h]

/-- Changing regions in turn changes regions alone. -/
theorem State.modRegions_frame (f : Region → Region) (l : List Nat) (s : State) :
    ∃ x, l.foldl (fun u r => u.modRegion r f) s = { s with regions := x } := by
  induction l generalizing s with
  | nil => exact ⟨s.regions, rfl⟩
  | cons r l ih =>
    obtain ⟨x, hx⟩ := ih (s.modRegion r f)
    exact ⟨x, hx⟩
/-- The accounts of the block right after the Ledger's restart (R396). -/
def Ledger.restarted (l : Ledger) : Ledger :=
  { l with credit := 0, reserve := 0, use := [], energy := 0, msCharge := 0, debtMs := 0, clearMs := 0 }
theorem State.ledgerRestart_frame (s : State) : ∃ x, s.ledgerRestart = { s with regions := x, ledger := s.ledger.restarted } := by
  obtain ⟨x, hx⟩ := State.modRegions_frame (fun q => { q with used := 0 }) s.regionList s
  exact ⟨x, congrArg (State.modLedger · Ledger.restarted) hx⟩
/-- A summary that is held raises its event, which is a register's bit (R419). -/
theorem State.summaryHeld_frame (s : State) : ∃ r, s.summaryHeld = { s with regs := r } := by
  unfold State.summaryHeld
  split
  · exact ⟨_, rfl⟩
  · exact ⟨s.regs, rfl⟩

/-- The state in which SERVICE is entered, before a sanitize begins again (R79, R396, R419). -/
def State.serviceEntered (s : State) : State :=
  ((s.modGlb (fun g => { g with bootCount := 0, phase := .none, doneShown := true, mvCfg := s.regAt Reg.MV_CFG })).toMode
    .service).ledgerRestart.summaryHeld

theorem State.serviceEntered_fields (s : State) :
    s.serviceEntered.glb = { s.glb with mode := .service, prevMode := s.glb.mode, bootCount := 0, phase := .none, doneShown := true,
                                        mvCfg := s.regAt Reg.MV_CFG } ∧
      s.serviceEntered.keys = s.keys ∧ s.serviceEntered.ledger.credit = 0 ∧ s.serviceEntered.ledger.reserve = 0 := by
  obtain ⟨g, hmode⟩ := State.toMode_open (s.modGlb (fun g =>
    { g with bootCount := 0, phase := .none, doneShown := true, mvCfg := s.regAt Reg.MV_CFG })) .service (by simp) (by simp)
  unfold State.serviceEntered
  rw [hmode]
  obtain ⟨x, hledger⟩ := State.ledgerRestart_frame _
  rw [hledger]
  obtain ⟨r, hheld⟩ := State.summaryHeld_frame _
  rw [hheld]
  exact ⟨rfl, rfl, rfl, rfl⟩
theorem exec_serviceEntry {s : State} {f : Upset} (hawake : s.awake = true) (hmode : s.glb.mode = .opening) (hphase : s.glb.phase = .defect)
    (hscan : bit (s.regAt Reg.DF_SCAN_STAT) 31 = true) (hagain : s.keys.again = none) :
    exec (.serviceEntry f) s = done s s.serviceEntered := by
  obtain ⟨-, hkeys, -, -⟩ := s.serviceEntered_fields
  refine (if_pos ⟨hawake, hmode, hphase, hscan⟩).trans (congrArg (done s) ?_)
  split
  next l hsome => exact absurd (hsome.symm.trans ((congrArg Keys.again hkeys).trans hagain)) (Option.some_ne_none l)
  next => rfl

end Sys2Proof.Machine

open Sys2Proof Sys2Proof.Machine

/-- Settles O27: one lemma for each way that a phase can go; what a phase has found so far is named (`State.quillErr`, `State.trainWalk`,
`State.sealLatch`, `State.defectPass`). -/
theorem openingPhases : Obligations.OpeningPhases := by
  unfold Obligations.OpeningPhases
  refine ⟨⟨fun s hawake hphase => ⟨fun hheld => ⟨?uncorrectable, ?starts, ?scribeFails, ?quillsFail⟩, ?ready⟩,
    fun s hawake hphase hwalked found => ⟨?noLanes, ?holds, ?trains⟩, fun s a => ⟨writes_resume rfl, writes_resume_none rfl⟩,
    fun u => rfl⟩, fun s copies hawake hphase hjob => ⟨?sealFails, ?goesOn, ?sealEnds⟩,
    fun s markers e hawake hphase hscan => ⟨?unassigned, ?dies, ?marksAndDies⟩, ?service⟩
  case uncorrectable => exact yields_of_done (exec_startPhase_uncorrectable hawake hphase hheld)
  case starts =>
    exact fun hscribe hheader htable =>
      yields_of_done (exec_startPhase_starts hawake hphase hheld hscribe (State.quillErr_of_passed hheader htable))
  case scribeFails => exact fun hscribe => yields_of_done (exec_startPhase_scribeFails hawake hphase hheld hscribe)
  case quillsFail => exact fun hscribe hquill => yields_of_done (exec_startPhase_quillsFail hawake hphase hheld hscribe hquill)
  case ready => exact fun hready => if_pos ⟨hphase, hready⟩
  case noLanes => exact fun hnone => yields_of_done (exec_trainPhase_noLanes hawake hphase hwalked hnone)
  case holds => exact fun hsome hhold => yields_of_done (exec_trainPhase_holds hawake hphase hwalked hsome hhold)
  case trains => exact fun hsome hfree => yields_of_done (exec_trainPhase_ends hawake hphase hwalked hsome hfree)
  case sealFails => exact fun h => yields_of_done (exec_sealPhase_fails hawake hphase hjob (Prod.ext rfl h))
  case goesOn => exact fun h hon => yields_of_done (exec_sealPhase_goesOn hawake hphase hjob (Prod.ext rfl h) hon)
  case sealEnds =>
    intro h hnone hstill hmode
    rw [← State.sealPhaseEnd_eq]
    exact yields_of_done (exec_sealPhase_ends hawake hphase hjob (Prod.ext rfl h) hnone hstill hmode)
  case unassigned => exact fun hstore => found_of_looked (exec_defectPhase_unassigned hawake hphase hscan hstore)
  case dies =>
    exact fun hstore hctl => found_defectPhase hawake hphase hscan hstore (by rw [State.defectPass, if_neg (Bool.eq_false_iff.mp hctl)])
  case marksAndDies =>
    exact fun hstore hctl => found_defectPhase hawake hphase hscan hstore (by rw [State.defectPass, if_pos hctl])
  case service =>
    intro s f hawake hmode hphase hscan hagain
    obtain ⟨hglb, -, hcredit, hreserve⟩ := s.serviceEntered_fields
    refine ⟨_, exec_serviceEntry hawake hmode hphase hscan hagain, ?_⟩
    rw [settle_glb, settle_ledger, hglb]
    exact ⟨rfl, hmode, rfl, rfl, rfl, hcredit, hreserve⟩
end

section
/-! The order in which a write of the register port is decided (R102): an absent page, a dozed domain and the expert area. -/
namespace Sys2Proof.Machine
open Sys2Proof

section Orders
variable {u : State} {a : Nat} (eff : Bool → State → State)

/-- Order 2 of R102: a page that the build does not have ignores the write. -/
theorem State.decideWrite_absent (habsent : ¬ (u.absent a = false ∨ pageKind a = .reserved)) : u.decideWrite a eff = u := by
  obtain ⟨hmissing, hnamed⟩ := not_or.mp habsent
  exact if_pos ⟨Bool.eq_true_of_not_eq_false hmissing, hnamed⟩

variable (hpresent : u.absent a = false ∨ pageKind a = .reserved)
include hpresent

theorem State.decideWrite_present : u.decideWrite a eff =
    if u.dozedPage a then u.countField Reg.CLK_DOZED_ACCESS 15 0 1
    else if u.lockApplies a then eff true (u.countDrop 1 a)
    else if u.expertApplies a then u.countDrop 2 a
    else eff false u :=
  if_neg fun ⟨hmissing, hnamed⟩ => hpresent.elim (fun h => Bool.false_ne_true (h.symm.trans hmissing)) hnamed

/-- Order 2 of R102: a page of a dozed domain counts the write. -/
theorem State.decideWrite_dozed (hdozed : u.dozedPage a = true) :
    u.decideWrite a eff = u.countField Reg.CLK_DOZED_ACCESS 15 0 1 := by
  rw [State.decideWrite_present eff hpresent, if_pos hdozed]

variable (hdozed : u.dozedPage a = false) (hlock : u.lockApplies a = false)
include hdozed hlock

/-- Order 4 of R102: the expert area drops the write without the expert level. -/
theorem State.decideWrite_expert (hexpert : u.expertApplies a = true) : u.decideWrite a eff = u.countDrop 2 a := by
  rw [State.decideWrite_present eff hpresent, if_neg (Bool.eq_false_iff.mp hdozed), if_neg (Bool.eq_false_iff.mp hlock), if_pos hexpert]

/-- Order 5 of R102: a write that nothing before has decided reaches its register. -/
theorem State.decideWrite_effect (hexpert : u.expertApplies a = false) : u.decideWrite a eff = eff false u := by
  rw [State.decideWrite_present eff hpresent, if_neg (Bool.eq_false_iff.mp hdozed), if_neg (Bool.eq_false_iff.mp hlock),
    if_neg (Bool.eq_false_iff.mp hexpert)]

end Orders

/-- A write outside RESET that meets no fault of R46 completes with what the orders of R102 decide. -/
theorem yields_write_decided {s : State} {c : Instr} {a : Nat} {acc : RpAcc} {eff : Bool → State → State} {u : State}
    (hc : exec c s = done s (s.portWrite a acc eff)) (hscan : s.pins.scan = .mission) (hpwr : s.pins.pwrLow = false)
    (hrst : s.portReset = false) (hfault : (s.portBegin a).portFault a true acc = none)
    (hu : (s.accepting a acc).decideWrite a eff = u) : Yields c s (u.answer false none) :=
  yields_of_done (by rw [hc, State.portWrite_decided hscan hpwr hrst hfault, hu])

end Sys2Proof.Machine

open Sys2Proof Sys2Proof.Machine

/-- Settles O10: every write command is a write of the port (`exec_write`), which orders 2 and 4 of R102 decide before its effect. -/
theorem writeOrders : Obligations.WriteOrders := by
  unfold Obligations.WriteOrders
  intro s c a acc hwrite hscan hpwr hrst hfault u present
  obtain ⟨eff, hc⟩ := exec_write hwrite s
  refine ⟨fun habsent => ?absent, fun hpresent hdozed => ?dozed, fun hpresent hdozed hlock hexpert => ?expert⟩ <;>
    refine yields_write_decided hc hscan hpwr hrst hfault ?_
  case absent => exact State.decideWrite_absent eff habsent
  case dozed => exact State.decideWrite_dozed eff hpresent hdozed
  case expert => exact State.decideWrite_expert eff hpresent hdozed hlock hexpert
end

section
/-! The expert unlock (R106, R107). -/
namespace Sys2Proof.Machine
open Sys2Proof

theorem State.levelLow_iff {u : State} : u.levelLow = true ↔ ∃ l : Fin 3, u.glb.level = some l ∧ l.val < 2 := by
  unfold State.levelLow
  cases u.glb.level with
  | none => simp
  | some l => simp
/-- Level 2 and no level keep the unlock from arming. -/
theorem State.levelLow_eq_false {u : State} (h : u.glb.level = none ∨ u.glb.level = some 2) : ¬ u.levelLow = true := by
  rw [State.levelLow_iff]
  rintro ⟨l, hl, hlow⟩
  rcases h with h | h <;> rw [h] at hl <;> cases hl
  exact absurd hlow (by decide)

section Key
variable {s : State} {a : RpAcc}

theorem writes_expertArm (hclosed : s.glb.unlock = .closed) (hkey : fld a.data 31 16 = 0x4E58)
    (hlevel : (s.accepting Reg.GLB_EXPERT_UNLOCK a).levelLow = true) : Writes (.expertArm a) s Reg.GLB_EXPERT_UNLOCK a
      ((s.accepting Reg.GLB_EXPERT_UNLOCK a).modGlb (fun g => { g with unlock := .armed, sealRefused := false })) :=
  writes_of rfl ((if_pos ⟨hclosed, hkey⟩).trans (if_pos hlevel))
theorem writes_expertArm_refused (hclosed : s.glb.unlock = .closed) (hkey : fld a.data 31 16 = 0x4E58)
    (hlevel : ¬ (s.accepting Reg.GLB_EXPERT_UNLOCK a).levelLow = true) : Writes (.expertArm a) s Reg.GLB_EXPERT_UNLOCK a
      ((s.accepting Reg.GLB_EXPERT_UNLOCK a).modGlb (fun g => { g with sealRefused := true })) :=
  writes_of rfl ((if_pos ⟨hclosed, hkey⟩).trans (if_neg hlevel))
theorem writes_expertOpen (harmed : (s.accepting Reg.GLB_EXPERT_UNLOCK a).glb.unlock = .armed) (hkey : fld a.data 31 16 = 0xB1A7) :
    Writes (.expertOpen a) s Reg.GLB_EXPERT_UNLOCK a (((s.accepting Reg.GLB_EXPERT_UNLOCK a).modGlb
      (fun g => { g with unlock := .open, sealRefused := false })).blot 0 0x29 none [a.id.setWidth 32]) :=
  writes_of rfl (if_pos ⟨harmed, hkey⟩)
theorem writes_expertClose (hopen : (s.accepting Reg.GLB_EXPERT_UNLOCK a).glb.unlock = .open) (hkey : fld a.data 31 16 = 0) :
    Writes (.expertClose a) s Reg.GLB_EXPERT_UNLOCK a (s.accepting Reg.GLB_EXPERT_UNLOCK a).expertShut :=
  writes_of rfl (if_pos ⟨hopen, hkey⟩)

/-- The owner's next write closes an armed unlock, unless it is the key that opens it (R106). -/
theorem State.accepting_disarmed {b : Nat} (harmed : (s.portBegin b).glb.unlock = .armed) (howner : (s.portBegin b).glb.owner = some a.id)
    (hother : ¬ (b = Reg.GLB_EXPERT_UNLOCK ∧ fld a.data 31 16 = 0xB1A7)) : s.accepting b a = (s.portBegin b).expertShut :=
  if_pos ⟨harmed, State.isOwner_iff.mpr howner, hother⟩

end Key
theorem State.expertShut_unlock (u : State) : u.expertShut.glb.unlock = .closed := rfl
end Sys2Proof.Machine

open Sys2Proof Sys2Proof.Machine

/-- Settles O22: the state of the unlock and the key decide what a write does, and the latched level whether it may arm
(`State.levelLow_iff`). -/
theorem expertUnlock : Obligations.ExpertUnlock := by
  unfold Obligations.ExpertUnlock
  intro s a u key
  refine ⟨fun hclosed hkey => ⟨?arms, ?refused⟩, ?opens, ?closes, u.expertShut_unlock, ?disarms⟩
  case arms => exact fun l hlevel hlow => writes_expertArm hclosed hkey (State.levelLow_iff.mpr ⟨l, hlevel, hlow⟩)
  case refused => exact fun hlevel => writes_expertArm_refused hclosed hkey (State.levelLow_eq_false hlevel)
  case opens => exact fun harmed hkey => writes_expertOpen harmed hkey
  case closes => exact fun hopen hkey => writes_expertClose hopen hkey
  case disarms =>
    intro b harmed howner hother
    rw [State.accepting_disarmed harmed howner hother, State.expertShut_unlock]
end

section
/-! Page locks, captured errors, the retained log and the Endgame summary (R108, R109, R419, R425). -/
namespace Sys2Proof.Machine
open Sys2Proof

/-! ### Offsets that no select register reaches -/

/-- A register at the top of a page is reached at its own address: the select registers and the windows they serve lie below. -/
theorem State.keyOf_top (u : State) {a : Nat} (htop : 0xF00 ≤ a % 0x1000) : u.keyOf a = a := by
  have hnone : u.selected a = none := by
    unfold State.selected
    simp only [Reg.CAL_GB_DATA0, Reg.CAL_GB_DATA1, Reg.IW_TN_QUOTA, Reg.IW_TN_HELD, Reg.IW_TN_ERR, Reg.LG_COST_SENSE, Reg.LG_COST_MEDIA,
      Reg.LG_TN_SHARE, Reg.LG_TN_USE, Reg.LG_TN_WAITS, Reg.SW_BKT_CFG, Reg.SW_BKT_STAT, Reg.SW_BKT_CORR, Reg.BL_CLS_CFG, Reg.TN_SCHED,
      Reg.TN_CPL_CFG, Reg.TN_RES, Reg.TN_EXT0_DIE, Reg.TN_EXT3_BLK, Reg.PT_HIST, Reg.LN_LAT_HIST, Reg.LN_GB_HIST]
    repeat rw [if_neg (by omega)]
    split
    · rw [if_neg (by omega), if_neg (by omega)]
    · rfl
  rw [State.keyOf, hnone]

/-! ### The lock -/

/-- Every page with the layout of R96 but a doorbell page has a LOCK that a 1 sets and nothing clears. -/
theorem regRow_lock {a : Nat} (hoff : a % 0x1000 = 0xFF0) (hpage : inPage a = true) (hdoor : ∀ n, pageKind a ≠ .doorbell n) :
    regRow a = some ⟨0xFF0, 1, 0, 0, 1, 0, 0⟩ := by
  unfold regRow
  unfold inPage at hpage
  cases hkind : pageKind a with
  | doorbell n => exact absurd hkind (hdoor n)
  | vector v => simp [hkind] at hpage
  | window => simp [hkind] at hpage
  | reserved => simp [hkind] at hpage
  | _ => simp [hoff, commonRow]

/-- A 1 sets a W1S bit, and nothing else changes it. -/
theorem bit_applyRow_lock (locked : Bool) (rw : Word) (old data : Word) :
    bit (applyRow ⟨0xFF0, 1, 0 &&& rw, 0, 1, 0, 0⟩ locked old data) 0 = (bit old 0 || bit data 0) := by
  simp [applyRow, bit]

theorem State.writeRow_locks {u : State} {a : Nat} {data : Word} (hcanon : u.canon = true) (hoff : a % 0x1000 = 0xFF0)
    (hpage : inPage a = true) (hdoor : ∀ n, pageKind a ≠ .doorbell n) (hlock : bit (u.regAt a) 0 = true ∨ bit data 0 = true) :
    bit ((u.writeRow a false data).regAt a) 0 = true := by
  rw [State.writeRow, regRow_lock hoff hpage hdoor, u.keyOf_top (by omega)]
  dsimp only
  rw [State.modReg, State.regAt_setReg_self hcanon, bit_applyRow_lock]
  simpa using hlock

/-! ### Captures -/

/-- Registers cleared one after the other read zero, and the others as before. -/
theorem State.regAt_clearRegs (key : Nat → Nat) (l : List Nat) {u : State} (hcanon : u.canon = true) (k : Nat) :
    (l.foldl (fun t i => t.setReg (key i) 0) u).regAt k = if ∃ i ∈ l, k = key i then 0 else u.regAt k := by
  induction l generalizing u with
  | nil => simp
  | cons i l ih =>
    rw [List.foldl_cons, ih (State.setReg_ok u (key i) 0 (State.ok_self hcanon)).2]
    by_cases hk : k = key i
    · subst hk
      simp [State.regAt_setReg_self hcanon]
    · rw [State.regAt_setReg_ne u hk]
      simp [hk]

/-- The eight words of a page's capture, cleared. -/
def State.captureCleared (u : State) (ad : Nat) : State := (List.range 8).foldl (fun t k => t.setReg (ad + 4 * k) 0) u
theorem State.captureCleared_regAt {u : State} {ad : Nat} (hcanon : u.canon = true) (halign : ad % 4 = 0) (k : Nat) :
    (u.captureCleared ad).regAt k = if ad ≤ k ∧ k < ad + 32 ∧ k % 4 = 0 then 0 else u.regAt k := by
  have hword : (∃ i ∈ List.range 8, k = ad + 4 * i) ↔ ad ≤ k ∧ k < ad + 32 ∧ k % 4 = 0 := by
    constructor
    · rintro ⟨i, hi, rfl⟩
      have := List.mem_range.mp hi
      omega
    · rintro ⟨hlow, hhigh, hk⟩
      exact ⟨(k - ad) / 4, List.mem_range.mpr (by omega), by omega⟩
  rw [State.captureCleared, State.regAt_clearRegs (fun i => ad + 4 * i) _ hcanon]
  simp only [hword]

section Writes
variable {s : State} {a : RpAcc}

theorem writes_pageLock {p : Fin 2048} (hpage : inPage (0x1000 * p.val + 0xFF0) = true) :
    Writes (.pageLock p a) s (0x1000 * p.val + 0xFF0) a
      ((s.accepting (0x1000 * p.val + 0xFF0) a).writeRow (0x1000 * p.val + 0xFF0) false a.data) :=
  writes_of rfl (if_pos hpage)
theorem writes_errCaptClear {p : Fin 2048} (hpage : inPage (0x1000 * p.val + 0x020) = true) (hvalid : bit a.data 31 = true) :
    Writes (.errCaptClear p a) s (0x1000 * p.val + 0x020) a
      ((s.accepting (0x1000 * p.val + 0x020) a).captureCleared (0x1000 * p.val + 0x020)) :=
  writes_of rfl (if_pos ⟨hpage, hvalid⟩)
theorem writes_retClear (hclear : bit a.data 31 = true) : Writes (.retClear a) s Reg.BL_CFG a
    ((((s.accepting Reg.BL_CFG a).writeRow Reg.BL_CFG false a.data).modBlotter (fun b => { b with retained := [], retNext := 0 })).modReg
      Reg.BL_STAT (fun w => w &&& 0xFFFF0000#32)) :=
  writes_of rfl (if_pos hclear)
theorem writes_egSummaryClear (hclear : bit a.data 31 = true) :
    Writes (.egSummaryClear a) s Reg.GLB_EG_SUM a (s.accepting Reg.GLB_EG_SUM a).egClear :=
  writes_of rfl (if_pos hclear)

end Writes
theorem State.egClear_entries (u : State) : u.egClear.endgame.entries = [] := rfl
end Sys2Proof.Machine

open Sys2Proof Sys2Proof.Machine

/-- Settles O23: LOCK is a bit that a 1 sets (`regRow_lock`), and each of the clears is the effect of its command. -/
theorem locksAndClears : Obligations.LocksAndClears := by
  unfold Obligations.LocksAndClears
  intro s a
  refine ⟨?lock, ?capture, fun hclear => writes_retClear hclear, fun hclear => ⟨writes_egSummaryClear hclear, State.egClear_entries _⟩⟩
  case lock =>
    intro p ad u hpage
    have hoff : ad % 0x1000 = 0xFF0 := Nat.mul_add_mod 0x1000 p.val 0xFF0
    exact ⟨writes_pageLock hpage, fun hcanon hdoor hlock => State.writeRow_locks hcanon hoff hpage hdoor hlock⟩
  case capture =>
    intro p ad u hpage hvalid
    have halign : ad % 4 = 0 := by omega
    exact ⟨_, writes_errCaptClear hpage hvalid, fun hcanon => State.captureCleared_regAt hcanon halign⟩
end

section
/-! Register writes that act beside their fields, or not at all (R9, R85, R93, R98, R108, R154, R155, R268, R276, R293, R333, R352, R361,
R371, R378, R380, R395, R428, R433, R434): what `State.regWrite` comes to, register by register. -/
namespace Sys2Proof.Machine
open Sys2Proof

/-! ### Where the pages lie (R97) -/

/-- The pages that are no single page lie above the sixteen single ones. -/
theorem le_of_pageKind {a : Nat} {k : PageKind} (hkind : pageKind a = k) (hk : ∀ n, k ≠ .single n) : 0x10000 ≤ a := by
  by_contra hlow
  exact hk _ (hkind.symm.trans (if_pos (Nat.lt_of_not_le hlow)))

/-! ### Registers whose write the state of the block may shut out -/

/-- The addresses, beside the range of the TN page, that `State.writeShut` names. -/
def shutSingles : List Nat :=
  [Reg.MS_IMG_LEN, Reg.DF_CTL, Reg.DF_BASE, Reg.DF_FR_BASE, Reg.CC_BASE_LO, Reg.CC_BASE_HI, Reg.CC_SIZE, Reg.CAL_RL_BASE, Reg.TN_RING_BASE,
    Reg.MV_CFG]
theorem State.writeShut_eq_false {u : State} {a : Nat} (hnamed : a ∉ shutSingles) (hrange : ¬ (0xC040 ≤ a ∧ a < 0xC200)) :
    u.writeShut a = false := by
  simp only [shutSingles, List.mem_cons, List.not_mem_nil, or_false, not_or] at hnamed
  obtain ⟨hlen, hctl, hbase, hfr, hlo, hhi, hsize, hrl, hring, hmv⟩ := hnamed
  simp only [State.writeShut, hlen, hctl, hbase, hfr, hlo, hhi, hsize, hrl, hring, hmv, hrange, or_self, if_false]
/-- All of them are on single pages. -/
theorem State.writeShut_beyond {u : State} {a : Nat} (h : 0x10000 ≤ a) : u.writeShut a = false := by
  have hsingle : ∀ b ∈ shutSingles, b < 0x10000 := by decide
  exact State.writeShut_eq_false (fun hmem => absurd (hsingle a hmem) (by omega)) (by omega)

/-! ### Ranges of a single page without commands and shut registers -/

/-- The single registers of which every write, or one with the right bit, is a command of its own. -/
def ownNamed : List Nat := ownSingles ++ [Reg.GLB_OPEN_CTL, Reg.CAL_CTL, Reg.BL_CFG, Reg.PT_HIST_SEL]
/-- The addresses from lo to hi lie on one single page, between its common and its perturbation registers, and none of them is a command
of its own or can be shut out. -/
def quietRange (lo hi : Nat) : Bool :=
  decide (hi < 0x10000 ∧ lo / 0x1000 = hi / 0x1000 ∧ 0x40 ≤ lo % 0x1000 ∧ hi % 0x1000 < 0xF00) &&
  decide (∀ b ∈ ownNamed ++ shutSingles, ¬ (lo ≤ b ∧ b ≤ hi)) &&
  decide ((hi < Reg.SG_SENSE ∨ Reg.SG_SENSE + 32 ≤ lo) ∧ (hi < Reg.MV_TMR ∨ Reg.MV_TMR + 32 ≤ lo) ∧ (hi < 0xC040 ∨ 0xC200 ≤ lo))

section Quiet
variable {lo hi a : Nat} (h : quietRange lo hi = true) (ha : lo ≤ a ∧ a ≤ hi)
include h ha

theorem ownWrite_of_quiet (data : Word) : ownWrite a data = false := by
  simp only [quietRange, Bool.and_eq_true, decide_eq_true_eq] at h
  obtain ⟨⟨⟨hsingle, hpage, hlow, hhigh⟩, hnamed⟩, hsense, htimer, -⟩ := h
  have hkind : pageKind a = .single (a / 0x1000) := if_pos (by omega)
  have hnone : a ∉ ownNamed := fun hmem => hnamed a (List.mem_append_left _ hmem) ha
  simp only [ownNamed, List.mem_append, List.mem_cons, List.not_mem_nil, or_false, not_or] at hnone
  obtain ⟨hown, hopen, hcal, hcfg, hhist⟩ := hnone
  have hranges : ¬ ((Reg.SG_SENSE ≤ a ∧ a < Reg.SG_SENSE + 32) ∨ (Reg.MV_TMR ≤ a ∧ a < Reg.MV_TMR + 32)) := by omega
  simp only [ownWrite, hkind, List.contains_eq_mem, hown, hopen, hcal, hcfg, hhist, hranges, decide_false, Bool.false_and, Bool.or_false]
  rw [if_neg (by omega), if_neg (by omega)]
theorem State.writeShut_of_quiet (u : State) : u.writeShut a = false := by
  simp only [quietRange, Bool.and_eq_true, decide_eq_true_eq] at h
  obtain ⟨⟨-, hnamed⟩, -, -, htenant⟩ := h
  exact State.writeShut_eq_false (fun hmem => hnamed a (List.mem_append_right _ hmem) ha) (by omega)

end Quiet

theorem quietRange_cost : quietRange Reg.LG_COST_SENSE Reg.LG_COST_MEDIA = true := by decide
theorem quietRange_wrap : quietRange Reg.KY_WRAP (Reg.KY_WRAP + 71) = true := by decide
theorem quietRange_pair : quietRange Reg.DF_PAIR_DATA Reg.DF_PAIR_DATA = true := by decide
theorem quietRange_pend : quietRange Reg.SG_PEND (Reg.SG_PEND + 15) = true := by decide
theorem quietRange_fastPend : quietRange Reg.SG_FPEND (Reg.SG_FPEND + 15) = true := by decide

/-! ### Writes that reach the fields of their register -/

/-- The fields of a register are held in the register alone. -/
@[simp] theorem State.writeRow_glb (u : State) (a : Nat) (locked : Bool) (data : Word) : (u.writeRow a locked data).glb = u.glb := by
  unfold State.writeRow
  split <;> rfl
@[simp] theorem State.writeRow_time (u : State) (a : Nat) (locked : Bool) (data : Word) : (u.writeRow a locked data).time = u.time := by
  unfold State.writeRow
  split <;> rfl

/-- The write of a value to an address reaches the fields of a register: it is no command of its own, and none of the writes that
`State.regWrite` handles apart. -/
structure FieldWrite (a : Nat) (data : Word) : Prop where
  own : ownWrite a data = false
  perturb : ¬ (inPage a ∧ 0xF00 ≤ a % 0x1000 ∧ a % 0x1000 < 0xFF0)
  pair : a ≠ Reg.DF_PAIR_DATA
  wrap : ¬ (Reg.KY_WRAP ≤ a ∧ a < Reg.KY_WRAP + 72)
  pend : ¬ (Reg.SG_PEND ≤ a ∧ a < Reg.SG_PEND + 16)
  fastPend : ¬ (Reg.SG_FPEND ≤ a ∧ a < Reg.SG_FPEND + 16)
  doorbell : ∀ t, pageKind a ≠ .doorbell t

theorem FieldWrite.regWrite_eq {u : State} {a : Nat} {data : Word} (h : FieldWrite a data) (hshut : u.writeShut a = false) (locked : Bool) :
    u.regWrite a locked data = if locked then u.writeRow a true data else (u.writeRow a false data).afterWrite u a := by
  simp only [State.regWrite, h.own, hshut, h.perturb, h.pair, h.wrap, h.pend, h.fastPend, Bool.false_eq_true, or_self, if_false]
  split
  next t ht => exact absurd ht (h.doorbell t)
  next => rfl

/-- Beyond the single pages only a command of its own, the top of a page and a doorbell page are handled apart. -/
theorem FieldWrite.of_beyond {a : Nat} {data : Word} (hbeyond : 0x10000 ≤ a) (hown : ownWrite a data = false)
    (hperturb : inPage a = false ∨ a % 0x1000 < 0xF00) (hdoor : ∀ t, pageKind a ≠ .doorbell t) : FieldWrite a data := by
  refine ⟨hown, fun ⟨hpage, hlow, _⟩ => ?_, ?_, ?_, ?_, ?_, hdoor⟩
  · exact hperturb.elim (fun h => Bool.false_ne_true (h.symm.trans hpage)) (by omega)
  all_goals simp only [Reg.DF_PAIR_DATA, Reg.KY_WRAP, Reg.SG_PEND, Reg.SG_FPEND]; omega

/-- The registers of single pages whose write acts beside their fields, but for the costs. -/
def actingSingles : List Nat :=
  [Reg.GLB_OPEN_TIMEOUT, Reg.DF_BASE, Reg.DF_FR_BASE, Reg.MV_CFG, Reg.CAL_RATE, Reg.CAL_GB_DATA0, Reg.CAL_GB_DATA1, Reg.SW_CTL,
    Reg.GLB_SCR_WDOG, 0xF008]
theorem FieldWrite.of_single {a : Nat} (h : a ∈ actingSingles) (data : Word) : FieldWrite a data := by
  simp only [actingSingles, List.mem_cons, List.not_mem_nil, or_false] at h
  have hdoor : ∀ n t, PageKind.single n ≠ .doorbell t := fun _ _ => PageKind.noConfusion
  rcases h with rfl | rfl | rfl | rfl | rfl | rfl | rfl | rfl | rfl | rfl <;>
    exact ⟨rfl, by decide, by decide, by decide, by decide, by decide, hdoor _⟩
theorem FieldWrite.of_cost {a : Nat} (h : Reg.LG_COST_SENSE ≤ a ∧ a ≤ Reg.LG_COST_MEDIA) (data : Word) : FieldWrite a data := by
  have hown := ownWrite_of_quiet quietRange_cost h data
  simp only [Reg.LG_COST_SENSE, Reg.LG_COST_MEDIA] at h
  have hkind : pageKind a = .single (a / 0x1000) := if_pos (by omega)
  refine ⟨hown, by omega, ?_, ?_, ?_, ?_, hkind ▸ nofun⟩
  all_goals simp only [Reg.DF_PAIR_DATA, Reg.KY_WRAP, Reg.SG_PEND, Reg.SG_FPEND]; omega
theorem FieldWrite.of_sigCtl {a g : Nat} (hkind : pageKind a = .lane g) (hoff : a % 0x1000 = Reg.LN_SIG_CTL) (data : Word) : FieldWrite a data :=
  .of_beyond (le_of_pageKind hkind nofun)
    (by simp [ownWrite, hkind, hoff, Reg.LN_SIG_CTL, Reg.LN_CAL_CTL, Reg.LN_LAT_SEL, Reg.LN_GB_SEL, shadowOff, Reg.LN_RX_SEL])
    (.inr (hoff ▸ by decide)) (hkind ▸ nofun)
theorem FieldWrite.of_vector {a v : Nat} (hkind : pageKind a = .vector v) (hword : a % 64 ≠ 0) (data : Word) : FieldWrite a data :=
  .of_beyond (le_of_pageKind hkind nofun) (by simp [ownWrite, hkind, hword])
    (.inl (by simp [inPage, hkind])) (hkind ▸ nofun)
theorem FieldWrite.of_reserved {a : Nat} (hkind : pageKind a = .reserved) (data : Word) : FieldWrite a data :=
  .of_beyond (le_of_pageKind hkind nofun) (by simp [ownWrite, hkind])
    (.inl (by simp [inPage, hkind])) (hkind ▸ nofun)

/-- A register whose write acts beside its fields. -/
def ActsBeside (a : Nat) : Prop :=
  actingSingles.contains a = true ∨ (Reg.LG_COST_SENSE ≤ a ∧ a ≤ Reg.LG_COST_MEDIA) ∨
    (∃ g, pageKind a = .lane g ∧ a % 0x1000 = Reg.LN_SIG_CTL) ∨ ∃ v, pageKind a = .vector v ∧ a % 64 ≠ 0
theorem FieldWrite.of_actsBeside {a : Nat} (h : ActsBeside a) (data : Word) : FieldWrite a data := by
  rcases h with hsingle | hcost | ⟨g, hkind, hoff⟩ | ⟨v, hkind, hword⟩
  · exact .of_single (by simpa using hsingle) data
  · exact .of_cost hcost data
  · exact .of_sigCtl hkind hoff data
  · exact .of_vector hkind hword data

/-! ### What an acting register does -/

/-- What a write does beyond the single pages, beside its fields: signalling words act on their lane, and a vector word loses its parity
error (R154, R155, R380). -/
def State.afterPage (s : State) (a : Nat) : State :=
  match pageKind a with
  | .lane g => if a % 0x1000 = Reg.LN_SIG_CTL then (s.rbSync g).capCheck g else s
  | .vector v => if a % 64 < 0x14 then s.modVec v (fun x => { x with bad := x.bad.filter (· ≠ a % 64 / 4) }) else s
  | _ => s
theorem State.afterWrite_beyond (w old : State) {a : Nat} (h : 0x10000 ≤ a) : w.afterWrite old a = w.afterPage a := by
  simp only [State.afterWrite, Reg.GLB_OPEN_TIMEOUT, Reg.DF_BASE, Reg.DF_FR_BASE, Reg.MV_CFG, Reg.CAL_RATE, Reg.CAL_GB_DATA0, Reg.CAL_GB_DATA1,
    Reg.LG_COST_SENSE, Reg.LG_COST_MEDIA, Reg.SW_CTL, Reg.GLB_SCR_WDOG]
  repeat rw [if_neg (by omega)]
  rfl

section Acting
variable {u w : State} {a : Nat} {data : Word} (hw : u.writeRow a false data = w)
include hw

/-- An accepted write of an acting register: its fields, then what it does beside them. -/
theorem State.regWrite_acting (hfield : FieldWrite a data) (hshut : u.writeShut a = false) : u.regWrite a false data = w.afterWrite u a :=
  hw ▸ hfield.regWrite_eq hshut false
theorem State.regWrite_actingSingle (hsingle : a ∈ actingSingles) (hopen : a ∉ shutSingles) : u.regWrite a false data = w.afterWrite u a := by
  have hfar : ∀ b ∈ actingSingles, ¬ (0xC040 ≤ b ∧ b < 0xC200) := by decide
  exact State.regWrite_acting hw (.of_single hsingle data) (State.writeShut_eq_false hopen (hfar a hsingle))
theorem State.regWrite_openTimeout (h : a = Reg.GLB_OPEN_TIMEOUT) :
    u.regWrite a false data = if w.imagesLate then w.openFail .imageTimeout else w := by
  subst h
  exact State.regWrite_actingSingle hw (by decide) (by decide)
theorem State.regWrite_dfBase (hshut : u.writeShut a = false) (h : a = Reg.DF_BASE) :
    u.regWrite a false data = w.modGlb (fun g => { g with dfBaseSet := g.dfBaseSet || decide (w.glb.mode = .fallback) }) := by
  subst h
  exact State.regWrite_acting hw (.of_single (by decide) data) hshut
theorem State.regWrite_frBase (hshut : u.writeShut a = false) (h : a = Reg.DF_FR_BASE) :
    u.regWrite a false data = w.modGlb (fun g => { g with frBaseSet := g.frBaseSet || decide (w.glb.mode = .fallback) }) := by
  subst h
  exact State.regWrite_acting hw (.of_single (by decide) data) hshut
theorem State.regWrite_mvCfg (hshut : u.writeShut a = false) (h : a = Reg.MV_CFG) :
    u.regWrite a false data = if w.glb.mode = .fallback then w.modGlb (fun g => { g with mvCfg := w.regAt a }) else w := by
  subst h
  refine (State.regWrite_acting hw (.of_single (by decide) data) hshut).trans ?_
  simp [State.afterWrite]
theorem State.regWrite_rate (h : a = Reg.CAL_RATE) : u.regWrite a false data = w.laneList.foldl State.capCheck w := by
  subst h
  exact State.regWrite_actingSingle hw (by decide) (by decide)
theorem State.regWrite_gambit (h : a = Reg.CAL_GB_DATA0 ∨ a = Reg.CAL_GB_DATA1) : u.regWrite a false data =
    w.modScrub (fun x => { x with gbBad := x.gbBad.filter (· ≠ fld (w.regAt Reg.CAL_GB_ADDR) 9 0) }) := by
  rcases h with rfl | rfl <;> exact State.regWrite_actingSingle hw (by decide) (by decide)
theorem State.regWrite_cost (h : Reg.LG_COST_SENSE ≤ a ∧ a ≤ Reg.LG_COST_MEDIA) : u.regWrite a false data =
    w.modLedger (fun l => { l with costBad := l.costBad.filter (· ≠ w.keyOf a) }) := by
  rw [State.regWrite_acting hw (.of_cost h data) (State.writeShut_of_quiet quietRange_cost h u)]
  simp only [Reg.LG_COST_SENSE, Reg.LG_COST_MEDIA] at h
  simp only [State.afterWrite, Reg.GLB_OPEN_TIMEOUT, Reg.DF_BASE, Reg.DF_FR_BASE, Reg.MV_CFG, Reg.CAL_RATE, Reg.CAL_GB_DATA0, Reg.CAL_GB_DATA1,
    Reg.LG_COST_SENSE, Reg.LG_COST_MEDIA]
  repeat rw [if_neg (by omega)]
  exact if_pos h
theorem State.regWrite_sweepCtl (h : a = Reg.SW_CTL) :
    u.regWrite a false data = if bit (w.regAt a) 0 then w else w.modScrub (fun x => { x with row := 0 }) := by
  subst h
  exact State.regWrite_actingSingle hw (by decide) (by decide)
theorem State.regWrite_watchdog (h : a = Reg.GLB_SCR_WDOG) : u.regWrite a false data =
    if w.regAt a = u.regAt a then w else w.modCore 16 (fun k => { k with kick := w.time.toNat }) := by
  subst h
  exact State.regWrite_actingSingle hw (by decide) (by decide)
theorem State.regWrite_pbPageCtl (h : a = 0xF008) :
    u.regWrite a false data = if w.glb.pbOpen ∧ bit (w.regAt a) 0 = false then w.pbClose else w := by
  subst h
  simp only [← Bool.not_eq_true]
  exact State.regWrite_actingSingle hw (by decide) (by decide)
theorem State.regWrite_sigCtl {g : Nat} (hkind : pageKind a = .lane g) (hoff : a % 0x1000 = Reg.LN_SIG_CTL) :
    u.regWrite a false data = (w.rbSync g).capCheck g := by
  have hbeyond : 0x10000 ≤ a := le_of_pageKind hkind nofun
  rw [State.regWrite_acting hw (.of_sigCtl hkind hoff data) (State.writeShut_beyond hbeyond), State.afterWrite_beyond _ _ hbeyond,
    State.afterPage, hkind]
  exact if_pos hoff
theorem State.regWrite_vector {v : Nat} (hkind : pageKind a = .vector v) (hword : a % 64 ≠ 0) : u.regWrite a false data =
    if a % 64 < 0x14 then w.modVec v (fun x => { x with bad := x.bad.filter (· ≠ a % 64 / 4) }) else w := by
  have hbeyond : 0x10000 ≤ a := le_of_pageKind hkind nofun
  rw [State.regWrite_acting hw (.of_vector hkind hword data) (State.writeShut_beyond hbeyond), State.afterWrite_beyond _ _ hbeyond,
    State.afterPage, hkind]

end Acting

/-! ### Writes that are handled apart -/

section Apart
variable {u : State} {a : Nat} {data : Word}

/-- A write that is a command of its own, or that the state shuts out, changes nothing here. -/
theorem State.regWrite_shut (h : ownWrite a data = true ∨ u.writeShut a = true) (locked : Bool) : u.regWrite a locked data = u := if_pos h

/-- A reserved page has no registers (R98). -/
theorem State.regWrite_reserved (hkind : pageKind a = .reserved) : u.regWrite a false data = u := by
  have hbeyond : 0x10000 ≤ a := le_of_pageKind hkind nofun
  have hrow : u.writeRow a false data = u := by rw [State.writeRow, regRow, hkind]
  rw [State.regWrite_acting hrow (.of_reserved hkind data) (State.writeShut_beyond hbeyond), State.afterWrite_beyond _ _ hbeyond,
    State.afterPage, hkind]

theorem State.regWrite_pair (h : a = Reg.DF_PAIR_DATA) (locked : Bool) : u.regWrite a locked data = u.pairWrite locked data := by
  have ha : Reg.DF_PAIR_DATA ≤ a ∧ a ≤ Reg.DF_PAIR_DATA := by omega
  simp only [State.regWrite, ownWrite_of_quiet quietRange_pair ha, State.writeShut_of_quiet quietRange_pair ha]
  rw [if_neg (by simp), if_neg (by rw [h]; decide), if_pos h]
/-- On a locked page the pairing data steps on alone (R276). -/
theorem State.pairWrite_locked : u.pairWrite true data = u.pairNext := rfl
/-- While EN is 1 it does so on every page. -/
theorem State.pairWrite_enabled (hen : bit (u.regAt Reg.DF_PAIR_CTL) 0 = true) : u.pairWrite false data = u.pairNext :=
  congrArg State.pairNext (if_pos (.inr hen))
/-- While EN is 0 the pairing data sets its entry, whose parity error ends (R276). -/
theorem State.pairWrite_sets (hen : bit (u.regAt Reg.DF_PAIR_CTL) 0 = false) : u.pairWrite false data =
    (({ u with pairing := Tab.setD (fun _ => 0) u.pairing (fld (u.regAt Reg.DF_PAIR_ADDR) 11 0) (data &&& 0x3FFF#32) }.modScrub (fun x =>
      { x with pairBad := x.pairBad.filter (· ≠ fld (u.regAt Reg.DF_PAIR_ADDR) 11 0) })).pairNext) :=
  congrArg State.pairNext (if_neg (by simp [hen]))

section Doorbell
variable {t : Nat} (hkind : pageKind a = .doorbell t)
include hkind

theorem State.writeShut_doorbell : u.writeShut a = false :=
  State.writeShut_beyond (le_of_pageKind hkind nofun)
/-- The top of a doorbell page but its last words holds nothing (R96). -/
theorem State.regWrite_doorbellTop (hlow : 0xF00 ≤ a % 0x1000) (hhigh : a % 0x1000 < 0xFF0) : u.regWrite a false data = u := by
  have hpage : inPage a = true := by simp [inPage, hkind]
  simp only [State.regWrite, hkind, hpage, hlow, hhigh]
  simp
/-- Below it, and above it, the doorbell page's own writes act, and its other fields while the page is not dead (R93, R378). -/
theorem State.regWrite_doorbell (hown : ownWrite a data = false) (hoff : a % 0x1000 < 0xF00 ∨ 0xFF0 ≤ a % 0x1000) : u.regWrite a false data =
    if a % 0x1000 = Reg.DB_VEC_PEND then u.vecPendWrite t data else if u.pageDead t then u else u.writeRow a false data := by
  have hbeyond : 0x10000 ≤ a := le_of_pageKind hkind nofun
  simp only [State.regWrite, hown, State.writeShut_doorbell hkind, Reg.DF_PAIR_DATA, Reg.KY_WRAP, Reg.SG_PEND, Reg.SG_FPEND]
  rw [if_neg (by simp)]
  repeat rw [if_neg (by omega)]
  rw [hkind]
theorem State.regWrite_vecPend (hoff : a % 0x1000 = Reg.DB_VEC_PEND) : u.regWrite a false data = u.vecPendWrite t data := by
  have hown : ownWrite a data = false := by simp [ownWrite, hkind, hoff, Reg.DB_VEC_PEND, Reg.DB_RING, Reg.DB_VEC_MASK]
  rw [State.regWrite_doorbell hkind hown (.inl (by rw [hoff]; decide)), if_pos hoff]

end Doorbell

/-- A wrapped-key word is held (R333). -/
theorem State.regWrite_wrap {n : Nat} (hn : n < 18) (h : a = Reg.KY_WRAP + 4 * n) : u.regWrite a false data = u.setReg a data := by
  have ha : Reg.KY_WRAP ≤ a ∧ a ≤ Reg.KY_WRAP + 71 := by omega
  simp only [State.regWrite, ownWrite_of_quiet quietRange_wrap ha, State.writeShut_of_quiet quietRange_wrap ha]
  simp only [Reg.KY_WRAP, Reg.DF_PAIR_DATA] at ha ⊢
  rw [if_neg (by simp), if_neg (by omega), if_neg (by omega), if_pos (by omega)]
/-- The bits written to a word of a bank clear sources of that word (R371). -/
theorem State.regWrite_pend {n : Nat} (hn : n < 4) (h : a = Reg.SG_PEND + 4 * n) : u.regWrite a false data = u.pendWrite n false data := by
  have ha : Reg.SG_PEND ≤ a ∧ a ≤ Reg.SG_PEND + 15 := by omega
  have hword : (a - Reg.SG_PEND) / 4 = n := by omega
  simp only [State.regWrite, ownWrite_of_quiet quietRange_pend ha, State.writeShut_of_quiet quietRange_pend ha, hword]
  simp only [Reg.SG_PEND, Reg.KY_WRAP, Reg.DF_PAIR_DATA] at ha ⊢
  rw [if_neg (by simp), if_neg (by omega), if_neg (by omega), if_neg (by omega), if_pos (by omega)]
theorem State.regWrite_fastPend {n : Nat} (hn : n < 4) (h : a = Reg.SG_FPEND + 4 * n) : u.regWrite a false data = u.pendWrite n true data := by
  have ha : Reg.SG_FPEND ≤ a ∧ a ≤ Reg.SG_FPEND + 15 := by omega
  have hword : (a - Reg.SG_FPEND) / 4 = n := by omega
  simp only [State.regWrite, ownWrite_of_quiet quietRange_fastPend ha, State.writeShut_of_quiet quietRange_fastPend ha, hword]
  simp only [Reg.SG_FPEND, Reg.SG_PEND, Reg.KY_WRAP, Reg.DF_PAIR_DATA] at ha ⊢
  rw [if_neg (by simp), if_neg (by omega), if_neg (by omega), if_neg (by omega), if_neg (by omega), if_pos (by omega)]

end Apart

/-! ### The words of a perturbation slot (R434) -/

/-- A write of a register whose bits are all RW replaces it (R9). -/
theorem applyRow_full (off : Nat) (old data : Word) : applyRow ⟨off, 1, 0xFFFFFFFF &&& ~~~ 0, 0, 0, 0, 0⟩ false old data = data := by
  have hall : ((0xFFFFFFFF : Word) &&& ~~~ 0) = BitVec.allOnes 32 := by decide
  have hnone : data &&& (0 : Word) = 0#32 := BitVec.and_zero
  simp only [applyRow, hall, hnone, Bool.false_eq_true, if_false, BitVec.not_allOnes, BitVec.and_allOnes, BitVec.and_zero, BitVec.zero_or,
    BitVec.not_zero, BitVec.or_zero]
/-- The bits of `roBits`, which some copies of a register keep from its writer, lie below the top of a page. -/
theorem roBits_top {a : Nat} (htop : 0xF00 ≤ a % 0x1000) : roBits a = 0 := by
  have hsource : a ≠ Reg.SG_CLASS + 4 := by simp only [Reg.SG_CLASS]; omega
  have hclass : a % 0x800000 ≠ Reg.BL_CLS_CFG := by simp only [Reg.BL_CLS_CFG]; omega
  have hweight : a ≠ winKey Reg.TN_SCHED 511 := by simp only [winKey, Reg.TN_SCHED]; omega
  rw [roBits, if_neg hsource, if_neg fun h => hclass h.1, if_neg hweight]

section Perturb
variable {u : State} {a : Nat} {data : Word} (hkind : hasPerturb (pageKind a) = true) (hlow : 0xF00 ≤ a % 0x1000) (hhigh : a % 0x1000 < 0xF20)
  (hword : a % 8 = 4)
include hkind

theorem inPage_of_hasPerturb : inPage a = true := by
  unfold inPage
  cases hpage : pageKind a <;> simp [hpage, hasPerturb] at hkind ⊢

include hlow hhigh hword

theorem ownWrite_perturbArg : ownWrite a data = false := by
  have hown : a ∉ ownNamed := by
    have hbelow : ∀ b ∈ ownNamed, b % 0x1000 < 0xF00 := by decide
    exact fun hmem => absurd (hbelow a hmem) (by omega)
  simp only [ownNamed, List.mem_append, List.mem_cons, List.not_mem_nil, or_false, not_or] at hown
  obtain ⟨hown, hopen, hcal, hcfg, hhist⟩ := hown
  have hranges : ¬ ((Reg.SG_SENSE ≤ a ∧ a < Reg.SG_SENSE + 32) ∨ (Reg.MV_TMR ≤ a ∧ a < Reg.MV_TMR + 32)) := by
    simp only [Reg.SG_SENSE, Reg.MV_TMR]; omega
  have hoff : ¬ (a % 0x1000 = 0xFF0 ∨ (0xF00 ≤ a % 0x1000 ∧ a % 0x1000 < 0xF20 ∧ a % 0x1000 % 8 = 0)) := by omega
  have hcapt : a % 0x1000 ≠ 0x020 := by omega
  have hflush : a % 0x1000 ≠ Reg.CL_INTAKE_FLUSH := by simp only [Reg.CL_INTAKE_FLUSH]; omega
  have hrecal : a % 0x1000 ≠ Reg.LN_CAL_CTL := by simp only [Reg.LN_CAL_CTL]; omega
  have hsel : ¬ (a % 0x1000 = Reg.LN_LAT_SEL ∨ a % 0x1000 = Reg.LN_GB_SEL) := by simp only [Reg.LN_LAT_SEL, Reg.LN_GB_SEL]; omega
  have hshadow : ¬ (shadowOff 0 ≤ a % 0x1000 ∧ a % 0x1000 ≤ shadowOff 5) := by simp only [shadowOff, Reg.LN_RX_SEL]; omega
  have hchannel : ¬ (a % 0x1000 = Reg.MV_CH_CMD ∨ a % 0x1000 = Reg.MV_CH_CFG) := by simp only [Reg.MV_CH_CMD, Reg.MV_CH_CFG]; omega
  rw [ownWrite]
  cases hpage : pageKind a with
  | single n =>
    simp only [hcapt, hoff, hown, hopen, hcal, hcfg, hhist, hranges, List.contains_eq_mem, if_false, decide_false, Bool.false_and, Bool.or_false]
  | cluster c => simp only [hcapt, hoff, hflush, if_false, decide_false]
  | lane g => simp only [hcapt, hoff, hrecal, hsel, hshadow, if_false, decide_false, Bool.false_and, Bool.or_false]
  | channel c => simp only [hcapt, hoff, hchannel, if_false, decide_false]
  | decoder e => simp only [hcapt, hoff, if_false]
  | _ => simp [hpage, hasPerturb] at hkind
theorem regRow_perturbArg : regRow a = some ⟨a % 0x1000, 1, 0xFFFFFFFF, 0, 0, 0, 0⟩ := by
  have hcommon : ¬ (a % 0x1000 < 0x40 ∨ 0xFF0 ≤ a % 0x1000) := by omega
  unfold regRow
  cases hpage : pageKind a <;> simp [hpage, hasPerturb, hcommon, hlow, perturbRow, hhigh, hword] at hkind ⊢
  omega
theorem State.writeRow_perturbArg : u.writeRow a false data = u.setReg a data := by
  rw [State.writeRow, regRow_perturbArg hkind hlow hhigh hword, u.keyOf_top hlow, roBits_top hlow]
  exact congrArg (u.setReg a) (applyRow_full _ _ _)
/-- The argument of a slot is set while PB_CTL.OPEN is 1, and else its write is counted as dropped. -/
theorem State.regWrite_perturbArg : u.regWrite a false data = if u.glb.pbOpen then u.setReg a data else u.pxDrop := by
  have hshut : u.writeShut a = false := by
    have hbelow : ∀ b ∈ shutSingles, b % 0x1000 < 0xF00 := by decide
    exact State.writeShut_eq_false (fun hmem => absurd (hbelow a hmem) (by omega)) (by omega)
  rw [← State.writeRow_perturbArg hkind hlow hhigh hword]
  unfold State.regWrite
  simp only [ownWrite_perturbArg hkind hlow hhigh hword, hshut]
  rw [if_neg (by simp), if_pos ⟨inPage_of_hasPerturb hkind, hlow, by omega⟩]
  split
  next t ht => simp [ht, hasPerturb] at hkind
  next => rfl

end Perturb

/-! ### The command -/

section Command
variable {s : State} {addr : BitVec 23} {acc : RpAcc} {t : State}

/-- An accepted register write has the effect of its register. -/
theorem yields_registerWrite (haccepts : s.accepts addr.toNat acc = true)
    (ht : (s.accepting addr.toNat acc).regWrite addr.toNat false acc.data = t) : Yields (.registerWrite addr acc) s (t.answer false none) :=
  writes_of rfl ht haccepts

variable (hscan : s.pins.scan = .mission) (hpwr : s.pins.pwrLow = false) (hrst : s.portReset = false)
  (hfault : (s.portBegin addr.toNat).portFault addr.toNat true acc = none)
include hscan hpwr hrst hfault

/-- On a locked page it is counted, and its register told of the lock. -/
theorem yields_registerWrite_locked (habsent : (s.accepting addr.toNat acc).absent addr.toNat = false)
    (hdozed : (s.accepting addr.toNat acc).dozedPage addr.toNat = false) (hlock : (s.accepting addr.toNat acc).lockApplies addr.toNat = true)
    (ht : ((s.accepting addr.toNat acc).countDrop 1 addr.toNat).regWrite addr.toNat true acc.data = t) :
    Yields (.registerWrite addr acc) s (t.answer false none) :=
  yields_of_done (congrArg (done s) (ht ▸ State.portWrite_locked hscan hpwr hrst hfault habsent hdozed hlock _))
/-- On a reserved page, which has neither lock nor expert area, it has no effect. -/
theorem yields_registerWrite_reserved (hkind : pageKind addr.toNat = .reserved) :
    Yields (.registerWrite addr acc) s ((s.accepting addr.toNat acc).answer false none) := by
  refine yields_write_decided rfl hscan hpwr hrst hfault ((State.decideWrite_effect _ (.inr hkind) ?_ ?_ ?_).trans (State.regWrite_reserved hkind))
  · simp [State.dozedPage, hkind]
  · simp [State.lockApplies, State.pageLocked, inPage, hkind]
  · simp [State.expertApplies, inPage, hkind]

end Command
end Sys2Proof.Machine

open Sys2Proof Sys2Proof.Machine

/-- Settles O12: `State.regWrite` register by register; a register that acts beside its fields is written first, and then acts. -/
theorem registerWriteSpecial : Obligations.RegisterWriteSpecial := by
  unfold Obligations.RegisterWriteSpecial
  intro s addr acc a u row w does acting
  have hw : u.writeRow a false acc.data = w := rfl
  refine ⟨?reserved, ?locked, ?accepted⟩
  case reserved => exact fun hkind hscan hpwr hrst hfault => yields_registerWrite_reserved hscan hpwr hrst hfault hkind
  case locked =>
    intro hscan hpwr hrst hfault habsent hdozed hlock v
    have hdoes : ∀ {t}, v.regWrite a true acc.data = t → does t :=
      fun ht => yields_registerWrite_locked hscan hpwr hrst hfault habsent hdozed hlock ht
    exact ⟨fun hacts hshut => hdoes ((FieldWrite.of_actsBeside hacts acc.data).regWrite_eq hshut true),
      fun h => hdoes ((State.regWrite_pair h true).trans State.pairWrite_locked)⟩
  case accepted =>
    intro haccepts
    have hdoes : ∀ {t}, u.regWrite a false acc.data = t → does t := fun ht => yields_registerWrite haccepts ht
    have hglb : w.glb = u.glb := State.writeRow_glb ..
    have htime : w.time = u.time := State.writeRow_time ..
    refine ⟨fun hshut => ⟨?dfBase, ?frBase, ?mvCfg⟩, fun h => ⟨?pairOn, ?pairOff⟩, ?rate, ?gambit, ?cost, ?sweep, ?watchdog, ?pbPage, ?sigCtl,
      ?vector, ?doorbell, ?shut, ?wrap, ?pend, ?fastPend, ?timeout, ?perturb⟩
    case dfBase => exact fun h => hdoes (by rw [← hglb]; exact State.regWrite_dfBase hw hshut h)
    case frBase => exact fun h => hdoes (by rw [← hglb]; exact State.regWrite_frBase hw hshut h)
    case mvCfg => exact fun h => hdoes (by rw [← hglb]; exact State.regWrite_mvCfg hw hshut h)
    case pairOn => exact fun hen => hdoes ((State.regWrite_pair h false).trans (State.pairWrite_enabled hen))
    case pairOff => exact fun hen => hdoes ((State.regWrite_pair h false).trans (State.pairWrite_sets hen))
    case rate => exact fun h => hdoes (State.regWrite_rate hw h)
    case gambit => exact fun h => hdoes (State.regWrite_gambit hw h)
    case cost => exact fun h => hdoes (State.regWrite_cost hw h)
    case sweep => exact fun h => hdoes (State.regWrite_sweepCtl hw h)
    case watchdog => exact fun h => hdoes (by rw [← htime]; exact State.regWrite_watchdog hw h)
    case pbPage => exact fun h => hdoes (by rw [← hglb]; exact State.regWrite_pbPageCtl hw h)
    case sigCtl => exact fun g hkind hoff => hdoes (State.regWrite_sigCtl hw hkind hoff)
    case vector => exact fun v hkind hword => hdoes (State.regWrite_vector hw hkind hword)
    case doorbell =>
      refine fun t hkind => ⟨fun hoff => ?vecPend, fun hown hoff hplace => ?fields, fun hlow hhigh => ?top⟩
      case vecPend => exact hdoes (State.regWrite_vecPend hkind hoff)
      case fields => exact hdoes ((State.regWrite_doorbell hkind hown hplace).trans (if_neg hoff))
      case top => exact hdoes (State.regWrite_doorbellTop hkind hlow hhigh)
    case shut => exact fun h => hdoes (State.regWrite_shut h false)
    case wrap => exact fun n hn h => hdoes (State.regWrite_wrap hn h)
    case pend => exact fun n hn h => hdoes (State.regWrite_pend hn h)
    case fastPend => exact fun n hn h => hdoes (State.regWrite_fastPend hn h)
    case timeout => exact fun h _ => hdoes (State.regWrite_openTimeout rfl h)
    case perturb => exact fun hkind hlow hhigh hword => hdoes (State.regWrite_perturbArg hkind hlow hhigh hword)
end

section
/-! The commands of DF_MARK_CMD and DF_FR_CMD (R127, R281): a write begins an operation on the lines of the Context Cache, and the
operation ends with the result that its lookups and its entry come to. -/
namespace Sys2Proof.Machine
open Sys2Proof

/-! ### An access of the register port makes no lookup -/

theorem Logs.cache_eq {s t : State} (h : Logs s t) : t.cache = s.cache := by
  obtain ⟨r, b, rfl⟩ := h
  rfl
@[simp] theorem State.blot_cache (s : State) (page cls : Nat) (i : Option Nat) (d : List Word) : (s.blot page cls i d).cache = s.cache :=
  (State.blot_frame s page cls i d).cache_eq
theorem State.pxSlot_cache (s : State) (page point k : Nat) : (s.pxSlot page point k).1.cache = s.cache := by
  unfold State.pxSlot
  dsimp only
  split
  · split
    · dsimp only
      split <;> split <;> simp
    · rfl
  · rfl
@[simp] theorem State.opportunity_cache (s : State) (page point : Nat) : (s.opportunity page point).1.cache = s.cache :=
  List.foldlRecOn (motive := fun acc : State × List (Nat × Word) => acc.1.cache = s.cache) _ _ rfl
    fun acc hacc k _ => (State.pxSlot_cache acc.1 page point k).trans hacc
theorem State.vecArrange_cache (s : State) (v : Nat) : (s.vecArrange v).cache = s.cache := by
  unfold State.vecArrange
  split <;> rfl
theorem State.vecDeliver_cache (s : State) (v t : Nat) : (s.vecDeliver v t).cache = s.cache := by
  unfold State.vecDeliver
  dsimp only
  split
  · split <;> simp [State.vecArrange_cache]
  · simp
theorem State.vecExpire_cache (s : State) (v t : Nat) : (s.vecExpire v t).cache = s.cache := by
  unfold State.vecExpire
  split
  · exact State.vecDeliver_cache s v t
  · rfl
@[simp] theorem State.wakeBlock_cache (s : State) : s.wakeBlock.cache = s.cache := by
  unfold State.wakeBlock
  split
  · exact List.foldlRecOn (motive := fun t : State => t.cache = s.cache) _ _ rfl
      fun t ht v _ => (State.vecExpire_cache t v _).trans ht
  · rfl
@[simp] theorem State.portBegin_cache (s : State) (a : Nat) : (s.portBegin a).cache = s.cache := by
  unfold State.portBegin
  dsimp only
  split <;> simp
@[simp] theorem State.accepting_cache (s : State) (a : Nat) (acc : RpAcc) : (s.accepting a acc).cache = s.cache := by
  unfold State.accepting State.disarm
  split
  · exact State.portBegin_cache s a
  · exact State.portBegin_cache s a

/-! ### A write that begins an operation -/

/-- A write that begins an operation has the operation's effect where all its lookups are answered at once and no other operation of its
unit waits (R316). -/
theorem finds_of_begins {c : Instr} {s u : State} {b : Nat} {acc : RpAcc} {eff : Bool → State → State} {h : Held} {cc : CcFault}
    {f : CcFault → State → State} (hexec : exec c s = done s (s.portWrite b acc eff))
    (heff : eff false (s.accepting b acc) = (s.accepting b acc).begins h cc f) (hfirst : s.cache.held.any h.after = false)
    (hu : f cc (s.accepting b acc) = u) : Finds c s b acc u := by
  intro hnone hanswered
  have hfound := State.begins_found (s := s.accepting b acc) (cc := cc) (f := f) (by rwa [State.accepting_cache])
    (by rwa [State.accepting_cache]) (by rwa [hu])
  exact writes_of hexec (heff.trans (hfound.trans hu))
/-- No operation of DF_MARK_CMD waits for another. -/
theorem Held.after_mark (op : Nat) (l : List Held) : l.any (Held.mark op).after = false := List.any_eq_false.mpr fun _ _ => nofun
/-- No operation of DF_FR_CMD waits for another. -/
theorem Held.after_frontier (op : Nat) (data : Word) (l : List Held) : l.any (Held.frontier op data).after = false :=
  List.any_eq_false.mpr fun _ _ => nofun

/-! ### The entry that DF_MARK_ADDR names (R127) -/

/-- The entry's die. -/
def State.markDie (u : State) : Nat := fld (u.regAt Reg.DF_MARK_ADDR) 12 0
/-- Its number in the bitmap of the die. -/
def State.markEntry (u : State) : Nat :=
  fld (u.regAt Reg.DF_MARK_ADDR) 31 16 * (u.geo (u.markDie / 64)).planes + fld (u.regAt Reg.DF_MARK_ADDR) 14 13
/-- The build has the entry's block (R120). -/
def State.markPresent (u : State) : Bool :=
  u.blockPresent u.markDie (fld (u.regAt Reg.DF_MARK_ADDR) 31 16) (fld (u.regAt Reg.DF_MARK_ADDR) 14 13)
/-- The entry is read. -/
def State.markRead (u : State) (f : CcFault) : State × Option Nat := u.dfCode unitDfCmd u.markDie u.markEntry f
/-- The entry has been read, and takes a code. -/
def State.markSet (u : State) (code : Nat) (f : CcFault) : State × Bool := (u.markRead f).1.dfSet unitDfCmd u.markDie u.markEntry code f

section Mark
variable {u : State} {f : CcFault} {op : Nat}

theorem State.markOp_absent (habsent : ¬ u.markPresent = true) : u.markOp op f = u.markEnd 3 0 := if_pos habsent

variable (hpresent : u.markPresent = true)
include hpresent

theorem State.markOp_unread (hnone : (u.markRead f).2 = none) : u.markOp op f = (u.markRead f).1.markEnd 4 0 := by
  refine (if_neg (not_not.mpr hpresent)).trans ?_
  split
  next => rfl
  next c hc => exact absurd (hnone.symm.trans hc) nofun

variable {c : Nat} (hcode : (u.markRead f).2 = some c)
include hcode

/-- What an operation does with the code that it has read. -/
theorem State.markOp_read : u.markOp op f =
    if op = 2 then
      if c = 0 then if (u.markSet 2 f).2 then (u.markSet 2 f).1.markEnd 0 2 else (u.markSet 2 f).1.markEnd 4 c
      else (u.markRead f).1.markEnd 1 c
    else if op = 3 then
      if c = 3 then (u.markRead f).1.markEnd 2 3 else if c = 0 then (u.markRead f).1.markEnd 0 0
      else if (u.markSet 0 f).2 then (u.markSet 0 f).1.markEnd 0 0 else (u.markSet 0 f).1.markEnd 4 c
    else (u.markRead f).1.markEnd 0 c := by
  refine (if_neg (not_not.mpr hpresent)).trans ?_
  split
  next hnone => exact absurd (hcode.symm.trans hnone) nofun
  next d hd =>
    obtain rfl : c = d := Option.some.inj (hcode.symm.trans hd)
    rfl

theorem State.markOp_query : u.markOp 1 f = (u.markRead f).1.markEnd 0 c := State.markOp_read hpresent hcode
theorem State.markOp_grown_already (hc : c ≠ 0) : u.markOp 2 f = (u.markRead f).1.markEnd 1 c :=
  (State.markOp_read hpresent hcode).trans (if_neg hc)
theorem State.markOp_grown (hc : c = 0) :
    u.markOp 2 f = if (u.markSet 2 f).2 then (u.markSet 2 f).1.markEnd 0 2 else (u.markSet 2 f).1.markEnd 4 0 := by
  subst hc
  exact (State.markOp_read hpresent hcode).trans ((if_pos rfl).trans (if_pos rfl))
theorem State.markOp_clear_factory (hc : c = 3) : u.markOp 3 f = (u.markRead f).1.markEnd 2 3 :=
  (State.markOp_read hpresent hcode).trans (if_pos hc)
theorem State.markOp_clear_good (hc : c = 0) : u.markOp 3 f = (u.markRead f).1.markEnd 0 0 :=
  (State.markOp_read hpresent hcode).trans ((if_neg (show c ≠ 3 by omega)).trans (if_pos hc))
theorem State.markOp_clear_grown (hc : c = 1 ∨ c = 2) :
    u.markOp 3 f = if (u.markSet 0 f).2 then (u.markSet 0 f).1.markEnd 0 0 else (u.markSet 0 f).1.markEnd 4 c :=
  (State.markOp_read hpresent hcode).trans ((if_neg (show c ≠ 3 by omega)).trans (if_neg (show c ≠ 0 by omega)))

end Mark

/-- The commands of DF_MARK_CMD, by their OP. -/
inductive MarkCommand (a : RpAcc) (f : CcFault) : Nat → Instr → Prop
  | markQuery : MarkCommand a f 1 (.markQuery a f)
  | markGrownHost : MarkCommand a f 2 (.markGrownHost a f)
  | markClear : MarkCommand a f 3 (.markClear a f)
theorem MarkCommand.exec_eq {a : RpAcc} {f : CcFault} {op : Nat} {c : Instr} (h : MarkCommand a f op c) (s : State) :
    exec c s = done s (s.markWrite op a f) := by cases h <;> rfl

section MarkWrite
variable {s u : State} {a : RpAcc} {f : CcFault} {op : Nat} {c : Instr}

theorem writes_mark_busy (hc : MarkCommand a f op c) (hbusy : bit ((s.accepting Reg.DF_MARK_CMD a).regAt Reg.DF_MARK_STAT) 31 = true) :
    Writes c s Reg.DF_MARK_CMD a (s.accepting Reg.DF_MARK_CMD a) :=
  writes_of (hc.exec_eq s) (if_neg fun ⟨_, hidle⟩ => hidle hbusy)

variable (hidle : bit ((s.accepting Reg.DF_MARK_CMD a).regAt Reg.DF_MARK_STAT) 31 = false)
include hidle

theorem finds_mark (hc : MarkCommand a f op c) (hop : fld a.data 1 0 = op) (hu : (s.accepting Reg.DF_MARK_CMD a).markOp op f = u) :
    Finds c s Reg.DF_MARK_CMD a u :=
  finds_of_begins (hc.exec_eq s) (if_pos ⟨hop, Bool.eq_false_iff.mp hidle⟩) (Held.after_mark op _) hu
/-- An effect that does not depend on the OP is that of all three commands. -/
theorem finds_marks (hu : ∀ op, (s.accepting Reg.DF_MARK_CMD a).markOp op f = u) :
    (fld a.data 1 0 = 1 → Finds (.markQuery a f) s Reg.DF_MARK_CMD a u) ∧
    (fld a.data 1 0 = 2 → Finds (.markGrownHost a f) s Reg.DF_MARK_CMD a u) ∧
    (fld a.data 1 0 = 3 → Finds (.markClear a f) s Reg.DF_MARK_CMD a u) :=
  ⟨fun hop => finds_mark hidle .markQuery hop (hu 1), fun hop => finds_mark hidle .markGrownHost hop (hu 2),
    fun hop => finds_mark hidle .markClear hop (hu 3)⟩

end MarkWrite

/-! ### The plane-block that DF_FR_ADDR names (R281) -/

/-- The plane-block's die. -/
def State.frDie (u : State) : Nat := fld (u.regAt Reg.DF_FR_ADDR) 12 0
/-- Its number in the die. -/
def State.frBlock (u : State) : Nat :=
  fld (u.regAt Reg.DF_FR_ADDR) 31 16 * (u.geo (u.frDie / 64)).planes + fld (u.regAt Reg.DF_FR_ADDR) 14 13
/-- The build has the plane-block (R120). -/
def State.frPresent (u : State) : Bool :=
  u.blockPresent u.frDie (fld (u.regAt Reg.DF_FR_ADDR) 31 16) (fld (u.regAt Reg.DF_FR_ADDR) 14 13)
/-- The slots of the die are read. -/
def State.frRead (u : State) (f : CcFault) : State × Option (List FrRec) := u.frSlots unitDfCmd u.frDie f
/-- They have been read, and one of them takes a record. -/
def State.frStored (u : State) (i : Nat) (r : FrRec) (f : CcFault) : State × Bool := (u.frRead f).1.frPut unitDfCmd u.frDie i r f
/-- An operation ends with the record that a slot has taken, or with STORE_ERR. -/
def State.frSet (u : State) (i : Nat) (r : FrRec) (f : CcFault) : State :=
  if (u.frStored i r f).2 then (u.frStored i r f).1.frEnd 0 r else (u.frStored i r f).1.frEnd 6 frFree
/-- The record that OPEN creates: the owner and the page are the command's. -/
def State.frOpened (u : State) (data : Word) : FrRec :=
  { blk := u.frBlock, st := 1, blank := true, owner := fld data 18 10, next := fld data 31 20, done := fld data 31 20,
    base := fld data 31 20, time := u.us.toNat, seq := 0 }

/-- A free slot shows as a free record, whether the store succeeded or not. -/
theorem State.frSet_free (u : State) (i : Nat) (f : CcFault) :
    u.frSet i frFree f = (u.frStored i frFree f).1.frEnd (if (u.frStored i frFree f).2 then 0 else 6) frFree := by
  unfold State.frSet
  split <;> rfl

section Frontier
variable {u : State} {f : CcFault} {op : Nat} {data : Word}

theorem State.frOp_absent (habsent : u.frPresent = false) : u.frOp op data f = u.frEnd 5 frFree :=
  if_pos (Bool.eq_false_iff.mp habsent)

variable (hpresent : u.frPresent = true)
include hpresent

theorem State.frOp_unread (hnone : (u.frRead f).2 = none) : u.frOp op data f = (u.frRead f).1.frEnd 6 frFree := by
  refine (if_neg (not_not.mpr hpresent)).trans ?_
  split
  next => rfl
  next l hl => exact absurd (hnone.symm.trans hl) nofun

variable {l : List FrRec} (hslots : (u.frRead f).2 = some l)
include hslots

section Found
variable {i : Nat} (hfound : frFind l u.frBlock = some i)
include hfound

/-- What an operation does with the record that it has found in slot i. -/
theorem State.frOp_found : u.frOp op data f =
    if op = 1 then (u.frRead f).1.frEnd 0 (l.getD i frFree)
    else if op = 2 then
      if ((l.getD i frFree).st = 1 ∧ (l.getD i frFree).next ≠ (l.getD i frFree).done) ∨
          ((l.getD i frFree).st ≠ 1 ∧ u.frHeld u.frDie u.frBlock = true) then (u.frRead f).1.frEnd 4 (l.getD i frFree)
      else u.frSet i frFree f
    else (u.frRead f).1.frEnd 2 (l.getD i frFree) := by
  refine (if_neg (not_not.mpr hpresent)).trans ?_
  split
  next hnone => exact absurd (hslots.symm.trans hnone) nofun
  next m hm =>
    obtain rfl : l = m := Option.some.inj (hslots.symm.trans hm)
    split
    next j hj =>
      obtain rfl : i = j := Option.some.inj (hfound.symm.trans hj)
      rfl
    next hnone => exact absurd (hfound.symm.trans hnone) nofun

theorem State.frOp_query : u.frOp 1 data f = (u.frRead f).1.frEnd 0 (l.getD i frFree) := State.frOp_found hpresent hslots hfound
theorem State.frOp_open_already : u.frOp 3 data f = (u.frRead f).1.frEnd 2 (l.getD i frFree) := State.frOp_found hpresent hslots hfound
theorem State.frOp_close_inFlight (hheld : ((l.getD i frFree).st = 1 ∧ (l.getD i frFree).next ≠ (l.getD i frFree).done) ∨
    ((l.getD i frFree).st ≠ 1 ∧ u.frHeld u.frDie u.frBlock = true)) : u.frOp 2 data f = (u.frRead f).1.frEnd 4 (l.getD i frFree) :=
  (State.frOp_found hpresent hslots hfound).trans (if_pos hheld)
theorem State.frOp_close (hunheld : ((l.getD i frFree).st = 1 ∧ (l.getD i frFree).next = (l.getD i frFree).done) ∨
    ((l.getD i frFree).st ≠ 1 ∧ u.frHeld u.frDie u.frBlock = false)) : u.frOp 2 data f = u.frSet i frFree f := by
  rw [State.frOp_found hpresent hslots hfound, if_neg (by decide), if_pos rfl, if_neg]
  rintro (⟨hopen, hleft⟩ | ⟨hother, hheld⟩)
  · exact hunheld.elim (fun h => hleft h.2) (fun h => h.1 hopen)
  · exact hunheld.elim (fun h => hother h.1) (fun h => Bool.eq_false_iff.mp h.2 hheld)

end Found

section Unfound
variable (hunfound : frFind l u.frBlock = none)
include hunfound

/-- Without a record only OPEN does something: it takes the lowest free slot, if there is one. -/
theorem State.frOp_unfound : u.frOp op data f =
    if op = 3 then (frFreeSlot l).elim ((u.frRead f).1.frEnd 3 frFree) (fun i => u.frSet i (u.frOpened data) f)
    else (u.frRead f).1.frEnd 1 frFree := by
  refine (if_neg (not_not.mpr hpresent)).trans ?_
  split
  next hnone => exact absurd (hslots.symm.trans hnone) nofun
  next m hm =>
    obtain rfl : l = m := Option.some.inj (hslots.symm.trans hm)
    split
    next j hj => exact absurd (hunfound.symm.trans hj) nofun
    next => cases frFreeSlot l <;> rfl

theorem State.frOp_none (hop : op ≠ 3) : u.frOp op data f = (u.frRead f).1.frEnd 1 frFree :=
  (State.frOp_unfound hpresent hslots hunfound).trans (if_neg hop)
theorem State.frOp_open_full (hfull : frFreeSlot l = none) : u.frOp 3 data f = (u.frRead f).1.frEnd 3 frFree := by
  rw [State.frOp_unfound hpresent hslots hunfound, if_pos rfl, hfull, Option.elim_none]
theorem State.frOp_open_free {i : Nat} (hfree : frFreeSlot l = some i) : u.frOp 3 data f = u.frSet i (u.frOpened data) f := by
  rw [State.frOp_unfound hpresent hslots hunfound, if_pos rfl, hfree, Option.elim_some]

end Unfound
end Frontier

/-- The commands of DF_FR_CMD, by their OP. -/
inductive FrontierCommand (a : RpAcc) (f : CcFault) : Nat → Instr → Prop
  | frQuery : FrontierCommand a f 1 (.frQuery a f)
  | frClose : FrontierCommand a f 2 (.frClose a f)
  | frOpen : FrontierCommand a f 3 (.frOpen a f)
theorem FrontierCommand.exec_eq {a : RpAcc} {f : CcFault} {op : Nat} {c : Instr} (h : FrontierCommand a f op c) (s : State) :
    exec c s = done s (s.frWrite op a f) := by cases h <;> rfl

section FrontierWrite
variable {s u : State} {a : RpAcc} {f : CcFault} {op : Nat} {c : Instr}

theorem writes_frontier_busy (hc : FrontierCommand a f op c) (hbusy : bit ((s.accepting Reg.DF_FR_CMD a).regAt Reg.DF_FR_STAT) 31 = true) :
    Writes c s Reg.DF_FR_CMD a (s.accepting Reg.DF_FR_CMD a) :=
  writes_of (hc.exec_eq s) (if_neg fun ⟨_, hidle⟩ => hidle hbusy)

variable (hidle : bit ((s.accepting Reg.DF_FR_CMD a).regAt Reg.DF_FR_STAT) 31 = false)
include hidle

theorem finds_frontier (hc : FrontierCommand a f op c) (hop : fld a.data 1 0 = op) (hu : (s.accepting Reg.DF_FR_CMD a).frOp op a.data f = u) :
    Finds c s Reg.DF_FR_CMD a u :=
  finds_of_begins (hc.exec_eq s) (if_pos ⟨hop, Bool.eq_false_iff.mp hidle⟩) (Held.after_frontier op a.data _) hu
/-- An effect that does not depend on the OP is that of all three commands. -/
theorem finds_frontiers (hu : ∀ op, (s.accepting Reg.DF_FR_CMD a).frOp op a.data f = u) :
    (fld a.data 1 0 = 1 → Finds (.frQuery a f) s Reg.DF_FR_CMD a u) ∧
    (fld a.data 1 0 = 2 → Finds (.frClose a f) s Reg.DF_FR_CMD a u) ∧
    (fld a.data 1 0 = 3 → Finds (.frOpen a f) s Reg.DF_FR_CMD a u) :=
  ⟨fun hop => finds_frontier hidle .frQuery hop (hu 1), fun hop => finds_frontier hidle .frClose hop (hu 2),
    fun hop => finds_frontier hidle .frOpen hop (hu 3)⟩

end FrontierWrite
end Sys2Proof.Machine

open Sys2Proof Sys2Proof.Machine

/-- Settles O32: a write while BUSY is 0 begins the operation (`finds_mark`, `finds_frontier`), which ends by what it reads of its entry or
its slots. -/
theorem defectsAndFrontier : Obligations.DefectsAndFrontier := by
  unfold Obligations.DefectsAndFrontier
  refine ⟨?marks, ?frontier⟩
  case marks =>
    intro s a f A u w ends e r set present busy
    refine ⟨?busy, fun hidle habsent => finds_marks hidle fun _ => State.markOp_absent habsent,
      fun hidle hpresent hnone => finds_marks hidle fun _ => State.markOp_unread hpresent hnone, fun hidle hpresent c hc => ?read⟩
    case busy =>
      rintro hbusy c (rfl | rfl | rfl)
      · exact writes_mark_busy .markQuery hbusy
      · exact writes_mark_busy .markGrownHost hbusy
      · exact writes_mark_busy .markClear hbusy
    case read =>
      refine ⟨fun hop => finds_mark hidle .markQuery hop (State.markOp_query hpresent hc), fun hop => ?grownHost, fun hop => ?clear⟩
      case grownHost =>
        have hfinds : ∀ {t}, u.markOp 2 f = t → Finds (.markGrownHost a f) s A a t := fun ht => finds_mark hidle .markGrownHost hop ht
        exact ⟨fun hne => hfinds (State.markOp_grown_already hpresent hc hne),
          fun hgood hset => hfinds ((State.markOp_grown hpresent hc hgood).trans (if_pos hset)),
          fun hgood hlost => hfinds ((State.markOp_grown hpresent hc hgood).trans (if_neg (Bool.eq_false_iff.mp hlost)))⟩
      case clear =>
        have hfinds : ∀ {t}, u.markOp 3 f = t → Finds (.markClear a f) s A a t := fun ht => finds_mark hidle .markClear hop ht
        exact ⟨fun hfactory => hfinds (State.markOp_clear_factory hpresent hc hfactory),
          fun hgood => hfinds (State.markOp_clear_good hpresent hc hgood),
          fun hgrown hset => hfinds ((State.markOp_clear_grown hpresent hc hgrown).trans (if_pos hset)),
          fun hgrown hlost => hfinds ((State.markOp_clear_grown hpresent hc hgrown).trans (if_neg (Bool.eq_false_iff.mp hlost)))⟩
  case frontier =>
    intro s a f A u w die blk ends q busy
    refine ⟨?busy, fun hidle habsent => finds_frontiers hidle fun _ => State.frOp_absent habsent,
      fun hidle hpresent hnone => finds_frontiers hidle fun _ => State.frOp_unread hpresent hnone,
      fun hidle hpresent l hslots => ⟨fun i hfound => ?found, fun hunfound => ?unfound⟩⟩
    case busy =>
      rintro hbusy c (rfl | rfl | rfl)
      · exact writes_frontier_busy .frQuery hbusy
      · exact writes_frontier_busy .frClose hbusy
      · exact writes_frontier_busy .frOpen hbusy
    case found =>
      exact ⟨fun hop => finds_frontier hidle .frQuery hop (State.frOp_query hpresent hslots hfound),
        fun hop => finds_frontier hidle .frOpen hop (State.frOp_open_already hpresent hslots hfound),
        fun hop hheld => finds_frontier hidle .frClose hop (State.frOp_close_inFlight hpresent hslots hfound hheld),
        fun hop hunheld => finds_frontier hidle .frClose hop
          ((State.frOp_close hpresent hslots hfound hunheld).trans (State.frSet_free u i f))⟩
    case unfound =>
      exact ⟨fun hop => finds_frontier hidle .frQuery hop (State.frOp_none hpresent hslots hunfound (by decide)),
        fun hop => finds_frontier hidle .frClose hop (State.frOp_none hpresent hslots hunfound (by decide)),
        fun hop hfull => finds_frontier hidle .frOpen hop (State.frOp_open_full hpresent hslots hunfound hfull),
        fun hop i hfree => finds_frontier hidle .frOpen hop (State.frOp_open_free hpresent hslots hunfound hfree)⟩
end

section
/-! The calibration commands of a lane and the hand-over of its timing shadows (R146, R148 to R151). -/
namespace Sys2Proof.Machine
open Sys2Proof

/-! ### The hand-over (R149, R151) -/

/-- An operation that changes of the registers at most the lane's LN_CAL_STAT leaves the shadows. -/
theorem LaneChange.shadows {β : Type} {keep : Lane → β} {g : Nat} {s t : State} (h : LaneChange keep g s t) : t.shadows g = s.shadows g :=
  List.map_congr_left fun n _ => h.regs _ (by simp only [lnA, shadowOff, Reg.LN_RX_SEL, Reg.LN_CAL_STAT]; omega)

/-- The lane at an idle point: a forced one is over, and is recorded (R151). -/
def State.forcedOver (s : State) (g : Nat) : State :=
  if (s.lane g).forced then (s.modLane g (fun l => { l with forced := false })).orReg (lnA g Reg.LN_CAL_STAT) (flag true 10) else s
theorem State.castle_eq (s : State) (g : Nat) : s.castle g = ((s.forcedOver g).handOver g).fallbackResets g := rfl

/-- The resets of FALLBACK add strokes to the lane and change nothing else. -/
theorem State.fallbackResets_frame (s : State) (g : Nat) :
    s.fallbackResets g = s ∨ ∃ added, s.fallbackResets g = s.modLane g (fun l => { l with strokes := l.strokes ++ added }) := by
  unfold State.fallbackResets
  split
  · exact .inl rfl
  · exact .inr ⟨_, rfl⟩
theorem State.fallbackResets_regAt (s : State) (g k : Nat) : (s.fallbackResets g).regAt k = s.regAt k := by
  obtain h | ⟨added, h⟩ := s.fallbackResets_frame g <;> rw [h]
  rfl

section HandOver
variable {s : State} (hc : s.canon = true) (g : Nat)
include hc

theorem State.forcedOver_canon : (s.forcedOver g).canon = true :=
  (State.ite_ok (State.orReg_ok _ _ _ (State.modLane_ok s g _ (State.ok_self hc))) (State.ok_self hc)).2
theorem State.forcedOver_lane : (s.forcedOver g).lane g = { s.lane g with forced := false } := by
  unfold State.forcedOver
  split
  · exact State.lane_self hc g fun l => { l with forced := false }
  next h => rw [← Bool.eq_false_iff.mpr h]
theorem State.forcedOver_shadows : (s.forcedOver g).shadows g = s.shadows g := by
  unfold State.forcedOver
  split
  · exact ((State.modLane_change (keep := fun _ => ()) hc fun _ => rfl).trans (State.calStat_change _ _)).shadows
  · rfl
theorem State.forcedOver_calStat (h : (s.lane g).forced = true) :
    (s.forcedOver g).regAt (lnA g Reg.LN_CAL_STAT) = s.regAt (lnA g Reg.LN_CAL_STAT) ||| flag true 10 := by
  unfold State.forcedOver
  rw [if_pos h]
  exact State.regAt_setReg_self (State.modLane_ok s g _ (State.ok_self hc)).2 _ _

theorem State.handOver_canon : (s.handOver g).canon = true := (State.handOver_ok s g (State.ok_self hc)).2
theorem State.handOver_lane : (s.handOver g).lane g = { s.lane g with active := s.shadows g } :=
  State.lane_self hc g fun l => { l with active := s.shadows g }
theorem State.handOver_calStat :
    (s.handOver g).regAt (lnA g Reg.LN_CAL_STAT) = s.regAt (lnA g Reg.LN_CAL_STAT) &&& 0xFFFFFFFE#32 :=
  State.regAt_setReg_self (State.modLane_ok s g _ (State.ok_self hc)).2 _ _

theorem State.fallbackResets_lane : ∃ q, (s.fallbackResets g).lane g = { s.lane g with strokes := q } := by
  obtain h | ⟨added, h⟩ := s.fallbackResets_frame g <;> rw [h]
  · exact ⟨_, rfl⟩
  · exact ⟨_, State.lane_self hc g fun l => { l with strokes := l.strokes ++ added }⟩

/-- After a hand-over the shadows are active and no forced idle lasts. -/
theorem State.castle_lane : ∃ q, (s.castle g).lane g = { s.lane g with forced := false, active := s.shadows g, strokes := q } := by
  obtain ⟨q, hq⟩ := State.fallbackResets_lane (State.handOver_canon (State.forcedOver_canon hc g) g) g
  refine ⟨q, ?_⟩
  rw [State.castle_eq, hq, State.handOver_lane (State.forcedOver_canon hc g), State.forcedOver_lane hc, State.forcedOver_shadows hc]
theorem State.castle_active : ((s.castle g).lane g).active = s.shadows g := by
  obtain ⟨q, hq⟩ := State.castle_lane hc g
  rw [hq]
theorem State.castle_forced : ((s.castle g).lane g).forced = false := by
  obtain ⟨q, hq⟩ := State.castle_lane hc g
  rw [hq]
theorem State.castle_calStat :
    (s.castle g).regAt (lnA g Reg.LN_CAL_STAT) = (s.forcedOver g).regAt (lnA g Reg.LN_CAL_STAT) &&& 0xFFFFFFFE#32 := by
  rw [State.castle_eq, State.fallbackResets_regAt, State.handOver_calStat (State.forcedOver_canon hc g)]
/-- A hand-over clears PENDING (R149). -/
theorem State.castle_castPending : (s.castle g).castPending g = false := by
  rw [State.castPending, State.castle_calStat hc, bit, BitVec.getLsbD_and, show (0xFFFFFFFE#32).getLsbD 0 = false from rfl, Bool.and_false]
/-- A hand-over records a forced idle in bit 10 of LN_CAL_STAT (R151). -/
theorem State.castle_forcedBit (h : (s.lane g).forced = true) : bit ((s.castle g).regAt (lnA g Reg.LN_CAL_STAT)) 10 = true := by
  rw [State.castle_calStat hc, State.forcedOver_calStat hc g h, bit, BitVec.getLsbD_and, BitVec.getLsbD_or,
    show (flag true 10).getLsbD 10 = true from rfl, show (0xFFFFFFFE#32).getLsbD 10 = true from rfl, Bool.or_true, Bool.true_and]

end HandOver

/-! ### Writes of LN_CAL_CTL (R146, R148) -/

/-- The run that starts on a lane. -/
def CalRun.start (l : Lane) : CalRun := { step := 0, began := false, bytes := 0, alt := l.alts, mism := [], insert := false }

theorem State.startRun_of_not {s : State} {g : Nat} (h : (s.lane g).cal.isSome = true ∨ (s.lane g).enabled = false) : s.startRun g = s :=
  if_pos (h.imp_right Bool.eq_false_iff.mp)
theorem State.startRun_of {s : State} {g : Nat} (hcal : (s.lane g).cal = none) (hen : (s.lane g).enabled = true) :
    s.startRun g = (s.modLane g (fun l => { l with cal := some (CalRun.start (s.lane g)) })).calPoint g :=
  if_neg (by simp [hcal, hen])
theorem State.calCtl_recal {s : State} {g : Nat} {locked : Bool} {data : Word} (h8 : bit data 8 = true) (h9 : bit data 9 = false) :
    s.calCtl g locked data = (s.writeRow (lnA g Reg.LN_CAL_CTL) locked data).startRun g := by
  simp [State.calCtl, h8, h9]
theorem State.calCtl_retrain {s : State} {g : Nat} {locked : Bool} {data : Word} (h8 : bit data 8 = false) (h9 : bit data 9 = true) :
    s.calCtl g locked data = (s.writeRow (lnA g Reg.LN_CAL_CTL) locked data).askRetrain g true := by
  simp [State.calCtl, h8, h9]

end Sys2Proof.Machine

open Sys2Proof Sys2Proof.Machine

/-- Settles O29: the bits of LN_CAL_CTL select a run or a retrain (`State.calCtl`), and a write of a shadow in the hand-over's cycle
comes after `State.castle`, which has taken the shadows before it (`State.castle_active`). -/
theorem calibrationWrites : Obligations.CalibrationWrites := by
  unfold Obligations.CalibrationWrites
  intro s g a ad u w
  refine ⟨fun h8 h9 => ?recal, fun h8 h9 => ?retrain, fun n => ?shadow⟩
  case recal =>
    have hwrites : ∀ {t}, w.startRun g.val = t → Writes (.recal g a) s ad a t := fun ht =>
      writes_of rfl ((if_pos h8).trans ((State.calCtl_recal h8 h9).trans ht))
    exact ⟨fun hnot => hwrites (State.startRun_of_not hnot), fun hcal hen => hwrites (State.startRun_of hcal hen)⟩
  case retrain => exact writes_of rfl ((if_pos h9).trans (State.calCtl_retrain h8 h9))
  case shadow =>
    intro b v x
    refine ⟨writes_of rfl ?late, fun hpend hidle => ⟨writes_of rfl ?handOver, fun hc => State.castle_active hc g.val⟩⟩
    case late => exact (if_neg Bool.false_ne_true).trans (if_neg fun h => Bool.false_ne_true h.1)
    case handOver => exact (if_neg Bool.false_ne_true).trans (if_pos ⟨rfl, hpend, hidle⟩)
end

section
/-! Calibration runs and retrains of a lane (R144, R146, R148), and the hand-over that comes at an idle point (R149, R151). -/
namespace Sys2Proof.Machine
open Sys2Proof

/-! ### Tables that are written in a row -/

theorem Tab.getD_foldl_setD_of_not_mem {α β : Type} [DecidableEq α] (d : Nat → α) (key : β → Nat) (val : β → α) (l : List β) (t : Tab α)
    {k : Nat} (h : ∀ b ∈ l, key b ≠ k) : Tab.getD d (l.foldl (fun u b => Tab.setD d u (key b) (val b)) t) k = Tab.getD d t k :=
  List.foldlRecOn (motive := fun u => Tab.getD d u k = Tab.getD d t k) _ _ rfl fun _ hu b hb =>
    (Tab.getD_setD_ne d (h b hb).symm _).trans hu
theorem Tab.rising_setD {α : Type} [DecidableEq α] {d : Nat → α} {t : Tab α} (h : Tab.rising t = true) (k : Nat) (v : α) :
    Tab.rising (Tab.setD d t k v) = true := by
  unfold Tab.setD
  split
  · exact Tab.rising_erase h k
  · exact Tab.rising_put h k v
/-- Of writes at different keys each is read back. -/
theorem Tab.getD_foldl_setD_of_mem {α β : Type} [DecidableEq α] (d : Nat → α) {key : β → Nat} (hkey : Function.Injective key) (val : β → α)
    {l : List β} {t : Tab α} (ht : Tab.rising t = true) {b : β} (hb : b ∈ l) :
    Tab.getD d (l.foldl (fun u b => Tab.setD d u (key b) (val b)) t) (key b) = val b := by
  induction l generalizing t with
  | nil => exact absurd hb List.not_mem_nil
  | cons a l ih =>
    by_cases hl : b ∈ l
    · exact ih (Tab.rising_setD ht _ _) hl
    · have hother : ∀ c ∈ l, key c ≠ key b := fun c hc h => hl (Eq.subst (hkey h) hc)
      rw [List.foldl_cons, Tab.getD_foldl_setD_of_not_mem d key val l _ hother, (List.mem_cons.mp hb).resolve_right hl]
      exact Tab.getD_setD_self d ht _ _

/-! ### The steps of a run (R144, R146) -/

/-- A step takes one count a bit at its tap, and leaves the counts of the other taps. -/
theorem CalRun.take_mism {r : CalRun} (mism : List Nat) (hr : Tab.rising r.mism = true) (hstep : r.step < 256) {b k : Nat} (hb : b < 8)
    (hk : k < 256) : Tab.getD (fun _ => 0) (r.take mism).mism (b * 256 + k) =
      if k = r.step then mism.getD b 0 else Tab.getD (fun _ => 0) r.mism (b * 256 + k) := by
  unfold CalRun.take
  split
  next h =>
    subst h
    exact Tab.getD_foldl_setD_of_mem (fun _ => 0) (key := fun b => b * 256 + r.step) (fun x y h => by simp only at h; omega)
      (fun b => mism.getD b 0) hr (List.mem_range.mpr hb)
  next h => exact Tab.getD_foldl_setD_of_not_mem (fun _ => 0) (fun b => b * 256 + r.step) _ _ _ fun c _ hkey => by omega

theorem State.stepFull_iff {s : State} {r : CalRun} : s.stepFull r = true ↔ r.began = true ∧ s.stepBytes ≤ r.bytes := by
  simp [State.stepFull]

/-- Changes of a lane that agree on what it holds are one change. -/
theorem State.modLane_congr {s : State} {g : Nat} {f f' : Lane → Lane} (h : f (s.lane g) = f' (s.lane g)) : s.modLane g f = s.modLane g f' := by
  unfold State.modLane
  rw [h]

section CalibrationRun
variable {s : State} {g : Fin 128} {r : CalRun} (hawake : s.awake = true) (hup : s.laneUp g.val = true) (hcal : (s.lane g.val).cal = some r)
include hcal

theorem exec_calRunStep_waits (mism : List Nat) (w : Bool) (h : r.began = false ∨ r.bytes < s.stepBytes) :
    exec (.calRunStep g mism w) s = idle s := by
  show execCalRunStep g mism w s = idle s
  unfold execCalRunStep
  simp only [hcal]
  refine if_neg fun ⟨_, _, hfull⟩ => ?_
  obtain ⟨hbegan, hbytes⟩ := State.stepFull_iff.mp hfull
  rcases h with h | h
  · rw [h] at hbegan
    exact Bool.false_ne_true hbegan
  · omega

include hawake hup

theorem exec_calRunStep_filled (mism : List Nat) (w : Bool) (hbegan : r.began = true) (hbytes : s.stepBytes ≤ r.bytes) :
    exec (.calRunStep g mism w) s = done s (if r.step + 1 < 256 then (s.modLane g.val (fun l => { l with cal := some (r.take mism) })).calPoint g.val
      else s.endRun g.val (r.take mism) w) := by
  show execCalRunStep g mism w s = _
  unfold execCalRunStep
  simp only [hcal]
  exact if_pos ⟨hawake, hup, State.stepFull_iff.mpr ⟨hbegan, hbytes⟩⟩
theorem exec_calStepWaitExpiry : exec (.calStepWaitExpiry g) s =
    done s ((s.modLane g.val (fun l => { l with cal := some { r with insert := true } })).calInsert g.val) := by
  have hinsert : s.modLane g.val (fun l => { l with cal := l.cal.map (fun r => { r with insert := true }) }) =
      s.modLane g.val (fun l => { l with cal := some { r with insert := true } }) := State.modLane_congr (by rw [hcal]; rfl)
  rw [← hinsert]
  exact if_pos ⟨hawake, hup, by rw [hcal]; rfl⟩

end CalibrationRun

/-! ### Retrains (R148) -/

theorem exec_retrainRun {s : State} {g : Fin 128} {first : Bool} (hwork : s.working = true) (hup : s.laneUp g.val = true)
    (hreq : (s.lane g.val).retrainReq = some first) (hscribe : s.scribeUp = true) (hidle : s.idlePoint g.val = true) (trials : List Trial) :
    exec (.retrainRun g trials) s = looked s (if s.lunsReady g.val then s.retrainNow g.val first trials
      else ((s.dropRun g.val).modLane g.val (fun l => { l with retrainWait := true })).retrainSuspend g.val) := by
  show execRetrainRun g trials s = _
  unfold execRetrainRun
  simp only [hreq]
  exact if_pos ⟨hwork, hup, hscribe, hidle⟩
theorem exec_retrainRerequest {s : State} {g : Fin 128} {first : Bool} (hwork : s.working = true) (hup : s.laneUp g.val = true)
    (hlater : (s.lane g.val).retrainLater = some first) : exec (.retrainRerequest g) s = done s (s.askRetrain g.val first) := by
  show execRetrainRerequest g s = _
  unfold execRetrainRerequest
  simp only [hlater]
  exact if_pos ⟨hwork, hup⟩

end Sys2Proof.Machine

open Sys2Proof Sys2Proof.Machine

/-- Settles O30: the hand-over is `State.castle`, whose lane and LN_CAL_STAT are those of `State.castle_lane` and `State.castle_calStat`;
a step of a run goes by `State.stepFull`, and its counts are those of `CalRun.take_mism`. -/
theorem laneCalibration : Obligations.LaneCalibration := by
  unfold Obligations.LaneCalibration
  refine ⟨fun s g hawake hpend => ⟨fun hlane hcluster hidle => ?handOver, fun hup => ?forced⟩,
    fun s g r hawake hup hcal => ⟨fun mism w h => ?waits, fun mism hbegan hbytes => ⟨fun w hstep => ?goesOn, fun w hlast => ?ends⟩,
      fun mism => ⟨rfl, rfl, rfl, ?begins, fun hr hstep b k hb hk => ?counts⟩, ?late⟩⟩
  case handOver =>
    intro u
    exact ⟨yields_of_done (if_pos ⟨hawake, hlane, hcluster, hpend, hidle⟩), fun hc => ⟨State.castle_active hc g.val,
      State.castle_forced hc g.val, State.castle_castPending hc g.val, State.castle_forcedBit hc g.val⟩⟩
  case forced => exact yields_of_done (if_pos ⟨hawake, hup, hpend⟩)
  case waits => exact yields_of_idle (exec_calRunStep_waits hcal mism w h)
  case goesOn => exact yields_of_done ((exec_calRunStep_filled hawake hup hcal mism w hbegan hbytes).trans (congrArg _ (if_pos hstep)))
  case ends =>
    exact yields_of_done ((exec_calRunStep_filled hawake hup hcal mism w hbegan hbytes).trans (congrArg _ (if_neg (Nat.not_lt.mpr hlast))))
  case begins => exact decide_eq_true_iff
  case counts => exact CalRun.take_mism mism hr hstep hb hk
  case late => exact yields_of_done (exec_calStepWaitExpiry hawake hup hcal)

/-- Settles O31: a retrain that is asked for waits for its targets or runs (`exec_retrainRun`), and one that is given up is asked for
again by `State.askRetrain`. -/
theorem retraining : Obligations.Retraining := by
  unfold Obligations.Retraining
  intro s g first hwork hup
  refine ⟨fun trials hreq hscribe hidle => ?run, fun hwait hnot => ?givenUp, fun hlater => ?again⟩
  case run =>
    have hrun := exec_retrainRun hwork hup hreq hscribe hidle trials
    exact ⟨fun hready => found_of_looked (hrun.trans (congrArg _ (if_pos hready))),
      fun hnot => found_of_looked (hrun.trans (congrArg _ (if_neg (Bool.eq_false_iff.mp hnot))))⟩
  case givenUp => exact yields_of_done (if_pos ⟨hwork, hup, hwait, Bool.eq_false_iff.mp hnot⟩)
  case again => exact yields_of_done (exec_retrainRerequest hwork hup hlater)
end

section
/-! Polls, time-outs and overruns of busy LUNs (R155, R176, R177, R181): a status byte of a read's LUN makes it ready, which the seal copy
that goes on at the same stroke boundary leaves as it is. -/
namespace Sys2Proof.Machine
open Sys2Proof

/-! ### An opportunity of a perturbation point (R435) -/

/-- A state that differs from another in registers, generators and the Blotter alone. -/
def Perturbs (s t : State) : Prop := ∃ r d b, t = { s with regs := r, draws := d, blotter := b }
theorem Perturbs.refl (s : State) : Perturbs s s := ⟨s.regs, s.draws, s.blotter, rfl⟩
theorem Perturbs.trans {s t u : State} (h : Perturbs s t) (h' : Perturbs t u) : Perturbs s u := by
  obtain ⟨r, d, b, rfl⟩ := h
  obtain ⟨r', d', b', rfl⟩ := h'
  exact ⟨r', d', b', rfl⟩
theorem Logs.perturbs {s t : State} (h : Logs s t) : Perturbs s t := by
  obtain ⟨r, b, rfl⟩ := h
  exact ⟨r, s.draws, b, rfl⟩

theorem State.pxSlot_frame (s : State) (page point k : Nat) : Perturbs s (s.pxSlot page point k).1 := by
  have hdrawn : ∀ d, Perturbs s { s with draws := d } := fun d => ⟨s.regs, d, s.blotter, rfl⟩
  unfold State.pxSlot
  dsimp only
  split
  · split
    · have hshot : ∀ t : State, Perturbs s t → ∀ w : Word, Perturbs s (if bit w 1 then t.setReg (page + 0xF00 + 8 * k) (w &&& 0xFFFFFFFE#32) else t) := by
        intro t ht w
        split
        · exact ht.trans (logs_setReg _ _ _).perturbs
        · exact ht
      dsimp only
      split
      · exact (hshot _ (hdrawn _) _).trans (State.blot_frame _ _ _ _ _).perturbs
      · exact hshot _ (hdrawn _) _
    · exact hdrawn _
  · exact .refl s
theorem State.opportunity_frame (s : State) (page point : Nat) : Perturbs s (s.opportunity page point).1 :=
  List.foldlRecOn (motive := fun acc : State × List (Nat × Word) => Perturbs s acc.1) _ _ (.refl s)
    fun acc hacc k _ => hacc.trans (State.pxSlot_frame acc.1 page point k)
theorem State.pollByte_frame (s : State) (g : Nat) (status : Byte) : Perturbs s (s.pollByte g status).1 := s.opportunity_frame (lnA g 0) 1

/-! ### What the seal copy that goes on leaves of the lanes (R341 to R344) -/

@[simp] theorem State.latchLevel_lanes (s : State) (l : Fin 3) : (s.latchLevel l).lanes = s.lanes := by
  unfold State.latchLevel
  dsimp only
  split
  · obtain ⟨r, d, u, p, h⟩ := State.expertDrop_frame (s.modGlb (fun g => { g with level := some l }))
    rw [h]
    rfl
  · split <;> rfl
theorem State.sealDegrade_lanes (s : State) (r why : Nat) : (s.sealDegrade r why).lanes = s.lanes := by
  obtain ⟨q, b, h⟩ := State.blot_frame (s.modGlb (fun g => { g with sealDegraded := true })) 0xD000 0x2D none
    [BitVec.ofNat 32 r, BitVec.ofNat 32 why]
  unfold State.sealDegrade
  rw [h]
  rfl
/-- Outside OPENING the end of a seal copy leaves the lanes; in OPENING it may be the end of the phase, and a failure. -/
theorem State.sealEnd_lanes {s : State} (hmode : s.glb.mode ≠ .opening) (j : SealJob) : (s.sealEnd j).lanes = s.lanes := by
  have hbad : ∀ why, (j.failed.foldl (fun t r => t.sealDegrade r why) s).lanes = s.lanes := fun why =>
    List.foldlRecOn (motive := fun t : State => t.lanes = s.lanes) _ _ rfl fun t ht r _ => (State.sealDegrade_lanes t r why).trans ht
  unfold State.sealEnd
  dsimp only
  split
  case h_1 =>
    have hnot : ¬ (s.glb.mode = .opening ∧ s.glb.phase = .seal) := fun h => hmode h.1
    rw [if_neg hnot, State.modKeys_lanes]
    exact hbad 1
  case h_2 =>
    split
    · rfl
    · exact hbad 2
  case h_3 => exact hbad 3
  case h_4 => simp [State.sealResult, hbad 3]
theorem State.sealWritten_lanes {s : State} (hmode : s.glb.mode ≠ .opening) : (s.sealWritten false).lanes = s.lanes := by
  unfold State.sealWritten
  split
  · rfl
  · simp only [Bool.false_eq_true, false_and, if_false]
    split
    · rfl
    · exact State.sealEnd_lanes hmode _
@[simp] theorem State.lateCharge_lanes (s : State) (i : Option Nat) (e : Nat) : (s.lateCharge i e).lanes = s.lanes := by
  unfold State.lateCharge
  split
  · split <;> rfl
  · rfl

/-- A stroke of the sequencer leaves the LUNs of its lane. -/
theorem State.seqIssue_luns {s : State} (hc : s.canon = true) (g : Nat) (st : Stroke) : ((s.seqIssue g st).lane g).luns = (s.lane g).luns := by
  unfold State.seqIssue
  rw [State.lane_self hc]
/-- The seal copy that goes on issues at most a stroke: no LUN changes by it outside OPENING. -/
theorem State.sealNext_luns {s : State} (hc : s.canon = true) (hmode : s.glb.mode ≠ .opening) (g : Nat) :
    ((s.sealNext g).lane g).luns = (s.lane g).luns := by
  have hissue : ∀ (i : Option Nat) (e : Nat) (st : Stroke) (f : Keys → Keys),
      ((((s.lateCharge i e).seqIssue g st).modKeys f).lane g).luns = (s.lane g).luns := fun i e st _ =>
    (State.seqIssue_luns (State.lateCharge_ok s i e (State.ok_self hc)).2 g st).trans (by simp only [State.lane, State.lateCharge_lanes])
  unfold State.sealNext
  split
  · rfl
  · split
    · rfl
    · split
      · simp only [State.lane, State.sealWritten_lanes hmode]
      · split
        · rfl
        · split
          · exact hissue _ _ _ _
          · exact hissue _ _ _ _

/-! ### A read becomes ready (R176) -/

theorem State.lunReadyEvent_frame (s : State) (g ld status : Nat) :
    (s.lunReadyEvent g ld status).lanes = s.lanes ∧ (s.lunReadyEvent g ld status).glb = s.glb := by
  unfold State.lunReadyEvent State.event
  split
  · exact ⟨State.modCore_lanes _ _ _, State.modCore_glb _ _ _⟩
  · exact ⟨rfl, rfl⟩

/-- The ready of a LUN that the block's own sequences do not own, and whose suspend has not overrun, is its new state and an event. -/
theorem State.lunReady_luns {s : State} {g ld : Nat} {status : Byte} {cc : CcFault} (hc : s.canon = true)
    (hmode : (s.becomeReady g ld status cc).glb.mode ≠ .opening) (howner : s.seqOwns g ld = false)
    (hoverrun : ((s.lane g).lun ld).overrun = false) :
    ((s.lunReady g ld status cc).lane g).luns = ((s.becomeReady g ld status cc).lane g).luns := by
  have hok := State.becomeReady_ok s g ld status cc (State.ok_self hc)
  obtain ⟨hlanes, hglb⟩ := State.lunReadyEvent_frame (s.becomeReady g ld status cc) g ld status.toNat
  unfold State.lunReady
  simp only [howner, hoverrun, Bool.false_eq_true, not_false_eq_true, if_true, if_false]
  rw [State.sealNext_luns (State.lunReadyEvent_ok _ g ld status.toNat hok).2 (by rwa [hglb]), State.lane, hlanes, State.lane]
theorem State.lunStatus_of_ready {s : State} {g ld : Nat} {status : Byte} (hmode : s.glb.mode ≠ .endgame)
    (hready : readyStatus ((s.lane g).lun ld).busyClass status = true) (cc : CcFault) (timed : Bool) :
    s.lunStatus g ld status cc timed = s.lunReady g ld status cc :=
  (if_neg hmode).trans (if_pos hready)

/-- A LUN whose read has become ready. -/
def Lun.afterRead (u : Lun) : Lun := { u with busy := false, state := .idle, pendData := true }

section ReadReady
variable {s : State} {g ld : Nat} (hstate : ((s.lane g).lun ld).state = .readBusy)
include hstate

theorem State.becomeReady_read (status : Byte) (cc : CcFault) : s.becomeReady g ld status cc = s.modLun g ld Lun.afterRead := by
  unfold State.becomeReady
  simp only [hstate]
  rfl
theorem State.lunStatus_read (hc : s.canon = true) (hrising : Tab.rising (s.lane g).luns = true) (hmode : s.glb.mode ≠ .endgame)
    (hopening : s.glb.mode ≠ .opening) {status : Byte} (hready : readyStatus ((s.lane g).lun ld).busyClass status = true)
    (howner : s.seqOwns g ld = false) (hoverrun : ((s.lane g).lun ld).overrun = false) (cc : CcFault) (timed : Bool) :
    ((s.lunStatus g ld status cc timed).lane g).lun ld = ((s.lane g).lun ld).afterRead := by
  have hbecome := State.becomeReady_read hstate status cc
  rw [State.lunStatus_of_ready hmode hready, Lane.lun, State.lunReady_luns hc (by rwa [hbecome]) howner hoverrun, hbecome, State.modLun,
    State.lane_self hc]
  exact Tab.getD_setD_self _ hrising ld _

end ReadReady

/-! ### The commands -/

theorem State.mayPoll_of {s : State} {g ld : Nat} (hwork : s.laneWork = true) (hup : s.laneUp g = true) (hrun : (s.lane g).run = none)
    (hwaiting : (s.lane g).waiting = none) (hbusy : ((s.lane g).lun ld).busy = true) : s.mayPoll g ld = true := by
  simp [State.mayPoll, Lane.noRun, hwork, hup, hrun, hwaiting, hbusy]
/-- Where commands run the block is not in OPENING. -/
theorem State.not_opening_of_working {s : State} (h : s.working = true) : s.glb.mode ≠ .opening := by
  intro hmode
  simp [State.working, State.not_running_of_mode (.inr (.inl hmode))] at h
theorem State.seqOwns_congr {s t : State} (h : t.keys = s.keys) (g ld : Nat) : t.seqOwns g ld = s.seqOwns g ld := by
  simp only [State.seqOwns, State.sealBusy, State.sanErase, h]
theorem Logs.scribeUp {s t : State} (h : Logs s t) : t.scribeUp = s.scribeUp := by
  obtain ⟨r, b, rfl⟩ := h
  rfl
/-- A status read has drawn on the slots of its lane's page and driven the lane's bus. -/
theorem State.pollByte_driven {s : State} (hc : s.canon = true) (g : Nat) (status : Byte) (bus : List BusCycle) :
    let t := (s.pollByte g status).1.modLane g (fun l => { l with bus := bus })
    t.canon = true ∧ (t.lane g).luns = (s.lane g).luns ∧ t.glb = s.glb ∧ t.keys = s.keys := by
  have hok : (s.pollByte g status).1.Ok s := State.pollByte_ok s g status (State.ok_self hc)
  have hluns : (((s.pollByte g status).1.modLane g (fun l => { l with bus := bus })).lane g).luns = ((s.pollByte g status).1.lane g).luns := by
    rw [State.lane_self hok.2]
  have hcanon := (State.modLane_ok _ g (fun l => { l with bus := bus }) hok).2
  obtain ⟨r, d, b, hframe⟩ := s.pollByte_frame g status
  rw [hframe] at hluns hcanon ⊢
  exact ⟨hcanon, hluns, rfl, rfl⟩

end Sys2Proof.Machine

open Sys2Proof Sys2Proof.Machine

/-- Settles O56: a poll or RB_N reads the status once (`State.readStatusOf`), which makes a read ready by `State.lunStatus_read`; the
limits guard the time-out and the overrun. -/
theorem busyLuns : Obligations.BusyLuns := by
  unfold Obligations.BusyLuns
  intro s lane die f g u hwork hup
  refine ⟨fun status hlane hrun hwaiting hbusy => ?status, fun hbusy hrb hlimit => ?timeout, fun hstate hover hlate => ?overrun,
    fun hover => ?once⟩
  case status =>
    intro b q read
    have hpoll := State.mayPoll_of hlane hup hrun hwaiting hbusy
    refine ⟨fun hrb => found_of_looked (if_pos ⟨hpoll, Bool.eq_false_iff.mp hrb⟩), fun hrb => found_of_looked (if_pos ⟨hpoll, hrb⟩), ?ready⟩
    intro timed hmode hc hrising hread hover hready howner
    obtain ⟨hcanon, hluns, hglb, hkeys⟩ : read.canon = true ∧ (read.lane g).luns = (s.lane g).luns ∧ read.glb = s.glb ∧ read.keys = s.keys :=
      State.pollByte_driven hc g status _
    clear_value read
    have hlun : (read.lane g).lun die.val = u := congrArg (fun l => Tab.getD (fun _ => Lun.init) l die.val) hluns
    intro v
    have hv : v = ((read.lane g).lun die.val).afterRead :=
      State.lunStatus_read (by rwa [hlun]) hcanon (by rwa [hluns]) (by rwa [hglb])
        (by rw [hglb]; exact State.not_opening_of_working hwork) (by rwa [hlun]) ((State.seqOwns_congr hkeys g _).trans howner)
        (by rwa [hlun]) f timed
    rw [hv]
    exact ⟨rfl, rfl, rfl⟩
  case timeout => exact found_of_looked (if_pos ⟨hwork, hup, hbusy, hrb, hlimit⟩)
  case overrun =>
    intro v
    have hscribe : v.scribeUp = s.scribeUp := (State.blot_frame (s.raise (lnA g 0) 5) _ _ _ _).scribeUp
    have hexec : exec (.suspOverrun lane die) s = done s (if v.scribeUp then v.toScribe g 7 (lunBits die.val) else v) :=
      if_pos ⟨hwork, hup, hstate, Bool.eq_false_iff.mp hover, hlate⟩
    rw [hscribe] at hexec
    exact ⟨fun hup => yields_of_done (hexec.trans (congrArg _ (if_pos hup))),
      fun hlost => yields_of_done (hexec.trans (congrArg _ (if_neg (Bool.eq_false_iff.mp hlost))))⟩
  case once => exact if_neg fun h => h.2.2.2.1 hover
end

section
/-! The ends of commands at their engines (R160, R192, R244, R249, R271 to R279, R290, R291, R302). -/
namespace Sys2Proof.Machine
open Sys2Proof

/-- Handle h of cluster cl holds an open command that can end: the cluster works, and no reset of its tenant has discarded the command. -/
structure State.HoldsOpen (s : State) (cl : Fin 16) (h : Fin 2048) (x : Cmd) : Prop where
  cmd : s.cmd? cl.val h.val = some x
  working : s.working = true
  up : s.clusterUp cl.val = true
  open_ : x.stage ≠ .ready
  kept : x.discard = false

/-- An engine's command acts on an open command of its opcode. -/
theorem State.HoldsOpen.opEnd {s : State} {cl : Fin 16} {h : Fin 2048} {x : Cmd} (H : s.HoldsOpen cl h x) {op : Nat} (hop : x.pkt.opcode = op)
    (f : Cmd → State) : s.opEnd cl h op f = looked s (f x) := by
  unfold State.opEnd
  simp only [H.cmd, H.working, H.up, hop, H.open_, H.kept, ne_eq, not_false_eq_true, and_self, if_true, Bool.false_eq_true, false_and, if_false]
theorem State.HoldsOpen.found {s : State} {cl : Fin 16} {h : Fin 2048} {x : Cmd} (H : s.HoldsOpen cl h x) {op : Nat} (hop : x.pkt.opcode = op)
    {i : Instr} {f : Cmd → State} {u : State} (hexec : exec i s = s.opEnd cl h op f) (hf : f x = u) : Found i s u :=
  found_of_looked (hexec.trans ((H.opEnd hop f).trans (congrArg (looked s) hf)))

/-! ### The status of what has ended -/

section Complete
variable {s : State} {c h : Nat} {x : Cmd} (hcmd : s.cmd? c h = some x)
include hcmd

/-- A command whose data has met an error completes with that error (R303). -/
theorem State.complete_of_err {e : Nat × Nat} (herr : x.dataErr = some e) (st det : Nat) : s.complete c h st det = s.finish c h e.1 e.2 := by
  unfold State.complete
  simp only [hcmd, Option.bind_some, herr]
theorem State.complete_of_none (herr : x.dataErr = none) (st det : Nat) : s.complete c h st det = s.finish c h st det := by
  unfold State.complete
  simp only [hcmd, Option.bind_some, herr]

end Complete

section Ends
variable {s : State} {c h : Nat} {x : Cmd}

theorem State.readStatus_poison (hpoison : s.anyPoison x = true) : s.readStatus x = (stPoison, 0) := if_pos hpoison
theorem State.readStatus_bad (hpoison : s.anyPoison x = false) (hbad : x.frames.any FrameSt.bad = true) : s.readStatus x = (stEcc, x.eccDetail) :=
  (if_neg (Bool.eq_false_iff.mp hpoison)).trans (if_pos hbad)
theorem State.readStatus_good (hpoison : s.anyPoison x = false) (hgood : x.frames.any FrameSt.bad = false) : s.readStatus x = (stOk, 0) :=
  (if_neg (Bool.eq_false_iff.mp hpoison)).trans (if_neg (Bool.eq_false_iff.mp hgood))

/-! ### Reads -/

theorem State.readEnd_open (hquill : x.quill = none) (still : Bool) : s.readEnd c h x still = s := by
  unfold State.readEnd
  simp only [hquill]
/-- A read that its Quill has failed ends once no frame of it is under way and nothing of it is left on the lane (R160). -/
theorem State.readEnd_failed {st : Nat} (hquill : x.quill = some st) (hst : st ≠ stOk) (hlane : s.onLane x.lane h = false)
    (hmoving : x.stage ≠ .moving) (hstaged : x.stage ≠ .staged) : s.readEnd c h x true = s.complete c h st x.detail.toNat := by
  unfold State.readEnd
  simp [hquill, hst, hlane, hmoving, hstaged]
theorem State.readEnd_moved (hquill : x.quill = some stOk) (hended : x.allEnded = true) (hmoved : s.dataMoved c x = true) (still : Bool)
    {st det : Nat} (hstatus : s.readStatus x = (st, det)) : s.readEnd c h x still = s.complete c h st det := by
  unfold State.readEnd
  simp [hquill, hended, hmoved, hstatus]

/-! ### Programs, erases and copies -/

theorem State.writeEnd_open (hquill : x.quill = none) : s.writeEnd c h x = s := by
  unfold State.writeEnd
  simp only [hquill]
theorem State.writeEnd_failed {st r : Nat} (hquill : x.quill = some st) (hresult : x.result = some r) (hst : st ≠ stOk) :
    s.writeEnd c h x = s.finish c h st x.detail.toNat := by
  unfold State.writeEnd
  simp only [hquill, hresult, hst, ne_eq, not_false_eq_true, if_true]
/-- A write that its Quill has failed waits for what is left of it on the lane. -/
theorem State.writeEnd_waits {st : Nat} (hquill : x.quill = some st) (hresult : x.result = none) (hlane : s.onLane x.lane h = true) :
    s.writeEnd c h x = s := by
  unfold State.writeEnd
  simp only [hquill, hresult, hlane, not_true_eq_false, and_false, if_false]
theorem State.writeEnd_result {r : Nat} (hquill : x.quill = some stOk) (hresult : x.result = some r)
    (hwell : x.pkt.opcode = 3 ∨ r ≠ stOk ∨ s.anyPoison x = false) :
    s.writeEnd c h x = s.finish c h r (if r = stTimeout then 1 else 0) := by
  have hnot : ¬ (x.pkt.opcode ≠ 3 ∧ r = stOk ∧ s.anyPoison x = true) := by
    rintro ⟨hop, hok, hpoison⟩
    obtain h | h | h := hwell
    · exact hop h
    · exact h hok
    · exact absurd hpoison (Bool.eq_false_iff.mp h)
  unfold State.writeEnd
  simp only [hquill, hresult, ne_eq, not_true_eq_false, if_false, hnot]
theorem State.writeEnd_poison (hquill : x.quill = some stOk) (hresult : x.result = some stOk) (hop : x.pkt.opcode ≠ 3)
    (hpoison : s.anyPoison x = true) : s.writeEnd c h x = s.finish c h stPoison 0 := by
  unfold State.writeEnd
  simp only [hquill, hresult, hop, hpoison, ne_eq, not_true_eq_false, not_false_eq_true, and_self, if_false, if_true]

theorem State.plainEnd_open (hquill : x.quill = none) : s.plainEnd c h x = s := by
  unfold State.plainEnd
  simp only [hquill]
theorem State.plainEnd_done {st : Nat} (hquill : x.quill = some st) : s.plainEnd c h x = s.finish c h st x.detail.toNat := by
  unfold State.plainEnd
  simp only [hquill]

end Ends

/-! ### Samples and the sources of copies -/

section Sources
variable {s : State} {cl : Fin 16} {h : Fin 2048} {x : Cmd} (H : s.HoldsOpen cl h x) (hquill : x.quill = some stOk) (hended : x.allEnded = true)
include H hquill hended

/-- A sample of a command, not of Patrol, fails where a frame of it is bad (R249). -/
theorem State.HoldsOpen.sampleEnd (hop : x.pkt.opcode = 0x0D) (hpatrol : x.patrol = false) : exec (.opPatrolSample cl h) s =
    looked s (if x.frames.any FrameSt.bad then s.finish cl.val h.val stEcc x.eccDetail else s.finish cl.val h.val stOk 0) := by
  refine (H.opEnd hop _).trans (congrArg (looked s) ?_)
  simp only [hquill, hended, hpatrol, ne_eq, not_true_eq_false, Bool.false_eq_true, if_true, if_false]
/-- A COPY whose source has been read goes to its destination, or ends where the source is poisoned or bad (R278). -/
theorem State.HoldsOpen.copySourceEnd (hop : x.pkt.opcode = 4) (hstage : x.stage ≠ .pending) (hsource : x.destPart = false) :
    exec (.opCopy cl h) s = looked s (if s.anyPoison x then s.finish cl.val h.val stPoison 0
      else if x.frames.any FrameSt.bad then s.finish cl.val h.val stEcc x.eccDetail else s.toDestination cl.val h.val x) := by
  refine (H.opEnd hop _).trans (congrArg (looked s) ?_)
  simp only [hquill, hended, hstage, hsource, ne_eq, not_true_eq_false, Bool.false_eq_true, if_false]

end Sources

end Sys2Proof.Machine

open Sys2Proof Sys2Proof.Machine

/-- Settles O57: each engine's command acts by `State.HoldsOpen.found`; reads end by `State.readEnd`, programs, erases and copies by
`State.writeEnd`, commands without data by `State.plainEnd`, and the others by the branches of their own command. -/
theorem commandEnds : Obligations.CommandEnds := by
  unfold Obligations.CommandEnds
  intro s cl h x f c n hcmd hwork hup hopen hkept op reads plain writes
  have H : s.HoldsOpen cl h x := ⟨hcmd, hwork, hup, hopen, hkept⟩
  have hreads : ∀ u, s.readEnd c n x x.framesStill = u → reads u := fun u hu => ⟨fun hop => H.found hop rfl hu, fun hop => H.found hop rfl hu⟩
  have hplain : ∀ u, s.plainEnd c n x = u → plain u := fun u hu =>
    ⟨fun hop => H.found hop rfl hu, fun hop => H.found hop rfl hu, fun hop => H.found hop rfl hu⟩
  have hwrites : ∀ u, s.writeEnd c n x = u → writes u := fun u hu =>
    ⟨fun hop hstage hchecked => H.found hop rfl ((if_neg hstage).trans ((if_neg (Bool.eq_false_iff.mp hchecked)).trans hu)),
      fun hop hstage => H.found hop rfl ((if_neg hstage).trans hu),
      fun hop hstage hdest => H.found hop rfl ((if_neg hstage).trans ((if_pos hdest).trans hu))⟩
  refine ⟨fun hquill => ?quillOpen, fun st hquill => hplain _ (State.plainEnd_done hquill), fun st hquill hst => ?quillFailed,
    fun hquill => ?quillWell, fun hop hstage => ?pendingProgram, fun hop hstage hverify => ?blankCheck, ?fetch, ?release⟩
  case quillOpen =>
    refine ⟨hreads _ (State.readEnd_open hquill _), hplain _ (State.plainEnd_open hquill), hwrites _ (State.writeEnd_open hquill),
      fun hop => H.found hop rfl ?_, fun hop => H.found hop rfl ?_, fun hop => H.found hop rfl ?_, fun hop hsource => H.found hop rfl ?_⟩
    · simp only [hquill]
    · simp only [hquill]
    · simp only [hquill]
    · simp only [hquill, hsource, Bool.false_eq_true, if_false, ite_self]
  case quillFailed =>
    refine ⟨fun hop => H.found hop rfl ?identify, fun hop => H.found hop rfl ?blank, fun hstill hlane hmoving hstaged => ⟨?read, ?sample, ?copy⟩,
      fun r hresult => hwrites _ (State.writeEnd_failed hquill hresult hst),
      fun hresult hlane => hwrites _ (State.writeEnd_waits hquill hresult hlane)⟩
    case identify => simp only [hquill, ne_eq, hst, not_false_eq_true, if_true]; rfl
    case blank => simp only [hquill, ne_eq, hst, not_false_eq_true, if_true]; rfl
    case read =>
      refine hreads _ ?_
      rw [hstill]
      exact State.readEnd_failed hquill hst hlane hmoving hstaged
    case sample => exact fun hop => H.found hop rfl (by simp [hquill, hst, hstill, hlane, c, n])
    case copy =>
      exact fun hop hstage hsource => H.found hop rfl (by simp [hquill, hst, hstill, hlane, hstage, hsource, c, n])
  case quillWell =>
    refine ⟨fun hended hmoved => ⟨fun hpoison => hreads _ ?poison, fun hpoison hbad => hreads _ ?bad, fun hpoison hgood => hreads _ ?good⟩,
      fun hended hpatrol hop => ⟨fun hbad => ?sampleBad, fun hgood => ?sampleGood⟩, fun hop hstage hpoison => H.found hop rfl ?identify,
      fun hop hcounted => H.found hop rfl ?blank, fun r hresult => ⟨fun hwell => hwrites _ (State.writeEnd_result hquill hresult hwell), ?poisoned⟩,
      fun hop hstage hsource hended => ?copySource⟩
    case poison => exact State.readEnd_moved hquill hended hmoved _ (State.readStatus_poison hpoison)
    case bad => exact State.readEnd_moved hquill hended hmoved _ (State.readStatus_bad hpoison hbad)
    case good => exact State.readEnd_moved hquill hended hmoved _ (State.readStatus_good hpoison hgood)
    case sampleBad => exact found_of_looked ((H.sampleEnd hquill hended hop hpatrol).trans (congrArg _ (if_pos hbad)))
    case sampleGood => exact found_of_looked ((H.sampleEnd hquill hended hop hpatrol).trans (congrArg _ (if_neg (Bool.eq_false_iff.mp hgood))))
    case identify => simp only [hquill, hstage, hpoison, ne_eq, not_true_eq_false, Bool.false_eq_true, if_true, if_false]; rfl
    case blank => simp only [hquill, Nat.not_lt.mpr hcounted, ne_eq, not_true_eq_false, if_false]; rfl
    case poisoned =>
      rintro hop rfl hpoison
      exact hwrites _ (State.writeEnd_poison hquill hresult hop hpoison)
    case copySource =>
      have hcopy := H.copySourceEnd hquill hended hop hstage hsource
      exact ⟨fun hpoison => found_of_looked (hcopy.trans (congrArg _ (if_pos hpoison))),
        fun hpoison hbad => found_of_looked (hcopy.trans (congrArg _ ((if_neg (Bool.eq_false_iff.mp hpoison)).trans (if_pos hbad)))),
        fun hpoison hgood => found_of_looked (hcopy.trans (congrArg _
          ((if_neg (Bool.eq_false_iff.mp hpoison)).trans (if_neg (Bool.eq_false_iff.mp hgood)))))⟩
  case pendingProgram =>
    exact ⟨fun e herr => H.found hop rfl ((if_pos hstage).trans ((if_pos (by rw [herr]; rfl)).trans (State.complete_of_err hcmd herr _ _))),
      fun herr => H.found hop rfl ((if_pos hstage).trans (if_neg (by rw [herr]; exact Bool.false_ne_true)))⟩
  case blankCheck =>
    refine ⟨fun hquill => H.found hop rfl ((if_neg hstage).trans ((if_pos hverify).trans ?open_)),
      fun st hquill hst => H.found hop rfl ((if_neg hstage).trans ((if_pos hverify).trans ?failed)),
      fun hquill => H.found hop rfl ((if_neg hstage).trans ((if_pos hverify).trans ?well)), fun hcounted => if_pos (Bool.eq_false_iff.mp hcounted)⟩
    case open_ => simp only [hquill]
    case failed => simp only [hquill, hst, ne_eq, not_false_eq_true, if_true]; rfl
    case well => simp only [hquill, ne_eq, not_true_eq_false, if_false]; rfl
  case fetch =>
    exact fun hop hmoved herr => H.found hop rfl ((if_pos hmoved).trans (State.complete_of_none hcmd herr _ _))
  case release => exact fun hop => H.found hop rfl rfl
end

section
/-! The instructions of the cores (R157 to R161, R168, R428, R429): one executes where its core does and the next word holds its opcode;
what it leaves of its core, and the Scribe's instruction point leaves of every core. -/
namespace Sys2Proof.Machine
open Sys2Proof

/-! ### An instruction executes -/

section Instr
variable {s : State} {core : Fin 17} {op : Nat}

/-- An instruction does nothing where its core does not execute, or the next word holds another opcode. -/
theorem State.instr_idle (h : ¬ ((s.coreUp core.val = true ∧ (s.core core.val).executes = true) ∧ fld (s.core core.val).word 31 26 = op))
    (f : State → Ins → State) : s.instr core op f = .next s :=
  if_neg fun ⟨hup, hexec, hop⟩ => h ⟨⟨hup, hexec⟩, hop⟩

variable (hup : s.coreUp core.val = true) (hexec : (s.core core.val).executes = true) (hop : fld (s.core core.val).word 31 26 = op)
include hup hexec hop

/-- A perturbation of the word takes the instruction's place (R435). -/
theorem State.instr_fault {why : CoreFault} (hwhy : (s.scribePoint core.val).2 = some why) (f : State → Ins → State) :
    s.instr core op f = looked s ((s.scribePoint core.val).1.coreMeets core.val why) := by
  unfold State.instr
  simp only [hup, hexec, hop, hwhy, and_self, if_true]
theorem State.instr_goes (hnone : (s.scribePoint core.val).2 = none) (f : State → Ins → State) :
    s.instr core op f = looked s (f (s.scribePoint core.val).1 (s.core core.val).ins) := by
  unfold State.instr
  simp only [hup, hexec, hop, hnone, and_self, if_true]

end Instr

/-! ### The instructions that write D from their operands, and the branches (R158) -/

theorem exec_qAdd (core : Fin 17) (s : State) : exec (.qAdd core) s = s.alu core 0x00 (fun i => i.a + i.b) := rfl
theorem exec_qAddi (core : Fin 17) (s : State) : exec (.qAddi core) s = s.alu core 0x01 (fun i => i.a + i.simm) := rfl
theorem exec_qSub (core : Fin 17) (s : State) : exec (.qSub core) s = s.alu core 0x02 (fun i => i.a - i.b) := rfl
theorem exec_qAnd (core : Fin 17) (s : State) : exec (.qAnd core) s = s.alu core 0x03 (fun i => i.a &&& i.b) := rfl
theorem exec_qOr (core : Fin 17) (s : State) : exec (.qOr core) s = s.alu core 0x04 (fun i => i.a ||| i.b) := rfl
theorem exec_qXor (core : Fin 17) (s : State) : exec (.qXor core) s = s.alu core 0x05 (fun i => i.a ^^^ i.b) := rfl
theorem exec_qShli (core : Fin 17) (s : State) : exec (.qShli core) s = s.alu core 0x06 (fun i => i.a <<< (i.imm % 32)) := rfl
theorem exec_qShri (core : Fin 17) (s : State) : exec (.qShri core) s = s.alu core 0x07 (fun i => i.a >>> (i.imm % 32)) := rfl
theorem exec_qLui (core : Fin 17) (s : State) : exec (.qLui core) s = s.alu core 0x08 (fun i => BitVec.ofNat 32 i.imm <<< 18) := rfl
theorem exec_qBeq (core : Fin 17) (s : State) : exec (.qBeq core) s = s.branch core 0x0B (fun i => i.a == i.b) := rfl
theorem exec_qBne (core : Fin 17) (s : State) : exec (.qBne core) s = s.branch core 0x0C (fun i => i.a != i.b) := rfl
theorem exec_qBltu (core : Fin 17) (s : State) : exec (.qBltu core) s = s.branch core 0x0D (fun i => decide (i.a.toNat < i.b.toNat)) := rfl
/-- Such an instruction is one of its opcode. -/
theorem instr_of_alu {i : Instr} {s : State} {core : Fin 17} {op : Nat} {g : Ins → Word} (h : exec i s = s.alu core op g) :
    ∃ f, exec i s = s.instr core op f := ⟨_, h⟩
theorem instr_of_branch {i : Instr} {s : State} {core : Fin 17} {op : Nat} {g : Ins → Bool} (h : exec i s = s.branch core op g) :
    ∃ f, exec i s = s.instr core op f := ⟨_, h⟩

/-! ### What an instruction leaves of its core -/

theorem looked_of_none {s u : State} (h : u.cache.wanted = none) : looked s u = .next (settle s u) := by
  unfold looked State.waited
  rw [h]
  rfl

theorem State.core_self {s : State} (hc : s.canon = true) (c : Nat) (f : Core → Core) : (s.modCore c f).core c = f (s.core c) := by
  unfold State.core State.modCore
  by_cases h : c = 16
  · simp only [h, if_true]
  · simp only [h, if_false, State.cluster_self hc]
@[simp] theorem settle_core (s u : State) (c : Nat) : (settle s u).core c = u.core c := by
  obtain ⟨g, b, h⟩ := settle_frame s u
  rw [h]
  rfl

/-- The state u has core c at k, and the lanes of s. -/
structure HasCore (s u : State) (c : Nat) (k : Core) : Prop where
  wanted : u.cache.wanted = s.cache.wanted
  lanes : u.lanes = s.lanes
  core : s.canon = true → u.canon = true ∧ u.core c = k

theorem HasCore.modCore {s u : State} {c : Nat} {k : Core} (h : HasCore s u c k) (f : Core → Core) : HasCore s (u.modCore c f) c (f k) where
  wanted := by rw [State.modCore_cache, h.wanted]
  lanes := by rw [State.modCore_lanes, h.lanes]
  core hc := by
    obtain ⟨hcanon, hk⟩ := h.core hc
    exact ⟨(State.modCore_ok u c f (State.ok_self hcanon)).2, by rw [State.core_self hcanon, hk]⟩
/-- The Scribe's instruction point draws on its generators, and may record what fires (R435). -/
theorem State.scribePoint_frame (s : State) (c : Nat) : Perturbs s (s.scribePoint c).1 := by
  unfold State.scribePoint
  split
  · exact s.opportunity_frame 0xF000 9
  · exact .refl s
theorem State.scribePoint_core (s : State) (c d : Nat) : (s.scribePoint c).1.core d = s.core d := by
  obtain ⟨r, x, b, h⟩ := s.scribePoint_frame c
  rw [h]
  rfl
theorem State.scribePoint_hasCore (s : State) (c : Nat) : HasCore s (s.scribePoint c).1 c (s.core c) := by
  obtain ⟨r, x, b, h⟩ := s.scribePoint_frame c
  exact ⟨by rw [h], by rw [h], fun hc => ⟨(State.fst_of (State.scribePoint_ok s c (State.ok_self hc))).2, s.scribePoint_core c c⟩⟩

/-- A core's registers after a write of one of them: Q0 stays zero (R157). -/
theorem Core.q_setQ {k : Core} (hrising : Tab.rising k.regs = true) (d n : Nat) (v : Word) :
    (k.setQ d v).q n = if n = d ∧ n ≠ 0 then v else k.q n := by
  unfold Core.setQ Core.q
  by_cases hd : d = 0
  · subst hd
    by_cases hn : n = 0 <;> simp [hn]
  · by_cases hnd : n = d
    · subst hnd
      simp [hd, Tab.getD_setD_self _ hrising]
    · simp [hd, hnd, Tab.getD_setD_ne _ hnd]
/-- A write of a register writes nothing else of its core. -/
theorem Core.setQ_frame (k : Core) (d : Nat) (v : Word) : ∃ r, k.setQ d v = { k with regs := r } := by
  unfold Core.setQ
  split
  · exact ⟨k.regs, rfl⟩
  · exact ⟨_, rfl⟩

/-- A branch's program counter. -/
theorem State.jump_ite (t : State) (c x y : Nat) {g : Bool} {q : Prop} [Decidable q] (hg : g = true ↔ q) :
    (if g then t.jump c x else t.jump c y) = t.modCore c (fun k => { k with pc := if q then x % 65536 else y % 65536 }) := by
  by_cases h : q
  · rw [if_pos (hg.mpr h), if_pos h]; rfl
  · rw [if_neg (mt hg.mp h), if_neg h]; rfl

end Sys2Proof.Machine

open Sys2Proof Sys2Proof.Machine

/-- Settles O53: an instruction is `State.instr` of its effect, which draws at the Scribe's instruction point, changes its core and moves
its program counter (`HasCore`); a write of D is `Core.setQ`. -/
theorem quillArithmetic : Obligations.QuillArithmetic := by
  unfold Obligations.QuillArithmetic
  intro s core hwanted c k w a b imm simm next target p up all leaves goes sets
  have hinstr : ∀ e ∈ all, ∃ f, exec e.1 s = s.instr core e.2 f := by
    simp only [all, List.forall_mem_cons]
    exact ⟨instr_of_alu (exec_qAdd core s), instr_of_alu (exec_qAddi core s),
      instr_of_alu (exec_qSub core s), instr_of_alu (exec_qAnd core s), instr_of_alu (exec_qOr core s),
      instr_of_alu (exec_qXor core s), instr_of_alu (exec_qShli core s), instr_of_alu (exec_qShri core s),
      instr_of_alu (exec_qLui core s), ⟨_, show execQLd core s = _ from rfl⟩, ⟨_, show execQSt core s = _ from rfl⟩,
      instr_of_branch (exec_qBeq core s), instr_of_branch (exec_qBne core s),
      instr_of_branch (exec_qBltu core s), ⟨_, show execQJal core s = _ from rfl⟩, ⟨_, show execQJr core s = _ from rfl⟩,
      ⟨_, show execQWaitev core s = _ from rfl⟩, List.forall_mem_nil _⟩
  refine ⟨fun e he => ?_, fun ⟨hup, hexec⟩ hnone => ?_⟩
  · obtain ⟨f, hf⟩ := hinstr e he
    exact ⟨fun hnot => hf.trans (State.instr_idle hnot f),
      fun why ⟨hup, hexec⟩ hop hwhy => found_of_looked (hf.trans (State.instr_fault hup hexec hop hwhy f))⟩
  have hlooked : ∀ {i : Instr} {op : Nat} {f : State → Ins → State} {u : State}, exec i s = s.instr core op f → f p k.ins = u →
      fld w 31 26 = op → exec i s = looked s u := fun hi hu hop =>
    hi.trans ((State.instr_goes hup hexec hop hnone _).trans (congrArg _ hu))
  have hp : HasCore s p c k := s.scribePoint_hasCore c
  have hleaves : ∀ {i : Instr} {op : Nat} {f : State → Ins → State} {u : State} {pc : Nat} {l : List Word} {m : Tab Word} {F : Nat → Word}
      {K : Core}, HasCore s u c K → exec i s = s.instr core op f → f p k.ins = u.modCore c (fun q => { q with pc := pc }) →
      (Tab.rising k.regs = true → K.iram = m ∧ K.events = l ∧ (∀ n, K.q n = F n) ∧ K.state = k.state) → leaves i op u pc l m F := by
    intro i op f u pc l m F K hu hi hf hK hop
    obtain ⟨hcache, hlanes, hcore⟩ := hu.modCore (fun q => { q with pc := pc })
    refine ⟨_, (hlooked hi hf hop).trans (looked_of_none (hcache.trans hwanted)), alike_settle _ _, fun hc hr => ?_⟩
    obtain ⟨hiram, hevents, hq, hstate⟩ := hK hr
    rw [settle_core, (hcore hc).2]
    exact ⟨rfl, hiram, hevents, hq, fun g _ => by rw [settle_lane, State.lane, hlanes, State.lane], hstate⟩
  have hgoes : ∀ {i : Instr} {op : Nat} {f : State → Ins → State} {pc : Nat}, exec i s = s.instr core op f →
      f p k.ins = p.modCore c (fun q => { q with pc := pc }) → goes i op pc := fun hi hf =>
    hleaves hp hi hf fun _ => ⟨rfl, rfl, fun _ => rfl, rfl⟩
  have hwritten : ∀ (k : Core) (v : Word), Tab.rising k.regs = true → (k.setQ (fld w 25 22) v).iram = k.iram ∧
      (k.setQ (fld w 25 22) v).events = k.events ∧ (∀ n, (k.setQ (fld w 25 22) v).q n = if n = fld w 25 22 ∧ n ≠ 0 then v else k.q n) ∧
      (k.setQ (fld w 25 22) v).state = k.state := fun k v hr => by
    obtain ⟨r, hframe⟩ := k.setQ_frame (fld w 25 22) v
    exact ⟨by rw [hframe], by rw [hframe], fun n => Core.q_setQ hr _ n v, by rw [hframe]⟩
  have hsets : ∀ {i : Instr} {op : Nat} {f : State → Ins → State} {v : Word} {pc : Nat}, exec i s = s.instr core op f →
      f p k.ins = (p.modCore c (fun q => q.setQ (fld w 25 22) v)).modCore c (fun q => { q with pc := pc }) → sets i op v pc := fun {i op f v pc} hi hf =>
    hleaves (hp.modCore _) hi hf (hwritten k v)
  have halu : ∀ {i : Instr} {op : Nat} {v : Ins → Word}, exec i s = s.alu core op v → sets i op (v k.ins) next := fun hi => hsets hi rfl
  have hbranch : ∀ {i : Instr} {op : Nat} {v : Ins → Bool} {q : Prop} [Decidable q], exec i s = s.branch core op v → (v k.ins = true ↔ q) →
      goes i op (if q then target else next) := fun hi hq => hgoes hi (State.jump_ite p c _ _ hq)
  have hcore : p.core core.val = k := s.scribePoint_core c c
  have hdata : ∀ {o}, dataWord c (a + simm) = o → dataWord core.val (k.ins.a + k.ins.simm) = o := fun h => h
  refine ⟨(halu (exec_qAdd core s) :), (halu (exec_qAddi core s) :), (halu (exec_qSub core s) :), (halu (exec_qAnd core s) :),
    (halu (exec_qOr core s) :), (halu (exec_qXor core s) :), (halu (exec_qShli core s) :), (halu (exec_qShri core s) :),
    (halu (exec_qLui core s) :), fun j hj => ⟨?load, ?store⟩, fun hnot => ⟨fun hop => ?loadFault, fun hop => ?storeFault⟩,
    (hbranch (exec_qBeq core s) beq_iff_eq :), ?bne, (hbranch (exec_qBltu core s) decide_eq_true_iff :), ?jal, ?jr,
    fun hop hempty => ?waits, fun e l hevents => ?event⟩
  case load =>
    refine hsets (show execQLd core s = _ from rfl) ?_
    simp only [hdata hj, hcore]
    rfl
  case store =>
    refine hleaves (hp.modCore _) (show execQSt core s = _ from rfl) ?_ fun _ => ⟨rfl, rfl, fun _ => rfl, rfl⟩
    simp only [hdata hj]
    rfl
  case loadFault =>
    refine found_of_looked (hlooked (i := .qLd core) (show execQLd core s = _ from rfl) ?_ hop)
    simp only [hdata hnot]
    rfl
  case storeFault =>
    refine found_of_looked (hlooked (i := .qSt core) (show execQSt core s = _ from rfl) ?_ hop)
    simp only [hdata hnot]
    rfl
  case bne =>
    rw [← ite_not]
    exact (hbranch (exec_qBne core s) bne_iff_ne :)
  case jal => exact hsets (show execQJal core s = _ from rfl) rfl
  case jr => exact hgoes (show execQJr core s = _ from rfl) rfl
  case waits =>
    refine yields_of_done ((hlooked (i := .qWaitev core) (show execQWaitev core s = _ from rfl) ?_ hop).trans (looked_of_none (hp.wanted.trans hwanted)))
    simp only [hcore, hempty]
  case event =>
    refine hleaves ((hp.modCore _).modCore _) (show execQWaitev core s = _ from rfl) ?_ (hwritten { k with events := l } _)
    simp only [hcore, hevents]
    rfl
end

section
/-! What the cores do with commands, strokes and control registers, and their timers and faults (R159 to R161, R168, R428, R429). -/
namespace Sys2Proof.Machine
open Sys2Proof

/-! ### Strokes committed by a core (R168) -/

/-- A commit that is not accepted makes at most the hand-over that was due before it (R149). -/
theorem State.commitFrom_refused {s : State} {rom : Bool} {g id : Nat} {ps : List Word} {byBlock byScribe : Bool}
    (h : (s.commitFrom rom g id ps byBlock byScribe).2 ≠ 0) : (s.commitFrom rom g id ps byBlock byScribe).1 = s.castleDue g := by
  unfold State.commitFrom at h ⊢
  dsimp only at h ⊢
  by_cases hr : (if byBlock = true ∨ ¬ (s.castleDue g).barred g ((s.castleDue g).entryFor g id rom) ps = true then
      (s.castleDue g).commitResult g ((s.castleDue g).entryFor g id rom) ps byScribe else 2) ≠ 0
  · rw [if_pos hr]
  · exact absurd (congrArg Prod.snd (if_neg hr)) h

/-! ### DONE and DEFER (R160, R181, R430) -/

section QuillEnd
variable {s : State} {c h : Nat}

theorem State.quillDone_none (hcmd : s.cmd? c h = none) (st : Nat) (byScribe : Bool) : s.quillDone c h st byScribe = s := by
  unfold State.quillDone
  simp only [hcmd]
theorem State.defer_none (hcmd : s.cmd? c h = none) (reason : Nat) : s.defer c h reason = s := by
  unfold State.defer
  simp only [hcmd]

variable {x : Cmd} (hcmd : s.cmd? c h = some x)
include hcmd

/-- A code outside the table of R205 ends nothing. -/
theorem State.quillDone_noStatus {st : Nat} (hst : statusCodes.contains st = false) (byScribe : Bool) : s.quillDone c h st byScribe = s := by
  unfold State.quillDone
  simp only [hcmd, hst, Bool.false_eq_true, not_false_eq_true, if_true]
theorem State.quillDone_inService {st : Nat} (hst : statusCodes.contains st = true) (hservice : x.inService = true) (byScribe : Bool) :
    s.quillDone c h st byScribe = (s.modCmd c h (fun y => { y with quill := some st, deferred := false })).tableSync x.lane := by
  unfold State.quillDone
  simp only [hcmd, hst, hservice, not_true_eq_false, if_true, if_false]
theorem State.quillDone_overrun {st : Nat} (hst : statusCodes.contains st = true) (hservice : x.inService = false) (hstage : x.stage = .pending) :
    s.quillDone c h st true = s.overrunDone c h st x := by
  unfold State.quillDone
  simp only [hcmd, hst, hservice, hstage, Bool.false_eq_true, not_true_eq_false, and_self, if_true, if_false]
/-- A command that is not in service is ended by no core, but by the Scribe where it waits for its dispatch. -/
theorem State.quillDone_stray (hservice : x.inService = false) {byScribe : Bool} (hnot : byScribe = false ∨ x.stage ≠ .pending) (st : Nat) :
    s.quillDone c h st byScribe = s := by
  have hnot' : ¬ (byScribe = true ∧ x.stage = .pending) := fun h => hnot.elim (fun hf => Bool.false_ne_true (hf.symm.trans h.1)) (· h.2)
  unfold State.quillDone
  simp only [hcmd, hservice, hnot', Bool.false_eq_true, if_false, ite_self]

theorem State.defer_passed (hservice : x.inService = true) (hscribe : s.scribeUp = true) (reason : Nat) : s.defer c h reason =
    (s.modCmd c h (fun y => { y with deferred := true })).toScribe x.lane 1 (h + 2 ^ 11 * reason) := by
  unfold State.defer
  simp only [hcmd, hservice, hscribe, not_true_eq_false, if_true, if_false]
theorem State.defer_lost (hservice : x.inService = true) (hscribe : s.scribeUp = false) (reason : Nat) :
    s.defer c h reason = s.endOrHold c h stDeferred 0 := by
  unfold State.defer
  simp only [hcmd, hservice, hscribe, not_true_eq_false, Bool.false_eq_true, if_false]
theorem State.defer_stray (hservice : x.inService = false) (reason : Nat) : s.defer c h reason = s := by
  unfold State.defer
  simp only [hcmd, hservice, Bool.false_eq_true, not_false_eq_true, if_true]

end QuillEnd

/-! ### Control registers (R160, R428) -/

section Csr
variable {s : State} {c n : Nat} {v : Word}

/-- A timer is set. -/
theorem State.csrWrite_timer (hlow : 8 ≤ n) (hhigh : n ≤ 11) (hv : v ≠ 0) (hfits : v.toNat ≤ 65535) : s.csrWrite c n v =
    s.modCore c (fun k => { k with timers := Tab.put k.timers (n - 8) (s.time.toNat + v.toNat * 100) }) := by
  unfold State.csrWrite
  rw [if_pos ⟨hlow, hhigh⟩, if_neg hv, if_pos hfits]
/-- A timer is stopped. -/
theorem State.csrWrite_stop (hlow : 8 ≤ n) (hhigh : n ≤ 11) : s.csrWrite c n 0 =
    s.modCore c (fun k => { k with timers := Tab.erase k.timers (n - 8) }) := by
  unfold State.csrWrite
  rw [if_pos ⟨hlow, hhigh⟩, if_pos rfl]
/-- The Scribe kicks its watchdog. -/
theorem State.csrWrite_kick (hblocked : s.kickBlocked = false) :
    s.csrWrite 16 13 v = s.modCore 16 (fun k => { k with kick := s.time.toNat }) := by
  simp [State.csrWrite, hblocked]

end Csr

/-! ### Timers (R160) -/

theorem exec_quillTimer {s : State} {core : Fin 17} {n : Fin 4} {t : Nat} (hup : s.coreUp core.val = true)
    (hexec : (s.core core.val).executes = true) (htimer : Tab.find? (s.core core.val).timers n.val = some t) (hdue : t ≤ s.time.toNat) :
    exec (.quillTimer core n) s = done s ((s.modCore core.val (fun q => { q with timers := Tab.erase q.timers n.val })).postTo core.val
      (eventWord 5 0 n.val)) := by
  show execQuillTimer core n s = _
  unfold execQuillTimer
  simp only [htimer]
  exact if_pos ⟨hup, hexec, hdue⟩

end Sys2Proof.Machine

open Sys2Proof Sys2Proof.Machine

/-- Settles O54: an instruction is `State.instr_goes` of its effect; DONE is `State.quillDone`, DEFER `State.defer`, CSRW `State.csrWrite` and
STRK `State.strk`, case by case. -/
theorem quillControl : Obligations.QuillControl := by
  unfold Obligations.QuillControl
  intro s core c k w a b imm p step ends sets h g hup hexec
  refine ⟨fun hnone => ?_, fun n t htimer hdue => ?timer, fun why hmet => ?fault, fun hop => ?illegal, fun op hop hw hword => ?address,
    ?causes, rfl, rfl, fun hquill => ?codes⟩
  case timer => exact yields_of_done (exec_quillTimer hup hexec htimer hdue)
  case fault => exact found_of_looked (if_pos ⟨hup, hexec, hmet⟩)
  case illegal => exact decide_eq_true hop
  case address =>
    have hdata : dataWord c ((s.core c).ins.a + (s.core c).ins.simm) = none := hword
    obtain rfl | rfl := hop
    · simp [State.faultMet, hdata, show fld (s.core c).word 31 26 = 9 from hw]
    · simp [State.faultMet, hdata, show fld (s.core c).word 31 26 = 10 from hw]
  case causes => rintro why (rfl | rfl | rfl | rfl) <;> rfl
  case codes => exact ⟨if_neg hquill, if_neg hquill, if_neg hquill, if_neg hquill⟩
  have hfound : ∀ {i : Instr} {op : Nat} {f : State → Ins → State} {u : State}, exec i s = s.instr core op f → f p k.ins = u →
      fld w 31 26 = op → Found i s u :=
    fun hi hf hop => found_of_looked (hi.trans ((State.instr_goes hup hexec hop hnone _).trans (congrArg _ hf)))
  have hends : ∀ {i : Instr} {op : Nat} {f : State → Ins → State} {u : State}, exec i s = s.instr core op f → f p k.ins = step u → ends i op u :=
    fun hi hf => hfound hi hf
  have hhandle : handleOf core.val k.ins.a = h := rfl
  have himm : k.ins.imm = imm := rfl
  refine ⟨fun hcmd => ?free, fun x hcmd => ?held, hends (show execQPset core s = _ from rfl) ?pset, ?strk,
    fun hn => hends (show execQCsrr core s = _ from rfl) ?time, fun hn => hends (show execQCsrr core s = _ from rfl) ?count,
    fun hn => hends (show execQCsrr core s = _ from rfl) ?other,
    fun hlow hhigh hne hfits => hends (show execQCsrw core s = _ from rfl) ?timerSet,
    fun hlow hhigh hzero => hends (show execQCsrw core s = _ from rfl) ?timerStop,
    fun hc hn hblocked => hends (show execQCsrw core s = _ from rfl) ?kick, hfound (show execQReady core s = _ from rfl) ?ready⟩
  case free =>
    refine ⟨hends (show execQCmdrd core s = _ from rfl) ?noField, hends (show execQMawrow core s = _ from rfl) ?noRow,
      hends (show execQDone core s = _ from rfl) ?noDone, hends (show execQDefer core s = _ from rfl) ?noDefer⟩
    case noField => exact congrArg (fun v => step (sets v p)) (by simp only [hhandle, hcmd])
    case noRow => exact congrArg (fun v => step (sets v p)) (by simp only [hhandle, hcmd]; rfl)
    case noDone => exact congrArg step (State.quillDone_none hcmd _ _)
    case noDefer => exact congrArg step (State.defer_none hcmd _)
  case held =>
    intro m
    have hdone : ∀ {u}, p.quillDone h.1 h.2 (fld b 7 0) (decide (c = 16)) = u → ends (.qDone core) 0x15 u := fun hu =>
      hends (show execQDone core s = _ from rfl) (congrArg step hu)
    have hdefer : ∀ {u}, p.defer h.1 h.2 (imm % 256) = u → ends (.qDefer core) 0x16 u := fun hu =>
      hends (show execQDefer core s = _ from rfl) (congrArg step hu)
    refine ⟨hends (show execQCmdrd core s = _ from rfl) ?field, hends (show execQMawrow core s = _ from rfl) ?row,
      fun hservice hst => hdone (State.quillDone_inService hcmd hst hservice _), fun hst => hdone (State.quillDone_noStatus hcmd hst _),
      fun hservice hc hstage hst => hdone ?overrun, fun hservice hup => hdefer (State.defer_passed hcmd hservice hup _),
      fun hservice hlost => hdefer (State.defer_lost hcmd hservice hlost _),
      fun hservice hnot => hdone (State.quillDone_stray hcmd hservice (hnot.imp_left fun hc => decide_eq_false hc) _),
      fun hservice => hdefer (State.defer_stray hcmd hservice _)⟩
    case field => exact congrArg (fun v => step (sets v p)) (by simp only [hhandle, hcmd, himm])
    case row => exact congrArg (fun v => step (sets v p)) (by simp only [hhandle, hcmd, himm]; rfl)
    case overrun =>
      rw [decide_eq_true hc]
      exact State.quillDone_overrun hcmd hst hservice hstage
  case pset => rfl
  case strk =>
    intro ps r q
    exact ⟨hends (show execQStrk core s = _ from rfl) rfl, State.commitFrom_refused, fun hrom hnot => if_pos ⟨hrom, hnot⟩,
      fun hmay => if_neg fun ⟨hrom, hnot⟩ => hmay.elim (· hrom) (fun h => Bool.false_ne_true (h.symm.trans hnot))⟩
  case time => exact congrArg (fun v => step (sets v p)) (by simp only [himm, hn])
  case count => exact congrArg (fun v => step (sets v p)) (by simp only [himm, hn]; rfl)
  case other =>
    obtain ⟨n, hn⟩ : ∃ n, imm % 32 = n + 5 := ⟨_, (Nat.sub_add_cancel hn).symm⟩
    exact congrArg (fun v => step (sets v p)) (by simp only [himm, hn])
  case timerSet => exact congrArg step (State.csrWrite_timer hlow hhigh hne hfits)
  case timerStop => exact congrArg step ((congrArg (p.csrWrite c _) hzero).trans (State.csrWrite_stop hlow hhigh))
  case kick => exact congrArg step ((congrArg₂ (fun c n => p.csrWrite c n k.ins.a) hc hn).trans (State.csrWrite_kick hblocked))
  case ready => rfl
end

section
/-! The start of a stroke (R121, R166 to R168, R172, R175, R179): the fetch of its elements, then the checks in their order. -/
namespace Sys2Proof.Machine
open Sys2Proof

/-! ### What the fetch of a stroke finds -/

section Fetch
variable {s : State} {g : Nat} {st : Stroke}

theorem State.strokeFetch_corrected {row : Nat} (hrow : s.strokeRow g st = some row) :
    s.strokeFetch g st .corrected = (s.corrected (0x181 + 2 * (g / 8)) row, false) := by
  unfold State.strokeFetch
  rw [hrow]
theorem State.strokeFetch_uncorrectable {row : Nat} (hrow : s.strokeRow g st = some row) : s.strokeFetch g st .uncorrectable =
    ((s.blot (clA (g / 8) 0) 0x18 none [BitVec.ofNat 32 (g / 8), BitVec.ofNat 32 st.id]).uncorrRow (0x181 + 2 * (g / 8)) row, true) := by
  unfold State.strokeFetch
  rw [hrow]
theorem State.strokeFetch_clean : s.strokeFetch g st .clean = (s, false) := by
  unfold State.strokeFetch
  cases s.strokeRow g st <;> rfl

end Fetch

/-! ### The start of a stroke -/

section Start
variable {s : State} {lane : Fin 128} {st : Stroke} {l : List Stroke}

/-- The state in which the checks of a stroke's start are made, behind the fetch of its elements; and whether that finds them lost. -/
def State.fetched (s : State) (g : Nat) (st : Stroke) (ecc : Ecc) : State × Bool := (s.opportunity (lnA g 0) 0).1.strokeFetch g st ecc
/-- A stroke whose elements stand in the store as e starts, is refused or waits. -/
def State.startOf (s u : State) (g : Nat) (st : Stroke) (e : Entry) : Out :=
  if ¬ (s.lane g).besides st e then idle s
  else if s.glb.mode = .endgame ∧ ¬ u.classOk g (pDie st.params) e.cls true then idle s
  else if ¬ (u.paramOk g st.params ∧ u.classOk g (pDie st.params) e.cls true) then looked s (u.dropStroke g st)
  else if ¬ st.byBlock ∧ u.barred g (some e) st.params then looked s (u.dropStroke g st)
  else if s.glb.mode ≠ .endgame ∧ ¬ (s.lane g).mpAdmits (pDie st.params) e.cls then
    if st.byBlock ∧ e.cls = 8 then looked s (s.modLane g (fun l => { l with strokes := l.strokes.drop 1 ++ [st] }))
    else looked s (u.dropStroke g st)
  else if u.roomFor g st e then looked s (u.beginStroke g st e)
  else idle s
/-- The start goes on with what the fetch has found. -/
def State.startWith (s : State) (u : State × Bool) (g : Nat) (st : Stroke) : Out :=
  if u.2 then looked s (u.1.dropStroke g st)
  else match u.1.strokeEntry g st with
    | none => looked s (u.1.dropStroke g st)
    | some e => s.startOf u.1 g st e

/-- Stroke st is at the head of the queue of a lane that works and runs none, with l behind it. -/
structure State.Heads (s : State) (g : Nat) (st : Stroke) (l : List Stroke) : Prop where
  work : s.laneWork = true
  up : s.laneUp g = true
  free : (s.lane g).run = none
  queue : (s.lane g).strokes = st :: l

theorem State.Heads.start (H : s.Heads lane.val st l) (ecc : Ecc) :
    exec (.strokeStart lane ecc) s = s.startWith (s.fetched lane.val st ecc) lane.val st := by
  rw [show exec (.strokeStart lane ecc) s = execStrokeStart lane ecc s from rfl]
  unfold execStrokeStart
  simp only [H.work, H.up, H.free, H.queue, Option.isNone_none, and_self, if_true]
  rfl

variable {ecc : Ecc} (H : s.Heads lane.val st l)
include H

theorem State.Heads.lost (hlost : (s.fetched lane.val st ecc).2 = true) :
    exec (.strokeStart lane ecc) s = looked s ((s.fetched lane.val st ecc).1.dropStroke lane.val st) :=
  (H.start ecc).trans (if_pos hlost)
variable (hfound : (s.fetched lane.val st ecc).2 = false)
include hfound
theorem State.Heads.unknown (hentry : (s.fetched lane.val st ecc).1.strokeEntry lane.val st = none) :
    exec (.strokeStart lane ecc) s = looked s ((s.fetched lane.val st ecc).1.dropStroke lane.val st) := by
  rw [H.start, State.startWith]
  simp only [hfound, hentry, Bool.false_eq_true, if_false]
theorem State.Heads.known {e : Entry} (hentry : (s.fetched lane.val st ecc).1.strokeEntry lane.val st = some e) :
    exec (.strokeStart lane ecc) s = s.startOf (s.fetched lane.val st ecc).1 lane.val st e := by
  rw [H.start, State.startWith]
  simp only [hfound, hentry, Bool.false_eq_true, if_false]

end Start

/-! ### The checks of a start (R121, R168, R172, R175, R179) -/

section Checks
variable {s u : State} {g : Nat} {st : Stroke} {e : Entry}

theorem State.startOf_beside (h : (s.lane g).besides st e = false) : s.startOf u g st e = .next s :=
  if_pos (Bool.eq_false_iff.mp h)
variable (hbeside : (s.lane g).besides st e = true)
include hbeside
/-- In ENDGAME a stroke waits for its LUN (R411). -/
theorem State.startOf_endgame (hmode : s.glb.mode = .endgame) (h : u.classOk g (pDie st.params) e.cls true = false) :
    s.startOf u g st e = .next s :=
  (if_neg (not_not_intro hbeside)).trans (if_pos ⟨hmode, Bool.eq_false_iff.mp h⟩)

variable (hmode : s.glb.mode ≠ .endgame)
include hmode
theorem State.startOf_unfit (h : ¬ (u.paramOk g st.params = true ∧ u.classOk g (pDie st.params) e.cls true = true)) :
    s.startOf u g st e = looked s (u.dropStroke g st) := by
  unfold State.startOf
  rw [if_neg (not_not_intro hbeside), if_neg fun ⟨hend, _⟩ => hmode hend, if_pos h]
variable (hfits : u.paramOk g st.params = true ∧ u.classOk g (pDie st.params) e.cls true = true)
include hfits
theorem State.startOf_barred (hblock : st.byBlock = false) (hbarred : u.barred g (some e) st.params = true) :
    s.startOf u g st e = looked s (u.dropStroke g st) := by
  unfold State.startOf
  rw [if_neg (not_not_intro hbeside), if_neg fun ⟨hend, _⟩ => hmode hend, if_neg (not_not_intro hfits),
    if_pos ⟨Bool.eq_false_iff.mp hblock, hbarred⟩]
variable (hallowed : ¬ (st.byBlock = false ∧ u.barred g (some e) st.params = true))
include hallowed
/-- Behind an open multi-plane sequence of another LUN the engine's own reset waits, and another stroke is dropped (R172, R177). -/
theorem State.startOf_open (hopen : (s.lane g).mpAdmits (pDie st.params) e.cls = false) : s.startOf u g st e =
    if st.byBlock ∧ e.cls = 8 then looked s (s.modLane g (fun l => { l with strokes := l.strokes.drop 1 ++ [st] }))
    else looked s (u.dropStroke g st) := by
  unfold State.startOf
  rw [if_neg (not_not_intro hbeside), if_neg fun ⟨hend, _⟩ => hmode hend, if_neg (not_not_intro hfits),
    if_neg fun ⟨hblock, hbarred⟩ => hallowed ⟨Bool.eq_false_iff.mpr hblock, hbarred⟩, if_pos ⟨hmode, Bool.eq_false_iff.mp hopen⟩]
theorem State.startOf_admitted (hopen : ¬ (s.lane g).mpAdmits (pDie st.params) e.cls = false) : s.startOf u g st e =
    if u.roomFor g st e then looked s (u.beginStroke g st e) else .next s := by
  unfold State.startOf
  rw [if_neg (not_not_intro hbeside), if_neg fun ⟨hend, _⟩ => hmode hend, if_neg (not_not_intro hfits),
    if_neg fun ⟨hblock, hbarred⟩ => hallowed ⟨Bool.eq_false_iff.mpr hblock, hbarred⟩,
    if_neg fun ⟨_, hclosed⟩ => hopen (Bool.eq_false_iff.mpr hclosed)]
  rfl

end Checks

/-- A stroke that is no RESET starts without a question to the cache. -/
theorem State.beginStroke_cache {u : State} {e : Entry} (hcls : e.cls ≠ 8) (g : Nat) (st : Stroke) : (u.beginStroke g st e).cache = u.cache := by
  unfold State.beginStroke
  simp only [hcls, false_and, if_false]
  split <;> rfl

end Sys2Proof.Machine
end

section
/-! The elements of a stroke (R166): each is taken from the stroke that runs, or else from the one that waits with its CE_N released (R175). -/
namespace Sys2Proof.Machine
open Sys2Proof

/-! ### An element is taken (R166) -/

/-- Word w is the next element, with l behind it, of stroke r: the one that runs on the lane, else the one that waits with its CE_N
released; and the lane works. -/
structure State.Takes (s : State) (g : Nat) (r : Running) (w : Word) (l : List Word) : Prop where
  work : s.laneWork = true
  up : s.laneUp g = true
  elems : r.elems = w :: l
  current : (s.lane g).run = some r ∨ ((s.lane g).run = none ∧ (s.lane g).waiting = some r)

section Elements
variable {s : State} {g : Nat} {r : Running} {w : Word} {l : List Word}

theorem Lane.current_of {q : Lane} (h : q.run = some r ∨ (q.run = none ∧ q.waiting = some r)) : q.current = some r := by
  unfold Lane.current
  obtain hrun | ⟨hrun, hwaiting⟩ := h
  · rw [hrun]; rfl
  · rw [hrun, hwaiting]; rfl
theorem State.Takes.element (H : s.Takes g r w l) {kind : Nat} (hkind : fld w 31 28 = kind) (f : Running → Word → State → State) :
    s.element g kind f = .next (settle s (f r w (s.modLane g (fun q => q.advance r l)))) := by
  unfold State.element
  simp only [Lane.current_of H.current, H.elems, H.work, H.up, hkind, and_self, if_true]
  rfl
/-- An element's command has the effect that its kind gives it. -/
theorem State.Takes.goes (H : s.Takes g r w l) {i : Instr} {kind : Nat} {f : Running → Word → State → State} {t : State}
    (hexec : exec i s = s.element g kind f) (hkind : fld w 31 28 = kind) (hf : f r w (s.modLane g (fun q => q.advance r l)) = t) :
    exec i s = .next (settle s t) := by
  rw [hexec, H.element hkind, hf]

variable {u : State}

/-! ### The address cycles of an ADDR element -/

theorem State.addrBytes_col (h : fld w 1 0 = 0) : u.addrBytes g r w = leBytes (u.geo g).colC (pw r.stroke.params 2).toNat := by
  unfold State.addrBytes; rw [h]; rfl
theorem State.addrBytes_row (h : fld w 1 0 = 1) : u.addrBytes g r w = leBytes (u.geo g).rowC (pw r.stroke.params 1).toNat := by
  unfold State.addrBytes; rw [h]; rfl
theorem State.addrBytes_feat (h : fld w 1 0 = 2) : u.addrBytes g r w = [byteAt (pw r.stroke.params 5) 0] := by
  unfold State.addrBytes; rw [h]; rfl
theorem State.addrBytes_const (h : fld w 1 0 = 3) : u.addrBytes g r w = [byteAt w 1] := by
  unfold State.addrBytes; rw [h]; rfl

/-- A burst of a single frame. -/
theorem State.frameBurst_one {f : Frame} {ecc : List Ecc} {byte : Nat} (hasked : r.cls = 3 → u.lastAsked g r.stroke.params (r.moved + 1) = false) :
    u.frameBurst g r 1 [f] ecc byte = (((u.takeFrame g (pHandle r.stroke.params) r.stroke.params r.moved f (ecc.getD 0 .clean) byte).drive g
      ((leBytes 4672 f.toNat).map .dataOut)).modRun g (fun k => { k with moved := k.moved + 1 })).calBytes g 4672 := by
  have hnot : ¬ (r.cls = 3 ∧ u.lastAsked g r.stroke.params (r.moved + 1) = true) := fun ⟨hcls, hlast⟩ => by
    rw [hasked hcls] at hlast; cases hlast
  unfold State.frameBurst
  simp only [hnot, if_false]
  have hburst : burst 1 [f] = [f] := rfl
  simp only [hburst, List.zipIdx_cons, List.zipIdx_nil, List.foldl_cons, List.foldl_nil, List.flatMap_cons, List.flatMap_nil, List.append_nil,
    Nat.add_zero, Nat.mul_one]

end Elements

end Sys2Proof.Machine
end

section
/-! Data in (R166, R233, R273, R291): the slabs of the frames are read, the frames driven, and the command has begun its data-in. -/
namespace Sys2Proof.Machine
open Sys2Proof

/-! ### Commands read back -/

section Cmds
variable {s : State} (hc : s.canon = true)
include hc

theorem State.cmds_rising : Tab.rising s.cmds = true := by
  simp only [State.canon, Bool.and_eq_true] at hc
  exact Tab.rising_of_wf hc.1.1.1.1.1.1.1.2
theorem State.setCmd_self (c h : Nat) (x : Option Cmd) : (s.setCmd c h x).cmd? c h = x := Tab.getD_setD_self _ (State.cmds_rising hc) _ _
theorem State.modCmd_self {c h : Nat} {x : Cmd} (hcmd : s.cmd? c h = some x) (f : Cmd → Cmd) : (s.modCmd c h f).cmd? c h = some (f x) := by
  unfold State.modCmd
  rw [hcmd]
  exact State.setCmd_self hc c h _

end Cmds

/-! ### What the reads of slabs leave (R291) -/

/-- An operation leaves every lane and, of every command, its packet. -/
def LeavesPackets (s t : State) : Prop :=
  s.canon = true → t.canon = true ∧ t.lanes = s.lanes ∧ ∀ c h, (t.cmd? c h).map Cmd.pkt = (s.cmd? c h).map Cmd.pkt

section Packets
variable {s t u : State}

theorem LeavesPackets.refl (s : State) : LeavesPackets s s := fun hc => ⟨hc, rfl, fun _ _ => rfl⟩
theorem LeavesPackets.trans (h : LeavesPackets s t) (h' : LeavesPackets t u) : LeavesPackets s u := fun hc => by
  obtain ⟨htc, hlanes, hpkt⟩ := h hc
  obtain ⟨huc, hlanes', hpkt'⟩ := h' htc
  exact ⟨huc, hlanes'.trans hlanes, fun c n => (hpkt' c n).trans (hpkt c n)⟩
/-- An operation that changes neither the lanes nor the commands. -/
theorem LeavesPackets.of_same (hok : s.Ok s → t.Ok s) (hlanes : t.lanes = s.lanes) (hcmds : t.cmds = s.cmds) : LeavesPackets s t := fun hc =>
  ⟨(hok (State.ok_self hc)).2, hlanes, fun c n => by simp only [State.cmd?, hcmds]⟩
theorem LeavesPackets.foldl {α : Type} {f : State → α → State} (hf : ∀ t a, LeavesPackets t (f t a)) (l : List α) (s : State) :
    LeavesPackets s (l.foldl f s) :=
  List.foldlRecOn (motive := fun t : State => LeavesPackets s t) _ _ (.refl s) fun t ht a _ => ht.trans (hf t a)

theorem State.modCmd_packets (s : State) (c h : Nat) {f : Cmd → Cmd} (hf : ∀ y, (f y).pkt = y.pkt) : LeavesPackets s (s.modCmd c h f) := fun hc => by
  refine ⟨(State.modCmd_ok s c h f (State.ok_self hc)).2, ?lanes, fun c' h' => ?pkt⟩
  case lanes =>
    obtain ⟨x, hx⟩ := s.modCmd_frame c h f
    rw [hx]
  case pkt =>
    by_cases hkey : hKey c' h' = hKey c h
    · have hat : ∀ v : State, v.cmd? c' h' = v.cmd? c h := fun v => congrArg (Tab.getD (fun _ => none) v.cmds) hkey
      rw [hat, hat]
      cases hcmd : s.cmd? c h with
      | none => rw [State.modCmd, hcmd]; exact congrArg _ hcmd
      | some x => rw [State.modCmd_self hc hcmd]; exact congrArg some (hf x)
    · rw [State.modCmd_ne s hkey]

/-! The withdrawal of requests. -/

theorem State.lessOut_packets (s : State) (i : Issuer) : LeavesPackets s (s.lessOut i) :=
  .of_same (State.lessOut_ok s i) (by unfold State.lessOut; split <;> rfl) (by unfold State.lessOut; split <;> rfl)
theorem State.unissue_packets (s : State) (r : HpReq) : LeavesPackets s (s.unissue r) := by
  unfold State.unissue
  split
  · exact (s.lessOut_packets _).trans (State.modCmd_packets _ _ _ fun y => by split <;> rfl)
  · exact s.lessOut_packets _
theorem State.modPort_packets (s : State) (p : Nat) (f : Port → Port) : LeavesPackets s (s.modPort p f) :=
  .of_same (State.modPort_ok s p f) rfl rfl
theorem State.withdraw_packets (s : State) (f : HpReq → Bool) : LeavesPackets s (s.withdraw f) :=
  LeavesPackets.foldl (fun t p => (t.modPort_packets p _).trans (LeavesPackets.foldl State.unissue_packets _ _)) _ s
theorem State.blankBeats_packets (s : State) (f : HpReq → Bool) : LeavesPackets s (s.blankBeats f) :=
  (s.withdraw_packets f).trans (LeavesPackets.foldl (fun t p => t.modPort_packets p _) _ _)

/-! The counts, records and repairs. -/

theorem State.blot_packets (s : State) (page cls : Nat) (i : Option Nat) (d : List Word) : LeavesPackets s (s.blot page cls i d) := by
  obtain ⟨r, b, h⟩ := s.blot_frame page cls i d
  exact .of_same (State.blot_ok s page cls i d) (by rw [h]) (by rw [h])
theorem State.raise_packets (s : State) (page b : Nat) : LeavesPackets s (s.raise page b) := .of_same (State.raise_ok s page b) rfl rfl
theorem State.modReg_packets (s : State) (k : Nat) (f : Word → Word) : LeavesPackets s (s.modReg k f) := .of_same (State.modReg_ok s k f) rfl rfl
theorem State.bucketAdd_packets (s : State) (b g : Nat) : LeavesPackets s (s.bucketAdd b g) := by
  unfold State.bucketAdd State.bucketSet
  dsimp only
  split
  · exact ((((s.modReg_packets _ _).trans (State.modReg_packets _ _ _)).trans (State.modReg_packets _ _ _)).trans
      (State.raise_packets _ _ _)).trans (State.blot_packets _ _ _ _ _)
  · exact (s.modReg_packets _ _).trans (State.modReg_packets _ _ _)
theorem State.remapRow_packets (s : State) (g row : Nat) : LeavesPackets s (s.remapRow g row) := by
  unfold State.remapRow
  dsimp only
  split
  · exact ((s.modReg_packets _ _).trans (State.raise_packets _ _ _)).trans (State.blot_packets _ _ _ _ _)
  · exact .trans (.of_same (State.addRemap_ok s g row false) rfl rfl) (State.blot_packets _ _ _ _ _)
theorem State.trackAt_packets (s : State) (g row : Nat) : LeavesPackets s (s.trackAt g row) := by
  have hset : ∀ t, LeavesPackets s (s.setTracker g t) := fun t => .of_same (State.setTracker_ok s g t) rfl rfl
  unfold State.trackAt
  dsimp only
  split
  · exact (hset _).trans (State.remapRow_packets _ _ _)
  · exact hset _
theorem State.corrected_packets (s : State) (g row : Nat) : LeavesPackets s (s.corrected g row) :=
  (s.bucketAdd_packets _ _).trans (State.trackAt_packets _ _ _)

/-! The reads. -/

theorem State.modSlab_packets (s : State) (n : Nat) (f : Slab → Slab) : LeavesPackets s (s.modSlab n f) :=
  .of_same (State.modSlab_ok s n f) rfl rfl
theorem State.slabUncorr_packets (s : State) (n j : Nat) : LeavesPackets s (s.slabUncorr n j) := by
  have hpoison : LeavesPackets s (s.slabPoison n) := by
    unfold State.slabPoison
    dsimp only
    split
    · exact (((s.modSlab_packets _ _).trans (State.blankBeats_packets _ _)).trans (State.raise_packets _ _ _)).trans (State.blot_packets _ _ _ _ _)
    · exact s.modSlab_packets _ _
  refine hpoison.trans ?_
  unfold State.slabUncorr State.uncorrRow
  split
  · exact .refl _
  · exact State.remapRow_packets _ _ _
theorem State.opportunity_packets (s : State) (page point : Nat) : LeavesPackets s (s.opportunity page point).1 := by
  obtain ⟨r, d, b, h⟩ := s.opportunity_frame page point
  exact .of_same (fun hok => State.fst_of (State.opportunity_ok s page point hok)) (by rw [h]) (by rw [h])
theorem State.opportunities_packets (s : State) (page point n : Nat) : LeavesPackets s (s.opportunities page point n).1 := by
  unfold State.opportunities
  split
  · exact List.foldlRecOn (motive := fun a : State × List (Nat × Nat × Word) => LeavesPackets s a.1) _ _ (.refl s)
      fun a ha i _ => ha.trans (a.1.opportunity_packets page point)
  · exact .refl s
theorem State.slabRead_packets (s : State) (n j len : Nat) (ecc : Ecc) : LeavesPackets s (s.slabRead n j len ecc) :=
  ((s.opportunities_packets _ _ _).trans (LeavesPackets.foldl (fun t _ => t.corrected_packets _ _) _ _)).trans
    (LeavesPackets.foldl (fun t k => t.slabUncorr_packets n k) _ _)

end Packets

/-! ### The frames of a command are sent (R233, R273) -/

/-- The state behind the reads of the slabs of frames ks of a command. -/
def State.slabsRead (s : State) (y : Cmd) (ks : List Nat) (ecc : List Ecc) : State :=
  ks.zipIdx.foldl (fun (x : State) e => x.slabRead (y.slabs.getD e.1 0) 0 4160 (ecc.getD e.2 .clean)) s
/-- The bytes that frames ks of a command put on the bus. -/
def State.sentBytes (s : State) (g : Nat) (y : Cmd) (fill : Word) (ks : List Nat) : List Byte :=
  ks.flatMap (fun k => leBytes 4672 (s.sentFrame g y k).toNat ++ s.tailBytes g y fill k)

/-- A command whose frames have been sent: its data-in has begun. -/
def Cmd.sends (y : Cmd) (planes : List Nat) : Cmd := { y with begun := true, sent := y.sent ++ planes }
/-- The state behind the frames' cycles. -/
def State.framesDriven (s : State) (g : Nat) (y : Cmd) (fill : Word) (ks : List Nat) (ecc : List Ecc) : State :=
  let v := s.slabsRead y ks ecc
  { v.drive g ((v.sentBytes g y fill ks).map .dataIn) with freeCtr := v.freeCtr + 32 }
theorem State.sendFrames_eq (s : State) (g h : Nat) (y : Cmd) (fill : Word) (ks : List Nat) (ecc : List Ecc) :
    s.sendFrames g h y fill ks ecc = (s.framesDriven g y fill ks ecc).modCmd (g / 8) h
      (fun z => z.sends (ks.map (· / (y.frames.length / y.frMaws.length))).dedup) := by
  unfold State.sendFrames State.framesDriven State.sentBytes
  simp only [List.map_flatMap]
  rfl
theorem State.slabsRead_packets (s : State) (y : Cmd) (ks : List Nat) (ecc : List Ecc) : LeavesPackets s (s.slabsRead y ks ecc) := by
  unfold State.slabsRead
  exact LeavesPackets.foldl (fun t _ => t.slabRead_packets _ _ _ _) _ s

section Send
variable {s : State} (hc : s.canon = true) {g h : Nat} {y : Cmd} (fill : Word) (ks : List Nat) (ecc : List Ecc)
include hc

theorem State.framesDriven_canon : (s.framesDriven g y fill ks ecc).canon = true := by
  obtain ⟨hcanon, -, -⟩ := s.slabsRead_packets y ks ecc hc
  exact (State.drive_ok (s.slabsRead y ks ecc) g (((s.slabsRead y ks ecc).sentBytes g y fill ks).map .dataIn) (State.ok_self hcanon)).2
/-- The frames sent are driven behind what the lane's bus has carried, and nothing else of the lane changes. -/
theorem State.sendFrames_lane : (s.sendFrames g h y fill ks ecc).lane g =
    { s.lane g with bus := (s.lane g).bus ++ ((s.slabsRead y ks ecc).sentBytes g y fill ks).map .dataIn } := by
  obtain ⟨hcanon, hlanes, -⟩ := s.slabsRead_packets y ks ecc hc
  obtain ⟨x, hx⟩ := State.modCmd_frame (s.framesDriven g y fill ks ecc) (g / 8) h
    (fun z => z.sends (ks.map (· / (y.frames.length / y.frMaws.length))).dedup)
  have hsame : (s.slabsRead y ks ecc).lane g = s.lane g := by rw [State.lane, hlanes, State.lane]
  calc (s.sendFrames g h y fill ks ecc).lane g = (s.framesDriven g y fill ks ecc).lane g := by rw [State.sendFrames_eq, hx]; rfl
    _ = ((s.slabsRead y ks ecc).drive g (((s.slabsRead y ks ecc).sentBytes g y fill ks).map .dataIn)).lane g := rfl
    _ = _ := by rw [State.drive, State.lane_self hcanon, hsame]
theorem State.sendFrames_canon : (s.sendFrames g h y fill ks ecc).canon = true := by
  rw [State.sendFrames_eq]
  exact (State.modCmd_ok _ _ _ _ (State.ok_self (State.framesDriven_canon hc fill ks ecc))).2
/-- The command whose frames are sent has begun its data-in. -/
theorem State.sendFrames_cmd (hcmd : s.cmd? (g / 8) h = some y) :
    ∃ z, (s.sendFrames g h y fill ks ecc).cmd? (g / 8) h = some z ∧ z.begun = true ∧ z.pkt = y.pkt := by
  obtain ⟨-, -, hpkt⟩ := s.slabsRead_packets y ks ecc hc
  have hread : ((s.framesDriven g y fill ks ecc).cmd? (g / 8) h).map Cmd.pkt = some y.pkt := (hpkt _ _).trans (congrArg _ hcmd)
  obtain ⟨x, hx, hxpkt⟩ := Option.map_eq_some_iff.mp hread
  rw [State.sendFrames_eq]
  exact ⟨_, State.modCmd_self (State.framesDriven_canon hc fill ks ecc) hx _, rfl, hxpkt⟩

end Send

end Sys2Proof.Machine
end

section
/-! END (R166, R172 to R174): what it leaves of the lane, and what the block's own work behind it leaves alone. -/
namespace Sys2Proof.Machine
open Sys2Proof

/-! ### The end of a stroke (R166, R172, R179) -/

/-- What a stroke and its END occupy of a lane: its LUNs, the stroke that runs and the target whose CE_N is low. -/
def Lane.occupied (l : Lane) : Tab Lun × Option Running × Option Nat := (l.luns, l.run, l.ceLow)

theorem LaneChange.ite {β : Type} {keep : Lane → β} {g : Nat} {s t : State} {c : Prop} [Decidable c] (h : c → LaneChange keep g s t) :
    LaneChange keep g s (if c then t else s) := by
  split
  next hcond => exact h hcond
  · exact .refl keep g s

theorem Lane.occupied_eq {l k : Lane} (h : l.occupied = k.occupied) : l.luns = k.luns ∧ l.run = k.run ∧ l.ceLow = k.ceLow := by
  obtain ⟨hluns, hrest⟩ := Prod.mk.inj h
  exact ⟨hluns, Prod.mk.inj hrest⟩
theorem Lane.lun_congr {l k : Lane} (h : l.luns = k.luns) (d : Nat) : l.lun d = k.lun d := congrArg (fun t => Tab.getD (fun _ => Lun.init) t d) h

section Occupied
variable {s : State} (hc : s.canon = true) (g : Nat)

theorem State.rbSync_lanes (s : State) (g : Nat) : (s.rbSync g).lanes = s.lanes := by
  unfold State.rbSync
  split <;> rfl
theorem State.strokeEnd_frame (s : State) (g h status res : Nat) : (s.strokeEnd g h status res).lanes = s.lanes ∧
    (s.strokeEnd g h status res).glb = s.glb ∧ (s.strokeEnd g h status res).keys = s.keys := by
  unfold State.strokeEnd State.event
  split
  · exact ⟨State.modCore_lanes _ _ _, State.modCore_glb _ _ _, State.modCore_keys _ _ _⟩
  · exact ⟨rfl, rfl, rfl⟩

include hc
theorem State.calPoint_occupied : LaneChange Lane.occupied g s (s.calPoint g) := by
  unfold State.calPoint
  split
  · split
    · exact State.modLane_change hc fun _ => rfl
    · split
      · exact .refl _ g s
      · exact State.modLane_change hc fun _ => rfl
  · exact .refl _ g s
theorem State.idleSync_occupied : ((s.idleSync g).lane g).occupied = (s.lane g).occupied := by
  have hsync : (s.rbSync g).lane g = s.lane g := by rw [State.lane, State.rbSync_lanes, State.lane]
  rw [← hsync]
  exact (State.calPoint_occupied (State.rbSync_ok s g (State.ok_self hc)).2 g).kept
theorem State.idleSync_frame : (s.idleSync g).glb = s.glb ∧ (s.idleSync g).keys = s.keys := by
  have hsync : (s.rbSync g).glb = s.glb ∧ (s.rbSync g).keys = s.keys := by
    unfold State.rbSync
    split <;> exact ⟨rfl, rfl⟩
  obtain ⟨x, l, hframe⟩ := (State.calPoint_occupied (State.rbSync_ok s g (State.ok_self hc)).2 g).frame
  rw [State.idleSync, hframe]
  exact hsync
/-- A commit with no hand-over due adds at most a stroke to the lane's queue. -/
theorem State.commitFrom_occupied (hcast : s.castPending g = false) (rom : Bool) (id : Nat) (p : List Word) (byBlock byScribe : Bool) :
    LaneChange Lane.occupied g s (s.commitFrom rom g id p byBlock byScribe).1 := by
  have hdue : s.castleDue g = s := if_neg fun ⟨hpending, _⟩ => Bool.eq_false_iff.mp hcast hpending
  unfold State.commitFrom
  simp only [hdue]
  generalize (if byBlock ∨ ¬ s.barred g (s.entryFor g id rom) p then s.commitResult g (s.entryFor g id rom) p byScribe else 2) = result
  by_cases hresult : result = 0
  · rw [if_neg (not_not_intro hresult)]
    dsimp only
    exact State.modLane_change hc fun _ => rfl
  · rw [if_pos hresult]
    exact .refl _ g s
theorem State.calInsert_occupied : LaneChange Lane.occupied g s (s.calInsert g) := by
  unfold State.calInsert
  refine LaneChange.ite fun ⟨_, _, _, hcast⟩ => ?_
  split
  · exact State.commitFrom_occupied hc g (Bool.eq_false_iff.mpr hcast) _ _ _ _ _
  · exact .refl _ g s
/-- The seal copy that goes on issues at most a stroke, outside OPENING. -/
theorem State.sealNext_occupied (hjob : s.glb.mode = .opening → s.keys.job = none) : ((s.sealNext g).lane g).occupied = (s.lane g).occupied := by
  have hissue : ∀ (i : Option Nat) (e : Nat) (st : Stroke) (f : Keys → Keys),
      ((((s.lateCharge i e).seqIssue g st).modKeys f).lane g).occupied = (s.lane g).occupied := fun i e st _ => by
    have hlane : ((s.lateCharge i e).seqIssue g st).lane g = { s.lane g with strokes := (s.lane g).strokes ++ [st] } := by
      rw [State.seqIssue, State.lane_self (State.lateCharge_ok s i e (State.ok_self hc)).2, State.lane, State.lateCharge_lanes, State.lane]
    exact (congrArg Lane.occupied hlane).trans rfl
  unfold State.sealNext
  split
  · rfl
  next j hj =>
    have hmode : s.glb.mode ≠ .opening := fun h => by rw [hjob h] at hj; cases hj
    split
    · rfl
    · split
      · simp only [State.lane, State.sealWritten_lanes hmode]
      · split
        · rfl
        · split
          · exact hissue _ _ _ _
          · exact hissue _ _ _ _

end Occupied

/-! The LUN of the stroke that ends. -/

section Lun
variable (u : Lun) (r : Running) (cls now : Nat)

theorem Lun.toBusy_busy : (u.toBusy r cls now).busy = true ∧ (u.toBusy r cls now).busyClass = cls ∧ (u.toBusy r cls now).busyAt = now := by
  unfold Lun.toBusy
  dsimp only
  repeat' split
  all_goals exact ⟨rfl, rfl, rfl⟩
theorem Lun.toBusy_erase (hcls : r.cls = 5) (hcont : r.cont = false) : (u.toBusy r cls now).state = .eraseBusy := by
  unfold Lun.toBusy
  simp [hcls, hcont]

end Lun

theorem Lane.lun_modLun_self {l : Lane} (hr : Tab.rising l.luns = true) (d : Nat) (f : Lun → Lun) : (l.modLun d f).lun d = f (l.lun d) :=
  Tab.getD_setD_self _ hr d _
/-- A lane whose stroke r has ended as PARAM_OUT: what it has read is no longer sensed data (R437). -/
def Lane.paramsOut (l : Lane) (r : Running) : Lane :=
  if r.stroke.id = 0x004 then l.modLun (pDie r.stroke.params) (fun u => { u with sensed := u.sensed.filter (· ≠ pHandle r.stroke.params) }) else l
/-- A lane behind the END of stroke r. -/
def Lane.ended (l : Lane) (r : Running) : Lane :=
  { l.paramsOut r with run := none, ceLow := none, mpOpen := if ¬ r.cont ∧ l.mpOpen = some (pDie r.stroke.params, r.cls) then none else l.mpOpen }
theorem Lane.paramsOut_lun {l : Lane} (hr : Tab.rising l.luns = true) (r : Running) : Tab.rising (l.paramsOut r).luns = true ∧
    ((l.paramsOut r).lun (pDie r.stroke.params)).busy = (l.lun (pDie r.stroke.params)).busy := by
  unfold Lane.paramsOut
  split
  · exact ⟨Tab.rising_setD (d := fun _ => Lun.init) hr _ _, by rw [Lane.lun_modLun_self hr]⟩
  · exact ⟨hr, rfl⟩
/-- A LUN behind an END with parameters w: busy where it says so. -/
def Lun.ended (u : Lun) (r : Running) (w : Word) (now : Nat) : Lun := if bit w 0 then u.toBusy r (fld w 2 1) now else u

theorem Lun.ended_busy (u : Lun) (r : Running) (w : Word) (now : Nat) : (u.ended r w now).busy = (bit w 0 || u.busy) := by
  unfold Lun.ended
  split
  next h => rw [h, (Lun.toBusy_busy _ _ _ _).1, Bool.true_or]
  next h => rw [Bool.eq_false_iff.mpr h, Bool.false_or]

/-! The command. -/

/-- The lane's LUN behind the END of its stroke, before the block's own work goes on. -/
def State.endedAt (s : State) (g : Nat) (r : Running) (w : Word) : State :=
  ((s.modLane g (fun l => l.ended r)).idleSync g).modLun g (pDie r.stroke.params) (fun u => u.ended r w s.time.toNat)
/-- The end is reported, unless the block itself committed the stroke. -/
def State.endPosted (s : State) (g : Nat) (r : Running) : State :=
  if r.stroke.byBlock then s else s.strokeEnd g (pHandle r.stroke.params) r.status.toNat 0

/-- The END of stroke r with parameters w; in ENDGAME the sequencer then takes the LUN (R411). -/
def State.endOf (s : State) (g : Nat) (r : Running) (w : Word) : State :=
  if s.glb.mode = .endgame then (s.endedAt g r w).egAct g (pDie r.stroke.params)
  else (((s.endedAt g r w).endPosted g r).calInsert g).sealNext g

section End
variable {s : State} (hc : s.canon = true) (g : Nat) (r : Running) (w : Word)

theorem State.endPosted_frame (s : State) (g : Nat) (r : Running) : (s.endPosted g r).lanes = s.lanes ∧ (s.endPosted g r).glb = s.glb ∧
    (s.endPosted g r).keys = s.keys := by
  unfold State.endPosted
  split
  · exact ⟨rfl, rfl, rfl⟩
  · exact s.strokeEnd_frame _ _ _ _
theorem State.endPosted_ok {b : State} (g : Nat) (r : Running) (h : s.Ok b) : (s.endPosted g r).Ok b :=
  State.ite_ok h (State.strokeEnd_ok s g _ _ 0 h)
include hc
theorem State.endedAt_canon : (s.endedAt g r w).canon = true := by
  have hended := State.modLane_ok s g (fun l => l.ended r) (State.ok_self hc)
  exact (State.modLun_ok _ g _ _ (State.idleSync_ok _ g hended)).2
theorem State.endedAt_frame : (s.endedAt g r w).glb = s.glb ∧ (s.endedAt g r w).keys = s.keys := by
  have hended := State.modLane_ok s g (fun l => l.ended r) (State.ok_self hc)
  obtain ⟨hglb, hkeys⟩ := State.idleSync_frame hended.2 g
  exact ⟨by rw [State.endedAt, State.modLun_glb, hglb, State.modLane_glb], by rw [State.endedAt, State.modLun_keys, hkeys, State.modLane_keys]⟩
theorem State.endedAt_lane (hr : Tab.rising (s.lane g).luns = true) :
    ((s.endedAt g r w).lane g).run = none ∧ ((s.endedAt g r w).lane g).ceLow = none ∧
    ((s.endedAt g r w).lane g).lun (pDie r.stroke.params) =
      (((s.lane g).paramsOut r).lun (pDie r.stroke.params)).ended r w s.time.toNat := by
  have hended := State.modLane_ok s g (fun l => l.ended r) (State.ok_self hc)
  have hsync := State.idleSync_occupied hended.2 g
  rw [State.lane_self hc] at hsync
  obtain ⟨hluns, hrun, hce⟩ := Lane.occupied_eq hsync
  have hrising := (Lane.paramsOut_lun hr r).1
  rw [State.endedAt, State.modLun, State.lane_self (State.idleSync_ok _ g hended).2]
  generalize ((s.modLane g fun l => l.ended r).idleSync g).lane g = q at hluns hrun hce ⊢
  refine ⟨hrun, hce, ?_⟩
  rw [Lane.lun_modLun_self (by rw [hluns]; exact hrising), Lane.lun_congr hluns]
  rfl

/-- What the block does behind an END leaves the lane as the END has left it. -/
theorem State.endPosted_goesOn (hjob : s.glb.mode = .opening → s.keys.job = none) :
    (((((s.endPosted g r).calInsert g).sealNext g).lane g)).occupied = (s.lane g).occupied := by
  obtain ⟨hlanes, hglb, hkeys⟩ := s.endPosted_frame g r
  have hposted := State.endPosted_ok g r (State.ok_self hc)
  have hinsert := State.calInsert_occupied hposted.2 g
  obtain ⟨x, l, hframe⟩ := hinsert.frame
  have hnone : ((s.endPosted g r).calInsert g).glb.mode = .opening → ((s.endPosted g r).calInsert g).keys.job = none := by
    rw [hframe]
    exact fun h => (congrArg Keys.job hkeys).trans (hjob ((congrArg Glb.mode hglb).symm.trans h))
  rw [State.sealNext_occupied (State.calInsert_ok _ g hposted).2 g hnone, hinsert.kept, State.lane, hlanes, State.lane]

/-- The END of stroke r outside ENDGAME. -/
theorem State.endOf_lane (hr : Tab.rising (s.lane g).luns = true) (hmode : s.glb.mode ≠ .endgame) (hjob : s.glb.mode = .opening → s.keys.job = none) :
    ((s.endOf g r w).lane g).run = none ∧ ((s.endOf g r w).lane g).ceLow = none ∧
    ((s.endOf g r w).lane g).lun (pDie r.stroke.params) = (((s.lane g).paramsOut r).lun (pDie r.stroke.params)).ended r w s.time.toNat := by
  obtain ⟨hglb, hkeys⟩ := State.endedAt_frame hc g r w
  obtain ⟨hrun, hce, hlun⟩ := State.endedAt_lane hc g r w hr
  obtain ⟨hluns', hrun', hce'⟩ := Lane.occupied_eq (State.endPosted_goesOn (State.endedAt_canon hc g r w) g r (by rw [hglb, hkeys]; exact hjob))
  rw [State.endOf, if_neg hmode]
  exact ⟨hrun'.trans hrun, hce'.trans hce, (Lane.lun_congr hluns' _).trans hlun⟩

/-- The END of the stroke that has come to it. -/
theorem State.endOf_advance (l : List Word) (hr : Tab.rising (s.lane g).luns = true) (hmode : s.glb.mode ≠ .endgame)
    (hjob : s.glb.mode = .opening → s.keys.job = none) : let t := (s.modLane g (fun q => q.advance r l)).endOf g r w
    (t.lane g).run = none ∧ (t.lane g).ceLow = none ∧ ∃ v : Lun, v.busy = ((s.lane g).lun (pDie r.stroke.params)).busy ∧
      (t.lane g).lun (pDie r.stroke.params) = v.ended r w s.time.toNat := by
  have hluns : ((s.modLane g (fun q => q.advance r l)).lane g).luns = (s.lane g).luns :=
    (congrArg Lane.luns (State.lane_self hc g (fun q => q.advance r l))).trans rfl
  have hr' : Tab.rising ((s.modLane g (fun q => q.advance r l)).lane g).luns = true := by rw [hluns]; exact hr
  obtain ⟨hrun, hce, hlun⟩ := State.endOf_lane (State.modLane_ok s g (fun q => q.advance r l) (State.ok_self hc)).2 g r w hr' hmode hjob
  exact ⟨hrun, hce, _, (Lane.paramsOut_lun hr' r).2.trans (congrArg Lun.busy (Lane.lun_congr hluns _)), hlun⟩

end End

/-- END is taken like every element. -/
theorem State.Takes.ends {s : State} {lane : Fin 128} {r : Running} {w : Word} {l : List Word} (H : s.Takes lane.val r w l)
    (hkind : fld w 31 28 = 0) :
    exec (.elEnd lane) s = .next (settle s ((s.modLane lane.val (fun q => q.advance r l)).endOf lane.val r w)) := by
  rw [show exec (.elEnd lane) s = execElEnd lane s from rfl]
  unfold execElEnd
  exact H.element hkind _

end Sys2Proof.Machine

open Sys2Proof Sys2Proof.Machine

/-- Settles O55: the start of a stroke goes through `State.Heads.start` and the checks of `State.startOf`; an element is taken by
`State.Takes.goes`, the data of a command are sent by `State.sendFrames_lane` and `State.sendFrames_cmd`, and END leaves what
`State.endOf_lane` says. -/
theorem strokeRuns : Obligations.StrokeRuns := by
  unfold Obligations.StrokeRuns
  refine ⟨fun s lane st l ecc => ?start, fun s lane r w l => ?elements⟩
  case start =>
    intro g hwork hup hrun hqueue hwanted u0 u gives drops
    have H : s.Heads lane.val st l := ⟨hwork, hup, hrun, hqueue⟩
    have hgives : ∀ {t : State}, exec (.strokeStart lane ecc) s = looked s t → gives t := fun h hnone => h.trans (looked_of_none hnone)
    refine ⟨fun row hrow => ⟨State.strokeFetch_corrected hrow, State.strokeFetch_uncorrectable hrow⟩, State.strokeFetch_clean,
      fun hlost => hgives (H.lost hlost), fun hfound => ⟨fun hentry => hgives (H.unknown hfound hentry), fun e hentry => ?_⟩⟩
    have hgo : ∀ {o : Out}, s.startOf u g st e = o → exec (.strokeStart lane ecc) s = o := (H.known hfound hentry).trans
    refine ⟨fun hbeside => hgo (State.startOf_beside hbeside), fun hbeside hend hrefuses => hgo (State.startOf_endgame hbeside hend hrefuses),
      fun hbeside hend => ⟨fun hno => hgives (hgo ?drops), fun hfits hallowed hopen hown => hgives (hgo ?lost),
        fun hfits hblock hcls hopen => hgives (hgo ?waits), fun hfits hallowed hopen hroom => ⟨hgives (hgo ?begins),
          fun hcls hnone => (congrArg _ (State.beginStroke_cache hcls g st)).trans hnone⟩,
        fun hfits hallowed hopen hroom => hgo ?full⟩⟩
    case drops =>
      by_cases hfits : u.paramOk g st.params = true ∧ u.classOk g (pDie st.params) e.cls true = true
      · obtain ⟨hblock, hbarred⟩ := hno.resolve_left (not_not_intro hfits)
        exact State.startOf_barred hbeside hend hfits hblock hbarred
      · exact State.startOf_unfit hbeside hend hfits
    case lost => exact (State.startOf_open hbeside hend hfits hallowed hopen).trans (if_neg hown)
    case waits =>
      have hallowed : ¬ (st.byBlock = false ∧ u.barred g (some e) st.params = true) := fun ⟨hnot, _⟩ => Bool.eq_false_iff.mp hnot hblock
      rw [State.startOf_open hbeside hend hfits hallowed hopen, if_pos ⟨hblock, hcls⟩]
      exact congrArg (looked s) (State.modLane_congr (by simp only [hqueue, List.drop_succ_cons, List.drop_zero]))
    case begins => exact (State.startOf_admitted hbeside hend hfits hallowed hopen).trans (if_pos hroom)
    case full => exact (State.startOf_admitted hbeside hend hfits hallowed hopen).trans (if_neg (Bool.eq_false_iff.mp hroom))
  case elements =>
    intro g hwork hup helems hcurrent p u gives drives
    have H : s.Takes g r w l := ⟨hwork, hup, helems, hcurrent⟩
    have haddr {t : State} := fun (h : fld w 31 28 = 3) => H.goes (t := t) (show exec (.elAddr lane) s = execElAddr lane s from rfl) h
    have hfeat {t : State} := fun (h : fld w 31 28 = 6) => H.goes (t := t) (show exec (.elFeat lane) s = execElFeat lane s from rfl) h
    have hwait {t : State} := fun (h : fld w 31 28 = 7) => H.goes (t := t) (show exec (.elWait lane) s = execElWait lane s from rfl) h
    have hdout {fs raw ecc byte} {t : State} := fun (h : fld w 31 28 = 4) =>
      H.goes (t := t) (show exec (.elDout lane fs raw ecc byte) s = execElDout lane fs raw s ecc byte from rfl) h
    have hdin {ecc} {t : State} := fun (h : fld w 31 28 = 5) => H.goes (t := t) (show exec (.elDin lane ecc) s = execElDin lane s ecc from rfl) h
    refine ⟨fun h => H.goes (show exec (.elCmd lane) s = execElCmd lane s from rfl) h rfl,
      fun h => H.goes (show exec (.elCmdp lane) s = execElCmdp lane s from rfl) h rfl, fun h => ?addr, fun h => ?feat, fun h => ?wait,
      fun b h => H.goes (show exec (.elStat lane b) s = execElStat lane b s from rfl) h rfl,
      fun h => H.goes (show exec (.elCe lane) s = execElCe lane s from rfl) h rfl, fun fs raw ecc byte h => ?dout, fun ecc hkind => ?din, fun hkind => ?ends⟩
    case addr =>
      have hbytes : ∀ b : List Byte, u.addrBytes g r w = b → u.drive g ((u.addrBytes g r w).map .addr) = drives u (b.map .addr) := by
        rintro b rfl
        rfl
      exact ⟨fun hk => haddr h (hbytes _ (State.addrBytes_col hk)), fun hk => haddr h (hbytes _ (State.addrBytes_row hk)),
        fun hk => haddr h (hbytes _ (State.addrBytes_feat hk)), fun hk => haddr h (hbytes _ (State.addrBytes_const hk))⟩
    case feat => exact ⟨fun hreg => hfeat h (if_pos hreg), fun hreg => hfeat h (if_neg hreg)⟩
    case wait =>
      exact ⟨fun hrel => hwait h (if_pos (Bool.and_eq_true_iff.mp hrel)),
        fun hrel => hwait h (if_neg fun hboth => Bool.eq_false_iff.mp hrel (Bool.and_eq_true_iff.mpr hboth))⟩
    case dout =>
      have hframes : ∀ fs, bit w 4 = false → gives (.elDout lane fs raw ecc byte) (u.frameBurst g r (elemFrames w p) fs ecc byte.val) :=
        fun fs hraw => hdout h (if_neg (Bool.eq_false_iff.mp hraw))
      refine ⟨fun hraw => hdout h (if_pos hraw), hframes fs, fun f hraw hone hasked => (hframes [f] hraw).trans ?_⟩
      rw [hone, State.frameBurst_one hasked]
      rfl
    case din =>
      intro h n more
      refine ⟨fun hseq => hdin hkind (if_pos hseq), fun hseq hnone => hdin hkind ?foreign, fun hseq y hcmd => ?sent⟩
      case foreign =>
        have hnone : (s.modLane g (fun q => q.advance r l)).cmd? (lane.val / 8) (pHandle r.stroke.params) = none := hnone
        exact (if_neg (Bool.eq_false_iff.mp hseq)).trans (by rw [hnone]; rfl)
      case sent =>
        intro ks v t
        have hcmd' : (s.modLane g (fun q => q.advance r l)).cmd? (lane.val / 8) (pHandle r.stroke.params) = some y := hcmd
        refine ⟨hdin hkind ((if_neg (Bool.eq_false_iff.mp hseq)).trans (by rw [hcmd']; rfl)), fun hc => ?_⟩
        have hcu : u.canon = true := (State.modLane_ok s g (fun q => q.advance r l) (State.ok_self hc)).2
        have hu : u.lane g = (s.lane g).advance r l := State.lane_self hc g fun q => q.advance r l
        have hlane := State.sendFrames_lane hcu (g := g) (h := h) (y := y) r.stroke.fill ks ecc
        have ht : t.lane g = _ := State.lane_self (State.sendFrames_canon hcu (g := g) (h := h) (y := y) r.stroke.fill ks ecc) g _
        refine ⟨State.sendFrames_cmd hcu r.stroke.fill ks ecc hcmd, ?_, ?_⟩
        · rw [ht, hlane, hu]
          rfl
        · rw [ht, hlane, hu]
          exact ⟨_, rfl, rfl, rfl⟩
    case ends =>
      refine ⟨_, H.ends hkind, fun hc hr hmode hjob => ?_⟩
      obtain ⟨hrun, hce, v, hbusy, hlun⟩ := State.endOf_advance hc g r w l hr hmode hjob
      rw [settle_lane, hlun]
      refine ⟨hrun, hce, (v.ended_busy r w _).trans (by rw [hbusy]), fun hb => ?_⟩
      obtain ⟨-, hclass, hat⟩ := v.toBusy_busy r (fld w 2 1) s.time.toNat
      rw [Lun.ended, if_pos hb]
      exact ⟨hclass, hat, v.toBusy_erase r _ _⟩
end

section
/-! The commands of TN_RING_CMD (R186): a write begins an operation on the ring's context, which ends by what it finds there. -/
namespace Sys2Proof.Machine
open Sys2Proof

/-! ### Operations on a ring's context -/

/-- The context of a ring turned OFF is stored. -/
def State.ringOffStored (u : State) (n : Nat) (x : Ctx) (f : CcFault) : State × Bool :=
  (u.ringLoad unitRingCmd n f).1.ringStore unitRingCmd n (x.setW 0 (putFld (cw x 0) 1 0 0)) f
/-- A context as RESET_RING leaves it. -/
def Ctx.restarted (x : Ctx) : Ctx :=
  let y := (((x.setW 6 (putFld (cw x 6) 16 16 0)).setProd 0).setCons 0).setState 0
  y.setW 7 (putFld (cw y 7) 7 0 0)
/-- The context of a ring is stored as RESET_RING leaves it. -/
def State.ringRestarted (u : State) (n : Nat) (x : Ctx) (f : CcFault) : State × Bool :=
  (u.ringLoad unitRingCmd n f).1.ringStore unitRingCmd n x.restarted f
/-- The CPL ring that the window names is read after ring n. -/
def State.namedRead (u : State) (n : Nat) (f : CcFault) : State × Option Ctx :=
  (u.ringLoad unitRingCmd n f).1.ringLoad unitRingCmd u.window.cplRing f
/-- The window's context w is installed in ring n, whose context and that of the ring that it names have been read. -/
def State.ringInstall (v : State) (n : Nat) (w : Ctx) (f : CcFault) : State :=
  if (v.ringStore unitRingCmd n w.fresh f).2 then ((v.ringStore unitRingCmd n w.fresh f).1.setNote n (ringNote w)).ringResult 0
  else (v.ringStore unitRingCmd n w.fresh f).1.ringResult 5

section RingOp
variable {u : State} {n : Nat} {f : CcFault}

/-- An operation whose ring's context cannot be reached answers STORE_ERR, whatever its OP. -/
theorem State.ringOp_unread (hnone : (u.ringLoad unitRingCmd n f).2 = none) (op : Nat) :
    u.ringOp op n f = (u.ringLoad unitRingCmd n f).1.ringResult 5 := by
  unfold State.ringOp State.ringRead State.ringWrite State.ringDisable State.ringReset
  simp only [hnone]
  split <;> rfl

variable {x : Ctx} (hload : (u.ringLoad unitRingCmd n f).2 = some x)
include hload

theorem State.ringRead_loaded : u.ringRead n f = State.ringResult
    ((List.range 16).foldl (fun t k => t.setReg (Reg.TN_RING_WIN + 4 * k) (cw x k)) (u.ringLoad unitRingCmd n f).1) 0 := by
  unfold State.ringRead
  simp only [hload]

/-! DISABLE. -/

theorem State.ringDisable_loaded : u.ringDisable n f =
    if x.out ≠ 0 then (u.ringLoad unitRingCmd n f).1.ringResult 3
    else if x.kind = 2 ∧ ¬ (u.naming n).isEmpty then (u.ringLoad unitRingCmd n f).1.ringResult 6
    else if (u.ringOffStored n x f).2 then ((u.ringOffStored n x f).1.setNote n 0).ringResult 0
    else (u.ringOffStored n x f).1.ringResult 5 := by
  unfold State.ringDisable
  simp only [hload]
  rfl

theorem State.ringDisable_outstanding (hout : x.out ≠ 0) : u.ringDisable n f = (u.ringLoad unitRingCmd n f).1.ringResult 3 :=
  (State.ringDisable_loaded hload).trans (if_pos hout)
theorem State.ringDisable_named (hout : x.out = 0) (hkind : x.kind = 2) (hnamed : u.naming n ≠ []) :
    u.ringDisable n f = (u.ringLoad unitRingCmd n f).1.ringResult 6 := by
  rw [State.ringDisable_loaded hload, if_neg (not_not.mpr hout), if_pos ⟨hkind, by simpa using hnamed⟩]
theorem State.ringDisable_free (hout : x.out = 0) (hfree : x.kind ≠ 2 ∨ u.naming n = []) : u.ringDisable n f =
    if (u.ringOffStored n x f).2 then ((u.ringOffStored n x f).1.setNote n 0).ringResult 0 else (u.ringOffStored n x f).1.ringResult 5 := by
  rw [State.ringDisable_loaded hload, if_neg (not_not.mpr hout), if_neg]
  rintro ⟨hkind, hnamed⟩
  exact hfree.elim (fun h => h hkind) (fun h => hnamed (by rw [h]; rfl))

/-! RESET_RING. -/

theorem State.ringReset_loaded : u.ringReset n f =
    if x.kind = 0 ∨ x.state = 0 then (u.ringLoad unitRingCmd n f).1.ringResult 4
    else if x.out ≠ 0 then (u.ringLoad unitRingCmd n f).1.ringResult 3
    else (u.ringRestarted n x f).1.ringResult (if (u.ringRestarted n x f).2 then 0 else 5) := by
  unfold State.ringReset
  simp only [hload]
  rfl

/-! WRITE. -/

theorem State.ringWrite_notOff (hkind : x.kind ≠ 0) : u.ringWrite n f = (u.ringLoad unitRingCmd n f).1.ringResult 1 := by
  unfold State.ringWrite
  simp only [hload, if_pos hkind]

section Off
variable (hkind : x.kind = 0)
include hkind

theorem State.ringWrite_badContext (hbad : (u.ringLoad unitRingCmd n f).1.ctxInRange u.window = false) :
    u.ringWrite n f = (u.ringLoad unitRingCmd n f).1.ringResult 2 := by
  unfold State.ringWrite
  simp only [hload, hkind, hbad, ne_eq, not_true_eq_false, Bool.false_eq_true, not_false_eq_true, if_true, if_false]

variable (hrange : (u.ringLoad unitRingCmd n f).1.ctxInRange u.window = true)
include hrange

theorem State.ringWrite_cpl (hcpl : u.window.kind = 2) : u.ringWrite n f = (u.ringLoad unitRingCmd n f).1.ringInstall n u.window f := by
  unfold State.ringWrite
  simp [hload, hkind, hrange, hcpl, State.ringInstall]

/-! A SUB ring: the ring that it names is read too. -/

variable (hsub : u.window.kind = 1)
include hsub

theorem State.ringWrite_sub_unread (hnone : (u.namedRead n f).2 = none) : u.ringWrite n f = (u.namedRead n f).1.ringResult 5 := by
  unfold State.ringWrite
  simp only [State.namedRead] at hnone ⊢
  simp [hload, hkind, hrange, hsub, hnone]
theorem State.ringWrite_sub {y : Ctx} (hnamed : (u.namedRead n f).2 = some y) : u.ringWrite n f =
    if y.kind ≠ 2 ∨ y.owner ≠ u.window.owner then (u.namedRead n f).1.ringResult 2 else (u.namedRead n f).1.ringInstall n u.window f := by
  unfold State.ringWrite
  simp only [State.namedRead] at hnamed ⊢
  simp [hload, hkind, hrange, hsub, hnamed, State.ringInstall]

end Off
end RingOp

/-! ### Writes of TN_RING_CMD -/

/-- No operation of TN_RING_CMD waits for another. -/
theorem Held.after_ringCmd (op n : Nat) (l : List Held) : l.any (Held.ringCmd op n).after = false := List.any_eq_false.mpr fun _ _ => nofun

/-- The commands of TN_RING_CMD, by their OP. -/
inductive RingCommand (a : RpAcc) (f : CcFault) : Nat → Instr → Prop
  | ringCmdRead : RingCommand a f 1 (.ringCmdRead a f)
  | ringCmdWrite : RingCommand a f 2 (.ringCmdWrite a f)
  | disable : RingCommand a f 3 (.disable a f)
  | resetRing : RingCommand a f 4 (.resetRing a f)
theorem RingCommand.exec_eq {a : RpAcc} {f : CcFault} {op : Nat} {c : Instr} (h : RingCommand a f op c) (s : State) :
    exec c s = done s (s.ringCmd op a f) := by cases h <;> rfl

section RingWrite
variable {s u : State} {a : RpAcc} {f : CcFault} {op : Nat} {c : Instr}

theorem writes_ring_busy (hc : RingCommand a f op c) (hbusy : bit ((s.accepting Reg.TN_RING_CMD a).regAt Reg.TN_RING_STAT) 31 = true) :
    Writes c s Reg.TN_RING_CMD a (s.accepting Reg.TN_RING_CMD a) :=
  writes_of (hc.exec_eq s) (if_neg fun ⟨_, hidle⟩ => hidle hbusy)

theorem finds_ring (hidle : bit ((s.accepting Reg.TN_RING_CMD a).regAt Reg.TN_RING_STAT) 31 = false) (hc : RingCommand a f op c)
    (hop : fld a.data 18 16 = op) (hu : (s.accepting Reg.TN_RING_CMD a).ringOp op (fld a.data 14 0) f = u) :
    Finds c s Reg.TN_RING_CMD a u :=
  finds_of_begins (hc.exec_eq s) (if_pos ⟨hop, Bool.eq_false_iff.mp hidle⟩) (Held.after_ringCmd op _ _) hu

end RingWrite
end Sys2Proof.Machine

open Sys2Proof Sys2Proof.Machine

/-- Settles O33: a write while BUSY is 0 begins the operation (`finds_ring`), which ends by what it reads of the ring's context, and of the
context that a SUB ring names. -/
theorem ringCommands : Obligations.RingCommands := by
  unfold Obligations.RingCommands
  intro s a f A u n r w ends op busy
  refine ⟨?busy, fun hidle hnone => ?unread, fun hidle x hx => ⟨fun hop => finds_ring hidle .ringCmdRead hop (State.ringRead_loaded hx),
    fun hop => ?write, fun hop => ?disable, fun hop => ?reset⟩⟩
  case busy =>
    rintro hbusy c (rfl | rfl | rfl | rfl)
    · exact writes_ring_busy .ringCmdRead hbusy
    · exact writes_ring_busy .ringCmdWrite hbusy
    · exact writes_ring_busy .disable hbusy
    · exact writes_ring_busy .resetRing hbusy
  case unread =>
    have hunread := State.ringOp_unread hnone
    exact ⟨fun hop => finds_ring hidle .ringCmdRead hop (hunread 1), fun hop => finds_ring hidle .ringCmdWrite hop (hunread 2),
      fun hop => finds_ring hidle .disable hop (hunread 3), fun hop => finds_ring hidle .resetRing hop (hunread 4)⟩
  case write =>
    have hfinds : ∀ {t}, u.ringWrite n f = t → Finds (.ringCmdWrite a f) s A a t := fun ht => finds_ring hidle .ringCmdWrite hop ht
    refine ⟨fun hkind => hfinds (State.ringWrite_notOff hx hkind), fun hkind hbad => hfinds (State.ringWrite_badContext hx hkind hbad),
      fun hkind hrange hcpl => ?cpl, fun hkind hrange hsub => ⟨fun hnone => hfinds (State.ringWrite_sub_unread hx hkind hrange hsub hnone),
        fun y hy => ?sub⟩⟩
    case cpl =>
      have hinstall := State.ringWrite_cpl hx hkind hrange hcpl
      exact ⟨fun hstored => hfinds (hinstall.trans (if_pos hstored)), fun hlost => hfinds (hinstall.trans (if_neg (Bool.eq_false_iff.mp hlost)))⟩
    case sub =>
      have hnamed := State.ringWrite_sub hx hkind hrange hsub hy
      have hinstall (hkind : y.kind = 2) (howner : y.owner = w.owner) := hnamed.trans (if_neg fun h => h.elim (· hkind) (· howner))
      exact ⟨fun hbad => hfinds (hnamed.trans (if_pos hbad)), fun hkind howner hstored => hfinds ((hinstall hkind howner).trans (if_pos hstored)),
        fun hkind howner hlost => hfinds ((hinstall hkind howner).trans (if_neg (Bool.eq_false_iff.mp hlost)))⟩
  case disable =>
    have hfinds : ∀ {t}, u.ringDisable n f = t → Finds (.disable a f) s A a t := fun ht => finds_ring hidle .disable hop ht
    exact ⟨fun hout => hfinds (State.ringDisable_outstanding hx hout), fun hout hkind hnamed => hfinds (State.ringDisable_named hx hout hkind hnamed),
      fun hout hfree hstored => hfinds ((State.ringDisable_free hx hout hfree).trans (if_pos hstored)),
      fun hout hfree hlost => hfinds ((State.ringDisable_free hx hout hfree).trans (if_neg (Bool.eq_false_iff.mp hlost)))⟩
  case reset =>
    have hfinds : ∀ {t}, u.ringReset n f = t → Finds (.resetRing a f) s A a t := fun ht => finds_ring hidle .resetRing hop ht
    have hreset := State.ringReset_loaded hx
    have hfound (hkind : x.kind ≠ 0) (hstate : x.state ≠ 0) := hreset.trans (if_neg (not_or.mpr ⟨hkind, hstate⟩))
    exact ⟨fun hbad => hfinds (hreset.trans (if_pos hbad)),
      fun hkind hstate hout => hfinds ((hfound hkind hstate).trans (if_pos hout)),
      fun hkind hstate hout => hfinds ((hfound hkind hstate).trans (if_neg (not_not.mpr hout)))⟩
end

section
/-! Writes of DB_RING (R187 to R189, R211, R327): what a doorbell write does with the ring's context that it finds. -/
namespace Sys2Proof.Machine
open Sys2Proof

/-! ### The ring that a doorbell names -/

/-- KIND of the rings that a doorbell write is for: SUB where it carries PROD, CPL where it carries CONS. -/
def doorbellKind (cpl : Bool) : Nat := if cpl then 2 else 1
/-- A ring may take an INDEX (R187): it is in range, and CONS lies between CONS and PROD. -/
abbrev Ctx.TakesIndex (x : Ctx) (cpl : Bool) (idx : Nat) : Prop :=
  idx < x.size ∧ (cpl → idx = x.cons ∨ (idx + x.size - x.cons % x.size) % x.size ≤ (x.prod + x.size - x.cons % x.size) % x.size)
/-- The context of the ring that a doorbell write names is read. -/
def State.dbRead (u : State) (data : Word) (f : CcFault) : State × Option Ctx := u.ringLoad unitDoorbell (fld data 30 16) f
/-- It has been read, and takes the INDEX of the write. -/
def State.dbStored (u : State) (data : Word) (cpl : Bool) (x : Ctx) (f : CcFault) : State × Bool :=
  (u.dbRead data f).1.ringStore unitDoorbell (fld data 30 16) (if cpl then x.setCons (fld data 15 0) else x.setProd (fld data 15 0)) f

section Doorbell
variable {u : State} {page : Nat} {data : Word} {f : CcFault}

theorem State.doorbell_unread (hnone : (u.dbRead data f).2 = none) (residue : Bool) :
    u.doorbell page data f residue = (u.dbRead data f).1.holdDoorbell page data := by
  unfold State.dbRead at hnone ⊢
  unfold State.doorbell
  simp only [hnone]

variable {x : Ctx} (hread : (u.dbRead data f).2 = some x)
include hread

theorem State.doorbell_stranger (howner : x.owner ≠ page) (residue : Bool) :
    u.doorbell page data f residue = ((u.dbRead data f).1.dbResult page 1).blot 0xC000 0x25 (some page) [BitVec.ofNat 32 (fld data 30 16)] := by
  unfold State.dbRead at hread ⊢
  unfold State.doorbell
  simp only [hread, if_pos howner]

variable (howner : x.owner = page) {cpl : Bool} (hbit : bit data 31 = cpl)
include howner hbit

/-- A write to a ring of the page's own is judged by the ring's KIND, STATE and residues, then by its INDEX, then by the tenant's state. -/
theorem State.doorbell_own (residue : Bool) : u.doorbell page data f residue =
    if x.kind ≠ doorbellKind cpl then (u.dbRead data f).1.dbResult page 2
    else if x.state = 1 then (u.dbRead data f).1.dbResult page 3
    else if x.state = 2 then (u.dbRead data f).1.dbResult page 4
    else if residue ∨ ¬ x.sound then ((u.dbRead data f).1.ringError (fld data 30 16) 3).dbResult page 4
    else if ¬ x.TakesIndex cpl (fld data 15 0) then (u.dbRead data f).1.dbResult page 5
    else if u.tnState page ≠ .active then (u.dbRead data f).1.dbResult page 3
    else if (u.dbStored data cpl x f).2 then (u.dbStored data cpl x f).1.dbResult page 0
    else (u.dbStored data cpl x f).1.holdDoorbell page data := by
  subst hbit
  unfold State.dbStored
  unfold State.dbRead at hread ⊢
  unfold State.doorbell
  simp only [hread, howner, ne_eq, not_true_eq_false, if_false]
  rfl

theorem State.doorbell_otherKind (hkind : x.kind ≠ doorbellKind cpl) (residue : Bool) :
    u.doorbell page data f residue = (u.dbRead data f).1.dbResult page 2 := (State.doorbell_own hread howner hbit residue).trans (if_pos hkind)

variable (hkind : x.kind = doorbellKind cpl)
include hkind

theorem State.doorbell_fenced (hstate : x.state = 1) (residue : Bool) : u.doorbell page data f residue = (u.dbRead data f).1.dbResult page 3 := by
  rw [State.doorbell_own hread howner hbit, if_neg (not_not.mpr hkind), if_pos hstate]
theorem State.doorbell_error (hstate : x.state = 2) (residue : Bool) : u.doorbell page data f residue = (u.dbRead data f).1.dbResult page 4 := by
  rw [State.doorbell_own hread howner hbit, if_neg (not_not.mpr hkind), if_neg (by omega), if_pos hstate]

variable (hfenced : x.state ≠ 1) (herror : x.state ≠ 2)
include hfenced herror

theorem State.doorbell_unsound {residue : Bool} (h : residue = true ∨ x.sound = false) :
    u.doorbell page data f residue = ((u.dbRead data f).1.ringError (fld data 30 16) 3).dbResult page 4 := by
  rw [State.doorbell_own hread howner hbit, if_neg (not_not.mpr hkind), if_neg hfenced, if_neg herror, if_pos (h.imp_right Bool.eq_false_iff.mp)]

variable (hsound : x.sound = true)
include hsound

theorem State.doorbell_sound : u.doorbell page data f false =
    if ¬ x.TakesIndex cpl (fld data 15 0) then (u.dbRead data f).1.dbResult page 5
    else if u.tnState page ≠ .active then (u.dbRead data f).1.dbResult page 3
    else if (u.dbStored data cpl x f).2 then (u.dbStored data cpl x f).1.dbResult page 0
    else (u.dbStored data cpl x f).1.holdDoorbell page data := by
  rw [State.doorbell_own hread howner hbit, if_neg (not_not.mpr hkind), if_neg hfenced, if_neg herror, if_neg]
  exact fun h => h.elim Bool.false_ne_true (fun h => h hsound)

theorem State.doorbell_badIndex (hindex : ¬ x.TakesIndex cpl (fld data 15 0)) :
    u.doorbell page data f false = (u.dbRead data f).1.dbResult page 5 :=
  (State.doorbell_sound hread howner hbit hkind hfenced herror hsound).trans (if_pos hindex)

variable (hindex : x.TakesIndex cpl (fld data 15 0))
include hindex

theorem State.doorbell_inactive (htenant : u.tnState page ≠ .active) : u.doorbell page data f false = (u.dbRead data f).1.dbResult page 3 := by
  rw [State.doorbell_sound hread howner hbit hkind hfenced herror hsound, if_neg (not_not.mpr hindex), if_pos htenant]
theorem State.doorbell_taken (htenant : u.tnState page = .active) : u.doorbell page data f false =
    if (u.dbStored data cpl x f).2 then (u.dbStored data cpl x f).1.dbResult page 0 else (u.dbStored data cpl x f).1.holdDoorbell page data := by
  rw [State.doorbell_sound hread howner hbit hkind hfenced herror hsound, if_neg (not_not.mpr hindex), if_neg (not_not.mpr htenant)]

end Doorbell

/-! ### Writes of DB_RING -/

/-- Doorbell writes go one after the other, whatever is found of their residues. -/
theorem Held.after_doorbell (page page' : Nat) (data data' : Word) (residue residue' : Bool) :
    (Held.doorbell page data residue).after = (Held.doorbell page' data' residue').after := by
  funext h
  cases h <;> rfl

/-- The commands of DB_RING, by their KIND and by what is found of the ring's residues. -/
inductive DoorbellCommand (p : Fin 512) (a : RpAcc) (f : CcFault) : Bool → Bool → Instr → Prop
  | subProd (residue : Bool) : DoorbellCommand p a f false residue (.doorbellSubProd p a f residue)
  | cplCons (residue : Bool) : DoorbellCommand p a f true residue (.doorbellCplCons p a f residue)
theorem DoorbellCommand.exec_eq {p : Fin 512} {a : RpAcc} {f : CcFault} {kind residue : Bool} {c : Instr}
    (h : DoorbellCommand p a f kind residue c) (s : State) : exec c s = done s (s.doorbellWrite p.val kind a f residue) := by cases h <;> rfl

section DoorbellWrite
variable {s t : State} {p : Fin 512} {a : RpAcc} {f : CcFault} {kind residue : Bool} {c : Instr} (hc : DoorbellCommand p a f kind residue c)
include hc

/-- In FALLBACK the doorbells of every page but 511 are shut (R93, R189). -/
theorem writes_doorbell_shut (hmode : (s.accepting (dbA p.val Reg.DB_RING) a).glb.mode = .fallback) (hpage : p.val ≠ 511) :
    Writes c s (dbA p.val Reg.DB_RING) a (s.accepting (dbA p.val Reg.DB_RING) a) :=
  writes_of (hc.exec_eq s) (if_pos (.inr ⟨hmode, hpage⟩))

variable (hopen : (s.accepting (dbA p.val Reg.DB_RING) a).glb.mode ≠ .fallback ∨ p.val = 511) (hkind : bit a.data 31 = kind)
include hopen hkind

/-- A write of the command's KIND to a page that is open goes to the doorbell path. -/
theorem DoorbellCommand.writes_take (ht : (s.accepting (dbA p.val Reg.DB_RING) a).doorbellTake p.val a.data f residue = t) :
    Writes c s (dbA p.val Reg.DB_RING) a t := by
  refine writes_of (hc.exec_eq s) ((if_neg ?_).trans ht)
  rintro (hother | ⟨hmode, hpage⟩)
  · exact hother hkind
  · exact hopen.elim (fun h => h hmode) hpage
theorem DoorbellCommand.finds (hfirst : (s.accepting (dbA p.val Reg.DB_RING) a).cache.held.any (Held.doorbell p.val a.data false).after = false)
    (ht : (s.accepting (dbA p.val Reg.DB_RING) a).doorbell p.val a.data f residue = t) : Finds c s (dbA p.val Reg.DB_RING) a t := by
  intro hnone hanswered
  refine hc.writes_take hopen hkind ((State.begins_found ?_ (by rwa [State.accepting_cache]) (by rwa [ht])).trans ht)
  rwa [Held.after_doorbell p.val p.val a.data a.data residue false]

end DoorbellWrite
end Sys2Proof.Machine

open Sys2Proof Sys2Proof.Machine

/-- Settles O34: a write to an open page goes to the doorbell path (`DoorbellCommand.writes_take`), where it waits behind another or is
judged by the ring's owner, KIND, STATE, residues and INDEX, in this order (`State.doorbell_own`). -/
theorem doorbellWrites : Obligations.DoorbellWrites := by
  unfold Obligations.DoorbellWrites
  intro s p a f A u n idx r sub cpl ends refuse waits
  have hsub := DoorbellCommand.subProd (p := p) (a := a) (f := f)
  have hcpl := DoorbellCommand.cplCons (p := p) (a := a) (f := f)
  refine ⟨fun hmode hpage => ⟨writes_doorbell_shut (hsub false) hmode hpage, writes_doorbell_shut (hcpl false) hmode hpage⟩,
    fun hopen hwaits => ?held, fun hopen hfirst hnone => ?unread, fun hopen hfirst x hx c k hc => ?refused,
    fun hopen hfirst x hx howner hactive => ?active⟩
  case held =>
    have hheld : u.doorbellTake p.val a.data f false = u.hold (.doorbell p.val a.data false) := if_pos hwaits
    exact ⟨fun hbit => (hsub false).writes_take hopen hbit hheld, fun hbit => (hcpl false).writes_take hopen hbit hheld⟩
  case unread =>
    have hunread := State.doorbell_unread (page := p.val) hnone false
    exact ⟨fun hbit => (hsub false).finds hopen hbit hfirst hunread, fun hbit => (hcpl false).finds hopen hbit hfirst hunread⟩
  case refused =>
    obtain ⟨kind, hbit, rfl, hfinds⟩ : ∃ kind, bit a.data 31 = kind ∧ k = doorbellKind kind ∧
        ∀ {t}, u.doorbell p.val a.data f false = t → Finds c s A a t := by
      obtain ⟨rfl, rfl, hbit⟩ | ⟨rfl, rfl, hbit⟩ := hc
      · exact ⟨false, hbit, rfl, (hsub false).finds hopen hbit hfirst⟩
      · exact ⟨true, hbit, rfl, (hcpl false).finds hopen hbit hfirst⟩
    exact ⟨fun hstranger => hfinds (State.doorbell_stranger hx hstranger false),
      fun howner hkind => hfinds (State.doorbell_otherKind hx howner hbit hkind false),
      fun howner hkind hstate => hfinds (State.doorbell_fenced hx howner hbit hkind hstate false),
      fun howner hkind hstate => hfinds (State.doorbell_error hx howner hbit hkind hstate false),
      fun howner hkind hfenced herror hsound hsize => hfinds
        (State.doorbell_badIndex hx howner hbit hkind hfenced herror hsound fun hindex => absurd hindex.1 (Nat.not_lt.mpr hsize))⟩
  case active =>
    intro P C order
    have hfenced : x.state ≠ 1 := by omega
    have herror : x.state ≠ 2 := by omega
    have hunsound {residue cpl : Bool} (hbit : bit a.data 31 = cpl) (hkind : x.kind = doorbellKind cpl) :=
      State.doorbell_unsound (residue := residue) hx howner hbit hkind hfenced herror
    refine ⟨fun hkind hbit => ⟨(hsub true).finds hopen hbit hfirst (hunsound hbit hkind (.inl rfl)),
        fun hsound => (hsub false).finds hopen hbit hfirst (hunsound hbit hkind (.inr hsound))⟩,
      fun hkind hbit => ⟨(hcpl true).finds hopen hbit hfirst (hunsound hbit hkind (.inl rfl)),
        fun hsound => (hcpl false).finds hopen hbit hfirst (hunsound hbit hkind (.inr hsound))⟩,
      fun hkind hsound hbit => ?subProd, fun hkind hsound hbit hsize => ?cplCons⟩
    case subProd =>
      have hindex (hsize : idx < x.size) : x.TakesIndex false idx := ⟨hsize, nofun⟩
      have hfinds {t} := (hsub false).finds hopen hbit hfirst (t := t)
      have hstored : u.dbStored a.data false x f = P := rfl
      have htaken (hsize : idx < x.size) := hstored ▸ State.doorbell_taken hx howner hbit hkind hfenced herror hsound (hindex hsize)
      exact ⟨fun hsize htenant => hfinds (State.doorbell_inactive hx howner hbit hkind hfenced herror hsound (hindex hsize) htenant),
        fun hsize htenant hput => hfinds ((htaken hsize htenant).trans (if_pos hput)),
        fun hsize htenant hlost => hfinds ((htaken hsize htenant).trans (if_neg (Bool.eq_false_iff.mp hlost)))⟩
    case cplCons =>
      have hindex (horder : order) : x.TakesIndex true idx := ⟨hsize, fun _ => horder⟩
      have hfinds {t} := (hcpl false).finds hopen hbit hfirst (t := t)
      have hstored : u.dbStored a.data true x f = C := rfl
      have htaken (horder : order) := hstored ▸ State.doorbell_taken hx howner hbit hkind hfenced herror hsound (hindex horder)
      exact ⟨fun horder => hfinds (State.doorbell_badIndex hx howner hbit hkind hfenced herror hsound fun h => horder (h.2 rfl)),
        fun horder htenant => hfinds (State.doorbell_inactive hx howner hbit hkind hfenced herror hsound (hindex horder) htenant),
        fun horder htenant hput => hfinds ((htaken horder htenant).trans (if_pos hput)),
        fun horder htenant hlost => hfinds ((htaken horder htenant).trans (if_neg (Bool.eq_false_iff.mp hlost)))⟩
end

section
/-! The Ring Fetcher (R195, R211, R327): how a packet of a SUB ring is begun, and how a FENCE ends. -/
namespace Sys2Proof.Machine
open Sys2Proof

/-! ### A packet is begun -/

/-- The Fetcher looks at ring n: the ring is installed, no packet of it is under way, and no change and no retry of its context waits. -/
structure State.MayFetch (s : State) (n : Fin 32768) : Prop where
  working : s.working = true
  installed : s.note n.val ≠ 0
  idle : s.fetchOf n.val = none
  reachable : s.cache.stuck.contains (false, n.val) = false
  settled : s.ringWaits n.val = false

/-- The context of a ring is read. -/
def State.fetchRead (s : State) (n : Fin 32768) (f : CcFault) : State × Option Ctx := s.ringLoad unitFetcher n.val f
/-- It has been read, and that of the CPL ring that it names is read. -/
def State.cplRead (s : State) (n : Fin 32768) (x : Ctx) (f : CcFault) : State × Option Ctx :=
  (s.fetchRead n f).1.ringLoad unitFetcher x.cplRing f
/-- Both have been read, and a completion slot is reserved in the SUB ring. -/
def State.subReserved (s : State) (n : Fin 32768) (x : Ctx) (f : CcFault) : State × Bool :=
  (s.cplRead n x f).1.ringStore unitFetcher n.val (x.setOut (x.out + 1)) f
/-- It is reserved in the CPL ring y too. -/
def State.cplReserved (s : State) (n : Fin 32768) (x y : Ctx) (f : CcFault) : State × Bool :=
  (s.subReserved n x f).1.ringStore unitFetcher x.cplRing (y.setOut (y.out + 1)) f
/-- The next packet of ring n, whose context is x, as the Fetcher begins it. -/
def State.nextPacket (s : State) (n : Fin 32768) (x : Ctx) (m : Option (Fin 5)) : Fetching :=
  { ring := n.val, owner := x.owner, slot := x.cons, size := x.size, base := x.base, home := x.home, prio := x.prio, urgent := x.urgent,
    words := [], mawBad := m.map Fin.val, done := false, route := none, pushed := 0, packet := s.serial }
/-- The packet is under way, and its first beat is asked for. -/
def State.beginPacket (s : State) (n : Fin 32768) (x : Ctx) (m : Option (Fin 5)) : State :=
  ({ s with fetching := s.fetching ++ [s.nextPacket n x m], serial := s.serial + 1 } : State).fetchAsk (s.nextPacket n x m)

section Fetch
variable {s : State} {n : Fin 32768} {f : CcFault} {m : Option (Fin 5)} (H : s.MayFetch n)
include H

theorem State.MayFetch.not_barred :
    ¬ (¬ s.working ∨ s.note n.val = 0 ∨ (s.fetchOf n.val).isSome ∨ s.cache.stuck.contains (false, n.val) ∨ s.ringWaits n.val) := by
  rw [H.working, H.idle, H.reachable, H.settled]
  simpa using H.installed

theorem State.MayFetch.unread (hnone : (s.fetchRead n f).2 = none) (residue : Bool) :
    exec (.ringFetch n f residue m) s = looked s ((s.fetchRead n f).1.stick false n.val) := by
  unfold State.fetchRead at hnone ⊢
  refine (if_neg H.not_barred).trans ?_
  simp only [hnone]

variable {x : Ctx} (hread : (s.fetchRead n f).2 = some x) (hkind : x.kind = 1) (hstate : x.state = 0) (hfetches : s.fetches x.owner = true)
include hread hkind hstate hfetches

/-- A residue mismatch of an ACTIVE SUB ring is judged before its indices. -/
theorem State.MayFetch.unsound {residue : Bool} (h : residue = true ∨ x.sound = false) :
    exec (.ringFetch n f residue m) s = looked s ((s.fetchRead n f).1.ringError n.val 3) := by
  unfold State.fetchRead at hread ⊢
  refine (if_neg H.not_barred).trans ?_
  simp only [hread]
  rw [if_neg (by simp [hkind, hstate, hfetches]), if_pos (h.imp_right Bool.eq_false_iff.mp)]

variable (hsound : x.sound = true)
include hsound

theorem State.MayFetch.nothing (h : x.prod = x.cons ∨ s.ringWaits x.cplRing = true) :
    exec (.ringFetch n f false m) s = looked s (s.fetchRead n f).1 := by
  unfold State.fetchRead at hread ⊢
  refine (if_neg H.not_barred).trans ?_
  simp only [hread]
  rw [if_neg (by simp [hkind, hstate, hfetches]), if_neg (by simp [hsound]), if_pos h]

/-- A packet is offered: it is begun where the CPL ring has a slot for its completion. -/
theorem State.MayFetch.offered (hoffered : x.prod ≠ x.cons) (hsettled : s.ringWaits x.cplRing = false) {y : Ctx}
    (hcpl : (s.cplRead n x f).2 = some y) : exec (.ringFetch n f false m) s =
      if y.kind ≠ 2 ∨ y.state ≠ 0 then looked s (s.cplRead n x f).1
      else if ¬ y.sound then looked s ((s.cplRead n x f).1.ringError x.cplRing 3)
      else if y.freeSlots ≤ y.out then looked s (s.cplRead n x f).1
      else looked s (if (s.subReserved n x f).2 ∧ (s.cplReserved n x y f).2 then (s.cplReserved n x y f).1.beginPacket n x m
        else (s.backTo (s.cplReserved n x y f).1).stick false n.val) := by
  unfold State.beginPacket State.cplReserved State.subReserved
  unfold State.cplRead at hcpl ⊢
  unfold State.fetchRead at hread hcpl ⊢
  refine (if_neg H.not_barred).trans ?_
  simp only [hread]
  rw [if_neg (by simp [hkind, hstate, hfetches]), if_neg (by simp [hsound]), if_neg (by simp [hoffered, hsettled])]
  simp only [hcpl]
  rfl

end Fetch

/-! ### A FENCE -/

/-- The Fetcher holds a FENCE of ring n, whose context can be looked up. -/
structure State.HoldsFence (s : State) (n : Fin 32768) (e : Fetching) : Prop where
  working : s.working = true
  packet : s.fetchOf n.val = some e
  done : e.done = true
  fence : hdrOp (e.words.headD 0) = 0x0E
  reachable : s.cache.stuck.contains (false, n.val) = false

section Fence
variable {s : State} {n : Fin 32768} {f : CcFault} {e : Fetching} (H : s.HoldsFence n e)
include H

theorem State.HoldsFence.unread (hnone : (s.fetchRead n f).2 = none) :
    exec (.opFence n f) s = looked s ((s.fetchRead n f).1.stick false n.val) := by
  unfold State.fetchRead at hnone ⊢
  refine (if_pos H.working).trans ?_
  simp only [H.packet, H.done, H.fence, H.reachable, hnone, Bool.false_eq_true, not_false_eq_true, and_self, if_true]
/-- It ends once it is the ring's only packet outstanding and no change of the ring waits (R195). -/
theorem State.HoldsFence.read {x : Ctx} (hread : (s.fetchRead n f).2 = some x) : exec (.opFence n f) s = looked s
    (if x.out = 1 ∧ ¬ s.ringWaits n.val then (s.fetchRead n f).1.fetchEnds e stOk 0 false else (s.fetchRead n f).1) := by
  unfold State.fetchRead at hread ⊢
  refine (if_pos H.working).trans ?_
  simp only [H.packet, H.done, H.fence, H.reachable, hread, Bool.false_eq_true, not_false_eq_true, and_self, if_true]

end Fence
end Sys2Proof.Machine

open Sys2Proof Sys2Proof.Machine

/-- Settles O35: the Fetcher judges the SUB ring's context, then that of the CPL ring that it names (`State.MayFetch.offered`), and
reserves a slot in both before the packet is begun. -/
theorem packetFetch : Obligations.PacketFetch := by
  unfold Obligations.PacketFetch
  refine ⟨?packets, ?fences⟩
  case packets =>
    intro s n f m hwork hnote hidle hstuck hwaits r
    have H : s.MayFetch n := ⟨hwork, hnote, hidle, hstuck, hwaits⟩
    refine ⟨fun hnone => found_of_looked (H.unread hnone false), fun x hx hkind hstate hfetches =>
      ⟨found_of_looked (H.unsound hx hkind hstate hfetches (.inl rfl)),
        fun hsound => found_of_looked (H.unsound hx hkind hstate hfetches (.inr hsound)),
        fun hsound h => found_of_looked (H.nothing hx hkind hstate hfetches hsound h), fun hsound hoffered hsettled => ?offered⟩⟩
    case offered =>
      intro q y hy
      have hexec := H.offered (m := m) hx hkind hstate hfetches hsound hoffered hsettled hy
      have hlive (hkind : y.kind = 2) (hstate : y.state = 0) := hexec.trans (if_neg fun h => h.elim (· hkind) (· hstate))
      refine ⟨fun hdead => found_of_looked (hexec.trans (if_pos hdead)),
        fun hkind hstate hsound => found_of_looked ((hlive hkind hstate).trans (if_pos (Bool.eq_false_iff.mp hsound))),
        fun hkind hstate hsound hfull => ?full, fun hkind hstate hsound hroom => ?room⟩
      case full => exact found_of_looked ((hlive hkind hstate).trans ((if_neg (not_not.mpr hsound)).trans (if_pos hfull)))
      case room =>
        intro t1 t2 s2 e
        have hreserves : exec (.ringFetch n f false m) s = looked s
            (if t1.2 ∧ t2.2 then t2.1.beginPacket n x m else (s.backTo t2.1).stick false n.val) :=
          (hlive hkind hstate).trans ((if_neg (not_not.mpr hsound)).trans (if_neg (Nat.not_le.mpr hroom)))
        refine ⟨fun hlost => found_of_looked (hreserves.trans (congrArg (looked s) (if_neg ?_))),
          fun hsub hcpl => found_of_looked (hreserves.trans (congrArg (looked s) (if_pos ⟨hsub, hcpl⟩)))⟩
        exact fun h => hlost.elim (Bool.eq_false_iff.mp · h.1) (Bool.eq_false_iff.mp · h.2)
  case fences =>
    intro s n f e hwork hpacket hdone hfence hstuck r
    have H : s.HoldsFence n e := ⟨hwork, hpacket, hdone, hfence, hstuck⟩
    refine ⟨fun hnone => found_of_looked (H.unread hnone), fun x hx => ⟨fun hout hsettled => ?ends, fun h => ?stays⟩⟩
    case ends => exact found_of_looked ((H.read hx).trans (congrArg (looked s) (if_pos ⟨hout, Bool.eq_false_iff.mp hsettled⟩)))
    case stays =>
      exact found_of_looked ((H.read hx).trans (congrArg (looked s) (if_neg fun ⟨hout, hsettled⟩ => h.elim (· hout) hsettled)))
end

section
/-! The intakes of a cluster (R198 to R201, R212): words pushed and packets popped, flushes, and the clears of histograms (R227, R262,
R364). -/
namespace Sys2Proof.Machine
open Sys2Proof

/-! ### A word is pushed -/

/-- The Fetcher offers an intake a word of packet e, with no perturbation in the way. -/
structure State.Offers (s : State) (c : Fin 16) (urgent : Bool) (e : Fetching) : Prop where
  working : s.working = true
  up : s.clusterUp c.val = true
  packet : s.offered c.val urgent = some e
  quiet : s.opportunity (clA c.val 0) 0 = (s, [])
  alive : (s.cluster c.val).quillDead = false

/-- The intake has taken a word: a flush of the packet before it is over (R201). -/
def State.intakeTakes (s : State) (c : Nat) (urgent : Bool) : State := s.modIntake c urgent (fun k => { k with skip := false })

section Push
variable {s : State} {c : Fin 16} {urgent : Bool} {e : Fetching} (H : s.Offers c urgent e)
include H

/-- The word is refused, discarded under FLUSH_SKIP or with the rest of a lost packet, or committed; then its check decides. -/
theorem State.Offers.push {ecc : Ecc} (hecc : ecc ≠ .corrected) : exec (.intakePush c urgent ecc) s =
    if ¬ ((s.cluster c.val).intake urgent).room urgent (decide (e.pushed = 0)) then looked s s
    else if ((s.cluster c.val).intake urgent).skip ∧ e.pushed ≠ 0 then looked s (s.intakeSkip c.val e)
    else if s.orphan c.val urgent e then looked s (s.fetchGone e (hdrNw (e.words.headD 0) + 1) true false)
    else looked s (if ecc = .uncorrectable then
        ((s.intakeTakes c.val urgent).intakeUncorr c.val urgent ((s.cluster c.val).intake urgent).words.length).intakeRewind c.val urgent e
      else (s.intakeTakes c.val urgent).intakeCommit c.val urgent e) := by
  refine (if_pos ⟨H.working, H.up⟩).trans ?_
  simp only [H.packet, H.quiet, H.alive, hecc, fired_nil, Option.isSome_none, Bool.false_eq_true, false_or, or_false, if_false, decide_eq_true_eq]
  rfl

theorem State.Offers.push_full {ecc : Ecc} (hecc : ecc ≠ .corrected)
    (hfull : ((s.cluster c.val).intake urgent).room urgent (decide (e.pushed = 0)) = false) : exec (.intakePush c urgent ecc) s = looked s s :=
  (H.push hecc).trans (if_pos (Bool.eq_false_iff.mp hfull))

variable (hroom : ((s.cluster c.val).intake urgent).room urgent (decide (e.pushed = 0)) = true)
include hroom

theorem State.Offers.push_skip {ecc : Ecc} (hecc : ecc ≠ .corrected) (hskip : ((s.cluster c.val).intake urgent).skip = true)
    (hbegun : e.pushed ≠ 0) : exec (.intakePush c urgent ecc) s = looked s (s.intakeSkip c.val e) :=
  (H.push hecc).trans ((if_neg (not_not.mpr hroom)).trans (if_pos ⟨hskip, hbegun⟩))
theorem State.Offers.push_word {ecc : Ecc} (hecc : ecc ≠ .corrected)
    (hskip : ((s.cluster c.val).intake urgent).skip = false ∨ e.pushed = 0) (hkept : s.orphan c.val urgent e = false) :
    exec (.intakePush c urgent ecc) s = looked s (if ecc = .uncorrectable then
        ((s.intakeTakes c.val urgent).intakeUncorr c.val urgent ((s.cluster c.val).intake urgent).words.length).intakeRewind c.val urgent e
      else (s.intakeTakes c.val urgent).intakeCommit c.val urgent e) := by
  rw [H.push hecc, if_neg (not_not.mpr hroom), if_neg, if_neg (Bool.eq_false_iff.mp hkept)]
  exact fun ⟨h, hbegun⟩ => hskip.elim (Bool.eq_false_iff.mp · h) hbegun

end Push

/-! ### A packet is popped -/

/-- The words of a packet leave the intake. -/
def State.intakeTaken (s : State) (c : Nat) (urgent : Bool) (w : IntakeWord) : State :=
  s.modIntake c urgent (fun k => { k with words := k.words.filter (fun v => v.packet ≠ w.packet) })
/-- The words of a packet that stand in an intake. -/
def State.intakeWords (s : State) (c : Nat) (urgent : Bool) (w : IntakeWord) : List (BitVec 512) :=
  (((s.cluster c).intake urgent).words.filter (fun v => v.packet = w.packet)).map (·.bits)

section Pop
variable {s : State} {c : Fin 16} (hwork : s.working = true) (hup : s.clusterUp c.val = true)
include hwork hup

/-- The dispatcher takes the next packet where a handle is free (R198, R212). -/
theorem exec_intakePop {urgent : Bool} {w : IntakeWord} {h : Nat} (hnext : s.popNext c.val = some (urgent, w))
    (hhandle : s.lowHandle c.val = some h) {ecc : Ecc} (hecc : ecc ≠ .corrected) : exec (.intakePop c ecc) s =
      if ecc = .uncorrectable then looked s (((s.intakeTaken c.val urgent w).intakeUncorr c.val urgent 0).refusePacket c.val h w
        (packetOf (s.intakeWords c.val urgent w)) 0x13)
      else looked s ((s.intakeTaken c.val urgent w).dispatchPacket c.val h w (s.intakeWords c.val urgent w)) := by
  refine (if_pos ⟨hwork, hup⟩).trans ?_
  simp only [hnext, hhandle, hecc, if_false]
  rfl
theorem exec_intakePop_idle (h : s.popNext c.val = none ∨ s.lowHandle c.val = none) (ecc : Ecc) : exec (.intakePop c ecc) s = idle s := by
  refine (if_pos ⟨hwork, hup⟩).trans ?_
  obtain hnone | hnone := h
  · simp only [hnone]
  · cases hnext : s.popNext c.val with
    | none => rfl
    | some _ => simp only [hnone]

end Pop
end Sys2Proof.Machine

open Sys2Proof Sys2Proof.Machine

/-- Settles O36: a push is refused, skipped, committed or rewound in the order of `State.Offers.push`, and a pop takes the packet and the
handle that stand first (`exec_intakePop`). -/
theorem intakeMoves : Obligations.IntakeMoves := by
  unfold Obligations.IntakeMoves
  intro s c urgent hwork hup
  refine ⟨fun e hoffered hquiet halive => ?push, fun w h hnext hhandle => ?pop,
    fun hnone => yields_of_idle (exec_intakePop_idle hwork hup hnone .clean)⟩
  case push =>
    intro k s1
    have H : s.Offers c urgent e := ⟨hwork, hup, hoffered, hquiet, halive⟩
    exact ⟨fun hfull => found_of_looked (H.push_full nofun hfull),
      fun hroom hskip hkept => ⟨found_of_looked (H.push_word hroom nofun hskip hkept), found_of_looked (H.push_word hroom nofun hskip hkept)⟩,
      fun hroom hskip hbegun => found_of_looked (H.push_skip hroom nofun hskip hbegun)⟩
  case pop =>
    intro ws s1
    exact ⟨found_of_looked (exec_intakePop hwork hup hnext hhandle nofun), found_of_looked (exec_intakePop hwork hup hnext hhandle nofun)⟩

namespace Sys2Proof.Machine
open Sys2Proof

/-! ### Flushes (R201) -/

theorem State.flushNamed_bulk {u : State} {w : Word} (hbulk : bit w 0 = true) (hurgent : bit w 1 = false) (c : Nat) :
    u.flushNamed c w = u.flush c false none := by simp [State.flushNamed, hbulk, hurgent]
theorem State.flushNamed_urgent {u : State} {w : Word} (hbulk : bit w 0 = false) (hurgent : bit w 1 = true) (c : Nat) :
    u.flushNamed c w = u.flush c true none := by simp [State.flushNamed, hbulk, hurgent]
theorem State.flushNamed_both {u : State} {w : Word} (hbulk : bit w 0 = true) (hurgent : bit w 1 = true) (c : Nat) :
    u.flushNamed c w = (u.flush c false none).flush c true none := by simp [State.flushNamed, hbulk, hurgent]

section Flush
variable {s u : State} {c : Fin 16} {a : RpAcc} (hu : (s.accepting (clA c.val Reg.CL_INTAKE_FLUSH) a).flushNamed c.val a.data = u)
include hu

theorem writes_intakeFlushBulk (hbulk : bit a.data 0 = true) : Writes (.intakeFlushBulk c a) s (clA c.val Reg.CL_INTAKE_FLUSH) a u :=
  writes_of rfl ((if_pos hbulk).trans hu)
theorem writes_intakeFlushUrgent (hurgent : bit a.data 1 = true) : Writes (.intakeFlushUrgent c a) s (clA c.val Reg.CL_INTAKE_FLUSH) a u :=
  writes_of rfl ((if_pos hurgent).trans hu)

end Flush

/-! ### Histograms (R227, R262, R364) -/

/-- The n buckets of a histogram are zeroed. -/
def State.histCleared (u : State) (hist n : Nat) : State := (List.range n).foldl (fun t k => t.setReg (winKey hist k) 0) u
theorem State.histCleared_regAt {u : State} (hcanon : u.canon = true) {hist n i : Nat} (hi : i < n) :
    (u.histCleared hist n).regAt (winKey hist i) = 0 := by
  rw [State.histCleared, State.regAt_clearRegs (winKey hist) _ hcanon, if_pos ⟨i, List.mem_range.mpr hi, rfl⟩]
/-- CLEAR zeroes every bucket of the histogram that the select register is for, after the register's fields have been written. -/
theorem writes_histClear {s : State} {a : RpAcc} {c : Instr} {sel hist n : Nat} (hexec : exec c s = done s (s.histWrite sel hist n 31 a))
    (hclear : bit a.data 31 = true) : Writes c s sel a (((s.accepting sel a).writeRow sel false a.data).histCleared hist n) :=
  writes_of hexec (if_pos hclear)

end Sys2Proof.Machine

open Sys2Proof Sys2Proof.Machine

/-- Settles O37: a flush with both bits is that of both intakes, whichever command writes it, and a CLEAR zeroes the buckets one by one
(`State.histCleared`). -/
theorem flushAndClear : Obligations.FlushAndClear := by
  unfold Obligations.FlushAndClear
  intro s a
  refine ⟨fun c => ?flushes, fun hclear c A B n h => ?clear⟩
  case flushes =>
    intro A u
    have hboth (hbulk : bit a.data 0 = true) (hurgent : bit a.data 1 = true) := State.flushNamed_both (u := u) hbulk hurgent c.val
    exact ⟨fun hbulk hurgent => writes_intakeFlushBulk (State.flushNamed_bulk hbulk hurgent c.val) hbulk,
      fun hbulk hurgent => writes_intakeFlushUrgent (State.flushNamed_urgent hbulk hurgent c.val) hurgent,
      fun hbulk hurgent => ⟨writes_intakeFlushBulk (hboth hbulk hurgent) hbulk, writes_intakeFlushUrgent (hboth hbulk hurgent) hurgent⟩,
      fun hbulk => writes_of rfl (if_neg (Bool.eq_false_iff.mp hbulk)), fun hurgent => writes_of rfl (if_neg (Bool.eq_false_iff.mp hurgent))⟩
  case clear =>
    have hexec : exec c s = done s (s.histWrite A B n 31 a) := by
      obtain ⟨g, rfl, rfl, rfl, rfl⟩ | ⟨g, rfl, rfl, rfl, rfl⟩ | ⟨rfl, rfl, rfl, rfl⟩ := h <;> rfl
    refine ⟨_, writes_histClear hexec hclear, fun hcanon i hi => State.histCleared_regAt ?_ hi⟩
    exact (State.writeRow_ok _ A false a.data (State.ok_self hcanon)).2
end

section
/-! Selections of a lane (R215, R217), zero fills (R288), and the records of the notify path: completions and late errors (R204 to R208,
R302, R327). -/
namespace Sys2Proof.Machine
open Sys2Proof

/-! ### Selections -/

/-- The state in which a selection of lane g chooses: behind the seal copy, the deferred commands and the erase policy. -/
def State.beforePick (s : State) (g : Nat) : State := ((s.sealNext g).deferWaiting g).lanePolicy g

section Selection
variable {s : State} {lane : Fin 128} {f : CcFault} {upset : Upset} (hwork : s.working = true) (hup : s.laneUp lane.val = true)
include hwork hup

theorem exec_selection_waits (hwait : ((s.beforePick lane.val).lane lane.val).blockWait = true) :
    exec (.selection lane f upset) s = looked s (s.beforePick lane.val) := (if_pos ⟨hwork, hup⟩).trans (if_pos hwait)
theorem exec_selection (hfree : ((s.beforePick lane.val).lane lane.val).blockWait = false) : exec (.selection lane f upset) s =
    looked s (State.selectLoop lane.val f ((s.beforePick lane.val).cmdsOn lane.val).length upset (s.beforePick lane.val)) :=
  (if_pos ⟨hwork, hup⟩).trans (if_neg (Bool.eq_false_iff.mp hfree))

end Selection

section Loop
variable {u : State} {g : Nat} {f : CcFault} {upset : Upset}

theorem State.selectLoop_none (hnone : u.choose g (u.laneCands g (u.cmdsOn g)) = none) (n : Nat) : State.selectLoop g f n upset u = u := by
  cases n with
  | zero => rfl
  | succ n =>
    rw [State.selectLoop]
    simp only [hnone]
theorem State.selectLoop_pick {e : Entry3} {late : Bool} (hpick : u.choose g (u.laneCands g (u.cmdsOn g)) = some (e, late)) (n : Nat) :
    State.selectLoop g f (n + 1) upset u =
      if (u.tryPick g e late f upset).2 then (u.tryPick g e late f upset).1
      else State.selectLoop g f n .none (u.tryPick g e late f upset).1 := by
  rw [State.selectLoop]
  simp only [hpick]
theorem State.tryPick_refused {e : Entry3} {why : Nat × Nat} (hwhy : (u.pickChecks e.1 e.2.2 f).2.1 = some why) (late : Bool) :
    u.tryPick g e late f upset = ((u.pickChecks e.1 e.2.2 f).1.refuse e.1 e.2.1 e.2.2 why, false) := by
  unfold State.tryPick
  simp only [hwhy]

end Loop

/-! ### A slot is written (R204, R302) -/

/-- The context of a ring whose slot at PROD has taken a record. -/
def Ready.advance (r : Ready) (x : Ctx) : Ctx :=
  let last := x.prod + 1 = x.size
  let y := ((if last then x.setW 6 (putFld (cw x 6) 16 16 (if x.pass then 0 else 1)) else x).setProd (if last then 0 else x.prod + 1)).countPkt
  if r.reserved then y.setOut (y.out - 1) else y
/-- The write of a record to the slot at PROD. -/
def Ready.slotWrite (r : Ready) (x : Ctx) (w : BitVec 256) : HpReq :=
  oneBeat (x.base + 32 * x.prod) (leBytes 32 (w.toNat + (if x.pass then 0 else 2 ^ 24))) 1 (.completion r.subRing r.cplRing x.prod)

theorem Ctx.cw_setW_ne (x : Ctx) {j k : Nat} (hne : k ≠ j) (w : Word) : cw (x.setW j w) k = cw x k := by
  unfold cw Ctx.setW
  rw [List.getD_eq_getElem?_getD, List.getD_eq_getElem?_getD, List.getElem?_set_ne hne.symm]
/-- Words 0 and 1, with KIND, STATE, the size and BASE, stay. -/
theorem Ready.cw_advance (r : Ready) (x : Ctx) {k : Nat} (hk : k < 2) : cw (r.advance x) k = cw x k := by
  have h4 : k ≠ 4 := by omega
  have h6 : k ≠ 6 := by omega
  have h8 : k ≠ 8 := by omega
  unfold Ready.advance Ctx.setOut Ctx.setProd Ctx.countPkt Ctx.residues
  dsimp only
  split <;> split <;> simp only [Ctx.cw_setW_ne _ h4, Ctx.cw_setW_ne _ h6, Ctx.cw_setW_ne _ h8]

/-- A ring without a vector: its context is stored, and the record is presented on its port. -/
theorem State.writeSlot_unvectored {x : Ctx} (hvec : x.vecEn = false) (s : State) (r : Ready) (w : BitVec 256) (f : CcFault) (bad : Option (Fin 5)) :
    s.writeSlot r x w f bad = if (s.ringStore unitNotify r.cplRing (r.advance x) f).2 then
        ((s.ringStore unitNotify r.cplRing (r.advance x) f).1.modPort r.port (fun q => q.notify (r.slotWrite x w)), true)
      else ((s.ringStore unitNotify r.cplRing (r.advance x) f).1, false) := by
  unfold State.writeSlot
  simp only [hvec, Bool.false_eq_true, if_false]
  rfl

/-! ### Completions (R204 to R207) -/

/-- The context of a record's ring is read. -/
def State.notifyRead (s : State) (r : Ready) (f : CcFault) : State × Option Ctx := s.ringLoad unitNotify r.cplRing f
/-- A ring takes a record: it is a CPL ring that is not in ERROR, for a record without reservation ACTIVE, and for an event with room. -/
abbrev Ready.Taken (r : Ready) (x : Ctx) : Prop :=
  x.kind = 2 ∧ (if r.reserved then x.state ≠ 2 else x.state = 0) ∧ (r.subRing = some 0xFFFF → x.out < x.freeSlots)
/-- What a command's completion carries is fixed (R302). -/
def State.presented (u : State) (r : Ready) : State :=
  match r.reserved, r.handle with
  | true, some k => u.present (k / 2048) (k % 2048)
  | _, _ => u
/-- A record of u has been written, and the state is t: the latency of a command is counted. -/
def State.latencyCounted (t u : State) (r : Ready) : State :=
  match r.reserved, u.readyCmd r with
  | true, some c => t.countLatency c (u.latency c.seenAt)
  | _, _ => t
/-- A summary record counts in the reset under way (R391). -/
def State.summaryCounted (t : State) (r : Ready) : State :=
  if r.isSummary then t.modTenants (fun y => { y with written := y.written + 1 }) else t

theorem State.latencyCounted_none {u : State} {r : Ready} (h : r.reserved = false ∨ u.readyCmd r = none) (t : State) :
    t.latencyCounted u r = t := by
  unfold State.latencyCounted
  obtain h | h := h
  · rw [h]
  · rw [h]
    cases r.reserved <;> rfl
theorem State.latencyCounted_some {u : State} {r : Ready} {c : Cmd} (hreserved : r.reserved = true) (hcmd : u.readyCmd r = some c) (t : State) :
    t.latencyCounted u r = t.countLatency c (u.latency c.seenAt) := by
  unfold State.latencyCounted
  simp only [hreserved, hcmd]

section WriteReady
variable {s : State} {r : Ready} {f : CcFault} {residue : Bool} {bad : Option (Fin 5)}

theorem State.writeReady_unread (hnone : (s.notifyRead r f).2 = none) :
    s.writeReady r f residue bad = (s.notifyRead r f).1.stick true r.cplRing := by
  unfold State.notifyRead at hnone ⊢
  unfold State.writeReady
  simp only [hnone]

variable {x : Ctx} (hread : (s.notifyRead r f).2 = some x)
include hread

/-- A record whose ring does not take it is dropped; else the ring's residues are judged, and the record is written. -/
theorem State.writeReady_read : s.writeReady r f residue bad =
    if ¬ r.Taken x then (s.notifyRead r f).1.dropReady r x
    else if (residue ∨ ¬ x.sound) ∧ x.state ≠ 2 then (s.notifyRead r f).1.ringError r.cplRing 3
    else
      let u := (s.notifyRead r f).1.presented r
      let t := u.writeSlot r x (u.readyWords r) f bad
      if t.2 then ((t.1.latencyCounted u r).summaryCounted r).afterRecord r else (s.backTo t.1).stick true r.cplRing := by
  have hdead : (x.kind ≠ 2 ∨ (if r.reserved then x.state = 2 else x.state ≠ 0) ∨ (r.subRing = some 0xFFFF ∧ ¬ x.out < x.freeSlots)) ↔
      ¬ r.Taken x := by
    unfold Ready.Taken
    cases r.reserved <;> simp [imp_iff_not_or]
  unfold State.notifyRead at hread ⊢
  unfold State.writeReady
  simp only [hread, hdead]
  rfl

theorem State.writeReady_dropped (hnot : ¬ r.Taken x) : s.writeReady r f residue bad = (s.notifyRead r f).1.dropReady r x :=
  (State.writeReady_read hread).trans (if_pos hnot)

variable (htaken : r.Taken x)
include htaken

theorem State.writeReady_unsound (hstate : x.state ≠ 2) (h : residue = true ∨ x.sound = false) :
    s.writeReady r f residue bad = (s.notifyRead r f).1.ringError r.cplRing 3 := by
  rw [State.writeReady_read hread, if_neg (not_not.mpr htaken), if_pos ⟨h.imp_right Bool.eq_false_iff.mp, hstate⟩]
theorem State.writeReady_sound (hsound : x.sound = true) : s.writeReady r f false bad =
    let u := (s.notifyRead r f).1.presented r
    let t := u.writeSlot r x (u.readyWords r) f bad
    if t.2 then ((t.1.latencyCounted u r).summaryCounted r).afterRecord r else (s.backTo t.1).stick true r.cplRing := by
  rw [State.writeReady_read hread, if_neg (not_not.mpr htaken), if_neg]
  exact fun h => h.1.elim Bool.false_ne_true (fun h => h hsound)

end WriteReady

theorem State.waited_of_none {s t : State} (h : t.cache.wanted = none) : s.waited t = t := by
  unfold State.waited
  rw [h]

section CompletionWrite
variable {s : State} {p : Fin 4} {f : CcFault} {bad : Option (Fin 5)} {residue : Bool} (hwork : s.working = true)
include hwork

theorem exec_completionWrite_none (hnone : s.nextReady p.val = none) :
    exec (.completionWrite p f bad none residue) s = done s (s.setAsk p.val false) := by
  refine (if_pos hwork).trans ?_
  simp only [hnone]

variable {r : Ready} (hnext : s.nextReady p.val = some r)
include hnext

theorem exec_completionWrite_busy (hbusy : (s.port p.val).notifyFree = false) :
    exec (.completionWrite p f bad none residue) s = done s (s.setAsk p.val true) := by
  refine (if_pos hwork).trans ?_
  simp only [hnext, hbusy, Bool.false_eq_true, if_false]
/-- On a free channel the record is dealt with, where no lookup is left open. -/
theorem yields_completionWrite (hfree : (s.port p.val).notifyFree = true) {v : State} (hv : s.writeReady r f residue bad = v)
    (hanswered : v.cache.wanted = none) : Yields (.completionWrite p f bad none residue) s (v.setAsk p.val false) := by
  refine yields_of_done ((if_pos hwork).trans ?_)
  simp only [hnext, hfree, if_true, hv, State.waited_of_none hanswered]

end CompletionWrite

/-! ### Late errors (R208) -/

/-- The late error that is dealt with next. -/
def State.lateNext (s : State) : Option Ready :=
  s.lateQ.find? (fun r => s.lateMay r.cplRing && !s.readyWaits r && !s.cache.stuck.contains (true, r.cplRing))

section LateWritten
variable {s : State} {r : Ready} {f : CcFault} {residue : Bool}

theorem State.lateWritten_unread (hnone : (s.notifyRead r f).2 = none) :
    s.lateWritten r f residue = (s.notifyRead r f).1.stick true r.cplRing := by
  unfold State.notifyRead at hnone ⊢
  unfold State.lateWritten
  simp only [hnone]

variable {x : Ctx} (hread : (s.notifyRead r f).2 = some x)
include hread

theorem State.lateWritten_read : s.lateWritten r f residue =
    if x.kind ≠ 2 then (s.notifyRead r f).1.lateGone r
    else if x.state = 2 then ((s.notifyRead r f).1.ringPut r.cplRing (.drop false)).lateGone r
    else if residue ∨ ¬ x.sound then (s.notifyRead r f).1.ringError r.cplRing 3
    else
      let t := (s.notifyRead r f).1.writeSlot r x r.words f none
      if t.2 then t.1.lateGone r else (s.backTo t.1).stick true r.cplRing := by
  unfold State.notifyRead at hread ⊢
  unfold State.lateWritten
  simp only [hread]

theorem State.lateWritten_gone (hkind : x.kind ≠ 2) : s.lateWritten r f residue = (s.notifyRead r f).1.lateGone r :=
  (State.lateWritten_read hread).trans (if_pos hkind)

variable (hkind : x.kind = 2)
include hkind

theorem State.lateWritten_dropped (hstate : x.state = 2) :
    s.lateWritten r f residue = ((s.notifyRead r f).1.ringPut r.cplRing (.drop false)).lateGone r := by
  rw [State.lateWritten_read hread, if_neg (not_not.mpr hkind), if_pos hstate]

variable (hstate : x.state ≠ 2)
include hstate

theorem State.lateWritten_residue : s.lateWritten r f true = (s.notifyRead r f).1.ringError r.cplRing 3 := by
  rw [State.lateWritten_read hread, if_neg (not_not.mpr hkind), if_neg hstate, if_pos (.inl rfl)]
theorem State.lateWritten_sound (hsound : x.sound = true) : s.lateWritten r f false =
    let t := (s.notifyRead r f).1.writeSlot r x r.words f none
    if t.2 then t.1.lateGone r else (s.backTo t.1).stick true r.cplRing := by
  rw [State.lateWritten_read hread, if_neg (not_not.mpr hkind), if_neg hstate, if_neg]
  exact fun h => h.elim Bool.false_ne_true (fun h => h hsound)

end LateWritten

section LateErr
variable {s : State} {f : CcFault} {residue : Bool} (hwork : s.working = true)
include hwork

theorem exec_lateErr_none (hnone : s.lateNext = none) : exec (.lateErr f residue) s = idle s := by
  unfold State.lateNext at hnone
  refine (if_pos hwork).trans ?_
  simp only [hnone]

variable {r : Ready} (hnext : s.lateNext = some r)
include hnext

theorem exec_lateErr_busy (hbusy : (s.port r.port).notifyFree = false) : exec (.lateErr f residue) s = done s (s.setAsk r.port true) := by
  unfold State.lateNext at hnext
  refine (if_pos hwork).trans ?_
  simp only [hnext, hbusy, Bool.false_eq_true, if_false]
theorem yields_lateErr (hfree : (s.port r.port).notifyFree = true) {v : State} (hv : s.lateWritten r f residue = v)
    (hanswered : v.cache.wanted = none) : Yields (.lateErr f residue) s (v.setAsk r.port false) := by
  unfold State.lateNext at hnext
  refine yields_of_done ((if_pos hwork).trans ?_)
  simp only [hnext, hfree, if_true, hv, State.waited_of_none hanswered]

end LateErr
end Sys2Proof.Machine

open Sys2Proof Sys2Proof.Machine

/-- Settles O52: a selection is `State.selectLoop`, a completion `State.writeReady` and a late error `State.lateWritten`; a record goes to
its slot by `State.writeSlot`. -/
theorem selectAndComplete : Obligations.SelectAndComplete := by
  unfold Obligations.SelectAndComplete
  refine ⟨?selection, fun s n hawake hin hzeroing => ?zeroed,
    fun s n hawake hin hup => yields_of_done (if_pos ⟨hawake, hin, rfl, hup ▸ Bool.false_ne_true⟩), ?completion, fun s r x w f hvec hput => ?slot, ?late⟩
  case selection =>
    intro s lane f upset g hwork hup u
    refine ⟨fun hwait => found_of_looked (exec_selection_waits hwork hup hwait),
      fun hfree => ⟨fun hnone => ?none, fun e late n hpick hlen => ?pick⟩⟩
    case none => exact found_of_looked ((exec_selection hwork hup hfree).trans (congrArg (looked s) (State.selectLoop_none hnone _)))
    case pick =>
      intro p r
      have hexec : exec (.selection lane f upset) s = looked s (if r.2 then r.1 else State.selectLoop g f n .none r.1) := by
        rw [exec_selection hwork hup hfree, show ((s.beforePick lane.val).cmdsOn lane.val).length = n + 1 from hlen]
        exact congrArg (looked s) (State.selectLoop_pick hpick n)
      exact ⟨fun hends => found_of_looked (hexec.trans (congrArg (looked s) (if_pos hends))),
        fun hgoes => found_of_looked (hexec.trans (congrArg (looked s) (if_neg (Bool.eq_false_iff.mp hgoes)))),
        fun why hwhy => State.tryPick_refused hwhy late⟩
  case zeroed => exact yields_of_done ((if_neg fun h => Bool.false_ne_true h.2.2.1).trans (if_pos ⟨hawake, hin, hzeroing⟩))
  case completion =>
    intro s p f res bad hwork asks writes
    refine ⟨fun hnone => yields_of_done (exec_completionWrite_none hwork hnone),
      fun r hnext hbusy => yields_of_done (exec_completionWrite_busy hwork hnext hbusy), fun r hnext hfree => ?_⟩
    intro q
    have hwrites {res v} (hv : s.writeReady r f res bad = v) : writes res v := fun _ => yields_completionWrite hwork hnext hfree hv
    refine ⟨fun hnone => hwrites (State.writeReady_unread hnone), fun x hx => ⟨fun hnot => hwrites (State.writeReady_dropped hx hnot),
      fun htaken hstate => hwrites (State.writeReady_unsound hx htaken hstate (.inl rfl)),
      fun htaken hstate hsound => hwrites (State.writeReady_unsound hx htaken hstate (.inr hsound)), fun htaken hsound => ?_⟩⟩
    intro u t
    have hsends : s.writeReady r f false bad = if t.2 then ((t.1.latencyCounted u r).summaryCounted r).afterRecord r
        else (s.backTo t.1).stick true r.cplRing := State.writeReady_sound hx htaken hsound
    have hrecord (hput : t.2 = true) := hsends.trans (if_pos hput)
    have hplain (hnot : r.isSummary = false) (v : State) : v.summaryCounted r = v := if_neg (Bool.eq_false_iff.mp hnot)
    refine ⟨fun hlost => hwrites (hsends.trans (if_neg (Bool.eq_false_iff.mp hlost))), fun hput hnot huntimed => ?untimed,
      fun hput hsummary hreserved => ?summary, fun c hput hnot hreserved hcmd => ?timed⟩
    case untimed => exact hwrites ((hrecord hput).trans (by rw [State.latencyCounted_none huntimed, hplain hnot]))
    case summary =>
      have hcounted : t.1.summaryCounted r = { t.1 with tenants := { t.1.tenants with written := t.1.tenants.written + 1 } } := if_pos hsummary
      exact hwrites ((hrecord hput).trans (by rw [State.latencyCounted_none (.inl hreserved), hcounted]))
    case timed => exact hwrites ((hrecord hput).trans (by rw [State.latencyCounted_some hreserved hcmd, hplain hnot]))
  case slot =>
    have hwritten := State.writeSlot_unvectored hvec s r w f none
    refine ⟨r.advance x, fun k hk => r.cw_advance x hk, fun hcanon => ?_⟩
    by_cases hstored : (s.ringStore unitNotify r.cplRing (r.advance x) f).2 = true
    · rw [hwritten, if_pos hstored]
      exact State.port_self hcanon r.port (fun q => q.notify (r.slotWrite x w))
    · rw [hwritten, if_neg hstored] at hput
      exact absurd hput Bool.false_ne_true
  case late =>
    intro s f res hwork may
    refine ⟨fun hnone => exec_lateErr_none hwork hnone, fun r hnext => ?_⟩
    intro asks writes q
    refine ⟨fun hbusy => yields_of_done (exec_lateErr_busy hwork hnext hbusy), fun hfree => ?_⟩
    have hwrites {res v} (hv : s.lateWritten r f res = v) : writes res v := fun _ => yields_lateErr hwork hnext hfree hv
    refine ⟨fun hnone => hwrites (State.lateWritten_unread hnone), fun x hx => ⟨fun hkind => hwrites (State.lateWritten_gone hx hkind),
      fun hkind hstate => hwrites (State.lateWritten_dropped hx hkind hstate), fun hkind hstate => hwrites (State.lateWritten_residue hx hkind hstate),
      fun hkind hstate hsound => ?_⟩⟩
    intro t
    have hsends : s.lateWritten r f false = if t.2 then t.1.lateGone r else (s.backTo t.1).stick true r.cplRing :=
      State.lateWritten_sound hx hkind hstate hsound
    exact ⟨fun hput => hwrites (hsends.trans (if_pos hput)), fun hlost => hwrites (hsends.trans (if_neg (Bool.eq_false_iff.mp hlost)))⟩
end

section
/-! The flow of a frame (R236 to R250, R262, R263, R335, R338): what an engine does with the frame, the sensing or the unit that it takes,
and where a pass, a step of the walk, a unit or the Scribe's verdict leads it. -/
namespace Sys2Proof.Machine
open Sys2Proof

/-! ### The hard decoders (R240, R244, R245) -/

/-- The frames of an HDE with one more. -/
def State.entersHde (v : State) (c k : Nat) (e : Engine) : State := v.modCluster c (fun q => q.setHde k (q.hde k ++ [e]))
/-- The frame in a slot taken by an HDE for its next pass. -/
def State.slotTaken (v : State) (c g i : Nat) (sl : Slot) : State :=
  (v.modLane g (fun l => { l with slots := Tab.put l.slots i { sl with loaded := true } })).modFrame c sl.handle sl.index
    (fun f => { f with flow := .inHde, pass := f.pass + 1 })

section HdePass
variable {s : State} {cl : Fin 16} {k : Fin 2} {ecc : Ecc} {cc : CcFault} {byte : Fin 4672}

theorem exec_hdePass_none (hwork : s.working = true) (hup : s.clusterUp cl.val = true)
    (hroom : ((s.cluster cl.val).hde k.val).length < 4) (hnone : s.hdeNext cl.val ((s.cluster cl.val).served k.val) = none) :
    exec (.hdePass cl k ecc cc byte) s = idle s := by
  refine (if_pos ⟨hwork, hup, hroom⟩).trans ?_
  simp only [hnone]

/-- HDE k of cluster cl has room, and the frame that it takes next lies in slot i of lane g. -/
structure State.HdeTakes (s : State) (cl : Fin 16) (k : Fin 2) (g i : Nat) (sl : Slot) : Prop where
  working : s.working = true
  up : s.clusterUp cl.val = true
  room : ((s.cluster cl.val).hde k.val).length < 4
  next : s.hdeNext cl.val ((s.cluster cl.val).served k.val) = some (g, i, sl)

variable {g i : Nat} {sl : Slot} (H : s.HdeTakes cl k g i sl) {u : State × Bool}
  (hread : (s.modCluster cl.val (fun q => q.serve k.val (g % 8))).fifoRead g i ecc byte.val = u)
include H hread

theorem State.HdeTakes.lost (hlost : u.2 = true) (hown : sl.foreign = false) :
    exec (.hdePass cl k ecc cc byte) s = looked s (u.1.fifoUncorr g sl.handle sl.index cc) := by
  refine (if_pos ⟨H.working, H.up, H.room⟩).trans ?_
  simp only [H.next, hread, hlost, hown, Bool.false_eq_true, and_false, if_false, if_true]
theorem State.HdeTakes.lostForeign (hlost : u.2 = true) (hforeign : sl.foreign = true) :
    exec (.hdePass cl k ecc cc byte) s = looked s (u.1.modLane g (fun l => { l with slots := Tab.erase l.slots i })) := by
  refine (if_pos ⟨H.working, H.up, H.room⟩).trans ?_
  simp only [H.next, hread, hlost, hforeign, and_self, if_true]

variable {d : State × Frame} (hload : u.1.loadFrame (2 * cl.val + k.val) sl.frame = d) (hgood : u.2 = false)
include hload hgood

theorem State.HdeTakes.foreign (hforeign : sl.foreign = true) :
    exec (.hdePass cl k ecc cc byte) s = looked s (d.1.foreignFrame g i (2 * cl.val + k.val) sl d.2) := by
  refine (if_pos ⟨H.working, H.up, H.room⟩).trans ?_
  simp only [H.next, hread, hload, hgood, hforeign, Bool.false_eq_true, false_and, if_false, if_true]

variable (hown : sl.foreign = false) {f : FrameSt} (hframe : d.1.frame? cl.val sl.handle sl.index = some f)
include hown hframe

/-- An erased frame ends on its first load (R245). -/
theorem State.HdeTakes.erased (hflow : f.flow = .inSlot) (hpass : f.pass = 0) (hones : f.ones = none)
    (hlimit : fld (s.regAt (rgA (g / 64) Reg.RG_DEC_ERASED)) 15 0 ≤ ones sl.frame) :
    exec (.hdePass cl k ecc cc byte) s = looked s
      (((((d.1.modFrame cl.val sl.handle sl.index (fun f => { f with ones := some (ones sl.frame) })).freeSlot g sl.handle sl.index).modFrame
        cl.val sl.handle sl.index (fun f => { f with flow := .erased })).count (lnA g Reg.LN_DEC_ERASED)).frameEnd
        cl.val sl.handle sl.index false .clean) := by
  refine (if_pos ⟨H.working, H.up, H.room⟩).trans ?_
  simp [H.next, hread, hload, hgood, hown, hframe, hflow, hpass, hones, hlimit]
/-- The first load counts the frame's ones, and another frame enters its first pass. -/
theorem State.HdeTakes.counted (hflow : f.flow = .inSlot) (hpass : f.pass = 0) (hones : f.ones = none)
    (hlimit : ones sl.frame < fld (s.regAt (rgA (g / 64) Reg.RG_DEC_ERASED)) 15 0) :
    exec (.hdePass cl k ecc cc byte) s = looked s
      (((d.1.modFrame cl.val sl.handle sl.index (fun f => { f with ones := some (ones sl.frame) })).entersHde cl.val k.val
        ⟨g, sl.handle, sl.index, d.2, s.iter1 g, false, false, none⟩).slotTaken cl.val g i sl) := by
  refine (if_pos ⟨H.working, H.up, H.room⟩).trans ?_
  simp [H.next, hread, hload, hgood, hown, hframe, hflow, hpass, hones, Nat.not_le.mpr hlimit, State.entersHde, State.slotTaken]
/-- A frame whose ones have been counted enters its first pass at once. -/
theorem State.HdeTakes.first (hflow : f.flow = .inSlot) (hpass : f.pass = 0) (hones : f.ones ≠ none) :
    exec (.hdePass cl k ecc cc byte) s = looked s
      ((d.1.entersHde cl.val k.val ⟨g, sl.handle, sl.index, d.2, s.iter1 g, false, false, none⟩).slotTaken cl.val g i sl) := by
  refine (if_pos ⟨H.working, H.up, H.room⟩).trans ?_
  simp [H.next, hread, hload, hgood, hown, hframe, hflow, hpass, hones, State.entersHde, State.slotTaken]
/-- The second pass of a frame is charged, and runs 20 iterations (R244). -/
theorem State.HdeTakes.second (hflow : f.flow = .inSlot) (hpass : f.pass = 1) :
    exec (.hdePass cl k ecc cc byte) s = looked s
      (((d.1.chargeFrame g sl.handle).entersHde cl.val k.val ⟨g, sl.handle, sl.index, d.2, 20, true, false, none⟩).slotTaken cl.val g i sl) := by
  refine (if_pos ⟨H.working, H.up, H.room⟩).trans ?_
  simp [H.next, hread, hload, hgood, hown, hframe, hflow, hpass, State.entersHde, State.slotTaken]
/-- A step of the walk decodes as a second pass does, and its slot is free at once (R262). -/
theorem State.HdeTakes.step (hflow : f.flow = .gambitSense) :
    exec (.hdePass cl k ecc cc byte) s = looked s
      (((d.1.chargeFrame g sl.handle).entersHde cl.val k.val ⟨g, sl.handle, sl.index, d.2, 20, true, true, none⟩).freeSlot
        g sl.handle sl.index) := by
  refine (if_pos ⟨H.working, H.up, H.room⟩).trans ?_
  simp [H.next, hread, hload, hgood, hown, hframe, hflow, State.entersHde]

end HdePass

section HdeDone
variable {s : State} {cl : Fin 16} {k : Fin 2} {h : Fin 2048} {j : Fin 32} {cc : CcFault} {ecc : Ecc} {e : Engine} (hwork : s.working = true)
  (hup : s.clusterUp cl.val = true)
  (hfind : ((s.cluster cl.val).hde k.val).find? (fun e => e.handle = h.val && e.frame = j.val) = some e)

/-- The code word that a pass came to. -/
def Engine.code (e : Engine) : Frame := BitVec.ofNat 37376 (hdeDecode e.refeed e.limit e.bits).bits
/-- A pass over: its frame has left the engine, whose counters have taken its result. -/
def State.leavesHde (s : State) (c k : Nat) (e : Engine) : State :=
  (s.modCluster c (fun q => q.setHde k ((q.hde k).erase e))).decoded (2 * c + k) (hdeDecode e.refeed e.limit e.bits) (ones (e.code ^^^ e.bits))

include hwork hup hfind

theorem exec_hdeDone_decoded (hok : (hdeDecode e.refeed e.limit e.bits).ok = true) :
    exec (.hdeDone cl k h j cc ecc) s = looked s
      (let v := (s.leavesHde cl.val k.val e).outletSlab cl.val e.handle e.frame ecc
       if e.gambit then v.stepDecoded e.lane e.handle e.frame e.code e.bits cc else v.outlet e.lane e.handle e.frame e.code e.bits cc) := by
  refine (if_pos ⟨hwork, hup⟩).trans ?_
  simp only [hfind, hok, if_true]
  rfl

variable (hfail : (hdeDecode e.refeed e.limit e.bits).ok = false)
include hfail

theorem exec_hdeDone_stepFailed (hstep : e.gambit = true) :
    exec (.hdeDone cl k h j cc ecc) s = looked s ((s.leavesHde cl.val k.val e).stepFailed e.lane e.handle e.frame cc) := by
  refine (if_pos ⟨hwork, hup⟩).trans ?_
  simp only [hfind, hfail, hstep, Bool.false_eq_true, if_false, if_true]
  rfl

variable (hpass : e.gambit = false)
include hpass

theorem exec_hdeDone_hardFailed (hlast : e.refeed = true ∨ bit (s.decCtl e.lane) 8 = false) :
    exec (.hdeDone cl k h j cc ecc) s = looked s ((s.leavesHde cl.val k.val e).hardFailed e.lane e.handle e.frame cc) := by
  have hnot : ¬ (¬ e.refeed = true ∧ bit (s.decCtl e.lane) 8 = true) := fun ⟨hfirst, hsecond⟩ =>
    hlast.elim hfirst (fun hnone => Bool.false_ne_true (hnone.symm.trans hsecond))
  refine (if_pos ⟨hwork, hup⟩).trans ?_
  simp only [hfind, hfail, hpass, hnot, Bool.false_eq_true, if_false]
  rfl
/-- A failed first pass puts the frame back into its slot for the second (R244). -/
theorem exec_hdeDone_again (hfirst : e.refeed = false) (hsecond : bit (s.decCtl e.lane) 8 = true) {i : Nat} {sl : Slot}
    (hslot : ((s.leavesHde cl.val k.val e).lane e.lane).slotOf e.handle e.frame = some (i, sl)) :
    exec (.hdeDone cl k h j cc ecc) s = looked s
      (((s.leavesHde cl.val k.val e).modLane e.lane (fun l => { l with slots := Tab.put l.slots i { sl with loaded := false } })).modFrame
        cl.val e.handle e.frame (fun f => { f with flow := .inSlot, redecoded := true })) := by
  refine (if_pos ⟨hwork, hup⟩).trans ?_
  simp only [hfind, hfail, hpass, Bool.false_eq_true, if_false]
  refine (if_pos ⟨Bool.eq_false_iff.mp hfirst, hsecond⟩).trans ?_
  refine congrArg (fun t : State => looked s (t.modFrame cl.val e.handle e.frame (fun f => { f with flow := .inSlot, redecoded := true })))
    (State.modLane_congr (s := s.leavesHde cl.val k.val e) ?_)
  simp only [hslot]

end HdeDone

/-! ### The soft decoders (R241, R244, R250) -/

/-- The context of a frame on lane g under the settings of RG_DEC_CTL. -/
def State.ctxFor (s : State) (g h k : Nat) (hard : Frame) (want : Nat) (gambit : Bool) : SdeCtx :=
  { cluster := g / 8, lane := g, handle := h, frame := k, hard := hard, soft := [], want := want, gambit := gambit, ctl := s.decCtl g }

section ContextGrant
variable {s : State} {r : Fin 2} {ecc : Ecc} {cc : CcFault} {byte : Fin 4672} {g h k i n : Nat} {rest : List (Nat × Nat × Nat)} {sl : Slot}
  (hwork : s.working = true) (hregion : r.val < s.nRegions) (hawake : (s.region r.val).dozed = false)
  (hwaiting : (s.region r.val).waiting = (g, h, k) :: rest) (hfree : s.freeCtx r.val = some i) (hslot : (s.lane g).slotOf h k = some (n, sl))
  {u : State × Bool} (hread : (s.modRegion r.val (fun y => { y with waiting := rest })).fifoRead g n ecc byte.val = u)
include hwork hregion hawake hwaiting hfree hslot hread

theorem exec_sdeContextGrant_lost (hlost : u.2 = true) :
    exec (.sdeContextGrant r ecc cc byte) s = looked s (u.1.fifoUncorr g h k cc) := by
  refine (if_pos ⟨hwork, hregion, Bool.eq_false_iff.mp hawake⟩).trans ?_
  simp only [hwaiting, hfree, hslot, hread, hlost, if_true]

variable (hgood : u.2 = false) {d : State × Frame} (hload : u.1.loadFrame (32 + 8 * r.val + i / 4) sl.frame = d)
include hgood hload

/-- A frame's request takes a context for its soft decode, and asks for its first sensing where it wants one. -/
theorem exec_sdeContextGrant_soft (hn : n ≠ 14) {v : State}
    (hv : ((d.1.setCtx r.val i (some (s.ctxFor g h k d.2 (s.softSenses g) false))).freeSlot g h k).modFrame (g / 8) h k
      (fun f => { f with flow := .inSde }) = v) :
    exec (.sdeContextGrant r ecc cc byte) s = looked s (if s.softSenses g = 0 then v else v.senseReq g h k 1 0) := by
  refine (if_pos ⟨hwork, hregion, Bool.eq_false_iff.mp hawake⟩).trans ?_
  simp only [hwaiting, hfree, hslot, hread, hgood, hload, hn, decide_false, Bool.false_eq_true, if_false, ← hv]
  rfl
/-- A step of the walk takes a context for its one sensing. -/
theorem exec_sdeContextGrant_step (hn : n = 14) :
    exec (.sdeContextGrant r ecc cc byte) s = looked s ((d.1.setCtx r.val i (some (s.ctxFor g h k d.2 0 true))).freeSlot g h k) := by
  subst hn
  refine (if_pos ⟨hwork, hregion, Bool.eq_false_iff.mp hawake⟩).trans ?_
  simp only [hwaiting, hfree, hslot, hread, hgood, hload, decide_true, Bool.false_eq_true, if_false, if_true]
  rfl

end ContextGrant

theorem exec_softSensingArrival {s : State} {lane : Fin 128} {ecc : Ecc} {cc : CcFault} {byte : Fin 4672} {sl : Slot} (hwork : s.working = true)
    (hup : s.laneUp lane.val = true) (hslot : Tab.find? (s.lane lane.val).slots 15 = some sl) :
    exec (.softSensingArrival lane ecc cc byte) s = looked s
      (let rd := s.fifoRead lane.val 15 ecc byte.val
       let u := rd.1.modLane lane.val (fun l => { l with slots := Tab.erase l.slots 15 })
       if rd.2 then u.softUncorr lane.val sl cc else u.softArrives lane.val sl) := by
  refine (if_pos ⟨hwork, hup⟩).trans ?_
  simp only [hslot]

theorem State.softArrives_none {s : State} {g : Nat} (hnone : (s.region (g / 64)).ctx = []) (sl : Slot) : s.softArrives g sl = s := by
  unfold State.softArrives
  simp only [hnone, List.find?_nil]
/-- A sensing goes to its frame's context, which asks for another where it wants more (R244). -/
theorem State.softArrives_mine {s : State} {g i : Nat} {sl : Slot} {x : SdeCtx} (hctx : (s.region (g / 64)).ctx = [(i, some x)])
    (hlane : x.lane = g) (hhandle : x.handle = sl.handle) (hframe : x.frame = sl.index) :
    s.softArrives g sl =
      let v := s.setCtx (g / 64) i (some { x with soft := x.soft ++ [sl.frame], ctl := s.decCtl g })
      if x.soft.length + 1 < x.want then v.senseReq g sl.handle sl.index 1 0 else v := by
  unfold State.softArrives
  simp only [hctx, List.find?_cons, hlane, hhandle, hframe, and_self, decide_true]

section SdeDone
variable {s : State} {r : Fin 2} {i : Fin 32} {cc : CcFault} {x : SdeCtx}

/-- The soft decode of a context. -/
def SdeCtx.decode (x : SdeCtx) : Decoded :=
  sdeDecode x.hard x.soft (atLeast1 (fld x.ctl 29 28)) (fld x.ctl 25 24) (sdeMax x.ctl)
/-- The code word that it came to. -/
def SdeCtx.code (x : SdeCtx) : Frame := BitVec.ofNat 37376 x.decode.bits
/-- A soft decode over: it is charged, its context is free, and the engine's counters have taken its result. -/
def State.leavesSde (s : State) (r i : Nat) (x : SdeCtx) : State :=
  (((s.chargeFrame x.lane x.handle).setCtx r i none).decoded (32 + 8 * r + i / 4) x.decode (ones (x.code ^^^ x.hard))).modFrame
    x.cluster x.handle x.frame (fun f => { f with soft := true })

variable (hwork : s.working = true) (hregion : r.val < s.nRegions) (hctx : Tab.getD (fun _ => none) (s.region r.val).ctx i.val = some x)
  (hsensed : x.want ≤ x.soft.length)
include hwork hregion hctx hsensed

theorem exec_sdeDone_frame (hframe : x.gambit = false) :
    exec (.sdeDone r i cc) s = looked s
      (let u := s.leavesSde r.val i.val x
       if x.decode.ok then u.outlet x.lane x.handle x.frame x.code x.hard cc else u.toGambit x.lane x.handle x.frame cc) := by
  refine (if_pos ⟨hwork, hregion⟩).trans ?_
  simp only [hctx, Nat.not_lt.mpr hsensed, hframe, Bool.false_eq_true, if_false]
  exact (apply_ite (looked s) _ _ _).symm
theorem exec_sdeDone_step (hstep : x.gambit = true) :
    exec (.sdeDone r i cc) s = looked s
      (let u := s.leavesSde r.val i.val x
       if x.decode.ok then u.stepDecoded x.lane x.handle x.frame x.code x.hard cc else u.stepFailed x.lane x.handle x.frame cc) := by
  refine (if_pos ⟨hwork, hregion⟩).trans ?_
  simp only [hctx, Nat.not_lt.mpr hsensed, hstep, if_false, if_true]
  exact (apply_ite (looked s) _ _ _).symm

end SdeDone

/-! ### The Gambit walk (R261, R262) -/

section GambitStep
variable {s : State} {lane : Fin 128} {p : Bool} {cc : CcFault} (hwork : s.working = true) (hup : s.laneUp lane.val = true)
include hwork hup

theorem exec_gambitStep_starts {h k : Nat} {l : List (Nat × Nat)} {x : Cmd} (hrun : (s.lane lane.val).gambitRun = none)
    (hqueue : (s.lane lane.val).gambit = (h, k) :: l) (hcmd : s.cmd? (lane.val / 8) h = some x) :
    exec (.gambitStep lane p cc) s = looked s (s.stepStart lane.val h k x p cc) := by
  refine (if_pos ⟨hwork, hup⟩).trans ?_
  simp only [Lane.stepNow, hrun, Option.filter_none, hqueue, hcmd]

variable {r : GambitRun} {sl : Slot} (hrun : (s.lane lane.val).gambitRun = some r) (hgone : r.gone = false)
  (hslot : (s.lane lane.val).slotOf r.handle r.frame = some (14, sl))
include hrun hgone hslot

/-- A step that names an SDE context hands its sensing to the queue for one. -/
theorem exec_gambitStep_waits (hsoft : bit r.flags 2 = true) (hfresh : sl.loaded = false) :
    exec (.gambitStep lane p cc) s = looked s
      ((s.modLane lane.val (fun l => { l with slots := Tab.put l.slots 14 { sl with loaded := true } })).modRegion (lane.val / 64)
        (fun q => { q with waiting := q.waiting ++ [(lane.val, r.handle, r.frame)] })) := by
  refine (if_pos ⟨hwork, hup⟩).trans ?_
  simp [Lane.stepNow, hrun, Option.filter, hgone, hslot, hsoft, hfresh]
theorem exec_gambitStep_idle (hnot : bit r.flags 2 = false ∨ sl.loaded = true) : exec (.gambitStep lane p cc) s = idle s := by
  refine (if_pos ⟨hwork, hup⟩).trans ?_
  obtain hhard | hloaded := hnot
  · simp [Lane.stepNow, hrun, Option.filter, hgone, hslot, hhard]
  · simp [Lane.stepNow, hrun, Option.filter, hgone, hslot, hloaded]

end GambitStep

section StepStart
variable {s s0 : State} {g h k st ty : Nat} {x : Cmd} {p : Bool} (cc : CcFault) (hst : x.gbStep k = st) (hty : s.frameType x = ty)
  (hs0 : (if p then s.stepParity ty st else s) = s0)
include hst hty hs0

/-- At a step that does not exist the walk ends. -/
theorem State.stepStart_ends (hvalid : s0.stepValid ty st = false) : s.stepStart g h k x p cc = s0.walkExhausted g h k cc := by
  unfold State.stepStart
  simp only [hst, hty, hs0, hvalid, Bool.false_eq_true, if_false]
/-- A step that starts takes its fields, its offsets go to the raw buffer, and its sensing is asked for. -/
theorem State.stepStart_senses (hvalid : s0.stepValid ty st = true) {o : Word} (ho : s0.gbOffsets ty st x.field9 = o) {u : State}
    (hu : (if st = 0 then s0.count (lnA g Reg.LN_GB_WALKS) else s0) = u) :
    s.stepStart g h k x p cc =
      (((u.modLane g (fun l => { l with gambitRun := some { handle := h, frame := k, ofs := o, flags := s0.gbData1 ty st, gone := false } })).modFrame
        (g / 8) h k (fun f => { f with flow := .gambitSense, steps := f.steps + 1 })).modCore (g / 8)
        (fun q => { q with iram := Tab.setD (fun _ => 0) q.iram ((0x2E000 + 1024 * (g % 8) + 1020) / 4) o })).senseReq g h k 2 st := by
  unfold State.stepStart
  simp only [hst, hty, hs0, hvalid, ho, hu, if_true]

end StepStart

/-! ### A key slot's word (R348, R354, R356) -/

theorem State.blot_keys (s : State) (page cls : Nat) (i : Option Nat) (d : List Word) : (s.blot page cls i d).keys = s.keys := by
  obtain ⟨r, b, h⟩ := s.blot_frame page cls i d
  rw [h]
theorem State.bucketAdd_keys (s : State) (b g : Nat) : (s.bucketAdd b g).keys = s.keys := by
  unfold State.bucketAdd State.bucketSet
  dsimp only
  split
  · exact State.blot_keys _ _ _ _ _
  · rfl
theorem State.remapRow_keys (s : State) (g row : Nat) : (s.remapRow g row).keys = s.keys := by
  unfold State.remapRow
  dsimp only
  split <;> exact State.blot_keys _ _ _ _ _
theorem State.trackAt_keys (s : State) (g row : Nat) : (s.trackAt g row).keys = s.keys := by
  unfold State.trackAt
  dsimp only
  split
  · exact State.remapRow_keys _ _ _
  · rfl
theorem State.corrected_keys (s : State) (g row : Nat) : (s.corrected g row).keys = s.keys :=
  (State.trackAt_keys _ _ _).trans (State.bucketAdd_keys _ _ _)
theorem State.uncorrRow_keys (s : State) (g row : Nat) : (s.uncorrRow g row).keys = s.keys := by
  unfold State.uncorrRow
  split
  · rfl
  · exact State.remapRow_keys _ _ _

theorem State.keyAt_congr {s t : State} (h : t.keys = s.keys) (n : Nat) : t.keyAt n = s.keyAt n := by
  unfold State.keyAt
  rw [h]
/-- A corrected word of a slot is the key that it holds. -/
theorem State.keyRead_corrected_keyAt (s : State) (n : Nat) : (s.keyRead n .corrected).keyAt n = s.keyAt n :=
  State.keyAt_congr (State.corrected_keys _ _ _) n
/-- A slot whose word is lost is EMPTY. -/
theorem State.keyRead_uncorrectable_keyAt {s : State} (hrising : Tab.rising s.keys.slots = true) (n : Nat) :
    (s.keyRead n .uncorrectable).keyAt n = none :=
  (State.keyAt_congr (s := s.setKey n none) ((State.uncorrRow_keys _ _ _).trans (State.blot_keys _ _ _ _ _)) n).trans
    (Tab.getD_setD_self _ hrising n none)

/-! ### The cipher engines (R335, R338) -/

/-- A unit of frame j whose key slot is EMPTY: a COPY's frame from a Manager ring fails at the outlet, any other ends its command. -/
def State.unitShut (t : State) (c h j : Nat) (x : Cmd) (dec : Bool) (cc : CcFault) : State :=
  if dec ∧ x.managerCopy then t.outletFail x.lane h j 3 cc else t.abort c h stSealed 0
/-- Cipher engine k with the unit of frame j under a key. -/
def State.unitRuns (t : State) (c k h j : Nat) (x : Cmd) (f : FrameSt) (dec : Bool) (key : BitVec 512) : State :=
  (t.modFrame c h j (fun f => { f with flow := .inCipher })).modCluster c (fun y => y.setCipher k
    (some { lane := x.lane, handle := h, frame := j, bits := f.out, limit := 0, refeed := !dec, gambit := false, key := some key }))
/-- What comes of a unit by the key slot that it reads. -/
def State.unitTaken (u : State) (c k h j : Nat) (x : Cmd) (f : FrameSt) (dec : Bool) (n : Nat) (ecc : Ecc) (cc : CcFault) : State :=
  let t := if (u.keyAt n).isSome then u.keyRead n ecc else u
  match t.keyAt n with
  | none => t.unitShut c h j x dec cc
  | some key => t.unitRuns c k h j x f dec key

section UnitTaken
variable {u : State} {c k h j n : Nat} {x : Cmd} {f : FrameSt} {dec : Bool} {cc : CcFault}

theorem State.unitTaken_empty (hempty : u.keyAt n = none) (ecc : Ecc) : u.unitTaken c k h j x f dec n ecc cc = u.unitShut c h j x dec cc := by
  simp only [State.unitTaken, hempty, Option.isSome_none, Bool.false_eq_true, if_false]

variable {key : BitVec 512} (hkey : u.keyAt n = some key) {ecc : Ecc} {t : State} (hread : u.keyRead n ecc = t)
include hkey hread

theorem State.unitTaken_lost (hlost : t.keyAt n = none) : u.unitTaken c k h j x f dec n ecc cc = t.unitShut c h j x dec cc := by
  simp only [State.unitTaken, hkey, Option.isSome_some, if_true, hread, hlost]
theorem State.unitTaken_kept (hkept : t.keyAt n = u.keyAt n) : u.unitTaken c k h j x f dec n ecc cc = t.unitRuns c k h j x f dec key := by
  simp only [State.unitTaken, hkey, Option.isSome_some, if_true, hread, hkept]

end UnitTaken

theorem State.writeTag_of {x : Cmd} {j : Nat} {f : FrameSt} (hframe : x.frames[j]? = some f) (u : State) :
    u.writeTag x j = if x.managerCopy then sideTag (frameSide f.out) else tagOf x.owner x.pkt.keySlot := by
  simp only [State.writeTag, hframe, Option.map_some, Option.getD_some]

section CipherUnit
variable {s : State} {cl : Fin 16} {k : Fin 2} {ecc : Ecc} {cc : CcFault} {h j : Nat} {l : List (Nat × Nat)} {x : Cmd} {f : FrameSt}
  (hwork : s.working = true) (hup : s.clusterUp cl.val = true) (hfree : (s.cluster cl.val).cipher k.val = none)
  (hcmd : s.cmd? cl.val h = some x) (hframe : x.frames[j]? = some f)
include hwork hup hfree hcmd hframe

theorem exec_cipherUnit_decipher (hqueue : (s.cluster cl.val).decipher = (h, j) :: l) :
    exec (.cipherUnit cl k ecc cc) s = looked s ((s.modCluster cl.val (fun y => { y with decipher := l })).unitTaken cl.val k.val h j x f true
      (x.readKey (sideTag (frameSide f.out))) ecc cc) := by
  have hcmd' : (s.modCluster cl.val (fun y => { y with decipher := l })).cmd? cl.val h = some x := hcmd
  refine (if_pos ⟨hwork, hup, by rw [hfree]; rfl⟩).trans ?_
  simp only [hqueue, hcmd', hframe, if_true, State.unitTaken, State.unitShut]
  rfl
theorem exec_cipherUnit_encipher (hnone : (s.cluster cl.val).decipher = []) (hqueue : (s.cluster cl.val).encipher = (h, j) :: l) {tag : Nat}
    (htag : (if x.managerCopy then sideTag (frameSide f.out) else tagOf x.owner x.pkt.keySlot) = tag) :
    exec (.cipherUnit cl k ecc cc) s = looked s ((s.modCluster cl.val (fun y => { y with encipher := l })).unitTaken cl.val k.val h j x f false
      (tag % 512 * 4 + tag / 2 ^ 16 % 4) ecc cc) := by
  have hcmd' : (s.modCluster cl.val (fun y => { y with encipher := l })).cmd? cl.val h = some x := hcmd
  refine (if_pos ⟨hwork, hup, by rw [hfree]; rfl⟩).trans ?_
  simp only [hnone, hqueue, hcmd', hframe, Bool.false_eq_true, false_and, if_false, State.writeTag_of hframe, htag, State.unitTaken, State.unitShut]
  rfl

end CipherUnit

section CipherUnitDone
variable {s : State} {cl : Fin 16} {k : Fin 2} {ecc : Ecc} {cc : CcFault} {e : Engine} {key : BitVec 512} {x : Cmd} (hwork : s.working = true)
  (hup : s.clusterUp cl.val = true) (hengine : (s.cluster cl.val).cipher k.val = some e) (hkey : e.key = some key)
  (hcmd : s.cmd? cl.val e.handle = some x)
include hwork hup hengine hkey hcmd

theorem exec_cipherUnitDone : exec (.cipherUnitDone cl k ecc cc) s = looked s
    (let u := s.modCluster cl.val (fun q => q.setCipher k.val none)
     if e.refeed then (u.slabRead (x.slabFor e.frame) 0 4160 ecc).encipherDone cl.val e key x
     else (u.outletSlab cl.val e.handle e.frame ecc).decipherDone cl.val e key x cc) := by
  have hcmd' : (s.modCluster cl.val (fun q => q.setCipher k.val none)).cmd? cl.val e.handle = some x := hcmd
  refine (if_pos ⟨hwork, hup⟩).trans ?_
  simp only [hengine, hkey, hcmd']

end CipherUnitDone

/-- A deciphered unit whose CRC is good is staged in its slab (R247). -/
theorem State.decipherDone_eq (s : State) (c : Nat) (e : Engine) (key : BitVec 512) (x : Cmd) (cc : CcFault) :
    s.decipherDone c e key x cc =
      let side := frameSide e.bits
      let plain := xts false key (sideEcho side) (natBytes 4096 (frameUser e.bits).toNat)
      if crc32c plain = sideCrc side then
        ((s.modSlab (x.slabFor e.frame) (fun y => { y with payload := BitVec.ofNat 32768 (bytesNat plain), side := side })).modFrame
          c e.handle e.frame (fun f => { f with flow := .done })).frameEnd c e.handle e.frame true cc
      else s.outletFail e.lane e.handle e.frame 3 cc :=
  ite_not _ _ _

/-! ### The Scribe's verdict (R263) -/

/-- A write of CAL_GB_SCMD names a frame that the Scribe holds for a command that has not ended. -/
def State.scribeHolds (u : State) (w : Word) : Prop :=
  (u.frame? (fld w 29 23 / 8) (fld w 10 0) (fld w 22 18)).map FrameSt.flow = some Flow.scribe ∧
    ∃ x, u.cmd? (fld w 29 23 / 8) (fld w 10 0) = some x ∧ x.lane = fld w 29 23 ∧ x.stage ≠ .ready ∧ x.discard = false

/-- One more walk of a frame, at the tail of its lane's queue. -/
def State.rewalk (u : State) (g h k : Nat) : State :=
  (u.modFrame (g / 8) h k (fun f => { f with flow := .gambitQueue, pass := 0, rewalked := true })).modLane g
    (fun l => { l with gambit := l.gambit ++ [(h, k)] })
theorem exec_rewalk (a : RpAcc) (s : State) : exec (.rewalk a) s = done s (s.scmd 1 a State.rewalk) := rfl
theorem exec_gbFail (a : RpAcc) (cc : CcFault) (s : State) :
    exec (.gbFail a cc) s = done s (s.scmd 2 a (fun u g h k => u.frameFail (g / 8) g h k cc)) := rfl

section Verdict
variable {s : State} {a : RpAcc} {c : Instr} {op : Nat} {f : State → Nat → Nat → Nat → State}

theorem scmd_open_iff (o : Option Cmd) (g : Nat) : (o.any (fun x => decide (x.lane = g ∧ x.stage ≠ .ready) && !x.discard)) = true ↔
    ∃ x, o = some x ∧ x.lane = g ∧ x.stage ≠ .ready ∧ x.discard = false := by
  simp [Option.any_eq_true, and_assoc]

variable (hexec : exec c s = done s (s.scmd op a f))
include hexec

theorem writes_scmd_holds (hholds : (s.accepting Reg.CAL_GB_SCMD a).scribeHolds a.data) (hop : fld a.data 31 30 = op) :
    Writes c s Reg.CAL_GB_SCMD a (f (s.accepting Reg.CAL_GB_SCMD a) (fld a.data 29 23) (fld a.data 10 0) (fld a.data 22 18)) :=
  writes_of hexec (if_pos ⟨hop, hholds.1, (scmd_open_iff _ _).mpr hholds.2⟩)
theorem writes_scmd_not (hnot : ¬ (s.accepting Reg.CAL_GB_SCMD a).scribeHolds a.data) :
    Writes c s Reg.CAL_GB_SCMD a (s.accepting Reg.CAL_GB_SCMD a) :=
  writes_of hexec (if_neg fun ⟨_, hflow, hopen⟩ => hnot ⟨hflow, (scmd_open_iff _ _).mp hopen⟩)

end Verdict

end Sys2Proof.Machine

open Sys2Proof Sys2Proof.Machine

/-- Settles O58: each engine's command is one lemma for each way that its frame, sensing or unit can go; what a unit's key slot comes to is
`State.unitTaken`, and a verdict acts where `State.scribeHolds`. -/
theorem frameFlow : Obligations.FrameFlow := by
  unfold Obligations.FrameFlow
  refine ⟨?hdePass, ?hdeDone, fun s g h k cc => ⟨fun hoff => if_neg (Bool.eq_false_iff.mp hoff), fun hon => if_pos hon⟩, ?grant, ?arrival,
    ?sdeDone, ?stepStarts, ?stepWaits, ?unit, ?unitDone, ?verdict⟩
  case hdePass =>
    intro s cl k ecc cc byte c hwork hup hroom last does
    refine ⟨exec_hdePass_none hwork hup hroom, fun g i sl hnext => ?_⟩
    have H : s.HdeTakes cl k g i sl := ⟨hwork, hup, hroom, hnext⟩
    intro u d
    refine ⟨fun hlost hown => found_of_looked (H.lost rfl hlost hown), fun hlost hforeign => found_of_looked (H.lostForeign rfl hlost hforeign),
      fun hgood hforeign => found_of_looked (H.foreign rfl rfl hgood hforeign), fun hgood hown f hframe => ?_⟩
    intro limit enters taken
    exact ⟨fun hflow hpass hones =>
        ⟨fun herased => found_of_looked (H.erased rfl rfl hgood hown hframe hflow hpass hones herased),
          fun hlimit => found_of_looked (H.counted rfl rfl hgood hown hframe hflow hpass hones hlimit)⟩,
      fun hflow hpass hones => found_of_looked (H.first rfl rfl hgood hown hframe hflow hpass hones),
      fun hflow hpass => found_of_looked (H.second rfl rfl hgood hown hframe hflow hpass),
      fun hflow => found_of_looked (H.step rfl rfl hgood hown hframe hflow)⟩
  case hdeDone =>
    intro s cl k h j cc ecc e c hwork hup hfind d out u v does
    refine ⟨fun hok hpass => ?_, fun hok hstep => ?_,
      fun hfail hstep => found_of_looked (exec_hdeDone_stepFailed hwork hup hfind hfail hstep),
      fun hfail hpass hlast => found_of_looked (exec_hdeDone_hardFailed hwork hup hfind hfail hpass hlast),
      fun i sl hfail hpass hfirst hsecond hslot => found_of_looked (exec_hdeDone_again hwork hup hfind hfail hpass hfirst hsecond hslot)⟩
    · exact found_of_looked ((exec_hdeDone_decoded hwork hup hfind hok).trans (congrArg (looked s) (if_neg (Bool.eq_false_iff.mp hpass))))
    · exact found_of_looked ((exec_hdeDone_decoded hwork hup hfind hok).trans (congrArg (looked s) (if_pos hstep)))
  case grant =>
    intro s r ecc cc byte g h k rest i n sl hwork hregion hawake hwaiting hfree hslot u does
    refine ⟨fun hlost => found_of_looked (exec_sdeContextGrant_lost hwork hregion hawake hwaiting hfree hslot rfl hlost), fun hgood hn => ?_,
      fun hgood hn => found_of_looked (exec_sdeContextGrant_step hwork hregion hawake hwaiting hfree hslot rfl hgood rfl hn)⟩
    intro d v
    have hexec := exec_sdeContextGrant_soft hwork hregion hawake hwaiting hfree hslot (cc := cc) (u := u) (d := d) (v := v) rfl hgood rfl hn rfl
    exact ⟨fun hnone => found_of_looked (hexec.trans (congrArg (looked s) (if_pos hnone))),
      fun hmore => found_of_looked (hexec.trans (congrArg (looked s) (if_neg hmore)))⟩
  case arrival =>
    intro s lane ecc cc byte sl g hwork hup hslot rd u does
    have hexec := exec_softSensingArrival (ecc := ecc) (cc := cc) (byte := byte) hwork hup hslot
    have harrives (hgood : rd.2 = false) {v : State} (hv : u.softArrives g sl = v) : does v :=
      found_of_looked (hexec.trans (congrArg (looked s) ((if_neg (Bool.eq_false_iff.mp hgood)).trans hv)))
    refine ⟨fun hlost => found_of_looked (hexec.trans (congrArg (looked s) (if_pos hlost))),
      fun hgood hnone => harrives hgood (State.softArrives_none hnone sl), fun i x hgood hctx hlane hhandle hframe => ?_⟩
    intro v
    have hmine := State.softArrives_mine hctx hlane hhandle hframe
    exact ⟨fun hmore => harrives hgood (hmine.trans (if_pos hmore)),
      fun hlast => harrives hgood (hmine.trans (if_neg (Nat.not_lt.mpr hlast)))⟩
  case sdeDone =>
    intro s r i cc x hwork hregion hctx hsensed d out u
    exact ⟨fun hframe => found_of_looked (exec_sdeDone_frame hwork hregion hctx hsensed hframe),
      fun hstep => found_of_looked (exec_sdeDone_step hwork hregion hctx hsensed hstep)⟩
  case stepStarts =>
    intro s lane p cc h k l x g hwork hup hrun hqueue hcmd st ty s0 o u
    have hexec := exec_gambitStep_starts (p := p) (cc := cc) hwork hup hrun hqueue hcmd
    exact ⟨fun hvalid => found_of_looked (hexec.trans (congrArg (looked s) (State.stepStart_ends cc rfl rfl rfl hvalid))),
      fun hvalid => found_of_looked (hexec.trans (congrArg (looked s) (State.stepStart_senses cc rfl rfl rfl hvalid rfl rfl)))⟩
  case stepWaits =>
    intro s lane p cc r sl g hwork hup hrun hgone hslot
    exact ⟨fun hsoft hfresh => found_of_looked (exec_gambitStep_waits hwork hup hrun hgone hslot hsoft hfresh),
      exec_gambitStep_idle hwork hup hrun hgone hslot⟩
  case unit =>
    intro s cl k ecc cc h j l x f c hwork hup hfree hcmd hframe take slot
    have htake {u : State} {dec : Bool} {n : Nat} (hkeys : u.keys = s.keys)
        (hexec : ∀ ecc, exec (.cipherUnit cl k ecc cc) s = looked s (u.unitTaken c k.val h j x f dec n ecc cc)) : take u dec n := by
      have hfound {ecc} {v : State} (hv : u.unitTaken c k.val h j x f dec n ecc cc = v) : Found (.cipherUnit cl k ecc cc) s v :=
        found_of_looked ((hexec ecc).trans (congrArg (looked s) hv))
      have hsame : u.keyAt n = s.keyAt n := State.keyAt_congr hkeys n
      exact ⟨fun hempty => hfound (State.unitTaken_empty (hsame.trans hempty) ecc),
        fun key hkey hrising =>
          hfound (State.unitTaken_lost (hsame.trans hkey) rfl (State.keyRead_uncorrectable_keyAt (hkeys ▸ hrising) n)),
        fun key hkey => ⟨hfound (State.unitTaken_kept (hsame.trans hkey) rfl rfl),
          hfound (State.unitTaken_kept (hsame.trans hkey) rfl (State.keyRead_corrected_keyAt u n))⟩⟩
    refine ⟨fun hqueue => htake rfl fun ecc => ?_, fun hnone hqueue => htake rfl fun ecc => ?_⟩
    · exact exec_cipherUnit_decipher hwork hup hfree hcmd hframe hqueue
    · exact exec_cipherUnit_encipher hwork hup hfree hcmd hframe hnone hqueue rfl
  case unitDone =>
    intro s cl k ecc cc e key x c hwork hup hengine hkey hcmd u v side plain
    have hexec := exec_cipherUnitDone (ecc := ecc) (cc := cc) hwork hup hengine hkey hcmd
    exact ⟨fun hwrite => found_of_looked (hexec.trans (congrArg (looked s) (if_pos hwrite))),
      fun hread => found_of_looked (hexec.trans (congrArg (looked s)
        ((if_neg (Bool.eq_false_iff.mp hread)).trans (State.decipherDone_eq v c e key x cc))))⟩
  case verdict =>
    intro s a cc u g h k op holds
    exact ⟨fun hholds => ⟨writes_scmd_holds (exec_rewalk a s) hholds, writes_scmd_holds (exec_gbFail a cc s) hholds⟩,
      fun hnot => ⟨writes_scmd_not (exec_rewalk a s) hnot, writes_scmd_not (exec_gbFail a cc s) hnot⟩⟩
end

section
/-! Settings of instances and repairs (R287, R357, R358): which quotas are refused, and what a write of SW_REP_ADD comes to. -/
namespace Sys2Proof.Machine
open Sys2Proof

/-! ### Quotas of slabs (R287) -/

/-- What makes a write of IW_TN_QUOTA refused: MIN above MAX, MAX above the slabs of the build, or a sum of every MIN above them. -/
def State.quotaRefused (u : State) (w : Word) : Prop :=
  fld w 29 16 < fld w 13 0 ∨ u.nSlabs < fld w 29 16 ∨ u.nSlabs < u.minSum (fld (u.regAt Reg.IW_TN_SEL) 8 0) (fld w 13 0)

theorem State.not_quotaRefused_iff {u : State} {w : Word} : ¬ u.quotaRefused w ↔
    fld w 13 0 ≤ fld w 29 16 ∧ fld w 29 16 ≤ u.nSlabs ∧ u.minSum (fld (u.regAt Reg.IW_TN_SEL) 8 0) (fld w 13 0) ≤ u.nSlabs := by
  simp only [State.quotaRefused, not_or, Nat.not_lt]

section Quota
variable {s : State} {a : RpAcc}

theorem writes_quotaWrite_refused (h : (s.accepting Reg.IW_TN_QUOTA a).quotaRefused a.data) :
    Writes (.quotaWrite a) s Reg.IW_TN_QUOTA a ((s.accepting Reg.IW_TN_QUOTA a).raise 0xA000 4) :=
  writes_of rfl (if_pos h)
theorem writes_quotaWrite (h : ¬ (s.accepting Reg.IW_TN_QUOTA a).quotaRefused a.data) :
    Writes (.quotaWrite a) s Reg.IW_TN_QUOTA a ((s.accepting Reg.IW_TN_QUOTA a).writeRow Reg.IW_TN_QUOTA false a.data).allocPrograms.slabRoom :=
  writes_of rfl (if_neg h)

end Quota

/-! ### Repairs (R357, R358) -/

@[simp] theorem State.writeRow_build (u : State) (a : Nat) (locked : Bool) (data : Word) : (u.writeRow a locked data).build = u.build := by
  unfold State.writeRow
  split <;> rfl

/-- The rows of a macro group rest on the build alone (R355). -/
theorem State.groupRows_congr {u v : State} (h : u.build = v.build) (g : Nat) : u.groupRows g = v.groupRows g := by
  unfold State.groupRows State.nClusters
  rw [h]

/-- The fields of SW_REP_ADD as written, with GO read as 0 again. -/
def State.repairWritten (u : State) (w : Word) : State :=
  (u.writeRow Reg.SW_REP_ADD false w).modReg Reg.SW_REP_ADD (fun r => r &&& 0x7FFFFFFF)

/-- A write of SW_REP_ADD remaps a row: it has GO set and names a row that its group has (R358). -/
def State.repairs (u : State) (w : Word) : Prop := bit w 31 = true ∧ fld w 19 0 < u.groupRows (fld w 30 20)

theorem State.repairWritten_repairs (u : State) (w x : Word) : (u.repairWritten w).repairs x ↔ u.repairs x := by
  have hbuild : (u.repairWritten w).build = u.build := by simp [State.repairWritten]
  rw [State.repairs, State.repairs, State.groupRows_congr hbuild]
theorem State.not_repairs_iff {u : State} {w : Word} :
    ¬ u.repairs w ↔ bit w 31 = false ∨ u.groupRows (fld w 30 20) ≤ fld w 19 0 := by
  rw [State.repairs, not_and_or, Bool.not_eq_true, Nat.not_lt]

section Repair
variable {s : State} {a : RpAcc} {v : State} (hv : (s.accepting Reg.SW_REP_ADD a).repairWritten a.data = v)
include hv

theorem writes_repairAdd_none (h : ¬ v.repairs a.data) : Writes (.repairAdd a) s Reg.SW_REP_ADD a v := by
  subst hv
  rw [State.repairWritten_repairs] at h
  exact writes_of rfl (if_neg h)
theorem writes_repairAdd (h : v.repairs a.data) :
    Writes (.repairAdd a) s Reg.SW_REP_ADD a (v.remapRow (fld a.data 30 20) (fld a.data 19 0)) := by
  subst hv
  rw [State.repairWritten_repairs] at h
  exact writes_of rfl (if_pos h)

end Repair

end Sys2Proof.Machine

open Sys2Proof Sys2Proof.Machine

/-- Settles O50: a quota is refused exactly where `State.quotaRefused` holds, and a repair's write keeps the build, so that its group has
the rows that it had before. -/
theorem settingsWrites : Obligations.SettingsWrites := by
  unfold Obligations.SettingsWrites
  refine fun s a => ⟨?quota, ?repair⟩
  case quota =>
    exact ⟨writes_quotaWrite_refused, fun horder hslabs hsum => writes_quotaWrite (State.not_quotaRefused_iff.mpr ⟨horder, hslabs, hsum⟩)⟩
  case repair =>
    exact ⟨fun hnone => writes_repairAdd_none rfl (State.not_repairs_iff.mpr hnone), fun hgo hrow => writes_repairAdd rfl ⟨hgo, hrow⟩⟩
end

section
/-! The step as a whole: it runs the command at the front of the queue or counts a cycle of CLK_AON, and it never stops (log entries 1
and 2, R111). -/
namespace Sys2Proof.Machine
open Sys2Proof

/-! ### What a step runs -/

theorem step_front {s : State} {c : Instr} {q : List Instr} (h : s.pending = c :: q) : step s = exec c { s with pending := q } := by
  unfold step
  rw [h]
theorem step_empty {s : State} (h : s.pending = []) : step s = .next s.tick := by
  unfold step
  rw [h]

/-! ### A cycle of CLK_AON -/

/-- What a cycle of CLK_AON does outside the central domain: the port's outputs return to zero and the time counts (R44, R111). -/
def State.ticked (s : State) : State :=
  { s with time := s.time + 1, rp := { ack := false, err := false, data := some 0 }, glb := { s.glb with doneShown := false },
           scribe := s.scribe.held }
/-- What a cycle does in the central domain (R381, R404, R423). -/
def State.cycled (u : State) : State := (State.blotterDrain 16 u).restoreOne.heat

theorem State.tick_dead {s : State} (h : ¬ s.alive = true) : s.tick = s := if_neg h
theorem State.tick_awake {s : State} (h : s.alive = true) (hup : s.awake = true) : s.tick = settle s s.ticked.cycled :=
  (if_pos h).trans (if_pos hup)
theorem State.tick_gated {s : State} (h : s.alive = true) (hup : ¬ s.awake = true) : s.tick = s.ticked :=
  (if_pos h).trans (if_neg hup)

theorem State.ticked_ok {s : State} (h : s.canon = true) : s.ticked.Ok { s with time := s.time + 1 } :=
  ⟨⟨rfl, rfl, rfl, rfl, rfl, rfl⟩, h⟩
theorem State.cycled_ok {b : State} (u : State) (h : u.Ok b) : u.cycled.Ok b :=
  State.heat_ok _ (State.restoreOne_ok _ (State.blotterDrain_ok 16 u h))

/-- A cycle of CLK_AON counts the time, and keeps the canonical form, the build, the queue, the pins, the fuses and the test port. -/
theorem State.tick_ok {s : State} (h : s.canon = true) : s.tick.Ok { s with time := if s.alive then s.time + 1 else s.time } := by
  by_cases halive : s.alive = true
  · rw [if_pos halive]
    by_cases hup : s.awake = true
    · exact State.tick_awake halive hup ▸ settle_new s _ (State.cycled_ok _ (State.ticked_ok h))
    · exact State.tick_gated halive hup ▸ State.ticked_ok h
  · rw [if_neg halive, State.tick_dead halive]
    exact State.ok_self h

/-! The mode through a cycle. -/

@[simp] theorem State.keepMax_glb (s : State) : s.keepMax.glb = s.glb := rfl
@[simp] theorem State.evalCrit_glb (s : State) : s.evalCrit.glb = s.glb := by
  unfold State.evalCrit
  split
  · rfl
  · split <;> rfl
@[simp] theorem State.heat_glb (s : State) : s.heat.glb = s.glb := by
  unfold State.heat
  split
  · rfl
  · rw [State.evalCrit_glb, State.keepMax_glb]
@[simp] theorem State.restoreOne_glb (s : State) : s.restoreOne.glb = s.glb := by
  unfold State.restoreOne
  split <;> rfl
@[simp] theorem State.cycled_glb (u : State) : u.cycled.glb = u.glb := by
  obtain ⟨r, b, hdrain⟩ := State.blotterDrain_frame 16 u
  rw [State.cycled, State.heat_glb, State.restoreOne_glb, hdrain]

theorem State.tick_mode (s : State) : s.tick.glb.mode = s.glb.mode := by
  by_cases halive : s.alive = true
  · by_cases hup : s.awake = true
    · rw [State.tick_awake halive hup, settle_glb, State.cycled_glb]
      rfl
    · rw [State.tick_gated halive hup]
      rfl
  · rw [State.tick_dead halive]

/-! ### No command stops the block -/

/-- Every command answers a next state in its canonical form, with the build and the queue of the state before. -/
theorem exec_answers {s : State} (hs : s.canon = true) (c : Instr) :
    ∃ t, exec c s = .next t ∧ t.canon = true ∧ t.build = s.build ∧ t.pending = s.pending := by
  rcases exec_goes hs c with rfl | htap | ⟨k, -, t, ht, hcanon, hbuild, hpending, -⟩
  · exact execColdResetAssert_goes s hs
  · obtain ⟨x, hx⟩ := htap.exec_eq s
    exact ⟨_, hx, hs, rfl, rfl⟩
  · exact ⟨t, ht, hcanon, hbuild, hpending⟩
/-- Every step answers a next state in its canonical form, with the same build and the queue without its front. -/
theorem step_answers {s : State} (hs : s.canon = true) :
    ∃ t, step s = .next t ∧ t.canon = true ∧ t.build = s.build ∧ t.pending = s.pending.tail := by
  cases hq : s.pending with
  | nil =>
    obtain ⟨⟨hbuild, hpending, -⟩, hcanon⟩ := State.tick_ok hs
    exact ⟨s.tick, step_empty hq, hcanon, hbuild, hpending.trans hq⟩
  | cons c q =>
    obtain ⟨t, ht, hkeeps⟩ := exec_answers (s := { s with pending := q }) hs c
    exact ⟨t, (step_front hq).trans ht, hkeeps⟩

end Sys2Proof.Machine

open Sys2Proof Sys2Proof.Machine

/-- Settles O4: the state that a step answers is that of `step_answers`. -/
theorem stepKeepsCanon : Obligations.StepKeepsCanon := by
  unfold Obligations.StepKeepsCanon
  intro s t hs hstep
  obtain ⟨t', ht', hcanon, -⟩ := step_answers hs
  cases ht'.symm.trans hstep
  exact hcanon

/-- Settles O5: a step takes one command off the queue (`step_answers`), and a command itself takes none (`exec_answers`). -/
theorem stepNeverStops : Obligations.StepNeverStops := by
  unfold Obligations.StepNeverStops
  refine ⟨fun s hs => ?_, fun c s hs => ?_⟩
  · obtain ⟨t, ht, -, hbuild, hpending⟩ := step_answers hs
    exact ⟨t, ht, hpending, hbuild⟩
  · obtain ⟨t, ht, -, hbuild, hpending⟩ := exec_answers hs c
    exact ⟨t, ht, hpending, hbuild⟩

/-- Settles O1, by the definition of a step (`step_front`). -/
theorem stepRunsFront : Obligations.StepRunsFront := by
  unfold Obligations.StepRunsFront
  exact fun s c q hq => step_front hq

/-- Settles O2: what a cycle keeps and counts is `State.tick_ok`, and its mode `State.tick_mode`. -/
theorem stepIdleTicks : Obligations.StepIdleTicks := by
  unfold Obligations.StepIdleTicks
  intro s hs hq
  obtain ⟨⟨-, hpending, hpins, hfuse, htap, htime⟩, -⟩ := State.tick_ok hs
  exact ⟨s.tick, step_empty hq, hpending.trans hq, hpins, hfuse, htap, State.tick_mode s, htime⟩
end

section
/-! Facts that the statements of the Mover, the Signal Unit and the scrubbers share: bits of registers, registers that a write leaves,
and the requests that are withdrawn before a port presents them (R303 to R306, R308, R441). -/
namespace Sys2Proof.Machine
open Sys2Proof

/-! ### Bits of a register -/

theorem bit_or (w m : Word) (i : Nat) : bit (w ||| m) i = (bit w i || bit m i) := BitVec.getLsbD_or
theorem bit_flag_self {i : Nat} (hi : i < 32) : bit (flag true i) i = true := by
  rw [bit, flag, if_pos rfl, BitVec.getLsbD_ofNat, Nat.testBit_two_pow_self, decide_eq_true hi, Bool.true_and]
theorem bit_or_flag (w : Word) {i : Nat} (hi : i < 32) : bit (w ||| flag true i) i = true := by
  rw [bit_or, bit_flag_self hi, Bool.or_true]
/-- A field of one bit that is written with 0 reads 0. -/
theorem bit_putFld_zero (w : Word) (i : Nat) : bit (putFld w i i 0) i = false := by
  by_cases hi : i < 32
  · simp [bit, putFld, BitVec.getLsbD_ofNat, hi]
  · exact BitVec.getLsbD_of_ge _ _ (Nat.le_of_not_lt hi)

section Regs
variable {s : State} (hc : s.canon = true)
include hc

theorem State.regAt_modReg_self (k : Nat) (f : Word → Word) : (s.modReg k f).regAt k = f (s.regAt k) := State.regAt_setReg_self hc k _
theorem State.bit_orReg_flag (k : Nat) {i : Nat} (hi : i < 32) : bit ((s.orReg k (flag true i)).regAt k) i = true :=
  (congrArg (bit · i) (State.regAt_modReg_self hc k _)).trans (bit_or_flag _ hi)
theorem State.bit_orReg {k i : Nat} (m : Word) (h : bit (s.regAt k) i = true) : bit ((s.orReg k m).regAt k) i = true := by
  rw [State.orReg, State.regAt_modReg_self hc, bit_or, h, Bool.true_or]

end Regs

theorem State.regAt_modReg_ne (s : State) {k l : Nat} (h : l ≠ k) (f : Word → Word) : (s.modReg k f).regAt l = s.regAt l :=
  State.regAt_setReg_ne s h _

/-- An access reaches the register at its own address or a window above the aperture. -/
theorem State.keyOf_ne (s : State) {a k : Nat} (hk : k < 0x800000) (hne : k ≠ a) : k ≠ s.keyOf a := by
  unfold State.keyOf
  split
  next i _ => exact Nat.ne_of_lt (by rw [winKey]; omega)
  next => exact hne
/-- A write leaves the registers of the aperture at other addresses. -/
theorem State.regAt_writeRow_ne (s : State) {a k : Nat} (hk : k < 0x800000) (hne : k ≠ a) (locked : Bool) (data : Word) :
    (s.writeRow a locked data).regAt k = s.regAt k := by
  unfold State.writeRow
  split
  · exact State.regAt_modReg_ne s (State.keyOf_ne s hk hne) _
  · rfl
/-- A write of a register changes registers alone. -/
theorem State.writeRow_frame (s : State) (a : Nat) (locked : Bool) (data : Word) : ∃ r, s.writeRow a locked data = { s with regs := r } := by
  unfold State.writeRow
  split
  · exact ⟨_, rfl⟩
  · exact ⟨_, rfl⟩

/-! ### Requests withdrawn from a port -/

/-- No request that a port has still to present answers the predicate of a withdrawal. -/
theorem Port.withdraw_unshown (q : Port) (f : HpReq → Bool) {r : HpReq} (hr : r ∈ (q.withdraw f).queue.drop (q.withdraw f).shown) :
    f r = false := by
  rw [show (q.withdraw f).shown = q.shown from rfl, Port.withdraw, List.drop_append, List.drop_eq_nil_of_le (List.length_take_le _ _),
    List.nil_append] at hr
  simpa using (List.mem_filter.mp (List.mem_of_mem_drop hr)).2

section Withdraw
variable {s : State}

theorem State.lessOut_frame (s : State) (i : Issuer) : ∃ x, s.lessOut i = { s with channels := x } := by
  unfold State.lessOut
  split <;> exact ⟨_, rfl⟩
theorem State.unissue_ports (s : State) (r : HpReq) : (s.unissue r).ports = s.ports := by
  obtain ⟨x, hx⟩ := s.lessOut_frame r.issuer
  unfold State.unissue
  split
  · rw [State.modCmd_ports, hx]
  · rw [hx]
theorem State.unissues_ports (l : List HpReq) (s : State) : (l.foldl State.unissue s).ports = s.ports :=
  List.foldlRecOn (motive := fun t : State => t.ports = s.ports) l _ rfl fun t ht r _ => (t.unissue_ports r).trans ht

/-- The withdrawal on one port. -/
def State.withdrawAt (s : State) (f : HpReq → Bool) (p : Nat) : State :=
  (((s.port p).queue.drop (s.port p).shown).filter f).foldl State.unissue (s.modPort p (fun q => q.withdraw f))
theorem State.withdraw_eq (s : State) (f : HpReq → Bool) : s.withdraw f = (List.range 4).foldl (fun t p => t.withdrawAt f p) s := rfl

theorem State.withdrawAt_ports (s : State) (f : HpReq → Bool) (p : Nat) :
    (s.withdrawAt f p).ports = (s.modPort p (fun q => q.withdraw f)).ports := State.unissues_ports _ _
theorem State.withdrawAt_port_ne (s : State) (f : HpReq → Bool) {p k : Nat} (hne : k ≠ p) : (s.withdrawAt f p).port k = s.port k :=
  (congrArg (fun t => Tab.getD (fun _ => Port.init) t k) (s.withdrawAt_ports f p)).trans (State.port_ne s hne _)

/-- The issuer of a withdrawn request counts one fewer, and its channel is else as before. -/
def CountsLess (n : Nat) (s t : State) : Prop := t.canon = true ∧ ∃ o, t.channel n = { s.channel n with out := o }
theorem CountsLess.trans {n : Nat} {s t u : State} (h : CountsLess n s t) (h' : CountsLess n t u) : CountsLess n s u := by
  obtain ⟨-, o, ho⟩ := h
  obtain ⟨hc, o', ho'⟩ := h'
  exact ⟨hc, o', by rw [ho', ho]⟩
theorem CountsLess.foldl {α : Type} {n : Nat} {op : State → α → State} (hop : ∀ t a, t.canon = true → CountsLess n t (op t a)) (l : List α)
    {s : State} (hc : s.canon = true) : CountsLess n s (l.foldl op s) :=
  List.foldlRecOn (motive := CountsLess n s) l op ⟨hc, _, rfl⟩ fun t ht a _ => ht.trans (hop t a ht.1)

variable (hc : s.canon = true)
include hc

theorem State.withdrawAt_port_self (f : HpReq → Bool) (p : Nat) : (s.withdrawAt f p).port p = (s.port p).withdraw f :=
  (congrArg (fun t => Tab.getD (fun _ => Port.init) t p) (s.withdrawAt_ports f p)).trans (State.port_self hc p _)
theorem State.withdrawAt_canon (f : HpReq → Bool) (p : Nat) : (s.withdrawAt f p).canon = true :=
  (State.foldl_ok _ (State.modPort_ok s p _ (State.ok_self hc)) fun _ _ ht => State.unissue_ok _ _ ht).2
/-- Each of the four ports loses the withdrawn requests. -/
theorem State.withdraw_port (f : HpReq → Bool) {p : Nat} (hp : p < 4) : (s.withdraw f).port p = (s.port p).withdraw f := by
  obtain ⟨t, ht, hview, hfold⟩ := foldl_ownTurn (op := fun t p => t.withdrawAt f p) (view := fun t => t.port p) (g := p)
    (fun _ k ht => State.withdrawAt_canon ht f k) (fun t _ _ hk => t.withdrawAt_port_ne f (Ne.symm hk)) List.nodup_range (List.mem_range.mpr hp) hc
  rw [State.withdraw_eq, hfold, State.withdrawAt_port_self ht, hview]

theorem State.modChannel_countsLess (n k : Nat) : CountsLess n s (s.modChannel k (fun x => { x with out := x.out - 1 })) := by
  refine ⟨(State.modChannel_ok s k _ (State.ok_self hc)).2, ?_⟩
  by_cases hk : n = k
  · subst hk
    exact ⟨_, State.channel_self hc n _⟩
  · exact ⟨_, State.channel_ne s hk _⟩
theorem State.lessOut_countsLess (n : Nat) (i : Issuer) : CountsLess n s (s.lessOut i) := by
  unfold State.lessOut
  split
  · exact State.modChannel_countsLess hc n _
  · exact State.modChannel_countsLess hc n _
  · exact State.modChannel_countsLess hc n _
  · exact ⟨hc, _, rfl⟩
theorem State.unissue_countsLess (n : Nat) (r : HpReq) : CountsLess n s (s.unissue r) := by
  refine ⟨(State.unissue_ok s r (State.ok_self hc)).2, ?_⟩
  obtain ⟨-, o, ho⟩ := State.lessOut_countsLess hc n r.issuer
  refine ⟨o, Eq.trans ?_ ho⟩
  unfold State.unissue
  split
  · exact congrArg (fun t => Tab.getD (fun _ => Channel.init) t n) (State.modCmd_channels _ _ _ _)
  · rfl
theorem State.withdrawAt_countsLess (n : Nat) (f : HpReq → Bool) (p : Nat) : CountsLess n s (s.withdrawAt f p) :=
  CountsLess.trans (t := s.modPort p (fun q => q.withdraw f)) ⟨(State.modPort_ok s p _ (State.ok_self hc)).2, _, rfl⟩
    (CountsLess.foldl (fun _ r ht => State.unissue_countsLess ht n r) _ (State.modPort_ok s p _ (State.ok_self hc)).2)
theorem State.withdraw_countsLess (n : Nat) (f : HpReq → Bool) : CountsLess n s (s.withdraw f) :=
  State.withdraw_eq s f ▸ CountsLess.foldl (fun _ p ht => State.withdrawAt_countsLess ht n f p) _ hc

end Withdraw

end Sys2Proof.Machine
end

section
/-! Commands and configuration of Mover channels (R293, R294, R307 to R310). -/
namespace Sys2Proof.Machine
open Sys2Proof

/-! ### The hand-over of a channel's configuration (R310) -/

/-- The channel that a hand-over gives a configuration. -/
def Channel.handed (x : Channel) (w : Word) (t : Nat) : Channel := { x with active := w, handAt := some t }
/-- The channel after a hand-over, which is made where PENDING is 1. -/
def State.castled (s : State) (n : Nat) : Channel :=
  if s.cfgPending n then (s.channel n).handed (s.regAt (mvA n Reg.MV_CH_CFG)) s.time.toNat else s.channel n

theorem State.castleCh_frame (s : State) (n : Nat) : ∃ x r, s.castleCh n = { s with channels := x, regs := r } := by
  unfold State.castleCh
  split
  · exact ⟨_, _, rfl⟩
  · exact ⟨_, _, rfl⟩
theorem State.castleCh_idle {s : State} {n : Nat} (h : s.cfgPending n = false) : s.castleCh n = s := if_neg (Bool.eq_false_iff.mp h)
theorem State.castleCh_channel_ne (s : State) {n m : Nat} (h : m ≠ n) : (s.castleCh n).channel m = s.channel m := by
  unfold State.castleCh
  split
  · exact State.channel_ne s h (fun x => x.handed (s.regAt (mvA n Reg.MV_CH_CFG)) s.time.toNat)
  · rfl
theorem State.castled_active (s : State) (n : Nat) :
    (s.castled n).active = if s.cfgPending n then s.regAt (mvA n Reg.MV_CH_CFG) else (s.channel n).active := by
  unfold State.castled
  split <;> rfl
theorem State.castled_out (s : State) (n : Nat) : (s.castled n).out = (s.channel n).out := by
  unfold State.castled
  split <;> rfl

section Castle
variable {s : State} (hc : s.canon = true)
include hc

theorem State.castleCh_canon (n : Nat) : (s.castleCh n).canon = true := (State.castleCh_ok s n (State.ok_self hc)).2
theorem State.castleCh_channel (n : Nat) : (s.castleCh n).channel n = s.castled n := by
  unfold State.castleCh State.castled
  split
  · exact State.channel_self hc n (fun x => x.handed (s.regAt (mvA n Reg.MV_CH_CFG)) s.time.toNat)
  · rfl
theorem State.castleCh_cfgPending (n : Nat) : (s.castleCh n).cfgPending n = false := by
  by_cases h : s.cfgPending n = true
  · rw [State.castleCh, if_pos h]
    exact (congrArg (bit · 8) (State.regAt_modReg_self (State.modChannel_ok s n _ (State.ok_self hc)).2 _ _)).trans (bit_putFld_zero _ 8)
  · rw [State.castleCh_idle (Bool.eq_false_iff.mpr h), Bool.eq_false_iff.mpr h]

end Castle

/-! ### The fetch of a descriptor (R294, R307) -/

/-- The channel that is to fetch a descriptor, before its read is requested. -/
def Channel.asking (x : Channel) (d : BitVec 64) : Channel :=
  { x with st := .fetch, cur := d, chain := [], issued := 0, buffer := [], got := 4, port := fld x.active 9 8 }
/-- The channel whose descriptor's read has been requested. -/
def Channel.reading (x : Channel) : Channel := { x with got := 0, out := x.out + 1 }
/-- The state whose channel is to fetch a descriptor. -/
def State.asks (s : State) (n : Nat) (d : BitVec 64) : State := (s.castleCh n).modChannel n (fun x => x.asking d)

theorem State.descAsk_eq (s : State) (n : Nat) (d : BitVec 64) : s.descAsk n d =
    if ((s.asks n d).channel n).out < ((s.asks n d).channel n).maxOut then (s.asks n d).descPush n else s.asks n d := rfl
theorem State.descAsk_asks {s : State} {n : Nat} {d : BitVec 64} (h : ((s.asks n d).channel n).maxOut ≤ ((s.asks n d).channel n).out) :
    s.descAsk n d = s.asks n d := if_neg (Nat.not_lt.mpr h)
theorem State.descAsk_pushes {s : State} {n : Nat} {d : BitVec 64} (h : ((s.asks n d).channel n).out < ((s.asks n d).channel n).maxOut) :
    s.descAsk n d = (s.asks n d).descPush n := if_pos h

/-- Outside ENDGAME a request joins the queue of its port. -/
theorem State.hpPush_running {s : State} (hmode : s.glb.mode ≠ .endgame) (p : Nat) (r : HpReq) :
    s.hpPush p r = s.modPort p (fun q => { q with queue := q.queue ++ [r] }.present) := if_neg fun h => hmode h.1
theorem State.hpPush_frame (s : State) (p : Nat) (r : HpReq) : ∃ x, s.hpPush p r = { s with ports := x } := by
  unfold State.hpPush
  split <;> exact ⟨_, rfl⟩
theorem State.hpPush_channel (s : State) (p : Nat) (r : HpReq) (n : Nat) : (s.hpPush p r).channel n = s.channel n := by
  obtain ⟨x, hx⟩ := s.hpPush_frame p r
  rw [hx]
  rfl
theorem State.hpPush_cfgPending (s : State) (p : Nat) (r : HpReq) (n : Nat) : (s.hpPush p r).cfgPending n = s.cfgPending n := by
  obtain ⟨x, hx⟩ := s.hpPush_frame p r
  rw [hx]
  rfl

section Ask
variable {s : State} (n : Nat) (d : BitVec 64)

theorem State.asks_ports : (s.asks n d).ports = s.ports := by
  obtain ⟨x, r, h⟩ := s.castleCh_frame n
  rw [State.asks, h]
  rfl
theorem State.asks_mode : (s.asks n d).glb.mode = s.glb.mode := by
  obtain ⟨x, r, h⟩ := s.castleCh_frame n
  rw [State.asks, h]
  rfl
theorem State.asks_channel_ne {m : Nat} (h : m ≠ n) : (s.asks n d).channel m = s.channel m :=
  (State.channel_ne _ h _).trans (s.castleCh_channel_ne h)
theorem State.descPush_channel_ne {m : Nat} (h : m ≠ n) : (s.descPush n).channel m = s.channel m :=
  (State.hpPush_channel _ _ _ m).trans (State.channel_ne s h _)

theorem State.descAsk_channel_ne {m : Nat} (h : m ≠ n) : (s.descAsk n d).channel m = s.channel m := by
  rw [State.descAsk_eq]
  split
  · rw [State.descPush_channel_ne n h, State.asks_channel_ne n d h]
  · exact State.asks_channel_ne n d h

variable (hc : s.canon = true)
include hc

theorem State.asks_canon : (s.asks n d).canon = true := (State.modChannel_ok _ n _ (State.ok_self (State.castleCh_canon hc n))).2
theorem State.asks_channel : (s.asks n d).channel n = (s.castled n).asking d := by
  rw [State.asks, State.channel_self (State.castleCh_canon hc n), State.castleCh_channel hc]
theorem State.asks_cfgPending : (s.asks n d).cfgPending n = false := State.castleCh_cfgPending hc n
theorem State.descPush_channel : (s.descPush n).channel n = (s.channel n).reading :=
  (State.hpPush_channel _ _ _ n).trans (State.channel_self hc n _)
theorem State.descPush_port (hmode : s.glb.mode ≠ .endgame) : (s.descPush n).port (s.channel n).port =
    ({ s.port (s.channel n).port with
       queue := (s.port (s.channel n).port).queue ++ [hpRead (s.channel n).cur.toNat 32 (.descriptor n) 0 0] } : Port).present := by
  rw [State.descPush, State.hpPush_running (s := s.modChannel n _) hmode]
  exact State.port_self (State.modChannel_ok s n _ (State.ok_self hc)).2 _ _

/-- A channel that asks for a descriptor: it requests the read at once where fewer than MAX_OUT requests are outstanding. -/
theorem State.descAsk_channel : (s.descAsk n d).channel n =
    if (s.castled n).out < (s.castled n).maxOut then ((s.castled n).asking d).reading else (s.castled n).asking d := by
  rw [State.descAsk_eq, State.asks_channel n d hc]
  refine (apply_ite (fun t : State => t.channel n) _ _ _).trans (ite_congr rfl (fun _ => ?_) (fun _ => ?_))
  · rw [State.descPush_channel n (State.asks_canon n d hc), State.asks_channel n d hc]
  · exact State.asks_channel n d hc
theorem State.descAsk_cfgPending : (s.descAsk n d).cfgPending n = false := by
  rw [State.descAsk_eq]
  split
  · exact (State.hpPush_cfgPending _ _ _ n).trans (State.asks_cfgPending n d hc)
  · exact State.asks_cfgPending n d hc
theorem State.descAsk_port (hmode : s.glb.mode ≠ .endgame) (hroom : (s.castled n).out < (s.castled n).maxOut) :
    let p := ((s.castled n).asking d).port
    (s.descAsk n d).port p = ({ s.port p with queue := (s.port p).queue ++ [hpRead d.toNat 32 (.descriptor n) 0 0] } : Port).present := by
  have hx := State.asks_channel n d hc
  have hport := State.descPush_port n (State.asks_canon n d hc) ((State.asks_mode n d).symm ▸ hmode)
  rw [hx] at hport
  rw [State.descAsk_pushes (by rw [hx]; exact hroom)]
  exact hport.trans (by rw [State.port, State.asks_ports, ← State.port]; rfl)

end Ask

/-! ### STOP (R308) -/

/-- The channel that STOP has moved to STOPPING. -/
def Channel.stopping (x : Channel) : Channel := { x with st := .stopping }
/-- The stopped channel that has no answer outstanding is IDLE, with cause 7. -/
def Channel.stopped (x : Channel) : Channel := { x with st := .idle, cause := 7, stop := false, chain := [], buffer := [], issued := 0 }
theorem Channel.stopping_stop (x : Channel) : x.stopping.stop = x.stop := rfl
theorem Channel.stopping_out (x : Channel) : x.stopping.out = x.out := rfl
theorem Channel.stopping_stopped (x : Channel) : x.stopping.stopped = x.stopped := rfl

/-- A stopped channel waits for the answers that are outstanding. -/
theorem State.chanCheck_waits {s : State} {n : Nat} (hstop : (s.channel n).stop = true) (hout : (s.channel n).out ≠ 0) : s.chanCheck n = s :=
  (if_pos hstop).trans (if_pos hout)
/-- One that is STOPPING is IDLE once there are none. -/
theorem State.chanCheck_stops {s : State} {n : Nat} (hstop : (s.channel n).stop = true) (hout : (s.channel n).out = 0)
    (hst : (s.channel n).st = .stopping) : s.chanCheck n = s.modChannel n Channel.stopped :=
  (if_pos hstop).trans ((if_neg (not_not.mpr hout)).trans (if_pos hst))

/-- The state whose channel STOP has moved to STOPPING. -/
def State.stops (s : State) (n : Nat) : State := (s.chanStop n).modChannel n Channel.stopping

section Stop
variable {s : State} (hc : s.canon = true) (n : Nat)
include hc

theorem State.chanStop_stop : (s.chanStop n).canon = true ∧ ((s.chanStop n).channel n).stop = true := by
  have hmod := (State.modChannel_ok s n (fun y => { y with stop := true }) (State.ok_self hc)).2
  obtain ⟨hcanon, o, ho⟩ := State.withdraw_countsLess hmod n (fun r => ofChannel n r.issuer)
  exact ⟨hcanon, (congrArg Channel.stop ho).trans (congrArg Channel.stop (State.channel_self hc n _))⟩
theorem State.chanStop_unshown {p : Nat} (hp : p < 4) {r : HpReq}
    (hr : r ∈ ((s.chanStop n).port p).queue.drop ((s.chanStop n).port p).shown) : ofChannel n r.issuer = false := by
  have hmod := (State.modChannel_ok s n (fun y => { y with stop := true }) (State.ok_self hc)).2
  rw [State.chanStop, State.withdraw_port hmod _ hp] at hr
  exact Port.withdraw_unshown _ _ hr

theorem State.stops_channel : (s.stops n).channel n = ((s.chanStop n).channel n).stopping :=
  State.channel_self (State.chanStop_stop hc n).1 n _
theorem State.stops_canon : (s.stops n).canon = true := (State.modChannel_ok _ n _ (State.ok_self (State.chanStop_stop hc n).1)).2
theorem State.stops_stop : ((s.stops n).channel n).stop = true :=
  (congrArg Channel.stop (State.stops_channel hc n)).trans ((Channel.stopping_stop _).trans (State.chanStop_stop hc n).2)
theorem State.stops_out : ((s.stops n).channel n).out = ((s.chanStop n).channel n).out :=
  (congrArg Channel.out (State.stops_channel hc n)).trans (Channel.stopping_out _)
theorem State.stopped_waits (hout : ((s.chanStop n).channel n).out ≠ 0) : (s.stops n).chanCheck n = s.stops n :=
  State.chanCheck_waits (State.stops_stop hc n) (by rwa [State.stops_out hc])
theorem State.stopped_ends (hout : ((s.chanStop n).channel n).out = 0) : (s.stops n).chanCheck n = (s.stops n).modChannel n Channel.stopped :=
  State.chanCheck_stops (State.stops_stop hc n) ((State.stops_out hc n).trans hout) (congrArg Channel.st (State.stops_channel hc n))
theorem State.stopped_ports : ((s.stops n).chanCheck n).ports = (s.chanStop n).ports := by
  by_cases hout : ((s.chanStop n).channel n).out = 0
  · rw [State.stopped_ends hc n hout]
    exact (State.modChannel_ports _ _ _).trans (State.modChannel_ports _ _ _)
  · rw [State.stopped_waits hc n hout]
    exact State.modChannel_ports _ _ _

end Stop

/-! ### Writes of MV_CH_CMD (R307, R308) -/

section Commands
variable {s : State} {ch : Fin 64} {a : RpAcc}

/-- A command of a pool channel does nothing. -/
theorem writes_chanCmd_pool {c : Instr} {b : Nat} {f : State → State} (hexec : exec c s = done s (s.chanCmd ch.val b a f))
    (hpool : (s.accepting (mvA ch.val Reg.MV_CH_CMD) a).isPool ch.val = true) :
    Writes c s (mvA ch.val Reg.MV_CH_CMD) a (s.accepting (mvA ch.val Reg.MV_CH_CMD) a) :=
  writes_of hexec (if_neg fun h => h.2 hpool)
/-- A command of a Manager channel acts where it is the one bit set. -/
theorem writes_chanCmd {c : Instr} {b : Nat} {f : State → State} {v : State} (hexec : exec c s = done s (s.chanCmd ch.val b a f))
    (hpool : (s.accepting (mvA ch.val Reg.MV_CH_CMD) a).isPool ch.val = false) (hop : fld a.data 2 0 = b)
    (hv : f (s.accepting (mvA ch.val Reg.MV_CH_CMD) a) = v) : Writes c s (mvA ch.val Reg.MV_CH_CMD) a v :=
  writes_of hexec ((if_pos ⟨hop, Bool.eq_false_iff.mp hpool⟩).trans hv)

end Commands

/-! ### Writes of MV_CH_CFG (R310) -/

/-- A write in the cycle of a hand-over sets SHADOW_LATE and the page's bit before it lands. -/
def State.shadowLate (s : State) (n : Nat) : State := (s.orReg (mvA n Reg.MV_CH_STAT) (flag true 9)).raise (mvA n 0) 3
/-- A write of MV_CH_CFG lands in the shadow and sets PENDING. -/
def State.shadowWritten (s : State) (n : Nat) (data : Word) : State :=
  (s.writeRow (mvA n Reg.MV_CH_CFG) false data).orReg (mvA n Reg.MV_CH_STAT) (flag true 8)

section Shadow
variable {s : State} (n : Nat)

theorem State.shadowWritten_channel (data : Word) (m : Nat) : (s.shadowWritten n data).channel m = s.channel m := by
  obtain ⟨r, hr⟩ := s.writeRow_frame (mvA n Reg.MV_CH_CFG) false data
  rw [State.shadowWritten, hr]
  rfl

variable (hc : s.canon = true)
include hc

theorem State.shadowLate_canon : (s.shadowLate n).canon = true := (State.raise_ok _ _ _ (State.orReg_ok _ _ _ (State.ok_self hc))).2
theorem State.shadowLate_late : bit ((s.shadowLate n).regAt (mvA n Reg.MV_CH_STAT)) 9 = true := by
  refine Eq.trans (congrArg (bit · 9) (State.regAt_modReg_ne _ ?_ _)) (State.bit_orReg_flag hc _ (by decide))
  simp only [mvA, Reg.MV_CH_STAT]
  omega
theorem State.shadowWritten_pending (data : Word) : bit ((s.shadowWritten n data).regAt (mvA n Reg.MV_CH_STAT)) 8 = true :=
  State.bit_orReg_flag (State.writeRow_ok s _ _ _ (State.ok_self hc)).2 _ (by decide)
theorem State.shadowWritten_late (hn : n < 64) (data : Word) (hlate : bit (s.regAt (mvA n Reg.MV_CH_STAT)) 9 = true) :
    bit ((s.shadowWritten n data).regAt (mvA n Reg.MV_CH_STAT)) 9 = true := by
  refine State.bit_orReg (State.writeRow_ok s _ _ _ (State.ok_self hc)).2 _ ?_
  rw [State.regAt_writeRow_ne s (by simp only [mvA, Reg.MV_CH_STAT]; omega) (by simp only [mvA, Reg.MV_CH_STAT, Reg.MV_CH_CFG]; omega)]
  exact hlate
/-- After a late write SHADOW_LATE and PENDING are 1. -/
theorem State.shadowLate_written (hn : n < 64) (data : Word) :
    bit (((s.shadowLate n).shadowWritten n data).regAt (mvA n Reg.MV_CH_STAT)) 8 = true ∧
    bit (((s.shadowLate n).shadowWritten n data).regAt (mvA n Reg.MV_CH_STAT)) 9 = true :=
  ⟨State.shadowWritten_pending n (State.shadowLate_canon n hc) data,
    State.shadowWritten_late n (State.shadowLate_canon n hc) hn data (State.shadowLate_late n hc)⟩

end Shadow

section CfgWrite
variable {s v : State} {ch : Fin 64} {a : RpAcc} (hv : s.accepting (mvA ch.val Reg.MV_CH_CFG) a = v)
include hv

theorem writes_mvCfgShadowWrite : Writes (.mvCfgShadowWrite ch a false) s (mvA ch.val Reg.MV_CH_CFG) a (v.shadowWritten ch.val a.data) := by
  subst hv
  refine writes_of rfl ((if_neg Bool.false_ne_true).trans ?_)
  simp only [Bool.false_eq_true, false_and, or_self, if_false]
  rfl
/-- A write in the cycle of a hand-over at a boundary lands after the hand-over. -/
theorem writes_mvCfgShadowWrite_boundary (hpend : v.cfgPending ch.val = true) (hidle : v.atBoundary ch.val = true) :
    Writes (.mvCfgShadowWrite ch a true) s (mvA ch.val Reg.MV_CH_CFG) a
      (((v.castleCh ch.val).shadowLate ch.val).shadowWritten ch.val a.data) := by
  subst hv
  refine writes_of rfl ((if_neg Bool.false_ne_true).trans ?_)
  simp only [hpend, hidle, and_self, true_or, if_true]
  rfl
/-- A write in the cycle of a hand-over lands late, whether or not the channel stands at a boundary. -/
theorem writes_mvCfgShadowWrite_handOver (hhand : (v.channel ch.val).handAt = some v.time.toNat) :
    ∃ w : State, Writes (.mvCfgShadowWrite ch a true) s (mvA ch.val Reg.MV_CH_CFG) a ((w.shadowLate ch.val).shadowWritten ch.val a.data) ∧
      (v.canon = true → w.canon = true) := by
  by_cases hnow : v.cfgPending ch.val = true ∧ v.atBoundary ch.val = true
  · exact ⟨_, writes_mvCfgShadowWrite_boundary hv hnow.1 hnow.2, fun hc => State.castleCh_canon hc _⟩
  · refine ⟨v, ?_, id⟩
    subst hv
    refine writes_of rfl ((if_neg Bool.false_ne_true).trans ?_)
    simp only [hnow, hhand, true_and, false_or, if_false, if_true]
    rfl

end CfgWrite

end Sys2Proof.Machine

open Sys2Proof Sys2Proof.Machine

/-- Settles O47: a command acts on a Manager channel by its bit (`writes_chanCmd`): START is `State.descAsk`, STOP ends or leaves the
channel STOPPING by what is outstanding, and a write of the shadow comes after the hand-over of its cycle (`State.shadowLate_written`). -/
theorem channelCommands : Obligations.ChannelCommands := by
  unfold Obligations.ChannelCommands
  intro s ch a n A u x op
  refine ⟨fun hpool => ?pool, fun hpool hop => ?start, fun hpool hop => ?stop, fun hpool hop => ?clear, fun k => writes_of rfl rfl, ?shadow⟩
  case pool => exact ⟨writes_chanCmd_pool rfl hpool, writes_chanCmd_pool rfl hpool, writes_chanCmd_pool rfl hpool⟩
  case start =>
    refine ⟨fun hnot => writes_chanCmd rfl hpool hop (if_neg fun h => hnot.elim (· h.1) h.2), fun hidle hmode =>
      ⟨_, writes_chanCmd rfl hpool hop (if_pos ⟨hidle, hmode⟩), fun hc => ?_⟩⟩
    intro d
    have hx := State.descAsk_channel n d hc
    have hmax : ((u.descAsk n d).channel n).maxOut = (u.castled n).maxOut := by
      rw [hx]
      split <;> rfl
    have hport : ((u.descAsk n d).channel n).port = ((u.castled n).asking d).port := by
      rw [hx]
      split <;> rfl
    refine ⟨?_, ?_, ?_, State.descAsk_cfgPending n d hc, fun m hm => State.descAsk_channel_ne n d hm, fun hroom => ?_, fun hfull => ?_⟩
    · rw [hx]
      split <;> rfl
    · rw [hx]
      split <;> rfl
    · rw [← State.castled_active, hx]
      split <;> rfl
    · rw [hmax, ← State.castled_out] at hroom
      refine ⟨?_, ?_, hport ▸ State.descAsk_port n d hc hmode hroom⟩
      · rw [hx, if_pos hroom, ← State.castled_out]
        rfl
      · rw [hx, if_pos hroom]
        rfl
    · rw [hmax, ← State.castled_out] at hfull
      have hasks : u.descAsk n d = u.asks n d := State.descAsk_asks (by rw [State.asks_channel n d hc]; exact hfull)
      refine ⟨?_, ?_, (congrArg State.ports hasks).trans (State.asks_ports n d)⟩
      · rw [hx, if_neg (Nat.not_lt.mpr hfull), ← State.castled_out]
        rfl
      · rw [hx, if_neg (Nat.not_lt.mpr hfull)]
        rfl
  case stop =>
    refine ⟨fun hst => writes_chanCmd rfl hpool hop (if_pos hst), fun hidle hhalted hstopping =>
      ⟨_, writes_chanCmd rfl hpool hop (if_neg fun h => h.elim hidle fun h => h.elim hhalted hstopping), fun hc => ⟨?_, ?_⟩⟩⟩
    · intro y
      refine ⟨fun hout => ?_, fun hout => ?_⟩
      · exact (congrArg (State.channel · n) (State.stopped_waits hc n hout)).trans (State.stops_channel hc n)
      · refine (congrArg (State.channel · n) (State.stopped_ends hc n hout)).trans ?_
        rw [State.channel_self (State.stops_canon hc n), State.stops_channel hc n, Channel.stopping_stopped]
        rfl
    · intro p hp r hr
      have hports : ((u.stops n).chanCheck n).port p = (u.chanStop n).port p :=
        congrArg (fun t => Tab.getD (fun _ => Port.init) t p) (State.stopped_ports hc n)
      exact State.chanStop_unshown hc n hp (hports ▸ hr)
  case clear =>
    exact ⟨fun hst => writes_chanCmd rfl hpool hop (if_pos hst),
      fun hidle hhalted => writes_chanCmd rfl hpool hop (if_neg fun h => h.elim hidle hhalted)⟩
  case shadow =>
    intro C S v w
    refine ⟨writes_mvCfgShadowWrite rfl, fun hpend hidle => ⟨_, writes_mvCfgShadowWrite_boundary rfl hpend hidle, fun hc => ⟨?_, ?_⟩⟩, fun hhand => ?_⟩
    · rw [State.shadowWritten_channel]
      exact (congrArg Channel.active (State.castleCh_channel hc n)).trans ((v.castled_active n).trans (if_pos hpend))
    · exact State.shadowLate_written n (State.castleCh_canon hc n) ch.isLt a.data
    · obtain ⟨t, hwrites, hcanon⟩ := writes_mvCfgShadowWrite_handOver (s := s) (a := a) rfl hhand
      exact ⟨_, hwrites, fun hc => State.shadowLate_written n (hcanon hc) ch.isLt a.data⟩
end

section
/-! Transfers, descriptors, triggers and hand-over of Mover channels (R294 to R301, R307 to R310). -/
namespace Sys2Proof.Machine
open Sys2Proof

/-! ### CHANNEL_TAKE (R294, R296, R310) -/

/-- The state in which a free pool channel has taken a command off its port's queue, after the channel's hand-over. -/
def State.poolTaken (s : State) (ch p : Nat) : State := (s.modPort p (fun q => { q with moverQ := q.moverQ.drop 1 })).castleCh ch

theorem exec_channelTake {s : State} {ch p c h k : Nat} {x : Cmd} (hwork : s.working = true)
    (hfree : (List.range 64).find? (fun ch => s.isPool ch && (s.channel ch).cmd.isNone) = some ch) (hport : s.takePort = some (p, c, h, k))
    (hcmd : (s.poolTaken ch p).cmd? c h = some x) : exec .channelTake s = done s
      (((s.poolTaken ch p).modCmd c h (fun y => if y.pkt.opcode = 2
          then { y with counts := List.replicate y.frames.length (4096 + if x.pkt.metaAddr = 0 then 0 else 40) }
          else { y with stage := .moving })).modChannel ch
        (fun q => { q with st := .active, cmd := some (c, h, x.serial), port := p, chain := x.descs, issued := 0, stop := false })) := by
  unfold State.poolTaken at hcmd
  refine (if_pos hwork).trans ?_
  simp only [hfree, hport, hcmd]
  rfl

/-! ### MOVER_REQUEST (R295, R298, R305) -/

/-- A channel that has a request to issue, with fewer than MAX_OUT outstanding. -/
structure State.Issues (s : State) (n : Nat) : Prop where
  awake : s.awake = true
  mode : s.glb.mode ≠ .endgame
  going : (s.channel n).stop = false
  state : (s.channel n).st = .active ∨ ((s.channel n).st = .fetch ∧ (s.channel n).got = 4)
  room : (s.channel n).out < (s.channel n).maxOut
  runs : (s.channel n).cmd = none ∨ s.running = true

section Request
variable {s : State} {ch : Fin 64} (H : s.Issues ch.val) {ecc : Ecc} {residue tag : Bool}
include H

theorem State.Issues.request : exec (.moverRequest ch ecc residue tag) s =
    if residue = true ∨ (fired (s.opportunity (mvA ch.val 0) 0).2 11).isSome = true then
      done s ((s.opportunity (mvA ch.val 0) 0).1.mvResidue ch.val)
    else match (s.channel ch.val).cmd with
      | some (c, h, ser) => done s ((s.opportunity (mvA ch.val 0) 0).1.poolRequest ch.val c h ser ecc tag)
      | none => done s (if (s.channel ch.val).st = .fetch then (s.opportunity (mvA ch.val 0) 0).1.descPush ch.val
          else (s.opportunity (mvA ch.val 0) 0).1.chanRequest ch.val) := by
  obtain ⟨hawake, hmode, hgoing, hstate, hroom, hruns⟩ := H
  refine (if_neg ?_).trans rfl
  rintro (h | h | h | h | h | ⟨h, h'⟩)
  · exact h hawake
  · exact hmode h
  · exact Bool.false_ne_true (hgoing.symm.trans h)
  · exact h hstate
  · exact Nat.not_le.mpr hroom h
  · exact hruns.elim (fun hnone => by simp [hnone] at h) h'

theorem State.Issues.mismatch : exec (.moverRequest ch ecc true tag) s = done s ((s.opportunity (mvA ch.val 0) 0).1.mvResidue ch.val) :=
  H.request.trans (if_pos (.inl rfl))

variable (hquiet : fired (s.opportunity (mvA ch.val 0) 0).2 11 = none)
include hquiet

theorem State.Issues.unfired : exec (.moverRequest ch ecc false tag) s =
    match (s.channel ch.val).cmd with
    | some (c, h, ser) => done s ((s.opportunity (mvA ch.val 0) 0).1.poolRequest ch.val c h ser ecc tag)
    | none => done s (if (s.channel ch.val).st = .fetch then (s.opportunity (mvA ch.val 0) 0).1.descPush ch.val
        else (s.opportunity (mvA ch.val 0) 0).1.chanRequest ch.val) :=
  H.request.trans (if_neg (by simp [hquiet]))
theorem State.Issues.fetch (hcmd : (s.channel ch.val).cmd = none) (hst : (s.channel ch.val).st = .fetch) :
    exec (.moverRequest ch ecc false tag) s = done s ((s.opportunity (mvA ch.val 0) 0).1.descPush ch.val) := by
  rw [H.unfired hquiet, hcmd]
  exact congrArg (done s) (if_pos hst)
theorem State.Issues.manager (hcmd : (s.channel ch.val).cmd = none) (hst : (s.channel ch.val).st = .active) :
    exec (.moverRequest ch ecc false tag) s = done s ((s.opportunity (mvA ch.val 0) 0).1.chanRequest ch.val) := by
  rw [H.unfired hquiet, hcmd]
  exact congrArg (done s) (if_neg (by rw [hst]; nofun))
theorem State.Issues.pool {c h ser : Nat} (hcmd : (s.channel ch.val).cmd = some (c, h, ser)) :
    exec (.moverRequest ch ecc false tag) s = done s ((s.opportunity (mvA ch.val 0) 0).1.poolRequest ch.val c h ser ecc tag) := by
  rw [H.unfired hquiet, hcmd]

end Request

/-! ### DESCRIPTOR_FETCH (R307, R308) -/

/-- The channel that has taken its descriptor, before a trigger is taken. -/
def Channel.fetched (x : Channel) (d : Desc) : Channel :=
  { x with st := if d.trig then .trigWait else .active, chain := [d], issued := 0, got := 0, buffer := [] }
/-- A channel that waits for a trigger takes one that is pending. -/
def Channel.taken (x : Channel) : Channel :=
  if x.st = .trigWait ∧ 0 < x.trigPend then { x with st := .active, trigPend := x.trigPend - 1 } else x
theorem State.trigTake_eq (s : State) (n : Nat) : s.trigTake n = s.modChannel n Channel.taken := rfl

theorem Channel.taken_idle {x : Channel} (h : x.st ≠ .trigWait ∨ x.trigPend = 0) : x.taken = x :=
  if_neg fun hwait => h.elim (· hwait.1) fun hnone => Nat.ne_of_gt hwait.2 hnone
theorem Channel.taken_pending {x : Channel} (hst : x.st = .trigWait) (hpend : 0 < x.trigPend) :
    x.taken = { x with st := .active, trigPend := x.trigPend - 1 } := if_pos ⟨hst, hpend⟩
theorem Channel.taken_chain (x : Channel) : x.taken.chain = x.chain ∧ x.taken.issued = x.issued := by
  unfold Channel.taken
  split <;> exact ⟨rfl, rfl⟩

section Fetch
variable {s : State} {ch : Fin 64} (hawake : s.awake = true) (hmode : s.glb.mode ≠ .endgame) (hst : (s.channel ch.val).st = .fetch)
  (hgoing : (s.channel ch.val).stop = false)
include hawake hmode hst hgoing

theorem exec_descriptorFetch : exec (.descriptorFetch ch) s =
    match (s.channel ch.val).got with
    | 1 =>
      if descBad (s.channel ch.val).descNat (fld (s.channel ch.val).active 19 16) = true then done s (s.chanHalt ch.val 2)
      else done s ((s.modChannel ch.val (fun y => y.fetched (descOf (s.channel ch.val).descNat))).trigTake ch.val)
    | 2 => done s (s.chanHalt ch.val 1)
    | _ => idle s :=
  if_pos ⟨hawake, hmode, hst, by simp [hgoing]⟩

theorem exec_descriptorFetch_failed (hgot : (s.channel ch.val).got = 2) : exec (.descriptorFetch ch) s = done s (s.chanHalt ch.val 1) := by
  rw [exec_descriptorFetch hawake hmode hst hgoing, hgot]
  rfl
theorem exec_descriptorFetch_waits (hgot1 : (s.channel ch.val).got ≠ 1) (hgot2 : (s.channel ch.val).got ≠ 2) :
    exec (.descriptorFetch ch) s = idle s := by
  rw [exec_descriptorFetch hawake hmode hst hgoing]
  split
  next h => exact absurd h hgot1
  next h => exact absurd h hgot2
  next => rfl
theorem exec_descriptorFetch_bad (hgot : (s.channel ch.val).got = 1)
    (hbad : descBad (s.channel ch.val).descNat (fld (s.channel ch.val).active 19 16) = true) :
    exec (.descriptorFetch ch) s = done s (s.chanHalt ch.val 2) := by
  rw [exec_descriptorFetch hawake hmode hst hgoing, hgot]
  exact if_pos hbad
theorem exec_descriptorFetch_runs (hgot : (s.channel ch.val).got = 1)
    (hgood : descBad (s.channel ch.val).descNat (fld (s.channel ch.val).active 19 16) = false) :
    exec (.descriptorFetch ch) s =
      done s ((s.modChannel ch.val (fun y => y.fetched (descOf (s.channel ch.val).descNat))).trigTake ch.val) := by
  rw [exec_descriptorFetch hawake hmode hst hgoing, hgot]
  exact if_neg (Bool.eq_false_iff.mp hgood)

end Fetch

theorem State.fetched_channel {s : State} (hc : s.canon = true) (n : Nat) (d : Desc) :
    ((s.modChannel n (fun y => y.fetched d)).trigTake n).channel n = ((s.channel n).fetched d).taken := by
  rw [State.trigTake_eq, State.channel_self (State.modChannel_ok s n _ (State.ok_self hc)).2, State.channel_self hc]

section Fetched
variable {x : Channel} {d : Desc}

theorem Channel.fetched_runs (htrig : d.trig = false) : (x.fetched d).taken.st = .active ∧ (x.fetched d).taken.trigPend = x.trigPend := by
  have hst : (x.fetched d).st = .active := if_neg (Bool.eq_false_iff.mp htrig)
  rw [Channel.taken_idle (.inl (by rw [hst]; nofun))]
  exact ⟨hst, rfl⟩
theorem Channel.fetched_waits (htrig : d.trig = true) (hnone : x.trigPend = 0) : (x.fetched d).taken.st = .trigWait := by
  rw [Channel.taken_idle (x := x.fetched d) (.inr hnone)]
  exact if_pos htrig
theorem Channel.fetched_takes (htrig : d.trig = true) (hpend : 0 < x.trigPend) :
    (x.fetched d).taken.st = .active ∧ (x.fetched d).taken.trigPend = x.trigPend - 1 := by
  rw [Channel.taken_pending (x := x.fetched d) (if_pos htrig) hpend]
  exact ⟨rfl, rfl⟩

end Fetched

end Sys2Proof.Machine

open Sys2Proof Sys2Proof.Machine

/-- Settles O48: one lemma for each way that a command of the channels can go (`State.Issues`, `exec_descriptorFetch`); the channel that
has taken its descriptor is `Channel.taken`, and that after a hand-over `State.castled`. -/
theorem channelWork : Obligations.ChannelWork := by
  unfold Obligations.ChannelWork
  refine ⟨?take, ?request, ?fetch, ?tick, ?castling⟩
  case take =>
    intro s ch p c h k x hwork hfree hport u hcmd
    exact yields_of_done (exec_channelTake hwork hfree hport hcmd)
  case request =>
    intro s ch poison tag x hawake hmode hgoing hstate hroom hruns
    have H : s.Issues ch.val := ⟨hawake, hmode, hgoing, hstate, hroom, hruns⟩
    exact ⟨yields_of_done H.mismatch, fun hquiet => ⟨fun hcmd hst => yields_of_done (H.fetch hquiet hcmd hst),
      fun hcmd hst => yields_of_done (H.manager hquiet hcmd hst), fun c h ser hcmd => yields_of_done (H.pool hquiet hcmd)⟩⟩
  case fetch =>
    intro s ch x hawake hmode hst hgoing
    refine ⟨fun hgot => yields_of_done (exec_descriptorFetch_failed hawake hmode hst hgoing hgot),
      fun hgot1 hgot2 => yields_of_idle (exec_descriptorFetch_waits hawake hmode hst hgoing hgot1 hgot2),
      fun hgot hbad => yields_of_done (exec_descriptorFetch_bad hawake hmode hst hgoing hgot hbad),
      fun hgot hgood => ⟨_, yields_of_done (exec_descriptorFetch_runs hawake hmode hst hgoing hgot hgood), fun hc => ?_⟩⟩
    intro d
    rw [State.fetched_channel hc]
    obtain ⟨hchain, hissued⟩ := ((s.channel ch.val).fetched d).taken_chain
    exact ⟨hchain, hissued, Channel.fetched_runs, Channel.fetched_waits, Channel.fetched_takes⟩
  case tick =>
    intro s n w due hawake hmode hen hdue
    exact yields_of_done (if_pos ⟨hawake, hmode, hen, hdue⟩)
  case castling =>
    intro s ch hawake hidle
    have hexec : exec (.mvCastling ch) s = done s (s.castleCh ch.val) := if_pos ⟨hawake, hidle⟩
    refine ⟨fun hnone => yields_of_done (hexec.trans (congrArg (done s) (State.castleCh_idle hnone))), fun hpend =>
      ⟨_, yields_of_done hexec, fun hc => ⟨?_, State.castleCh_cfgPending hc _, fun m hm => s.castleCh_channel_ne hm⟩⟩⟩
    exact (congrArg Channel.active (State.castleCh_channel hc _)).trans ((s.castled_active _).trans (if_pos hpend))
end

section
/-! A PRELOAD_LOCK whose record renumbers the captures of its cycle (R109, R320, R330, R421), wherever the state lists them. -/
namespace Sys2Proof.Machine
open Sys2Proof

/-- A PRELOAD_LOCK by the owner, which finds way 0 in parity error. -/
def preloadAccess : RpAcc := { id := 1, data := 4, par := wordPar 4 }
/-- A state in SERVICE with an idle Context Cache and the range of line 0 alone. Way 0 holds a line, so that a PRELOAD_LOCK may find it in
parity error, which leaves a record of class 0x07. The Blotter has queued a record of class 0x24 in this cycle, which comes after that one
(R421), and lists as captured in this cycle a page whose ERR_CAPT0 would be CC_RANGE_LEN. Every table is canonical; no step of the block
lists such a page. -/
def captureOnRange : State :=
  { State.reset with
    build := { lanes := 128, patch := 0, idcode := 1 }
    fuse := { State.reset.fuse with request := false, done := true }
    glb := { Glb.init with mode := .service, owner := some 1 }
    regs := [(Reg.CC_SIZE, 1), (Reg.CC_RANGE_LEN, 1)]
    cache := { Cache.init with ways := [(0, some (freshLine 0 0 false))] }
    blotter := { State.reset.blotter with seq := 2, queue := [[0, 0x24]], fresh := [Reg.CC_RANGE_LEN - 0x20], cycle := 1 } }

/-- How many lines the operation under way waits for. -/
def State.jobWaiting (s : State) : Nat := (s.cache.job.map (fun j => j.waits.length)).getD 0
/-- That of the state that a command answers. -/
def answerWaiting : Out → Nat
  | .next t => t.jobWaiting
  | _ => 0

theorem captureOnRange_accepts : captureOnRange.canon = true ∧ captureOnRange.accepts Reg.CC_MAINT preloadAccess = true := by decide +kernel
/-- The record of the parity error gives the capture, which is CC_RANGE_LEN, the next number: the range is of two lines then. -/
theorem captureOnRange_waiting : answerWaiting (exec (.preloadLock preloadAccess (some 0)) captureOnRange) = 2 := by decide +kernel

end Sys2Proof.Machine

open Sys2Proof Sys2Proof.Machine

/-- Refutes O38: it reads the range of a PRELOAD_LOCK before the record of the way that is dropped, and `captureOnRange` is a state where
that record renumbers CC_RANGE_LEN as a capture of its cycle, so that the operation waits for two lines and not for the one of the
statement. -/
theorem not_cacheMaintenance : ¬ Obligations.CacheMaintenance := by
  unfold Obligations.CacheMaintenance
  intro h
  obtain ⟨-, -, hbegins⟩ := h captureOnRange preloadAccess _ 4 (some 0) (.inr (.inr (.inr (.inl ⟨rfl, rfl⟩)))) (by decide)
  obtain ⟨hpreload, -⟩ := hbegins (by decide +kernel) (.inr (by decide +kernel))
  obtain ⟨t, ht, halike⟩ := hpreload rfl captureOnRange_accepts.2
  have hwaiting := captureOnRange_waiting
  rw [ht] at hwaiting
  rcases halike with rfl | ⟨-, rfl⟩
  · exact absurd hwaiting (by decide +kernel)
  · exact absurd hwaiting (by decide)
end

section
/-! Enabling, fills, write-backs and retries of the Context Cache (R316, R318, R323 to R329). -/
namespace Sys2Proof.Machine
open Sys2Proof

/-! ### Writes of CC_CTL (R324, R325) -/

section Ctl
variable {s v : State} {a : RpAcc} (hv : s.accepting Reg.CC_CTL a = v)
include hv

theorem writes_ccEnable (hen : bit a.data 0 = true) : Writes (.ccEnable a) s Reg.CC_CTL a
    (match v.cache.st with
     | .disabled => if v.cache.invalDone then v.modCache (fun c => { c with st := .enabled }) else v.needInval
     | .draining => v.needInval
     | .enabled => v.modCache (fun c => { c with drainPend := false })) := by
  subst hv
  exact writes_of rfl (if_neg (by simp [hen]))
theorem writes_ccEnable_invalidated (hen : bit a.data 0 = true) (hst : v.cache.st = .disabled) (hdone : v.cache.invalDone = true) :
    Writes (.ccEnable a) s Reg.CC_CTL a (v.modCache (fun c => { c with st := .enabled })) := by
  have h := writes_ccEnable hv hen
  rwa [hst, show (if v.cache.invalDone = true then v.modCache (fun c => { c with st := .enabled }) else v.needInval) = _ from if_pos hdone] at h
theorem writes_ccEnable_stale (hen : bit a.data 0 = true)
    (hst : (v.cache.st = .disabled ∧ v.cache.invalDone = false) ∨ v.cache.st = .draining) :
    Writes (.ccEnable a) s Reg.CC_CTL a v.needInval := by
  have h := writes_ccEnable hv hen
  rcases hst with ⟨hst, hdone⟩ | hst
  · rwa [hst, show (if v.cache.invalDone = true then v.modCache (fun c => { c with st := .enabled }) else v.needInval) = _ from
      if_neg (Bool.eq_false_iff.mp hdone)] at h
  · rwa [hst] at h
theorem writes_ccEnable_again (hen : bit a.data 0 = true) (hst : v.cache.st = .enabled) :
    Writes (.ccEnable a) s Reg.CC_CTL a (v.modCache (fun c => { c with drainPend := false })) := by
  have h := writes_ccEnable hv hen
  rwa [hst] at h

theorem writes_ccDisable (hen : bit a.data 0 = false) (hst : v.cache.st = .enabled) : Writes (.ccDisable a) s Reg.CC_CTL a
    (if v.cache.job.isSome then v.modCache (fun c => { c with drainPend := true }) else v.drain) := by
  subst hv
  exact writes_of rfl (if_neg fun h => h.elim Bool.false_ne_true fun h => h.elim (Bool.eq_false_iff.mp hen) (· hst))
theorem writes_ccDisable_none (hst : v.cache.st ≠ .enabled) : Writes (.ccDisable a) s Reg.CC_CTL a v := by
  subst hv
  exact writes_of rfl (if_pos (.inr (.inr hst)))

end Ctl

/-! ### The ends of an operation and of the drain (R320, R323 to R325) -/

section Job
variable {s : State} {j : CcJob} (hawake : s.awake = true) (hjob : s.cache.job = some j) (hwaits : j.waits = [])
include hawake hjob hwaits

/-- The operation is over; an INVAL_ALL has set INVAL_DONE. -/
def State.jobEnded (s : State) (j : CcJob) : State :=
  (s.modCache (fun c => { c with job := none, invalDone := c.invalDone || decide (j.op = 6) })).raise 0x9000 5
theorem exec_maintDone (hop : j.op ≠ 7) (hwrites : j.writes = []) : exec .maintDone s =
    done s (if s.cache.drainPend then (s.jobEnded j).drain else s.jobEnded j) := by
  refine Eq.trans (b := match s.cache.job with
    | some j => if s.awake ∧ j.op ≠ 7 ∧ j.waits.isEmpty ∧ j.writes.isEmpty then
        done s (if (s.jobEnded j).cache.drainPend then (s.jobEnded j).drain else s.jobEnded j) else idle s
    | none => idle s) rfl ?_
  rw [hjob]
  exact if_pos ⟨hawake, hop, by rw [hwaits]; rfl, by rw [hwrites]; rfl⟩
theorem exec_drainDone (hop : j.op = 7) (hquiet : s.cache.quiet = true) : exec .drainDone s =
    done s ((s.modCache (fun c => { c with job := none, st := .disabled, invalDone := false })).raise 0x9000 6) := by
  refine Eq.trans (b := match s.cache.job with
    | some j => if s.awake ∧ j.op = 7 ∧ j.waits.isEmpty ∧ s.cache.quiet then
        done s ((s.modCache (fun c => { c with job := none, st := .disabled, invalDone := false })).raise 0x9000 6) else idle s
    | none => idle s) rfl ?_
  rw [hjob]
  exact if_pos ⟨hawake, hop, by rw [hwaits]; rfl, hquiet⟩

end Job

/-! ### Answers of host memory (R316, R318) -/

section Answers
variable {s : State} (hawake : s.awake = true)
include hawake

theorem exec_ccFill {r : Fin 17} {m : Miss} (hmiss : Tab.getD (fun _ => (none : Option Miss)) s.cache.miss r.val = some m) :
    exec (.ccFill r) s = match m.reply with
      | some (x, b) => done s (s.fillDone r.val m x b).resume
      | none => idle s := by
  refine (if_neg (not_not.mpr hawake)).trans ?_
  rw [hmiss] <;> rfl
theorem exec_ccWritebackStatus {i : Fin 32} {v : Victim} (hvictim : s.cache.victims[i.val]? = some v) (hwriting : v.writing = true) :
    exec (.ccWritebackStatus i) s = match v.reply with
      | some x => done s (s.wbStatus i.val v x)
      | none => idle s := by
  refine (if_neg (not_not.mpr hawake)).trans ?_
  simp only [hvictim, hwriting]
  cases v.reply <;> rfl

end Answers

/-! ### Retries (R327 to R329) -/

theorem State.issueWb_cache (s : State) (tag : Nat) (d : BitVec 1024) : (s.issueWb tag d).cache = s.cache := by
  unfold State.issueWb
  rw [State.count_cache]
  obtain ⟨x, hx⟩ := s.hpPush_frame (s.linePort tag) _
  rw [hx]
theorem State.startWb_victims (s : State) {i j : Nat} (hne : j ≠ i) (keep : Bool) :
    (s.startWb i keep).cache.victims[j]? = s.cache.victims[j]? := by
  unfold State.startWb
  split
  · rw [State.issueWb_cache]
    exact List.getElem?_modify_ne _ _ (Ne.symm hne)
  · rfl
/-- A retry issues no write-back of a poisoned line. -/
theorem State.retryWb_poisoned {s : State} {i : Nat} {v : Victim} (hvictim : s.cache.victims[i]? = some v) (hpoison : v.line.poison = true) :
    s.retryWb.cache.victims[i]? = some v := by
  unfold State.retryWb
  refine List.foldlRecOn (motive := fun t : State => t.cache.victims[i]? = some v) _ _ hvictim fun t ht j _ => ?_
  split
  next w hw =>
    split
    next hretries =>
      refine (t.startWb_victims (fun hij => ?_) false).trans ht
      cases ht.symm.trans (hij ▸ hw)
      exact hretries.2.2 hpoison
    next => exact ht
  next => exact ht

end Sys2Proof.Machine

open Sys2Proof Sys2Proof.Machine

/-- Settles O39: the state of the cache decides what a write of EN does, an operation and the drain end by what they still wait for, and a
retry leaves the entries of poisoned lines (`State.retryWb_poisoned`). -/
theorem cacheWork : Obligations.CacheWork := by
  unfold Obligations.CacheWork
  refine ⟨⟨fun s a => ?ctl, fun s j hawake hjob hwaits => ?ends⟩, fun s hawake => ⟨fun r m hmiss => ?fill, fun i v hvictim hwriting => ?status,
    fun hmode f => ?retry⟩⟩
  case ctl =>
    intro A u
    refine ⟨fun hen => ⟨writes_ccEnable_invalidated rfl hen, fun hst hdone => writes_ccEnable_stale rfl hen (.inl ⟨hst, hdone⟩),
      fun hst => writes_ccEnable_stale rfl hen (.inr hst), writes_ccEnable_again rfl hen⟩, fun hen => ⟨fun hst hjob => ?_, fun hst hjob => ?_,
      writes_ccDisable_none rfl⟩⟩
    · have h := writes_ccDisable rfl hen hst
      rwa [if_pos hjob] at h
    · have h := writes_ccDisable rfl hen hst
      rwa [if_neg (Bool.eq_false_iff.mp (congrArg Option.isSome hjob))] at h
  case ends =>
    refine ⟨fun hop hwrites => ?_, fun hop hquiet => yields_of_done (exec_drainDone hawake hjob hwaits hop hquiet)⟩
    have hexec := exec_maintDone hawake hjob hwaits hop hwrites
    exact ⟨fun hnone => yields_of_done (hexec.trans (congrArg (done s) (if_neg (Bool.eq_false_iff.mp hnone)))),
      fun hpend => yields_of_done (hexec.trans (congrArg (done s) (if_pos hpend)))⟩
  case fill =>
    have hexec := exec_ccFill hawake hmiss
    exact ⟨fun x b hreply => yields_of_done (hexec.trans (by rw [hreply])), fun hnone => yields_of_idle (hexec.trans (by rw [hnone]))⟩
  case status =>
    have hexec := exec_ccWritebackStatus hawake hvictim hwriting
    exact ⟨fun x hreply => yields_of_done (hexec.trans (by rw [hreply])), fun hnone => yields_of_idle (hexec.trans (by rw [hnone]))⟩
  case retry =>
    intro w u
    refine ⟨fun hearly => yields_of_idle (if_neg fun h => Nat.not_le.mpr hearly (of_decide_eq_true h.2.2)),
      fun hdue => yields_of_done (if_pos ⟨hawake, hmode, decide_eq_true hdue⟩), fun i v hvictim hpoison => State.retryWb_poisoned hvictim hpoison⟩
end

section
/-! A lookup of the Context Cache (R312, R314 to R319, R326). -/
namespace Sys2Proof.Machine
open Sys2Proof

section Lookup
variable {s : State} (hawake : s.awake = true) (hend : s.glb.mode ≠ .endgame) (hopen : s.glb.mode ≠ .opening ∨ 4 ≤ s.glb.phase.code)
include hawake hend hopen

/-- Where the cache takes lookups, a lookup of the store is what `ccLook` makes of it. -/
theorem exec_ccLookup (off : BitVec 30) (q : CcLookup) (e : CcFault) : exec (.ccLookup off q e) s =
    if s.inStore off.toNat 1 = false then done s (s.blot 0x9000 0x22 none [BitVec.ofNat 32 off.toNat])
    else ((s.ccLook off.toNat q e false).map (done s)).getD (idle s) := by
  refine Eq.trans (b := execCcLookup off q e s) rfl ?_
  unfold execCcLookup
  rw [if_neg (by
    rintro (h | h | ⟨h, hp⟩)
    · exact h hawake
    · exact hend h
    · exact hopen.elim (· h) (fun h4 => absurd hp (Nat.not_lt.mpr h4)))]
  cases s.inStore off.toNat 1
  · rfl
  · cases s.ccLook off.toNat q e false <;> rfl

theorem yields_ccLookup_made {off : BitVec 30} {q : CcLookup} {e : CcFault} {t : State} (hin : s.inStore off.toNat 1 = true)
    (h : s.ccLook off.toNat q e false = some t) : Yields (.ccLookup off q e) s t := by
  refine yields_of_done ((exec_ccLookup hawake hend hopen off q e).trans ?_)
  rw [hin, h]
  rfl
theorem yields_ccLookup_waits {off : BitVec 30} {q : CcLookup} {e : CcFault} (hin : s.inStore off.toNat 1 = true)
    (h : s.ccLook off.toNat q e false = none) : Yields (.ccLookup off q e) s s := by
  refine yields_of_idle ((exec_ccLookup hawake hend hopen off q e).trans ?_)
  rw [hin, h]
  rfl
theorem yields_ccLookup_beyond {off : BitVec 30} {q : CcLookup} {e : CcFault} (hin : s.inStore off.toNat 1 = false) :
    Yields (.ccLookup off q e) s (s.blot 0x9000 0x22 none [BitVec.ofNat 32 off.toNat]) := by
  refine yields_of_done ((exec_ccLookup hawake hend hopen off q e).trans ?_)
  rw [hin]
  rfl

end Lookup

/-- The state after the detector of sequential stores has seen a lookup (R319). -/
def State.detected (s : State) (q : CcLookup) (tag : Nat) : State := if q.bytes = [] then s else s.seqStore q.unit.val tag
/-- What a lookup that no register serves finds, and what it is answered (R318, R329). -/
def State.looksUp (s : State) (a : Nat) (q : CcLookup) (e : CcFault) : State × Served :=
  ((s.detected q (a / 128)).ccFind (a / 128) (a % 128) q.len e).touch (a / 128) (a % 128) q

/-- A lookup of a line that a register holds joins it, while that has taken fewer than eight others (R316). -/
theorem State.ccLook_held {s : State} {a r : Nat} {m : Miss} {q : CcLookup} {e : CcFault} {inner : Bool} (hr : s.cache.missOf (a / 128) = some r)
    (hm : Tab.getD (fun _ => (none : Option Miss)) s.cache.miss r = some m) : s.ccLook a q e inner =
      if m.merges < 8 then
        some (((s.detected q (a / 128)).setMiss r (some { m with
          merged := m.merged ++ [{ q := q, off := a % 128, inner := inner }], stream := m.stream && q.streaming, merges := m.merges + 1 })).count
            Reg.CC_MERGED)
      else none := by
  unfold State.ccLook State.detected
  simp [hr, hm]

section Free
variable {s : State} {a : Nat} {q : CcLookup} {e : CcFault} (hr : s.cache.missOf (a / 128) = none)
include hr

theorem State.ccLook_served (ht : (s.looksUp a q e).2 ≠ .miss) : s.ccLook a q e false = some (s.looksUp a q e).1 := by
  unfold State.ccLook
  simp only [hr, Option.bind_none, List.isEmpty_iff]
  change (match (s.looksUp a q e).2 with | .data b => _ | .storeErr => _ | .miss => _) = _
  cases h : (s.looksUp a q e).2 with
  | miss => exact absurd h ht
  | storeErr => rfl
  | data b => rfl

/-- A lookup that misses takes a free register of its class; with none free it waits (R316, R317, R319). -/
theorem State.ccLook_missed (ht : (s.looksUp a q e).2 = .miss) : s.ccLook a q e false =
    match s.cache.freeMiss q.manager with
    | some r =>
      let v := (s.looksUp a q e).1.count Reg.CC_MISSES
      some (if ¬ q.bytes.isEmpty ∧ v.around q.unit.val then v.startAround r (a / 128) { q := q, off := a % 128, inner := false } [] 0
        else v.startFill r (a / 128) [{ q := q, off := a % 128, inner := false }] 0)
    | none => if e = .clean then none else some (s.ccFind (a / 128) (a % 128) q.len e) := by
  unfold State.ccLook
  simp only [hr, Option.bind_none, List.isEmpty_iff]
  change (match (s.looksUp a q e).2 with | .data b => _ | .storeErr => _ | .miss => _) = _
  rw [ht] <;> rfl

end Free

/-- The fill of one lookup streams where that lookup does (R315). -/
theorem State.startFill_single (s : State) (r tag : Nat) (o : MissOp) (n : Nat) : s.startFill r tag [o] n =
    (s.setMiss r (some { tag := tag, around := false, filling := true, install := decide (s.cache.st = .enabled), stream := o.q.streaming,
                         merged := [o], reply := none, merges := n })).hpPush
      (s.linePort tag) { wr := false, addr := BitVec.ofNat 52 (s.lineAddr tag), len := 1, cls := 2, issuer := .ccFill r, beats := [],
                         dest := 0, off := 0, count := 128 } := by
  unfold State.startFill
  simp

end Sys2Proof.Machine
open Sys2Proof Sys2Proof.Machine

/-- Settles O41, by the cases of a lookup: past the store, a register that holds its line, an answer at once, or a miss. -/
theorem cacheLookup : Obligations.CacheLookup := by
  intro s off q e hawake hend hopen tag o op s0
  refine ⟨yields_ccLookup_beyond hawake hend hopen, fun hin r m hr hm => ⟨fun h8 => ?_, fun h8 => ?_⟩, fun hin hr => ?_⟩
  · exact yields_ccLookup_made hawake hend hopen hin ((State.ccLook_held hr hm).trans (if_pos h8))
  · exact yields_ccLookup_waits hawake hend hopen hin ((State.ccLook_held hr hm).trans (if_neg (Nat.not_lt.mpr h8)))
  intro found t free
  refine ⟨fun ht => ?_, fun ht hfree he => ?_, fun k ht hfree => ?_⟩
  · exact yields_ccLookup_made hawake hend hopen hin (State.ccLook_served hr ht)
  · refine yields_ccLookup_waits hawake hend hopen hin ((State.ccLook_missed hr ht).trans ?_)
    rw [show s.cache.freeMiss q.manager = none from hfree]
    exact if_pos he
  · have hmade := State.ccLook_missed (s := s) (a := off.toNat) (q := q) (e := e) hr ht
    rw [show s.cache.freeMiss q.manager = some k from hfree] at hmade
    refine ⟨fun hstore haround => ?_, fun hfill => ?_⟩
    · refine yields_ccLookup_made hawake hend hopen hin (hmade.trans (congrArg some (if_pos ⟨?_, haround⟩)))
      simpa using hstore
    · refine yields_ccLookup_made hawake hend hopen hin (hmade.trans (congrArg some ((if_neg ?_).trans (State.startFill_single ..))))
      rintro ⟨hstore, haround⟩
      refine hfill.elim (fun h => hstore ?_) fun h => absurd haround (Bool.eq_false_iff.mp h)
      simp [h]
end

section
/-! Key loads and zeroising (R333, R334). -/
namespace Sys2Proof.Machine
open Sys2Proof

/-! ### The slots -/

section Slots
variable {s : State} (hrising : Tab.rising s.keys.slots = true)
include hrising

theorem State.setKey_rising (k : Nat) (v : Option (BitVec 512)) : Tab.rising (s.setKey k v).keys.slots = true :=
  Tab.rising_setD (d := fun _ => none) hrising k v
theorem State.keyLoaded_setKey (k j : Nat) : (s.setKey k none).keyLoaded j = (!decide (j = k) && s.keyLoaded j) := by
  by_cases h : j = k
  · subst h
    rw [decide_eq_true rfl]
    exact congrArg Option.isSome (Tab.getD_setD_self (fun _ => none) hrising j none)
  · rw [decide_eq_false h]
    exact congrArg Option.isSome (Tab.getD_setD_ne (fun _ => none) h none)
/-- The four slots of one owner are EMPTY afterwards, the others as before (R334). -/
theorem State.keyLoaded_zeroiseInst (t j : Nat) : (s.zeroiseInst t).keyLoaded j = (!decide (j / 4 = t) && s.keyLoaded j) := by
  have hfour : decide (j / 4 = t) = (decide (j = 4 * t + 3) || decide (j = 4 * t + 2) || decide (j = 4 * t + 1) || decide (j = 4 * t + 0)) := by
    simp only [← Bool.decide_or]
    exact decide_eq_decide.mpr (by omega)
  have h0 := State.setKey_rising hrising (4 * t + 0) none
  have h1 := State.setKey_rising h0 (4 * t + 1) none
  have h2 := State.setKey_rising h1 (4 * t + 2) none
  change ((((s.setKey (4 * t + 0) none).setKey (4 * t + 1) none).setKey (4 * t + 2) none).setKey (4 * t + 3) none).keyLoaded j = _
  rw [State.keyLoaded_setKey h2, State.keyLoaded_setKey h1, State.keyLoaded_setKey h0, State.keyLoaded_setKey hrising, hfour]
  simp only [Bool.not_or, Bool.and_assoc]

end Slots

/-! ### Writes of KY_CMD -/

section Cmd
variable {s v : State} {a : RpAcc} (hv : s.accepting Reg.KY_CMD a = v)
include hv

/-- What a write of KY_CMD with an OP does while no command is under way. -/
theorem writes_keyCmd {c : Instr} {op : Nat} {f : State → State} (hc : exec c s = done s (s.keyCmd op a f)) (hop : fld a.data 1 0 = op)
    (hidle : bit (v.regAt Reg.KY_RESULT) 31 = false) : Writes c s Reg.KY_CMD a (f v) := by
  subst hv
  exact writes_of hc (if_pos ⟨hop, Bool.eq_false_iff.mp hidle⟩)
theorem writes_keyCmd_busy {c : Instr} {op : Nat} {f : State → State} (hc : exec c s = done s (s.keyCmd op a f))
    (hbusy : bit (v.regAt Reg.KY_RESULT) 31 = true) : Writes c s Reg.KY_CMD a v := by
  subst hv
  exact writes_of hc (if_neg fun h => h.2 hbusy)

end Cmd

/-! ### The end of a load -/

/-- The words of KY_WRAP0 to KY_WRAP17 as an unwrap leaves them. -/
def State.wrapCleared (s : State) : State := (List.range 18).foldl (fun t i => t.setReg (Reg.KY_WRAP + 4 * i) 0) s
theorem State.wrapCleared_ok {b : State} {s : State} (h : s.Ok b) : s.wrapCleared.Ok b :=
  State.foldl_ok _ h fun t _ ht => State.setReg_ok t _ _ ht
theorem State.setRegs_keys (s : State) (l : List Nat) : (l.foldl (fun t i => t.setReg (Reg.KY_WRAP + 4 * i) 0) s).keys = s.keys := by
  induction l generalizing s with
  | nil => rfl
  | cons i l ih => exact ih _
theorem State.setRegs_regAt {s : State} (hc : s.canon = true) (l : List Nat) (i : Nat) :
    (l.foldl (fun t i => t.setReg (Reg.KY_WRAP + 4 * i) 0) s).regAt (Reg.KY_WRAP + 4 * i) =
      if i ∈ l then 0 else s.regAt (Reg.KY_WRAP + 4 * i) := by
  induction l generalizing s with
  | nil => rfl
  | cons j l ih =>
    refine (ih (State.setReg_ok s _ _ (State.ok_self hc)).2).trans ?_
    by_cases hl : i ∈ l
    · simp [hl]
    by_cases hij : i = j
    · subst hij
      simpa [hl] using State.regAt_setReg_self hc (Reg.KY_WRAP + 4 * i) 0
    · simpa [hl, hij] using State.regAt_setReg_ne s (k := Reg.KY_WRAP + 4 * j) (l := Reg.KY_WRAP + 4 * i) (by omega) 0

theorem State.loadEnd_eq (s : State) (r : Nat) : s.loadEnd r =
    ((s.wrapCleared.setReg Reg.KY_RESULT (BitVec.ofNat 32 r)).raise 0xD000 1).modKeys (fun x => { x with load := none }) := rfl
/-- What software reads of a load that has ended: its RESULT without BUSY, and the wrapped words gone. -/
theorem State.loadEnd_regs {s : State} (hc : s.canon = true) (r : Nat) : (s.loadEnd r).regAt Reg.KY_RESULT = BitVec.ofNat 32 r ∧
    ∀ i, i < 18 → (s.loadEnd r).regAt (Reg.KY_WRAP + 4 * i) = 0 := by
  have hw := (State.wrapCleared_ok (State.ok_self hc)).2
  have hzero (i : Nat) (hi : i < 18) : s.wrapCleared.regAt (Reg.KY_WRAP + 4 * i) = 0 :=
    (State.setRegs_regAt hc _ i).trans (if_pos (List.mem_range.mpr hi))
  rw [State.loadEnd_eq]
  generalize s.wrapCleared = u at hw hzero
  have hraise {k : Nat} (hk : k ≠ 0xD010) (v : Word) :
      (((u.setReg Reg.KY_RESULT v).raise 0xD000 1).modKeys (fun x => { x with load := none })).regAt k = (u.setReg Reg.KY_RESULT v).regAt k :=
    State.regAt_modReg_ne (u.setReg Reg.KY_RESULT v) hk (· ||| flag true 1)
  refine ⟨(hraise (by decide) _).trans (State.regAt_setReg_self hw _ _), fun i hi => ?_⟩
  refine (hraise (by simp only [Reg.KY_WRAP]; omega) _).trans ?_
  exact (State.regAt_setReg_ne u (by simp only [Reg.KY_WRAP, Reg.KY_RESULT]; omega) _).trans (hzero i hi)
theorem State.loadEnd_keys (s : State) (r : Nat) : (s.loadEnd r).keys = { s.keys with load := none } := by
  have hw : s.wrapCleared.keys = s.keys := State.setRegs_keys s _
  rw [State.loadEnd_eq, ← hw]
  rfl

/-- The RESULT with which a load ends, and the key that it loads (R333). -/
def State.loadOutcome (s : State) (l : KeyLoad) : Nat × Option (BitVec 512) :=
  if l.refuse ≠ 0 then (l.refuse, none)
  else match s.fuse.kek with
    | some kek => unwrapKey kek l.wrap
    | none => (2, none)
theorem State.loadOutcome_lt (s : State) {l : KeyLoad} (h : l.refuse < 5) : (s.loadOutcome l).1 < 7 := by
  unfold State.loadOutcome
  split
  · exact Nat.lt_trans h (by decide)
  · split
    · unfold unwrapKey
      split
      · decide
      · dsimp only
        split <;> simp
    · decide
/-- The slot has the key that the load gave, if any. -/
def State.keyPut (s : State) (slot : Nat) (v : Option (BitVec 512)) : State := match v with | some v => s.setKey slot (some v) | none => s
theorem State.keyPut_ok {b s : State} (h : s.Ok b) (slot : Nat) (v : Option (BitVec 512)) : (s.keyPut slot v).Ok b := by
  cases v with
  | none => exact h
  | some v => exact State.setKey_ok s slot (some v) h
theorem exec_keyLoadDone {s : State} {l : KeyLoad} (hawake : s.awake = true) (hload : s.keys.load = some l) :
    exec .keyLoadDone s = done s ((s.keyPut l.slot (s.loadOutcome l).2).loadEnd (s.loadOutcome l).1) := by
  change execKeyLoadDone s = _
  unfold execKeyLoadDone State.loadOutcome
  rw [hload, hawake]
  by_cases hr : l.refuse ≠ 0
  · simp only [if_pos hr]
    rfl
  · simp only [if_neg hr]
    cases s.fuse.kek with
    | none => rfl
    | some kek => rfl

theorem settle_keys (s u : State) : (settle s u).keys = u.keys := by
  obtain ⟨g, b, h⟩ := settle_frame s u
  rw [h]
theorem settle_regAt (s u : State) (k : Nat) : (settle s u).regAt k = u.regAt k := by
  obtain ⟨g, b, h⟩ := settle_frame s u
  rw [h]
  rfl

end Sys2Proof.Machine
open Sys2Proof Sys2Proof.Machine

/-- Settles O42: a command of KY_CMD acts where none is under way, and a load ends with the RESULT of `State.loadOutcome`. -/
theorem keyCommands : Obligations.KeyCommands := by
  refine ⟨fun s a => ?_, fun s l hawake hload => ?_⟩
  · intro A u k refuse
    refine ⟨fun hbusy => ?_, fun hidle => ⟨fun hop => ?_, fun hop => ?_, fun hop => ?_⟩⟩
    · exact ⟨writes_keyCmd_busy rfl rfl hbusy, writes_keyCmd_busy rfl rfl hbusy, writes_keyCmd_busy rfl rfl hbusy⟩
    · exact writes_keyCmd (f := State.loadBegin) rfl rfl hop hidle
    · exact writes_keyCmd (f := fun s => s.setKey s.keySel none) rfl rfl hop hidle
    · exact ⟨_, writes_keyCmd (f := fun s => s.zeroiseInst (s.keySel / 4)) rfl rfl hop hidle,
        fun hrising j => State.keyLoaded_zeroiseInst hrising _ j⟩
  · refine ⟨_, exec_keyLoadDone hawake hload, ?_, fun hc hr => ?_⟩
    · rw [settle_keys, State.loadEnd_keys]
    have hput := (State.keyPut_ok (State.ok_self hc) l.slot (s.loadOutcome l).2).2
    obtain ⟨hresult, hwrap⟩ := State.loadEnd_regs hput (s.loadOutcome l).1
    simp only [settle_keys, settle_regAt, State.loadEnd_keys, hresult]
    refine ⟨?_, hwrap, fun hne => ?_, fun kek h0 hkek => ?_⟩
    · have h7 := State.loadOutcome_lt s hr
      generalize (s.loadOutcome l).1 = r at h7
      interval_cases r <;> decide
    · rw [show s.loadOutcome l = (l.refuse, none) from if_pos hne]
      exact ⟨rfl, rfl⟩
    · rw [show s.loadOutcome l = unwrapKey kek l.wrap by unfold State.loadOutcome; rw [if_neg (not_not.mpr h0), hkek]]
      refine ⟨rfl, ?_⟩
      cases (unwrapKey kek l.wrap).2 with
      | none => rfl
      | some v => rfl
end

section
/-! Requests for a seal level (R343, R344). -/
namespace Sys2Proof.Machine
open Sys2Proof

/-- A write that begins an operation on a state with the cache that the write found has the operation's effect, where all its lookups are
answered at once and no other operation of its unit waits (R316). -/
theorem finds_of_begins_on {c : Instr} {s v u : State} {b : Nat} {acc : RpAcc} {eff : Bool → State → State} {h : Held} {cc : CcFault}
    {f : CcFault → State → State} (hexec : exec c s = done s (s.portWrite b acc eff)) (heff : eff false (s.accepting b acc) = v.begins h cc f)
    (hcache : v.cache = s.cache) (hfirst : s.cache.held.any h.after = false) (hu : f cc v = u) : Finds c s b acc u := by
  intro hnone hanswered
  have hfound := State.begins_found (s := v) (h := h) (cc := cc) (f := f) (by rwa [hcache]) (by rwa [hcache]) (by rwa [hu])
  exact writes_of hexec (heff.trans (hfound.trans hu))
/-- A request for a lower level waits for no other operation. -/
theorem Held.after_sealLower (l : Fin 3) (o : List Held) : o.any (Held.sealLower l).after = false := List.any_eq_false.mpr fun _ _ => nofun

/-- A request that is judged by its level: the key, SERVICE or THRIFT, nothing of the seal under way, and a level there is (R343). -/
def State.sealFree (u : State) (a : RpAcc) : Prop :=
  fld a.data 31 16 = 0x5EA1 ∧ u.serving = true ∧ u.keys.sanit = none ∧ u.keys.job = none ∧
    bit (u.regAt Reg.KY_SEAL_STAT) 31 = false ∧ fld a.data 1 0 < 3
/-- The state that a judged request finds: LEVEL of KY_SEAL_STAT names the level asked for. -/
def State.sealAsked (u : State) (a : RpAcc) : State := u.modReg Reg.KY_SEAL_STAT (fun w => putFld w 1 0 (fld a.data 1 0))

section Request
variable {u : State} {a : RpAcc}

/-- A request that is not judged is one that some rule refuses, or of the level 3, which there is not. -/
theorem State.not_sealFree_iff : ¬ u.sealFree a ↔
    (fld a.data 31 16 ≠ 0x5EA1 ∨ ¬ u.serving ∨ u.keys.sanit.isSome ∨ u.keys.job.isSome ∨ bit (u.regAt Reg.KY_SEAL_STAT) 31) ∨
      ¬ fld a.data 1 0 < 3 := by
  unfold State.sealFree
  cases u.keys.sanit <;> cases u.keys.job <;> simp [imp_iff_not_or, or_assoc]

variable {s : State} (hv : s.accepting Reg.KY_SEAL_CMD a = u) {c : Instr} {f : State → Fin 3 → State}
include hv

/-- What a judged request comes to: SAME, or what its command does. -/
theorem sealCmd_judged (hfree : u.sealFree a) (hc : exec c s = done s (s.sealCmd a f)) :
    ∃ eff, exec c s = done s (s.portWrite Reg.KY_SEAL_CMD a eff) ∧ eff false (s.accepting Reg.KY_SEAL_CMD a) =
      if fld a.data 1 0 = u.levelNo then (u.sealAsked a).sealAnswer 2 else f (u.sealAsked a) ⟨fld a.data 1 0, hfree.2.2.2.2.2⟩ := by
  subst hv
  refine ⟨_, hc, ?_⟩
  have hgo := not_or.mp (mt State.not_sealFree_iff.mpr (not_not.mpr hfree))
  exact (if_neg hgo.1).trans (dif_pos (not_not.mp hgo.2))

variable (hc : exec c s = done s (s.sealCmd a f))
include hc

theorem writes_seal_refused (hno : ¬ u.sealFree a) : Writes c s Reg.KY_SEAL_CMD a (u.sealAnswer 1) := by
  subst hv
  refine writes_of hc ?_
  dsimp only
  by_cases hr : fld a.data 31 16 ≠ 0x5EA1 ∨ ¬ (s.accepting Reg.KY_SEAL_CMD a).serving ∨ (s.accepting Reg.KY_SEAL_CMD a).keys.sanit.isSome ∨
      (s.accepting Reg.KY_SEAL_CMD a).keys.job.isSome ∨ bit ((s.accepting Reg.KY_SEAL_CMD a).regAt Reg.KY_SEAL_STAT) 31
  · exact if_pos hr
  · rw [if_neg hr]
    exact dif_neg ((State.not_sealFree_iff.mp hno).resolve_left hr)

theorem writes_seal_same (hfree : u.sealFree a) (hsame : fld a.data 1 0 = u.levelNo) :
    Writes c s Reg.KY_SEAL_CMD a ((u.sealAsked a).sealAnswer 2) := by
  obtain ⟨eff, hexec, heff⟩ := sealCmd_judged hv hfree hc
  exact writes_of hexec (heff.trans (if_pos hsame))
theorem writes_seal_other (hfree : u.sealFree a) (hother : fld a.data 1 0 ≠ u.levelNo) :
    Writes c s Reg.KY_SEAL_CMD a (f (u.sealAsked a) ⟨fld a.data 1 0, hfree.2.2.2.2.2⟩) := by
  obtain ⟨eff, hexec, heff⟩ := sealCmd_judged hv hfree hc
  exact writes_of hexec (heff.trans (if_neg hother))

end Request

/-- A request for a lower level, once judged, is an operation that may have to wait for lines of the cache (R344). -/
theorem finds_sealLower {s u : State} {a : RpAcc} (hv : s.accepting Reg.KY_SEAL_CMD a = u) (hfree : u.sealFree a) (hl : fld a.data 1 0 < 3)
    (hlow : fld a.data 1 0 < u.levelNo) (f : CcFault) (up : Upset) :
    Finds (.sealLower a f up) s Reg.KY_SEAL_CMD a ((u.sealAsked a).sealLower ⟨fld a.data 1 0, hl⟩ up f) := by
  obtain ⟨eff, hexec, heff⟩ := sealCmd_judged (c := .sealLower a f up) hv hfree rfl
  refine finds_of_begins_on hexec (heff.trans ((if_neg (Nat.ne_of_lt hlow)).trans (if_pos hlow))) ?_ (Held.after_sealLower ⟨_, hl⟩ _) rfl
  exact (congrArg State.cache hv.symm).trans (State.accepting_cache s _ a)

end Sys2Proof.Machine
open Sys2Proof Sys2Proof.Machine

/-- Settles O43: a request that is not judged is REFUSED, and one that is judged answers SAME or does what its command's level asks. -/
theorem sealRequests : Obligations.SealRequests := by
  intro s a f up A u l both answer free w
  refine ⟨fun hno => ?_, fun hfree hsame => ?_, fun hl hfree hup => ⟨?_, ?_⟩, fun hl hfree hlow => ⟨?_, fun hgo => ?_, fun hno => ?_⟩⟩
  · exact ⟨writes_seal_refused rfl rfl hno, writes_seal_refused rfl rfl hno⟩
  · exact ⟨writes_seal_same rfl rfl hfree hsame, writes_seal_same rfl rfl hfree hsame⟩
  · have h := writes_seal_other (u := u) (c := .sealRaise a) rfl rfl hfree (Nat.ne_of_gt hup)
    rwa [if_pos (show (u.sealAsked a).levelNo < l from hup)] at h
  · have h := writes_seal_other (u := u) (c := .sealLower a f up) rfl rfl hfree (Nat.ne_of_gt hup)
    rwa [if_neg (show ¬ l < (u.sealAsked a).levelNo from Nat.not_lt.mpr hup.le)] at h
  · have h := writes_seal_other (u := u) (c := .sealRaise a) rfl rfl hfree (Nat.ne_of_lt hlow)
    rwa [if_neg (show ¬ (u.sealAsked a).levelNo < l from Nat.not_lt.mpr hlow.le)] at h
  · have h := finds_sealLower (u := u) rfl hfree hl hlow f up
    rwa [show (u.sealAsked a).sealLower ⟨l, hl⟩ up f = _ from if_pos hgo] at h
  · have h := finds_sealLower (u := u) rfl hfree hl hlow f up
    rwa [show (u.sealAsked a).sealLower ⟨l, hl⟩ up f = _ from if_neg hno] at h
end

section
/-! Fields of a word, read after one of them is written. -/
namespace Sys2Proof.Machine
open Sys2Proof

theorem testBit_fld {n : Nat} (w : BitVec n) (hi lo i : Nat) : (fld w hi lo).testBit i = (decide (i < hi - lo + 1) && w.getLsbD (lo + i)) := by
  rw [fld, Nat.testBit_mod_two_pow, Nat.testBit_shiftRight, BitVec.getLsbD]
theorem getLsbD_putFld (w : Word) (hi lo v : Nat) {i : Nat} (h32 : i < 32) : (putFld w hi lo v).getLsbD i =
    if lo ≤ i ∧ i - lo < hi - lo + 1 then v.testBit (i - lo) else w.getLsbD i := by
  unfold putFld
  simp only [BitVec.getLsbD_or, BitVec.getLsbD_and, BitVec.getLsbD_not, BitVec.getLsbD_ofNat, Nat.testBit_shiftLeft,
    Nat.testBit_two_pow_sub_one, h32, decide_true, Bool.true_and]
  by_cases hlo : lo ≤ i <;> by_cases hhi : i - lo < hi - lo + 1 <;> simp [hlo, hhi]
/-- A field reads as it was written. -/
theorem fld_putFld_self (w : Word) {hi lo : Nat} (hle : lo ≤ hi) (h32 : hi < 32) (v : Nat) :
    fld (putFld w hi lo v) hi lo = v % 2 ^ (hi - lo + 1) := by
  refine Nat.eq_of_testBit_eq fun i => ?_
  rw [testBit_fld, Nat.testBit_mod_two_pow]
  by_cases h : i < hi - lo + 1
  · rw [getLsbD_putFld _ _ _ _ (by omega), if_pos ⟨by omega, by omega⟩, Nat.add_sub_cancel_left]
  · simp [h]
/-- A field reads as before where another is written. -/
theorem fld_putFld_ne (w : Word) {hi lo hi' lo' : Nat} (hle : lo ≤ hi) (h32 : hi < 32) (hle' : lo' ≤ hi') (hne : hi < lo' ∨ hi' < lo)
    (v : Nat) : fld (putFld w hi' lo' v) hi lo = fld w hi lo := by
  refine Nat.eq_of_testBit_eq fun i => ?_
  rw [testBit_fld, testBit_fld]
  by_cases h : i < hi - lo + 1
  · rw [getLsbD_putFld _ _ _ _ (by omega), if_neg (by omega)]
  · simp [h]

end Sys2Proof.Machine
end

section
/-! The erases and the end of a sanitize (R344, R345). -/
namespace Sys2Proof.Machine
open Sys2Proof

/-! ### The next erase of a die -/

/-- What comes of the die's next erase, where the search of its plane-blocks has ended in u with those of o. -/
def State.eraseFound (s u : State) (g die : Nat) (o : Option (List Nat)) : Out :=
  match o with
  | none => looked s u
  | some [] => looked s ((u.sanitCursor die (s.dieBlocks g)).sanitCount die)
  | some (b :: bs) =>
    let units := s.unitsOf (s.costTable g) .erase
    let q := u.ask (s.chargeOf (s.costTable g) .erase (bs.length + 1) 0) units 511 (g / 64) true
    if q.2 = .admitted then
      looked s (((q.1.sanitCursor die ((b :: bs).getLastD b + 1)).count Reg.KY_SAN_ERASES).sanStroke die
        { units := units, blocks := b :: bs, left := b :: bs })
    else looked s q.1

section Erase
variable {s : State} {z : Sanitize} {g : Fin 128} {d : Fin 64} {f : CcFault} (hwork : s.working = true) (hsan : s.keys.sanit = some z)
  (hjob : s.keys.job = none) (hup : s.laneUp g.val = true) (hdie : g.val * 64 + d.val ∈ s.sanitDies g.val) (hfree : s.seqFree g.val d.val = true)
  (hleft : Tab.getD (fun _ => 0) z.cursor (g.val * 64 + d.val) < s.dieBlocks g.val)
  {r : State × Option (List Nat)}
  (hnext : State.sanitNext (g.val * 64 + d.val) f (s.geo g.val).blocks (Tab.getD (fun _ => 0) z.cursor (g.val * 64 + d.val)) s = r)
include hwork hsan hjob hup hdie hfree hleft hnext

theorem exec_sanitizeErase : exec (.sanitizeErase g d f) s = s.eraseFound r.1 g.val (g.val * 64 + d.val) r.2 := by
  change execSanitizeErase g d f s = _
  unfold execSanitizeErase
  simp only [hsan]
  rw [if_pos ⟨hwork, hup, by rw [hjob]; rfl, List.contains_iff_mem.mpr hdie, hfree, hleft⟩, hnext]
  obtain ⟨u, o⟩ := r
  match o with
  | none => rfl
  | some [] => rfl
  | some (b :: bs) =>
    unfold State.eraseFound
    dsimp only
    cases (u.ask (s.chargeOf (s.costTable g.val) .erase (bs.length + 1) 0) (s.unitsOf (s.costTable g.val) .erase) 511 (g.val / 64) true).2 <;> rfl

theorem found_sanitizeErase_unread (hnone : r.2 = none) : Found (.sanitizeErase g d f) s r.1 :=
  found_of_looked ((exec_sanitizeErase hwork hsan hjob hup hdie hfree hleft hnext).trans (congrArg (s.eraseFound r.1 _ _) hnone))
theorem found_sanitizeErase_finished (hnil : r.2 = some []) : Found (.sanitizeErase g d f) s
    ((r.1.sanitCursor (g.val * 64 + d.val) (s.dieBlocks g.val)).sanitCount (g.val * 64 + d.val)) :=
  found_of_looked ((exec_sanitizeErase hwork hsan hjob hup hdie hfree hleft hnext).trans (congrArg (s.eraseFound r.1 _ _) hnil))

section Blocks
variable {b : Nat} {bs : List Nat} (hsome : r.2 = some (b :: bs)) {q : State × Answer}
  (hask : r.1.ask (s.chargeOf (s.costTable g.val) .erase (bs.length + 1) 0) (s.unitsOf (s.costTable g.val) .erase) 511 (g.val / 64) true = q)
include hsome hask

theorem found_sanitizeErase_admitted (hyes : q.2 = .admitted) : Found (.sanitizeErase g d f) s
    (((q.1.sanitCursor (g.val * 64 + d.val) ((b :: bs).getLastD b + 1)).count Reg.KY_SAN_ERASES).sanStroke (g.val * 64 + d.val)
      { units := s.unitsOf (s.costTable g.val) .erase, blocks := b :: bs, left := b :: bs }) := by
  subst hask
  refine found_of_looked ((exec_sanitizeErase hwork hsan hjob hup hdie hfree hleft hnext).trans ?_)
  rw [hsome]
  exact if_pos hyes
theorem found_sanitizeErase_waits (hno : q.2 ≠ .admitted) : Found (.sanitizeErase g d f) s q.1 := by
  subst hask
  refine found_of_looked ((exec_sanitizeErase hwork hsan hjob hup hdie hfree hleft hnext).trans ?_)
  rw [hsome]
  exact if_neg hno

end Blocks

end Erase

/-! ### The end -/

/-- With every die finished and no erase running, the copies are written again with the lower level (R344). -/
theorem exec_sanitizeDone {s : State} {z : Sanitize} (hwork : s.working = true) (hsan : s.keys.sanit = some z) (hjob : s.keys.job = none)
    (hrun : z.running = [])
    (hall : ∀ g ∈ s.laneList, ∀ d ∈ s.sanitDies g, s.dieBlocks (d / 64) ≤ Tab.getD (fun _ => 0) z.cursor d) (up : Upset) :
    exec (.sanitizeDone up) s =
      let w := s.regAt Reg.KY_SAN_PROG
      let u := s.modReg Reg.KY_SAN_SKIP (fun v => satWord (v.toNat + (fld w 13 0 - fld w 29 16)))
      done s ((u.upset up (u.costTable 0)).sealBegin .after z.target z.target s.regionList) := by
  change execSanitizeDone up s = _
  unfold execSanitizeDone
  simp only [hsan]
  refine if_pos ⟨hwork, by rw [hjob]; rfl, by rw [hrun]; rfl, List.all_eq_true.mpr fun d hd => decide_eq_true ?_⟩
  obtain ⟨g, hg, hd⟩ := List.mem_flatMap.mp hd
  exact hall g hg d hd

/-- Latching a level leaves the keys alone. -/
theorem State.latchLevel_frame (s : State) (l : Fin 3) : ∃ r d u p,
    s.latchLevel l = { s with regs := r, draws := d, glb := { s.glb with level := some l, unlock := u, pbOpen := p } } := by
  unfold State.latchLevel
  dsimp only
  split
  · obtain ⟨r, d, u, p, h⟩ := State.expertDrop_frame (s.modGlb (fun g => { g with level := some l }))
    exact ⟨r, d, u, p, h⟩
  · split
    · exact ⟨_, _, s.glb.unlock, s.glb.pbOpen, rfl⟩
    · exact ⟨s.regs, s.draws, s.glb.unlock, s.glb.pbOpen, rfl⟩

/-- The state whose level the end of a sanitize latches: the regions whose copies failed are degraded, and no copy is being written. -/
def State.copiesEnd (s : State) (j : SealJob) : State := (j.failed.foldl (fun t r => t.sealDegrade r 3) s).modKeys (fun k => { k with job := none })
/-- The level is latched and the sanitize over, with SAN_DONE. -/
def State.sanitEnd (s : State) (l : Fin 3) : State := ((s.latchLevel l).modKeys (fun k => { k with sanit := none })).raise 0xD000 3
theorem State.sealEnd_after {u : State} {j : SealJob} (h : j.why = .after) : u.sealEnd j = ((u.copiesEnd j).sanitEnd j.level).sealResult 0 := by
  unfold State.sealEnd
  dsimp only
  rw [h]
  rfl
theorem State.sanitEnd_keys (s : State) (l : Fin 3) : (s.sanitEnd l).keys = { s.keys with sanit := none } := by
  obtain ⟨r, d, u, p, h⟩ := State.latchLevel_frame s l
  rw [State.sanitEnd, h]
  rfl
theorem State.sanitEnd_level (s : State) (l : Fin 3) : (s.sanitEnd l).glb.level = some l := by
  obtain ⟨r, d, u, p, h⟩ := State.latchLevel_frame s l
  rw [State.sanitEnd, h]
  rfl
theorem State.copiesEnd_ok {b s : State} (j : SealJob) (h : s.Ok b) : (s.copiesEnd j).Ok b :=
  State.modKeys_ok _ _ (State.foldl_ok _ h fun t r ht => State.sealDegrade_ok t r 3 ht)
theorem State.sanitEnd_ok {b s : State} (l : Fin 3) (h : s.Ok b) : (s.sanitEnd l).Ok b :=
  State.raise_ok _ _ _ (State.modKeys_ok _ _ (State.latchLevel_ok s l h))
theorem State.sanitEnd_raised {s : State} (hc : s.canon = true) (l : Fin 3) : bit ((s.sanitEnd l).regAt 0xD010) 3 = true :=
  State.bit_orReg_flag (State.modKeys_ok _ _ (State.latchLevel_ok s l (State.ok_self hc))).2 0xD010 (by decide)

theorem State.sealResult_keys (s : State) (r : Nat) : (s.sealResult r).keys = s.keys := rfl
theorem State.sealResult_glb (s : State) (r : Nat) : (s.sealResult r).glb = s.glb := rfl

section Result
variable {s : State} (hc : s.canon = true) (r : Nat)
include hc

/-- RESULT of KY_SEAL_STAT, with BUSY and SANITIZING at 0; the events of its page that were latched stay. -/
theorem State.sealResult_status : (s.sealResult r).regAt Reg.KY_SEAL_STAT = putFld (putFld (s.regAt Reg.KY_SEAL_STAT) 31 30 0) 10 8 r :=
  (State.regAt_modReg_ne (s.modReg Reg.KY_SEAL_STAT _) (k := 0xD010) (by decide) (· ||| flag true 2)).trans (State.regAt_modReg_self hc _ _)
theorem State.sealResult_event {i : Nat} (h : bit (s.regAt 0xD010) i = true) : bit ((s.sealResult r).regAt 0xD010) i = true := by
  have hm := (State.modReg_ok s Reg.KY_SEAL_STAT (fun w => putFld (putFld w 31 30 0) 10 8 r) (State.ok_self hc)).2
  refine State.bit_orReg hm (flag true 2) ?_
  rwa [State.regAt_modReg_ne s (by decide)]

end Result

end Sys2Proof.Machine
open Sys2Proof Sys2Proof.Machine

/-- Settles O44: an erase by what the search of the die's next plane-blocks and the Ledger answer, and the end by what latching leaves
alone. -/
theorem sanitizeRuns : Obligations.SanitizeRuns := by
  intro s z hwork hsan hjob
  refine ⟨fun g d f => ?_, fun up hrun hall => yields_of_done (exec_sanitizeDone hwork hsan hjob hrun hall up), fun u j hwhy => ?_⟩
  · intro die r units hup hdie hfree hleft
    exact ⟨found_sanitizeErase_unread hwork hsan hjob hup hdie hfree hleft rfl,
      found_sanitizeErase_finished hwork hsan hjob hup hdie hfree hleft rfl,
      fun b bs hsome => ⟨found_sanitizeErase_admitted hwork hsan hjob hup hdie hfree hleft rfl hsome rfl,
        found_sanitizeErase_waits hwork hsan hjob hup hdie hfree hleft rfl hsome rfl⟩⟩
  · rw [State.sealEnd_after hwhy]
    intro v
    have hkeys : v.keys = { (u.copiesEnd j).keys with sanit := none } := (State.sealResult_keys _ 0).trans (State.sanitEnd_keys _ _)
    have hlevel : v.glb.level = some j.level := (congrArg Glb.level (State.sealResult_glb _ 0)).trans (State.sanitEnd_level _ _)
    refine ⟨by rw [hkeys], by rw [hkeys]; rfl, hlevel, fun hc => ?_⟩
    have hcopies := (State.copiesEnd_ok j (State.ok_self hc)).2
    have hend := (State.sanitEnd_ok j.level (State.ok_self hcopies)).2
    have hstatus := State.sealResult_status hend 0
    refine ⟨State.sealResult_event hend 0 (State.sanitEnd_raised hcopies _), ?_, ?_⟩
    · exact (congrArg (fld · 10 8) hstatus).trans (fld_putFld_self _ (by decide) (by decide) 0)
    · refine (congrArg (fld · 31 30) hstatus).trans ?_
      exact (fld_putFld_ne _ (by decide) (by decide) (by decide) (by decide) 0).trans (fld_putFld_self _ (by decide) (by decide) 0)
end

section
/-! CREATE, RESET, UNFENCE and DESTROY of a tenant (R383, R384, R93). -/
namespace Sys2Proof.Machine
open Sys2Proof

/-! ### What each command does once it is judged -/

/-- CREATE of a tenant. -/
def State.tnCreate (s : State) (t : Nat) : State := if s.tnState t = .free then (s.setTn t .fenced).tnResult 0 else s.tnResult 2
/-- RESET of a tenant: refused, or an operation that begins. -/
def State.tnReset (s : State) (keep : Bool) (f : CcFault) (t : Nat) : State :=
  if s.tenants.resetOf.isSome then s.tnResult 1
  else if s.tnState t = .free then s.tnResult 2
  else s.begins (.tnReset t keep) f (fun cc u => (u.tnResetBegin t keep cc).tnResult 0)
/-- UNFENCE of a tenant: refused, or an operation that reads its rings. -/
def State.tnUnfence (s : State) (f : CcFault) (t : Nat) : State :=
  if s.tnState t ≠ .fenced then s.tnResult 2 else s.begins (.unfence t) f (fun cc u => u.unfence t cc)
/-- DESTROY of a tenant. -/
def State.tnDestroy (s : State) (t : Nat) : State :=
  if s.tnState t ≠ .fenced then s.tnResult 2
  else if ¬ (s.ringsOf t).isEmpty then s.tnResult 3
  else if s.held t ≠ 0 then s.tnResult 4
  else if (List.range 4).any (fun k => s.keyLoaded (4 * t + k)) then s.tnResult 5
  else (s.destroyed t).tnResult 0

section Destroy
variable {s : State} {t : Nat}

theorem State.tnDestroy_state (h : s.tnState t ≠ .fenced) : s.tnDestroy t = s.tnResult 2 := if_pos h

variable (hst : s.tnState t = .fenced)
include hst

theorem State.tnDestroy_rings (h : s.ringsOf t ≠ []) : s.tnDestroy t = s.tnResult 3 :=
  (if_neg (not_not.mpr hst)).trans (if_pos (mt List.isEmpty_iff.mp h))

variable (hrings : s.ringsOf t = [])
include hrings

theorem State.tnDestroy_noRings : s.tnDestroy t = if s.held t ≠ 0 then s.tnResult 4
    else if (List.range 4).any (fun k => s.keyLoaded (4 * t + k)) then s.tnResult 5 else (s.destroyed t).tnResult 0 :=
  (if_neg (not_not.mpr hst)).trans (if_neg (not_not.mpr (List.isEmpty_iff.mpr hrings)))
theorem State.tnDestroy_slabs (h : s.held t ≠ 0) : s.tnDestroy t = s.tnResult 4 := (State.tnDestroy_noRings hst hrings).trans (if_pos h)

variable (hheld : s.held t = 0)
include hheld

theorem State.tnDestroy_keys {k : Nat} (hk : k < 4) (h : s.keyLoaded (4 * t + k) = true) : s.tnDestroy t = s.tnResult 5 :=
  ((State.tnDestroy_noRings hst hrings).trans (if_neg (not_not.mpr hheld))).trans
    (if_pos (List.any_eq_true.mpr ⟨k, List.mem_range.mpr hk, h⟩))
theorem State.tnDestroy_free (h : ∀ k, k < 4 → s.keyLoaded (4 * t + k) = false) : s.tnDestroy t = (s.destroyed t).tnResult 0 :=
  ((State.tnDestroy_noRings hst hrings).trans (if_neg (not_not.mpr hheld))).trans
    (if_neg fun hany => by
      obtain ⟨k, hk, hkey⟩ := List.any_eq_true.mp hany
      exact absurd hkey (Bool.eq_false_iff.mp (h k (List.mem_range.mp hk))))

end Destroy

/-! ### Writes of TN_CMD -/

/-- The commands of TN_CMD, each with its OP and what it does to the tenant that TN_SEL names. -/
inductive TnCommand (a : RpAcc) (f : CcFault) : Nat → Instr → (State → Nat → State) → Prop
  | create : TnCommand a f 1 (.create a) State.tnCreate
  | tnReset : TnCommand a f 2 (.tnReset a f) (fun s t => s.tnReset (bit a.data 8) f t)
  | unfence : TnCommand a f 3 (.unfence a f) (fun s t => s.tnUnfence f t)
  | destroy : TnCommand a f 4 (.destroy a) State.tnDestroy
theorem TnCommand.exec_eq {a : RpAcc} {f : CcFault} {op : Nat} {c : Instr} {g : State → Nat → State} (h : TnCommand a f op c g) (s : State) :
    exec c s = done s (s.tnCmd op a g) := by cases h <;> rfl

section Tn
variable {s u : State} {a : RpAcc} {f : CcFault} {op t : Nat} {c : Instr} {g : State → Nat → State}

/-- A write of TN_CMD that no rule of R383 and R93 keeps from acting has its command's effect. -/
structure State.TnJudged (u : State) (a : RpAcc) (op t : Nat) : Prop where
  op : fld a.data 2 0 = op
  sel : fld (u.regAt Reg.TN_SEL) 8 0 = t
  mode : u.glb.mode ≠ .fallback
  idle : bit (u.regAt Reg.TN_STAT) 31 = false

variable (hu : s.accepting Reg.TN_CMD a = u)
include hu

theorem writes_tn_none (hc : TnCommand a f op c g) (h : u.glb.mode = .fallback ∨ bit (u.regAt Reg.TN_STAT) 31 = true) : Writes c s Reg.TN_CMD a u := by
  subst hu
  exact writes_of (hc.exec_eq s) (if_pos (.inr h))

variable (hj : u.TnJudged a op t)
include hj

/-- What the judged write comes to. -/
theorem tnCmd_judged (hc : TnCommand a f op c g) : ∃ eff, exec c s = done s (s.portWrite Reg.TN_CMD a eff) ∧
    eff false (s.accepting Reg.TN_CMD a) = if t = 511 then u.tnResult 2 else if u.tnState t = .resetting then u.tnResult 1 else g u t := by
  obtain ⟨hop, hsel, hmode, hidle⟩ := hj
  subst hu hsel
  exact ⟨_, hc.exec_eq s, if_neg fun h => h.elim (· hop) fun h => h.elim hmode (Bool.eq_false_iff.mp hidle)⟩
variable (hc : TnCommand a f op c g)
include hc

theorem writes_tn_manager (h : t = 511) : Writes c s Reg.TN_CMD a (u.tnResult 2) := by
  obtain ⟨eff, hexec, heff⟩ := tnCmd_judged hu hj hc
  exact writes_of hexec (heff.trans (if_pos h))
theorem writes_tn_resetting (h : t ≠ 511) (hst : u.tnState t = .resetting) : Writes c s Reg.TN_CMD a (u.tnResult 1) := by
  obtain ⟨eff, hexec, heff⟩ := tnCmd_judged hu hj hc
  exact writes_of hexec (heff.trans ((if_neg h).trans (if_pos hst)))

variable (ht : t ≠ 511) (hst : u.tnState t ≠ .resetting) {v : State}
include ht hst

theorem writes_tn (hv : g u t = v) : Writes c s Reg.TN_CMD a v := by
  obtain ⟨eff, hexec, heff⟩ := tnCmd_judged hu hj hc
  exact writes_of hexec (heff.trans ((if_neg ht).trans ((if_neg hst).trans hv)))
/-- A command that begins an operation, which waits for no other. -/
theorem finds_tn {h : Held} {k : CcFault → State → State} (hg : g u t = u.begins h f k) (hfirst : s.cache.held.any h.after = false)
    (hv : k f u = v) : Finds c s Reg.TN_CMD a v := by
  obtain ⟨eff, hexec, heff⟩ := tnCmd_judged hu hj hc
  refine finds_of_begins_on hexec (heff.trans ((if_neg ht).trans ((if_neg hst).trans hg))) ?_ hfirst hv
  rw [← hu, State.accepting_cache]

end Tn

theorem Held.after_tnReset (t : Nat) (keep : Bool) (l : List Held) : l.any (Held.tnReset t keep).after = false :=
  List.any_eq_false.mpr fun _ _ => nofun
theorem Held.after_unfence (t : Nat) (l : List Held) : l.any (Held.unfence t).after = false := List.any_eq_false.mpr fun _ _ => nofun

end Sys2Proof.Machine
open Sys2Proof Sys2Proof.Machine

/-- Settles O45: what refuses all four commands is shown of each in turn, and then what each command does to the tenant's state. -/
theorem instanceCommands : Obligations.InstanceCommands := by
  intro s a f A u t op ends each busy
  have judged {n : Nat} (hop : op = n) (hmode : u.glb.mode ≠ .fallback) (hidle : busy = false) : u.TnJudged a n t := ⟨hop, rfl, hmode, hidle⟩
  have all {v : State} (h : ∀ {n c g}, TnCommand a f n c g → op = n → Writes c s A a v) : each v :=
    ⟨h .create, h .tnReset, h .unfence, h .destroy⟩
  refine ⟨fun h => all fun hc _ => writes_tn_none rfl hc h, fun hmode hidle h => all fun hc hop => ?_, fun hmode hidle h hst => all fun hc hop => ?_,
    fun hmode hidle h hst => ?_⟩
  · exact writes_tn_manager rfl (judged hop hmode hidle) hc h
  · exact writes_tn_resetting rfl (judged hop hmode hidle) hc h hst
  have ends_of {n : Nat} {c : Instr} {g : State → Nat → State} {v : State} (hc : TnCommand a f n c g) (hop : op = n) (hv : g u t = v) :
      Writes c s A a v := writes_tn rfl (judged hop hmode hidle) hc h hst hv
  refine ⟨fun hop => ⟨fun hfree => ?_, fun hno => ?_⟩, fun hop => ⟨fun hof => ?_, fun hof hfree => ?_, fun hof hno => ?_⟩,
    fun hop => ⟨fun hno => ?_, fun hfenced hany => ?_, fun hfenced hnone => ?_⟩,
    fun hop => ⟨fun hno => ?_, fun hfenced hrings => ?_, fun hfenced hrings hheld => ?_, fun hfenced hrings hheld ⟨k, hk, hkey⟩ => ?_,
      fun hfenced hrings hheld hkeys => ?_⟩⟩
  · exact ends_of .create hop (if_pos hfree)
  · exact ends_of .create hop (if_neg hno)
  · exact ends_of .tnReset hop (if_pos hof)
  · exact ends_of .tnReset hop ((if_neg (by rw [hof]; decide)).trans (if_pos hfree))
  · exact finds_tn rfl (judged hop hmode hidle) .tnReset h hst ((if_neg (by rw [hof]; decide)).trans (if_neg hno)) (Held.after_tnReset _ _ _) rfl
  · exact ends_of .unfence hop (if_pos hno)
  · exact finds_tn rfl (judged hop hmode hidle) .unfence h hst (if_neg (not_not.mpr hfenced)) (Held.after_unfence _ _) (if_pos hany)
  · exact finds_tn rfl (judged hop hmode hidle) .unfence h hst (if_neg (not_not.mpr hfenced)) (Held.after_unfence _ _)
      (if_neg (Bool.eq_false_iff.mp hnone))
  · exact ends_of .destroy hop (State.tnDestroy_state hno)
  · exact ends_of .destroy hop (State.tnDestroy_rings hfenced hrings)
  · exact ends_of .destroy hop (State.tnDestroy_slabs hfenced hrings hheld)
  · exact ends_of .destroy hop (State.tnDestroy_keys hfenced hrings hheld hk hkey)
  · exact ends_of .destroy hop (State.tnDestroy_free hfenced hrings hheld hkeys)
end

section
/-! A final record dropped whose record renumbers the captures of its cycle (R109, R390, R391, R421), wherever the state lists them. -/
namespace Sys2Proof.Machine
open Sys2Proof

/-- A state in SERVICE with tenant 7 under reset, KEEP_KEYS set, no command of it held, no ring and no event ring. The Blotter has queued a
record of class 0x28 in this cycle, which comes after one of class 0x27 (R421), and lists as captured in this cycle a page whose ERR_CAPT0
would be TN_RST_STAT; with one record more counted there, its low half is the number 0x01FF of the queued record. Every table is canonical;
no step of the block lists such a page. -/
def captureOnStatus : State :=
  { State.reset with
    build := { lanes := 128, patch := 0, idcode := 1 }
    fuse := { State.reset.fuse with request := false, done := true }
    glb := { Glb.init with mode := .service, owner := some 1 }
    regs := [(Reg.TN_RST_STAT, 0xFF)]
    tenants := { State.reset.tenants with st := [(7, .resetting)], resetOf := some 7, keepKeys := true }
    blotter := { State.reset.blotter with seq := 0x200, queue := [[0, 0x28]], fresh := [Reg.TN_RST_STAT - 0x20], cycle := 1 } }

theorem captureOnStatus_resetting : captureOnStatus.canon = true ∧ captureOnStatus.working = true ∧ captureOnStatus.cmdsFor 7 = [] ∧
    (captureOnStatus.ringsOf 7).any captureOnStatus.ringWaits = false ∧ bit (captureOnStatus.tnCpl 511) 31 = false := by decide +kernel
/-- The record of the dropped one gives the capture, which is TN_RST_STAT, the next number: its count of records reads 2 then. -/
theorem captureOnStatus_counted : fld (captureOnStatus.regAt Reg.TN_RST_STAT) 15 8 = 0 ∧
    fld ((captureOnStatus.dropRecord 0xFFFF).resetEnd.regAt Reg.TN_RST_STAT) 15 8 = 2 := by decide +kernel

end Sys2Proof.Machine

open Sys2Proof Sys2Proof.Machine

/-- Refutes O46: it has the count of TN_RST_STAT one more once the final record is dropped, and `captureOnStatus` is a state where the
record of that drop renumbers TN_RST_STAT as a capture of its cycle, so that the count is two more. -/
theorem not_resetEnds : ¬ Obligations.ResetEnds := by
  unfold Obligations.ResetEnds
  rintro ⟨h, -⟩
  obtain ⟨hcanon, hwork, hcmds, hrings, hcpl⟩ := captureOnStatus_resetting
  obtain ⟨-, hdrop, -⟩ := h captureOnStatus 7 .clean hwork rfl
  obtain ⟨-, -, -, -, hregs, -⟩ := hdrop (not_or.mpr ⟨not_not.mpr hcmds, Bool.eq_false_iff.mp hrings⟩) rfl hcpl
  obtain ⟨-, -, hcount⟩ := hregs hcanon
  obtain ⟨hbefore, hafter⟩ := captureOnStatus_counted
  rw [hbefore] at hcount
  exact absurd (hafter.symm.trans hcount) (by decide)
end

section
/-! Refills of the Energy Ledger and the limits of its tenants (R397, R217). -/
namespace Sys2Proof.Machine
open Sys2Proof

/-! ### Tables that list what is not 0 -/

/-- The entry of a table that comes first is read at its key, and the others elsewhere. -/
theorem Tab.getD_cons {α : Type} (d : Nat → α) (j : Nat) (v : α) (t : Tab α) (k : Nat) :
    Tab.getD d ((j, v) :: t) k = if k = j then v else Tab.getD d t k :=
  apply_ite (Option.getD · (d k)) (k = j) (some v) (Tab.find? t k)
/-- A table that lists a number for each of some keys, but perhaps not where it is 0, reads as those numbers. -/
theorem Tab.getD_filterMap_keys {f : Nat → Nat} {g : Nat → Option (Nat × Nat)} (hg : ∀ i, g i = some (i, f i) ∨ g i = none ∧ f i = 0)
    (l : List Nat) (k : Nat) : Tab.getD (fun _ => 0) (l.filterMap g) k = if k ∈ l then f k else 0 := by
  induction l with
  | nil => rfl
  | cons i l ih =>
    rcases hg i with hi | ⟨hi, h0⟩
    · rw [List.filterMap_cons_some hi, Tab.getD_cons, ih]
      by_cases hk : k = i <;> simp [hk]
    · rw [List.filterMap_cons_none hi, ih]
      by_cases hk : k = i <;> simp [hk, h0]
/-- A table of rising keys whose numbers are each changed, and perhaps dropped where that gives 0, reads as the changed numbers. -/
theorem Tab.getD_filterMap_vals {f : Nat → Nat → Nat} (hf : ∀ k, f k 0 = 0) {g : Nat × Nat → Option (Nat × Nat)}
    (hg : ∀ j v, g (j, v) = some (j, f j v) ∨ g (j, v) = none ∧ f j v = 0) {t : Tab Nat} (hr : Tab.rising t = true) (k : Nat) :
    Tab.getD (fun _ => 0) (t.filterMap g) k = f k (Tab.getD (fun _ => 0) t k) := by
  induction t with
  | nil => exact (hf k).symm
  | cons e t ih =>
    obtain ⟨j, v⟩ := e
    have hlow : Tab.getD (fun _ => 0) t j = 0 := by rw [Tab.getD, Tab.find?_of_above hr (Nat.le_refl j)]; rfl
    have ht := ih (Tab.rising_of_above hr)
    rw [Tab.getD_cons]
    rcases hg j v with hj | ⟨hj, h0⟩
    · rw [List.filterMap_cons_some hj, Tab.getD_cons, ht]
      by_cases hk : k = j <;> simp [hk]
    · rw [List.filterMap_cons_none hj, ht]
      by_cases hk : k = j
      · rw [if_pos hk, hk, hlow, hf, h0]
      · rw [if_neg hk]

/-! ### The lanes that wait for a refill (R217) -/

/-- A lane whose commands wait for no refill. -/
def Lane.refilled (l : Lane) : Lane := { l with blockWait := false, tenantWait := [] }
theorem Lane.refilled_of_none {l : Lane} (h : (l.blockWait || !l.tenantWait.isEmpty) = false) : l.refilled = l := by
  obtain ⟨hblock, htenant⟩ := Bool.or_eq_false_iff.mp h
  rw [Lane.refilled, ← hblock, ← List.isEmpty_iff.mp (by simpa using htenant)]

/-- The waits for a refill end on lanes alone. -/
theorem State.refillRoom_frame (s : State) : ∃ l, s.refillRoom = { s with lanes := l } := by
  unfold State.refillRoom
  generalize s.lanes.filter _ = waiting
  induction waiting generalizing s with
  | nil => exact ⟨s.lanes, rfl⟩
  | cons e waiting ih =>
    obtain ⟨l, hl⟩ := ih (s.modLane e.1 Lane.refilled)
    exact ⟨l, hl⟩
theorem State.foldl_refilled {s : State} (hc : s.canon = true) (l : List (Nat × Lane)) {g : Nat}
    (h : (∃ e ∈ l, e.1 = g) ∨ (s.lane g).refilled = s.lane g) :
    (l.foldl (fun t e => t.modLane e.1 Lane.refilled) s).lane g = (s.lane g).refilled := by
  induction l generalizing s with
  | nil => simpa [eq_comm] using h
  | cons e l ih =>
    have hc' := (State.modLane_ok s e.1 Lane.refilled (State.ok_self hc)).2
    by_cases he : g = e.1
    · subst he
      have hself := State.lane_self hc e.1 Lane.refilled
      exact (ih hc' (.inr (by rw [hself]; rfl))).trans (by rw [hself]; rfl)
    · have hne := State.lane_ne s he Lane.refilled
      refine (ih hc' ?_).trans (by rw [hne])
      rw [hne]
      simpa [Ne.symm he] using h
/-- After a refill no lane waits for it; one that waits for the media waits on. -/
theorem State.refillRoom_lane {s : State} (hc : s.canon = true) (g : Nat) : s.refillRoom.lane g = (s.lane g).refilled := by
  refine State.foldl_refilled hc _ ?_
  cases hwait : (s.lane g).blockWait || !(s.lane g).tenantWait.isEmpty with
  | false => exact .inr (Lane.refilled_of_none hwait)
  | true =>
    cases hfind : Tab.find? s.lanes g with
    | none => exact .inr (by rw [State.lane, Tab.getD, hfind]; rfl)
    | some l =>
      have hlane : s.lane g = l := by rw [State.lane, Tab.getD, hfind]; rfl
      exact .inl ⟨(g, l), List.mem_filter.mpr ⟨Tab.mem_of_find? hfind, hlane ▸ hwait⟩, rfl⟩

/-! ### The accounts at a refill (R397) -/

/-- The operating credit of a refill's period. -/
def State.operating (s : State) : Nat :=
  (max 0 ((s.effAllowance : Int) - (fld (s.regAt Reg.LG_PERIOD) 15 0 : Nat)) * (atLeast1 (fld (s.regAt Reg.LG_PERIOD) 23 16) : Nat)).toNat
theorem State.refill_lim (s : State) {i : Nat} (hi : i < 511) : s.refill.limOf i = s.share i * s.operating / 1024 := by
  unfold State.refill State.limOf
  dsimp only [State.modLedger]
  rw [Tab.getD_filterMap_keys (f := fun i => s.share i * s.operating / 1024) fun i => ?_, if_pos (List.mem_range.mpr hi)]
  split
  next h => exact .inr ⟨rfl, h⟩
  next => exact .inl rfl
/-- What a use comes to at a refill: less the limit, and the Manager's as it was. -/
theorem State.refill_use {s : State} (hr : Tab.rising s.ledger.use = true) (i : Nat) :
    s.refill.useOf i = if i = 511 then s.useOf i else s.useOf i - s.refill.limOf i := by
  unfold State.refill State.useOf State.limOf
  dsimp only [State.modLedger]
  generalize (List.range 511).filterMap _ = lims
  refine Tab.getD_filterMap_vals (f := fun j v => if j = 511 then v else v - Tab.getD (fun _ => 0) lims j) (fun k => ?_) (fun j v => ?_) hr i
  · simp
  · by_cases hj : j = 511
    · simp [hj]
    · by_cases hv : v - Tab.getD (fun _ => 0) lims j = 0 <;> simp [hj, hv]
/-- The credit and the reserve that a refill leaves. -/
theorem State.refill_accounts (s : State) : s.refill.ledger.lastRate = s.operating ∧
    (let w := s.regAt Reg.LG_PERIOD
     let a : Int := (s.effAllowance : Nat)
     let standing : Int := (fld w 15 0 : Nat)
     let period : Int := (atLeast1 (fld w 23 16) : Nat)
     let banked := min s.resMax (s.ledger.reserve + max 0 s.ledger.credit)
     s.refill.ledger.credit = max 0 ((a - standing) * period) ∧
     s.refill.ledger.reserve = max (if a < standing then banked + (a - standing) * period else banked) (-s.resMax)) := by
  unfold State.refill
  dsimp only [State.modLedger]
  refine ⟨rfl, rfl, ?_⟩
  have hperiod : 0 < ((atLeast1 (fld (s.regAt Reg.LG_PERIOD) 23 16) : Nat) : Int) := by
    unfold atLeast1
    split <;> omega
  have hsign (a : Int) : a * ((atLeast1 (fld (s.regAt Reg.LG_PERIOD) 23 16) : Nat) : Int) < 0 ↔ a < 0 := by
    rw [← not_le, ← not_le, mul_nonneg_iff_of_pos_right hperiod]
  simp only [hsign, sub_neg]

theorem State.refill_frame (s : State) : ∃ l, s.refill = { s with ledger := l } := by
  unfold State.refill State.modLedger
  exact ⟨_, rfl⟩

/-- A refill is the accounts', and then the waits for it end. -/
theorem exec_ledgerRefill {s : State} (hwork : s.working = true) : exec (.ledgerRefill .none) s = done s s.refill.refillRoom := if_pos hwork

/-! ### The limit of a tenant between refills (R397) -/

/-- The limit of a tenant follows its share, from the operating credit of the last refill. -/
def State.shareLimit (s : State) (t : Nat) : State :=
  s.modLedger (fun l => { l with lim := Tab.setD (fun _ => 0) l.lim t (s.share t * l.lastRate / 1024) })
theorem State.shareLimit_lim {s : State} (hr : Tab.rising s.ledger.lim = true) (t i : Nat) :
    (s.shareLimit t).limOf i = if i = t then s.share t * s.ledger.lastRate / 1024 else s.limOf i := by
  by_cases hi : i = t
  · rw [if_pos hi, hi]
    exact Tab.getD_setD_self _ hr _ _
  · rw [if_neg hi]
    exact Tab.getD_setD_ne _ hi _
theorem writes_shareWrite {s v : State} {a : RpAcc} (hv : s.accepting Reg.LG_TN_SHARE a = v) : Writes (.shareWrite a) s Reg.LG_TN_SHARE a
    (if fld (v.regAt Reg.LG_TN_SEL) 8 0 = 511 then v
     else (v.writeRow Reg.LG_TN_SHARE false a.data).shareLimit (fld (v.regAt Reg.LG_TN_SEL) 8 0)) := by
  subst hv
  exact writes_of rfl rfl

end Sys2Proof.Machine
open Sys2Proof Sys2Proof.Machine

/-- Settles O51: the accounts and the limits by what a refill computes, the lanes by `State.refillRoom_lane`. -/
theorem ledgerRefills : Obligations.LedgerRefills := by
  refine ⟨fun s hwork => ?_, fun s a => ?_⟩
  · intro w a standing period oper banked
    obtain ⟨hrate, hcredit, hreserve⟩ := State.refill_accounts s
    obtain ⟨l, hledger⟩ := State.refill_frame s
    obtain ⟨m, hlanes⟩ := State.refillRoom_frame s.refill
    have hsame : s.refill.refillRoom.ledger = s.refill.ledger := by rw [hlanes]
    refine ⟨_, yields_of_done (exec_ledgerRefill hwork), ?_⟩
    simp only [State.limOf, State.useOf, hsame]
    refine ⟨hcredit, hreserve, hrate, fun i hi => State.refill_lim s hi, fun hr => ⟨?_, fun i hi => ?_⟩, fun hc g => ?_, ?_, ?_⟩
    · exact (State.refill_use hr 511).trans (if_pos rfl)
    · exact (State.refill_use hr i).trans (if_neg hi.ne)
    · rw [State.refillRoom_lane (State.refill_ok s (State.ok_self hc)).2, show s.refill.lane g = s.lane g by rw [hledger]; rfl]
      exact ⟨rfl, rfl, rfl⟩
    · rw [hlanes, hledger]
    · rw [hlanes, hledger]
  · intro u t w
    have hwrites := writes_shareWrite (s := s) (a := a) (v := u) rfl
    obtain ⟨r, hw⟩ := State.writeRow_frame u Reg.LG_TN_SHARE false a.data
    have hledger : w.ledger = u.ledger := (congrArg State.ledger hw :)
    refine ⟨fun ht => ?_, fun ht => ⟨w.shareLimit t, ?_, ?_⟩⟩
    · rwa [if_pos ht] at hwrites
    · rwa [if_neg ht] at hwrites
    · refine ⟨rfl, (congrArg Ledger.use hledger :), fun hr => ?_⟩
      have hlim := State.shareLimit_lim (s := w) (hledger ▸ hr) t
      refine ⟨?_, fun i hi => ?_⟩
      · exact ((hlim t).trans (if_pos rfl)).trans (by rw [hledger])
      · exact ((hlim i).trans (if_neg hi)).trans (by rw [State.limOf, hledger]; rfl)
end

section
/-! The perturbation area's opening, seed and slots (R433 to R435). -/
namespace Sys2Proof.Machine
open Sys2Proof

/-! ### PB_CTL and PB_SEED -/

section Area
variable {s u : State} {a : RpAcc}

theorem writes_pbOpen (hu : s.accepting Reg.PB_CTL a = u) (hkey : fld a.data 31 16 = 0x7E57) (hexpert : u.expertActive 0xF000 = true)
    (hlevel : u.levelLow = true) (hclosed : u.glb.pbOpen = false) : Writes (.pbOpen a) s Reg.PB_CTL a
      (({ u with glb := { u.glb with pbOpen := true } } : State).blot 0xF000 0x2B none [a.id.setWidth 32]) := by
  subst hu
  exact writes_of rfl (if_pos ⟨hkey, hexpert, hlevel, Bool.eq_false_iff.mp hclosed⟩)
theorem writes_pbClose (hu : s.accepting Reg.PB_CTL a = u) (hkey : fld a.data 31 16 = 0) (hopen : u.glb.pbOpen = true) :
    Writes (.pbClose a) s Reg.PB_CTL a u.pbClose := by
  subst hu
  exact writes_of rfl (if_pos ⟨hkey, hopen⟩)
/-- The generator of every armed slot is seeded. -/
def State.seeded (w : State) : State := ((w.regs.filter (fun e => isPxCtl e.1 && bit e.2 0)).map Prod.fst).foldl State.pxReseed w
theorem writes_pbSeed (hu : s.accepting Reg.PB_SEED a = u) :
    Writes (.pbSeedWrite a) s Reg.PB_SEED a (u.writeRow Reg.PB_SEED false a.data).seeded := by
  subst hu
  exact writes_of rfl rfl

end Area

/-! ### PX_CTL of a slot -/

/-- The address of PX_CTL of a page's slot. -/
def slotA (p : Fin 2048) (k : Fin 4) : Nat := 0x1000 * p.val + 0xF00 + 8 * k.val
/-- What a write of a slot's PX_CTL does on a page that supports perturbation. -/
def State.slotWrite (u : State) (ad : Nat) (data : Word) : State :=
  if ¬ u.glb.pbOpen then u.pxDrop
  else
    let w := u.writeRow ad false data
    if ¬ bit data 0 then w
    else if pxRow (pageKind ad) (fld data 12 8) (fld data 7 4) ∧ u.kindAllowed (fld data 7 4) then
      (if bit (u.regAt ad) 0 then w else w.pxReseed ad)
    else (w.modReg ad (fun v => v &&& 0xFFFFFFFE#32)).pxDrop
theorem writes_slot {s u v : State} {a : RpAcc} {p : Fin 2048} {k : Fin 4} (hu : s.accepting (slotA p k) a = u)
    (h : hasPerturb (pageKind (slotA p k)) = true) (hv : u.slotWrite (slotA p k) a.data = v) :
    Writes (.pxCtlWrite p k a) s (slotA p k) a v := by
  subst hu
  refine writes_of rfl (Eq.trans ?_ hv)
  unfold State.slotWrite
  change (match pageKind (slotA p k) with | .doorbell _ | .vector _ | .window | .reserved => _ | q => _) = _
  generalize pageKind (slotA p k) = q at h ⊢
  cases q with
  | doorbell _ | vector _ | window | reserved => exact absurd h Bool.false_ne_true
  | single _ | cluster _ | lane _ | channel _ | decoder _ | region _ =>
    simp only [h, not_true_eq_false, if_false] <;> rfl

/-- The rows of R435 and the level allow a slot's arming (R434). -/
theorem State.kindAllowed_iff (u : State) (kind : Nat) : u.kindAllowed kind = true ↔ kind < 8 ∨ u.glb.level = some 0 := by
  rw [State.kindAllowed, Bool.or_eq_true, decide_eq_true_eq, decide_eq_true_eq]

section Slot
variable {u : State} {ad : Nat} {data : Word}

theorem State.slotWrite_closed (hclosed : u.glb.pbOpen = false) : u.slotWrite ad data = u.pxDrop :=
  if_pos (Bool.eq_false_iff.mp hclosed)

variable (hopen : u.glb.pbOpen = true)
include hopen

theorem State.slotWrite_disarm (hen : bit data 0 = false) : u.slotWrite ad data = u.writeRow ad false data :=
  (if_neg (not_not.mpr hopen)).trans (if_pos (Bool.eq_false_iff.mp hen))

variable (hen : bit data 0 = true)
include hen

theorem State.slotWrite_arms (hrow : pxRow (pageKind ad) (fld data 12 8) (fld data 7 4) = true ∧ (fld data 7 4 < 8 ∨ u.glb.level = some 0)) :
    u.slotWrite ad data = if bit (u.regAt ad) 0 then u.writeRow ad false data else (u.writeRow ad false data).pxReseed ad :=
  (if_neg (not_not.mpr hopen)).trans
    ((if_neg (not_not.mpr hen)).trans (if_pos ⟨hrow.1, (State.kindAllowed_iff u _).mpr hrow.2⟩))
theorem State.slotWrite_refused
    (hrow : ¬ (pxRow (pageKind ad) (fld data 12 8) (fld data 7 4) = true ∧ (fld data 7 4 < 8 ∨ u.glb.level = some 0))) :
    u.slotWrite ad data = ((u.writeRow ad false data).modReg ad (fun v => v &&& 0xFFFFFFFE#32)).pxDrop :=
  (if_neg (not_not.mpr hopen)).trans
    ((if_neg (not_not.mpr hen)).trans (if_neg fun ⟨hpoint, hkind⟩ => hrow ⟨hpoint, (State.kindAllowed_iff u _).mp hkind⟩))

end Slot

end Sys2Proof.Machine
open Sys2Proof Sys2Proof.Machine

/-- Settles O24: on a page that supports perturbation a write of PX_CTL is `State.slotWrite`, by whether the area is open and the slot may
arm. -/
theorem perturbationArea : Obligations.PerturbationArea := by
  intro s a
  refine ⟨⟨fun hkey hexpert hlevel hclosed => writes_pbOpen rfl hkey hexpert hlevel hclosed, fun hkey hopen => writes_pbClose rfl hkey hopen⟩,
    writes_pbSeed rfl, fun p k => ?_⟩
  intro ad u w row hpage
  refine ⟨fun hclosed => ?_, fun hopen hen => ?_, fun hopen hen hrow hwas => ?_, fun hopen hen hrow hwas => ?_, fun hopen hen hrow => ?_⟩
  · exact writes_slot rfl hpage (State.slotWrite_closed hclosed)
  · exact writes_slot rfl hpage (State.slotWrite_disarm hopen hen)
  · exact writes_slot rfl hpage ((State.slotWrite_arms hopen hen hrow).trans (if_neg (Bool.eq_false_iff.mp hwas)))
  · exact writes_slot rfl hpage ((State.slotWrite_arms hopen hen hrow).trans (if_pos hwas))
  · exact writes_slot rfl hpage (State.slotWrite_refused hopen hen hrow)
end

section
/-! Loss and reload of the Scribe (R428, R431, R432). -/
namespace Sys2Proof.Machine
open Sys2Proof

/-- Out of OPENING, a watchdog at its limit loses the Scribe. -/
theorem exec_watchdogExpiry {s : State} (hdue : s.watchdogDue = true) (hopen : s.glb.mode ≠ .opening) :
    exec .watchdogExpiry s = looked s (s.loseScribe 1) :=
  (if_pos hdue).trans (congrArg (looked s) (if_neg fun h => hopen h.1))

/-! ### Writes of GLB_SCR_CTL (R431) -/

section Ctl
variable {s u : State} {a : RpAcc} (hu : s.accepting Reg.GLB_SCR_CTL a = u)
include hu

theorem writes_arm (harm : bit a.data 0 = true) (hgo : bit a.data 1 = false) : Writes (.arm a) s Reg.GLB_SCR_CTL a
    (if u.scribe.state = .lost then { u with glb := { u.glb with scrArmed := true } } else u) := by
  subst hu
  refine writes_of rfl ((if_pos harm).trans ?_)
  simp only [State.scrCtl, harm, hgo, true_and, false_and, Bool.false_eq_true, if_false]
  rfl
theorem writes_scribeReloadGo (hgo : bit a.data 1 = true) (harm : bit a.data 0 = false) : Writes (.scribeReloadGo a) s Reg.GLB_SCR_CTL a
    (if u.glb.scrArmed = true then
      { u with glb := { u.glb with scrArmed := false, measureBusy := true }
               scribe := { u.scribe with state := .reloading, goAt := u.time.toNat } }
     else u) := by
  subst hu
  refine writes_of rfl ((if_pos hgo).trans ?_)
  simp only [State.scrCtl, harm, hgo, true_and, false_and, Bool.false_eq_true, if_false]
  rfl

end Ctl

/-! ### The end of a reload (R432) -/

section Reload
variable {s : State} {e n : Bool} (hawake : s.awake = true) (hopen : s.glb.mode ≠ .opening) (hstart : s.scribe.state = .starting)

theorem State.readyInTime_iff (s : State) : s.readyInTime = true ↔ s.scribe.ready = true ∧ s.scribe.kick ≤ s.scribe.goAt + 1000000 := by
  rw [State.readyInTime, Bool.and_eq_true, decide_eq_true_eq]

include hawake hopen hstart

theorem exec_scribeReload : exec (.scribeReload e n) s =
    if s.readyInTime then
      done s (({ s with scribe := { s.scribe with state := .running, kick := s.time.toNat } } : State).reloadEnd 1).passResets
    else if e then done s (({ s with scribe := { s.scribe with state := .lost } } : State).reloadEnd 5)
    else if (n ∨ s.scribe.ready) ∧ 1000000 < s.since s.scribe.goAt then
      done s (({ s with scribe := { s.scribe with state := .lost } } : State).reloadEnd 4)
    else idle s := if_pos ⟨hawake, hopen, hstart⟩
theorem exec_scribeReload_ready (hintime : s.scribe.ready = true ∧ s.scribe.kick ≤ s.scribe.goAt + 1000000) : exec (.scribeReload e n) s =
    done s (({ s with scribe := { s.scribe with state := .running, kick := s.time.toNat } } : State).reloadEnd 1).passResets :=
  (exec_scribeReload hawake hopen hstart).trans (if_pos (s.readyInTime_iff.mpr hintime))

variable (hnot : ¬ (s.scribe.ready = true ∧ s.scribe.kick ≤ s.scribe.goAt + 1000000))
include hnot

theorem exec_scribeReload_error : exec (.scribeReload true n) s =
    done s (({ s with scribe := { s.scribe with state := .lost } } : State).reloadEnd 5) :=
  (exec_scribeReload hawake hopen hstart).trans ((if_neg (mt s.readyInTime_iff.mp hnot)).trans (if_pos rfl))
theorem exec_scribeReload_unready : exec (.scribeReload false n) s =
    if (n = true ∨ s.scribe.ready = true) ∧ 1000000 < s.since s.scribe.goAt then
      done s (({ s with scribe := { s.scribe with state := .lost } } : State).reloadEnd 4)
    else idle s :=
  (exec_scribeReload hawake hopen hstart).trans ((if_neg (mt s.readyInTime_iff.mp hnot)).trans (if_neg Bool.false_ne_true))

end Reload

end Sys2Proof.Machine
open Sys2Proof Sys2Proof.Machine

/-- Settles O28: a reload by whether READY came in time, and by whether the 10 ms have passed. -/
theorem scribeReload : Obligations.ScribeReload := by
  refine ⟨fun s hawake hfallback hend hopen hrun hus hdue => ?_, fun s a => ?_, fun s e n hawake hopen hstart => ?_⟩
  · refine found_of_looked (exec_watchdogExpiry ?_ hopen)
    rw [State.watchdogDue, hawake, Bool.true_and]
    exact decide_eq_true ⟨hfallback, hend, hrun, hus, hdue⟩
  · intro u
    refine ⟨fun harm hgo hlost => ?_, fun harm hgo hlost => ?_, fun hgo harm harmed => ?_, fun hgo harm harmed => ?_⟩
    · exact Eq.subst (if_pos hlost) (writes_arm (u := u) rfl harm hgo)
    · exact Eq.subst (if_neg hlost) (writes_arm (u := u) rfl harm hgo)
    · exact Eq.subst (if_pos harmed) (writes_scribeReloadGo (u := u) rfl hgo harm)
    · exact Eq.subst (if_neg (Bool.eq_false_iff.mp harmed)) (writes_scribeReloadGo (u := u) rfl hgo harm)
  · intro intime late
    refine ⟨fun hin => ?_, fun hnot => ?_, fun hnot hlate hready => ?_, fun hnot hearly => ?_⟩
    · exact yields_of_done (exec_scribeReload_ready hawake hopen hstart hin)
    · exact yields_of_done (exec_scribeReload_error hawake hopen hstart hnot)
    · exact yields_of_done ((exec_scribeReload_unready hawake hopen hstart hnot).trans (if_pos ⟨hready.symm, hlate⟩))
    · exact yields_of_idle ((exec_scribeReload_unready hawake hopen hstart hnot).trans (if_neg fun h => hearly h.2))
end

section
/-! A write of SG_VT_CTL on a state whose register table lists that register twice (R375), which no step of the block brings about. -/
namespace Sys2Proof.Machine
open Sys2Proof

/-- A write of 0 by the owner. -/
def clearAccess : RpAcc := { id := 1, data := 0, par := wordPar 0 }
/-- A state in SERVICE with a window of vector 0 open until cycle 1000. Its register table is not in the canonical form: it lists SG_VT_CTL of
vector 0 twice, with EN set in both entries. -/
def entryTwice : State :=
  { State.reset with
    build := { lanes := 128, patch := 0, idcode := 1 }
    fuse := { State.reset.fuse with request := false, done := true }
    glb := { Glb.init with mode := .service, owner := some 1 }
    regs := [(vtA 0 0, 1), (vtA 0 0, 1)]
    signal := { State.reset.signal with vecs := [(0, { Vec.init with opened := some 0, expiry := 1000 })] } }

/-- When vector 0's window opened, in the state that a command answers. -/
def answerOpened : Out → Option (Option Nat)
  | .next t => some (t.vec 0).opened
  | _ => none

theorem entryTwice_accepts : entryTwice.accepts (vtA 0 0) clearAccess = true ∧ entryTwice.canon = false := by decide +kernel
/-- The write takes away the first entry alone: SG_VT_CTL still reads EN, and the window stays open. -/
theorem entryTwice_opened : answerOpened (exec (.vectorCtlWrite 0 clearAccess) entryTwice) = some (some 0) := by decide +kernel

end Sys2Proof.Machine

open Sys2Proof Sys2Proof.Machine

/-- Refutes O49: its clauses on the answer of a write of SG_VT_CTL hold EN cleared by the word written, on every state, and `entryTwice` is a
state, not in the canonical form, where the register does not read as that word, so that the window of the statement is closed and the
model's stays open. -/
theorem not_vectorCommands : ¬ Obligations.VectorCommands := by
  unfold Obligations.VectorCommands
  rintro ⟨h, -⟩
  obtain ⟨hanswer, -⟩ := h entryTwice 0 clearAccess entryTwice_accepts.1
  have hopened := congrArg answerOpened (hanswer (.inl (by decide +kernel)))
  exact absurd (entryTwice_opened.symm.trans hopened) (by decide +kernel)
end

section
/-! Leaks, Sweep, Patrol and the end of ENDGAME (R354, R359 to R363, R367, R413, R416). -/
namespace Sys2Proof.Machine
open Sys2Proof

/-! ### Leaks (R354) -/

/-- The corrections of a leak's cycle that fall in its bucket group. -/
def State.leakAdds (s : State) (g : Fin 8) (adds : List (Fin 512 × Fin 4096)) : List (Fin 512 × Fin 4096) :=
  adds.filter (fun e => decide (bucketOf e.1.val = g.val) && decide (e.2.val < s.groupRows e.1.val))
/-- The net change of a leak with the corrections of its cycle. -/
def State.leaked (s : State) (g : Fin 8) (l : List (Fin 512 × Fin 4096)) : State :=
  l.foldl (fun t e => t.trackAt e.1.val e.2.val)
    (if l.isEmpty then s.modReg (winKey Reg.SW_BKT_STAT g.val) (fun w => putFld w 15 0 (fld w 15 0 - 1))
     else (l.foldl (fun t _ => t.count (winKey Reg.SW_BKT_CORR g.val)) s).bucketSet g.val ((l.getLast?.map (fun e => e.1.val)).getD 0)
      (s.bucketLevel g.val + l.length - 1))
theorem exec_leak {s : State} (hawake : s.awake = true) (g : Fin 8) (adds : List (Fin 512 × Fin 4096)) :
    exec (.leak g adds) s = done s (s.leaked g (s.leakAdds g adds)) := if_pos hawake
theorem State.leaked_nil (s : State) (g : Fin 8) :
    s.leaked g [] = s.modReg (winKey Reg.SW_BKT_STAT g.val) (fun w => putFld w 15 0 (fld w 15 0 - 1)) := rfl
theorem State.leaked_concat (s : State) (g : Fin 8) (l : List (Fin 512 × Fin 4096)) (e : Fin 512 × Fin 4096) : s.leaked g (l ++ [e]) =
    (l ++ [e]).foldl (fun t e => t.trackAt e.1.val e.2.val)
      (((l ++ [e]).foldl (fun t _ => t.count (winKey Reg.SW_BKT_CORR g.val)) s).bucketSet g.val e.1.val (s.bucketLevel g.val + l.length)) := by
  have hlevel : s.bucketLevel g.val + (l ++ [e]).length - 1 = s.bucketLevel g.val + l.length := by
    rw [List.length_append, List.length_singleton, ← Nat.add_assoc, Nat.add_sub_cancel]
  unfold State.leaked
  rw [if_neg (by simp), hlevel, List.getLast?_concat]
  rfl

/-! ### The walk of Sweep (R359 to R361) -/

/-- The row that the walk comes to next lies no earlier, and its group is not skipped. -/
theorem sweepAt_some {skip : Nat → Bool} {l : List (Nat × Nat)} {pos base q g row : Nat} (h : sweepAt skip l pos base = some (q, g, row)) :
    skip g = false ∧ base + pos ≤ q := by
  induction l generalizing pos base with
  | nil => cases h
  | cons e l ih =>
    obtain ⟨k, n⟩ := e
    unfold sweepAt at h
    split at h
    next hpos =>
      split at h
      next =>
        obtain ⟨hskip, hle⟩ := ih h
        exact ⟨hskip, by omega⟩
      next hskip =>
        cases h
        exact ⟨Bool.eq_false_iff.mpr hskip, le_rfl⟩
    next hpos =>
      obtain ⟨hskip, hle⟩ := ih h
      exact ⟨hskip, by omega⟩

section Read
variable (v : State) (g row : Nat) (half shared : Bool) (victim : Option (Fin 32))

theorem State.sweepRead_clean : v.sweepRead g row .clean half shared victim = v := by
  unfold State.sweepRead
  rfl
/-- A correction that a functional read has found in the same cycle counts with that. -/
theorem State.sweepRead_shared : v.sweepRead g row .corrected half true victim = v := by
  unfold State.sweepRead
  rfl
theorem State.sweepRead_corrected : v.sweepRead g row .corrected half false none = v.corrected g row := by
  unfold State.sweepRead State.sweepVictim
  simp only [Option.bind_none, Option.isSome_none, Bool.false_eq_true, if_false]
theorem State.sweepRead_uncorrectable : v.sweepRead g row .uncorrectable half shared none =
    (((v.count Reg.SW_UNCORR).raise 0x7000 2).blot 0x7000 0x0A none [BitVec.ofNat 32 g, BitVec.ofNat 32 row]).sweepHandle g row half := by
  unfold State.sweepRead
  rfl

end Read

/-- What the cursor and SW_STAT show of the row that Sweep reads. -/
def State.sweepTo (u : State) (pos g : Nat) : State :=
  (u.modReg Reg.SW_STAT (fun w => putFld w 26 16 g)).modScrub (fun x => { x with row := pos + 1 })

section Sweep
variable {s : State} (hawake : s.awake = true) (hserve : s.serving = true) (hon : bit (s.regAt Reg.SW_CTL) 0 = true)
  {u : State} (hu : s.sweepBegin = u) (found : Ecc) (half shared : Bool) (victim : Option (Fin 32))
include hawake hserve hon hu

theorem exec_sweepRow_none (hat : sweepAt u.sweepSkips u.sweepGroups u.scrub.row 0 = none) :
    exec (.sweepRow found half shared victim) s = looked s (if u.scrub.row = 0 then u else u.sweepPassed) := by
  subst hu
  refine (if_pos ⟨hawake, hserve, hon⟩).trans ?_
  simp only [hat]
theorem exec_sweepRow {pos g row : Nat} (hat : sweepAt u.sweepSkips u.sweepGroups u.scrub.row 0 = some (pos, g, row)) {t : State}
    (ht : (u.sweepTo pos g).sweepRead g row found half shared victim = t) : exec (.sweepRow found half shared victim) s =
      looked s (if (sweepAt t.sweepSkips t.sweepGroups t.scrub.row 0).isNone then t.sweepPassed else t) := by
  subst hu ht
  refine (if_pos ⟨hawake, hserve, hon⟩).trans ?_
  simp only [hat]
  rfl

end Sweep

/-! ### Patrol (R362, R363, R367) -/

/-- A command of a lane's Patrol waits in the pending set of its cluster. -/
def State.patrolWaits (u : State) (die : Nat) : Bool :=
  (u.cmdsOf (die / 512)).any (fun e => e.2.patrol && decide (e.2.lane = die / 64 ∧ e.2.stage = .pending))
/-- The pages chosen at the cursor's visit that are left to sample. -/
def State.patrolLeft (u : State) (l : List Nat) : State := u.modScrub (fun x => { x with patPages := some l })

/-- The next sample of a visit is issued, unless one of the lane waits or the cluster has no free handle. -/
def State.patrolTry (u : State) (die : Nat) (l : List Nat) : State :=
  match u.patrolWaits die, u.lowHandle (die / 512), l with
  | false, some h, page :: rest => (u.sampleIssue die (fld (u.regAt Reg.PT_CURSOR) 28 16) page h).patrolLeft rest
  | _, _, _ => u
theorem State.patrolTry_waits {u : State} {die : Nat} (h : u.patrolWaits die = true ∨ u.lowHandle (die / 512) = none) (l : List Nat) :
    u.patrolTry die l = u := by
  unfold State.patrolTry
  split
  next h0 hw hh => rcases h with h | h <;> simp [hw, hh] at h
  next => rfl
theorem State.patrolTry_samples {u : State} {die h : Nat} (hw : u.patrolWaits die = false) (hh : u.lowHandle (die / 512) = some h) (page : Nat)
    (l : List Nat) : u.patrolTry die (page :: l) =
      (u.sampleIssue die (fld (u.regAt Reg.PT_CURSOR) 28 16) page h).patrolLeft l := by
  unfold State.patrolTry
  rw [hw, hh]

section Patrol
variable {s : State} {cc : CcFault}

theorem State.patrolNext_begins (h : s.scrub.patPages = none) : s.patrolNext cc =
    State.patrolWalk s.presentDies cc (8192 - fld (s.regAt Reg.PT_CURSOR) 28 16) (fld (s.regAt Reg.PT_CURSOR) 12 0) s := by
  unfold State.patrolNext
  simp only [h]
theorem State.patrolNext_stays {p : Nat} {l : List Nat} (h : s.scrub.patPages = some (p :: l))
    (hpresent : s.presentDies.contains (fld (s.regAt Reg.PT_CURSOR) 12 0) = true)
    (hawake : s.patrolAsleep (fld (s.regAt Reg.PT_CURSOR) 12 0) = false) :
    s.patrolNext cc = (s, some (fld (s.regAt Reg.PT_CURSOR) 12 0, p :: l)) := by
  unfold State.patrolNext
  simp only [h, hpresent, hawake, not_true_eq_false, Bool.false_eq_true, if_false]

variable (hawake : s.awake = true) (hserve : s.serving = true) (hon : bit (s.regAt Reg.PT_CTL) 0 = true) (hsan : s.keys.sanit = none)
include hawake hserve hon hsan

theorem exec_patrolIssue_passed (hnone : (s.patrolNext cc).2 = none) : exec (.patrolIssue cc) s = looked s (s.patrolNext cc).1.patrolPassed := by
  refine (if_pos ⟨hawake, hserve, hon, by rw [hsan]; rfl⟩).trans ?_
  simp only [hnone]
theorem exec_patrolIssue {die : Nat} {l : List Nat} (hsome : (s.patrolNext cc).2 = some (die, l)) :
    exec (.patrolIssue cc) s = looked s (((s.patrolNext cc).1.patrolLeft l).patrolTry die l) := by
  refine (if_pos ⟨hawake, hserve, hon, by rw [hsan]; rfl⟩).trans ?_
  simp only [hsome]
  clear hsome
  change (match ((s.patrolNext cc).1.patrolLeft l).patrolWaits die, ((s.patrolNext cc).1.patrolLeft l).lowHandle (die / 512), l with
    | false, some h, page :: rest => _ | _, _, _ => _) = looked s (((s.patrolNext cc).1.patrolLeft l).patrolTry die l)
  unfold State.patrolTry
  cases ((s.patrolNext cc).1.patrolLeft l).patrolWaits die <;> cases ((s.patrolNext cc).1.patrolLeft l).lowHandle (die / 512) <;> cases l <;> rfl

end Patrol

/-! ### The end of ENDGAME (R413, R416) -/

theorem State.toMode_mode (s : State) (m : Mode) : (s.toMode m).glb.mode = m := by
  obtain ⟨r, d, u, p, g, h⟩ := State.toMode_frame s m
  rw [h]
/-- The sequence ends in RESET, a warm reset that waits for it included. -/
theorem State.egReset_mode (s : State) : s.egReset.glb.mode = .reset := by
  unfold State.egReset
  dsimp only
  have hmode := State.toMode_mode s .reset
  split
  · obtain ⟨r, b, h⟩ := State.applyWarm_inReset
      (s := (s.toMode .reset).modGlb (fun g => { g with warmWait := false, warmDeferred := !s.pins.warmLow })) hmode
    rw [h]
    exact hmode
  · exact hmode

section End
variable {s : State} (hawake : s.awake = true) (hmode : s.glb.mode = .endgame)

theorem exec_endgameEnd_lane {g : Nat} (hg : g ∈ s.laneList) (hbusy : (s.lane g).egDone = false) : exec .endgameEnd s = .next s :=
  if_neg fun ⟨_, _, _, hall⟩ => absurd (List.all_eq_true.mp hall g hg) (Bool.eq_false_iff.mp hbusy)
theorem exec_budgetExpiry_early (h : s.since s.endgame.start < s.egBudget) : exec .endgameBudgetExpiry s = .next s :=
  if_neg fun ⟨_, _, hle⟩ => absurd hle (Nat.not_le.mpr h)

include hawake hmode

theorem exec_endgameEnd (hgoes : s.endgame.ended = false) (hdone : ∀ g ∈ s.laneList, (s.lane g).egDone = true) : exec .endgameEnd s =
    done s (if s.egPark.egHost ∧ ¬ s.egPark.egFailed then s.egPark else s.egPark.egReset) :=
  if_pos ⟨hawake, hmode, by rw [hgoes]; decide, List.all_eq_true.mpr hdone⟩
/-- The header of the host copy. -/
def State.egHeader (s : State) : HpReq := oneBeat s.egAddr
  (leBytes 32 (leWords [s.regAt Reg.GLB_EG_SUM, s.regAt Reg.GLB_EG_DROP, s.regAt Reg.GLB_EG_DUR, s.regAt Reg.GLB_EG_AT_LO])) 1 .egHeader
theorem exec_egHeaderWrite (hended : s.endgame.ended = true) (hhost : s.egHost = true) (hok : s.egFailed = false) (hout : s.endgame.hostOut = 0)
    (hnot : s.endgame.headerOut = false) : exec .egHeaderWrite s =
      done s ((s.modEndgame (fun e => { e with headerOut := true })).modPort 0 (fun q => { q with queue := q.queue ++ [s.egHeader] }.present)) := by
  refine (if_pos ⟨hawake, hmode, hended, hhost, by rw [hok]; decide, hout, by rw [hnot]; decide⟩).trans (congrArg (done s) (if_neg ?_))
  exact fun ⟨_, _, h⟩ => h rfl
theorem exec_budgetExpiry (h : s.egBudget ≤ s.since s.endgame.start) : ∃ u, exec .endgameBudgetExpiry s = done s u ∧ u.glb.mode = .reset :=
  ⟨_, if_pos ⟨hawake, hmode, h⟩, State.egReset_mode _⟩

end End

end Sys2Proof.Machine
open Sys2Proof Sys2Proof.Machine

/-- Settles O60: each command under its hypotheses is one step of the walk, the visit or the sequence that its lemma names. -/
theorem scrubAndEndgame : Obligations.ScrubAndEndgame := by
  refine ⟨fun s g hawake hc => ?_, fun s g adds l e hawake hl => ?_, fun s half shared victim hawake hserve hon => ?_,
    fun s cc hawake hserve hon hsan => ?_, fun s hawake hmode => ⟨fun hgoes hdone => ?_, ?_, ?_, fun hpast => ?_, exec_budgetExpiry_early⟩⟩
  · intro K
    refine ⟨_, yields_of_done ((exec_leak hawake g []).trans (congrArg (done s) (s.leaked_nil g))), ?_, ?_,
      fun k hk => State.regAt_modReg_ne s hk _⟩
    · rw [State.regAt_modReg_self hc, fld_putFld_self _ (by decide) (by decide)]
      exact Nat.mod_eq_of_lt (Nat.lt_of_le_of_lt (Nat.sub_le _ _) (Nat.mod_lt _ (by decide)))
    · rw [State.regAt_modReg_self hc, fld_putFld_ne _ (by decide) (by decide) (by decide) (by decide)]
  · refine yields_of_done ((exec_leak hawake g adds).trans (congrArg (done s) ?_))
    rw [show s.leakAdds g adds = l ++ [e] from hl]
    exact s.leaked_concat g l e
  · intro u
    refine ⟨fun hat => found_of_looked (exec_sweepRow_none hawake hserve hon rfl _ _ _ _ hat), fun pos g row hat => ?_⟩
    obtain ⟨hskip, hle⟩ := sweepAt_some hat
    refine ⟨hskip, by omega, ?_⟩
    intro v
    refine ⟨v.sweepRead_clean _ _ _ _ _, v.sweepRead_shared _ _ _ _, v.sweepRead_corrected _ _ _,
      v.sweepRead_uncorrectable _ _ _ _, fun found => ?_⟩
    have h := exec_sweepRow hawake hserve hon rfl found half shared victim hat rfl
    exact ⟨fun hlast => found_of_looked (h.trans (congrArg (looked s) (if_pos hlast))),
      fun hmore => found_of_looked (h.trans (congrArg (looked s) (if_neg (Bool.eq_false_iff.mp hmore))))⟩
  · intro w r
    refine ⟨State.patrolNext_begins, fun p l => State.patrolNext_stays,
      fun hnone => found_of_looked (exec_patrolIssue_passed hawake hserve hon hsan hnone),
      fun die page l hsome => ?_⟩
    intro u waiting
    have h := exec_patrolIssue hawake hserve hon hsan hsome
    exact ⟨fun hwait => found_of_looked (h.trans (congrArg (looked s) (State.patrolTry_waits hwait _))),
      fun n hfree hhandle => found_of_looked (h.trans (congrArg (looked s) (State.patrolTry_samples hfree hhandle page l)))⟩
  · intro u
    have h := exec_endgameEnd hawake hmode hgoes hdone
    refine ⟨fun hhost hok => yields_of_done (h.trans (congrArg (done s) (if_pos ⟨hhost, Bool.eq_false_iff.mp hok⟩))),
      fun hno => yields_of_done (h.trans (congrArg (done s) (if_neg fun ⟨hhost, hok⟩ => ?_)))⟩
    exact hno.elim (fun h => absurd hhost (Bool.eq_false_iff.mp h)) hok
  · exact fun ⟨g, hg, hbusy⟩ => exec_endgameEnd_lane hg hbusy
  · intro hended hhost hok hout hnot
    exact ⟨_, yields_of_done (exec_egHeaderWrite hawake hmode hended hhost hok hout hnot), rfl,
      fun hc => State.port_self (s := s.modEndgame (fun e => { e with headerOut := true })) hc 0 _⟩
  · obtain ⟨u, hexec, hreset⟩ := exec_budgetExpiry hawake hmode hpast
    exact ⟨u, yields_of_done hexec, hreset⟩
end

section
/-! A step leaves no lookup half made (R316): the shapes in which the commands' meanings end. -/
namespace Sys2Proof.Machine
open Sys2Proof

/-! ### Answers with no lookup half made -/

/-- An answer whose next state wants no lookup. -/
def Rests (o : Out) : Prop := ∀ t, o = .next t → t.cache.wanted = none

@[simp] theorem rests_next {t : State} : Rests (.next t) ↔ t.cache.wanted = none := by
  refine ⟨fun h => h t rfl, ?_⟩
  rintro h t ⟨⟩
  exact h
@[simp] theorem rests_done (s u : State) : Rests (done s u) := by
  obtain ⟨g, b, h⟩ := settle_frame s u
  exact rests_next.mpr (by rw [h])
@[simp] theorem rests_looked (s u : State) : Rests (looked s u) := rests_done s _
@[simp] theorem rests_idle {s : State} : Rests (idle s) ↔ s.cache.wanted = none := rests_next
@[simp] theorem rests_ite {p : Prop} [Decidable p] {a b : Out} : Rests (if p then a else b) ↔ (p → Rests a) ∧ (¬ p → Rests b) := by
  split <;> simp [*]

theorem rests_write {c : Instr} {p : Nat × RpAcc} (h : writeOf c = some p) (s : State) : Rests (exec c s) := by
  obtain ⟨eff, hw⟩ := exec_write h s
  rw [hw]
  exact rests_done _ _

section Work
variable {s : State} (hnone : s.cache.wanted = none)
include hnone

/-- A command that acts under a condition, and else finds nothing to do. -/
theorem rests_guard {p : Prop} [Decidable p] {o : Out} (ho : Rests o) : Rests (if p then o else idle s) :=
  rests_ite.mpr ⟨fun _ => ho, fun _ => rests_idle.mpr hnone⟩

/-! ### The shared meanings of instructions, elements and operations -/

theorem State.instr_rests (core : Fin 17) (op : Nat) (f : State → Ins → State) : Rests (s.instr core op f) := by
  unfold State.instr
  refine rests_guard hnone ?_
  dsimp only
  split
  · exact rests_looked _ _
  · exact rests_looked _ _
theorem State.element_rests (g kind : Nat) (f : Running → Word → State → State) : Rests (s.element g kind f) := by
  unfold State.element
  split
  · split
    · exact rests_guard hnone (rests_done _ _)
    · exact rests_idle.mpr hnone
  · exact rests_idle.mpr hnone
theorem State.opEnd_rests (cl : Fin 16) (hd : Fin 2048) (op : Nat) (f : Cmd → State) : Rests (s.opEnd cl hd op f) := by
  unfold State.opEnd
  split
  · exact rests_guard hnone (rests_looked _ _)
  · exact rests_idle.mpr hnone

/-! ### The commands that look at what the state holds before they act -/

theorem execHpRequestAccept_rests (port : Fin 4) : Rests (execHpRequestAccept port s) := by
  unfold execHpRequestAccept
  dsimp only
  (repeat' split) <;> simp [hnone]
theorem execHpWriteBeat_rests (port : Fin 4) : Rests (execHpWriteBeat port s) := by
  unfold execHpWriteBeat
  dsimp only
  (repeat' split) <;> simp [hnone]
theorem execHpWriteStatus_rests (port : Fin 4) (tag : Fin 512) (resp : BitVec 2) : Rests (execHpWriteStatus port tag resp s) := by
  unfold execHpWriteStatus
  dsimp only
  (repeat' split) <;> simp [hnone]
theorem execHpTimeout_rests (port : Fin 4) (wr : Bool) (tag : Fin 512) : Rests (execHpTimeout port wr tag s) := by
  unfold execHpTimeout
  dsimp only
  (repeat' split) <;> simp [hnone]
theorem execPhaseTimeout_rests : Rests (execPhaseTimeout s) := by
  unfold execPhaseTimeout
  (repeat' split) <;> simp [hnone]
theorem execMeasureDone_rests (uncorr : Bool) (corrected : List (Fin 2560)) : Rests (execMeasureDone uncorr s corrected) := by
  unfold execMeasureDone
  split <;> simp [hnone]
theorem execCalRunStep_rests (lane : Fin 128) (mism : List Nat) (withWrite : Bool) : Rests (execCalRunStep lane mism withWrite s) := by
  unfold execCalRunStep
  dsimp only
  split <;> simp [hnone]
theorem execRetrainRun_rests (lane : Fin 128) (trials : List Trial) : Rests (execRetrainRun lane trials s) := by
  unfold execRetrainRun
  dsimp only
  split <;> simp [hnone]
theorem execRetrainRerequest_rests (lane : Fin 128) : Rests (execRetrainRerequest lane s) := by
  unfold execRetrainRerequest
  dsimp only
  split <;> simp [hnone]
theorem execQuillTimer_rests (core : Fin 17) (n : Fin 4) : Rests (execQuillTimer core n s) := by
  unfold execQuillTimer
  dsimp only
  split <;> simp [hnone]
theorem execStrokeStart_rests (lane : Fin 128) (ecc : Ecc) : Rests (execStrokeStart lane ecc s) := by
  unfold execStrokeStart
  dsimp only
  (repeat' split) <;> simp [hnone]
theorem execRingFetch_rests (ring : Fin 32768) (cc : CcFault) (residue : Bool) (mawResidue : Option (Fin 5)) :
    Rests (execRingFetch ring cc residue mawResidue s) := by
  unfold execRingFetch
  dsimp only
  (repeat' split) <;> simp [hnone]
theorem execIntakePush_rests (cl : Fin 16) (urgent : Bool) (ecc : Ecc) : Rests (execIntakePush cl urgent ecc s) := by
  unfold execIntakePush
  dsimp only
  (repeat' split) <;> simp [hnone]
theorem execIntakePop_rests (cl : Fin 16) (ecc : Ecc) : Rests (execIntakePop cl ecc s) := by
  unfold execIntakePop
  dsimp only
  (repeat' split) <;> simp [hnone]
theorem execOpFence_rests (ring : Fin 32768) (cc : CcFault) : Rests (execOpFence ring cc s) := by
  unfold execOpFence
  dsimp only
  (repeat' split) <;> simp [hnone]
theorem execHdeDone_rests (cl : Fin 16) (k : Fin 2) (h : Fin 2048) (frame : Fin 32) (cc : CcFault) (ecc : Ecc) :
    Rests (execHdeDone cl k h frame cc s ecc) := by
  unfold execHdeDone
  dsimp only
  (repeat' split) <;> simp [hnone]
theorem execSdeContextGrant_rests (reg : Fin 2) (ecc : Ecc) (cc : CcFault) (byte : Fin 4672) :
    Rests (execSdeContextGrant reg ecc s cc byte) := by
  unfold execSdeContextGrant
  dsimp only
  (repeat' split) <;> simp [hnone]
theorem execSoftSensingArrival_rests (lane : Fin 128) (ecc : Ecc) (cc : CcFault) (byte : Fin 4672) :
    Rests (execSoftSensingArrival lane s ecc cc byte) := by
  unfold execSoftSensingArrival
  dsimp only
  (repeat' split) <;> simp [hnone]
theorem execSdeDone_rests (reg : Fin 2) (ctx : Fin 32) (cc : CcFault) : Rests (execSdeDone reg ctx cc s) := by
  unfold execSdeDone
  dsimp only
  (repeat' split) <;> simp [hnone]
theorem execGambitStep_rests (lane : Fin 128) (parity : Bool) (cc : CcFault) : Rests (execGambitStep lane parity cc s) := by
  unfold execGambitStep
  dsimp only
  (repeat' split) <;> simp [hnone]
theorem execCipherUnit_rests (cl : Fin 16) (k : Fin 2) (ecc : Ecc) (cc : CcFault) : Rests (execCipherUnit cl k s ecc cc) := by
  unfold execCipherUnit
  dsimp only
  (repeat' split) <;> simp [hnone]
theorem execCipherUnitDone_rests (cl : Fin 16) (k : Fin 2) (ecc : Ecc) (cc : CcFault) : Rests (execCipherUnitDone cl k s ecc cc) := by
  unfold execCipherUnitDone
  dsimp only
  (repeat' split) <;> simp [hnone]
theorem execChannelTake_rests : Rests (execChannelTake s) := by
  unfold execChannelTake
  dsimp only
  (repeat' split) <;> simp [hnone]
theorem execMoverRequest_rests (ch : Fin 64) (ecc : Ecc) (residue tag : Bool) : Rests (execMoverRequest ch ecc residue tag s) := by
  unfold execMoverRequest
  dsimp only
  (repeat' split) <;> simp [hnone]
theorem execDescriptorFetch_rests (ch : Fin 64) : Rests (execDescriptorFetch ch s) := by
  unfold execDescriptorFetch
  dsimp only
  (repeat' split) <;> simp [hnone]
theorem execCompletionWrite_rests (port : Fin 4) (cc : CcFault) (bad : Option (Fin 5)) (pair : Option (Fin 4096)) (residue : Bool) :
    Rests (execCompletionWrite port cc bad pair s residue) := by
  unfold execCompletionWrite
  (repeat' split) <;> simp [hnone]
theorem execLateErr_rests (cc : CcFault) (residue : Bool) : Rests (execLateErr cc s residue) := by
  unfold execLateErr
  (repeat' split) <;> simp [hnone]
theorem execVectorMessageWrite_rests (vec : Fin 4096) : Rests (execVectorMessageWrite vec s) := by
  unfold execVectorMessageWrite
  split <;> simp [hnone]
theorem execCcLookup_rests (off : BitVec 30) (l : CcLookup) (err : CcFault) : Rests (execCcLookup off l err s) := by
  unfold execCcLookup
  (repeat' split) <;> simp [hnone]
theorem execCcFill_rests (reg : Fin 17) : Rests (execCcFill reg s) := by
  unfold execCcFill
  (repeat' split) <;> simp [hnone]
theorem execCcWritebackStatus_rests (slot : Fin 32) : Rests (execCcWritebackStatus slot s) := by
  unfold execCcWritebackStatus
  (repeat' split) <;> simp [hnone]
theorem execSweepRow_rests (found : Ecc) (half : Bool) (shared : Bool) (victim : Option (Fin 32)) :
    Rests (execSweepRow found half s shared victim) := by
  unfold execSweepRow
  dsimp only
  (repeat' split) <;> simp [hnone]
theorem execPatrolIssue_rests (cc : CcFault) : Rests (execPatrolIssue cc s) := by
  unfold execPatrolIssue
  dsimp only
  (repeat' split) <;> simp [hnone]
theorem execResetDone_rests (cc : CcFault) : Rests (execResetDone cc s) := by
  unfold execResetDone
  split <;> simp [hnone]
theorem execSanitizeErase_rests (lane : Fin 128) (die : Fin 64) (cc : CcFault) : Rests (execSanitizeErase lane die cc s) := by
  unfold execSanitizeErase
  dsimp only
  (repeat' split) <;> simp [hnone]
theorem execSanitizeDone_rests (upset : Upset) : Rests (execSanitizeDone upset s) := by
  unfold execSanitizeDone
  split <;> simp [hnone]
theorem execKeyLoadDone_rests : Rests (execKeyLoadDone s) := by
  unfold execKeyLoadDone
  (repeat' split) <;> simp [hnone]
theorem execMaintDone_rests : Rests (execMaintDone s) := by
  unfold execMaintDone
  split <;> simp [hnone]
theorem execDrainDone_rests : Rests (execDrainDone s) := by
  unfold execDrainDone
  split <;> simp [hnone]
theorem execHpReadBeat_rests (port : Fin 4) (tag : Fin 512) (data : Beat) (par : BitVec 128) (resp : BitVec 2) :
    Rests (execHpReadBeat port tag data par resp s) := by
  unfold execHpReadBeat
  refine rests_ite.mpr ⟨fun _ => rests_idle.mpr hnone, fun _ => rests_ite.mpr ⟨fun _ => rests_done _ _, fun _ => ?_⟩⟩
  extract_lets data1 resp1 ok u resp2
  split
  · exact rests_done _ _
  · exact rests_done _ _
theorem execHdePass_rests (cl : Fin 16) (k : Fin 2) (ecc : Ecc) (cc : CcFault) (byte : Fin 4672) : Rests (execHdePass cl k ecc s cc byte) := by
  unfold execHdePass
  refine rests_guard hnone ?_
  split
  · exact rests_idle.mpr hnone
  · refine rests_ite.mpr ⟨fun _ => rests_looked _ _, fun _ => rests_ite.mpr ⟨fun _ => rests_looked _ _, fun _ => ?_⟩⟩
    refine rests_ite.mpr ⟨fun _ => rests_looked _ _, fun _ => ?_⟩
    split
    · exact rests_idle.mpr hnone
    · exact rests_ite.mpr ⟨fun _ => rests_looked _ _, fun _ => rests_looked _ _⟩

end Work

/-! ### The pins, the fuses and the resets -/

theorem State.fuseEnd_cache (s : State) (failed : Bool) : (s.fuseEnd failed).cache = s.cache := by
  obtain ⟨r, x, h⟩ := State.presets_frame (s.modFuse (fun f => { f with request := false, done := true, failed := failed }))
  rw [State.fuseEnd, h]
  rfl
theorem State.fuseRetry_cache (s : State) : s.fuseRetry.cache = s.cache := by
  unfold State.fuseRetry
  split
  · exact State.fuseEnd_cache s true
  · rfl
theorem State.countHot_cache (s : State) : s.countHot.cache = s.cache := by
  unfold State.countHot
  dsimp only
  split <;> split <;> rfl
/-- A warm reset empties the cache's work. -/
theorem State.applyWarm_wanted (s : State) : s.applyWarm.cache.wanted = none := rfl
theorem State.failReset_wanted (s : State) : s.failReset.cache.wanted = none := rfl
theorem State.coldScope_wanted (s : State) : s.coldScope.cache.wanted = none := by
  rw [State.coldScope_eq]
  rfl
theorem State.toMode_cache (s : State) (m : Mode) : (s.toMode m).cache = s.cache := by
  obtain ⟨r, d, u, p, g, h⟩ := State.toMode_frame s m
  rw [h]

theorem rests_pin {s : State} (hnone : s.cache.wanted = none) {c : Instr} (hpin : PinCommand c) : Rests (exec c s) := by
  cases hpin with
  | coldResetAssert => exact rests_next.mpr (State.coldScope_wanted s)
  | coldResetRelease | kekSample | scanModeFall => exact rests_guard hnone (rests_next.mpr hnone)
  | fuseAck d p =>
    refine rests_guard hnone (rests_ite.mpr ⟨fun _ => rests_next.mpr ?_, fun _ => rests_next.mpr ?_⟩)
    · split
      · exact (congrArg Cache.wanted (State.fuseEnd_cache _ _)).trans hnone
      · exact hnone
    · exact (congrArg Cache.wanted (State.fuseRetry_cache s)).trans hnone
  | fuseAckTimeout => exact rests_guard hnone (rests_next.mpr ((congrArg Cache.wanted (State.fuseRetry_cache s)).trans hnone))
  | warmResetAssert w =>
    refine rests_ite.mpr ⟨fun _ => rests_next.mpr hnone, fun _ => rests_ite.mpr ⟨fun _ => rests_next.mpr hnone, fun _ => ?_⟩⟩
    refine rests_ite.mpr ⟨fun _ => rests_next.mpr ?_, fun _ => rests_ite.mpr ⟨fun _ => rests_next.mpr ?_, fun _ => rests_next.mpr ?_⟩⟩
    · rw [State.orReg_cache, State.modGlb_cache]
      exact State.failReset_wanted _
    · rw [State.modGlb_cache]
      exact State.applyWarm_wanted _
    · exact State.applyWarm_wanted _
  | warmResetRelease f l => exact rests_guard hnone (rests_ite.mpr ⟨fun _ => rests_done _ _, fun _ => rests_next.mpr hnone⟩)
  | holdupOkChange l => exact rests_guard hnone (rests_done _ _)
  | millisecondEdge m l =>
    refine rests_guard hnone (rests_ite.mpr ⟨fun _ => rests_done _ _, fun _ => rests_next.mpr ?_⟩)
    exact (congrArg Cache.wanted (State.countHot_cache _)).trans hnone
  | thermCodeUpdate a b => exact rests_guard hnone (rests_ite.mpr ⟨fun _ => rests_next.mpr hnone, fun _ => rests_done _ _⟩)
  | scanModeRise =>
    refine rests_ite.mpr ⟨fun _ => rests_next.mpr ?_, fun _ => rests_next.mpr hnone⟩
    refine Eq.trans (b := (if s.glb.mode = .reset then s else s.toMode .reset).cache.wanted) rfl ?_
    split
    · exact hnone
    · exact (congrArg Cache.wanted (State.toMode_cache s _)).trans hnone
  | tap htap =>
    obtain ⟨x, hx⟩ := htap.exec_eq s
    rw [hx]
    exact rests_next.mpr hnone

/-! ### Every command (R316) -/

theorem exec_rests {s : State} (hnone : s.cache.wanted = none) (c : Instr) : Rests (exec c s) := by
  cases c with
  | registerWrite | mgrOwnerClaim | mgrOwnerRelease | mgrSuccessorSet | expertArm | expertOpen | expertClose | pageLock | errCaptClear
    | go | clear | loadWindowWrite | resume | recal | retrain | laneShadowWrite | markQuery | markGrownHost | markClear | ringCmdRead
    | ringCmdWrite | disable | resetRing | doorbellSubProd | doorbellCplCons | intakeFlushBulk | intakeFlushUrgent | latHistClear
    | gbHistClear | ptHistClear | rewalk | gbFail | frQuery | frClose | frOpen | ccClean | ccInvalidate | ccCleanInvalidate
    | preloadLock | unlock | invalAll | ccEnable | ccDisable | load | zeroise | zeroiseInst | sealRaise | sealLower | start | stop
    | mvClear | mvTimerWrite | mvCfgShadowWrite | create | tnReset | unfence | destroy | repairAdd | vectorCtlWrite | dbVecMaskWrite
    | senseModeWrite | retClear | arm | scribeReloadGo | pbOpen | pbClose | pbSeedWrite | pxCtlWrite | egSummaryClear | quotaWrite
    | shareWrite =>
    exact rests_write rfl s
  | centralRelease | pfWarnRegistered | awaitImagesTimeout | trainPhase | sealPhase | serviceEntry | openingRestart | calStepWaitExpiry
    | castling | forcedIdle | retrainReadyTimeout | rbReady | busyPoll | suspOverrun | ledgerRefill | triggerTick | mvCastling
    | windowExpiry | edgeCatch | ccRetry | clusterDoze | clusterWake | sdeRegionDoze | sdeRegionWake | blockWake | leak | endgameEnd
    | endgameBudgetExpiry | egHeaderWrite | watchdogExpiry | illegalInstruction | rbBusyTimeout =>
    exact rests_guard hnone (rests_done _ _)
  | startPhase | defectPhase | selection | blockDoze =>
    exact rests_guard hnone (rests_ite.mpr ⟨fun _ => rests_done _ _, fun _ => rests_done _ _⟩)
  | zeroFillDone => exact rests_ite.mpr ⟨fun _ => rests_done _ _, fun _ => rests_guard hnone (rests_done _ _)⟩
  | scribeReload =>
    exact rests_guard hnone (rests_ite.mpr ⟨fun _ => rests_done _ _, fun _ => rests_ite.mpr ⟨fun _ => rests_done _ _,
      fun _ => rests_guard hnone (rests_done _ _)⟩⟩)
  | qAdd | qAddi | qSub | qAnd | qOr | qXor | qShli | qShri | qLui | qLd | qSt | qJal | qJr | qWaitev | qCmdrd | qMawrow | qPset | qStrk
    | qDone | qDefer | qCsrr | qCsrw | qReady | qBeq | qBne | qBltu =>
    dsimp only [exec, execQAdd, execQAddi, execQSub, execQAnd, execQOr, execQXor, execQShli, execQShri, execQLui, execQLd, execQSt,
      execQJal, execQJr, execQWaitev, execQCmdrd, execQMawrow, execQPset, execQStrk, execQDone, execQDefer, execQCsrr, execQCsrw,
      execQReady, execQBeq, execQBne, execQBltu, State.alu, State.branch]
    exact State.instr_rests hnone _ _ _
  | elEnd | elCmd | elCmdp | elAddr | elDout | elDin | elFeat | elWait | elStat | elCe =>
    dsimp only [exec, execElEnd, execElCmd, execElCmdp, execElAddr, execElDout, execElDin, execElFeat, execElWait, execElStat, execElCe]
    exact State.element_rests hnone _ _ _
  | opRead | opProgram | opErase | opCopy | opBlankCheck | opFetch | opRelease | opGetFeature | opSetFeature | opIdentify | opResetDie
    | opRawRead | opPatrolSample =>
    dsimp only [exec, execOpRead, execOpProgram, execOpErase, execOpCopy, execOpBlankCheck, execOpFetch, execOpRelease, execOpGetFeature,
      execOpSetFeature, execOpIdentify, execOpResetDie, execOpRawRead, execOpPatrolSample]
    exact State.opEnd_rests hnone _ _ _ _
  | rcRead => exact rests_done _ _
  | hpRequestAccept => exact execHpRequestAccept_rests hnone _
  | hpWriteBeat => exact execHpWriteBeat_rests hnone _
  | hpReadBeat => exact execHpReadBeat_rests hnone _ _ _ _ _
  | hpWriteStatus => exact execHpWriteStatus_rests hnone _ _ _
  | hpTimeout => exact execHpTimeout_rests hnone _ _ _
  | phaseTimeout => exact execPhaseTimeout_rests hnone
  | measureDone => exact execMeasureDone_rests hnone _ _
  | calRunStep => exact execCalRunStep_rests hnone _ _ _
  | retrainRun => exact execRetrainRun_rests hnone _ _
  | retrainRerequest => exact execRetrainRerequest_rests hnone _
  | quillTimer => exact execQuillTimer_rests hnone _ _
  | strokeStart => exact execStrokeStart_rests hnone _ _
  | ringFetch => exact execRingFetch_rests hnone _ _ _ _
  | intakePush => exact execIntakePush_rests hnone _ _ _
  | intakePop => exact execIntakePop_rests hnone _ _
  | opFence => exact execOpFence_rests hnone _ _
  | hdePass => exact execHdePass_rests hnone _ _ _ _ _
  | hdeDone => exact execHdeDone_rests hnone _ _ _ _ _ _
  | sdeContextGrant => exact execSdeContextGrant_rests hnone _ _ _ _
  | softSensingArrival => exact execSoftSensingArrival_rests hnone _ _ _ _
  | sdeDone => exact execSdeDone_rests hnone _ _ _
  | gambitStep => exact execGambitStep_rests hnone _ _ _
  | cipherUnit => exact execCipherUnit_rests hnone _ _ _ _
  | cipherUnitDone => exact execCipherUnitDone_rests hnone _ _ _ _
  | channelTake => exact execChannelTake_rests hnone
  | moverRequest => exact execMoverRequest_rests hnone _ _ _ _
  | descriptorFetch => exact execDescriptorFetch_rests hnone _
  | completionWrite => exact execCompletionWrite_rests hnone _ _ _ _ _
  | lateErr => exact execLateErr_rests hnone _ _
  | vectorMessageWrite => exact execVectorMessageWrite_rests hnone _
  | ccLookup => exact execCcLookup_rests hnone _ _ _
  | ccFill => exact execCcFill_rests hnone _
  | ccWritebackStatus => exact execCcWritebackStatus_rests hnone _
  | sweepRow => exact execSweepRow_rests hnone _ _ _ _
  | patrolIssue => exact execPatrolIssue_rests hnone _
  | resetDone => exact execResetDone_rests hnone _
  | sanitizeErase => exact execSanitizeErase_rests hnone _ _ _
  | sanitizeDone => exact execSanitizeDone_rests hnone _
  | keyLoadDone => exact execKeyLoadDone_rests hnone
  | maintDone => exact execMaintDone_rests hnone
  | drainDone => exact execDrainDone_rests hnone
  | coldResetAssert | coldResetRelease | fuseAck | fuseAckTimeout | warmResetAssert | warmResetRelease | kekSample | holdupOkChange
    | millisecondEdge | thermCodeUpdate | scanModeRise | scanModeFall =>
    exact rests_pin hnone (by constructor)
  | extest | idcode | samplePreload | clamp | highz | bypass =>
    exact rests_pin hnone (.tap (by constructor))
theorem State.tick_wanted {s : State} (hnone : s.cache.wanted = none) : s.tick.cache.wanted = none := by
  by_cases halive : s.alive = true
  · by_cases hup : s.awake = true
    · rw [State.tick_awake halive hup]
      exact rests_next.mp (rests_done s s.ticked.cycled)
    · rw [State.tick_gated halive hup]
      exact hnone
  · rwa [State.tick_dead halive]
/-- A step leaves no lookup half made. -/
theorem step_rests {s : State} (hnone : s.cache.wanted = none) : Rests (step s) := by
  cases hq : s.pending with
  | nil =>
    rw [step_empty hq]
    exact rests_next.mpr (State.tick_wanted hnone)
  | cons c q =>
    rw [step_front hq]
    exact exec_rests (s := { s with pending := q }) hnone c

end Sys2Proof.Machine
end

section
/-! Operations that wait for their lookups (R316, R317). -/
namespace Sys2Proof.Machine
open Sys2Proof

/-! ### An operation begins to wait -/

theorem State.hold_held (s : State) (h : Held) : (s.hold h).cache.held = s.cache.held ++ [h] := by
  unfold State.hold
  dsimp only
  split <;> rfl
theorem State.hold_wanted (s : State) (h : Held) : (s.hold h).cache.wanted = s.cache.wanted := by
  unfold State.hold
  dsimp only
  split <;> rfl
/-- An operation of the register port that waits shows its BUSY (R317). -/
theorem State.hold_busy {s : State} (hc : s.canon = true) {h : Held} {k : Nat} (hbusy : h.busy = some k) :
    bit ((s.hold h).regAt k) 31 = true := by
  unfold State.hold
  dsimp only
  rw [hbusy]
  exact State.bit_orReg_flag (s := s.modCache _) hc k (by decide)

/-- A state that wants no lookup is as it is without one. -/
theorem State.modCache_wanted {s : State} (h : s.cache.wanted = none) : s.modCache (fun c => { c with wanted := none }) = s :=
  congrArg (fun c => { s with cache := c }) (show ({ s.cache with wanted := none } : Cache) = s.cache by rw [← h])

section Begins
variable {s : State} {h : Held} {cc : CcFault} {f : CcFault → State → State} (hnone : s.cache.wanted = none)
  (hfirst : s.cache.held.any h.after = false) {w : Nat × CcLookup × CcFault}
include hnone hfirst

theorem State.begins_eq : s.begins h cc f = (State.attempt 8 s h cc f).modCache (fun c => { c with wanted := none }) := by
  unfold State.begins
  rw [if_neg (Bool.eq_false_iff.mp hfirst), State.modCache_wanted hnone, hnone]

variable (hwants : (f cc s).cache.wanted = some w)
include hwants

/-- A lookup that can take no register is made again later (R316). -/
theorem State.begins_blocked (hblocked : s.ccLook w.1 w.2.1 w.2.2 true = none) : s.begins h cc f = s.hold h := by
  rw [State.begins_eq hnone hfirst]
  unfold State.attempt
  simp only [hwants, hblocked]
  exact State.modCache_wanted ((s.hold_wanted h).trans hnone)
/-- A lookup that is made and not answered at once leaves the operation waiting (R316). -/
theorem State.begins_missed {u : State} (hmade : s.ccLook w.1 w.2.1 w.2.2 true = some u) (hu : u.cache.wanted = none)
    (hmiss : u.cache.served.length ≤ s.cache.served.length) : s.begins h cc f = u.hold h := by
  rw [State.begins_eq hnone hfirst]
  unfold State.attempt
  simp only [hwants, hmade, Nat.not_lt.mpr hmiss, if_false]
  exact State.modCache_wanted ((u.hold_wanted h).trans hu)

end Begins

/-! ### The operations that go on -/

/-- The only operation that waits is made again on a state without it. -/
theorem State.resume_single {u : State} {h : Held} (hheld : u.cache.held = [h]) :
    u.resume = ({ u with cache := { u.cache with held := [] } } : State).begins h .clean (fun cc v => v.heldRun h cc) := by
  unfold State.resume
  rw [hheld]
  rfl

/-- A DF_MARK_CMD that no other is before begins its operation. -/
theorem writes_markQuery {s v : State} {a : RpAcc} {f : CcFault} (hop : fld a.data 1 0 = 1)
    (hidle : bit ((s.accepting Reg.DF_MARK_CMD a).regAt Reg.DF_MARK_STAT) 31 = false)
    (hv : (s.accepting Reg.DF_MARK_CMD a).begins (.mark 1) f (fun cc t => t.markOp 1 cc) = v) : Writes (.markQuery a f) s Reg.DF_MARK_CMD a v :=
  writes_of rfl ((if_pos ⟨hop, Bool.eq_false_iff.mp hidle⟩).trans hv)

/-- A command that wants a line makes that lookup and no more (R316). -/
theorem yields_of_looked_wants {c : Instr} {s u : State} {w : Nat × CcLookup × CcFault} (h : exec c s = looked s u)
    (hwants : u.cache.wanted = some w) : Yields c s ((s.ccLook w.1 w.2.1 w.2.2 true).getD s) := by
  refine yields_of_done (h.trans (congrArg (done s) ?_))
  unfold State.waited
  rw [hwants]

end Sys2Proof.Machine
open Sys2Proof Sys2Proof.Machine

/-- Settles O40: every command's answer rests (`step_rests`), and what an operation that wants a line comes to is the first round of
`State.attempt`. -/
theorem lookupsWait : Obligations.LookupsWait := by
  refine ⟨fun s t hnone hstep => step_rests hnone t hstep, fun s h cc f hnone hfirst w hwants => ?_, fun s h => ?_, fun s a f => ?_,
    fun s n f x m hwork hnote hidle hreach hsettled w hunread hwants => ?_, fun u h => State.resume_single⟩
  · exact ⟨State.begins_blocked hnone hfirst hwants, fun u => State.begins_missed hnone hfirst hwants⟩
  · exact ⟨s.hold_held h, fun hc k => State.hold_busy hc⟩
  · intro A u hnone hop hidle w hwants hblocked
    have hcache : u.cache = s.cache := State.accepting_cache s A a
    exact writes_markQuery hop hidle
      (State.begins_blocked (s := u) (f := fun cc t => t.markOp 1 cc) (hcache ▸ hnone) (Held.after_mark 1 _) hwants hblocked)
  · exact yields_of_looked_wants (State.MayFetch.unread ⟨hwork, hnote, hidle, hreach, hsettled⟩ hunread x) hwants
end
